-- ==== Sys2Proof/Word.lean ====
section
/-! DEFINITION. The word types of the machine. Bit 0 of the manual is the most significant bit (spec/00_scope.md R14);
the helpers that read bits by the manual's numbers are in Sys2Proof/Machine/Bits.lean. -/

namespace Sys2Proof

/-- A byte. -/
abbrev Byte := BitVec 8
/-- A halfword, 16 bits. -/
abbrev Half := BitVec 16
/-- A word, 32 bits. -/
abbrev Word := BitVec 32
/-- A doubleword, 64 bits. -/
abbrev DWord := BitVec 64
/-- A quadword, 128 bits: a vector register of the PPE or a register of an SPU. -/
abbrev QWord := BitVec 128

end Sys2Proof
end

