-- ==== Sys2Proof/Syntax.lean ====
section
/-! DEFINITION. The instructions of the three instruction sets of the chip: one constructor for each row of
spec/opcode_table.json. A constructor's operands are the row's fields; a split field of the encoding (the 6-bit shift
and mask bounds of the MD and XS forms, SPR and TBR, the branch offset of the hints) is one operand with its value
(30_encoding R541, R561). An MFC constructor carries the two class bytes of its command word (30_encoding R580). -/

namespace Sys2Proof

/-- An instruction or MFC command. -/
inductive Instr where
  -- PPE (PowerPC and vector/SIMD multimedia extension), spec/30_encoding.md R540 to R552
  /-- `b`, R600. -/
  | ppeB (li : BitVec 24) (aa lk : Bool)
  /-- `bc`, R601. -/
  | ppeBc (bo bi : BitVec 5) (bd : BitVec 14) (aa lk : Bool)
  /-- `bclr`, R602. -/
  | ppeBclr (bo bi : BitVec 5) (bh : BitVec 2) (lk : Bool)
  /-- `bcctr`, R603. -/
  | ppeBcctr (bo bi : BitVec 5) (bh : BitVec 2) (lk : Bool)
  /-- `sc`, R922. -/
  | ppeSc (lev : BitVec 7)
  /-- `rfid`, R923. -/
  | ppeRfid
  /-- `hrfid`, R924. -/
  | ppeHrfid
  /-- `isync`, R939. -/
  | ppeIsync
  /-- `crand`, R610. -/
  | ppeCrand (bt ba bb : BitVec 5)
  /-- `cror`, R611. -/
  | ppeCror (bt ba bb : BitVec 5)
  /-- `crxor`, R612. -/
  | ppeCrxor (bt ba bb : BitVec 5)
  /-- `crnand`, R613. -/
  | ppeCrnand (bt ba bb : BitVec 5)
  /-- `crnor`, R614. -/
  | ppeCrnor (bt ba bb : BitVec 5)
  /-- `creqv`, R615. -/
  | ppeCreqv (bt ba bb : BitVec 5)
  /-- `crandc`, R616. -/
  | ppeCrandc (bt ba bb : BitVec 5)
  /-- `crorc`, R617. -/
  | ppeCrorc (bt ba bb : BitVec 5)
  /-- `mcrf`, R618. -/
  | ppeMcrf (bf bfa : BitVec 3)
  /-- `tw`, R620. -/
  | ppeTw (trapOn ra rb : BitVec 5)
  /-- `td`, R622. -/
  | ppeTd (trapOn ra rb : BitVec 5)
  /-- `twi`, R621. -/
  | ppeTwi (trapOn ra : BitVec 5) (si : BitVec 16)
  /-- `tdi`, R623. -/
  | ppeTdi (trapOn ra : BitVec 5) (si : BitVec 16)
  /-- `mtspr`, R925. -/
  | ppeMtspr (rs : BitVec 5) (spr : BitVec 10)
  /-- `mfspr`, R926. -/
  | ppeMfspr (rt : BitVec 5) (spr : BitVec 10)
  /-- `mftb`, R927. -/
  | ppeMftb (rt : BitVec 5) (tbr : BitVec 10)
  /-- `mtmsr`, R929. -/
  | ppeMtmsr (rs : BitVec 5) (l : Bool)
  /-- `mtmsrd`, R928. -/
  | ppeMtmsrd (rs : BitVec 5) (l : Bool)
  /-- `mfmsr`, R931. -/
  | ppeMfmsr (rt : BitVec 5)
  /-- `mtcrf`, R932. -/
  | ppeMtcrf (rs : BitVec 5) (fxm : BitVec 8)
  /-- `mtocrf`, R933. -/
  | ppeMtocrf (rs : BitVec 5) (fxm : BitVec 8)
  /-- `mfcr`, R934. -/
  | ppeMfcr (rt : BitVec 5)
  /-- `mfocrf`, R935. -/
  | ppeMfocrf (rt : BitVec 5) (fxm : BitVec 8)
  /-- `sync`, R930. -/
  | ppeSync (l : BitVec 2)
  /-- `eieio`, R938. -/
  | ppeEieio
  /-- `slbmte`, R940. -/
  | ppeSlbmte (rs rb : BitVec 5)
  /-- `slbmfee`, R941. -/
  | ppeSlbmfee (rt rb : BitVec 5)
  /-- `slbmfev`, R942. -/
  | ppeSlbmfev (rt rb : BitVec 5)
  /-- `slbie`, R943. -/
  | ppeSlbie (rb : BitVec 5)
  /-- `slbia`, R944. -/
  | ppeSlbia
  /-- `tlbie`, R945. -/
  | ppeTlbie (l : Bool) (rb : BitVec 5)
  /-- `tlbiel`, R946. -/
  | ppeTlbiel (l : Bool) (rb : BitVec 5)
  /-- `tlbsync`, R947. -/
  | ppeTlbsync
  /-- `attn`, R950. -/
  | ppeAttn
  /-- `lbz`, R654. -/
  | ppeLbz (rt ra : BitVec 5) (d : BitVec 16)
  /-- `lbzu`, R655. -/
  | ppeLbzu (rt ra : BitVec 5) (d : BitVec 16)
  /-- `lhz`, R658. -/
  | ppeLhz (rt ra : BitVec 5) (d : BitVec 16)
  /-- `lhzu`, R659. -/
  | ppeLhzu (rt ra : BitVec 5) (d : BitVec 16)
  /-- `lha`, R662. -/
  | ppeLha (rt ra : BitVec 5) (d : BitVec 16)
  /-- `lhau`, R663. -/
  | ppeLhau (rt ra : BitVec 5) (d : BitVec 16)
  /-- `lwz`, R666. -/
  | ppeLwz (rt ra : BitVec 5) (d : BitVec 16)
  /-- `lwzu`, R667. -/
  | ppeLwzu (rt ra : BitVec 5) (d : BitVec 16)
  /-- `lmw`, R704. -/
  | ppeLmw (rt ra : BitVec 5) (d : BitVec 16)
  /-- `stb`, R677. -/
  | ppeStb (rs ra : BitVec 5) (d : BitVec 16)
  /-- `stbu`, R678. -/
  | ppeStbu (rs ra : BitVec 5) (d : BitVec 16)
  /-- `sth`, R681. -/
  | ppeSth (rs ra : BitVec 5) (d : BitVec 16)
  /-- `sthu`, R682. -/
  | ppeSthu (rs ra : BitVec 5) (d : BitVec 16)
  /-- `stw`, R685. -/
  | ppeStw (rs ra : BitVec 5) (d : BitVec 16)
  /-- `stwu`, R686. -/
  | ppeStwu (rs ra : BitVec 5) (d : BitVec 16)
  /-- `stmw`, R705. -/
  | ppeStmw (rs ra : BitVec 5) (d : BitVec 16)
  /-- `lfs`, R730. -/
  | ppeLfs (frt ra : BitVec 5) (d : BitVec 16)
  /-- `lfsu`, R731. -/
  | ppeLfsu (frt ra : BitVec 5) (d : BitVec 16)
  /-- `lfd`, R734. -/
  | ppeLfd (frt ra : BitVec 5) (d : BitVec 16)
  /-- `lfdu`, R735. -/
  | ppeLfdu (frt ra : BitVec 5) (d : BitVec 16)
  /-- `stfs`, R738. -/
  | ppeStfs (frs ra : BitVec 5) (d : BitVec 16)
  /-- `stfsu`, R716. -/
  | ppeStfsu (frs ra : BitVec 5) (d : BitVec 16)
  /-- `stfd`, R726. -/
  | ppeStfd (frs ra : BitVec 5) (d : BitVec 16)
  /-- `stfdu`, R727. -/
  | ppeStfdu (frs ra : BitVec 5) (d : BitVec 16)
  /-- `ld`, R673. -/
  | ppeLd (rt ra : BitVec 5) (ds : BitVec 14)
  /-- `ldu`, R674. -/
  | ppeLdu (rt ra : BitVec 5) (ds : BitVec 14)
  /-- `lwa`, R670. -/
  | ppeLwa (rt ra : BitVec 5) (ds : BitVec 14)
  /-- `std`, R689. -/
  | ppeStd (rs ra : BitVec 5) (ds : BitVec 14)
  /-- `stdu`, R690. -/
  | ppeStdu (rs ra : BitVec 5) (ds : BitVec 14)
  /-- `lbzx`, R656. -/
  | ppeLbzx (rt ra rb : BitVec 5)
  /-- `lbzux`, R657. -/
  | ppeLbzux (rt ra rb : BitVec 5)
  /-- `lhzx`, R660. -/
  | ppeLhzx (rt ra rb : BitVec 5)
  /-- `lhzux`, R661. -/
  | ppeLhzux (rt ra rb : BitVec 5)
  /-- `lhax`, R664. -/
  | ppeLhax (rt ra rb : BitVec 5)
  /-- `lhaux`, R665. -/
  | ppeLhaux (rt ra rb : BitVec 5)
  /-- `lwzx`, R668. -/
  | ppeLwzx (rt ra rb : BitVec 5)
  /-- `lwzux`, R669. -/
  | ppeLwzux (rt ra rb : BitVec 5)
  /-- `lwax`, R671. -/
  | ppeLwax (rt ra rb : BitVec 5)
  /-- `lwaux`, R672. -/
  | ppeLwaux (rt ra rb : BitVec 5)
  /-- `ldx`, R675. -/
  | ppeLdx (rt ra rb : BitVec 5)
  /-- `ldux`, R676. -/
  | ppeLdux (rt ra rb : BitVec 5)
  /-- `lhbrx`, R693. -/
  | ppeLhbrx (rt ra rb : BitVec 5)
  /-- `lwbrx`, R694. -/
  | ppeLwbrx (rt ra rb : BitVec 5)
  /-- `lswx`, R707. -/
  | ppeLswx (rt ra rb : BitVec 5)
  /-- `lwarx`, R712. -/
  | ppeLwarx (rt ra rb : BitVec 5)
  /-- `ldarx`, R713. -/
  | ppeLdarx (rt ra rb : BitVec 5)
  /-- `ldbrx`, R695. -/
  | ppeLdbrx (rt ra rb : BitVec 5)
  /-- `stbx`, R679. -/
  | ppeStbx (rs ra rb : BitVec 5)
  /-- `stbux`, R680. -/
  | ppeStbux (rs ra rb : BitVec 5)
  /-- `sthx`, R683. -/
  | ppeSthx (rs ra rb : BitVec 5)
  /-- `sthux`, R684. -/
  | ppeSthux (rs ra rb : BitVec 5)
  /-- `stwx`, R687. -/
  | ppeStwx (rs ra rb : BitVec 5)
  /-- `stwux`, R688. -/
  | ppeStwux (rs ra rb : BitVec 5)
  /-- `stdx`, R691. -/
  | ppeStdx (rs ra rb : BitVec 5)
  /-- `stdux`, R692. -/
  | ppeStdux (rs ra rb : BitVec 5)
  /-- `sthbrx`, R696. -/
  | ppeSthbrx (rs ra rb : BitVec 5)
  /-- `stwbrx`, R697. -/
  | ppeStwbrx (rs ra rb : BitVec 5)
  /-- `stswx`, R709. -/
  | ppeStswx (rs ra rb : BitVec 5)
  /-- `stdbrx`, R698. -/
  | ppeStdbrx (rs ra rb : BitVec 5)
  /-- `lswi`, R706. -/
  | ppeLswi (rt ra nb : BitVec 5)
  /-- `stswi`, R708. -/
  | ppeStswi (rs ra nb : BitVec 5)
  /-- `stwcx.`, R714. -/
  | ppeStwcxDot (rs ra rb : BitVec 5)
  /-- `stdcx.`, R715. -/
  | ppeStdcxDot (rs ra rb : BitVec 5)
  /-- `dcbt`, R720. -/
  | ppeDcbt (th : BitVec 4) (ra rb : BitVec 5)
  /-- `dcbtst`, R721. -/
  | ppeDcbtst (ra rb : BitVec 5)
  /-- `dcbz`, R722. -/
  | ppeDcbz (ra rb : BitVec 5)
  /-- `dcbst`, R723. -/
  | ppeDcbst (ra rb : BitVec 5)
  /-- `dcbf`, R724. -/
  | ppeDcbf (ra rb : BitVec 5)
  /-- `icbi`, R725. -/
  | ppeIcbi (ra rb : BitVec 5)
  /-- `lfsx`, R732. -/
  | ppeLfsx (frt ra rb : BitVec 5)
  /-- `lfsux`, R733. -/
  | ppeLfsux (frt ra rb : BitVec 5)
  /-- `lfdx`, R736. -/
  | ppeLfdx (frt ra rb : BitVec 5)
  /-- `lfdux`, R737. -/
  | ppeLfdux (frt ra rb : BitVec 5)
  /-- `stfsx`, R717. -/
  | ppeStfsx (frs ra rb : BitVec 5)
  /-- `stfsux`, R718. -/
  | ppeStfsux (frs ra rb : BitVec 5)
  /-- `stfdx`, R728. -/
  | ppeStfdx (frs ra rb : BitVec 5)
  /-- `stfdux`, R729. -/
  | ppeStfdux (frs ra rb : BitVec 5)
  /-- `stfiwx`, R739. -/
  | ppeStfiwx (frs ra rb : BitVec 5)
  /-- `addi`, R741. -/
  | ppeAddi (rt ra : BitVec 5) (si : BitVec 16)
  /-- `addis`, R742. -/
  | ppeAddis (rt ra : BitVec 5) (si : BitVec 16)
  /-- `addic`, R745. -/
  | ppeAddic (rt ra : BitVec 5) (si : BitVec 16)
  /-- `addic.`, R746. -/
  | ppeAddicDot (rt ra : BitVec 5) (si : BitVec 16)
  /-- `subfic`, R747. -/
  | ppeSubfic (rt ra : BitVec 5) (si : BitVec 16)
  /-- `mulli`, R760. -/
  | ppeMulli (rt ra : BitVec 5) (si : BitVec 16)
  /-- `ori`, R780. -/
  | ppeOri (rs ra : BitVec 5) (ui : BitVec 16)
  /-- `oris`, R781. -/
  | ppeOris (rs ra : BitVec 5) (ui : BitVec 16)
  /-- `xori`, R782. -/
  | ppeXori (rs ra : BitVec 5) (ui : BitVec 16)
  /-- `xoris`, R783. -/
  | ppeXoris (rs ra : BitVec 5) (ui : BitVec 16)
  /-- `andi.`, R784. -/
  | ppeAndiDot (rs ra : BitVec 5) (ui : BitVec 16)
  /-- `andis.`, R785. -/
  | ppeAndisDot (rs ra : BitVec 5) (ui : BitVec 16)
  /-- `cmpi`, R775. -/
  | ppeCmpi (bf : BitVec 3) (l : Bool) (ra : BitVec 5) (si : BitVec 16)
  /-- `cmpli`, R777. -/
  | ppeCmpli (bf : BitVec 3) (l : Bool) (ra : BitVec 5) (ui : BitVec 16)
  /-- `add`, R743. -/
  | ppeAdd (rt ra rb : BitVec 5) (oe rec : Bool)
  /-- `addc`, R748. -/
  | ppeAddc (rt ra rb : BitVec 5) (oe rec : Bool)
  /-- `adde`, R750. -/
  | ppeAdde (rt ra rb : BitVec 5) (oe rec : Bool)
  /-- `subf`, R744. -/
  | ppeSubf (rt ra rb : BitVec 5) (oe rec : Bool)
  /-- `subfc`, R749. -/
  | ppeSubfc (rt ra rb : BitVec 5) (oe rec : Bool)
  /-- `subfe`, R751. -/
  | ppeSubfe (rt ra rb : BitVec 5) (oe rec : Bool)
  /-- `mullw`, R761. -/
  | ppeMullw (rt ra rb : BitVec 5) (oe rec : Bool)
  /-- `mulld`, R764. -/
  | ppeMulld (rt ra rb : BitVec 5) (oe rec : Bool)
  /-- `divw`, R767. -/
  | ppeDivw (rt ra rb : BitVec 5) (oe rec : Bool)
  /-- `divwu`, R768. -/
  | ppeDivwu (rt ra rb : BitVec 5) (oe rec : Bool)
  /-- `divd`, R769. -/
  | ppeDivd (rt ra rb : BitVec 5) (oe rec : Bool)
  /-- `divdu`, R770. -/
  | ppeDivdu (rt ra rb : BitVec 5) (oe rec : Bool)
  /-- `addme`, R752. -/
  | ppeAddme (rt ra : BitVec 5) (oe rec : Bool)
  /-- `addze`, R754. -/
  | ppeAddze (rt ra : BitVec 5) (oe rec : Bool)
  /-- `subfme`, R753. -/
  | ppeSubfme (rt ra : BitVec 5) (oe rec : Bool)
  /-- `subfze`, R755. -/
  | ppeSubfze (rt ra : BitVec 5) (oe rec : Bool)
  /-- `neg`, R756. -/
  | ppeNeg (rt ra : BitVec 5) (oe rec : Bool)
  /-- `mulhw`, R762. -/
  | ppeMulhw (rt ra rb : BitVec 5) (rec : Bool)
  /-- `mulhwu`, R763. -/
  | ppeMulhwu (rt ra rb : BitVec 5) (rec : Bool)
  /-- `mulhd`, R765. -/
  | ppeMulhd (rt ra rb : BitVec 5) (rec : Bool)
  /-- `mulhdu`, R766. -/
  | ppeMulhdu (rt ra rb : BitVec 5) (rec : Bool)
  /-- `cmp`, R776. -/
  | ppeCmp (bf : BitVec 3) (l : Bool) (ra rb : BitVec 5)
  /-- `cmpl`, R778. -/
  | ppeCmpl (bf : BitVec 3) (l : Bool) (ra rb : BitVec 5)
  /-- `and`, R786. -/
  | ppeAnd (rs ra rb : BitVec 5) (rec : Bool)
  /-- `andc`, R792. -/
  | ppeAndc (rs ra rb : BitVec 5) (rec : Bool)
  /-- `or`, R787. -/
  | ppeOr (rs ra rb : BitVec 5) (rec : Bool)
  /-- `orc`, R793. -/
  | ppeOrc (rs ra rb : BitVec 5) (rec : Bool)
  /-- `xor`, R788. -/
  | ppeXor (rs ra rb : BitVec 5) (rec : Bool)
  /-- `nand`, R789. -/
  | ppeNand (rs ra rb : BitVec 5) (rec : Bool)
  /-- `nor`, R790. -/
  | ppeNor (rs ra rb : BitVec 5) (rec : Bool)
  /-- `eqv`, R791. -/
  | ppeEqv (rs ra rb : BitVec 5) (rec : Bool)
  /-- `slw`, R812. -/
  | ppeSlw (rs ra rb : BitVec 5) (rec : Bool)
  /-- `srw`, R813. -/
  | ppeSrw (rs ra rb : BitVec 5) (rec : Bool)
  /-- `sraw`, R814. -/
  | ppeSraw (rs ra rb : BitVec 5) (rec : Bool)
  /-- `sld`, R816. -/
  | ppeSld (rs ra rb : BitVec 5) (rec : Bool)
  /-- `srd`, R817. -/
  | ppeSrd (rs ra rb : BitVec 5) (rec : Bool)
  /-- `srad`, R818. -/
  | ppeSrad (rs ra rb : BitVec 5) (rec : Bool)
  /-- `extsb`, R794. -/
  | ppeExtsb (rs ra : BitVec 5) (rec : Bool)
  /-- `extsh`, R795. -/
  | ppeExtsh (rs ra : BitVec 5) (rec : Bool)
  /-- `extsw`, R796. -/
  | ppeExtsw (rs ra : BitVec 5) (rec : Bool)
  /-- `cntlzw`, R797. -/
  | ppeCntlzw (rs ra : BitVec 5) (rec : Bool)
  /-- `cntlzd`, R798. -/
  | ppeCntlzd (rs ra : BitVec 5) (rec : Bool)
  /-- `srawi`, R815. -/
  | ppeSrawi (rs ra sh : BitVec 5) (rec : Bool)
  /-- `sradi`, R819. -/
  | ppeSradi (rs ra : BitVec 5) (sh : BitVec 6) (rec : Bool)
  /-- `rlwimi`, R802. -/
  | ppeRlwimi (rs ra sh mb me : BitVec 5) (rec : Bool)
  /-- `rlwinm`, R800. -/
  | ppeRlwinm (rs ra sh mb me : BitVec 5) (rec : Bool)
  /-- `rlwnm`, R801. -/
  | ppeRlwnm (rs ra rb mb me : BitVec 5) (rec : Bool)
  /-- `rldicl`, R803. -/
  | ppeRldicl (rs ra : BitVec 5) (sh mb : BitVec 6) (rec : Bool)
  /-- `rldicr`, R804. -/
  | ppeRldicr (rs ra : BitVec 5) (sh me : BitVec 6) (rec : Bool)
  /-- `rldic`, R805. -/
  | ppeRldic (rs ra : BitVec 5) (sh mb : BitVec 6) (rec : Bool)
  /-- `rldimi`, R806. -/
  | ppeRldimi (rs ra : BitVec 5) (sh mb : BitVec 6) (rec : Bool)
  /-- `rldcl`, R807. -/
  | ppeRldcl (rs ra rb : BitVec 5) (mb : BitVec 6) (rec : Bool)
  /-- `rldcr`, R808. -/
  | ppeRldcr (rs ra rb : BitVec 5) (me : BitVec 6) (rec : Bool)
  /-- `fadd`, R855. -/
  | ppeFadd (frt fra frb : BitVec 5) (rec : Bool)
  /-- `fadds`, R856. -/
  | ppeFadds (frt fra frb : BitVec 5) (rec : Bool)
  /-- `fsub`, R857. -/
  | ppeFsub (frt fra frb : BitVec 5) (rec : Bool)
  /-- `fsubs`, R858. -/
  | ppeFsubs (frt fra frb : BitVec 5) (rec : Bool)
  /-- `fdiv`, R861. -/
  | ppeFdiv (frt fra frb : BitVec 5) (rec : Bool)
  /-- `fdivs`, R862. -/
  | ppeFdivs (frt fra frb : BitVec 5) (rec : Bool)
  /-- `fmul`, R859. -/
  | ppeFmul (frt fra frc : BitVec 5) (rec : Bool)
  /-- `fmuls`, R860. -/
  | ppeFmuls (frt fra frc : BitVec 5) (rec : Bool)
  /-- `fsqrt`, R863. -/
  | ppeFsqrt (frt frb : BitVec 5) (rec : Bool)
  /-- `fsqrts`, R864. -/
  | ppeFsqrts (frt frb : BitVec 5) (rec : Bool)
  /-- `fres`, R873. -/
  | ppeFres (frt frb : BitVec 5) (rec : Bool)
  /-- `frsqrte`, R874. -/
  | ppeFrsqrte (frt frb : BitVec 5) (rec : Bool)
  /-- `fsel`, R875. -/
  | ppeFsel (frt fra frb frc : BitVec 5) (rec : Bool)
  /-- `fmadd`, R865. -/
  | ppeFmadd (frt fra frb frc : BitVec 5) (rec : Bool)
  /-- `fmadds`, R866. -/
  | ppeFmadds (frt fra frb frc : BitVec 5) (rec : Bool)
  /-- `fmsub`, R867. -/
  | ppeFmsub (frt fra frb frc : BitVec 5) (rec : Bool)
  /-- `fmsubs`, R868. -/
  | ppeFmsubs (frt fra frb frc : BitVec 5) (rec : Bool)
  /-- `fnmadd`, R869. -/
  | ppeFnmadd (frt fra frb frc : BitVec 5) (rec : Bool)
  /-- `fnmadds`, R870. -/
  | ppeFnmadds (frt fra frb frc : BitVec 5) (rec : Bool)
  /-- `fnmsub`, R871. -/
  | ppeFnmsub (frt fra frb frc : BitVec 5) (rec : Bool)
  /-- `fnmsubs`, R872. -/
  | ppeFnmsubs (frt fra frb frc : BitVec 5) (rec : Bool)
  /-- `fmr`, R850. -/
  | ppeFmr (frt frb : BitVec 5) (rec : Bool)
  /-- `fneg`, R851. -/
  | ppeFneg (frt frb : BitVec 5) (rec : Bool)
  /-- `fabs`, R852. -/
  | ppeFabs (frt frb : BitVec 5) (rec : Bool)
  /-- `fnabs`, R853. -/
  | ppeFnabs (frt frb : BitVec 5) (rec : Bool)
  /-- `frsp`, R880. -/
  | ppeFrsp (frt frb : BitVec 5) (rec : Bool)
  /-- `fctid`, R881. -/
  | ppeFctid (frt frb : BitVec 5) (rec : Bool)
  /-- `fctidz`, R882. -/
  | ppeFctidz (frt frb : BitVec 5) (rec : Bool)
  /-- `fctiw`, R883. -/
  | ppeFctiw (frt frb : BitVec 5) (rec : Bool)
  /-- `fctiwz`, R884. -/
  | ppeFctiwz (frt frb : BitVec 5) (rec : Bool)
  /-- `fcfid`, R885. -/
  | ppeFcfid (frt frb : BitVec 5) (rec : Bool)
  /-- `fcmpu`, R888. -/
  | ppeFcmpu (bf : BitVec 3) (fra frb : BitVec 5)
  /-- `fcmpo`, R889. -/
  | ppeFcmpo (bf : BitVec 3) (fra frb : BitVec 5)
  /-- `mffs`, R892. -/
  | ppeMffs (frt : BitVec 5) (rec : Bool)
  /-- `mcrfs`, R893. -/
  | ppeMcrfs (bf bfa : BitVec 3)
  /-- `mtfsfi`, R894. -/
  | ppeMtfsfi (bf : BitVec 3) (u : BitVec 4) (rec : Bool)
  /-- `mtfsf`, R895. -/
  | ppeMtfsf (flm : BitVec 8) (frb : BitVec 5) (rec : Bool)
  /-- `mtfsb0`, R896. -/
  | ppeMtfsb0 (bt : BitVec 5) (rec : Bool)
  /-- `mtfsb1`, R897. -/
  | ppeMtfsb1 (bt : BitVec 5) (rec : Bool)
  /-- `lvsl`, R1012. -/
  | ppeLvsl (vrt ra rb : BitVec 5)
  /-- `lvsr`, R1013. -/
  | ppeLvsr (vrt ra rb : BitVec 5)
  /-- `lvebx`, R1005. -/
  | ppeLvebx (vrt ra rb : BitVec 5)
  /-- `lvehx`, R1006. -/
  | ppeLvehx (vrt ra rb : BitVec 5)
  /-- `lvewx`, R1007. -/
  | ppeLvewx (vrt ra rb : BitVec 5)
  /-- `lvx`, R1003. -/
  | ppeLvx (vrt ra rb : BitVec 5)
  /-- `lvxl`, R1004. -/
  | ppeLvxl (vrt ra rb : BitVec 5)
  /-- `lvlx`, R1008. -/
  | ppeLvlx (vrt ra rb : BitVec 5)
  /-- `lvrx`, R1010. -/
  | ppeLvrx (vrt ra rb : BitVec 5)
  /-- `lvlxl`, R1009. -/
  | ppeLvlxl (vrt ra rb : BitVec 5)
  /-- `lvrxl`, R1011. -/
  | ppeLvrxl (vrt ra rb : BitVec 5)
  /-- `stvebx`, R1016. -/
  | ppeStvebx (vrs ra rb : BitVec 5)
  /-- `stvehx`, R1017. -/
  | ppeStvehx (vrs ra rb : BitVec 5)
  /-- `stvewx`, R1018. -/
  | ppeStvewx (vrs ra rb : BitVec 5)
  /-- `stvx`, R1014. -/
  | ppeStvx (vrs ra rb : BitVec 5)
  /-- `stvxl`, R1015. -/
  | ppeStvxl (vrs ra rb : BitVec 5)
  /-- `stvlx`, R1019. -/
  | ppeStvlx (vrs ra rb : BitVec 5)
  /-- `stvrx`, R1021. -/
  | ppeStvrx (vrs ra rb : BitVec 5)
  /-- `stvlxl`, R1020. -/
  | ppeStvlxl (vrs ra rb : BitVec 5)
  /-- `stvrxl`, R1022. -/
  | ppeStvrxl (vrs ra rb : BitVec 5)
  /-- `dst`, R1024. -/
  | ppeDst (strm : BitVec 2) (ra rb : BitVec 5)
  /-- `dstt`, R1025. -/
  | ppeDstt (strm : BitVec 2) (ra rb : BitVec 5)
  /-- `dstst`, R1026. -/
  | ppeDstst (strm : BitVec 2) (ra rb : BitVec 5)
  /-- `dststt`, R1027. -/
  | ppeDststt (strm : BitVec 2) (ra rb : BitVec 5)
  /-- `dss`, R1028. -/
  | ppeDss (strm : BitVec 2)
  /-- `dssall`, R1029. -/
  | ppeDssall
  /-- `vperm`, R1030. -/
  | ppeVperm (vrt vra vrb vrc : BitVec 5)
  /-- `vsel`, R1031. -/
  | ppeVsel (vrt vra vrb vrc : BitVec 5)
  /-- `vsldoi`, R1032. -/
  | ppeVsldoi (vrt vra vrb : BitVec 5) (shb : BitVec 4)
  /-- `vslo`, R1033. -/
  | ppeVslo (vrt vra vrb : BitVec 5)
  /-- `vsro`, R1034. -/
  | ppeVsro (vrt vra vrb : BitVec 5)
  /-- `vmrghb`, R1035. -/
  | ppeVmrghb (vrt vra vrb : BitVec 5)
  /-- `vmrghh`, R1036. -/
  | ppeVmrghh (vrt vra vrb : BitVec 5)
  /-- `vmrghw`, R1037. -/
  | ppeVmrghw (vrt vra vrb : BitVec 5)
  /-- `vmrglb`, R1038. -/
  | ppeVmrglb (vrt vra vrb : BitVec 5)
  /-- `vmrglh`, R1039. -/
  | ppeVmrglh (vrt vra vrb : BitVec 5)
  /-- `vmrglw`, R1040. -/
  | ppeVmrglw (vrt vra vrb : BitVec 5)
  /-- `vspltb`, R1041. -/
  | ppeVspltb (vrt vrb uim : BitVec 5)
  /-- `vsplth`, R1042. -/
  | ppeVsplth (vrt vrb uim : BitVec 5)
  /-- `vspltw`, R1043. -/
  | ppeVspltw (vrt vrb uim : BitVec 5)
  /-- `vspltisb`, R1044. -/
  | ppeVspltisb (vrt simm : BitVec 5)
  /-- `vspltish`, R1045. -/
  | ppeVspltish (vrt simm : BitVec 5)
  /-- `vspltisw`, R1046. -/
  | ppeVspltisw (vrt simm : BitVec 5)
  /-- `vpkuhum`, R1047. -/
  | ppeVpkuhum (vrt vra vrb : BitVec 5)
  /-- `vpkuwum`, R1048. -/
  | ppeVpkuwum (vrt vra vrb : BitVec 5)
  /-- `vpkuhus`, R1049. -/
  | ppeVpkuhus (vrt vra vrb : BitVec 5)
  /-- `vpkuwus`, R1050. -/
  | ppeVpkuwus (vrt vra vrb : BitVec 5)
  /-- `vpkshus`, R1051. -/
  | ppeVpkshus (vrt vra vrb : BitVec 5)
  /-- `vpkswus`, R1052. -/
  | ppeVpkswus (vrt vra vrb : BitVec 5)
  /-- `vpkshss`, R1053. -/
  | ppeVpkshss (vrt vra vrb : BitVec 5)
  /-- `vpkswss`, R1054. -/
  | ppeVpkswss (vrt vra vrb : BitVec 5)
  /-- `vpkpx`, R1055. -/
  | ppeVpkpx (vrt vra vrb : BitVec 5)
  /-- `vupkhsb`, R1056. -/
  | ppeVupkhsb (vrt vrb : BitVec 5)
  /-- `vupkhsh`, R1057. -/
  | ppeVupkhsh (vrt vrb : BitVec 5)
  /-- `vupklsb`, R1058. -/
  | ppeVupklsb (vrt vrb : BitVec 5)
  /-- `vupklsh`, R1059. -/
  | ppeVupklsh (vrt vrb : BitVec 5)
  /-- `vupkhpx`, R1060. -/
  | ppeVupkhpx (vrt vrb : BitVec 5)
  /-- `vupklpx`, R1061. -/
  | ppeVupklpx (vrt vrb : BitVec 5)
  /-- `vand`, R1062. -/
  | ppeVand (vrt vra vrb : BitVec 5)
  /-- `vandc`, R1063. -/
  | ppeVandc (vrt vra vrb : BitVec 5)
  /-- `vor`, R1064. -/
  | ppeVor (vrt vra vrb : BitVec 5)
  /-- `vxor`, R1065. -/
  | ppeVxor (vrt vra vrb : BitVec 5)
  /-- `vnor`, R1066. -/
  | ppeVnor (vrt vra vrb : BitVec 5)
  /-- `vrlb`, R1067. -/
  | ppeVrlb (vrt vra vrb : BitVec 5)
  /-- `vrlh`, R1068. -/
  | ppeVrlh (vrt vra vrb : BitVec 5)
  /-- `vrlw`, R1069. -/
  | ppeVrlw (vrt vra vrb : BitVec 5)
  /-- `vslb`, R1070. -/
  | ppeVslb (vrt vra vrb : BitVec 5)
  /-- `vslh`, R1071. -/
  | ppeVslh (vrt vra vrb : BitVec 5)
  /-- `vslw`, R1072. -/
  | ppeVslw (vrt vra vrb : BitVec 5)
  /-- `vsrb`, R1073. -/
  | ppeVsrb (vrt vra vrb : BitVec 5)
  /-- `vsrh`, R1074. -/
  | ppeVsrh (vrt vra vrb : BitVec 5)
  /-- `vsrw`, R1075. -/
  | ppeVsrw (vrt vra vrb : BitVec 5)
  /-- `vsrab`, R1076. -/
  | ppeVsrab (vrt vra vrb : BitVec 5)
  /-- `vsrah`, R1077. -/
  | ppeVsrah (vrt vra vrb : BitVec 5)
  /-- `vsraw`, R1078. -/
  | ppeVsraw (vrt vra vrb : BitVec 5)
  /-- `vsl`, R1079. -/
  | ppeVsl (vrt vra vrb : BitVec 5)
  /-- `vsr`, R1080. -/
  | ppeVsr (vrt vra vrb : BitVec 5)
  /-- `vaddubm`, R1101. -/
  | ppeVaddubm (vrt vra vrb : BitVec 5)
  /-- `vadduhm`, R1102. -/
  | ppeVadduhm (vrt vra vrb : BitVec 5)
  /-- `vadduwm`, R1103. -/
  | ppeVadduwm (vrt vra vrb : BitVec 5)
  /-- `vaddcuw`, R1104. -/
  | ppeVaddcuw (vrt vra vrb : BitVec 5)
  /-- `vaddubs`, R1105. -/
  | ppeVaddubs (vrt vra vrb : BitVec 5)
  /-- `vadduhs`, R1106. -/
  | ppeVadduhs (vrt vra vrb : BitVec 5)
  /-- `vadduws`, R1107. -/
  | ppeVadduws (vrt vra vrb : BitVec 5)
  /-- `vaddsbs`, R1108. -/
  | ppeVaddsbs (vrt vra vrb : BitVec 5)
  /-- `vaddshs`, R1109. -/
  | ppeVaddshs (vrt vra vrb : BitVec 5)
  /-- `vaddsws`, R1110. -/
  | ppeVaddsws (vrt vra vrb : BitVec 5)
  /-- `vsububm`, R1111. -/
  | ppeVsububm (vrt vra vrb : BitVec 5)
  /-- `vsubuhm`, R1112. -/
  | ppeVsubuhm (vrt vra vrb : BitVec 5)
  /-- `vsubuwm`, R1113. -/
  | ppeVsubuwm (vrt vra vrb : BitVec 5)
  /-- `vsubcuw`, R1114. -/
  | ppeVsubcuw (vrt vra vrb : BitVec 5)
  /-- `vsububs`, R1115. -/
  | ppeVsububs (vrt vra vrb : BitVec 5)
  /-- `vsubuhs`, R1116. -/
  | ppeVsubuhs (vrt vra vrb : BitVec 5)
  /-- `vsubuws`, R1117. -/
  | ppeVsubuws (vrt vra vrb : BitVec 5)
  /-- `vsubsbs`, R1118. -/
  | ppeVsubsbs (vrt vra vrb : BitVec 5)
  /-- `vsubshs`, R1119. -/
  | ppeVsubshs (vrt vra vrb : BitVec 5)
  /-- `vsubsws`, R1120. -/
  | ppeVsubsws (vrt vra vrb : BitVec 5)
  /-- `vavgub`, R1121. -/
  | ppeVavgub (vrt vra vrb : BitVec 5)
  /-- `vavguh`, R1122. -/
  | ppeVavguh (vrt vra vrb : BitVec 5)
  /-- `vavguw`, R1123. -/
  | ppeVavguw (vrt vra vrb : BitVec 5)
  /-- `vavgsb`, R1124. -/
  | ppeVavgsb (vrt vra vrb : BitVec 5)
  /-- `vavgsh`, R1125. -/
  | ppeVavgsh (vrt vra vrb : BitVec 5)
  /-- `vavgsw`, R1126. -/
  | ppeVavgsw (vrt vra vrb : BitVec 5)
  /-- `vmaxub`, R1127. -/
  | ppeVmaxub (vrt vra vrb : BitVec 5)
  /-- `vmaxuh`, R1128. -/
  | ppeVmaxuh (vrt vra vrb : BitVec 5)
  /-- `vmaxuw`, R1129. -/
  | ppeVmaxuw (vrt vra vrb : BitVec 5)
  /-- `vmaxsb`, R1130. -/
  | ppeVmaxsb (vrt vra vrb : BitVec 5)
  /-- `vmaxsh`, R1131. -/
  | ppeVmaxsh (vrt vra vrb : BitVec 5)
  /-- `vmaxsw`, R1132. -/
  | ppeVmaxsw (vrt vra vrb : BitVec 5)
  /-- `vminub`, R1133. -/
  | ppeVminub (vrt vra vrb : BitVec 5)
  /-- `vminuh`, R1134. -/
  | ppeVminuh (vrt vra vrb : BitVec 5)
  /-- `vminuw`, R1135. -/
  | ppeVminuw (vrt vra vrb : BitVec 5)
  /-- `vminsb`, R1136. -/
  | ppeVminsb (vrt vra vrb : BitVec 5)
  /-- `vminsh`, R1137. -/
  | ppeVminsh (vrt vra vrb : BitVec 5)
  /-- `vminsw`, R1138. -/
  | ppeVminsw (vrt vra vrb : BitVec 5)
  /-- `vcmpequb`, R1140. -/
  | ppeVcmpequb (vrt vra vrb : BitVec 5) (rec : Bool)
  /-- `vcmpequh`, R1141. -/
  | ppeVcmpequh (vrt vra vrb : BitVec 5) (rec : Bool)
  /-- `vcmpequw`, R1142. -/
  | ppeVcmpequw (vrt vra vrb : BitVec 5) (rec : Bool)
  /-- `vcmpeqfp`, R1143. -/
  | ppeVcmpeqfp (vrt vra vrb : BitVec 5) (rec : Bool)
  /-- `vcmpgefp`, R1144. -/
  | ppeVcmpgefp (vrt vra vrb : BitVec 5) (rec : Bool)
  /-- `vcmpgtub`, R1145. -/
  | ppeVcmpgtub (vrt vra vrb : BitVec 5) (rec : Bool)
  /-- `vcmpgtuh`, R1146. -/
  | ppeVcmpgtuh (vrt vra vrb : BitVec 5) (rec : Bool)
  /-- `vcmpgtuw`, R1147. -/
  | ppeVcmpgtuw (vrt vra vrb : BitVec 5) (rec : Bool)
  /-- `vcmpgtfp`, R1148. -/
  | ppeVcmpgtfp (vrt vra vrb : BitVec 5) (rec : Bool)
  /-- `vcmpgtsb`, R1149. -/
  | ppeVcmpgtsb (vrt vra vrb : BitVec 5) (rec : Bool)
  /-- `vcmpgtsh`, R1150. -/
  | ppeVcmpgtsh (vrt vra vrb : BitVec 5) (rec : Bool)
  /-- `vcmpgtsw`, R1151. -/
  | ppeVcmpgtsw (vrt vra vrb : BitVec 5) (rec : Bool)
  /-- `vcmpbfp`, R1152. -/
  | ppeVcmpbfp (vrt vra vrb : BitVec 5) (rec : Bool)
  /-- `vmuleub`, R1153. -/
  | ppeVmuleub (vrt vra vrb : BitVec 5)
  /-- `vmuleuh`, R1154. -/
  | ppeVmuleuh (vrt vra vrb : BitVec 5)
  /-- `vmulesb`, R1155. -/
  | ppeVmulesb (vrt vra vrb : BitVec 5)
  /-- `vmulesh`, R1156. -/
  | ppeVmulesh (vrt vra vrb : BitVec 5)
  /-- `vmuloub`, R1157. -/
  | ppeVmuloub (vrt vra vrb : BitVec 5)
  /-- `vmulouh`, R1158. -/
  | ppeVmulouh (vrt vra vrb : BitVec 5)
  /-- `vmulosb`, R1159. -/
  | ppeVmulosb (vrt vra vrb : BitVec 5)
  /-- `vmulosh`, R1160. -/
  | ppeVmulosh (vrt vra vrb : BitVec 5)
  /-- `vmhaddshs`, R1161. -/
  | ppeVmhaddshs (vrt vra vrb vrc : BitVec 5)
  /-- `vmhraddshs`, R1162. -/
  | ppeVmhraddshs (vrt vra vrb vrc : BitVec 5)
  /-- `vmladduhm`, R1163. -/
  | ppeVmladduhm (vrt vra vrb vrc : BitVec 5)
  /-- `vmsumubm`, R1164. -/
  | ppeVmsumubm (vrt vra vrb vrc : BitVec 5)
  /-- `vmsummbm`, R1165. -/
  | ppeVmsummbm (vrt vra vrb vrc : BitVec 5)
  /-- `vmsumuhm`, R1166. -/
  | ppeVmsumuhm (vrt vra vrb vrc : BitVec 5)
  /-- `vmsumuhs`, R1167. -/
  | ppeVmsumuhs (vrt vra vrb vrc : BitVec 5)
  /-- `vmsumshm`, R1168. -/
  | ppeVmsumshm (vrt vra vrb vrc : BitVec 5)
  /-- `vmsumshs`, R1169. -/
  | ppeVmsumshs (vrt vra vrb vrc : BitVec 5)
  /-- `vsum4ubs`, R1170. -/
  | ppeVsum4ubs (vrt vra vrb : BitVec 5)
  /-- `vsum4sbs`, R1171. -/
  | ppeVsum4sbs (vrt vra vrb : BitVec 5)
  /-- `vsum4shs`, R1172. -/
  | ppeVsum4shs (vrt vra vrb : BitVec 5)
  /-- `vsum2sws`, R1173. -/
  | ppeVsum2sws (vrt vra vrb : BitVec 5)
  /-- `vsumsws`, R1174. -/
  | ppeVsumsws (vrt vra vrb : BitVec 5)
  /-- `mfvscr`, R1175. -/
  | ppeMfvscr (vrt : BitVec 5)
  /-- `mtvscr`, R1176. -/
  | ppeMtvscr (vrb : BitVec 5)
  /-- `vaddfp`, R1200. -/
  | ppeVaddfp (vrt vra vrb : BitVec 5)
  /-- `vsubfp`, R1201. -/
  | ppeVsubfp (vrt vra vrb : BitVec 5)
  /-- `vmaddfp`, R1202. -/
  | ppeVmaddfp (vrt vra vrb vrc : BitVec 5)
  /-- `vnmsubfp`, R1203. -/
  | ppeVnmsubfp (vrt vra vrb vrc : BitVec 5)
  /-- `vmaxfp`, R1204. -/
  | ppeVmaxfp (vrt vra vrb : BitVec 5)
  /-- `vminfp`, R1205. -/
  | ppeVminfp (vrt vra vrb : BitVec 5)
  /-- `vrefp`, R1206. -/
  | ppeVrefp (vrt vrb : BitVec 5)
  /-- `vrsqrtefp`, R1207. -/
  | ppeVrsqrtefp (vrt vrb : BitVec 5)
  /-- `vlogefp`, R1208. -/
  | ppeVlogefp (vrt vrb : BitVec 5)
  /-- `vexptefp`, R1209. -/
  | ppeVexptefp (vrt vrb : BitVec 5)
  /-- `vrfin`, R1210. -/
  | ppeVrfin (vrt vrb : BitVec 5)
  /-- `vrfiz`, R1211. -/
  | ppeVrfiz (vrt vrb : BitVec 5)
  /-- `vrfip`, R1212. -/
  | ppeVrfip (vrt vrb : BitVec 5)
  /-- `vrfim`, R1213. -/
  | ppeVrfim (vrt vrb : BitVec 5)
  /-- `vcfux`, R1214. -/
  | ppeVcfux (vrt vrb uim : BitVec 5)
  /-- `vcfsx`, R1215. -/
  | ppeVcfsx (vrt vrb uim : BitVec 5)
  /-- `vctuxs`, R1216. -/
  | ppeVctuxs (vrt vrb uim : BitVec 5)
  /-- `vctsxs`, R1217. -/
  | ppeVctsxs (vrt vrb uim : BitVec 5)
  -- SPU, spec/30_encoding.md R560 to R570
  /-- `lqd`, R1223. -/
  | spuLqd (rt ra : BitVec 7) (i10 : BitVec 10)
  /-- `lqx`, R1224. -/
  | spuLqx (rt ra rb : BitVec 7)
  /-- `lqa`, R1225. -/
  | spuLqa (rt : BitVec 7) (i16 : BitVec 16)
  /-- `lqr`, R1226. -/
  | spuLqr (rt : BitVec 7) (i16 : BitVec 16)
  /-- `stqd`, R1227. -/
  | spuStqd (rt ra : BitVec 7) (i10 : BitVec 10)
  /-- `stqx`, R1228. -/
  | spuStqx (rt ra rb : BitVec 7)
  /-- `stqa`, R1229. -/
  | spuStqa (rt : BitVec 7) (i16 : BitVec 16)
  /-- `stqr`, R1230. -/
  | spuStqr (rt : BitVec 7) (i16 : BitVec 16)
  /-- `cbd`, R1232. -/
  | spuCbd (rt ra i7 : BitVec 7)
  /-- `cbx`, R1233. -/
  | spuCbx (rt ra rb : BitVec 7)
  /-- `chd`, R1234. -/
  | spuChd (rt ra i7 : BitVec 7)
  /-- `chx`, R1235. -/
  | spuChx (rt ra rb : BitVec 7)
  /-- `cwd`, R1236. -/
  | spuCwd (rt ra i7 : BitVec 7)
  /-- `cwx`, R1237. -/
  | spuCwx (rt ra rb : BitVec 7)
  /-- `cdd`, R1238. -/
  | spuCdd (rt ra i7 : BitVec 7)
  /-- `cdx`, R1239. -/
  | spuCdx (rt ra rb : BitVec 7)
  /-- `ilh`, R1240. -/
  | spuIlh (rt : BitVec 7) (i16 : BitVec 16)
  /-- `ilhu`, R1241. -/
  | spuIlhu (rt : BitVec 7) (i16 : BitVec 16)
  /-- `il`, R1242. -/
  | spuIl (rt : BitVec 7) (i16 : BitVec 16)
  /-- `ila`, R1243. -/
  | spuIla (rt : BitVec 7) (i18 : BitVec 18)
  /-- `iohl`, R1244. -/
  | spuIohl (rt : BitVec 7) (i16 : BitVec 16)
  /-- `fsmbi`, R1245. -/
  | spuFsmbi (rt : BitVec 7) (i16 : BitVec 16)
  /-- `ah`, R1262. -/
  | spuAh (rt ra rb : BitVec 7)
  /-- `ahi`, R1264. -/
  | spuAhi (rt ra : BitVec 7) (i10 : BitVec 10)
  /-- `a`, R1261. -/
  | spuA (rt ra rb : BitVec 7)
  /-- `ai`, R1263. -/
  | spuAi (rt ra : BitVec 7) (i10 : BitVec 10)
  /-- `sfh`, R1266. -/
  | spuSfh (rt ra rb : BitVec 7)
  /-- `sfhi`, R1268. -/
  | spuSfhi (rt ra : BitVec 7) (i10 : BitVec 10)
  /-- `sf`, R1265. -/
  | spuSf (rt ra rb : BitVec 7)
  /-- `sfi`, R1267. -/
  | spuSfi (rt ra : BitVec 7) (i10 : BitVec 10)
  /-- `addx`, R1269. -/
  | spuAddx (rt ra rb : BitVec 7)
  /-- `cg`, R1270. -/
  | spuCg (rt ra rb : BitVec 7)
  /-- `cgx`, R1271. -/
  | spuCgx (rt ra rb : BitVec 7)
  /-- `sfx`, R1272. -/
  | spuSfx (rt ra rb : BitVec 7)
  /-- `bg`, R1273. -/
  | spuBg (rt ra rb : BitVec 7)
  /-- `bgx`, R1274. -/
  | spuBgx (rt ra rb : BitVec 7)
  /-- `mpy`, R1275. -/
  | spuMpy (rt ra rb : BitVec 7)
  /-- `mpyu`, R1276. -/
  | spuMpyu (rt ra rb : BitVec 7)
  /-- `mpyi`, R1277. -/
  | spuMpyi (rt ra : BitVec 7) (i10 : BitVec 10)
  /-- `mpyui`, R1278. -/
  | spuMpyui (rt ra : BitVec 7) (i10 : BitVec 10)
  /-- `mpya`, R1279. -/
  | spuMpya (rt ra rb rc : BitVec 7)
  /-- `mpyh`, R1280. -/
  | spuMpyh (rt ra rb : BitVec 7)
  /-- `mpys`, R1281. -/
  | spuMpys (rt ra rb : BitVec 7)
  /-- `mpyhh`, R1282. -/
  | spuMpyhh (rt ra rb : BitVec 7)
  /-- `mpyhha`, R1283. -/
  | spuMpyhha (rt ra rb : BitVec 7)
  /-- `mpyhhu`, R1284. -/
  | spuMpyhhu (rt ra rb : BitVec 7)
  /-- `mpyhhau`, R1285. -/
  | spuMpyhhau (rt ra rb : BitVec 7)
  /-- `clz`, R1290. -/
  | spuClz (rt ra : BitVec 7)
  /-- `cntb`, R1291. -/
  | spuCntb (rt ra : BitVec 7)
  /-- `fsmb`, R1292. -/
  | spuFsmb (rt ra : BitVec 7)
  /-- `fsmh`, R1293. -/
  | spuFsmh (rt ra : BitVec 7)
  /-- `fsm`, R1294. -/
  | spuFsm (rt ra : BitVec 7)
  /-- `gbb`, R1295. -/
  | spuGbb (rt ra : BitVec 7)
  /-- `gbh`, R1296. -/
  | spuGbh (rt ra : BitVec 7)
  /-- `gb`, R1297. -/
  | spuGb (rt ra : BitVec 7)
  /-- `avgb`, R1298. -/
  | spuAvgb (rt ra rb : BitVec 7)
  /-- `absdb`, R1299. -/
  | spuAbsdb (rt ra rb : BitVec 7)
  /-- `sumb`, R1300. -/
  | spuSumb (rt ra rb : BitVec 7)
  /-- `xsbh`, R1301. -/
  | spuXsbh (rt ra : BitVec 7)
  /-- `xshw`, R1302. -/
  | spuXshw (rt ra : BitVec 7)
  /-- `xswd`, R1303. -/
  | spuXswd (rt ra : BitVec 7)
  /-- `and`, R1305. -/
  | spuAnd (rt ra rb : BitVec 7)
  /-- `andc`, R1306. -/
  | spuAndc (rt ra rb : BitVec 7)
  /-- `andbi`, R1307. -/
  | spuAndbi (rt ra : BitVec 7) (i10 : BitVec 10)
  /-- `andhi`, R1308. -/
  | spuAndhi (rt ra : BitVec 7) (i10 : BitVec 10)
  /-- `andi`, R1309. -/
  | spuAndi (rt ra : BitVec 7) (i10 : BitVec 10)
  /-- `or`, R1310. -/
  | spuOr (rt ra rb : BitVec 7)
  /-- `orc`, R1311. -/
  | spuOrc (rt ra rb : BitVec 7)
  /-- `orbi`, R1312. -/
  | spuOrbi (rt ra : BitVec 7) (i10 : BitVec 10)
  /-- `orhi`, R1313. -/
  | spuOrhi (rt ra : BitVec 7) (i10 : BitVec 10)
  /-- `ori`, R1314. -/
  | spuOri (rt ra : BitVec 7) (i10 : BitVec 10)
  /-- `orx`, R1315. -/
  | spuOrx (rt ra : BitVec 7)
  /-- `xor`, R1316. -/
  | spuXor (rt ra rb : BitVec 7)
  /-- `xorbi`, R1317. -/
  | spuXorbi (rt ra : BitVec 7) (i10 : BitVec 10)
  /-- `xorhi`, R1318. -/
  | spuXorhi (rt ra : BitVec 7) (i10 : BitVec 10)
  /-- `xori`, R1319. -/
  | spuXori (rt ra : BitVec 7) (i10 : BitVec 10)
  /-- `nand`, R1320. -/
  | spuNand (rt ra rb : BitVec 7)
  /-- `nor`, R1321. -/
  | spuNor (rt ra rb : BitVec 7)
  /-- `eqv`, R1322. -/
  | spuEqv (rt ra rb : BitVec 7)
  /-- `selb`, R1329. -/
  | spuSelb (rt ra rb rc : BitVec 7)
  /-- `shufb`, R1330. -/
  | spuShufb (rt ra rb rc : BitVec 7)
  /-- `shlh`, R1351. -/
  | spuShlh (rt ra rb : BitVec 7)
  /-- `shlhi`, R1352. -/
  | spuShlhi (rt ra i7 : BitVec 7)
  /-- `shl`, R1353. -/
  | spuShl (rt ra rb : BitVec 7)
  /-- `shli`, R1354. -/
  | spuShli (rt ra i7 : BitVec 7)
  /-- `shlqbi`, R1355. -/
  | spuShlqbi (rt ra rb : BitVec 7)
  /-- `shlqbii`, R1356. -/
  | spuShlqbii (rt ra i7 : BitVec 7)
  /-- `shlqby`, R1357. -/
  | spuShlqby (rt ra rb : BitVec 7)
  /-- `shlqbyi`, R1358. -/
  | spuShlqbyi (rt ra i7 : BitVec 7)
  /-- `shlqbybi`, R1359. -/
  | spuShlqbybi (rt ra rb : BitVec 7)
  /-- `roth`, R1360. -/
  | spuRoth (rt ra rb : BitVec 7)
  /-- `rothi`, R1361. -/
  | spuRothi (rt ra i7 : BitVec 7)
  /-- `rot`, R1362. -/
  | spuRot (rt ra rb : BitVec 7)
  /-- `roti`, R1363. -/
  | spuRoti (rt ra i7 : BitVec 7)
  /-- `rotqby`, R1366. -/
  | spuRotqby (rt ra rb : BitVec 7)
  /-- `rotqbyi`, R1367. -/
  | spuRotqbyi (rt ra i7 : BitVec 7)
  /-- `rotqbybi`, R1368. -/
  | spuRotqbybi (rt ra rb : BitVec 7)
  /-- `rotqbi`, R1364. -/
  | spuRotqbi (rt ra rb : BitVec 7)
  /-- `rotqbii`, R1365. -/
  | spuRotqbii (rt ra i7 : BitVec 7)
  /-- `rothm`, R1369. -/
  | spuRothm (rt ra rb : BitVec 7)
  /-- `rothmi`, R1370. -/
  | spuRothmi (rt ra i7 : BitVec 7)
  /-- `rotm`, R1371. -/
  | spuRotm (rt ra rb : BitVec 7)
  /-- `rotmi`, R1372. -/
  | spuRotmi (rt ra i7 : BitVec 7)
  /-- `rotqmby`, R1375. -/
  | spuRotqmby (rt ra rb : BitVec 7)
  /-- `rotqmbyi`, R1376. -/
  | spuRotqmbyi (rt ra i7 : BitVec 7)
  /-- `rotqmbybi`, R1377. -/
  | spuRotqmbybi (rt ra rb : BitVec 7)
  /-- `rotqmbi`, R1373. -/
  | spuRotqmbi (rt ra rb : BitVec 7)
  /-- `rotqmbii`, R1374. -/
  | spuRotqmbii (rt ra i7 : BitVec 7)
  /-- `rotmah`, R1378. -/
  | spuRotmah (rt ra rb : BitVec 7)
  /-- `rotmahi`, R1379. -/
  | spuRotmahi (rt ra i7 : BitVec 7)
  /-- `rotma`, R1380. -/
  | spuRotma (rt ra rb : BitVec 7)
  /-- `rotmai`, R1381. -/
  | spuRotmai (rt ra i7 : BitVec 7)
  /-- `heq`, R1401. -/
  | spuHeq (ra rb : BitVec 7)
  /-- `heqi`, R1402. -/
  | spuHeqi (ra : BitVec 7) (i10 : BitVec 10)
  /-- `hgt`, R1403. -/
  | spuHgt (ra rb : BitVec 7)
  /-- `hgti`, R1404. -/
  | spuHgti (ra : BitVec 7) (i10 : BitVec 10)
  /-- `hlgt`, R1405. -/
  | spuHlgt (ra rb : BitVec 7)
  /-- `hlgti`, R1406. -/
  | spuHlgti (ra : BitVec 7) (i10 : BitVec 10)
  /-- `ceqb`, R1410. -/
  | spuCeqb (rt ra rb : BitVec 7)
  /-- `ceqbi`, R1411. -/
  | spuCeqbi (rt ra : BitVec 7) (i10 : BitVec 10)
  /-- `ceqh`, R1412. -/
  | spuCeqh (rt ra rb : BitVec 7)
  /-- `ceqhi`, R1413. -/
  | spuCeqhi (rt ra : BitVec 7) (i10 : BitVec 10)
  /-- `ceq`, R1414. -/
  | spuCeq (rt ra rb : BitVec 7)
  /-- `ceqi`, R1415. -/
  | spuCeqi (rt ra : BitVec 7) (i10 : BitVec 10)
  /-- `cgtb`, R1416. -/
  | spuCgtb (rt ra rb : BitVec 7)
  /-- `cgtbi`, R1417. -/
  | spuCgtbi (rt ra : BitVec 7) (i10 : BitVec 10)
  /-- `cgth`, R1418. -/
  | spuCgth (rt ra rb : BitVec 7)
  /-- `cgthi`, R1419. -/
  | spuCgthi (rt ra : BitVec 7) (i10 : BitVec 10)
  /-- `cgt`, R1420. -/
  | spuCgt (rt ra rb : BitVec 7)
  /-- `cgti`, R1421. -/
  | spuCgti (rt ra : BitVec 7) (i10 : BitVec 10)
  /-- `clgtb`, R1422. -/
  | spuClgtb (rt ra rb : BitVec 7)
  /-- `clgtbi`, R1423. -/
  | spuClgtbi (rt ra : BitVec 7) (i10 : BitVec 10)
  /-- `clgth`, R1424. -/
  | spuClgth (rt ra rb : BitVec 7)
  /-- `clgthi`, R1425. -/
  | spuClgthi (rt ra : BitVec 7) (i10 : BitVec 10)
  /-- `clgt`, R1428. -/
  | spuClgt (rt ra rb : BitVec 7)
  /-- `clgti`, R1429. -/
  | spuClgti (rt ra : BitVec 7) (i10 : BitVec 10)
  /-- `br`, R1441. -/
  | spuBr (i16 : BitVec 16)
  /-- `bra`, R1442. -/
  | spuBra (i16 : BitVec 16)
  /-- `brsl`, R1443. -/
  | spuBrsl (rt : BitVec 7) (i16 : BitVec 16)
  /-- `brasl`, R1444. -/
  | spuBrasl (rt : BitVec 7) (i16 : BitVec 16)
  /-- `bi`, R1450. -/
  | spuBi (ra : BitVec 7) (d e : Bool)
  /-- `iret`, R1457. -/
  | spuIret (ra : BitVec 7) (d e : Bool)
  /-- `bisled`, R1452. -/
  | spuBisled (rt ra : BitVec 7) (d e : Bool)
  /-- `bisl`, R1451. -/
  | spuBisl (rt ra : BitVec 7) (d e : Bool)
  /-- `brnz`, R1445. -/
  | spuBrnz (rt : BitVec 7) (i16 : BitVec 16)
  /-- `brz`, R1447. -/
  | spuBrz (rt : BitVec 7) (i16 : BitVec 16)
  /-- `brhnz`, R1446. -/
  | spuBrhnz (rt : BitVec 7) (i16 : BitVec 16)
  /-- `brhz`, R1448. -/
  | spuBrhz (rt : BitVec 7) (i16 : BitVec 16)
  /-- `biz`, R1453. -/
  | spuBiz (rt ra : BitVec 7) (d e : Bool)
  /-- `binz`, R1454. -/
  | spuBinz (rt ra : BitVec 7) (d e : Bool)
  /-- `bihz`, R1455. -/
  | spuBihz (rt ra : BitVec 7) (d e : Bool)
  /-- `bihnz`, R1456. -/
  | spuBihnz (rt ra : BitVec 7) (d e : Bool)
  /-- `hbr`, R1466. -/
  | spuHbr (ra : BitVec 7) (off : BitVec 9)
  /-- `hbrp`, R1469. -/
  | spuHbrp (ra : BitVec 7) (off : BitVec 9)
  /-- `hbra`, R1467. -/
  | spuHbra (i16 : BitVec 16) (off : BitVec 9)
  /-- `hbrr`, R1468. -/
  | spuHbrr (i16 : BitVec 16) (off : BitVec 9)
  /-- `fa`, R1500. -/
  | spuFa (rt ra rb : BitVec 7)
  /-- `dfa`, R1506. -/
  | spuDfa (rt ra rb : BitVec 7)
  /-- `fs`, R1501. -/
  | spuFs (rt ra rb : BitVec 7)
  /-- `dfs`, R1507. -/
  | spuDfs (rt ra rb : BitVec 7)
  /-- `fm`, R1502. -/
  | spuFm (rt ra rb : BitVec 7)
  /-- `dfm`, R1508. -/
  | spuDfm (rt ra rb : BitVec 7)
  /-- `fma`, R1503. -/
  | spuFma (rt ra rb rc : BitVec 7)
  /-- `dfma`, R1509. -/
  | spuDfma (rt ra rb : BitVec 7)
  /-- `fnms`, R1504. -/
  | spuFnms (rt ra rb rc : BitVec 7)
  /-- `dfnms`, R1511. -/
  | spuDfnms (rt ra rb : BitVec 7)
  /-- `fms`, R1505. -/
  | spuFms (rt ra rb rc : BitVec 7)
  /-- `dfms`, R1510. -/
  | spuDfms (rt ra rb : BitVec 7)
  /-- `dfnma`, R1512. -/
  | spuDfnma (rt ra rb : BitVec 7)
  /-- `frest`, R1515. -/
  | spuFrest (rt ra : BitVec 7)
  /-- `frsqest`, R1516. -/
  | spuFrsqest (rt ra : BitVec 7)
  /-- `fi`, R1517. -/
  | spuFi (rt ra rb : BitVec 7)
  /-- `csflt`, R1520. -/
  | spuCsflt (rt ra : BitVec 7) (i8 : BitVec 8)
  /-- `cflts`, R1521. -/
  | spuCflts (rt ra : BitVec 7) (i8 : BitVec 8)
  /-- `cuflt`, R1522. -/
  | spuCuflt (rt ra : BitVec 7) (i8 : BitVec 8)
  /-- `cfltu`, R1523. -/
  | spuCfltu (rt ra : BitVec 7) (i8 : BitVec 8)
  /-- `frds`, R1525. -/
  | spuFrds (rt ra : BitVec 7)
  /-- `fesd`, R1526. -/
  | spuFesd (rt ra : BitVec 7)
  /-- `dfceq`, R1535. -/
  | spuDfceq (rt ra rb : BitVec 7)
  /-- `dfcmeq`, R1536. -/
  | spuDfcmeq (rt ra rb : BitVec 7)
  /-- `dfcgt`, R1537. -/
  | spuDfcgt (rt ra rb : BitVec 7)
  /-- `dfcmgt`, R1538. -/
  | spuDfcmgt (rt ra rb : BitVec 7)
  /-- `dftsv`, R1539. -/
  | spuDftsv (rt ra i7 : BitVec 7)
  /-- `fceq`, R1530. -/
  | spuFceq (rt ra rb : BitVec 7)
  /-- `fcmeq`, R1531. -/
  | spuFcmeq (rt ra rb : BitVec 7)
  /-- `fcgt`, R1532. -/
  | spuFcgt (rt ra rb : BitVec 7)
  /-- `fcmgt`, R1533. -/
  | spuFcmgt (rt ra rb : BitVec 7)
  /-- `fscrwr`, R1541. -/
  | spuFscrwr (ra : BitVec 7)
  /-- `fscrrd`, R1540. -/
  | spuFscrrd (rt : BitVec 7)
  /-- `stop`, R1551. -/
  | spuStop (sig : BitVec 14)
  /-- `stopd`, R1552. -/
  | spuStopd (ra rb rc : BitVec 7)
  /-- `lnop`, R1559. -/
  | spuLnop
  /-- `nop`, R1558. -/
  | spuNop
  /-- `sync`, R1570. -/
  | spuSync
  /-- `syncc`, R1571. -/
  | spuSyncc
  /-- `dsync`, R1572. -/
  | spuDsync
  /-- `mfspr`, R1575. -/
  | spuMfspr (rt sa : BitVec 7)
  /-- `mtspr`, R1576. -/
  | spuMtspr (rt sa : BitVec 7)
  /-- `rdch`, R1560. -/
  | spuRdch (rt ca : BitVec 7)
  /-- `rchcnt`, R1562. -/
  | spuRchcnt (rt ca : BitVec 7)
  /-- `wrch`, R1561. -/
  | spuWrch (rt ca : BitVec 7)
  -- MFC commands, spec/30_encoding.md R580 to R582
  /-- `put`, R1646. -/
  | mfcPut (tclass rclass : BitVec 8)
  /-- `putb`, R1646. -/
  | mfcPutb (tclass rclass : BitVec 8)
  /-- `putf`, R1646. -/
  | mfcPutf (tclass rclass : BitVec 8)
  /-- `putl`, R1670. -/
  | mfcPutl (tclass rclass : BitVec 8)
  /-- `putlb`, R1670. -/
  | mfcPutlb (tclass rclass : BitVec 8)
  /-- `putlf`, R1670. -/
  | mfcPutlf (tclass rclass : BitVec 8)
  /-- `puts`, R1646. -/
  | mfcPuts (tclass rclass : BitVec 8)
  /-- `putbs`, R1646. -/
  | mfcPutbs (tclass rclass : BitVec 8)
  /-- `putfs`, R1646. -/
  | mfcPutfs (tclass rclass : BitVec 8)
  /-- `putr`, R1649. -/
  | mfcPutr (tclass rclass : BitVec 8)
  /-- `putrb`, R1649. -/
  | mfcPutrb (tclass rclass : BitVec 8)
  /-- `putrf`, R1649. -/
  | mfcPutrf (tclass rclass : BitVec 8)
  /-- `putrl`, R1649. -/
  | mfcPutrl (tclass rclass : BitVec 8)
  /-- `putrlb`, R1649. -/
  | mfcPutrlb (tclass rclass : BitVec 8)
  /-- `putrlf`, R1649. -/
  | mfcPutrlf (tclass rclass : BitVec 8)
  /-- `get`, R1645. -/
  | mfcGet (tclass rclass : BitVec 8)
  /-- `getb`, R1645. -/
  | mfcGetb (tclass rclass : BitVec 8)
  /-- `getf`, R1645. -/
  | mfcGetf (tclass rclass : BitVec 8)
  /-- `getl`, R1670. -/
  | mfcGetl (tclass rclass : BitVec 8)
  /-- `getlb`, R1670. -/
  | mfcGetlb (tclass rclass : BitVec 8)
  /-- `getlf`, R1670. -/
  | mfcGetlf (tclass rclass : BitVec 8)
  /-- `gets`, R1645. -/
  | mfcGets (tclass rclass : BitVec 8)
  /-- `getbs`, R1645. -/
  | mfcGetbs (tclass rclass : BitVec 8)
  /-- `getfs`, R1645. -/
  | mfcGetfs (tclass rclass : BitVec 8)
  /-- `sdcrt`, R1657. -/
  | mfcSdcrt (tclass rclass : BitVec 8)
  /-- `sdcrtst`, R1657. -/
  | mfcSdcrtst (tclass rclass : BitVec 8)
  /-- `sdcrz`, R1657. -/
  | mfcSdcrz (tclass rclass : BitVec 8)
  /-- `sdcrst`, R1657. -/
  | mfcSdcrst (tclass rclass : BitVec 8)
  /-- `sdcrf`, R1657. -/
  | mfcSdcrf (tclass rclass : BitVec 8)
  /-- `sndsig`, R1655. -/
  | mfcSndsig (tclass rclass : BitVec 8)
  /-- `sndsigb`, R1656. -/
  | mfcSndsigb (tclass rclass : BitVec 8)
  /-- `sndsigf`, R1656. -/
  | mfcSndsigf (tclass rclass : BitVec 8)
  /-- `putlluc`, R1662. -/
  | mfcPutlluc (tclass rclass : BitVec 8)
  /-- `putllc`, R1661. -/
  | mfcPutllc (tclass rclass : BitVec 8)
  /-- `putqlluc`, R1663. -/
  | mfcPutqlluc (tclass rclass : BitVec 8)
  /-- `barrier`, R1691. -/
  | mfcBarrier (tclass rclass : BitVec 8)
  /-- `mfceieio`, R1691. -/
  | mfcMfceieio (tclass rclass : BitVec 8)
  /-- `mfcsync`, R1691. -/
  | mfcMfcsync (tclass rclass : BitVec 8)
  /-- `getllar`, R1660. -/
  | mfcGetllar (tclass rclass : BitVec 8)
deriving DecidableEq, Repr

end Sys2Proof
end

