-- ==== Sys2Proof/Decode.lean ====
section
/-! DEFINITION. Decoding and encoding. An instruction is one 32-bit big-endian word (30_encoding R540, R560); `n` is its
value, so bit k of the manual is bit 31 - k of `n`. (The section is noncomputable because Lean's code generator has no
tags for a type of more than 244 constructors; the kernel evaluates these definitions.) The three decoders are total and reject by name. Reserved bits of a
word are ignored (30_encoding R545, D69). The encoder follows the same tables. -/

namespace Sys2Proof

noncomputable section

/-- Why a decoder answers no instruction. -/
inductive DecodeReject where
  /-- Fewer bytes than an instruction has. -/
  | tooShort
  /-- A word that matches no PPE row: the machine takes the illegal-instruction program interrupt (30_encoding R546). -/
  | ppeIllegal
  /-- A word that matches no SPU row: the SPU stops with SPU_Status[I] (30_encoding R564). -/
  | spuInvalid
  /-- A command word with an opcode of no row, or with reserved bits set: an invalid MFC command (30_encoding R580). -/
  | mfcInvalid
deriving DecidableEq, Repr

/-- The field of `len` bits whose last bit is bit `31 - lo` of the manual. -/
def bvAt (n lo len : Nat) : BitVec len := BitVec.ofNat len (n / 2^lo)

/-- The one-bit field at bit `31 - lo` of the manual. -/
def boolAt (n lo : Nat) : Bool := n / 2^lo % 2 == 1

/-- The 6-bit shift of the MD and XS forms: bit 30 before bits 16:20 (30_encoding R541). -/
def shAt (n : Nat) : BitVec 6 := BitVec.ofNat 6 (n / 2^11 % 32 + n / 2 % 2 * 32)

/-- The 6-bit mask bound of the MD and MDS forms: bit 26 before bits 21:25 (30_encoding R541). -/
def mbAt (n : Nat) : BitVec 6 := BitVec.ofNat 6 (n / 2^6 % 32 + n / 2^5 % 2 * 32)

/-- The SPR or TBR number: bits 16:20 before bits 11:15 (30_encoding R541). -/
def sprAt (n : Nat) : BitVec 10 := BitVec.ofNat 10 (n / 2^16 % 32 + n / 2^11 % 32 * 32)

/-- The 9-bit branch offset of a hint: ROH, at `lo`, before ROL (30_encoding R561). -/
def roAt (n lo : Nat) : BitVec 9 := BitVec.ofNat 9 (n % 128 + n / 2^lo % 4 * 128)

/-- A field's share of the word: the inverse of `bvAt`. -/
def put {len : Nat} (v : BitVec len) (lo : Nat) : Nat := v.toNat * 2^lo

/-- A one-bit field's share of the word: the inverse of `boolAt`. -/
def putB (b : Bool) (lo : Nat) : Nat := b.toNat * 2^lo

/-- The inverse of `shAt`. -/
def putSh (v : BitVec 6) : Nat := v.toNat % 32 * 2^11 + v.toNat / 32 * 2

/-- The inverse of `mbAt`. -/
def putMb (v : BitVec 6) : Nat := v.toNat % 32 * 2^6 + v.toNat / 32 * 2^5

/-- The inverse of `sprAt`. -/
def putSpr (v : BitVec 10) : Nat := v.toNat % 32 * 2^16 + v.toNat / 32 * 2^11

/-- The inverse of `roAt`. -/
def putRo (v : BitVec 9) (lo : Nat) : Nat := v.toNat % 128 + v.toNat / 128 * 2^lo

/-- Instructions selected by the primary opcode alone (30_encoding R544). -/
def ppePrimary (n op : Nat) : Option Instr :=
  if op = 18 then some (.ppeB (bvAt n 2 24) (boolAt n 1) (boolAt n 0))
  else if op = 16 then some (.ppeBc (bvAt n 21 5) (bvAt n 16 5) (bvAt n 2 14) (boolAt n 1) (boolAt n 0))
  else if op = 17 ∧ boolAt n 1 = true then some (.ppeSc (bvAt n 5 7))
  else if op = 3 then some (.ppeTwi (bvAt n 21 5) (bvAt n 16 5) (bvAt n 0 16))
  else if op = 2 then some (.ppeTdi (bvAt n 21 5) (bvAt n 16 5) (bvAt n 0 16))
  else if op = 0 ∧ boolAt n 1 = false ∧ boolAt n 2 = false ∧ boolAt n 3 = false ∧ boolAt n 4 = false ∧ boolAt n 5 = false ∧ boolAt n 6 = false ∧ boolAt n 7 = false ∧ boolAt n 8 = false ∧ boolAt n 9 = true ∧ boolAt n 10 = false then some (.ppeAttn)
  else if op = 34 then some (.ppeLbz (bvAt n 21 5) (bvAt n 16 5) (bvAt n 0 16))
  else if op = 35 then some (.ppeLbzu (bvAt n 21 5) (bvAt n 16 5) (bvAt n 0 16))
  else if op = 40 then some (.ppeLhz (bvAt n 21 5) (bvAt n 16 5) (bvAt n 0 16))
  else if op = 41 then some (.ppeLhzu (bvAt n 21 5) (bvAt n 16 5) (bvAt n 0 16))
  else if op = 42 then some (.ppeLha (bvAt n 21 5) (bvAt n 16 5) (bvAt n 0 16))
  else if op = 43 then some (.ppeLhau (bvAt n 21 5) (bvAt n 16 5) (bvAt n 0 16))
  else if op = 32 then some (.ppeLwz (bvAt n 21 5) (bvAt n 16 5) (bvAt n 0 16))
  else if op = 33 then some (.ppeLwzu (bvAt n 21 5) (bvAt n 16 5) (bvAt n 0 16))
  else if op = 46 then some (.ppeLmw (bvAt n 21 5) (bvAt n 16 5) (bvAt n 0 16))
  else if op = 38 then some (.ppeStb (bvAt n 21 5) (bvAt n 16 5) (bvAt n 0 16))
  else if op = 39 then some (.ppeStbu (bvAt n 21 5) (bvAt n 16 5) (bvAt n 0 16))
  else if op = 44 then some (.ppeSth (bvAt n 21 5) (bvAt n 16 5) (bvAt n 0 16))
  else if op = 45 then some (.ppeSthu (bvAt n 21 5) (bvAt n 16 5) (bvAt n 0 16))
  else if op = 36 then some (.ppeStw (bvAt n 21 5) (bvAt n 16 5) (bvAt n 0 16))
  else if op = 37 then some (.ppeStwu (bvAt n 21 5) (bvAt n 16 5) (bvAt n 0 16))
  else if op = 47 then some (.ppeStmw (bvAt n 21 5) (bvAt n 16 5) (bvAt n 0 16))
  else if op = 48 then some (.ppeLfs (bvAt n 21 5) (bvAt n 16 5) (bvAt n 0 16))
  else if op = 49 then some (.ppeLfsu (bvAt n 21 5) (bvAt n 16 5) (bvAt n 0 16))
  else if op = 50 then some (.ppeLfd (bvAt n 21 5) (bvAt n 16 5) (bvAt n 0 16))
  else if op = 51 then some (.ppeLfdu (bvAt n 21 5) (bvAt n 16 5) (bvAt n 0 16))
  else if op = 52 then some (.ppeStfs (bvAt n 21 5) (bvAt n 16 5) (bvAt n 0 16))
  else if op = 53 then some (.ppeStfsu (bvAt n 21 5) (bvAt n 16 5) (bvAt n 0 16))
  else if op = 54 then some (.ppeStfd (bvAt n 21 5) (bvAt n 16 5) (bvAt n 0 16))
  else if op = 55 then some (.ppeStfdu (bvAt n 21 5) (bvAt n 16 5) (bvAt n 0 16))
  else if op = 14 then some (.ppeAddi (bvAt n 21 5) (bvAt n 16 5) (bvAt n 0 16))
  else if op = 15 then some (.ppeAddis (bvAt n 21 5) (bvAt n 16 5) (bvAt n 0 16))
  else if op = 12 then some (.ppeAddic (bvAt n 21 5) (bvAt n 16 5) (bvAt n 0 16))
  else if op = 13 then some (.ppeAddicDot (bvAt n 21 5) (bvAt n 16 5) (bvAt n 0 16))
  else if op = 8 then some (.ppeSubfic (bvAt n 21 5) (bvAt n 16 5) (bvAt n 0 16))
  else if op = 7 then some (.ppeMulli (bvAt n 21 5) (bvAt n 16 5) (bvAt n 0 16))
  else if op = 24 then some (.ppeOri (bvAt n 21 5) (bvAt n 16 5) (bvAt n 0 16))
  else if op = 25 then some (.ppeOris (bvAt n 21 5) (bvAt n 16 5) (bvAt n 0 16))
  else if op = 26 then some (.ppeXori (bvAt n 21 5) (bvAt n 16 5) (bvAt n 0 16))
  else if op = 27 then some (.ppeXoris (bvAt n 21 5) (bvAt n 16 5) (bvAt n 0 16))
  else if op = 28 then some (.ppeAndiDot (bvAt n 21 5) (bvAt n 16 5) (bvAt n 0 16))
  else if op = 29 then some (.ppeAndisDot (bvAt n 21 5) (bvAt n 16 5) (bvAt n 0 16))
  else if op = 11 then some (.ppeCmpi (bvAt n 23 3) (boolAt n 21) (bvAt n 16 5) (bvAt n 0 16))
  else if op = 10 then some (.ppeCmpli (bvAt n 23 3) (boolAt n 21) (bvAt n 16 5) (bvAt n 0 16))
  else if op = 20 then some (.ppeRlwimi (bvAt n 21 5) (bvAt n 16 5) (bvAt n 11 5) (bvAt n 6 5) (bvAt n 1 5) (boolAt n 0))
  else if op = 21 then some (.ppeRlwinm (bvAt n 21 5) (bvAt n 16 5) (bvAt n 11 5) (bvAt n 6 5) (bvAt n 1 5) (boolAt n 0))
  else if op = 23 then some (.ppeRlwnm (bvAt n 21 5) (bvAt n 16 5) (bvAt n 11 5) (bvAt n 6 5) (bvAt n 1 5) (boolAt n 0))
  else none

/-- OPCD 4, VA-form, extended opcode 26:31. -/
def ppeVA (n x : Nat) : Option Instr :=
  if x = 43 then some (.ppeVperm (bvAt n 21 5) (bvAt n 16 5) (bvAt n 11 5) (bvAt n 6 5))
  else if x = 42 then some (.ppeVsel (bvAt n 21 5) (bvAt n 16 5) (bvAt n 11 5) (bvAt n 6 5))
  else if x = 44 then some (.ppeVsldoi (bvAt n 21 5) (bvAt n 16 5) (bvAt n 11 5) (bvAt n 6 4))
  else if x = 32 then some (.ppeVmhaddshs (bvAt n 21 5) (bvAt n 16 5) (bvAt n 11 5) (bvAt n 6 5))
  else if x = 33 then some (.ppeVmhraddshs (bvAt n 21 5) (bvAt n 16 5) (bvAt n 11 5) (bvAt n 6 5))
  else if x = 34 then some (.ppeVmladduhm (bvAt n 21 5) (bvAt n 16 5) (bvAt n 11 5) (bvAt n 6 5))
  else if x = 36 then some (.ppeVmsumubm (bvAt n 21 5) (bvAt n 16 5) (bvAt n 11 5) (bvAt n 6 5))
  else if x = 37 then some (.ppeVmsummbm (bvAt n 21 5) (bvAt n 16 5) (bvAt n 11 5) (bvAt n 6 5))
  else if x = 38 then some (.ppeVmsumuhm (bvAt n 21 5) (bvAt n 16 5) (bvAt n 11 5) (bvAt n 6 5))
  else if x = 39 then some (.ppeVmsumuhs (bvAt n 21 5) (bvAt n 16 5) (bvAt n 11 5) (bvAt n 6 5))
  else if x = 40 then some (.ppeVmsumshm (bvAt n 21 5) (bvAt n 16 5) (bvAt n 11 5) (bvAt n 6 5))
  else if x = 41 then some (.ppeVmsumshs (bvAt n 21 5) (bvAt n 16 5) (bvAt n 11 5) (bvAt n 6 5))
  else if x = 46 then some (.ppeVmaddfp (bvAt n 21 5) (bvAt n 16 5) (bvAt n 11 5) (bvAt n 6 5))
  else if x = 47 then some (.ppeVnmsubfp (bvAt n 21 5) (bvAt n 16 5) (bvAt n 11 5) (bvAt n 6 5))
  else none

/-- OPCD 4, VXR-form, extended opcode 22:31. -/
def ppeVXR (n x : Nat) : Option Instr :=
  if x = 6 then some (.ppeVcmpequb (bvAt n 21 5) (bvAt n 16 5) (bvAt n 11 5) (boolAt n 10))
  else if x = 70 then some (.ppeVcmpequh (bvAt n 21 5) (bvAt n 16 5) (bvAt n 11 5) (boolAt n 10))
  else if x = 134 then some (.ppeVcmpequw (bvAt n 21 5) (bvAt n 16 5) (bvAt n 11 5) (boolAt n 10))
  else if x = 198 then some (.ppeVcmpeqfp (bvAt n 21 5) (bvAt n 16 5) (bvAt n 11 5) (boolAt n 10))
  else if x = 454 then some (.ppeVcmpgefp (bvAt n 21 5) (bvAt n 16 5) (bvAt n 11 5) (boolAt n 10))
  else if x = 518 then some (.ppeVcmpgtub (bvAt n 21 5) (bvAt n 16 5) (bvAt n 11 5) (boolAt n 10))
  else if x = 582 then some (.ppeVcmpgtuh (bvAt n 21 5) (bvAt n 16 5) (bvAt n 11 5) (boolAt n 10))
  else if x = 646 then some (.ppeVcmpgtuw (bvAt n 21 5) (bvAt n 16 5) (bvAt n 11 5) (boolAt n 10))
  else if x = 710 then some (.ppeVcmpgtfp (bvAt n 21 5) (bvAt n 16 5) (bvAt n 11 5) (boolAt n 10))
  else if x = 774 then some (.ppeVcmpgtsb (bvAt n 21 5) (bvAt n 16 5) (bvAt n 11 5) (boolAt n 10))
  else if x = 838 then some (.ppeVcmpgtsh (bvAt n 21 5) (bvAt n 16 5) (bvAt n 11 5) (boolAt n 10))
  else if x = 902 then some (.ppeVcmpgtsw (bvAt n 21 5) (bvAt n 16 5) (bvAt n 11 5) (boolAt n 10))
  else if x = 966 then some (.ppeVcmpbfp (bvAt n 21 5) (bvAt n 16 5) (bvAt n 11 5) (boolAt n 10))
  else none

/-- OPCD 4, VX-form, extended opcodes 0 to 255. -/
def ppeVX0 (n x : Nat) : Option Instr :=
  if x = 0 then some (.ppeVaddubm (bvAt n 21 5) (bvAt n 16 5) (bvAt n 11 5))
  else if x = 2 then some (.ppeVmaxub (bvAt n 21 5) (bvAt n 16 5) (bvAt n 11 5))
  else if x = 4 then some (.ppeVrlb (bvAt n 21 5) (bvAt n 16 5) (bvAt n 11 5))
  else if x = 8 then some (.ppeVmuloub (bvAt n 21 5) (bvAt n 16 5) (bvAt n 11 5))
  else if x = 10 then some (.ppeVaddfp (bvAt n 21 5) (bvAt n 16 5) (bvAt n 11 5))
  else if x = 12 then some (.ppeVmrghb (bvAt n 21 5) (bvAt n 16 5) (bvAt n 11 5))
  else if x = 14 then some (.ppeVpkuhum (bvAt n 21 5) (bvAt n 16 5) (bvAt n 11 5))
  else if x = 64 then some (.ppeVadduhm (bvAt n 21 5) (bvAt n 16 5) (bvAt n 11 5))
  else if x = 66 then some (.ppeVmaxuh (bvAt n 21 5) (bvAt n 16 5) (bvAt n 11 5))
  else if x = 68 then some (.ppeVrlh (bvAt n 21 5) (bvAt n 16 5) (bvAt n 11 5))
  else if x = 72 then some (.ppeVmulouh (bvAt n 21 5) (bvAt n 16 5) (bvAt n 11 5))
  else if x = 74 then some (.ppeVsubfp (bvAt n 21 5) (bvAt n 16 5) (bvAt n 11 5))
  else if x = 76 then some (.ppeVmrghh (bvAt n 21 5) (bvAt n 16 5) (bvAt n 11 5))
  else if x = 78 then some (.ppeVpkuwum (bvAt n 21 5) (bvAt n 16 5) (bvAt n 11 5))
  else if x = 128 then some (.ppeVadduwm (bvAt n 21 5) (bvAt n 16 5) (bvAt n 11 5))
  else if x = 130 then some (.ppeVmaxuw (bvAt n 21 5) (bvAt n 16 5) (bvAt n 11 5))
  else if x = 132 then some (.ppeVrlw (bvAt n 21 5) (bvAt n 16 5) (bvAt n 11 5))
  else if x = 140 then some (.ppeVmrghw (bvAt n 21 5) (bvAt n 16 5) (bvAt n 11 5))
  else if x = 142 then some (.ppeVpkuhus (bvAt n 21 5) (bvAt n 16 5) (bvAt n 11 5))
  else if x = 206 then some (.ppeVpkuwus (bvAt n 21 5) (bvAt n 16 5) (bvAt n 11 5))
  else none

/-- OPCD 4, VX-form, extended opcodes 256 to 511. -/
def ppeVX1 (n x : Nat) : Option Instr :=
  if x = 258 then some (.ppeVmaxsb (bvAt n 21 5) (bvAt n 16 5) (bvAt n 11 5))
  else if x = 260 then some (.ppeVslb (bvAt n 21 5) (bvAt n 16 5) (bvAt n 11 5))
  else if x = 264 then some (.ppeVmulosb (bvAt n 21 5) (bvAt n 16 5) (bvAt n 11 5))
  else if x = 266 then some (.ppeVrefp (bvAt n 21 5) (bvAt n 11 5))
  else if x = 268 then some (.ppeVmrglb (bvAt n 21 5) (bvAt n 16 5) (bvAt n 11 5))
  else if x = 270 then some (.ppeVpkshus (bvAt n 21 5) (bvAt n 16 5) (bvAt n 11 5))
  else if x = 322 then some (.ppeVmaxsh (bvAt n 21 5) (bvAt n 16 5) (bvAt n 11 5))
  else if x = 324 then some (.ppeVslh (bvAt n 21 5) (bvAt n 16 5) (bvAt n 11 5))
  else if x = 328 then some (.ppeVmulosh (bvAt n 21 5) (bvAt n 16 5) (bvAt n 11 5))
  else if x = 330 then some (.ppeVrsqrtefp (bvAt n 21 5) (bvAt n 11 5))
  else if x = 332 then some (.ppeVmrglh (bvAt n 21 5) (bvAt n 16 5) (bvAt n 11 5))
  else if x = 334 then some (.ppeVpkswus (bvAt n 21 5) (bvAt n 16 5) (bvAt n 11 5))
  else if x = 384 then some (.ppeVaddcuw (bvAt n 21 5) (bvAt n 16 5) (bvAt n 11 5))
  else if x = 386 then some (.ppeVmaxsw (bvAt n 21 5) (bvAt n 16 5) (bvAt n 11 5))
  else if x = 388 then some (.ppeVslw (bvAt n 21 5) (bvAt n 16 5) (bvAt n 11 5))
  else if x = 394 then some (.ppeVexptefp (bvAt n 21 5) (bvAt n 11 5))
  else if x = 396 then some (.ppeVmrglw (bvAt n 21 5) (bvAt n 16 5) (bvAt n 11 5))
  else if x = 398 then some (.ppeVpkshss (bvAt n 21 5) (bvAt n 16 5) (bvAt n 11 5))
  else if x = 452 then some (.ppeVsl (bvAt n 21 5) (bvAt n 16 5) (bvAt n 11 5))
  else if x = 458 then some (.ppeVlogefp (bvAt n 21 5) (bvAt n 11 5))
  else if x = 462 then some (.ppeVpkswss (bvAt n 21 5) (bvAt n 16 5) (bvAt n 11 5))
  else none

/-- OPCD 4, VX-form, extended opcodes 512 to 767. -/
def ppeVX2 (n x : Nat) : Option Instr :=
  if x = 512 then some (.ppeVaddubs (bvAt n 21 5) (bvAt n 16 5) (bvAt n 11 5))
  else if x = 514 then some (.ppeVminub (bvAt n 21 5) (bvAt n 16 5) (bvAt n 11 5))
  else if x = 516 then some (.ppeVsrb (bvAt n 21 5) (bvAt n 16 5) (bvAt n 11 5))
  else if x = 520 then some (.ppeVmuleub (bvAt n 21 5) (bvAt n 16 5) (bvAt n 11 5))
  else if x = 522 then some (.ppeVrfin (bvAt n 21 5) (bvAt n 11 5))
  else if x = 524 then some (.ppeVspltb (bvAt n 21 5) (bvAt n 11 5) (bvAt n 16 5))
  else if x = 526 then some (.ppeVupkhsb (bvAt n 21 5) (bvAt n 11 5))
  else if x = 576 then some (.ppeVadduhs (bvAt n 21 5) (bvAt n 16 5) (bvAt n 11 5))
  else if x = 578 then some (.ppeVminuh (bvAt n 21 5) (bvAt n 16 5) (bvAt n 11 5))
  else if x = 580 then some (.ppeVsrh (bvAt n 21 5) (bvAt n 16 5) (bvAt n 11 5))
  else if x = 584 then some (.ppeVmuleuh (bvAt n 21 5) (bvAt n 16 5) (bvAt n 11 5))
  else if x = 586 then some (.ppeVrfiz (bvAt n 21 5) (bvAt n 11 5))
  else if x = 588 then some (.ppeVsplth (bvAt n 21 5) (bvAt n 11 5) (bvAt n 16 5))
  else if x = 590 then some (.ppeVupkhsh (bvAt n 21 5) (bvAt n 11 5))
  else if x = 640 then some (.ppeVadduws (bvAt n 21 5) (bvAt n 16 5) (bvAt n 11 5))
  else if x = 642 then some (.ppeVminuw (bvAt n 21 5) (bvAt n 16 5) (bvAt n 11 5))
  else if x = 644 then some (.ppeVsrw (bvAt n 21 5) (bvAt n 16 5) (bvAt n 11 5))
  else if x = 650 then some (.ppeVrfip (bvAt n 21 5) (bvAt n 11 5))
  else if x = 652 then some (.ppeVspltw (bvAt n 21 5) (bvAt n 11 5) (bvAt n 16 5))
  else if x = 654 then some (.ppeVupklsb (bvAt n 21 5) (bvAt n 11 5))
  else if x = 708 then some (.ppeVsr (bvAt n 21 5) (bvAt n 16 5) (bvAt n 11 5))
  else if x = 714 then some (.ppeVrfim (bvAt n 21 5) (bvAt n 11 5))
  else if x = 718 then some (.ppeVupklsh (bvAt n 21 5) (bvAt n 11 5))
  else none

/-- OPCD 4, VX-form, extended opcodes 768 to 1023. -/
def ppeVX3 (n x : Nat) : Option Instr :=
  if x = 768 then some (.ppeVaddsbs (bvAt n 21 5) (bvAt n 16 5) (bvAt n 11 5))
  else if x = 770 then some (.ppeVminsb (bvAt n 21 5) (bvAt n 16 5) (bvAt n 11 5))
  else if x = 772 then some (.ppeVsrab (bvAt n 21 5) (bvAt n 16 5) (bvAt n 11 5))
  else if x = 776 then some (.ppeVmulesb (bvAt n 21 5) (bvAt n 16 5) (bvAt n 11 5))
  else if x = 778 then some (.ppeVcfux (bvAt n 21 5) (bvAt n 11 5) (bvAt n 16 5))
  else if x = 780 then some (.ppeVspltisb (bvAt n 21 5) (bvAt n 16 5))
  else if x = 782 then some (.ppeVpkpx (bvAt n 21 5) (bvAt n 16 5) (bvAt n 11 5))
  else if x = 832 then some (.ppeVaddshs (bvAt n 21 5) (bvAt n 16 5) (bvAt n 11 5))
  else if x = 834 then some (.ppeVminsh (bvAt n 21 5) (bvAt n 16 5) (bvAt n 11 5))
  else if x = 836 then some (.ppeVsrah (bvAt n 21 5) (bvAt n 16 5) (bvAt n 11 5))
  else if x = 840 then some (.ppeVmulesh (bvAt n 21 5) (bvAt n 16 5) (bvAt n 11 5))
  else if x = 842 then some (.ppeVcfsx (bvAt n 21 5) (bvAt n 11 5) (bvAt n 16 5))
  else if x = 844 then some (.ppeVspltish (bvAt n 21 5) (bvAt n 16 5))
  else if x = 846 then some (.ppeVupkhpx (bvAt n 21 5) (bvAt n 11 5))
  else if x = 896 then some (.ppeVaddsws (bvAt n 21 5) (bvAt n 16 5) (bvAt n 11 5))
  else if x = 898 then some (.ppeVminsw (bvAt n 21 5) (bvAt n 16 5) (bvAt n 11 5))
  else if x = 900 then some (.ppeVsraw (bvAt n 21 5) (bvAt n 16 5) (bvAt n 11 5))
  else if x = 906 then some (.ppeVctuxs (bvAt n 21 5) (bvAt n 11 5) (bvAt n 16 5))
  else if x = 908 then some (.ppeVspltisw (bvAt n 21 5) (bvAt n 16 5))
  else if x = 970 then some (.ppeVctsxs (bvAt n 21 5) (bvAt n 11 5) (bvAt n 16 5))
  else if x = 974 then some (.ppeVupklpx (bvAt n 21 5) (bvAt n 11 5))
  else none

/-- OPCD 4, VX-form, extended opcodes 1024 to 1279. -/
def ppeVX4 (n x : Nat) : Option Instr :=
  if x = 1024 then some (.ppeVsububm (bvAt n 21 5) (bvAt n 16 5) (bvAt n 11 5))
  else if x = 1026 then some (.ppeVavgub (bvAt n 21 5) (bvAt n 16 5) (bvAt n 11 5))
  else if x = 1028 then some (.ppeVand (bvAt n 21 5) (bvAt n 16 5) (bvAt n 11 5))
  else if x = 1034 then some (.ppeVmaxfp (bvAt n 21 5) (bvAt n 16 5) (bvAt n 11 5))
  else if x = 1036 then some (.ppeVslo (bvAt n 21 5) (bvAt n 16 5) (bvAt n 11 5))
  else if x = 1088 then some (.ppeVsubuhm (bvAt n 21 5) (bvAt n 16 5) (bvAt n 11 5))
  else if x = 1090 then some (.ppeVavguh (bvAt n 21 5) (bvAt n 16 5) (bvAt n 11 5))
  else if x = 1092 then some (.ppeVandc (bvAt n 21 5) (bvAt n 16 5) (bvAt n 11 5))
  else if x = 1098 then some (.ppeVminfp (bvAt n 21 5) (bvAt n 16 5) (bvAt n 11 5))
  else if x = 1100 then some (.ppeVsro (bvAt n 21 5) (bvAt n 16 5) (bvAt n 11 5))
  else if x = 1152 then some (.ppeVsubuwm (bvAt n 21 5) (bvAt n 16 5) (bvAt n 11 5))
  else if x = 1154 then some (.ppeVavguw (bvAt n 21 5) (bvAt n 16 5) (bvAt n 11 5))
  else if x = 1156 then some (.ppeVor (bvAt n 21 5) (bvAt n 16 5) (bvAt n 11 5))
  else if x = 1220 then some (.ppeVxor (bvAt n 21 5) (bvAt n 16 5) (bvAt n 11 5))
  else none

/-- OPCD 4, VX-form, extended opcodes 1280 to 1535. -/
def ppeVX5 (n x : Nat) : Option Instr :=
  if x = 1282 then some (.ppeVavgsb (bvAt n 21 5) (bvAt n 16 5) (bvAt n 11 5))
  else if x = 1284 then some (.ppeVnor (bvAt n 21 5) (bvAt n 16 5) (bvAt n 11 5))
  else if x = 1346 then some (.ppeVavgsh (bvAt n 21 5) (bvAt n 16 5) (bvAt n 11 5))
  else if x = 1408 then some (.ppeVsubcuw (bvAt n 21 5) (bvAt n 16 5) (bvAt n 11 5))
  else if x = 1410 then some (.ppeVavgsw (bvAt n 21 5) (bvAt n 16 5) (bvAt n 11 5))
  else none

/-- OPCD 4, VX-form, extended opcodes 1536 to 1791. -/
def ppeVX6 (n x : Nat) : Option Instr :=
  if x = 1536 then some (.ppeVsububs (bvAt n 21 5) (bvAt n 16 5) (bvAt n 11 5))
  else if x = 1540 then some (.ppeMfvscr (bvAt n 21 5))
  else if x = 1544 then some (.ppeVsum4ubs (bvAt n 21 5) (bvAt n 16 5) (bvAt n 11 5))
  else if x = 1600 then some (.ppeVsubuhs (bvAt n 21 5) (bvAt n 16 5) (bvAt n 11 5))
  else if x = 1604 then some (.ppeMtvscr (bvAt n 11 5))
  else if x = 1608 then some (.ppeVsum4shs (bvAt n 21 5) (bvAt n 16 5) (bvAt n 11 5))
  else if x = 1664 then some (.ppeVsubuws (bvAt n 21 5) (bvAt n 16 5) (bvAt n 11 5))
  else if x = 1672 then some (.ppeVsum2sws (bvAt n 21 5) (bvAt n 16 5) (bvAt n 11 5))
  else none

/-- OPCD 4, VX-form, extended opcodes 1792 to 2047. -/
def ppeVX7 (n x : Nat) : Option Instr :=
  if x = 1792 then some (.ppeVsubsbs (bvAt n 21 5) (bvAt n 16 5) (bvAt n 11 5))
  else if x = 1800 then some (.ppeVsum4sbs (bvAt n 21 5) (bvAt n 16 5) (bvAt n 11 5))
  else if x = 1856 then some (.ppeVsubshs (bvAt n 21 5) (bvAt n 16 5) (bvAt n 11 5))
  else if x = 1920 then some (.ppeVsubsws (bvAt n 21 5) (bvAt n 16 5) (bvAt n 11 5))
  else if x = 1928 then some (.ppeVsumsws (bvAt n 21 5) (bvAt n 16 5) (bvAt n 11 5))
  else none

/-- OPCD 4, VX-form, extended opcode 21:31. -/
def ppeVX (n x : Nat) : Option Instr :=
  if x / 256 = 0 then ppeVX0 n x
  else if x / 256 = 1 then ppeVX1 n x
  else if x / 256 = 2 then ppeVX2 n x
  else if x / 256 = 3 then ppeVX3 n x
  else if x / 256 = 4 then ppeVX4 n x
  else if x / 256 = 5 then ppeVX5 n x
  else if x / 256 = 6 then ppeVX6 n x
  else if x / 256 = 7 then ppeVX7 n x
  else none

/-- OPCD 19, XL-form, extended opcode 21:30. -/
def ppeXL (n x : Nat) : Option Instr :=
  if x = 16 then some (.ppeBclr (bvAt n 21 5) (bvAt n 16 5) (bvAt n 11 2) (boolAt n 0))
  else if x = 528 then some (.ppeBcctr (bvAt n 21 5) (bvAt n 16 5) (bvAt n 11 2) (boolAt n 0))
  else if x = 18 then some (.ppeRfid)
  else if x = 274 then some (.ppeHrfid)
  else if x = 150 then some (.ppeIsync)
  else if x = 257 then some (.ppeCrand (bvAt n 21 5) (bvAt n 16 5) (bvAt n 11 5))
  else if x = 449 then some (.ppeCror (bvAt n 21 5) (bvAt n 16 5) (bvAt n 11 5))
  else if x = 193 then some (.ppeCrxor (bvAt n 21 5) (bvAt n 16 5) (bvAt n 11 5))
  else if x = 225 then some (.ppeCrnand (bvAt n 21 5) (bvAt n 16 5) (bvAt n 11 5))
  else if x = 33 then some (.ppeCrnor (bvAt n 21 5) (bvAt n 16 5) (bvAt n 11 5))
  else if x = 289 then some (.ppeCreqv (bvAt n 21 5) (bvAt n 16 5) (bvAt n 11 5))
  else if x = 129 then some (.ppeCrandc (bvAt n 21 5) (bvAt n 16 5) (bvAt n 11 5))
  else if x = 417 then some (.ppeCrorc (bvAt n 21 5) (bvAt n 16 5) (bvAt n 11 5))
  else if x = 0 then some (.ppeMcrf (bvAt n 23 3) (bvAt n 18 3))
  else none

/-- OPCD 30, MD-form, extended opcode 27:29. -/
def ppeMD (n x : Nat) : Option Instr :=
  if x = 0 then some (.ppeRldicl (bvAt n 21 5) (bvAt n 16 5) (shAt n) (mbAt n) (boolAt n 0))
  else if x = 1 then some (.ppeRldicr (bvAt n 21 5) (bvAt n 16 5) (shAt n) (mbAt n) (boolAt n 0))
  else if x = 2 then some (.ppeRldic (bvAt n 21 5) (bvAt n 16 5) (shAt n) (mbAt n) (boolAt n 0))
  else if x = 3 then some (.ppeRldimi (bvAt n 21 5) (bvAt n 16 5) (shAt n) (mbAt n) (boolAt n 0))
  else none

/-- OPCD 30, MDS-form, extended opcode 27:30. -/
def ppeMDS (n x : Nat) : Option Instr :=
  if x = 8 then some (.ppeRldcl (bvAt n 21 5) (bvAt n 16 5) (bvAt n 11 5) (mbAt n) (boolAt n 0))
  else if x = 9 then some (.ppeRldcr (bvAt n 21 5) (bvAt n 16 5) (bvAt n 11 5) (mbAt n) (boolAt n 0))
  else none

/-- OPCD 31, XO-form, extended opcode 22:30. -/
def ppeXO (n x : Nat) : Option Instr :=
  if x = 266 then some (.ppeAdd (bvAt n 21 5) (bvAt n 16 5) (bvAt n 11 5) (boolAt n 10) (boolAt n 0))
  else if x = 10 then some (.ppeAddc (bvAt n 21 5) (bvAt n 16 5) (bvAt n 11 5) (boolAt n 10) (boolAt n 0))
  else if x = 138 then some (.ppeAdde (bvAt n 21 5) (bvAt n 16 5) (bvAt n 11 5) (boolAt n 10) (boolAt n 0))
  else if x = 40 then some (.ppeSubf (bvAt n 21 5) (bvAt n 16 5) (bvAt n 11 5) (boolAt n 10) (boolAt n 0))
  else if x = 8 then some (.ppeSubfc (bvAt n 21 5) (bvAt n 16 5) (bvAt n 11 5) (boolAt n 10) (boolAt n 0))
  else if x = 136 then some (.ppeSubfe (bvAt n 21 5) (bvAt n 16 5) (bvAt n 11 5) (boolAt n 10) (boolAt n 0))
  else if x = 235 then some (.ppeMullw (bvAt n 21 5) (bvAt n 16 5) (bvAt n 11 5) (boolAt n 10) (boolAt n 0))
  else if x = 233 then some (.ppeMulld (bvAt n 21 5) (bvAt n 16 5) (bvAt n 11 5) (boolAt n 10) (boolAt n 0))
  else if x = 491 then some (.ppeDivw (bvAt n 21 5) (bvAt n 16 5) (bvAt n 11 5) (boolAt n 10) (boolAt n 0))
  else if x = 459 then some (.ppeDivwu (bvAt n 21 5) (bvAt n 16 5) (bvAt n 11 5) (boolAt n 10) (boolAt n 0))
  else if x = 489 then some (.ppeDivd (bvAt n 21 5) (bvAt n 16 5) (bvAt n 11 5) (boolAt n 10) (boolAt n 0))
  else if x = 457 then some (.ppeDivdu (bvAt n 21 5) (bvAt n 16 5) (bvAt n 11 5) (boolAt n 10) (boolAt n 0))
  else if x = 234 then some (.ppeAddme (bvAt n 21 5) (bvAt n 16 5) (boolAt n 10) (boolAt n 0))
  else if x = 202 then some (.ppeAddze (bvAt n 21 5) (bvAt n 16 5) (boolAt n 10) (boolAt n 0))
  else if x = 232 then some (.ppeSubfme (bvAt n 21 5) (bvAt n 16 5) (boolAt n 10) (boolAt n 0))
  else if x = 200 then some (.ppeSubfze (bvAt n 21 5) (bvAt n 16 5) (boolAt n 10) (boolAt n 0))
  else if x = 104 then some (.ppeNeg (bvAt n 21 5) (bvAt n 16 5) (boolAt n 10) (boolAt n 0))
  else if x = 75 then some (.ppeMulhw (bvAt n 21 5) (bvAt n 16 5) (bvAt n 11 5) (boolAt n 0))
  else if x = 11 then some (.ppeMulhwu (bvAt n 21 5) (bvAt n 16 5) (bvAt n 11 5) (boolAt n 0))
  else if x = 73 then some (.ppeMulhd (bvAt n 21 5) (bvAt n 16 5) (bvAt n 11 5) (boolAt n 0))
  else if x = 9 then some (.ppeMulhdu (bvAt n 21 5) (bvAt n 16 5) (bvAt n 11 5) (boolAt n 0))
  else none

/-- OPCD 31, XS-form, extended opcode 21:29. -/
def ppeXS (n x : Nat) : Option Instr :=
  if x = 413 then some (.ppeSradi (bvAt n 21 5) (bvAt n 16 5) (shAt n) (boolAt n 0))
  else none

/-- OPCD 31, X and XFX forms, extended opcodes 0 to 127. -/
def ppeX0 (n x : Nat) : Option Instr :=
  if x = 0 then some (.ppeCmp (bvAt n 23 3) (boolAt n 21) (bvAt n 16 5) (bvAt n 11 5))
  else if x = 4 then some (.ppeTw (bvAt n 21 5) (bvAt n 16 5) (bvAt n 11 5))
  else if x = 6 then some (.ppeLvsl (bvAt n 21 5) (bvAt n 16 5) (bvAt n 11 5))
  else if x = 7 then some (.ppeLvebx (bvAt n 21 5) (bvAt n 16 5) (bvAt n 11 5))
  else if x = 19 ∧ boolAt n 20 = false then some (.ppeMfcr (bvAt n 21 5))
  else if x = 19 ∧ boolAt n 20 = true then some (.ppeMfocrf (bvAt n 21 5) (bvAt n 12 8))
  else if x = 20 then some (.ppeLwarx (bvAt n 21 5) (bvAt n 16 5) (bvAt n 11 5))
  else if x = 21 then some (.ppeLdx (bvAt n 21 5) (bvAt n 16 5) (bvAt n 11 5))
  else if x = 23 then some (.ppeLwzx (bvAt n 21 5) (bvAt n 16 5) (bvAt n 11 5))
  else if x = 24 then some (.ppeSlw (bvAt n 21 5) (bvAt n 16 5) (bvAt n 11 5) (boolAt n 0))
  else if x = 26 then some (.ppeCntlzw (bvAt n 21 5) (bvAt n 16 5) (boolAt n 0))
  else if x = 27 then some (.ppeSld (bvAt n 21 5) (bvAt n 16 5) (bvAt n 11 5) (boolAt n 0))
  else if x = 28 then some (.ppeAnd (bvAt n 21 5) (bvAt n 16 5) (bvAt n 11 5) (boolAt n 0))
  else if x = 32 then some (.ppeCmpl (bvAt n 23 3) (boolAt n 21) (bvAt n 16 5) (bvAt n 11 5))
  else if x = 38 then some (.ppeLvsr (bvAt n 21 5) (bvAt n 16 5) (bvAt n 11 5))
  else if x = 39 then some (.ppeLvehx (bvAt n 21 5) (bvAt n 16 5) (bvAt n 11 5))
  else if x = 53 then some (.ppeLdux (bvAt n 21 5) (bvAt n 16 5) (bvAt n 11 5))
  else if x = 54 then some (.ppeDcbst (bvAt n 16 5) (bvAt n 11 5))
  else if x = 55 then some (.ppeLwzux (bvAt n 21 5) (bvAt n 16 5) (bvAt n 11 5))
  else if x = 58 then some (.ppeCntlzd (bvAt n 21 5) (bvAt n 16 5) (boolAt n 0))
  else if x = 60 then some (.ppeAndc (bvAt n 21 5) (bvAt n 16 5) (bvAt n 11 5) (boolAt n 0))
  else if x = 68 then some (.ppeTd (bvAt n 21 5) (bvAt n 16 5) (bvAt n 11 5))
  else if x = 71 then some (.ppeLvewx (bvAt n 21 5) (bvAt n 16 5) (bvAt n 11 5))
  else if x = 83 then some (.ppeMfmsr (bvAt n 21 5))
  else if x = 84 then some (.ppeLdarx (bvAt n 21 5) (bvAt n 16 5) (bvAt n 11 5))
  else if x = 86 then some (.ppeDcbf (bvAt n 16 5) (bvAt n 11 5))
  else if x = 87 then some (.ppeLbzx (bvAt n 21 5) (bvAt n 16 5) (bvAt n 11 5))
  else if x = 103 then some (.ppeLvx (bvAt n 21 5) (bvAt n 16 5) (bvAt n 11 5))
  else if x = 119 then some (.ppeLbzux (bvAt n 21 5) (bvAt n 16 5) (bvAt n 11 5))
  else if x = 124 then some (.ppeNor (bvAt n 21 5) (bvAt n 16 5) (bvAt n 11 5) (boolAt n 0))
  else none

/-- OPCD 31, X and XFX forms, extended opcodes 128 to 255. -/
def ppeX1 (n x : Nat) : Option Instr :=
  if x = 135 then some (.ppeStvebx (bvAt n 21 5) (bvAt n 16 5) (bvAt n 11 5))
  else if x = 144 ∧ boolAt n 20 = false then some (.ppeMtcrf (bvAt n 21 5) (bvAt n 12 8))
  else if x = 144 ∧ boolAt n 20 = true then some (.ppeMtocrf (bvAt n 21 5) (bvAt n 12 8))
  else if x = 146 then some (.ppeMtmsr (bvAt n 21 5) (boolAt n 16))
  else if x = 149 then some (.ppeStdx (bvAt n 21 5) (bvAt n 16 5) (bvAt n 11 5))
  else if x = 150 ∧ boolAt n 0 = true then some (.ppeStwcxDot (bvAt n 21 5) (bvAt n 16 5) (bvAt n 11 5))
  else if x = 151 then some (.ppeStwx (bvAt n 21 5) (bvAt n 16 5) (bvAt n 11 5))
  else if x = 167 then some (.ppeStvehx (bvAt n 21 5) (bvAt n 16 5) (bvAt n 11 5))
  else if x = 178 then some (.ppeMtmsrd (bvAt n 21 5) (boolAt n 16))
  else if x = 181 then some (.ppeStdux (bvAt n 21 5) (bvAt n 16 5) (bvAt n 11 5))
  else if x = 183 then some (.ppeStwux (bvAt n 21 5) (bvAt n 16 5) (bvAt n 11 5))
  else if x = 199 then some (.ppeStvewx (bvAt n 21 5) (bvAt n 16 5) (bvAt n 11 5))
  else if x = 214 ∧ boolAt n 0 = true then some (.ppeStdcxDot (bvAt n 21 5) (bvAt n 16 5) (bvAt n 11 5))
  else if x = 215 then some (.ppeStbx (bvAt n 21 5) (bvAt n 16 5) (bvAt n 11 5))
  else if x = 231 then some (.ppeStvx (bvAt n 21 5) (bvAt n 16 5) (bvAt n 11 5))
  else if x = 246 then some (.ppeDcbtst (bvAt n 16 5) (bvAt n 11 5))
  else if x = 247 then some (.ppeStbux (bvAt n 21 5) (bvAt n 16 5) (bvAt n 11 5))
  else none

/-- OPCD 31, X and XFX forms, extended opcodes 256 to 383. -/
def ppeX2 (n x : Nat) : Option Instr :=
  if x = 274 then some (.ppeTlbiel (boolAt n 21) (bvAt n 11 5))
  else if x = 278 then some (.ppeDcbt (bvAt n 21 4) (bvAt n 16 5) (bvAt n 11 5))
  else if x = 279 then some (.ppeLhzx (bvAt n 21 5) (bvAt n 16 5) (bvAt n 11 5))
  else if x = 284 then some (.ppeEqv (bvAt n 21 5) (bvAt n 16 5) (bvAt n 11 5) (boolAt n 0))
  else if x = 306 then some (.ppeTlbie (boolAt n 21) (bvAt n 11 5))
  else if x = 311 then some (.ppeLhzux (bvAt n 21 5) (bvAt n 16 5) (bvAt n 11 5))
  else if x = 316 then some (.ppeXor (bvAt n 21 5) (bvAt n 16 5) (bvAt n 11 5) (boolAt n 0))
  else if x = 339 then some (.ppeMfspr (bvAt n 21 5) (sprAt n))
  else if x = 341 then some (.ppeLwax (bvAt n 21 5) (bvAt n 16 5) (bvAt n 11 5))
  else if x = 342 ∧ boolAt n 25 = false then some (.ppeDst (bvAt n 21 2) (bvAt n 16 5) (bvAt n 11 5))
  else if x = 342 ∧ boolAt n 25 = true then some (.ppeDstt (bvAt n 21 2) (bvAt n 16 5) (bvAt n 11 5))
  else if x = 343 then some (.ppeLhax (bvAt n 21 5) (bvAt n 16 5) (bvAt n 11 5))
  else if x = 359 then some (.ppeLvxl (bvAt n 21 5) (bvAt n 16 5) (bvAt n 11 5))
  else if x = 371 then some (.ppeMftb (bvAt n 21 5) (sprAt n))
  else if x = 373 then some (.ppeLwaux (bvAt n 21 5) (bvAt n 16 5) (bvAt n 11 5))
  else if x = 374 ∧ boolAt n 25 = false then some (.ppeDstst (bvAt n 21 2) (bvAt n 16 5) (bvAt n 11 5))
  else if x = 374 ∧ boolAt n 25 = true then some (.ppeDststt (bvAt n 21 2) (bvAt n 16 5) (bvAt n 11 5))
  else if x = 375 then some (.ppeLhaux (bvAt n 21 5) (bvAt n 16 5) (bvAt n 11 5))
  else none

/-- OPCD 31, X and XFX forms, extended opcodes 384 to 511. -/
def ppeX3 (n x : Nat) : Option Instr :=
  if x = 402 then some (.ppeSlbmte (bvAt n 21 5) (bvAt n 11 5))
  else if x = 407 then some (.ppeSthx (bvAt n 21 5) (bvAt n 16 5) (bvAt n 11 5))
  else if x = 412 then some (.ppeOrc (bvAt n 21 5) (bvAt n 16 5) (bvAt n 11 5) (boolAt n 0))
  else if x = 434 then some (.ppeSlbie (bvAt n 11 5))
  else if x = 439 then some (.ppeSthux (bvAt n 21 5) (bvAt n 16 5) (bvAt n 11 5))
  else if x = 444 then some (.ppeOr (bvAt n 21 5) (bvAt n 16 5) (bvAt n 11 5) (boolAt n 0))
  else if x = 467 then some (.ppeMtspr (bvAt n 21 5) (sprAt n))
  else if x = 476 then some (.ppeNand (bvAt n 21 5) (bvAt n 16 5) (bvAt n 11 5) (boolAt n 0))
  else if x = 487 then some (.ppeStvxl (bvAt n 21 5) (bvAt n 16 5) (bvAt n 11 5))
  else if x = 498 then some (.ppeSlbia)
  else none

/-- OPCD 31, X and XFX forms, extended opcodes 512 to 639. -/
def ppeX4 (n x : Nat) : Option Instr :=
  if x = 519 then some (.ppeLvlx (bvAt n 21 5) (bvAt n 16 5) (bvAt n 11 5))
  else if x = 532 then some (.ppeLdbrx (bvAt n 21 5) (bvAt n 16 5) (bvAt n 11 5))
  else if x = 533 then some (.ppeLswx (bvAt n 21 5) (bvAt n 16 5) (bvAt n 11 5))
  else if x = 534 then some (.ppeLwbrx (bvAt n 21 5) (bvAt n 16 5) (bvAt n 11 5))
  else if x = 535 then some (.ppeLfsx (bvAt n 21 5) (bvAt n 16 5) (bvAt n 11 5))
  else if x = 536 then some (.ppeSrw (bvAt n 21 5) (bvAt n 16 5) (bvAt n 11 5) (boolAt n 0))
  else if x = 539 then some (.ppeSrd (bvAt n 21 5) (bvAt n 16 5) (bvAt n 11 5) (boolAt n 0))
  else if x = 551 then some (.ppeLvrx (bvAt n 21 5) (bvAt n 16 5) (bvAt n 11 5))
  else if x = 566 then some (.ppeTlbsync)
  else if x = 567 then some (.ppeLfsux (bvAt n 21 5) (bvAt n 16 5) (bvAt n 11 5))
  else if x = 597 then some (.ppeLswi (bvAt n 21 5) (bvAt n 16 5) (bvAt n 11 5))
  else if x = 598 then some (.ppeSync (bvAt n 21 2))
  else if x = 599 then some (.ppeLfdx (bvAt n 21 5) (bvAt n 16 5) (bvAt n 11 5))
  else if x = 631 then some (.ppeLfdux (bvAt n 21 5) (bvAt n 16 5) (bvAt n 11 5))
  else none

/-- OPCD 31, X and XFX forms, extended opcodes 640 to 767. -/
def ppeX5 (n x : Nat) : Option Instr :=
  if x = 647 then some (.ppeStvlx (bvAt n 21 5) (bvAt n 16 5) (bvAt n 11 5))
  else if x = 660 then some (.ppeStdbrx (bvAt n 21 5) (bvAt n 16 5) (bvAt n 11 5))
  else if x = 661 then some (.ppeStswx (bvAt n 21 5) (bvAt n 16 5) (bvAt n 11 5))
  else if x = 662 then some (.ppeStwbrx (bvAt n 21 5) (bvAt n 16 5) (bvAt n 11 5))
  else if x = 663 then some (.ppeStfsx (bvAt n 21 5) (bvAt n 16 5) (bvAt n 11 5))
  else if x = 679 then some (.ppeStvrx (bvAt n 21 5) (bvAt n 16 5) (bvAt n 11 5))
  else if x = 695 then some (.ppeStfsux (bvAt n 21 5) (bvAt n 16 5) (bvAt n 11 5))
  else if x = 725 then some (.ppeStswi (bvAt n 21 5) (bvAt n 16 5) (bvAt n 11 5))
  else if x = 727 then some (.ppeStfdx (bvAt n 21 5) (bvAt n 16 5) (bvAt n 11 5))
  else if x = 759 then some (.ppeStfdux (bvAt n 21 5) (bvAt n 16 5) (bvAt n 11 5))
  else none

/-- OPCD 31, X and XFX forms, extended opcodes 768 to 895. -/
def ppeX6 (n x : Nat) : Option Instr :=
  if x = 775 then some (.ppeLvlxl (bvAt n 21 5) (bvAt n 16 5) (bvAt n 11 5))
  else if x = 790 then some (.ppeLhbrx (bvAt n 21 5) (bvAt n 16 5) (bvAt n 11 5))
  else if x = 792 then some (.ppeSraw (bvAt n 21 5) (bvAt n 16 5) (bvAt n 11 5) (boolAt n 0))
  else if x = 794 then some (.ppeSrad (bvAt n 21 5) (bvAt n 16 5) (bvAt n 11 5) (boolAt n 0))
  else if x = 807 then some (.ppeLvrxl (bvAt n 21 5) (bvAt n 16 5) (bvAt n 11 5))
  else if x = 822 ∧ boolAt n 25 = false then some (.ppeDss (bvAt n 21 2))
  else if x = 822 ∧ boolAt n 25 = true then some (.ppeDssall)
  else if x = 824 then some (.ppeSrawi (bvAt n 21 5) (bvAt n 16 5) (bvAt n 11 5) (boolAt n 0))
  else if x = 851 then some (.ppeSlbmfev (bvAt n 21 5) (bvAt n 11 5))
  else if x = 854 then some (.ppeEieio)
  else none

/-- OPCD 31, X and XFX forms, extended opcodes 896 to 1023. -/
def ppeX7 (n x : Nat) : Option Instr :=
  if x = 903 then some (.ppeStvlxl (bvAt n 21 5) (bvAt n 16 5) (bvAt n 11 5))
  else if x = 915 then some (.ppeSlbmfee (bvAt n 21 5) (bvAt n 11 5))
  else if x = 918 then some (.ppeSthbrx (bvAt n 21 5) (bvAt n 16 5) (bvAt n 11 5))
  else if x = 922 then some (.ppeExtsh (bvAt n 21 5) (bvAt n 16 5) (boolAt n 0))
  else if x = 935 then some (.ppeStvrxl (bvAt n 21 5) (bvAt n 16 5) (bvAt n 11 5))
  else if x = 954 then some (.ppeExtsb (bvAt n 21 5) (bvAt n 16 5) (boolAt n 0))
  else if x = 982 then some (.ppeIcbi (bvAt n 16 5) (bvAt n 11 5))
  else if x = 983 then some (.ppeStfiwx (bvAt n 21 5) (bvAt n 16 5) (bvAt n 11 5))
  else if x = 986 then some (.ppeExtsw (bvAt n 21 5) (bvAt n 16 5) (boolAt n 0))
  else if x = 1014 then some (.ppeDcbz (bvAt n 16 5) (bvAt n 11 5))
  else none

/-- OPCD 31, X and XFX forms, extended opcode 21:30. -/
def ppeX (n x : Nat) : Option Instr :=
  if x / 128 = 0 then ppeX0 n x
  else if x / 128 = 1 then ppeX1 n x
  else if x / 128 = 2 then ppeX2 n x
  else if x / 128 = 3 then ppeX3 n x
  else if x / 128 = 4 then ppeX4 n x
  else if x / 128 = 5 then ppeX5 n x
  else if x / 128 = 6 then ppeX6 n x
  else if x / 128 = 7 then ppeX7 n x
  else none

/-- OPCD 58 and 62, DS-form, extended opcode 30:31 (x = OPCD * 4 + XO). -/
def ppeDS (n x : Nat) : Option Instr :=
  if x = 232 then some (.ppeLd (bvAt n 21 5) (bvAt n 16 5) (bvAt n 2 14))
  else if x = 233 then some (.ppeLdu (bvAt n 21 5) (bvAt n 16 5) (bvAt n 2 14))
  else if x = 234 then some (.ppeLwa (bvAt n 21 5) (bvAt n 16 5) (bvAt n 2 14))
  else if x = 248 then some (.ppeStd (bvAt n 21 5) (bvAt n 16 5) (bvAt n 2 14))
  else if x = 249 then some (.ppeStdu (bvAt n 21 5) (bvAt n 16 5) (bvAt n 2 14))
  else none

/-- OPCD 59, A-form, extended opcode 26:30. -/
def ppeA59 (n x : Nat) : Option Instr :=
  if x = 21 then some (.ppeFadds (bvAt n 21 5) (bvAt n 16 5) (bvAt n 11 5) (boolAt n 0))
  else if x = 20 then some (.ppeFsubs (bvAt n 21 5) (bvAt n 16 5) (bvAt n 11 5) (boolAt n 0))
  else if x = 18 then some (.ppeFdivs (bvAt n 21 5) (bvAt n 16 5) (bvAt n 11 5) (boolAt n 0))
  else if x = 25 then some (.ppeFmuls (bvAt n 21 5) (bvAt n 16 5) (bvAt n 6 5) (boolAt n 0))
  else if x = 22 then some (.ppeFsqrts (bvAt n 21 5) (bvAt n 11 5) (boolAt n 0))
  else if x = 24 then some (.ppeFres (bvAt n 21 5) (bvAt n 11 5) (boolAt n 0))
  else if x = 29 then some (.ppeFmadds (bvAt n 21 5) (bvAt n 16 5) (bvAt n 11 5) (bvAt n 6 5) (boolAt n 0))
  else if x = 28 then some (.ppeFmsubs (bvAt n 21 5) (bvAt n 16 5) (bvAt n 11 5) (bvAt n 6 5) (boolAt n 0))
  else if x = 31 then some (.ppeFnmadds (bvAt n 21 5) (bvAt n 16 5) (bvAt n 11 5) (bvAt n 6 5) (boolAt n 0))
  else if x = 30 then some (.ppeFnmsubs (bvAt n 21 5) (bvAt n 16 5) (bvAt n 11 5) (bvAt n 6 5) (boolAt n 0))
  else none

/-- OPCD 63, A-form, extended opcode 26:30. -/
def ppeA63 (n x : Nat) : Option Instr :=
  if x = 21 then some (.ppeFadd (bvAt n 21 5) (bvAt n 16 5) (bvAt n 11 5) (boolAt n 0))
  else if x = 20 then some (.ppeFsub (bvAt n 21 5) (bvAt n 16 5) (bvAt n 11 5) (boolAt n 0))
  else if x = 18 then some (.ppeFdiv (bvAt n 21 5) (bvAt n 16 5) (bvAt n 11 5) (boolAt n 0))
  else if x = 25 then some (.ppeFmul (bvAt n 21 5) (bvAt n 16 5) (bvAt n 6 5) (boolAt n 0))
  else if x = 22 then some (.ppeFsqrt (bvAt n 21 5) (bvAt n 11 5) (boolAt n 0))
  else if x = 26 then some (.ppeFrsqrte (bvAt n 21 5) (bvAt n 11 5) (boolAt n 0))
  else if x = 23 then some (.ppeFsel (bvAt n 21 5) (bvAt n 16 5) (bvAt n 11 5) (bvAt n 6 5) (boolAt n 0))
  else if x = 29 then some (.ppeFmadd (bvAt n 21 5) (bvAt n 16 5) (bvAt n 11 5) (bvAt n 6 5) (boolAt n 0))
  else if x = 28 then some (.ppeFmsub (bvAt n 21 5) (bvAt n 16 5) (bvAt n 11 5) (bvAt n 6 5) (boolAt n 0))
  else if x = 31 then some (.ppeFnmadd (bvAt n 21 5) (bvAt n 16 5) (bvAt n 11 5) (bvAt n 6 5) (boolAt n 0))
  else if x = 30 then some (.ppeFnmsub (bvAt n 21 5) (bvAt n 16 5) (bvAt n 11 5) (bvAt n 6 5) (boolAt n 0))
  else none

/-- OPCD 63, X and XFL forms, extended opcode 21:30. -/
def ppeX63 (n x : Nat) : Option Instr :=
  if x = 72 then some (.ppeFmr (bvAt n 21 5) (bvAt n 11 5) (boolAt n 0))
  else if x = 40 then some (.ppeFneg (bvAt n 21 5) (bvAt n 11 5) (boolAt n 0))
  else if x = 264 then some (.ppeFabs (bvAt n 21 5) (bvAt n 11 5) (boolAt n 0))
  else if x = 136 then some (.ppeFnabs (bvAt n 21 5) (bvAt n 11 5) (boolAt n 0))
  else if x = 12 then some (.ppeFrsp (bvAt n 21 5) (bvAt n 11 5) (boolAt n 0))
  else if x = 814 then some (.ppeFctid (bvAt n 21 5) (bvAt n 11 5) (boolAt n 0))
  else if x = 815 then some (.ppeFctidz (bvAt n 21 5) (bvAt n 11 5) (boolAt n 0))
  else if x = 14 then some (.ppeFctiw (bvAt n 21 5) (bvAt n 11 5) (boolAt n 0))
  else if x = 15 then some (.ppeFctiwz (bvAt n 21 5) (bvAt n 11 5) (boolAt n 0))
  else if x = 846 then some (.ppeFcfid (bvAt n 21 5) (bvAt n 11 5) (boolAt n 0))
  else if x = 0 then some (.ppeFcmpu (bvAt n 23 3) (bvAt n 16 5) (bvAt n 11 5))
  else if x = 32 then some (.ppeFcmpo (bvAt n 23 3) (bvAt n 16 5) (bvAt n 11 5))
  else if x = 583 then some (.ppeMffs (bvAt n 21 5) (boolAt n 0))
  else if x = 64 then some (.ppeMcrfs (bvAt n 23 3) (bvAt n 18 3))
  else if x = 134 then some (.ppeMtfsfi (bvAt n 23 3) (bvAt n 12 4) (boolAt n 0))
  else if x = 711 then some (.ppeMtfsf (bvAt n 17 8) (bvAt n 11 5) (boolAt n 0))
  else if x = 70 then some (.ppeMtfsb0 (bvAt n 21 5) (boolAt n 0))
  else if x = 38 then some (.ppeMtfsb1 (bvAt n 21 5) (boolAt n 0))
  else none

/-- The PPE instruction of the word with value `n`, if one row of the table matches (30_encoding R544). -/
def ppeOf (n : Nat) : Option Instr :=
  let op := n / 2^26
  if op = 4 then
    if n / 2^5 % 2 = 1 ∧ n / 2^4 % 2 = 0 then ppeVA n (n % 64)
    else (ppeVXR n (n % 1024)).or (ppeVX n (n % 2048))
  else if op = 19 then ppeXL n (n / 2 % 1024)
  else if op = 30 then (ppeMD n (n / 4 % 8)).or (ppeMDS n (n / 2 % 16))
  else if op = 31 then
    ((ppeXO n (n / 2 % 512)).or (ppeXS n (n / 4 % 512))).or (ppeX n (n / 2 % 1024))
  else if op = 58 ∨ op = 62 then ppeDS n (op * 4 + n % 4)
  else if op = 59 then ppeA59 n (n / 2 % 32)
  else if op = 63 then
    if n / 2^5 % 2 = 1 then ppeA63 n (n / 2 % 32) else ppeX63 n (n / 2 % 1024)
  else ppePrimary n op

/-- SPU opcodes of 4 bits (30_encoding R561). -/
def spuRRR (n x : Nat) : Option Instr :=
  if x = 12 then some (.spuMpya (bvAt n 21 7) (bvAt n 7 7) (bvAt n 14 7) (bvAt n 0 7))
  else if x = 8 then some (.spuSelb (bvAt n 21 7) (bvAt n 7 7) (bvAt n 14 7) (bvAt n 0 7))
  else if x = 11 then some (.spuShufb (bvAt n 21 7) (bvAt n 7 7) (bvAt n 14 7) (bvAt n 0 7))
  else if x = 14 then some (.spuFma (bvAt n 21 7) (bvAt n 7 7) (bvAt n 14 7) (bvAt n 0 7))
  else if x = 13 then some (.spuFnms (bvAt n 21 7) (bvAt n 7 7) (bvAt n 14 7) (bvAt n 0 7))
  else if x = 15 then some (.spuFms (bvAt n 21 7) (bvAt n 7 7) (bvAt n 14 7) (bvAt n 0 7))
  else none

/-- SPU opcodes of 7 bits (30_encoding R561). -/
def spuRI18 (n x : Nat) : Option Instr :=
  if x = 33 then some (.spuIla (bvAt n 0 7) (bvAt n 7 18))
  else if x = 8 then some (.spuHbra (bvAt n 7 16) (roAt n 23))
  else if x = 9 then some (.spuHbrr (bvAt n 7 16) (roAt n 23))
  else none

/-- SPU opcodes of 8 bits (30_encoding R561). -/
def spuRI10 (n x : Nat) : Option Instr :=
  if x = 52 then some (.spuLqd (bvAt n 0 7) (bvAt n 7 7) (bvAt n 14 10))
  else if x = 36 then some (.spuStqd (bvAt n 0 7) (bvAt n 7 7) (bvAt n 14 10))
  else if x = 29 then some (.spuAhi (bvAt n 0 7) (bvAt n 7 7) (bvAt n 14 10))
  else if x = 28 then some (.spuAi (bvAt n 0 7) (bvAt n 7 7) (bvAt n 14 10))
  else if x = 13 then some (.spuSfhi (bvAt n 0 7) (bvAt n 7 7) (bvAt n 14 10))
  else if x = 12 then some (.spuSfi (bvAt n 0 7) (bvAt n 7 7) (bvAt n 14 10))
  else if x = 116 then some (.spuMpyi (bvAt n 0 7) (bvAt n 7 7) (bvAt n 14 10))
  else if x = 117 then some (.spuMpyui (bvAt n 0 7) (bvAt n 7 7) (bvAt n 14 10))
  else if x = 22 then some (.spuAndbi (bvAt n 0 7) (bvAt n 7 7) (bvAt n 14 10))
  else if x = 21 then some (.spuAndhi (bvAt n 0 7) (bvAt n 7 7) (bvAt n 14 10))
  else if x = 20 then some (.spuAndi (bvAt n 0 7) (bvAt n 7 7) (bvAt n 14 10))
  else if x = 6 then some (.spuOrbi (bvAt n 0 7) (bvAt n 7 7) (bvAt n 14 10))
  else if x = 5 then some (.spuOrhi (bvAt n 0 7) (bvAt n 7 7) (bvAt n 14 10))
  else if x = 4 then some (.spuOri (bvAt n 0 7) (bvAt n 7 7) (bvAt n 14 10))
  else if x = 70 then some (.spuXorbi (bvAt n 0 7) (bvAt n 7 7) (bvAt n 14 10))
  else if x = 69 then some (.spuXorhi (bvAt n 0 7) (bvAt n 7 7) (bvAt n 14 10))
  else if x = 68 then some (.spuXori (bvAt n 0 7) (bvAt n 7 7) (bvAt n 14 10))
  else if x = 127 then some (.spuHeqi (bvAt n 7 7) (bvAt n 14 10))
  else if x = 79 then some (.spuHgti (bvAt n 7 7) (bvAt n 14 10))
  else if x = 95 then some (.spuHlgti (bvAt n 7 7) (bvAt n 14 10))
  else if x = 126 then some (.spuCeqbi (bvAt n 0 7) (bvAt n 7 7) (bvAt n 14 10))
  else if x = 125 then some (.spuCeqhi (bvAt n 0 7) (bvAt n 7 7) (bvAt n 14 10))
  else if x = 124 then some (.spuCeqi (bvAt n 0 7) (bvAt n 7 7) (bvAt n 14 10))
  else if x = 78 then some (.spuCgtbi (bvAt n 0 7) (bvAt n 7 7) (bvAt n 14 10))
  else if x = 77 then some (.spuCgthi (bvAt n 0 7) (bvAt n 7 7) (bvAt n 14 10))
  else if x = 76 then some (.spuCgti (bvAt n 0 7) (bvAt n 7 7) (bvAt n 14 10))
  else if x = 94 then some (.spuClgtbi (bvAt n 0 7) (bvAt n 7 7) (bvAt n 14 10))
  else if x = 93 then some (.spuClgthi (bvAt n 0 7) (bvAt n 7 7) (bvAt n 14 10))
  else if x = 92 then some (.spuClgti (bvAt n 0 7) (bvAt n 7 7) (bvAt n 14 10))
  else none

/-- SPU opcodes of 9 bits (30_encoding R561). -/
def spuRI16 (n x : Nat) : Option Instr :=
  if x = 97 then some (.spuLqa (bvAt n 0 7) (bvAt n 7 16))
  else if x = 103 then some (.spuLqr (bvAt n 0 7) (bvAt n 7 16))
  else if x = 65 then some (.spuStqa (bvAt n 0 7) (bvAt n 7 16))
  else if x = 71 then some (.spuStqr (bvAt n 0 7) (bvAt n 7 16))
  else if x = 131 then some (.spuIlh (bvAt n 0 7) (bvAt n 7 16))
  else if x = 130 then some (.spuIlhu (bvAt n 0 7) (bvAt n 7 16))
  else if x = 129 then some (.spuIl (bvAt n 0 7) (bvAt n 7 16))
  else if x = 193 then some (.spuIohl (bvAt n 0 7) (bvAt n 7 16))
  else if x = 101 then some (.spuFsmbi (bvAt n 0 7) (bvAt n 7 16))
  else if x = 100 then some (.spuBr (bvAt n 7 16))
  else if x = 96 then some (.spuBra (bvAt n 7 16))
  else if x = 102 then some (.spuBrsl (bvAt n 0 7) (bvAt n 7 16))
  else if x = 98 then some (.spuBrasl (bvAt n 0 7) (bvAt n 7 16))
  else if x = 66 then some (.spuBrnz (bvAt n 0 7) (bvAt n 7 16))
  else if x = 64 then some (.spuBrz (bvAt n 0 7) (bvAt n 7 16))
  else if x = 70 then some (.spuBrhnz (bvAt n 0 7) (bvAt n 7 16))
  else if x = 68 then some (.spuBrhz (bvAt n 0 7) (bvAt n 7 16))
  else none

/-- SPU opcodes of 10 bits (30_encoding R561). -/
def spuRI8 (n x : Nat) : Option Instr :=
  if x = 474 then some (.spuCsflt (bvAt n 0 7) (bvAt n 7 7) (bvAt n 14 8))
  else if x = 472 then some (.spuCflts (bvAt n 0 7) (bvAt n 7 7) (bvAt n 14 8))
  else if x = 475 then some (.spuCuflt (bvAt n 0 7) (bvAt n 7 7) (bvAt n 14 8))
  else if x = 473 then some (.spuCfltu (bvAt n 0 7) (bvAt n 7 7) (bvAt n 14 8))
  else none

/-- SPU opcodes of 11 bits, x'0' to x'FF'. -/
def spuRR0 (n x : Nat) : Option Instr :=
  if x = 0 then some (.spuStop (bvAt n 0 14))
  else if x = 1 then some (.spuLnop)
  else if x = 2 ∧ boolAt n 20 = false then some (.spuSync)
  else if x = 2 ∧ boolAt n 20 = true then some (.spuSyncc)
  else if x = 3 then some (.spuDsync)
  else if x = 12 then some (.spuMfspr (bvAt n 0 7) (bvAt n 7 7))
  else if x = 13 then some (.spuRdch (bvAt n 0 7) (bvAt n 7 7))
  else if x = 15 then some (.spuRchcnt (bvAt n 0 7) (bvAt n 7 7))
  else if x = 64 then some (.spuSf (bvAt n 0 7) (bvAt n 7 7) (bvAt n 14 7))
  else if x = 65 then some (.spuOr (bvAt n 0 7) (bvAt n 7 7) (bvAt n 14 7))
  else if x = 66 then some (.spuBg (bvAt n 0 7) (bvAt n 7 7) (bvAt n 14 7))
  else if x = 72 then some (.spuSfh (bvAt n 0 7) (bvAt n 7 7) (bvAt n 14 7))
  else if x = 73 then some (.spuNor (bvAt n 0 7) (bvAt n 7 7) (bvAt n 14 7))
  else if x = 83 then some (.spuAbsdb (bvAt n 0 7) (bvAt n 7 7) (bvAt n 14 7))
  else if x = 88 then some (.spuRot (bvAt n 0 7) (bvAt n 7 7) (bvAt n 14 7))
  else if x = 89 then some (.spuRotm (bvAt n 0 7) (bvAt n 7 7) (bvAt n 14 7))
  else if x = 90 then some (.spuRotma (bvAt n 0 7) (bvAt n 7 7) (bvAt n 14 7))
  else if x = 91 then some (.spuShl (bvAt n 0 7) (bvAt n 7 7) (bvAt n 14 7))
  else if x = 92 then some (.spuRoth (bvAt n 0 7) (bvAt n 7 7) (bvAt n 14 7))
  else if x = 93 then some (.spuRothm (bvAt n 0 7) (bvAt n 7 7) (bvAt n 14 7))
  else if x = 94 then some (.spuRotmah (bvAt n 0 7) (bvAt n 7 7) (bvAt n 14 7))
  else if x = 95 then some (.spuShlh (bvAt n 0 7) (bvAt n 7 7) (bvAt n 14 7))
  else if x = 120 then some (.spuRoti (bvAt n 0 7) (bvAt n 7 7) (bvAt n 14 7))
  else if x = 121 then some (.spuRotmi (bvAt n 0 7) (bvAt n 7 7) (bvAt n 14 7))
  else if x = 122 then some (.spuRotmai (bvAt n 0 7) (bvAt n 7 7) (bvAt n 14 7))
  else if x = 123 then some (.spuShli (bvAt n 0 7) (bvAt n 7 7) (bvAt n 14 7))
  else if x = 124 then some (.spuRothi (bvAt n 0 7) (bvAt n 7 7) (bvAt n 14 7))
  else if x = 125 then some (.spuRothmi (bvAt n 0 7) (bvAt n 7 7) (bvAt n 14 7))
  else if x = 126 then some (.spuRotmahi (bvAt n 0 7) (bvAt n 7 7) (bvAt n 14 7))
  else if x = 127 then some (.spuShlhi (bvAt n 0 7) (bvAt n 7 7) (bvAt n 14 7))
  else if x = 192 then some (.spuA (bvAt n 0 7) (bvAt n 7 7) (bvAt n 14 7))
  else if x = 193 then some (.spuAnd (bvAt n 0 7) (bvAt n 7 7) (bvAt n 14 7))
  else if x = 194 then some (.spuCg (bvAt n 0 7) (bvAt n 7 7) (bvAt n 14 7))
  else if x = 200 then some (.spuAh (bvAt n 0 7) (bvAt n 7 7) (bvAt n 14 7))
  else if x = 201 then some (.spuNand (bvAt n 0 7) (bvAt n 7 7) (bvAt n 14 7))
  else if x = 211 then some (.spuAvgb (bvAt n 0 7) (bvAt n 7 7) (bvAt n 14 7))
  else none

/-- SPU opcodes of 11 bits, x'100' to x'1FF'. -/
def spuRR1 (n x : Nat) : Option Instr :=
  if x = 268 then some (.spuMtspr (bvAt n 0 7) (bvAt n 7 7))
  else if x = 269 then some (.spuWrch (bvAt n 0 7) (bvAt n 7 7))
  else if x = 296 then some (.spuBiz (bvAt n 0 7) (bvAt n 7 7) (boolAt n 19) (boolAt n 18))
  else if x = 297 then some (.spuBinz (bvAt n 0 7) (bvAt n 7 7) (boolAt n 19) (boolAt n 18))
  else if x = 298 then some (.spuBihz (bvAt n 0 7) (bvAt n 7 7) (boolAt n 19) (boolAt n 18))
  else if x = 299 then some (.spuBihnz (bvAt n 0 7) (bvAt n 7 7) (boolAt n 19) (boolAt n 18))
  else if x = 320 then some (.spuStopd (bvAt n 7 7) (bvAt n 14 7) (bvAt n 0 7))
  else if x = 324 then some (.spuStqx (bvAt n 0 7) (bvAt n 7 7) (bvAt n 14 7))
  else if x = 424 then some (.spuBi (bvAt n 7 7) (boolAt n 19) (boolAt n 18))
  else if x = 425 then some (.spuBisl (bvAt n 0 7) (bvAt n 7 7) (boolAt n 19) (boolAt n 18))
  else if x = 426 then some (.spuIret (bvAt n 7 7) (boolAt n 19) (boolAt n 18))
  else if x = 427 then some (.spuBisled (bvAt n 0 7) (bvAt n 7 7) (boolAt n 19) (boolAt n 18))
  else if x = 428 ∧ boolAt n 20 = false then some (.spuHbr (bvAt n 7 7) (roAt n 14))
  else if x = 428 ∧ boolAt n 20 = true then some (.spuHbrp (bvAt n 7 7) (roAt n 14))
  else if x = 432 then some (.spuGb (bvAt n 0 7) (bvAt n 7 7))
  else if x = 433 then some (.spuGbh (bvAt n 0 7) (bvAt n 7 7))
  else if x = 434 then some (.spuGbb (bvAt n 0 7) (bvAt n 7 7))
  else if x = 436 then some (.spuFsm (bvAt n 0 7) (bvAt n 7 7))
  else if x = 437 then some (.spuFsmh (bvAt n 0 7) (bvAt n 7 7))
  else if x = 438 then some (.spuFsmb (bvAt n 0 7) (bvAt n 7 7))
  else if x = 440 then some (.spuFrest (bvAt n 0 7) (bvAt n 7 7))
  else if x = 441 then some (.spuFrsqest (bvAt n 0 7) (bvAt n 7 7))
  else if x = 452 then some (.spuLqx (bvAt n 0 7) (bvAt n 7 7) (bvAt n 14 7))
  else if x = 460 then some (.spuRotqbybi (bvAt n 0 7) (bvAt n 7 7) (bvAt n 14 7))
  else if x = 461 then some (.spuRotqmbybi (bvAt n 0 7) (bvAt n 7 7) (bvAt n 14 7))
  else if x = 463 then some (.spuShlqbybi (bvAt n 0 7) (bvAt n 7 7) (bvAt n 14 7))
  else if x = 468 then some (.spuCbx (bvAt n 0 7) (bvAt n 7 7) (bvAt n 14 7))
  else if x = 469 then some (.spuChx (bvAt n 0 7) (bvAt n 7 7) (bvAt n 14 7))
  else if x = 470 then some (.spuCwx (bvAt n 0 7) (bvAt n 7 7) (bvAt n 14 7))
  else if x = 471 then some (.spuCdx (bvAt n 0 7) (bvAt n 7 7) (bvAt n 14 7))
  else if x = 472 then some (.spuRotqbi (bvAt n 0 7) (bvAt n 7 7) (bvAt n 14 7))
  else if x = 473 then some (.spuRotqmbi (bvAt n 0 7) (bvAt n 7 7) (bvAt n 14 7))
  else if x = 475 then some (.spuShlqbi (bvAt n 0 7) (bvAt n 7 7) (bvAt n 14 7))
  else if x = 476 then some (.spuRotqby (bvAt n 0 7) (bvAt n 7 7) (bvAt n 14 7))
  else if x = 477 then some (.spuRotqmby (bvAt n 0 7) (bvAt n 7 7) (bvAt n 14 7))
  else if x = 479 then some (.spuShlqby (bvAt n 0 7) (bvAt n 7 7) (bvAt n 14 7))
  else if x = 496 then some (.spuOrx (bvAt n 0 7) (bvAt n 7 7))
  else if x = 500 then some (.spuCbd (bvAt n 0 7) (bvAt n 7 7) (bvAt n 14 7))
  else if x = 501 then some (.spuChd (bvAt n 0 7) (bvAt n 7 7) (bvAt n 14 7))
  else if x = 502 then some (.spuCwd (bvAt n 0 7) (bvAt n 7 7) (bvAt n 14 7))
  else if x = 503 then some (.spuCdd (bvAt n 0 7) (bvAt n 7 7) (bvAt n 14 7))
  else if x = 504 then some (.spuRotqbii (bvAt n 0 7) (bvAt n 7 7) (bvAt n 14 7))
  else if x = 505 then some (.spuRotqmbii (bvAt n 0 7) (bvAt n 7 7) (bvAt n 14 7))
  else if x = 507 then some (.spuShlqbii (bvAt n 0 7) (bvAt n 7 7) (bvAt n 14 7))
  else if x = 508 then some (.spuRotqbyi (bvAt n 0 7) (bvAt n 7 7) (bvAt n 14 7))
  else if x = 509 then some (.spuRotqmbyi (bvAt n 0 7) (bvAt n 7 7) (bvAt n 14 7))
  else if x = 511 then some (.spuShlqbyi (bvAt n 0 7) (bvAt n 7 7) (bvAt n 14 7))
  else none

/-- SPU opcodes of 11 bits, x'200' to x'2FF'. -/
def spuRR2 (n x : Nat) : Option Instr :=
  if x = 513 then some (.spuNop)
  else if x = 576 then some (.spuCgt (bvAt n 0 7) (bvAt n 7 7) (bvAt n 14 7))
  else if x = 577 then some (.spuXor (bvAt n 0 7) (bvAt n 7 7) (bvAt n 14 7))
  else if x = 584 then some (.spuCgth (bvAt n 0 7) (bvAt n 7 7) (bvAt n 14 7))
  else if x = 585 then some (.spuEqv (bvAt n 0 7) (bvAt n 7 7) (bvAt n 14 7))
  else if x = 592 then some (.spuCgtb (bvAt n 0 7) (bvAt n 7 7) (bvAt n 14 7))
  else if x = 595 then some (.spuSumb (bvAt n 0 7) (bvAt n 7 7) (bvAt n 14 7))
  else if x = 600 then some (.spuHgt (bvAt n 7 7) (bvAt n 14 7))
  else if x = 677 then some (.spuClz (bvAt n 0 7) (bvAt n 7 7))
  else if x = 678 then some (.spuXswd (bvAt n 0 7) (bvAt n 7 7))
  else if x = 686 then some (.spuXshw (bvAt n 0 7) (bvAt n 7 7))
  else if x = 692 then some (.spuCntb (bvAt n 0 7) (bvAt n 7 7))
  else if x = 694 then some (.spuXsbh (bvAt n 0 7) (bvAt n 7 7))
  else if x = 704 then some (.spuClgt (bvAt n 0 7) (bvAt n 7 7) (bvAt n 14 7))
  else if x = 705 then some (.spuAndc (bvAt n 0 7) (bvAt n 7 7) (bvAt n 14 7))
  else if x = 706 then some (.spuFcgt (bvAt n 0 7) (bvAt n 7 7) (bvAt n 14 7))
  else if x = 707 then some (.spuDfcgt (bvAt n 0 7) (bvAt n 7 7) (bvAt n 14 7))
  else if x = 708 then some (.spuFa (bvAt n 0 7) (bvAt n 7 7) (bvAt n 14 7))
  else if x = 709 then some (.spuFs (bvAt n 0 7) (bvAt n 7 7) (bvAt n 14 7))
  else if x = 710 then some (.spuFm (bvAt n 0 7) (bvAt n 7 7) (bvAt n 14 7))
  else if x = 712 then some (.spuClgth (bvAt n 0 7) (bvAt n 7 7) (bvAt n 14 7))
  else if x = 713 then some (.spuOrc (bvAt n 0 7) (bvAt n 7 7) (bvAt n 14 7))
  else if x = 714 then some (.spuFcmgt (bvAt n 0 7) (bvAt n 7 7) (bvAt n 14 7))
  else if x = 715 then some (.spuDfcmgt (bvAt n 0 7) (bvAt n 7 7) (bvAt n 14 7))
  else if x = 716 then some (.spuDfa (bvAt n 0 7) (bvAt n 7 7) (bvAt n 14 7))
  else if x = 717 then some (.spuDfs (bvAt n 0 7) (bvAt n 7 7) (bvAt n 14 7))
  else if x = 718 then some (.spuDfm (bvAt n 0 7) (bvAt n 7 7) (bvAt n 14 7))
  else if x = 720 then some (.spuClgtb (bvAt n 0 7) (bvAt n 7 7) (bvAt n 14 7))
  else if x = 728 then some (.spuHlgt (bvAt n 7 7) (bvAt n 14 7))
  else none

/-- SPU opcodes of 11 bits, x'300' to x'3FF'. -/
def spuRR3 (n x : Nat) : Option Instr :=
  if x = 832 then some (.spuAddx (bvAt n 0 7) (bvAt n 7 7) (bvAt n 14 7))
  else if x = 833 then some (.spuSfx (bvAt n 0 7) (bvAt n 7 7) (bvAt n 14 7))
  else if x = 834 then some (.spuCgx (bvAt n 0 7) (bvAt n 7 7) (bvAt n 14 7))
  else if x = 835 then some (.spuBgx (bvAt n 0 7) (bvAt n 7 7) (bvAt n 14 7))
  else if x = 838 then some (.spuMpyhha (bvAt n 0 7) (bvAt n 7 7) (bvAt n 14 7))
  else if x = 846 then some (.spuMpyhhau (bvAt n 0 7) (bvAt n 7 7) (bvAt n 14 7))
  else if x = 860 then some (.spuDfma (bvAt n 0 7) (bvAt n 7 7) (bvAt n 14 7))
  else if x = 861 then some (.spuDfms (bvAt n 0 7) (bvAt n 7 7) (bvAt n 14 7))
  else if x = 862 then some (.spuDfnms (bvAt n 0 7) (bvAt n 7 7) (bvAt n 14 7))
  else if x = 863 then some (.spuDfnma (bvAt n 0 7) (bvAt n 7 7) (bvAt n 14 7))
  else if x = 920 then some (.spuFscrrd (bvAt n 0 7))
  else if x = 952 then some (.spuFesd (bvAt n 0 7) (bvAt n 7 7))
  else if x = 953 then some (.spuFrds (bvAt n 0 7) (bvAt n 7 7))
  else if x = 954 then some (.spuFscrwr (bvAt n 7 7))
  else if x = 959 then some (.spuDftsv (bvAt n 0 7) (bvAt n 7 7) (bvAt n 14 7))
  else if x = 960 then some (.spuCeq (bvAt n 0 7) (bvAt n 7 7) (bvAt n 14 7))
  else if x = 962 then some (.spuFceq (bvAt n 0 7) (bvAt n 7 7) (bvAt n 14 7))
  else if x = 963 then some (.spuDfceq (bvAt n 0 7) (bvAt n 7 7) (bvAt n 14 7))
  else if x = 964 then some (.spuMpy (bvAt n 0 7) (bvAt n 7 7) (bvAt n 14 7))
  else if x = 965 then some (.spuMpyh (bvAt n 0 7) (bvAt n 7 7) (bvAt n 14 7))
  else if x = 966 then some (.spuMpyhh (bvAt n 0 7) (bvAt n 7 7) (bvAt n 14 7))
  else if x = 967 then some (.spuMpys (bvAt n 0 7) (bvAt n 7 7) (bvAt n 14 7))
  else if x = 968 then some (.spuCeqh (bvAt n 0 7) (bvAt n 7 7) (bvAt n 14 7))
  else if x = 970 then some (.spuFcmeq (bvAt n 0 7) (bvAt n 7 7) (bvAt n 14 7))
  else if x = 971 then some (.spuDfcmeq (bvAt n 0 7) (bvAt n 7 7) (bvAt n 14 7))
  else if x = 972 then some (.spuMpyu (bvAt n 0 7) (bvAt n 7 7) (bvAt n 14 7))
  else if x = 974 then some (.spuMpyhhu (bvAt n 0 7) (bvAt n 7 7) (bvAt n 14 7))
  else if x = 976 then some (.spuCeqb (bvAt n 0 7) (bvAt n 7 7) (bvAt n 14 7))
  else if x = 980 then some (.spuFi (bvAt n 0 7) (bvAt n 7 7) (bvAt n 14 7))
  else if x = 984 then some (.spuHeq (bvAt n 7 7) (bvAt n 14 7))
  else none

/-- SPU opcodes of 11 bits (30_encoding R561). -/
def spuRR (n x : Nat) : Option Instr :=
  if x / 256 = 0 then spuRR0 n x
  else if x / 256 = 1 then spuRR1 n x
  else if x / 256 = 2 then spuRR2 n x
  else if x / 256 = 3 then spuRR3 n x
  else none

/-- The SPU instruction of the word with value `n`, if one row of the table matches (30_encoding R563). -/
def spuOf (n : Nat) : Option Instr :=
  ((((((spuRRR n (n / 2^28)).or (spuRI18 n (n / 2^25))).or (spuRI10 n (n / 2^24))).or
    (spuRI16 n (n / 2^23))).or (spuRI8 n (n / 2^22))).or (spuRR n (n / 2^21)))

/-- MFC command opcodes, bits 24:31 of the command word (30_encoding R580, 49_mfc_commands R1632). -/
def mfcOp (n x : Nat) : Option Instr :=
  if x = 32 then some (.mfcPut (bvAt n 24 8) (bvAt n 16 8))
  else if x = 33 then some (.mfcPutb (bvAt n 24 8) (bvAt n 16 8))
  else if x = 34 then some (.mfcPutf (bvAt n 24 8) (bvAt n 16 8))
  else if x = 36 then some (.mfcPutl (bvAt n 24 8) (bvAt n 16 8))
  else if x = 37 then some (.mfcPutlb (bvAt n 24 8) (bvAt n 16 8))
  else if x = 38 then some (.mfcPutlf (bvAt n 24 8) (bvAt n 16 8))
  else if x = 40 then some (.mfcPuts (bvAt n 24 8) (bvAt n 16 8))
  else if x = 41 then some (.mfcPutbs (bvAt n 24 8) (bvAt n 16 8))
  else if x = 42 then some (.mfcPutfs (bvAt n 24 8) (bvAt n 16 8))
  else if x = 48 then some (.mfcPutr (bvAt n 24 8) (bvAt n 16 8))
  else if x = 49 then some (.mfcPutrb (bvAt n 24 8) (bvAt n 16 8))
  else if x = 50 then some (.mfcPutrf (bvAt n 24 8) (bvAt n 16 8))
  else if x = 52 then some (.mfcPutrl (bvAt n 24 8) (bvAt n 16 8))
  else if x = 53 then some (.mfcPutrlb (bvAt n 24 8) (bvAt n 16 8))
  else if x = 54 then some (.mfcPutrlf (bvAt n 24 8) (bvAt n 16 8))
  else if x = 64 then some (.mfcGet (bvAt n 24 8) (bvAt n 16 8))
  else if x = 65 then some (.mfcGetb (bvAt n 24 8) (bvAt n 16 8))
  else if x = 66 then some (.mfcGetf (bvAt n 24 8) (bvAt n 16 8))
  else if x = 68 then some (.mfcGetl (bvAt n 24 8) (bvAt n 16 8))
  else if x = 69 then some (.mfcGetlb (bvAt n 24 8) (bvAt n 16 8))
  else if x = 70 then some (.mfcGetlf (bvAt n 24 8) (bvAt n 16 8))
  else if x = 72 then some (.mfcGets (bvAt n 24 8) (bvAt n 16 8))
  else if x = 73 then some (.mfcGetbs (bvAt n 24 8) (bvAt n 16 8))
  else if x = 74 then some (.mfcGetfs (bvAt n 24 8) (bvAt n 16 8))
  else if x = 128 then some (.mfcSdcrt (bvAt n 24 8) (bvAt n 16 8))
  else if x = 129 then some (.mfcSdcrtst (bvAt n 24 8) (bvAt n 16 8))
  else if x = 137 then some (.mfcSdcrz (bvAt n 24 8) (bvAt n 16 8))
  else if x = 141 then some (.mfcSdcrst (bvAt n 24 8) (bvAt n 16 8))
  else if x = 143 then some (.mfcSdcrf (bvAt n 24 8) (bvAt n 16 8))
  else if x = 160 then some (.mfcSndsig (bvAt n 24 8) (bvAt n 16 8))
  else if x = 161 then some (.mfcSndsigb (bvAt n 24 8) (bvAt n 16 8))
  else if x = 162 then some (.mfcSndsigf (bvAt n 24 8) (bvAt n 16 8))
  else if x = 176 then some (.mfcPutlluc (bvAt n 24 8) (bvAt n 16 8))
  else if x = 180 then some (.mfcPutllc (bvAt n 24 8) (bvAt n 16 8))
  else if x = 184 then some (.mfcPutqlluc (bvAt n 24 8) (bvAt n 16 8))
  else if x = 192 then some (.mfcBarrier (bvAt n 24 8) (bvAt n 16 8))
  else if x = 200 then some (.mfcMfceieio (bvAt n 24 8) (bvAt n 16 8))
  else if x = 204 then some (.mfcMfcsync (bvAt n 24 8) (bvAt n 16 8))
  else if x = 208 then some (.mfcGetllar (bvAt n 24 8) (bvAt n 16 8))
  else none

/-- The MFC command of the command word with value `n`: bits 16:23 are reserved, and a word in which they are not all
zero is an invalid command (30_encoding R580). -/
def mfcOf (n : Nat) : Option Instr :=
  if n / 2^8 % 256 = 0 then mfcOp n (n % 256) else none

/-- The value of an instruction's word: its fixed bits and its fields, reserved bits 0. -/
def encodeNat : Instr → Nat
  | .ppeB li aa lk => 0x48000000 + put li 2 + putB aa 1 + putB lk 0
  | .ppeBc bo bi bd aa lk => 0x40000000 + put bo 21 + put bi 16 + put bd 2 + putB aa 1 + putB lk 0
  | .ppeBclr bo bi bh lk => 0x4C000020 + put bo 21 + put bi 16 + put bh 11 + putB lk 0
  | .ppeBcctr bo bi bh lk => 0x4C000420 + put bo 21 + put bi 16 + put bh 11 + putB lk 0
  | .ppeSc lev => 0x44000002 + put lev 5
  | .ppeRfid => 0x4C000024
  | .ppeHrfid => 0x4C000224
  | .ppeIsync => 0x4C00012C
  | .ppeCrand bt ba bb => 0x4C000202 + put bt 21 + put ba 16 + put bb 11
  | .ppeCror bt ba bb => 0x4C000382 + put bt 21 + put ba 16 + put bb 11
  | .ppeCrxor bt ba bb => 0x4C000182 + put bt 21 + put ba 16 + put bb 11
  | .ppeCrnand bt ba bb => 0x4C0001C2 + put bt 21 + put ba 16 + put bb 11
  | .ppeCrnor bt ba bb => 0x4C000042 + put bt 21 + put ba 16 + put bb 11
  | .ppeCreqv bt ba bb => 0x4C000242 + put bt 21 + put ba 16 + put bb 11
  | .ppeCrandc bt ba bb => 0x4C000102 + put bt 21 + put ba 16 + put bb 11
  | .ppeCrorc bt ba bb => 0x4C000342 + put bt 21 + put ba 16 + put bb 11
  | .ppeMcrf bf bfa => 0x4C000000 + put bf 23 + put bfa 18
  | .ppeTw trapOn ra rb => 0x7C000008 + put trapOn 21 + put ra 16 + put rb 11
  | .ppeTd trapOn ra rb => 0x7C000088 + put trapOn 21 + put ra 16 + put rb 11
  | .ppeTwi trapOn ra si => 0xC000000 + put trapOn 21 + put ra 16 + put si 0
  | .ppeTdi trapOn ra si => 0x8000000 + put trapOn 21 + put ra 16 + put si 0
  | .ppeMtspr rs spr => 0x7C0003A6 + put rs 21 + putSpr spr
  | .ppeMfspr rt spr => 0x7C0002A6 + put rt 21 + putSpr spr
  | .ppeMftb rt tbr => 0x7C0002E6 + put rt 21 + putSpr tbr
  | .ppeMtmsr rs l => 0x7C000124 + put rs 21 + putB l 16
  | .ppeMtmsrd rs l => 0x7C000164 + put rs 21 + putB l 16
  | .ppeMfmsr rt => 0x7C0000A6 + put rt 21
  | .ppeMtcrf rs fxm => 0x7C000120 + put rs 21 + put fxm 12
  | .ppeMtocrf rs fxm => 0x7C100120 + put rs 21 + put fxm 12
  | .ppeMfcr rt => 0x7C000026 + put rt 21
  | .ppeMfocrf rt fxm => 0x7C100026 + put rt 21 + put fxm 12
  | .ppeSync l => 0x7C0004AC + put l 21
  | .ppeEieio => 0x7C0006AC
  | .ppeSlbmte rs rb => 0x7C000324 + put rs 21 + put rb 11
  | .ppeSlbmfee rt rb => 0x7C000726 + put rt 21 + put rb 11
  | .ppeSlbmfev rt rb => 0x7C0006A6 + put rt 21 + put rb 11
  | .ppeSlbie rb => 0x7C000364 + put rb 11
  | .ppeSlbia => 0x7C0003E4
  | .ppeTlbie l rb => 0x7C000264 + putB l 21 + put rb 11
  | .ppeTlbiel l rb => 0x7C000224 + putB l 21 + put rb 11
  | .ppeTlbsync => 0x7C00046C
  | .ppeAttn => 0x200
  | .ppeLbz rt ra d => 0x88000000 + put rt 21 + put ra 16 + put d 0
  | .ppeLbzu rt ra d => 0x8C000000 + put rt 21 + put ra 16 + put d 0
  | .ppeLhz rt ra d => 0xA0000000 + put rt 21 + put ra 16 + put d 0
  | .ppeLhzu rt ra d => 0xA4000000 + put rt 21 + put ra 16 + put d 0
  | .ppeLha rt ra d => 0xA8000000 + put rt 21 + put ra 16 + put d 0
  | .ppeLhau rt ra d => 0xAC000000 + put rt 21 + put ra 16 + put d 0
  | .ppeLwz rt ra d => 0x80000000 + put rt 21 + put ra 16 + put d 0
  | .ppeLwzu rt ra d => 0x84000000 + put rt 21 + put ra 16 + put d 0
  | .ppeLmw rt ra d => 0xB8000000 + put rt 21 + put ra 16 + put d 0
  | .ppeStb rs ra d => 0x98000000 + put rs 21 + put ra 16 + put d 0
  | .ppeStbu rs ra d => 0x9C000000 + put rs 21 + put ra 16 + put d 0
  | .ppeSth rs ra d => 0xB0000000 + put rs 21 + put ra 16 + put d 0
  | .ppeSthu rs ra d => 0xB4000000 + put rs 21 + put ra 16 + put d 0
  | .ppeStw rs ra d => 0x90000000 + put rs 21 + put ra 16 + put d 0
  | .ppeStwu rs ra d => 0x94000000 + put rs 21 + put ra 16 + put d 0
  | .ppeStmw rs ra d => 0xBC000000 + put rs 21 + put ra 16 + put d 0
  | .ppeLfs frt ra d => 0xC0000000 + put frt 21 + put ra 16 + put d 0
  | .ppeLfsu frt ra d => 0xC4000000 + put frt 21 + put ra 16 + put d 0
  | .ppeLfd frt ra d => 0xC8000000 + put frt 21 + put ra 16 + put d 0
  | .ppeLfdu frt ra d => 0xCC000000 + put frt 21 + put ra 16 + put d 0
  | .ppeStfs frs ra d => 0xD0000000 + put frs 21 + put ra 16 + put d 0
  | .ppeStfsu frs ra d => 0xD4000000 + put frs 21 + put ra 16 + put d 0
  | .ppeStfd frs ra d => 0xD8000000 + put frs 21 + put ra 16 + put d 0
  | .ppeStfdu frs ra d => 0xDC000000 + put frs 21 + put ra 16 + put d 0
  | .ppeLd rt ra ds => 0xE8000000 + put rt 21 + put ra 16 + put ds 2
  | .ppeLdu rt ra ds => 0xE8000001 + put rt 21 + put ra 16 + put ds 2
  | .ppeLwa rt ra ds => 0xE8000002 + put rt 21 + put ra 16 + put ds 2
  | .ppeStd rs ra ds => 0xF8000000 + put rs 21 + put ra 16 + put ds 2
  | .ppeStdu rs ra ds => 0xF8000001 + put rs 21 + put ra 16 + put ds 2
  | .ppeLbzx rt ra rb => 0x7C0000AE + put rt 21 + put ra 16 + put rb 11
  | .ppeLbzux rt ra rb => 0x7C0000EE + put rt 21 + put ra 16 + put rb 11
  | .ppeLhzx rt ra rb => 0x7C00022E + put rt 21 + put ra 16 + put rb 11
  | .ppeLhzux rt ra rb => 0x7C00026E + put rt 21 + put ra 16 + put rb 11
  | .ppeLhax rt ra rb => 0x7C0002AE + put rt 21 + put ra 16 + put rb 11
  | .ppeLhaux rt ra rb => 0x7C0002EE + put rt 21 + put ra 16 + put rb 11
  | .ppeLwzx rt ra rb => 0x7C00002E + put rt 21 + put ra 16 + put rb 11
  | .ppeLwzux rt ra rb => 0x7C00006E + put rt 21 + put ra 16 + put rb 11
  | .ppeLwax rt ra rb => 0x7C0002AA + put rt 21 + put ra 16 + put rb 11
  | .ppeLwaux rt ra rb => 0x7C0002EA + put rt 21 + put ra 16 + put rb 11
  | .ppeLdx rt ra rb => 0x7C00002A + put rt 21 + put ra 16 + put rb 11
  | .ppeLdux rt ra rb => 0x7C00006A + put rt 21 + put ra 16 + put rb 11
  | .ppeLhbrx rt ra rb => 0x7C00062C + put rt 21 + put ra 16 + put rb 11
  | .ppeLwbrx rt ra rb => 0x7C00042C + put rt 21 + put ra 16 + put rb 11
  | .ppeLswx rt ra rb => 0x7C00042A + put rt 21 + put ra 16 + put rb 11
  | .ppeLwarx rt ra rb => 0x7C000028 + put rt 21 + put ra 16 + put rb 11
  | .ppeLdarx rt ra rb => 0x7C0000A8 + put rt 21 + put ra 16 + put rb 11
  | .ppeLdbrx rt ra rb => 0x7C000428 + put rt 21 + put ra 16 + put rb 11
  | .ppeStbx rs ra rb => 0x7C0001AE + put rs 21 + put ra 16 + put rb 11
  | .ppeStbux rs ra rb => 0x7C0001EE + put rs 21 + put ra 16 + put rb 11
  | .ppeSthx rs ra rb => 0x7C00032E + put rs 21 + put ra 16 + put rb 11
  | .ppeSthux rs ra rb => 0x7C00036E + put rs 21 + put ra 16 + put rb 11
  | .ppeStwx rs ra rb => 0x7C00012E + put rs 21 + put ra 16 + put rb 11
  | .ppeStwux rs ra rb => 0x7C00016E + put rs 21 + put ra 16 + put rb 11
  | .ppeStdx rs ra rb => 0x7C00012A + put rs 21 + put ra 16 + put rb 11
  | .ppeStdux rs ra rb => 0x7C00016A + put rs 21 + put ra 16 + put rb 11
  | .ppeSthbrx rs ra rb => 0x7C00072C + put rs 21 + put ra 16 + put rb 11
  | .ppeStwbrx rs ra rb => 0x7C00052C + put rs 21 + put ra 16 + put rb 11
  | .ppeStswx rs ra rb => 0x7C00052A + put rs 21 + put ra 16 + put rb 11
  | .ppeStdbrx rs ra rb => 0x7C000528 + put rs 21 + put ra 16 + put rb 11
  | .ppeLswi rt ra nb => 0x7C0004AA + put rt 21 + put ra 16 + put nb 11
  | .ppeStswi rs ra nb => 0x7C0005AA + put rs 21 + put ra 16 + put nb 11
  | .ppeStwcxDot rs ra rb => 0x7C00012D + put rs 21 + put ra 16 + put rb 11
  | .ppeStdcxDot rs ra rb => 0x7C0001AD + put rs 21 + put ra 16 + put rb 11
  | .ppeDcbt th ra rb => 0x7C00022C + put th 21 + put ra 16 + put rb 11
  | .ppeDcbtst ra rb => 0x7C0001EC + put ra 16 + put rb 11
  | .ppeDcbz ra rb => 0x7C0007EC + put ra 16 + put rb 11
  | .ppeDcbst ra rb => 0x7C00006C + put ra 16 + put rb 11
  | .ppeDcbf ra rb => 0x7C0000AC + put ra 16 + put rb 11
  | .ppeIcbi ra rb => 0x7C0007AC + put ra 16 + put rb 11
  | .ppeLfsx frt ra rb => 0x7C00042E + put frt 21 + put ra 16 + put rb 11
  | .ppeLfsux frt ra rb => 0x7C00046E + put frt 21 + put ra 16 + put rb 11
  | .ppeLfdx frt ra rb => 0x7C0004AE + put frt 21 + put ra 16 + put rb 11
  | .ppeLfdux frt ra rb => 0x7C0004EE + put frt 21 + put ra 16 + put rb 11
  | .ppeStfsx frs ra rb => 0x7C00052E + put frs 21 + put ra 16 + put rb 11
  | .ppeStfsux frs ra rb => 0x7C00056E + put frs 21 + put ra 16 + put rb 11
  | .ppeStfdx frs ra rb => 0x7C0005AE + put frs 21 + put ra 16 + put rb 11
  | .ppeStfdux frs ra rb => 0x7C0005EE + put frs 21 + put ra 16 + put rb 11
  | .ppeStfiwx frs ra rb => 0x7C0007AE + put frs 21 + put ra 16 + put rb 11
  | .ppeAddi rt ra si => 0x38000000 + put rt 21 + put ra 16 + put si 0
  | .ppeAddis rt ra si => 0x3C000000 + put rt 21 + put ra 16 + put si 0
  | .ppeAddic rt ra si => 0x30000000 + put rt 21 + put ra 16 + put si 0
  | .ppeAddicDot rt ra si => 0x34000000 + put rt 21 + put ra 16 + put si 0
  | .ppeSubfic rt ra si => 0x20000000 + put rt 21 + put ra 16 + put si 0
  | .ppeMulli rt ra si => 0x1C000000 + put rt 21 + put ra 16 + put si 0
  | .ppeOri rs ra ui => 0x60000000 + put rs 21 + put ra 16 + put ui 0
  | .ppeOris rs ra ui => 0x64000000 + put rs 21 + put ra 16 + put ui 0
  | .ppeXori rs ra ui => 0x68000000 + put rs 21 + put ra 16 + put ui 0
  | .ppeXoris rs ra ui => 0x6C000000 + put rs 21 + put ra 16 + put ui 0
  | .ppeAndiDot rs ra ui => 0x70000000 + put rs 21 + put ra 16 + put ui 0
  | .ppeAndisDot rs ra ui => 0x74000000 + put rs 21 + put ra 16 + put ui 0
  | .ppeCmpi bf l ra si => 0x2C000000 + put bf 23 + putB l 21 + put ra 16 + put si 0
  | .ppeCmpli bf l ra ui => 0x28000000 + put bf 23 + putB l 21 + put ra 16 + put ui 0
  | .ppeAdd rt ra rb oe rec => 0x7C000214 + put rt 21 + put ra 16 + put rb 11 + putB oe 10 + putB rec 0
  | .ppeAddc rt ra rb oe rec => 0x7C000014 + put rt 21 + put ra 16 + put rb 11 + putB oe 10 + putB rec 0
  | .ppeAdde rt ra rb oe rec => 0x7C000114 + put rt 21 + put ra 16 + put rb 11 + putB oe 10 + putB rec 0
  | .ppeSubf rt ra rb oe rec => 0x7C000050 + put rt 21 + put ra 16 + put rb 11 + putB oe 10 + putB rec 0
  | .ppeSubfc rt ra rb oe rec => 0x7C000010 + put rt 21 + put ra 16 + put rb 11 + putB oe 10 + putB rec 0
  | .ppeSubfe rt ra rb oe rec => 0x7C000110 + put rt 21 + put ra 16 + put rb 11 + putB oe 10 + putB rec 0
  | .ppeMullw rt ra rb oe rec => 0x7C0001D6 + put rt 21 + put ra 16 + put rb 11 + putB oe 10 + putB rec 0
  | .ppeMulld rt ra rb oe rec => 0x7C0001D2 + put rt 21 + put ra 16 + put rb 11 + putB oe 10 + putB rec 0
  | .ppeDivw rt ra rb oe rec => 0x7C0003D6 + put rt 21 + put ra 16 + put rb 11 + putB oe 10 + putB rec 0
  | .ppeDivwu rt ra rb oe rec => 0x7C000396 + put rt 21 + put ra 16 + put rb 11 + putB oe 10 + putB rec 0
  | .ppeDivd rt ra rb oe rec => 0x7C0003D2 + put rt 21 + put ra 16 + put rb 11 + putB oe 10 + putB rec 0
  | .ppeDivdu rt ra rb oe rec => 0x7C000392 + put rt 21 + put ra 16 + put rb 11 + putB oe 10 + putB rec 0
  | .ppeAddme rt ra oe rec => 0x7C0001D4 + put rt 21 + put ra 16 + putB oe 10 + putB rec 0
  | .ppeAddze rt ra oe rec => 0x7C000194 + put rt 21 + put ra 16 + putB oe 10 + putB rec 0
  | .ppeSubfme rt ra oe rec => 0x7C0001D0 + put rt 21 + put ra 16 + putB oe 10 + putB rec 0
  | .ppeSubfze rt ra oe rec => 0x7C000190 + put rt 21 + put ra 16 + putB oe 10 + putB rec 0
  | .ppeNeg rt ra oe rec => 0x7C0000D0 + put rt 21 + put ra 16 + putB oe 10 + putB rec 0
  | .ppeMulhw rt ra rb rec => 0x7C000096 + put rt 21 + put ra 16 + put rb 11 + putB rec 0
  | .ppeMulhwu rt ra rb rec => 0x7C000016 + put rt 21 + put ra 16 + put rb 11 + putB rec 0
  | .ppeMulhd rt ra rb rec => 0x7C000092 + put rt 21 + put ra 16 + put rb 11 + putB rec 0
  | .ppeMulhdu rt ra rb rec => 0x7C000012 + put rt 21 + put ra 16 + put rb 11 + putB rec 0
  | .ppeCmp bf l ra rb => 0x7C000000 + put bf 23 + putB l 21 + put ra 16 + put rb 11
  | .ppeCmpl bf l ra rb => 0x7C000040 + put bf 23 + putB l 21 + put ra 16 + put rb 11
  | .ppeAnd rs ra rb rec => 0x7C000038 + put rs 21 + put ra 16 + put rb 11 + putB rec 0
  | .ppeAndc rs ra rb rec => 0x7C000078 + put rs 21 + put ra 16 + put rb 11 + putB rec 0
  | .ppeOr rs ra rb rec => 0x7C000378 + put rs 21 + put ra 16 + put rb 11 + putB rec 0
  | .ppeOrc rs ra rb rec => 0x7C000338 + put rs 21 + put ra 16 + put rb 11 + putB rec 0
  | .ppeXor rs ra rb rec => 0x7C000278 + put rs 21 + put ra 16 + put rb 11 + putB rec 0
  | .ppeNand rs ra rb rec => 0x7C0003B8 + put rs 21 + put ra 16 + put rb 11 + putB rec 0
  | .ppeNor rs ra rb rec => 0x7C0000F8 + put rs 21 + put ra 16 + put rb 11 + putB rec 0
  | .ppeEqv rs ra rb rec => 0x7C000238 + put rs 21 + put ra 16 + put rb 11 + putB rec 0
  | .ppeSlw rs ra rb rec => 0x7C000030 + put rs 21 + put ra 16 + put rb 11 + putB rec 0
  | .ppeSrw rs ra rb rec => 0x7C000430 + put rs 21 + put ra 16 + put rb 11 + putB rec 0
  | .ppeSraw rs ra rb rec => 0x7C000630 + put rs 21 + put ra 16 + put rb 11 + putB rec 0
  | .ppeSld rs ra rb rec => 0x7C000036 + put rs 21 + put ra 16 + put rb 11 + putB rec 0
  | .ppeSrd rs ra rb rec => 0x7C000436 + put rs 21 + put ra 16 + put rb 11 + putB rec 0
  | .ppeSrad rs ra rb rec => 0x7C000634 + put rs 21 + put ra 16 + put rb 11 + putB rec 0
  | .ppeExtsb rs ra rec => 0x7C000774 + put rs 21 + put ra 16 + putB rec 0
  | .ppeExtsh rs ra rec => 0x7C000734 + put rs 21 + put ra 16 + putB rec 0
  | .ppeExtsw rs ra rec => 0x7C0007B4 + put rs 21 + put ra 16 + putB rec 0
  | .ppeCntlzw rs ra rec => 0x7C000034 + put rs 21 + put ra 16 + putB rec 0
  | .ppeCntlzd rs ra rec => 0x7C000074 + put rs 21 + put ra 16 + putB rec 0
  | .ppeSrawi rs ra sh rec => 0x7C000670 + put rs 21 + put ra 16 + put sh 11 + putB rec 0
  | .ppeSradi rs ra sh rec => 0x7C000674 + put rs 21 + put ra 16 + putSh sh + putB rec 0
  | .ppeRlwimi rs ra sh mb me rec => 0x50000000 + put rs 21 + put ra 16 + put sh 11 + put mb 6 + put me 1 + putB rec 0
  | .ppeRlwinm rs ra sh mb me rec => 0x54000000 + put rs 21 + put ra 16 + put sh 11 + put mb 6 + put me 1 + putB rec 0
  | .ppeRlwnm rs ra rb mb me rec => 0x5C000000 + put rs 21 + put ra 16 + put rb 11 + put mb 6 + put me 1 + putB rec 0
  | .ppeRldicl rs ra sh mb rec => 0x78000000 + put rs 21 + put ra 16 + putSh sh + putMb mb + putB rec 0
  | .ppeRldicr rs ra sh me rec => 0x78000004 + put rs 21 + put ra 16 + putSh sh + putMb me + putB rec 0
  | .ppeRldic rs ra sh mb rec => 0x78000008 + put rs 21 + put ra 16 + putSh sh + putMb mb + putB rec 0
  | .ppeRldimi rs ra sh mb rec => 0x7800000C + put rs 21 + put ra 16 + putSh sh + putMb mb + putB rec 0
  | .ppeRldcl rs ra rb mb rec => 0x78000010 + put rs 21 + put ra 16 + put rb 11 + putMb mb + putB rec 0
  | .ppeRldcr rs ra rb me rec => 0x78000012 + put rs 21 + put ra 16 + put rb 11 + putMb me + putB rec 0
  | .ppeFadd frt fra frb rec => 0xFC00002A + put frt 21 + put fra 16 + put frb 11 + putB rec 0
  | .ppeFadds frt fra frb rec => 0xEC00002A + put frt 21 + put fra 16 + put frb 11 + putB rec 0
  | .ppeFsub frt fra frb rec => 0xFC000028 + put frt 21 + put fra 16 + put frb 11 + putB rec 0
  | .ppeFsubs frt fra frb rec => 0xEC000028 + put frt 21 + put fra 16 + put frb 11 + putB rec 0
  | .ppeFdiv frt fra frb rec => 0xFC000024 + put frt 21 + put fra 16 + put frb 11 + putB rec 0
  | .ppeFdivs frt fra frb rec => 0xEC000024 + put frt 21 + put fra 16 + put frb 11 + putB rec 0
  | .ppeFmul frt fra frc rec => 0xFC000032 + put frt 21 + put fra 16 + put frc 6 + putB rec 0
  | .ppeFmuls frt fra frc rec => 0xEC000032 + put frt 21 + put fra 16 + put frc 6 + putB rec 0
  | .ppeFsqrt frt frb rec => 0xFC00002C + put frt 21 + put frb 11 + putB rec 0
  | .ppeFsqrts frt frb rec => 0xEC00002C + put frt 21 + put frb 11 + putB rec 0
  | .ppeFres frt frb rec => 0xEC000030 + put frt 21 + put frb 11 + putB rec 0
  | .ppeFrsqrte frt frb rec => 0xFC000034 + put frt 21 + put frb 11 + putB rec 0
  | .ppeFsel frt fra frb frc rec => 0xFC00002E + put frt 21 + put fra 16 + put frb 11 + put frc 6 + putB rec 0
  | .ppeFmadd frt fra frb frc rec => 0xFC00003A + put frt 21 + put fra 16 + put frb 11 + put frc 6 + putB rec 0
  | .ppeFmadds frt fra frb frc rec => 0xEC00003A + put frt 21 + put fra 16 + put frb 11 + put frc 6 + putB rec 0
  | .ppeFmsub frt fra frb frc rec => 0xFC000038 + put frt 21 + put fra 16 + put frb 11 + put frc 6 + putB rec 0
  | .ppeFmsubs frt fra frb frc rec => 0xEC000038 + put frt 21 + put fra 16 + put frb 11 + put frc 6 + putB rec 0
  | .ppeFnmadd frt fra frb frc rec => 0xFC00003E + put frt 21 + put fra 16 + put frb 11 + put frc 6 + putB rec 0
  | .ppeFnmadds frt fra frb frc rec => 0xEC00003E + put frt 21 + put fra 16 + put frb 11 + put frc 6 + putB rec 0
  | .ppeFnmsub frt fra frb frc rec => 0xFC00003C + put frt 21 + put fra 16 + put frb 11 + put frc 6 + putB rec 0
  | .ppeFnmsubs frt fra frb frc rec => 0xEC00003C + put frt 21 + put fra 16 + put frb 11 + put frc 6 + putB rec 0
  | .ppeFmr frt frb rec => 0xFC000090 + put frt 21 + put frb 11 + putB rec 0
  | .ppeFneg frt frb rec => 0xFC000050 + put frt 21 + put frb 11 + putB rec 0
  | .ppeFabs frt frb rec => 0xFC000210 + put frt 21 + put frb 11 + putB rec 0
  | .ppeFnabs frt frb rec => 0xFC000110 + put frt 21 + put frb 11 + putB rec 0
  | .ppeFrsp frt frb rec => 0xFC000018 + put frt 21 + put frb 11 + putB rec 0
  | .ppeFctid frt frb rec => 0xFC00065C + put frt 21 + put frb 11 + putB rec 0
  | .ppeFctidz frt frb rec => 0xFC00065E + put frt 21 + put frb 11 + putB rec 0
  | .ppeFctiw frt frb rec => 0xFC00001C + put frt 21 + put frb 11 + putB rec 0
  | .ppeFctiwz frt frb rec => 0xFC00001E + put frt 21 + put frb 11 + putB rec 0
  | .ppeFcfid frt frb rec => 0xFC00069C + put frt 21 + put frb 11 + putB rec 0
  | .ppeFcmpu bf fra frb => 0xFC000000 + put bf 23 + put fra 16 + put frb 11
  | .ppeFcmpo bf fra frb => 0xFC000040 + put bf 23 + put fra 16 + put frb 11
  | .ppeMffs frt rec => 0xFC00048E + put frt 21 + putB rec 0
  | .ppeMcrfs bf bfa => 0xFC000080 + put bf 23 + put bfa 18
  | .ppeMtfsfi bf u rec => 0xFC00010C + put bf 23 + put u 12 + putB rec 0
  | .ppeMtfsf flm frb rec => 0xFC00058E + put flm 17 + put frb 11 + putB rec 0
  | .ppeMtfsb0 bt rec => 0xFC00008C + put bt 21 + putB rec 0
  | .ppeMtfsb1 bt rec => 0xFC00004C + put bt 21 + putB rec 0
  | .ppeLvsl vrt ra rb => 0x7C00000C + put vrt 21 + put ra 16 + put rb 11
  | .ppeLvsr vrt ra rb => 0x7C00004C + put vrt 21 + put ra 16 + put rb 11
  | .ppeLvebx vrt ra rb => 0x7C00000E + put vrt 21 + put ra 16 + put rb 11
  | .ppeLvehx vrt ra rb => 0x7C00004E + put vrt 21 + put ra 16 + put rb 11
  | .ppeLvewx vrt ra rb => 0x7C00008E + put vrt 21 + put ra 16 + put rb 11
  | .ppeLvx vrt ra rb => 0x7C0000CE + put vrt 21 + put ra 16 + put rb 11
  | .ppeLvxl vrt ra rb => 0x7C0002CE + put vrt 21 + put ra 16 + put rb 11
  | .ppeLvlx vrt ra rb => 0x7C00040E + put vrt 21 + put ra 16 + put rb 11
  | .ppeLvrx vrt ra rb => 0x7C00044E + put vrt 21 + put ra 16 + put rb 11
  | .ppeLvlxl vrt ra rb => 0x7C00060E + put vrt 21 + put ra 16 + put rb 11
  | .ppeLvrxl vrt ra rb => 0x7C00064E + put vrt 21 + put ra 16 + put rb 11
  | .ppeStvebx vrs ra rb => 0x7C00010E + put vrs 21 + put ra 16 + put rb 11
  | .ppeStvehx vrs ra rb => 0x7C00014E + put vrs 21 + put ra 16 + put rb 11
  | .ppeStvewx vrs ra rb => 0x7C00018E + put vrs 21 + put ra 16 + put rb 11
  | .ppeStvx vrs ra rb => 0x7C0001CE + put vrs 21 + put ra 16 + put rb 11
  | .ppeStvxl vrs ra rb => 0x7C0003CE + put vrs 21 + put ra 16 + put rb 11
  | .ppeStvlx vrs ra rb => 0x7C00050E + put vrs 21 + put ra 16 + put rb 11
  | .ppeStvrx vrs ra rb => 0x7C00054E + put vrs 21 + put ra 16 + put rb 11
  | .ppeStvlxl vrs ra rb => 0x7C00070E + put vrs 21 + put ra 16 + put rb 11
  | .ppeStvrxl vrs ra rb => 0x7C00074E + put vrs 21 + put ra 16 + put rb 11
  | .ppeDst strm ra rb => 0x7C0002AC + put strm 21 + put ra 16 + put rb 11
  | .ppeDstt strm ra rb => 0x7E0002AC + put strm 21 + put ra 16 + put rb 11
  | .ppeDstst strm ra rb => 0x7C0002EC + put strm 21 + put ra 16 + put rb 11
  | .ppeDststt strm ra rb => 0x7E0002EC + put strm 21 + put ra 16 + put rb 11
  | .ppeDss strm => 0x7C00066C + put strm 21
  | .ppeDssall => 0x7E00066C
  | .ppeVperm vrt vra vrb vrc => 0x1000002B + put vrt 21 + put vra 16 + put vrb 11 + put vrc 6
  | .ppeVsel vrt vra vrb vrc => 0x1000002A + put vrt 21 + put vra 16 + put vrb 11 + put vrc 6
  | .ppeVsldoi vrt vra vrb shb => 0x1000002C + put vrt 21 + put vra 16 + put vrb 11 + put shb 6
  | .ppeVslo vrt vra vrb => 0x1000040C + put vrt 21 + put vra 16 + put vrb 11
  | .ppeVsro vrt vra vrb => 0x1000044C + put vrt 21 + put vra 16 + put vrb 11
  | .ppeVmrghb vrt vra vrb => 0x1000000C + put vrt 21 + put vra 16 + put vrb 11
  | .ppeVmrghh vrt vra vrb => 0x1000004C + put vrt 21 + put vra 16 + put vrb 11
  | .ppeVmrghw vrt vra vrb => 0x1000008C + put vrt 21 + put vra 16 + put vrb 11
  | .ppeVmrglb vrt vra vrb => 0x1000010C + put vrt 21 + put vra 16 + put vrb 11
  | .ppeVmrglh vrt vra vrb => 0x1000014C + put vrt 21 + put vra 16 + put vrb 11
  | .ppeVmrglw vrt vra vrb => 0x1000018C + put vrt 21 + put vra 16 + put vrb 11
  | .ppeVspltb vrt vrb uim => 0x1000020C + put vrt 21 + put vrb 11 + put uim 16
  | .ppeVsplth vrt vrb uim => 0x1000024C + put vrt 21 + put vrb 11 + put uim 16
  | .ppeVspltw vrt vrb uim => 0x1000028C + put vrt 21 + put vrb 11 + put uim 16
  | .ppeVspltisb vrt simm => 0x1000030C + put vrt 21 + put simm 16
  | .ppeVspltish vrt simm => 0x1000034C + put vrt 21 + put simm 16
  | .ppeVspltisw vrt simm => 0x1000038C + put vrt 21 + put simm 16
  | .ppeVpkuhum vrt vra vrb => 0x1000000E + put vrt 21 + put vra 16 + put vrb 11
  | .ppeVpkuwum vrt vra vrb => 0x1000004E + put vrt 21 + put vra 16 + put vrb 11
  | .ppeVpkuhus vrt vra vrb => 0x1000008E + put vrt 21 + put vra 16 + put vrb 11
  | .ppeVpkuwus vrt vra vrb => 0x100000CE + put vrt 21 + put vra 16 + put vrb 11
  | .ppeVpkshus vrt vra vrb => 0x1000010E + put vrt 21 + put vra 16 + put vrb 11
  | .ppeVpkswus vrt vra vrb => 0x1000014E + put vrt 21 + put vra 16 + put vrb 11
  | .ppeVpkshss vrt vra vrb => 0x1000018E + put vrt 21 + put vra 16 + put vrb 11
  | .ppeVpkswss vrt vra vrb => 0x100001CE + put vrt 21 + put vra 16 + put vrb 11
  | .ppeVpkpx vrt vra vrb => 0x1000030E + put vrt 21 + put vra 16 + put vrb 11
  | .ppeVupkhsb vrt vrb => 0x1000020E + put vrt 21 + put vrb 11
  | .ppeVupkhsh vrt vrb => 0x1000024E + put vrt 21 + put vrb 11
  | .ppeVupklsb vrt vrb => 0x1000028E + put vrt 21 + put vrb 11
  | .ppeVupklsh vrt vrb => 0x100002CE + put vrt 21 + put vrb 11
  | .ppeVupkhpx vrt vrb => 0x1000034E + put vrt 21 + put vrb 11
  | .ppeVupklpx vrt vrb => 0x100003CE + put vrt 21 + put vrb 11
  | .ppeVand vrt vra vrb => 0x10000404 + put vrt 21 + put vra 16 + put vrb 11
  | .ppeVandc vrt vra vrb => 0x10000444 + put vrt 21 + put vra 16 + put vrb 11
  | .ppeVor vrt vra vrb => 0x10000484 + put vrt 21 + put vra 16 + put vrb 11
  | .ppeVxor vrt vra vrb => 0x100004C4 + put vrt 21 + put vra 16 + put vrb 11
  | .ppeVnor vrt vra vrb => 0x10000504 + put vrt 21 + put vra 16 + put vrb 11
  | .ppeVrlb vrt vra vrb => 0x10000004 + put vrt 21 + put vra 16 + put vrb 11
  | .ppeVrlh vrt vra vrb => 0x10000044 + put vrt 21 + put vra 16 + put vrb 11
  | .ppeVrlw vrt vra vrb => 0x10000084 + put vrt 21 + put vra 16 + put vrb 11
  | .ppeVslb vrt vra vrb => 0x10000104 + put vrt 21 + put vra 16 + put vrb 11
  | .ppeVslh vrt vra vrb => 0x10000144 + put vrt 21 + put vra 16 + put vrb 11
  | .ppeVslw vrt vra vrb => 0x10000184 + put vrt 21 + put vra 16 + put vrb 11
  | .ppeVsrb vrt vra vrb => 0x10000204 + put vrt 21 + put vra 16 + put vrb 11
  | .ppeVsrh vrt vra vrb => 0x10000244 + put vrt 21 + put vra 16 + put vrb 11
  | .ppeVsrw vrt vra vrb => 0x10000284 + put vrt 21 + put vra 16 + put vrb 11
  | .ppeVsrab vrt vra vrb => 0x10000304 + put vrt 21 + put vra 16 + put vrb 11
  | .ppeVsrah vrt vra vrb => 0x10000344 + put vrt 21 + put vra 16 + put vrb 11
  | .ppeVsraw vrt vra vrb => 0x10000384 + put vrt 21 + put vra 16 + put vrb 11
  | .ppeVsl vrt vra vrb => 0x100001C4 + put vrt 21 + put vra 16 + put vrb 11
  | .ppeVsr vrt vra vrb => 0x100002C4 + put vrt 21 + put vra 16 + put vrb 11
  | .ppeVaddubm vrt vra vrb => 0x10000000 + put vrt 21 + put vra 16 + put vrb 11
  | .ppeVadduhm vrt vra vrb => 0x10000040 + put vrt 21 + put vra 16 + put vrb 11
  | .ppeVadduwm vrt vra vrb => 0x10000080 + put vrt 21 + put vra 16 + put vrb 11
  | .ppeVaddcuw vrt vra vrb => 0x10000180 + put vrt 21 + put vra 16 + put vrb 11
  | .ppeVaddubs vrt vra vrb => 0x10000200 + put vrt 21 + put vra 16 + put vrb 11
  | .ppeVadduhs vrt vra vrb => 0x10000240 + put vrt 21 + put vra 16 + put vrb 11
  | .ppeVadduws vrt vra vrb => 0x10000280 + put vrt 21 + put vra 16 + put vrb 11
  | .ppeVaddsbs vrt vra vrb => 0x10000300 + put vrt 21 + put vra 16 + put vrb 11
  | .ppeVaddshs vrt vra vrb => 0x10000340 + put vrt 21 + put vra 16 + put vrb 11
  | .ppeVaddsws vrt vra vrb => 0x10000380 + put vrt 21 + put vra 16 + put vrb 11
  | .ppeVsububm vrt vra vrb => 0x10000400 + put vrt 21 + put vra 16 + put vrb 11
  | .ppeVsubuhm vrt vra vrb => 0x10000440 + put vrt 21 + put vra 16 + put vrb 11
  | .ppeVsubuwm vrt vra vrb => 0x10000480 + put vrt 21 + put vra 16 + put vrb 11
  | .ppeVsubcuw vrt vra vrb => 0x10000580 + put vrt 21 + put vra 16 + put vrb 11
  | .ppeVsububs vrt vra vrb => 0x10000600 + put vrt 21 + put vra 16 + put vrb 11
  | .ppeVsubuhs vrt vra vrb => 0x10000640 + put vrt 21 + put vra 16 + put vrb 11
  | .ppeVsubuws vrt vra vrb => 0x10000680 + put vrt 21 + put vra 16 + put vrb 11
  | .ppeVsubsbs vrt vra vrb => 0x10000700 + put vrt 21 + put vra 16 + put vrb 11
  | .ppeVsubshs vrt vra vrb => 0x10000740 + put vrt 21 + put vra 16 + put vrb 11
  | .ppeVsubsws vrt vra vrb => 0x10000780 + put vrt 21 + put vra 16 + put vrb 11
  | .ppeVavgub vrt vra vrb => 0x10000402 + put vrt 21 + put vra 16 + put vrb 11
  | .ppeVavguh vrt vra vrb => 0x10000442 + put vrt 21 + put vra 16 + put vrb 11
  | .ppeVavguw vrt vra vrb => 0x10000482 + put vrt 21 + put vra 16 + put vrb 11
  | .ppeVavgsb vrt vra vrb => 0x10000502 + put vrt 21 + put vra 16 + put vrb 11
  | .ppeVavgsh vrt vra vrb => 0x10000542 + put vrt 21 + put vra 16 + put vrb 11
  | .ppeVavgsw vrt vra vrb => 0x10000582 + put vrt 21 + put vra 16 + put vrb 11
  | .ppeVmaxub vrt vra vrb => 0x10000002 + put vrt 21 + put vra 16 + put vrb 11
  | .ppeVmaxuh vrt vra vrb => 0x10000042 + put vrt 21 + put vra 16 + put vrb 11
  | .ppeVmaxuw vrt vra vrb => 0x10000082 + put vrt 21 + put vra 16 + put vrb 11
  | .ppeVmaxsb vrt vra vrb => 0x10000102 + put vrt 21 + put vra 16 + put vrb 11
  | .ppeVmaxsh vrt vra vrb => 0x10000142 + put vrt 21 + put vra 16 + put vrb 11
  | .ppeVmaxsw vrt vra vrb => 0x10000182 + put vrt 21 + put vra 16 + put vrb 11
  | .ppeVminub vrt vra vrb => 0x10000202 + put vrt 21 + put vra 16 + put vrb 11
  | .ppeVminuh vrt vra vrb => 0x10000242 + put vrt 21 + put vra 16 + put vrb 11
  | .ppeVminuw vrt vra vrb => 0x10000282 + put vrt 21 + put vra 16 + put vrb 11
  | .ppeVminsb vrt vra vrb => 0x10000302 + put vrt 21 + put vra 16 + put vrb 11
  | .ppeVminsh vrt vra vrb => 0x10000342 + put vrt 21 + put vra 16 + put vrb 11
  | .ppeVminsw vrt vra vrb => 0x10000382 + put vrt 21 + put vra 16 + put vrb 11
  | .ppeVcmpequb vrt vra vrb rec => 0x10000006 + put vrt 21 + put vra 16 + put vrb 11 + putB rec 10
  | .ppeVcmpequh vrt vra vrb rec => 0x10000046 + put vrt 21 + put vra 16 + put vrb 11 + putB rec 10
  | .ppeVcmpequw vrt vra vrb rec => 0x10000086 + put vrt 21 + put vra 16 + put vrb 11 + putB rec 10
  | .ppeVcmpeqfp vrt vra vrb rec => 0x100000C6 + put vrt 21 + put vra 16 + put vrb 11 + putB rec 10
  | .ppeVcmpgefp vrt vra vrb rec => 0x100001C6 + put vrt 21 + put vra 16 + put vrb 11 + putB rec 10
  | .ppeVcmpgtub vrt vra vrb rec => 0x10000206 + put vrt 21 + put vra 16 + put vrb 11 + putB rec 10
  | .ppeVcmpgtuh vrt vra vrb rec => 0x10000246 + put vrt 21 + put vra 16 + put vrb 11 + putB rec 10
  | .ppeVcmpgtuw vrt vra vrb rec => 0x10000286 + put vrt 21 + put vra 16 + put vrb 11 + putB rec 10
  | .ppeVcmpgtfp vrt vra vrb rec => 0x100002C6 + put vrt 21 + put vra 16 + put vrb 11 + putB rec 10
  | .ppeVcmpgtsb vrt vra vrb rec => 0x10000306 + put vrt 21 + put vra 16 + put vrb 11 + putB rec 10
  | .ppeVcmpgtsh vrt vra vrb rec => 0x10000346 + put vrt 21 + put vra 16 + put vrb 11 + putB rec 10
  | .ppeVcmpgtsw vrt vra vrb rec => 0x10000386 + put vrt 21 + put vra 16 + put vrb 11 + putB rec 10
  | .ppeVcmpbfp vrt vra vrb rec => 0x100003C6 + put vrt 21 + put vra 16 + put vrb 11 + putB rec 10
  | .ppeVmuleub vrt vra vrb => 0x10000208 + put vrt 21 + put vra 16 + put vrb 11
  | .ppeVmuleuh vrt vra vrb => 0x10000248 + put vrt 21 + put vra 16 + put vrb 11
  | .ppeVmulesb vrt vra vrb => 0x10000308 + put vrt 21 + put vra 16 + put vrb 11
  | .ppeVmulesh vrt vra vrb => 0x10000348 + put vrt 21 + put vra 16 + put vrb 11
  | .ppeVmuloub vrt vra vrb => 0x10000008 + put vrt 21 + put vra 16 + put vrb 11
  | .ppeVmulouh vrt vra vrb => 0x10000048 + put vrt 21 + put vra 16 + put vrb 11
  | .ppeVmulosb vrt vra vrb => 0x10000108 + put vrt 21 + put vra 16 + put vrb 11
  | .ppeVmulosh vrt vra vrb => 0x10000148 + put vrt 21 + put vra 16 + put vrb 11
  | .ppeVmhaddshs vrt vra vrb vrc => 0x10000020 + put vrt 21 + put vra 16 + put vrb 11 + put vrc 6
  | .ppeVmhraddshs vrt vra vrb vrc => 0x10000021 + put vrt 21 + put vra 16 + put vrb 11 + put vrc 6
  | .ppeVmladduhm vrt vra vrb vrc => 0x10000022 + put vrt 21 + put vra 16 + put vrb 11 + put vrc 6
  | .ppeVmsumubm vrt vra vrb vrc => 0x10000024 + put vrt 21 + put vra 16 + put vrb 11 + put vrc 6
  | .ppeVmsummbm vrt vra vrb vrc => 0x10000025 + put vrt 21 + put vra 16 + put vrb 11 + put vrc 6
  | .ppeVmsumuhm vrt vra vrb vrc => 0x10000026 + put vrt 21 + put vra 16 + put vrb 11 + put vrc 6
  | .ppeVmsumuhs vrt vra vrb vrc => 0x10000027 + put vrt 21 + put vra 16 + put vrb 11 + put vrc 6
  | .ppeVmsumshm vrt vra vrb vrc => 0x10000028 + put vrt 21 + put vra 16 + put vrb 11 + put vrc 6
  | .ppeVmsumshs vrt vra vrb vrc => 0x10000029 + put vrt 21 + put vra 16 + put vrb 11 + put vrc 6
  | .ppeVsum4ubs vrt vra vrb => 0x10000608 + put vrt 21 + put vra 16 + put vrb 11
  | .ppeVsum4sbs vrt vra vrb => 0x10000708 + put vrt 21 + put vra 16 + put vrb 11
  | .ppeVsum4shs vrt vra vrb => 0x10000648 + put vrt 21 + put vra 16 + put vrb 11
  | .ppeVsum2sws vrt vra vrb => 0x10000688 + put vrt 21 + put vra 16 + put vrb 11
  | .ppeVsumsws vrt vra vrb => 0x10000788 + put vrt 21 + put vra 16 + put vrb 11
  | .ppeMfvscr vrt => 0x10000604 + put vrt 21
  | .ppeMtvscr vrb => 0x10000644 + put vrb 11
  | .ppeVaddfp vrt vra vrb => 0x1000000A + put vrt 21 + put vra 16 + put vrb 11
  | .ppeVsubfp vrt vra vrb => 0x1000004A + put vrt 21 + put vra 16 + put vrb 11
  | .ppeVmaddfp vrt vra vrb vrc => 0x1000002E + put vrt 21 + put vra 16 + put vrb 11 + put vrc 6
  | .ppeVnmsubfp vrt vra vrb vrc => 0x1000002F + put vrt 21 + put vra 16 + put vrb 11 + put vrc 6
  | .ppeVmaxfp vrt vra vrb => 0x1000040A + put vrt 21 + put vra 16 + put vrb 11
  | .ppeVminfp vrt vra vrb => 0x1000044A + put vrt 21 + put vra 16 + put vrb 11
  | .ppeVrefp vrt vrb => 0x1000010A + put vrt 21 + put vrb 11
  | .ppeVrsqrtefp vrt vrb => 0x1000014A + put vrt 21 + put vrb 11
  | .ppeVlogefp vrt vrb => 0x100001CA + put vrt 21 + put vrb 11
  | .ppeVexptefp vrt vrb => 0x1000018A + put vrt 21 + put vrb 11
  | .ppeVrfin vrt vrb => 0x1000020A + put vrt 21 + put vrb 11
  | .ppeVrfiz vrt vrb => 0x1000024A + put vrt 21 + put vrb 11
  | .ppeVrfip vrt vrb => 0x1000028A + put vrt 21 + put vrb 11
  | .ppeVrfim vrt vrb => 0x100002CA + put vrt 21 + put vrb 11
  | .ppeVcfux vrt vrb uim => 0x1000030A + put vrt 21 + put vrb 11 + put uim 16
  | .ppeVcfsx vrt vrb uim => 0x1000034A + put vrt 21 + put vrb 11 + put uim 16
  | .ppeVctuxs vrt vrb uim => 0x1000038A + put vrt 21 + put vrb 11 + put uim 16
  | .ppeVctsxs vrt vrb uim => 0x100003CA + put vrt 21 + put vrb 11 + put uim 16
  | .spuLqd rt ra i10 => 0x34000000 + put rt 0 + put ra 7 + put i10 14
  | .spuLqx rt ra rb => 0x38800000 + put rt 0 + put ra 7 + put rb 14
  | .spuLqa rt i16 => 0x30800000 + put rt 0 + put i16 7
  | .spuLqr rt i16 => 0x33800000 + put rt 0 + put i16 7
  | .spuStqd rt ra i10 => 0x24000000 + put rt 0 + put ra 7 + put i10 14
  | .spuStqx rt ra rb => 0x28800000 + put rt 0 + put ra 7 + put rb 14
  | .spuStqa rt i16 => 0x20800000 + put rt 0 + put i16 7
  | .spuStqr rt i16 => 0x23800000 + put rt 0 + put i16 7
  | .spuCbd rt ra i7 => 0x3E800000 + put rt 0 + put ra 7 + put i7 14
  | .spuCbx rt ra rb => 0x3A800000 + put rt 0 + put ra 7 + put rb 14
  | .spuChd rt ra i7 => 0x3EA00000 + put rt 0 + put ra 7 + put i7 14
  | .spuChx rt ra rb => 0x3AA00000 + put rt 0 + put ra 7 + put rb 14
  | .spuCwd rt ra i7 => 0x3EC00000 + put rt 0 + put ra 7 + put i7 14
  | .spuCwx rt ra rb => 0x3AC00000 + put rt 0 + put ra 7 + put rb 14
  | .spuCdd rt ra i7 => 0x3EE00000 + put rt 0 + put ra 7 + put i7 14
  | .spuCdx rt ra rb => 0x3AE00000 + put rt 0 + put ra 7 + put rb 14
  | .spuIlh rt i16 => 0x41800000 + put rt 0 + put i16 7
  | .spuIlhu rt i16 => 0x41000000 + put rt 0 + put i16 7
  | .spuIl rt i16 => 0x40800000 + put rt 0 + put i16 7
  | .spuIla rt i18 => 0x42000000 + put rt 0 + put i18 7
  | .spuIohl rt i16 => 0x60800000 + put rt 0 + put i16 7
  | .spuFsmbi rt i16 => 0x32800000 + put rt 0 + put i16 7
  | .spuAh rt ra rb => 0x19000000 + put rt 0 + put ra 7 + put rb 14
  | .spuAhi rt ra i10 => 0x1D000000 + put rt 0 + put ra 7 + put i10 14
  | .spuA rt ra rb => 0x18000000 + put rt 0 + put ra 7 + put rb 14
  | .spuAi rt ra i10 => 0x1C000000 + put rt 0 + put ra 7 + put i10 14
  | .spuSfh rt ra rb => 0x9000000 + put rt 0 + put ra 7 + put rb 14
  | .spuSfhi rt ra i10 => 0xD000000 + put rt 0 + put ra 7 + put i10 14
  | .spuSf rt ra rb => 0x8000000 + put rt 0 + put ra 7 + put rb 14
  | .spuSfi rt ra i10 => 0xC000000 + put rt 0 + put ra 7 + put i10 14
  | .spuAddx rt ra rb => 0x68000000 + put rt 0 + put ra 7 + put rb 14
  | .spuCg rt ra rb => 0x18400000 + put rt 0 + put ra 7 + put rb 14
  | .spuCgx rt ra rb => 0x68400000 + put rt 0 + put ra 7 + put rb 14
  | .spuSfx rt ra rb => 0x68200000 + put rt 0 + put ra 7 + put rb 14
  | .spuBg rt ra rb => 0x8400000 + put rt 0 + put ra 7 + put rb 14
  | .spuBgx rt ra rb => 0x68600000 + put rt 0 + put ra 7 + put rb 14
  | .spuMpy rt ra rb => 0x78800000 + put rt 0 + put ra 7 + put rb 14
  | .spuMpyu rt ra rb => 0x79800000 + put rt 0 + put ra 7 + put rb 14
  | .spuMpyi rt ra i10 => 0x74000000 + put rt 0 + put ra 7 + put i10 14
  | .spuMpyui rt ra i10 => 0x75000000 + put rt 0 + put ra 7 + put i10 14
  | .spuMpya rt ra rb rc => 0xC0000000 + put rt 21 + put ra 7 + put rb 14 + put rc 0
  | .spuMpyh rt ra rb => 0x78A00000 + put rt 0 + put ra 7 + put rb 14
  | .spuMpys rt ra rb => 0x78E00000 + put rt 0 + put ra 7 + put rb 14
  | .spuMpyhh rt ra rb => 0x78C00000 + put rt 0 + put ra 7 + put rb 14
  | .spuMpyhha rt ra rb => 0x68C00000 + put rt 0 + put ra 7 + put rb 14
  | .spuMpyhhu rt ra rb => 0x79C00000 + put rt 0 + put ra 7 + put rb 14
  | .spuMpyhhau rt ra rb => 0x69C00000 + put rt 0 + put ra 7 + put rb 14
  | .spuClz rt ra => 0x54A00000 + put rt 0 + put ra 7
  | .spuCntb rt ra => 0x56800000 + put rt 0 + put ra 7
  | .spuFsmb rt ra => 0x36C00000 + put rt 0 + put ra 7
  | .spuFsmh rt ra => 0x36A00000 + put rt 0 + put ra 7
  | .spuFsm rt ra => 0x36800000 + put rt 0 + put ra 7
  | .spuGbb rt ra => 0x36400000 + put rt 0 + put ra 7
  | .spuGbh rt ra => 0x36200000 + put rt 0 + put ra 7
  | .spuGb rt ra => 0x36000000 + put rt 0 + put ra 7
  | .spuAvgb rt ra rb => 0x1A600000 + put rt 0 + put ra 7 + put rb 14
  | .spuAbsdb rt ra rb => 0xA600000 + put rt 0 + put ra 7 + put rb 14
  | .spuSumb rt ra rb => 0x4A600000 + put rt 0 + put ra 7 + put rb 14
  | .spuXsbh rt ra => 0x56C00000 + put rt 0 + put ra 7
  | .spuXshw rt ra => 0x55C00000 + put rt 0 + put ra 7
  | .spuXswd rt ra => 0x54C00000 + put rt 0 + put ra 7
  | .spuAnd rt ra rb => 0x18200000 + put rt 0 + put ra 7 + put rb 14
  | .spuAndc rt ra rb => 0x58200000 + put rt 0 + put ra 7 + put rb 14
  | .spuAndbi rt ra i10 => 0x16000000 + put rt 0 + put ra 7 + put i10 14
  | .spuAndhi rt ra i10 => 0x15000000 + put rt 0 + put ra 7 + put i10 14
  | .spuAndi rt ra i10 => 0x14000000 + put rt 0 + put ra 7 + put i10 14
  | .spuOr rt ra rb => 0x8200000 + put rt 0 + put ra 7 + put rb 14
  | .spuOrc rt ra rb => 0x59200000 + put rt 0 + put ra 7 + put rb 14
  | .spuOrbi rt ra i10 => 0x6000000 + put rt 0 + put ra 7 + put i10 14
  | .spuOrhi rt ra i10 => 0x5000000 + put rt 0 + put ra 7 + put i10 14
  | .spuOri rt ra i10 => 0x4000000 + put rt 0 + put ra 7 + put i10 14
  | .spuOrx rt ra => 0x3E000000 + put rt 0 + put ra 7
  | .spuXor rt ra rb => 0x48200000 + put rt 0 + put ra 7 + put rb 14
  | .spuXorbi rt ra i10 => 0x46000000 + put rt 0 + put ra 7 + put i10 14
  | .spuXorhi rt ra i10 => 0x45000000 + put rt 0 + put ra 7 + put i10 14
  | .spuXori rt ra i10 => 0x44000000 + put rt 0 + put ra 7 + put i10 14
  | .spuNand rt ra rb => 0x19200000 + put rt 0 + put ra 7 + put rb 14
  | .spuNor rt ra rb => 0x9200000 + put rt 0 + put ra 7 + put rb 14
  | .spuEqv rt ra rb => 0x49200000 + put rt 0 + put ra 7 + put rb 14
  | .spuSelb rt ra rb rc => 0x80000000 + put rt 21 + put ra 7 + put rb 14 + put rc 0
  | .spuShufb rt ra rb rc => 0xB0000000 + put rt 21 + put ra 7 + put rb 14 + put rc 0
  | .spuShlh rt ra rb => 0xBE00000 + put rt 0 + put ra 7 + put rb 14
  | .spuShlhi rt ra i7 => 0xFE00000 + put rt 0 + put ra 7 + put i7 14
  | .spuShl rt ra rb => 0xB600000 + put rt 0 + put ra 7 + put rb 14
  | .spuShli rt ra i7 => 0xF600000 + put rt 0 + put ra 7 + put i7 14
  | .spuShlqbi rt ra rb => 0x3B600000 + put rt 0 + put ra 7 + put rb 14
  | .spuShlqbii rt ra i7 => 0x3F600000 + put rt 0 + put ra 7 + put i7 14
  | .spuShlqby rt ra rb => 0x3BE00000 + put rt 0 + put ra 7 + put rb 14
  | .spuShlqbyi rt ra i7 => 0x3FE00000 + put rt 0 + put ra 7 + put i7 14
  | .spuShlqbybi rt ra rb => 0x39E00000 + put rt 0 + put ra 7 + put rb 14
  | .spuRoth rt ra rb => 0xB800000 + put rt 0 + put ra 7 + put rb 14
  | .spuRothi rt ra i7 => 0xF800000 + put rt 0 + put ra 7 + put i7 14
  | .spuRot rt ra rb => 0xB000000 + put rt 0 + put ra 7 + put rb 14
  | .spuRoti rt ra i7 => 0xF000000 + put rt 0 + put ra 7 + put i7 14
  | .spuRotqby rt ra rb => 0x3B800000 + put rt 0 + put ra 7 + put rb 14
  | .spuRotqbyi rt ra i7 => 0x3F800000 + put rt 0 + put ra 7 + put i7 14
  | .spuRotqbybi rt ra rb => 0x39800000 + put rt 0 + put ra 7 + put rb 14
  | .spuRotqbi rt ra rb => 0x3B000000 + put rt 0 + put ra 7 + put rb 14
  | .spuRotqbii rt ra i7 => 0x3F000000 + put rt 0 + put ra 7 + put i7 14
  | .spuRothm rt ra rb => 0xBA00000 + put rt 0 + put ra 7 + put rb 14
  | .spuRothmi rt ra i7 => 0xFA00000 + put rt 0 + put ra 7 + put i7 14
  | .spuRotm rt ra rb => 0xB200000 + put rt 0 + put ra 7 + put rb 14
  | .spuRotmi rt ra i7 => 0xF200000 + put rt 0 + put ra 7 + put i7 14
  | .spuRotqmby rt ra rb => 0x3BA00000 + put rt 0 + put ra 7 + put rb 14
  | .spuRotqmbyi rt ra i7 => 0x3FA00000 + put rt 0 + put ra 7 + put i7 14
  | .spuRotqmbybi rt ra rb => 0x39A00000 + put rt 0 + put ra 7 + put rb 14
  | .spuRotqmbi rt ra rb => 0x3B200000 + put rt 0 + put ra 7 + put rb 14
  | .spuRotqmbii rt ra i7 => 0x3F200000 + put rt 0 + put ra 7 + put i7 14
  | .spuRotmah rt ra rb => 0xBC00000 + put rt 0 + put ra 7 + put rb 14
  | .spuRotmahi rt ra i7 => 0xFC00000 + put rt 0 + put ra 7 + put i7 14
  | .spuRotma rt ra rb => 0xB400000 + put rt 0 + put ra 7 + put rb 14
  | .spuRotmai rt ra i7 => 0xF400000 + put rt 0 + put ra 7 + put i7 14
  | .spuHeq ra rb => 0x7B000000 + put ra 7 + put rb 14
  | .spuHeqi ra i10 => 0x7F000000 + put ra 7 + put i10 14
  | .spuHgt ra rb => 0x4B000000 + put ra 7 + put rb 14
  | .spuHgti ra i10 => 0x4F000000 + put ra 7 + put i10 14
  | .spuHlgt ra rb => 0x5B000000 + put ra 7 + put rb 14
  | .spuHlgti ra i10 => 0x5F000000 + put ra 7 + put i10 14
  | .spuCeqb rt ra rb => 0x7A000000 + put rt 0 + put ra 7 + put rb 14
  | .spuCeqbi rt ra i10 => 0x7E000000 + put rt 0 + put ra 7 + put i10 14
  | .spuCeqh rt ra rb => 0x79000000 + put rt 0 + put ra 7 + put rb 14
  | .spuCeqhi rt ra i10 => 0x7D000000 + put rt 0 + put ra 7 + put i10 14
  | .spuCeq rt ra rb => 0x78000000 + put rt 0 + put ra 7 + put rb 14
  | .spuCeqi rt ra i10 => 0x7C000000 + put rt 0 + put ra 7 + put i10 14
  | .spuCgtb rt ra rb => 0x4A000000 + put rt 0 + put ra 7 + put rb 14
  | .spuCgtbi rt ra i10 => 0x4E000000 + put rt 0 + put ra 7 + put i10 14
  | .spuCgth rt ra rb => 0x49000000 + put rt 0 + put ra 7 + put rb 14
  | .spuCgthi rt ra i10 => 0x4D000000 + put rt 0 + put ra 7 + put i10 14
  | .spuCgt rt ra rb => 0x48000000 + put rt 0 + put ra 7 + put rb 14
  | .spuCgti rt ra i10 => 0x4C000000 + put rt 0 + put ra 7 + put i10 14
  | .spuClgtb rt ra rb => 0x5A000000 + put rt 0 + put ra 7 + put rb 14
  | .spuClgtbi rt ra i10 => 0x5E000000 + put rt 0 + put ra 7 + put i10 14
  | .spuClgth rt ra rb => 0x59000000 + put rt 0 + put ra 7 + put rb 14
  | .spuClgthi rt ra i10 => 0x5D000000 + put rt 0 + put ra 7 + put i10 14
  | .spuClgt rt ra rb => 0x58000000 + put rt 0 + put ra 7 + put rb 14
  | .spuClgti rt ra i10 => 0x5C000000 + put rt 0 + put ra 7 + put i10 14
  | .spuBr i16 => 0x32000000 + put i16 7
  | .spuBra i16 => 0x30000000 + put i16 7
  | .spuBrsl rt i16 => 0x33000000 + put rt 0 + put i16 7
  | .spuBrasl rt i16 => 0x31000000 + put rt 0 + put i16 7
  | .spuBi ra d e => 0x35000000 + put ra 7 + putB d 19 + putB e 18
  | .spuIret ra d e => 0x35400000 + put ra 7 + putB d 19 + putB e 18
  | .spuBisled rt ra d e => 0x35600000 + put rt 0 + put ra 7 + putB d 19 + putB e 18
  | .spuBisl rt ra d e => 0x35200000 + put rt 0 + put ra 7 + putB d 19 + putB e 18
  | .spuBrnz rt i16 => 0x21000000 + put rt 0 + put i16 7
  | .spuBrz rt i16 => 0x20000000 + put rt 0 + put i16 7
  | .spuBrhnz rt i16 => 0x23000000 + put rt 0 + put i16 7
  | .spuBrhz rt i16 => 0x22000000 + put rt 0 + put i16 7
  | .spuBiz rt ra d e => 0x25000000 + put rt 0 + put ra 7 + putB d 19 + putB e 18
  | .spuBinz rt ra d e => 0x25200000 + put rt 0 + put ra 7 + putB d 19 + putB e 18
  | .spuBihz rt ra d e => 0x25400000 + put rt 0 + put ra 7 + putB d 19 + putB e 18
  | .spuBihnz rt ra d e => 0x25600000 + put rt 0 + put ra 7 + putB d 19 + putB e 18
  | .spuHbr ra off => 0x35800000 + put ra 7 + putRo off 14
  | .spuHbrp ra off => 0x35900000 + put ra 7 + putRo off 14
  | .spuHbra i16 off => 0x10000000 + put i16 7 + putRo off 23
  | .spuHbrr i16 off => 0x12000000 + put i16 7 + putRo off 23
  | .spuFa rt ra rb => 0x58800000 + put rt 0 + put ra 7 + put rb 14
  | .spuDfa rt ra rb => 0x59800000 + put rt 0 + put ra 7 + put rb 14
  | .spuFs rt ra rb => 0x58A00000 + put rt 0 + put ra 7 + put rb 14
  | .spuDfs rt ra rb => 0x59A00000 + put rt 0 + put ra 7 + put rb 14
  | .spuFm rt ra rb => 0x58C00000 + put rt 0 + put ra 7 + put rb 14
  | .spuDfm rt ra rb => 0x59C00000 + put rt 0 + put ra 7 + put rb 14
  | .spuFma rt ra rb rc => 0xE0000000 + put rt 21 + put ra 7 + put rb 14 + put rc 0
  | .spuDfma rt ra rb => 0x6B800000 + put rt 0 + put ra 7 + put rb 14
  | .spuFnms rt ra rb rc => 0xD0000000 + put rt 21 + put ra 7 + put rb 14 + put rc 0
  | .spuDfnms rt ra rb => 0x6BC00000 + put rt 0 + put ra 7 + put rb 14
  | .spuFms rt ra rb rc => 0xF0000000 + put rt 21 + put ra 7 + put rb 14 + put rc 0
  | .spuDfms rt ra rb => 0x6BA00000 + put rt 0 + put ra 7 + put rb 14
  | .spuDfnma rt ra rb => 0x6BE00000 + put rt 0 + put ra 7 + put rb 14
  | .spuFrest rt ra => 0x37000000 + put rt 0 + put ra 7
  | .spuFrsqest rt ra => 0x37200000 + put rt 0 + put ra 7
  | .spuFi rt ra rb => 0x7A800000 + put rt 0 + put ra 7 + put rb 14
  | .spuCsflt rt ra i8 => 0x76800000 + put rt 0 + put ra 7 + put i8 14
  | .spuCflts rt ra i8 => 0x76000000 + put rt 0 + put ra 7 + put i8 14
  | .spuCuflt rt ra i8 => 0x76C00000 + put rt 0 + put ra 7 + put i8 14
  | .spuCfltu rt ra i8 => 0x76400000 + put rt 0 + put ra 7 + put i8 14
  | .spuFrds rt ra => 0x77200000 + put rt 0 + put ra 7
  | .spuFesd rt ra => 0x77000000 + put rt 0 + put ra 7
  | .spuDfceq rt ra rb => 0x78600000 + put rt 0 + put ra 7 + put rb 14
  | .spuDfcmeq rt ra rb => 0x79600000 + put rt 0 + put ra 7 + put rb 14
  | .spuDfcgt rt ra rb => 0x58600000 + put rt 0 + put ra 7 + put rb 14
  | .spuDfcmgt rt ra rb => 0x59600000 + put rt 0 + put ra 7 + put rb 14
  | .spuDftsv rt ra i7 => 0x77E00000 + put rt 0 + put ra 7 + put i7 14
  | .spuFceq rt ra rb => 0x78400000 + put rt 0 + put ra 7 + put rb 14
  | .spuFcmeq rt ra rb => 0x79400000 + put rt 0 + put ra 7 + put rb 14
  | .spuFcgt rt ra rb => 0x58400000 + put rt 0 + put ra 7 + put rb 14
  | .spuFcmgt rt ra rb => 0x59400000 + put rt 0 + put ra 7 + put rb 14
  | .spuFscrwr ra => 0x77400000 + put ra 7
  | .spuFscrrd rt => 0x73000000 + put rt 0
  | .spuStop sig => 0x0 + put sig 0
  | .spuStopd ra rb rc => 0x28000000 + put ra 7 + put rb 14 + put rc 0
  | .spuLnop => 0x200000
  | .spuNop => 0x40200000
  | .spuSync => 0x400000
  | .spuSyncc => 0x500000
  | .spuDsync => 0x600000
  | .spuMfspr rt sa => 0x1800000 + put rt 0 + put sa 7
  | .spuMtspr rt sa => 0x21800000 + put rt 0 + put sa 7
  | .spuRdch rt ca => 0x1A00000 + put rt 0 + put ca 7
  | .spuRchcnt rt ca => 0x1E00000 + put rt 0 + put ca 7
  | .spuWrch rt ca => 0x21A00000 + put rt 0 + put ca 7
  | .mfcPut tclass rclass => 0x20 + put tclass 24 + put rclass 16
  | .mfcPutb tclass rclass => 0x21 + put tclass 24 + put rclass 16
  | .mfcPutf tclass rclass => 0x22 + put tclass 24 + put rclass 16
  | .mfcPutl tclass rclass => 0x24 + put tclass 24 + put rclass 16
  | .mfcPutlb tclass rclass => 0x25 + put tclass 24 + put rclass 16
  | .mfcPutlf tclass rclass => 0x26 + put tclass 24 + put rclass 16
  | .mfcPuts tclass rclass => 0x28 + put tclass 24 + put rclass 16
  | .mfcPutbs tclass rclass => 0x29 + put tclass 24 + put rclass 16
  | .mfcPutfs tclass rclass => 0x2A + put tclass 24 + put rclass 16
  | .mfcPutr tclass rclass => 0x30 + put tclass 24 + put rclass 16
  | .mfcPutrb tclass rclass => 0x31 + put tclass 24 + put rclass 16
  | .mfcPutrf tclass rclass => 0x32 + put tclass 24 + put rclass 16
  | .mfcPutrl tclass rclass => 0x34 + put tclass 24 + put rclass 16
  | .mfcPutrlb tclass rclass => 0x35 + put tclass 24 + put rclass 16
  | .mfcPutrlf tclass rclass => 0x36 + put tclass 24 + put rclass 16
  | .mfcGet tclass rclass => 0x40 + put tclass 24 + put rclass 16
  | .mfcGetb tclass rclass => 0x41 + put tclass 24 + put rclass 16
  | .mfcGetf tclass rclass => 0x42 + put tclass 24 + put rclass 16
  | .mfcGetl tclass rclass => 0x44 + put tclass 24 + put rclass 16
  | .mfcGetlb tclass rclass => 0x45 + put tclass 24 + put rclass 16
  | .mfcGetlf tclass rclass => 0x46 + put tclass 24 + put rclass 16
  | .mfcGets tclass rclass => 0x48 + put tclass 24 + put rclass 16
  | .mfcGetbs tclass rclass => 0x49 + put tclass 24 + put rclass 16
  | .mfcGetfs tclass rclass => 0x4A + put tclass 24 + put rclass 16
  | .mfcSdcrt tclass rclass => 0x80 + put tclass 24 + put rclass 16
  | .mfcSdcrtst tclass rclass => 0x81 + put tclass 24 + put rclass 16
  | .mfcSdcrz tclass rclass => 0x89 + put tclass 24 + put rclass 16
  | .mfcSdcrst tclass rclass => 0x8D + put tclass 24 + put rclass 16
  | .mfcSdcrf tclass rclass => 0x8F + put tclass 24 + put rclass 16
  | .mfcSndsig tclass rclass => 0xA0 + put tclass 24 + put rclass 16
  | .mfcSndsigb tclass rclass => 0xA1 + put tclass 24 + put rclass 16
  | .mfcSndsigf tclass rclass => 0xA2 + put tclass 24 + put rclass 16
  | .mfcPutlluc tclass rclass => 0xB0 + put tclass 24 + put rclass 16
  | .mfcPutllc tclass rclass => 0xB4 + put tclass 24 + put rclass 16
  | .mfcPutqlluc tclass rclass => 0xB8 + put tclass 24 + put rclass 16
  | .mfcBarrier tclass rclass => 0xC0 + put tclass 24 + put rclass 16
  | .mfcMfceieio tclass rclass => 0xC8 + put tclass 24 + put rclass 16
  | .mfcMfcsync tclass rclass => 0xCC + put tclass 24 + put rclass 16
  | .mfcGetllar tclass rclass => 0xD0 + put tclass 24 + put rclass 16

/-- The word of an instruction. -/
def encode (i : Instr) : Word := BitVec.ofNat 32 (encodeNat i)

/-- The PPE instruction of a word. -/
def decodePpe (w : Word) : Except DecodeReject Instr :=
  match ppeOf w.toNat with
  | some i => .ok i
  | none => .error .ppeIllegal

/-- The SPU instruction of a word. -/
def decodeSpu (w : Word) : Except DecodeReject Instr :=
  match spuOf w.toNat with
  | some i => .ok i
  | none => .error .spuInvalid

/-- The MFC command of a command word. -/
def decodeMfc (w : Word) : Except DecodeReject Instr :=
  match mfcOf w.toNat with
  | some i => .ok i
  | none => .error .mfcInvalid

/-- The big-endian word of four bytes (20_memory R344, R345). -/
def wordOfBytes (a b c d : Byte) : Word :=
  BitVec.ofNat 32 (a.toNat * 2^24 + b.toNat * 2^16 + c.toNat * 2^8 + d.toNat)

/-- The four bytes of a word, the first at the lowest address (20_memory R344, R345). -/
def bytesOfWord (w : Word) : List Byte :=
  [bvAt w.toNat 24 8, bvAt w.toNat 16 8, bvAt w.toNat 8 8, bvAt w.toNat 0 8]

/-- Decode the first instruction of a list of bytes with one of the decoders; the rest of the bytes follows it. -/
def decodeBytes (dec : Word → Except DecodeReject Instr) : List Byte → Except DecodeReject (Instr × List Byte)
  | a :: b :: c :: d :: rest =>
    match dec (wordOfBytes a b c d) with
    | .ok i => .ok (i, rest)
    | .error e => .error e
  | _ => .error .tooShort

/-- The bytes of an instruction as the hardware stores them. -/
def encodeBytes (i : Instr) : List Byte := bytesOfWord (encode i)

/-- The instruction set a table word is read in. -/
inductive InstrSet where
  | ppe
  | spu
  | mfc
deriving DecidableEq, Repr

/-- How many bits the table fixes in the PPE row a word matches. -/
def ppeFixedBits (n : Nat) : Nat :=
  let op := n / 2^26
  if op = 4 then
    if n / 2^5 % 2 = 1 ∧ n / 2^4 % 2 = 0 then 12
    else if (ppeVXR n (n % 1024)).isSome then 16 else 17
  else if op = 19 then 16
  else if op = 30 then (if (ppeMD n (n / 4 % 8)).isSome then 9 else 10)
  else if op = 31 then (if (ppeXO n (n / 2 % 512)).isSome ∨ (ppeXS n (n / 4 % 512)).isSome then 15 else 16)
  else if op = 58 ∨ op = 62 then 8
  else if op = 59 then 11
  else if op = 63 then (if n / 2^5 % 2 = 1 then 11 else 16)
  else 6

/-- How many bits the table fixes in the SPU row a word matches. -/
def spuFixedBits (n : Nat) : Nat :=
  if (spuRRR n (n / 2^28)).isSome then 4
  else if (spuRI18 n (n / 2^25)).isSome then 7
  else if (spuRI10 n (n / 2^24)).isSome then 8
  else if (spuRI16 n (n / 2^23)).isSome then 9
  else if (spuRI8 n (n / 2^22)).isSome then 10
  else 11

/-- Whether every operand bit of a PPE word is 0, as in the words of the opcode table's own column. -/
def ppePlain (n : Nat) : Bool :=
  let op := n / 2^26
  if op = 17 then n % 2^26 = 2
  else if op = 0 then n % 2^26 = 0x200
  else if op = 30 then n / 2^5 % 2^21 = 0 ∧ n % 2 = 0
  else if op = 4 ∨ op = 19 ∨ op = 31 ∨ op = 59 ∨ op = 63 then n / 2^11 % 2^15 = 0
  else n % 2^26 < 4

/-- Whether every operand bit of an SPU word is 0. -/
def spuPlain (n : Nat) : Bool := n % 2^(32 - spuFixedBits n) = 0

/-- The instruction set of a word of the opcode table that does not say which table it comes from: a word of at most 16
bits, or one that holds an MFC opcode and nothing else, is an MFC command; a word that is a row's own word (every operand
bit 0) in one set only is of that set; otherwise the set whose row fixes the most bits of the word, the PPE's where they fix
as many (DESIGN CHOICE, log 7: the opcode table is three tables in one and its words overlap; nothing a program does depends
on this choice, which stands in no step of the machine). -/
def tableWordSet (nbits w : Nat) : Option InstrSet :=
  if nbits ≤ 16 then (if (mfcOf w).isSome then some .mfc else none)
  else if w < 256 ∧ (mfcOf w).isSome then some .mfc
  else
    let isP := (ppeOf w).isSome
    let isS := (spuOf w).isSome
    if isP && !isS then some .ppe
    else if isS && !isP then some .spu
    else if isP then
      if ppePlain w && !spuPlain w then some .ppe
      else if spuPlain w && !ppePlain w then some .spu
      else if ppeFixedBits w ≥ spuFixedBits w then some .ppe
      else some .spu
    else if (mfcOf w).isSome then some .mfc
    else none

/-- The instruction the decoders read from a word of the opcode table (bit 0 the least significant bit). -/
def decodeTableWord (nbits w : Nat) : Option Instr :=
  let bytes := bytesOfWord (BitVec.ofNat 32 w)
  let first (r : Except DecodeReject (Instr × List Byte)) : Option Instr :=
    match r with
    | .ok (i, _) => some i
    | .error _ => none
  match tableWordSet nbits (w % 2^32) with
  | some .ppe => first (decodeBytes decodePpe bytes)
  | some .spu => first (decodeBytes decodeSpu bytes)
  | some .mfc => first (decodeBytes decodeMfc bytes)
  | none => none

end

end Sys2Proof
end

