-- ==== Sys2Proof/Machine/Bits.lean ====
section
/-! DEFINITION. Reading and writing bits by the manual's numbers (bit 0 the most significant, 00_scope R14), elements of a
quadword (element 0 leftmost, 10_state R44, 11_state_spe R150), and the saturations and rotations of 00_scope R16. -/

namespace Sys2Proof.Machine

/-- The `len` bits of `w` that start at bit `first`. -/
def ibm {n : Nat} (w : BitVec n) (first len : Nat) : BitVec len := w.extractLsb' (n - first - len) len

/-- Bit `k` of `w`. -/
def ibit {n : Nat} (w : BitVec n) (k : Nat) : Bool := w.getLsbD (n - 1 - k)

/-- `w` with the bits from `first` on replaced by `v`. -/
def setIbm {n len : Nat} (w : BitVec n) (first : Nat) (v : BitVec len) : BitVec n :=
  (w &&& ~~~((BitVec.allOnes len).setWidth n <<< (n - first - len))) ||| (v.setWidth n <<< (n - first - len))

/-- `w` with bit `k` replaced by `b`. -/
def setIbit {n : Nat} (w : BitVec n) (k : Nat) (b : Bool) : BitVec n := setIbm w k (BitVec.ofBool b)

/-- Element `i` of `len` bits of a quadword. -/
def el (len : Nat) (q : QWord) (i : Nat) : BitVec len := ibm q (len * i) len

/-- The concatenation of `cnt` elements of `len` bits, element 0 leftmost, as a number. -/
def catEls (len : Nat) (f : Nat → BitVec len) : Nat → Nat
  | 0 => 0
  | k + 1 => catEls len f k * 2^len + (f k).toNat

/-- The quadword of `cnt` elements of `len` bits. -/
def buildEls (len cnt : Nat) (f : Nat → BitVec len) : QWord := BitVec.ofNat 128 (catEls len f cnt)

/-- Element-wise operations on quadwords; `len * cnt = 128`. -/
def mapEls (len cnt : Nat) (f : BitVec len → BitVec len) (a : QWord) : QWord :=
  buildEls len cnt fun i => f (el len a i)

def zipEls (len cnt : Nat) (f : BitVec len → BitVec len → BitVec len) (a b : QWord) : QWord :=
  buildEls len cnt fun i => f (el len a i) (el len b i)

def zip3Els (len cnt : Nat) (f : BitVec len → BitVec len → BitVec len → BitVec len) (a b c : QWord) : QWord :=
  buildEls len cnt fun i => f (el len a i) (el len b i) (el len c i)

/-- All ones or all zeros (48_spu_compare_branch R1400, 45_ppe_vmx_2 R1139). -/
def maskOf (len : Nat) (b : Bool) : BitVec len := if b then BitVec.allOnes len else 0

/-- `trunc_N` of an integer. -/
def truncInt (n : Nat) (x : Int) : BitVec n := BitVec.ofInt n x

/-- `usat_N`: the clamped value, and whether the clamp changed it (45_ppe_vmx_1 section 3). -/
def usat (n : Nat) (x : Int) : BitVec n × Bool :=
  if x < 0 then (0, true)
  else if x ≥ 2^n then (BitVec.allOnes n, true)
  else (BitVec.ofInt n x, false)

/-- `ssat_N`. -/
def ssat (n : Nat) (x : Int) : BitVec n × Bool :=
  if x < -2^(n - 1) then (BitVec.ofInt n (-2^(n - 1)), true)
  else if x ≥ 2^(n - 1) then (BitVec.ofInt n (2^(n - 1) - 1), true)
  else (BitVec.ofInt n x, false)

/-- Whether any of the first `cnt` values of `f` is true. -/
def anyUpTo (f : Nat → Bool) : Nat → Bool
  | 0 => false
  | k + 1 => f k || anyUpTo f k

/-- Leading zeros of a value of `n` bits, counted from its most significant bit. -/
def leadZeros {n : Nat} (w : BitVec n) : Nat → Nat
  | 0 => 0
  | k + 1 => if w.getLsbD k then 0 else leadZeros w k + 1

/-- Number of leading zero bits. -/
def clz {n : Nat} (w : BitVec n) : Nat := leadZeros w n

/-- Number of ones among the low `k` bits. -/
def onesBelow {n : Nat} (w : BitVec n) : Nat → Nat
  | 0 => 0
  | k + 1 => (if w.getLsbD k then 1 else 0) + onesBelow w k

/-- Number of one bits. -/
def popcount {n : Nat} (w : BitVec n) : Nat := onesBelow w n

/-- `MASK(mb, me)` of 64 bits: ones in bits mb..me, wrapping when mb > me (42_ppe_integer R740). -/
def mask64 (mb me : Nat) : DWord :=
  let upTo (k : Nat) : DWord := BitVec.allOnes 64 >>> k          -- bits k..63
  if mb ≤ me then upTo mb &&& ~~~(upTo (me + 1)) else upTo mb ||| ~~~(upTo (me + 1))

/-- `ROTL32(x, n)`: the low word duplicated and rotated (42_ppe_integer R740). -/
def rotl32 (x : DWord) (n : Nat) : DWord := (ibm x 32 32 ++ ibm x 32 32).rotateLeft n

/-- The big-endian number of a list of bytes. -/
def natOfBytes : List Byte → Nat
  | [] => 0
  | b :: bs => b.toNat * 2^(8 * bs.length) + natOfBytes bs

/-- The `n` bytes of a number, most significant first. -/
def bytesOfNat (v : Nat) : Nat → List Byte
  | 0 => []
  | k + 1 => BitVec.ofNat 8 (v / 2^(8 * k)) :: bytesOfNat v k

end Sys2Proof.Machine
end

