-- ==== Sys2Proof/Config.lean ====
section
/-! DEFINITION. What an implementation fixes, and the free values. A free value is the result of an opaque function, so
nothing can be proved of it: `State.freeCount` counts the draws made so far, and each draw applies `Config.free` to it. -/

namespace Sys2Proof

/-- The free values: the `k`-th draw of `w` bits. It has no body. Every treatment "any value" or "draw" of
93_implementation_defined.md that a step makes is one of these (log 5). -/
opaque Config.free (w : Nat) (k : Nat) : BitVec w

/-- The values that the SPU instructions `frest` and `frsqest` deliver for an operand: tables that the specification does not
give (48_spu_float R1515, R1516; U61). They have no body. -/
opaque Config.frestTok (w : Word) : Word
opaque Config.frsqestTok (w : Word) : Word

/-- Which of the two processors the chip is (00_scope R1): the double-precision compares and `dftsv` of the SPU exist on
the PowerXCell 8i only (30_encoding R564). -/
inductive Chip where
  | cellBe
  | powerXCell8i
deriving DecidableEq, Repr

/-- Fields of the configuration ring that the specification lists without an effect that the model shows (12_state_platform
R320, 70_reset_and_hazards R2062: "listed only", D14). -/
structure RingSettings where
  raOverride : DWord
  mcBase : DWord
  mcCompEn : Bool
  ioif1CompEn : Bool
  slowModeDelay : Byte
  minStopPpe : BitVec 4
  minStopSpe : BitVec 4
  cfgTo : Byte
  senSampTime : Byte
  digFiltDly : Byte
  /-- The thermal overload temperature, the code of a sensor (70_reset_and_hazards R2062, 62_platform R2026). -/
  overloadTemp : BitVec 6
deriving DecidableEq, Repr

/-- The values that R320 names; of the others the overload temperature is the highest code and the rest 0 (log 3). -/
def RingSettings.standard : RingSettings where
  raOverride := 0
  mcBase := 0
  mcCompEn := false
  ioif1CompEn := false
  slowModeDelay := 0x1F
  minStopPpe := 8
  minStopSpe := 8
  cfgTo := 0x1F
  senSampTime := 1
  digFiltDly := 0
  overloadTemp := 63

/-- Parameters loaded from the configuration ring or given by the platform (12_state_platform R320, 70_reset R2062). They
are constant while the machine runs. -/
structure ChipConfig where
  /-- The processor. -/
  chip : Chip
  /-- The 19 most significant bits of BE_MMIO_Base (20_memory R371): see `mmioBase`. -/
  mmioBase19 : BitVec 19
  /-- MEM_SIZE, bytes of main storage from real address 0 (20_memory R373), as far as the chip's memory controller allows:
  see `memBytes`. -/
  memSize : Nat
  /-- PVR (10_state R66). -/
  pvr : Word
  /-- PIR of thread 0 and of thread 1 (10_state R65, D23). -/
  pir0 : Word
  pir1 : Word
  /-- The thread-0 system reset vector when HID1[dis_sysrst_reg] = 0 (10_state R75, 70_reset R2062); only bits 22:61 count
  (`resetVectorMask`). -/
  sysresetVector : DWord
  /-- Version registers of the SPEs (11_state_spe R182). -/
  mfcVr : DWord
  spuVr : DWord
  /-- THREAD1_ENABLED_AT_POR and the POR value of MSR[ME] (70_reset_and_hazards R2062, R2063, D30, D31). -/
  thread1EnabledAtPor : Bool
  porMe : Bool
  /-- What IOC_BaseAddr0, IOC_BaseAddr1, IOC_BaseAddrMask0 and IOC_BaseAddrMask1 are loaded with (12_state_platform R272). -/
  iocBaseAddr0 : DWord
  iocBaseAddr1 : DWord
  iocBaseAddrMask0 : DWord
  iocBaseAddrMask1 : DWord
  ring : RingSettings
  /-- The loaded image: what main storage holds after a power-on reset (70_reset_and_hazards R2067). -/
  image : List Host.Cell
deriving DecidableEq, Repr

/-- BE_MMIO_Base: the 42-bit real address of the MMIO block, whose low 23 bits are 0 (20_memory R371). -/
def ChipConfig.mmioBase (c : ChipConfig) : Nat := (c.mmioBase19 ++ 0#23).toNat

/-- Bytes of main storage: MEM_SIZE within what the memory controller takes, 64 MB to 64 GB on the Cell/B.E., 1 GB to 32 GB on
the PowerXCell 8i (00_scope R4). -/
def ChipConfig.memBytes (c : ChipConfig) : Nat :=
  match c.chip with
  | .cellBe => max (2^26) (min c.memSize (2^36))
  | .powerXCell8i => max (2^30) (min c.memSize (2^35))

/-- The parameters of the modelled machine (DESIGN CHOICE, log 3). -/
def ChipConfig.standard : ChipConfig where
  chip := .powerXCell8i
  mmioBase19 := 0x40000
  memSize := 0x800000000
  pvr := 0
  pir0 := 0
  pir1 := 1
  sysresetVector := 0x100
  mfcVr := 0
  spuVr := 0
  thread1EnabledAtPor := false
  porMe := true
  iocBaseAddr0 := 0
  iocBaseAddr1 := 0
  iocBaseAddrMask0 := 0
  iocBaseAddrMask1 := 0
  ring := RingSettings.standard
  image := []

end Sys2Proof
end

