-- ==== Sys2Proof/Machine/State.lean ====
section
/-! DEFINITION. The state of the machine as plain data, the faults and refusals of a step, and the state after reset.
INVENTORY.md lists the rule of spec/ behind every field and its reset value. -/

namespace Sys2Proof.Machine

/-- What stops the machine for good: a run that meets one goes on only with a power-on reset (`State.stopped`). -/
inductive Fault where
  /-- The checkstop state (60_exceptions R1890): raised by a step after any of the conditions listed there, while the schedule
  holds no power-on reset. Safe: the machine stops. -/
  | checkstop
  /-- Thermal overload: the clocks are stopped until a hard reset (62_platform R2026, U75). Raised likewise. Safe. -/
  | thermalOverload
deriving DecidableEq, Repr

/-- Why a step has no meaning to give: each is a point where the specification says that a run which reaches it is
outside the specification ("refuse" in 93_implementation_defined.md). All are safe: nothing further is claimed. -/
inductive Refusal where
  /-- An instruction that has no meaning yet. -/
  | notModelled (mnemonic : String)
  /-- `attn` with HID0[en_attn] = 1 (44_ppe_system R950, U54): raised by `attn`. -/
  | attnDebugger
  /-- A DMA access to the issuing SPE's own local-storage alias (20_memory R362, U40): raised by MFC transfers. -/
  | ownLocalStorageAlias
  /-- An MMIO access of a width other than the register's (20_memory R375, U42): raised by loads, stores and DMA. -/
  | mmioWidth
  /-- An IOPT entry with SO = '01' (20_memory R388, U43): raised by inbound I/O accesses. -/
  | iopteOrder
  /-- IOC_IOST_Origin[E] and IOC_IOCmd_Cfg[TE] differ when an inbound access arrives (21_translation R525). -/
  | ioTranslationEnable
  /-- An inbound access whose address is routed to the interface it came from (21_translation R525). -/
  | ioLoopedBack
  /-- A request for the isolated state of an SPU, which 00_scope R9 leaves out: raised by stores to SPU_RunCntl. -/
  | isolation
  /-- A reserved register or table value named by U46. -/
  | reservedValue
  /-- Several SMM translations match one address (21_translation R502, U47): raised by MFC transfers. -/
  | smmMultipleMatch
  /-- A lock-line reservation on a line that holds page table entries an SMM reads (21_translation R507, U47): raised by MFC
  transfers. -/
  | lockedPteLine
  /-- An SMM and the PPE share a page table but not its size or the page sizes (21_translation R510): raised by MFC
  transfers. -/
  | pageTableMismatch
  /-- A store to MFC_RMAB while the MFC has work and is not suspended (21_translation R518). -/
  | rmabWhileActive
  /-- An indirect SPU branch with both D and E (48_spu_compare_branch R1449, U58). -/
  | branchDisableAndEnable
  /-- An access to SPU_ChnlIndex, SPU_ChnlCnt or SPU_ChnlData while the SPU runs (U64). -/
  | channelAccessWhileRunning
  /-- A DMA transfer to an MMIO register that is not of the register's width (49_mfc_commands R1653, U65). -/
  | dmaToMmio
  /-- An interrupt packet for a unit that does not exist (61_spe_iic_interrupts R1905, U72). -/
  | interruptDestination
  /-- A cacheable mapping of a local-storage alias or of a register, or a register access to non-guarded storage
  (20_memory R361, R383, D56): raised by accesses of the PPE, and by `getllar` for the alias of another SPE. -/
  | cacheableDevice
  /-- A store to PMCR or to a MIC timing register during a frequency change (62_platform R2020, U74). -/
  | frequencyChange
deriving DecidableEq, Repr

/-- The answer of a step or of a meaning. -/
abbrev Out (σ : Type) := Host.Outcome σ Fault Refusal

/-! ## Agents and the environment -/

/-- Who moves in a step. -/
inductive Agent where
  | ppe (t : Fin 2)
  | spu (n : Fin 8)
  | mfc (n : Fin 8)
deriving DecidableEq, Repr

/-- An interrupt packet (61_spe_iic_interrupts R1901): class, destination (BIF node and unit), priority, source. -/
structure Packet where
  cls : BitVec 2
  dstNode : BitVec 4
  dst : BitVec 4
  prio : BitVec 8
  srcNode : BitVec 4
  src : BitVec 4
deriving DecidableEq, Repr

/-- Who makes an inbound access, and its S bit: the accesses of one device on one virtual channel of one interface are ordered as
20_memory R388 says. -/
structure IoUnit where
  ifc : Fin 2
  ioid : BitVec 11
  vc : Nat
  s : Bool
deriving DecidableEq, Repr

/-- An inbound write that is accepted and whose data has not all been written (20_memory R388, R389, R418; log 30). -/
structure IoWrite where
  /-- The order of acceptance. -/
  seq : Nat
  unit : IoUnit
  /-- The previous accesses of the unit come first, whatever their addresses: TE, S and SO (R388). -/
  strong : Bool
  /-- The I/O addresses. -/
  addr : Nat
  len : Nat
  /-- The accesses that are left, each indivisible: address (real, or inside the local storage), data. -/
  parts : List (Nat × List Byte)
  /-- Interrupt packets that the interface sent after it (R389). -/
  followed : List Packet
  /-- It is performed in the main-storage domain: another access there finds its data (R389, R418). Used for a local storage. -/
  due : Bool
  /-- A multisource synchronization request of MFC_MSSync, of channel 9, tracks it (R418). -/
  ms : Bool
  ch : Bool
deriving DecidableEq, Repr

/-- A `tlbie` as the translation units of the SPEs receive it: LPID, page size L, the operand (21_translation R480, R517). -/
structure Snoop where
  lpid : BitVec 5
  l : Bool
  rb : DWord
deriving DecidableEq, Repr

/-- A move of the schedule: an agent's step, a tick of the time base, or an event of the environment (log 1). -/
inductive Move where
  | run (a : Agent)
  /-- A time-base pulse; it counts only while the time base is enabled (62_platform R1990). The TBEN input. -/
  | tick
  | setTben (high : Bool)
  /-- Install, drop an ERAT entry (21_translation R443, R444). -/
  | eratFill (t : Fin 2) (instr : Bool) (ea : DWord)
  | eratDrop (t : Fin 2) (k : Nat)
  /-- A thread fetches the 128-byte line of an address into the PPE instruction cache; a line is replaced (20_memory R383, R430). -/
  | icacheFill (t : Fin 2) (ea : DWord)
  | icacheDrop (k : Nat)
  /-- Prefetch a 128-byte line into the SPU instruction buffer, drop one (70_reset_and_hazards R2092). -/
  | spuPrefetch (n : Fin 8) (line : Nat)
  | spuDrop (n : Fin 8) (k : Nat)
  /-- An inbound I/O read or write: who asks, I/O address, length or data (21_translation R525 to R529). -/
  | ioRead (u : IoUnit) (a : Nat) (len : Nat)
  | ioWrite (u : IoUnit) (a : Nat) (bytes : List Byte)
  /-- The data of one of the indivisible accesses that are left of an accepted inbound write takes effect (20_memory R359, R388;
  log 30). -/
  | ioData (seq : Nat) (part : Nat)
  /-- An interrupt packet from an IOIF (61_spe_iic_interrupts R1914). -/
  | ioInterrupt (p : Packet)
  /-- A load of the IOPT cache brings its entry (21_translation R532). -/
  | ioptArrive
  /-- The auxiliary trace of the MIC writes its current address (61_spe_iic_interrupts R1911). -/
  | micTrace (a : DWord)
  /-- The feedback of a managed resource reaches level 3: a bit of TKM_ISR (61_spe_iic_interrupts R1914). -/
  | tokenLevel (b : Fin 5)
  /-- EIB possible-livelock detection (U30). -/
  | livelock
  /-- Die temperature of a sensor (U31); thermal overload (U75). -/
  | temperature (sensor : Fin 10) (code : BitVec 6)
  | thermalOverload
  /-- A pending frequency change completes (62_platform R2020, D108). -/
  | slowDone
  /-- The IOC records a fault in IOC_FIR (60_exceptions R1870). -/
  | iocFault (bit : Fin 64)
  /-- Trace signals of the scan facility reach a thread (60_exceptions R1875). -/
  | maintenance (t : Fin 2) (inputs : BitVec 2)
  /-- The scan facility matches the instruction that a thread has completed: opcode compares 0 and 1, data and instruction
  address breakpoint (60_exceptions R1875). -/
  | scanMatch (t : Fin 2) (causes : BitVec 4)
  /-- A watchdog timeout or the checkstop signal of an external device (60_exceptions R1890). -/
  | watchdog
  | checkstopSignal
  /-- Power-on reset (70_reset_and_hazards R2062). -/
  | powerOnReset
deriving DecidableEq, Repr

/-! ## The PPE -/

/-- An entry of a PPE segment lookaside buffer, or of an SMM one (21_translation R446, R500). -/
structure SlbEntry where
  esid : BitVec 36
  v : Bool
  /-- The 37 implemented bits of the VSID. -/
  vsid : BitVec 37
  ks : Bool
  kp : Bool
  n : Bool
  l : Bool
  c : Bool
  lp : Bool
  /-- The page size in bits, computed at the SLB_VSID write of an SMM entry (21_translation R501); not used by the PPE. -/
  pageBits : Nat
deriving DecidableEq, Repr

/-- An invalid entry with every bit clear: an SLB entry of the PPE or an SMM at power-on reset. R84 states V = 0; U1 leaves the
other fields open, DESIGN CHOICE (log 2). -/
def SlbEntry.empty : SlbEntry :=
  { esid := 0, v := false, vsid := 0, ks := false, kp := false, n := false, l := false, c := false, lp := false, pageBits := 12 }

/-- An entry of an effective-to-real translation cache: a complete translation of one 4 KB block (21_translation R444). -/
structure EratEntry where
  /-- true: I-ERAT; false: D-ERAT. -/
  instr : Bool
  /-- EA[0:51]. -/
  eaPage : BitVec 52
  /-- The MSR bits SF, IR or DR, PR and HV at the time of loading (D62). -/
  sf : Bool
  rel : Bool
  pr : Bool
  hv : Bool
  /-- RA[22:51]: the real page number. -/
  raPage : BitVec 30
  i : Bool
  g : Bool
  n : Bool
  /-- PTE[G], which makes a fetch an exception whatever I is (21_translation R457, R475). -/
  fetchG : Bool
  ks : Bool
  kp : Bool
  pp : BitVec 2
  cBit : Bool
  /-- Class of the segment. -/
  cls : Bool
  /-- log2 of the page size. -/
  bits : Nat
deriving DecidableEq, Repr

/-- An entry of a translation lookaside buffer (21_translation R458, R505). -/
structure TlbEntry where
  v : Bool
  /-- VA[0:67] with the bits inside the page clear. -/
  vpn : BitVec 68
  l : Bool
  lp : Bool
  /-- The partition tag of a PPE entry (21_translation R459). -/
  lpid : BitVec 5
  /-- PTE doubleword 0 attributes: SW and H (21_translation R477, R513). -/
  pte0 : DWord
  /-- PTE doubleword 1: RPN, AC, R, C, WIMG, N, PP. -/
  pte1 : DWord
deriving DecidableEq, Repr

/-- An empty TLB entry, as every one is at power-on reset. R84 states V = 0; U1 leaves the other fields open, DESIGN CHOICE
(log 2). -/
def TlbEntry.empty : TlbEntry :=
  { v := false, vpn := 0, l := false, lp := false, lpid := 0, pte0 := 0, pte1 := 0 }

/-- The address-range registers (10_state R79). -/
structure RangeRegs where
  drsr0 : DWord
  drmr0 : DWord
  dcidr0 : DWord
  drsr1 : DWord
  drmr1 : DWord
  dcidr1 : DWord
  irsr0 : DWord
  irmr0 : DWord
  icidr0 : DWord
  irsr1 : DWord
  irmr1 : DWord
  icidr1 : DWord
deriving DecidableEq, Repr

/-- The registers of one PPE hardware thread (10_state R40, R41). -/
structure Thread where
  pc : DWord
  gpr : Vector DWord 32
  fpr : Vector DWord 32
  vr : Vector QWord 32
  lr : DWord
  ctr : DWord
  xer : DWord
  cr : Word
  fpscr : Word
  vscr : Word
  vrsave : Word
  /-- RESERVE and RESERVE_ADDR: the number of the reserved 128-byte granule (10_state R53). -/
  reserve : Option Nat
  msr : DWord
  srr0 : DWord
  srr1 : DWord
  hsrr0 : DWord
  hsrr1 : DWord
  dsisr : Word
  dar : DWord
  sprg0 : DWord
  sprg1 : DWord
  sprg2 : DWord
  sprg3 : DWord
  hsprg0 : DWord
  hsprg1 : DWord
  dec : Word
  /-- LPCR[MER], LPCR[RMI], LPCR[HDICE]: the per-thread bits (10_state R64). -/
  lpcrMer : Bool
  lpcrRmi : Bool
  lpcrHdice : Bool
  dabr : DWord
  dabrx : DWord
  accr : DWord
  /-- TSRL[TP] (10_state R71). -/
  tsrlTp : BitVec 2
  /-- PPE_TLB_Index_Hint (21_translation R476). -/
  tlbHint : DWord
  ranges : RangeRegs
  slb : Vector SlbEntry 64
  erat : List EratEntry
  /-- A resume request of the other thread's `mtctrl` (62_platform R2001, R2003). -/
  resumeReq : Bool
  /-- SYSERR_PENDING (60_exceptions R1870, D96). -/
  sysErr : Bool
  /-- An imprecise machine check to be taken, after that many more instruction boundaries (60_exceptions R1809, R1811; log 19). -/
  mcheck : Option Nat
  /-- Trace signals of the scan facility (60_exceptions R1875); zero: no maintenance interrupt. -/
  maint : BitVec 2
  /-- A match of the scan facility on an instruction (60_exceptions R1875): what `Move.scanMatch` gives; zero: none. -/
  maintInstr : BitVec 4
deriving DecidableEq, Repr

/-- What the two threads share (10_state R41, R59 to R78). -/
structure PpeShared where
  tb : DWord
  hdec : Word
  sdr1 : DWord
  lpidr : BitVec 5
  rmor : DWord
  hrmor : DWord
  /-- LPCR[RMLS], LPCR[TL], LPCR[LPES] (10_state R64). -/
  rmls : BitVec 4
  tl : Bool
  lpes : BitVec 2
  /-- CTRL[TE], CTRL[TH], CTRL[RUN] (10_state R69). -/
  te : BitVec 2
  th : BitVec 2
  run : Bool
  tscr : Word
  ttr : DWord
  hid0 : DWord
  hid1 : DWord
  hid4 : DWord
  hid6 : DWord
  /-- PPE_TLB_Index, the last-written PPE_TLB_RPN, PPE_TLB_RMT (21_translation R476, R477; 10_state R78). -/
  tlbIndex : DWord
  tlbRpn : DWord
  tlbRmt : DWord
  /-- The TLB: entries keyed by 4 * class + way, the empty ones not listed (21_translation R458). -/
  tlb : List (Nat × TlbEntry)
  /-- Lines of the instruction cache that may be stale: (real line number, its 128 bytes) (20_memory R430). -/
  icache : List (Nat × Nat)
deriving DecidableEq, Repr

/-! ## The SPEs -/

/-- Which command of an MFC a step performs: an entry of a queue, or the immediate atomic command. -/
inductive MfcSel where
  | spu (k : Nat)
  | proxy (k : Nat)
  | atomic
deriving DecidableEq, Repr

/-- A queued or immediate MFC command (11_state_spe R167, 49_mfc_commands). -/
structure MfcCmd where
  /-- TclassID, RclassID, reserved, opcode: the word written to MFC_Cmd. -/
  word : Word
  lsa : Word
  ea : DWord
  size : BitVec 16
  tag : BitVec 16
  /-- The order of issue in its queue. -/
  order : Nat
  /-- The number of its queue entry, which it keeps (MFC_CER, MFC_DSIPR, MFC_CQ_SR; log 21). -/
  slot : Nat
  /-- List commands: bytes of the list already taken, and the element in transfer (49_mfc_commands R1671). `lsa` is then
  the running LS address. -/
  listDone : Nat
  elem : Option DWord
  /-- The 16-byte units of the transfer that are performed: bit k for unit k (R1647). -/
  units : Nat
  /-- Stopped by a stall-and-notify element (49_mfc_commands R1675). -/
  stalled : Bool
  /-- The dependency bit: waits for MFC_CNTL[R] (21_translation R519). -/
  dep : Bool
deriving DecidableEq, Repr

/-- The state of one SPE (11_state_spe). -/
structure Spe where
  regs : Vector QWord 128
  pc : Word
  fpscr : QWord
  srr0 : Word
  /-- SRR0 before a write of channel 14 that no `syncc` has followed (U59). -/
  srr0Old : Option Word
  ie : Bool
  running : Bool
  ls : List Host.Cell
  lslr : Word
  /-- Prefetched lines that may be stale: (LS line number, its 128 bytes) (70_reset_and_hazards R2092). -/
  ibuf : List (Nat × Nat)
  /-- Channel counts (R159, R161). -/
  cnt : Vector Word 32
  /-- PEND, the pending events, and EMASK (R162). -/
  pend : Word
  emask : Word
  sdec : Word
  sdecRun : Bool
  sig1 : Word
  sig2 : Word
  outMbox : Word
  outIntrMbox : Word
  /-- The four entries of the inbound mailbox, oldest first (R165). -/
  inMbox : Vector Word 4
  /-- MFC command parameters, SPU side (R166). -/
  mfcLsa : Word
  mfcEah : Word
  mfcEal : Word
  mfcSize : BitVec 16
  mfcTag : BitVec 16
  /-- MFC command parameters, proxy side, and which of the five were written since the last MFC_CMDStatus read with
  MFC_ClassID_CMD last (R166, R172, D78). -/
  pxLsa : Word
  pxEah : Word
  pxEal : Word
  pxSizeTag : Word
  pxCmd : Word
  pxSeen : BitVec 5
  /-- The SPU command queue, the proxy queue, the immediate atomic command (R167). -/
  spuQ : List MfcCmd
  pxQ : List MfcCmd
  atomicCmd : Option MfcCmd
  /-- Immediate atomic commands issued while one was pending: each is a command error to be reported (R1631, R1637). -/
  atomicLate : Nat
  /-- The order number of the command that moves first after MFC_CNTL[R] (49_mfc_commands R1640). -/
  resend : Option Nat
  /-- The next order number. -/
  orderNext : Nat
  /-- Tag-group state, SPU side and proxy side (R168). -/
  tagMask : Word
  tagReq : BitVec 2
  tagStat : Word
  stallStat : Word
  atomStat : Word
  pxQueryMask : Word
  pxQueryType : BitVec 2
  /-- LLRES and LLADDR: the number of the reserved 128-byte line (R169). -/
  llres : Option Nat
  /-- MFC_MSSync[P] (R170). -/
  msSync : Bool
  /-- Problem-state and privilege-2 registers (R175 to R180). -/
  runCntl : Word
  status : Word
  npc : Word
  privCntl : DWord
  chnlIndex : DWord
  /-- The entry of channel 29 that the next SPU_ChnlData access uses (R178). -/
  chnlWalk : BitVec 2
  cfg : DWord
  /-- MFC_CNTL[Sc] (set also by an exception with "DMAC suspends", 21_translation R519), [Sm], [Dh], and [Ps] = '11'
  (R180). -/
  sc : Bool
  sm : Bool
  dh : Bool
  purged : Bool
  /-- Command processing is halted by a command error (49_mfc_commands R1639). -/
  halted : Bool
  /-- A translation exception is outstanding: MFC_DSISR and MFC_DAR are locked (21_translation R519, R520). -/
  smmBusy : Bool
  /-- MFC_DSIPR is locked (R520). -/
  dsiprLocked : Bool
  sr1 : DWord
  /-- INT_Mask_class0/1/2, INT_Stat_class0/1/2 (R182). -/
  intMask : Vector DWord 3
  intStat : Vector DWord 3
  /-- A held interrupt packet of each class (61_spe_iic_interrupts R1915, R1926). -/
  held : Vector (Option Packet) 3
  slb : Vector SlbEntry 8
  slbIndex : BitVec 3
  /-- The SMM TLB: entries keyed by 4 * class + way (21_translation R505). -/
  tlb : List (Nat × TlbEntry)
  /-- Broadcast `tlbie`s that this translation unit has not performed yet, oldest first (21_translation R480, R517). -/
  snoops : List Snoop
  /-- Accepted inbound writes to the local storage whose data has not all arrived, oldest first: the snoop-write queue
  (20_memory R418). -/
  snoopQ : List IoWrite
  tlbIndex : DWord
  tlbRpn : DWord
  tlbHint : DWord
  /-- The registers that are plain storage, by their offset in the SPE's areas (Mmio.lean lists them); unlisted ones are 0. -/
  cells : List (Nat × DWord)
deriving DecidableEq, Repr

/-! ## The platform -/

/-- An entry of the queue of pending interrupts of a thread (12_state_platform R268, 61_spe_iic_interrupts R1902). -/
structure IicEntry where
  valid : Bool
  cls : BitVec 2
  srcNode : BitVec 4
  src : BitVec 4
deriving DecidableEq, Repr

/-- No pending interrupt. -/
def IicEntry.empty : IicEntry := { valid := false, cls := 0, srcNode := 0, src := 0 }

/-- The controller of one thread (12_state_platform R261 to R268). -/
structure Iic where
  queue : Vector IicEntry 16
  /-- IGP_PEND, bit i for priority i (numbered from the left). -/
  igp : BitVec 16
  /-- IIC_CPL bits 56:60. -/
  cpl : BitVec 5
deriving DecidableEq, Repr

/-- A cached IOPT entry (12_state_platform R275): valid, H, tag, and the entry. -/
structure IoptCacheEntry where
  valid : Bool
  h : Bool
  tag : BitVec 33
  entry : DWord
deriving DecidableEq, Repr

/-- An empty IOPT cache entry. -/
def IoptCacheEntry.empty : IoptCacheEntry := { valid := false, h := false, tag := 0, entry := 0 }

/-- The units outside the PPE and the SPEs (12_state_platform). -/
structure Platform where
  iic : Vector Iic 2
  irr : DWord
  isr : DWord
  /-- The class-1 packets of IIC_ISR that wait for a queue entry, oldest first (D100). -/
  isrHeld : List Packet
  /-- Packets of the IOIFs that got a retry (61_spe_iic_interrupts R1915). -/
  ioHeld : List Packet
  /-- Accepted inbound writes to main storage whose data has not all been written, oldest first, and the number of the next
  inbound write (20_memory R388; log 30). -/
  ioWrites : List IoWrite
  ioNext : Nat
  /-- IOST cache: doublewords by index, and IOPT cache entries by 4 * class + way (12_state_platform R274, R275). -/
  iostCache : List (Nat × DWord)
  ioptCache : List (Nat × IoptCacheEntry)
  /-- IOC_IOPT_Cache, the staging register. -/
  ioptStage : DWord
  /-- Loads of the IOPT cache on their way, oldest first: key and entry (21_translation R532). -/
  ioptLoad : List (Nat × IoptCacheEntry)
  /-- IOC_IOPT_Cache holds a value that a store of software put there for a store to the cache directory; and
  IOC_IOPT_CacheInvd was stored to between the two (21_translation R533). -/
  ioptArmed : Bool
  ioptSpoiled : Bool
  /-- The TBEN input (62_platform R1990). -/
  tben : Bool
  /-- The trace array of the performance monitor, 1024 entries of 128 bits; nothing reads or writes it (12_state_platform
  R310, D45). -/
  pmTrace : List (Nat × QWord)
  /-- The current and the maximum code of every sensor (12_state_platform R307, U31). -/
  temps : Vector (BitVec 6) 10
  maxTemps : Vector (BitVec 6) 10
  /-- The frequency the pervasive logic is changing to, if a change is in progress (62_platform R2020). -/
  slowTarget : Option (BitVec 3)
  /-- The registers that are plain storage, by their offset in the MMIO block (Mmio.lean lists them); unlisted ones are 0. -/
  cells : List (Nat × DWord)
deriving DecidableEq, Repr

/-! ## The machine -/

/-- The machine. -/
structure State where
  threads : Vector Thread 2
  ppe : PpeShared
  spes : Vector Spe 8
  plat : Platform
  /-- Main storage (20_memory R373), in canonical form. -/
  mem : List Host.Cell
  cfg : ChipConfig
  /-- The model's own: the agent whose step it is, the moves to come (log 1), the index of the next free value (log 5). -/
  cur : Agent
  /-- The command that the moving MFC performs (log 1). -/
  sel : MfcSel
  schedule : List Move
  freeCount : Nat
  /-- The checkstop or the stopped state of a thermal overload (60_exceptions R1890, U75): only a power-on reset leaves it. -/
  stopped : Option Fault
deriving DecidableEq, Repr

/-! ## Reset -/

/-- The MSR at reset: SF, HV, and ME as the chip is configured (10_state R84, D30); the other bits are 0, VXU among them
(log 2). -/
def resetMsr (me : Bool) : DWord := 0x9000000000000000 ||| (if me then 0x1000 else 0)

/-- Address-range registers at reset (log 2). -/
def RangeRegs.reset : RangeRegs :=
  { drsr0 := 0, drmr0 := 0, dcidr0 := 0, drsr1 := 0, drmr1 := 0, dcidr1 := 0, irsr0 := 0, irmr0 := 0, icidr0 := 0,
    irsr1 := 0, irmr1 := 0, icidr1 := 0 }

/-- A thread at reset (10_state R84; values the spec leaves open: log 2). -/
def Thread.reset (pc srr1 : DWord) (me : Bool) : Thread :=
  { pc := pc, gpr := Vector.replicate 32 0, fpr := Vector.replicate 32 0, vr := Vector.replicate 32 0, lr := 0, ctr := 0,
    xer := 0, cr := 0, fpscr := 0, vscr := 0, vrsave := 0, reserve := none, msr := resetMsr me, srr0 := 0, srr1 := srr1,
    hsrr0 := 0, hsrr1 := 0, dsisr := 0, dar := 0, sprg0 := 0, sprg1 := 0, sprg2 := 0, sprg3 := 0, hsprg0 := 0, hsprg1 := 0,
    dec := 0x7FFFFFFF, lpcrMer := false, lpcrRmi := false, lpcrHdice := false, dabr := 0, dabrx := 0, accr := 0,
    tsrlTp := 0b11, tlbHint := 0, ranges := RangeRegs.reset, slb := Vector.replicate 64 SlbEntry.empty, erat := [],
    resumeReq := false, sysErr := false, mcheck := none, maint := 0, maintInstr := 0 }

/-- The shared PPE registers at reset (10_state R84, D31, D32; CTRL[TH], CTRL[RUN] and the other fields of TSCR: log 2). -/
def PpeShared.reset (thread1 : Bool) : PpeShared :=
  { tb := 0, hdec := 0x7FFFFFFF, sdr1 := 0, lpidr := 0, rmor := 0, hrmor := 0, rmls := 0, tl := false, lpes := 0, te := if thread1 then 0b11 else 0b10,
    th := 0, run := false, tscr := 0, ttr := 0, hid0 := 0, hid1 := 0, hid4 := 0, hid6 := 0, tlbIndex := 0, tlbRpn := 0,
    tlbRmt := 0, tlb := [], icache := [] }

/-- The channel counts at reset (11_state_spe R161, R190): the nonblocking channels count 1. -/
def resetCounts : Vector Word 32 :=
  #v[0, 1, 1, 0, 0, 0, 0, 1, 1, 1, 0, 1, 1, 1, 1, 1, 1, 1, 1, 1, 1, 16, 1, 1, 0, 0, 1, 0, 1, 0, 1, 0]

/-- An SPE at reset (11_state_spe R190); MFC_TClassID has the default IQ0 = 16 (R182, 49_mfc_commands R1694). -/
def Spe.reset : Spe :=
  { regs := Vector.replicate 128 0, pc := 0, fpscr := 0, srr0 := 0, srr0Old := none, ie := false, running := false, ls := [],
    lslr := 0x3FFFF, ibuf := [], cnt := resetCounts, pend := 0, emask := 0, sdec := 0, sdecRun := false, sig1 := 0, sig2 := 0,
    outMbox := 0, outIntrMbox := 0, inMbox := Vector.replicate 4 0, mfcLsa := 0, mfcEah := 0, mfcEal := 0, mfcSize := 0,
    mfcTag := 0, pxLsa := 0, pxEah := 0, pxEal := 0, pxSizeTag := 0, pxCmd := 0, pxSeen := 0, spuQ := [], pxQ := [],
    atomicCmd := none, atomicLate := 0, resend := none, orderNext := 0, tagMask := 0, tagReq := 0, tagStat := 0, stallStat := 0, atomStat := 0,
    pxQueryMask := 0, pxQueryType := 0, llres := none, msSync := false, runCntl := 0, status := 0, npc := 0, privCntl := 0,
    chnlIndex := 0, chnlWalk := 0, cfg := 0, sc := false, sm := false, dh := false, purged := false, halted := false,
    smmBusy := false, dsiprLocked := false, sr1 := 0, intMask := Vector.replicate 3 0, intStat := Vector.replicate 3 0,
    held := Vector.replicate 3 none, slb := Vector.replicate 8 SlbEntry.empty, slbIndex := 0, tlb := [], snoops := [], snoopQ := [],
    tlbIndex := 0, tlbRpn := 0, tlbHint := 0, cells := [(0x80820, 0x10000000)] }

/-- The interrupt controller of a thread at reset: everything masked (12_state_platform R325). -/
def Iic.reset : Iic := { queue := Vector.replicate 16 IicEntry.empty, igp := 0, cpl := 0 }

/-- The offset of EIB_AC0_CTL, the one stored platform register that does not reset to 0 (12_state_platform R280, R325). -/
def offEibAc0Ctl : Nat := 0x511800

/-- The offset of IOC_BaseAddr0; IOC_BaseAddrMask0, IOC_BaseAddr1 and IOC_BaseAddrMask1 follow (12_state_platform R272). -/
def offIocBaseAddr0 : Nat := 0x511C08

/-- The implemented bits of IOC_BaseAddrn (22:32, 53:63) and of IOC_BaseAddrMaskn (0, 22:32) (12_state_platform R272). -/
def iocBaseBits : DWord := 0x3FF800007FF
def iocMaskBits : DWord := 0x800003FF80000000

/-- A register among the cells, which a zero leaves unlisted. -/
def resetCell (off : Nat) (v : DWord) : List (Nat × DWord) := if v = 0 then [] else [(off, v)]

/-- The platform at reset (12_state_platform R325, D46): EIB_AC0_CTL[13:15] = '110'; the address registers of the IOC as the
configuration ring loads them (R320). TBEN is high (62_platform R1990), and every other stored register is 0, those of the PPE
privilege area (L2, CIU, NCU, BIU) too, for which no rule states a value: DESIGN CHOICE (log 2). -/
def Platform.reset (c : ChipConfig) : Platform :=
  { iic := Vector.replicate 2 Iic.reset, irr := 0, isr := 0, isrHeld := [], ioHeld := [], ioWrites := [], ioNext := 0, iostCache := [], ioptCache := [],
    ioptStage := 0, ioptLoad := [], ioptArmed := false, ioptSpoiled := false, tben := true, pmTrace := [],
    temps := Vector.replicate 10 0, maxTemps := Vector.replicate 10 0, slowTarget := none,
    cells := (offEibAc0Ctl, 0x0006000000000000) :: (resetCell offIocBaseAddr0 (c.iocBaseAddr0 &&& iocBaseBits) ++
      resetCell (offIocBaseAddr0 + 8) (c.iocBaseAddrMask0 &&& iocMaskBits) ++
      resetCell (offIocBaseAddr0 + 16) (c.iocBaseAddr1 &&& iocBaseBits) ++
      resetCell (offIocBaseAddr0 + 24) (c.iocBaseAddrMask1 &&& iocMaskBits)) }

/-- The bits of the system reset vector that the configuration ring gives: bits 0:21 and 62:63 are 0 (60_exceptions R1810,
70_reset_and_hazards R2062). -/
def resetVectorMask : DWord := 0x3FFFFFFFFFC

/-- SRR1[42:44] = '101' (70_reset_and_hazards R2062). -/
def resetSrr1 : DWord := 0x0000000000280000

/-- The machine after power-on reset of a chip with parameters `c`: thread 0 at the system reset vector, thread 1 suspended or
at x'100', the SPEs stopped (10_state R84, 11_state_spe R190, 12_state_platform R325, 70_reset_and_hazards R2063), before the image is loaded (R2067: `State.powerOn`). -/
def State.resetOf (c : ChipConfig) : State :=
  { threads := #v[Thread.reset (c.sysresetVector &&& resetVectorMask) resetSrr1 c.porMe,
      Thread.reset 0x100 (if c.thread1EnabledAtPor then resetSrr1 else 0) c.porMe],
    ppe := PpeShared.reset c.thread1EnabledAtPor, spes := Vector.replicate 8 Spe.reset, plat := Platform.reset c,
    mem := [], cfg := c, cur := .ppe 0, sel := .atomic, schedule := [], freeCount := 0, stopped := none }

/-- The machine right after power-on reset. -/
def State.reset : State := State.resetOf ChipConfig.standard

end Sys2Proof.Machine
end

