-- ==== Sys2Proof/Machine/Ops.lean ====
section
/-! DEFINITION. The named operations over registers and memory that every meaning is written with. -/

namespace Sys2Proof.Machine

/-! ## Sparse storage in canonical form

A list of (key, value) pairs, keys strictly rising, no pair with the default value. -/

/-- The value at a key. -/
def sget {α : Type} (d : α) : List (Nat × α) → Nat → α
  | [], _ => d
  | (j, v) :: rest, k => if j = k then v else if k < j then d else sget d rest k

/-- Store a value at a key; storing the default removes the pair. -/
def sput {α : Type} [DecidableEq α] (d : α) : List (Nat × α) → Nat → α → List (Nat × α)
  | [], k, v => if v = d then [] else [(k, v)]
  | (j, u) :: rest, k, v =>
    if k < j then (if v = d then (j, u) :: rest else (k, v) :: (j, u) :: rest)
    else if k = j then (if v = d then rest else (k, v) :: rest)
    else (j, u) :: sput d rest k v

/-- Every key of the list is above `k`, keys rise, and no value is the default. -/
def swfFrom {α : Type} [DecidableEq α] (d : α) : Nat → List (Nat × α) → Bool
  | _, [] => true
  | k, (j, v) :: rest => decide (k ≤ j) && !(decide (v = d)) && swfFrom d (j + 1) rest

/-- The canonical form. -/
def swf {α : Type} [DecidableEq α] (d : α) (l : List (Nat × α)) : Bool := swfFrom d 0 l

/-! ## Bytes of a memory -/

/-- What a byte that nothing has written reads as (DESIGN CHOICE, log 4). -/
def unwritten : Byte := 0

/-- The canonical form of a memory. -/
def Memory.wf (m : List Host.Cell) : Bool := swf unwritten m

/-- One byte. -/
def readByte (m : List Host.Cell) (a : Nat) : Byte := sget unwritten m a

/-- Store one byte. -/
def writeByte (m : List Host.Cell) (a : Nat) (b : Byte) : List Host.Cell := sput unwritten m a b

/-- The big-endian value of `k` bytes from `a` on (20_memory R344, R345). -/
def readBytes (m : List Host.Cell) (a : Nat) : Nat → Nat
  | 0 => 0
  | k + 1 => readBytes m a k * 256 + (readByte m (a + k)).toNat

/-- Store the `k` low bytes of `v` from `a` on, big-endian. -/
def writeBytes (m : List Host.Cell) (a : Nat) (v : Nat) : Nat → List Host.Cell
  | 0 => m
  | k + 1 => writeByte (writeBytes m a (v / 256) k) (a + k) (BitVec.ofNat 8 v)

/-! ## Whose registers -/

/-- The thread of the agent that moves (thread 0 when no thread moves). -/
def State.curT (s : State) : Fin 2 :=
  match s.cur with
  | .ppe t => t
  | .spu _ => 0
  | .mfc _ => 0

/-- The SPE of the agent that moves (SPE 0 when no SPE moves). -/
def State.curN (s : State) : Fin 8 :=
  match s.cur with
  | .ppe _ => 0
  | .spu n => n
  | .mfc n => n

/-- The registers of the moving thread. -/
def State.thr (s : State) : Thread := s.threads[s.curT]

/-- Change the registers of thread `t`. -/
def State.modT (s : State) (t : Fin 2) (f : Thread → Thread) : State :=
  { s with threads := s.threads.set t (f s.threads[t]) }

/-- Change the registers of the moving thread. -/
def State.modThr (s : State) (f : Thread → Thread) : State := s.modT s.curT f

/-- The moving SPE. -/
def State.spe (s : State) : Spe := s.spes[s.curN]

/-- Change SPE `n`. -/
def State.modN (s : State) (n : Fin 8) (f : Spe → Spe) : State :=
  { s with spes := s.spes.set n (f s.spes[n]) }

/-- Change the moving SPE. -/
def State.modSpe (s : State) (f : Spe → Spe) : State := s.modN s.curN f

/-- The `k`-th free value from here on, `w` bits (log 5). -/
def State.free (s : State) (w k : Nat) : BitVec w := Config.free w (s.freeCount + k)

/-- Move past `k` free values. -/
def State.drew (s : State) (k : Nat) : State := { s with freeCount := s.freeCount + k }

/-- The machine reaches the checkstop, or stops its clocks: `State.advanceMachine` does nothing more until a power-on reset
(60_exceptions R1890, U75). -/
def State.stopWith (s : State) (f : Fault) : Out State := .next { s with stopped := some f }

/-- The checkstop. -/
def State.checkstop (s : State) : Out State := s.stopWith .checkstop

/-! ## PPE registers -/

/-- GPR r (10_state R42). -/
def Thread.getGpr (th : Thread) (r : BitVec 5) : DWord := th.gpr[r.toNat]'r.isLt
/-- Write GPR r. -/
def Thread.setGpr (th : Thread) (r : BitVec 5) (v : DWord) : Thread :=
  { th with gpr := th.gpr.set r.toNat v r.isLt }
/-- FPR r (10_state R43). -/
def Thread.getFpr (th : Thread) (r : BitVec 5) : DWord := th.fpr[r.toNat]'r.isLt
/-- Write FPR r. -/
def Thread.setFpr (th : Thread) (r : BitVec 5) (v : DWord) : Thread :=
  { th with fpr := th.fpr.set r.toNat v r.isLt }
/-- VR r (10_state R44). -/
def Thread.getVr (th : Thread) (r : BitVec 5) : QWord := th.vr[r.toNat]'r.isLt
/-- Write VR r. -/
def Thread.setVr (th : Thread) (r : BitVec 5) (v : QWord) : Thread :=
  { th with vr := th.vr.set r.toNat v r.isLt }

/-! ## Taking an interrupt, and returning (60_exceptions section 2) -/

/-- The interrupts of Table 9-3 (60_exceptions R1804). -/
inductive Interrupt where
  | systemReset
  | machineCheck (precise : Bool)
  | dataStorage
  | dataSegment
  | instStorage
  | instSegment
  | external
  | alignment
  | program
  | fpUnavailable
  | decrementer
  | hypervisorDecrementer
  | systemCall (lev : Bool)
  | trace
  | vxuUnavailable
  | systemError
  | maintenance
  | thermal
deriving DecidableEq, Repr

/-- HID0[extr_hsrr], bit 25 (10_state R74; the position is the model's, log 8). -/
def PpeShared.extrHsrr (p : PpeShared) : Bool := ibit p.hid0 25
/-- LPCR[LPES] bit 0. -/
def PpeShared.lpes0 (p : PpeShared) : Bool := ibit p.lpes 0
/-- LPCR[LPES] bit 1. -/
def PpeShared.lpes1 (p : PpeShared) : Bool := ibit p.lpes 1

/-- Whether HSRR0 and HSRR1 are the save pair (R1802). -/
def usesHsrr (p : PpeShared) : Interrupt → Bool
  | .hypervisorDecrementer => true
  | .systemError => true
  | .maintenance => true
  | .thermal => true
  | .external => !p.lpes0 && p.extrHsrr
  | _ => false

/-- The vector (R1804); `sreset` is that of a system reset. -/
def vectorOf (sreset : DWord) : Interrupt → DWord
  | .systemReset => sreset
  | .machineCheck _ => 0x200
  | .dataStorage => 0x300
  | .dataSegment => 0x380
  | .instStorage => 0x400
  | .instSegment => 0x480
  | .external => 0x500
  | .alignment => 0x600
  | .program => 0x700
  | .fpUnavailable => 0x800
  | .decrementer => 0x900
  | .hypervisorDecrementer => 0x980
  | .systemCall _ => 0xC00
  | .trace => 0xD00
  | .vxuUnavailable => 0xF20
  | .systemError => 0x1200
  | .maintenance => 0x1600
  | .thermal => 0x1800

/-- Whether MSR[HV] becomes 1 (R1805, columns 1, m, e and s). -/
def setsHv (p : PpeShared) : Interrupt → Bool
  | .systemReset => true
  | .machineCheck _ => true
  | .hypervisorDecrementer => true
  | .systemError => true
  | .maintenance => true
  | .thermal => true
  | .external => !p.lpes0
  | .systemCall lev => lev || (!p.lpes0 && !p.lpes1)
  | _ => !p.lpes0 && !p.lpes1

/-- Whether the interrupt clears MSR[ME] (R1805). -/
def clearsMe : Interrupt → Bool
  | .machineCheck _ => true
  | _ => false

/-- The MSR after an interrupt (R1805): BE, EE, FE0, FE1, FP, PR, SE, DR, IR cleared, SF set; HV, ME, RI by the interrupt. -/
def newMsr (p : PpeShared) (k : Interrupt) (m : DWord) : DWord :=
  let n := (m ||| 0x8000000000000000#64) &&& ~~~0xEF30#64
  let n := setIbit n 3 (ibit m 3 || setsHv p k)
  let n := if clearsMe k then setIbit n 51 false else n
  if usesHsrr p k then n else setIbit n 62 false

/-- The bits of the saved MSR image that do not copy the MSR: 33:36 and 42:47, more for the thermal and maintenance
interrupts (R1880, R1875), bit 62 for an imprecise machine check (R1811). -/
def infoMask : Interrupt → DWord
  | .thermal => 0x7FFF0000
  | .maintenance => 0x7DFF0000
  | .machineCheck precise => if precise then 0x783F0000 else 0x783F0002
  | _ => 0x783F0000

/-- The saved MSR image (R1801). -/
def savedMsr (k : Interrupt) (m info : DWord) : DWord := (m &&& ~~~infoMask k) ||| info

/-- The system reset vector of a thread (R1810); HID1[dis_sysrst_reg] is bit 9 (log 8). -/
def State.sresetVector (s : State) (t : Fin 2) : DWord :=
  if t = 1 ∨ ibit s.ppe.hid1 9 then 0x100 else s.cfg.sysresetVector &&& resetVectorMask

/-- TAKING AN INTERRUPT (R1801): thread `t` saves the return address and its MSR with the interrupt's information bits in
its save pair, the MSR changes, and the thread goes to the vector. -/
def State.interrupt (s : State) (t : Fin 2) (k : Interrupt) (ret info : DWord) : State :=
  s.modT t fun th =>
    let saved := savedMsr k th.msr info
    let th := if usesHsrr s.ppe k then { th with hsrr0 := ret, hsrr1 := saved } else { th with srr0 := ret, srr1 := saved }
    { th with msr := newMsr s.ppe k th.msr, pc := vectorOf (s.sresetVector t) k }

/-- An interrupt of the moving thread that returns to the instruction itself. -/
def State.raise (s : State) (k : Interrupt) (info : DWord) : Out State :=
  .next (s.interrupt s.curT k s.thr.pc info)

/-- Program interrupt, illegal-instruction type: SRR1[44] (R1828). -/
def State.illegal (s : State) : Out State := s.raise .program 0x80000
/-- Program interrupt, privileged-instruction type: SRR1[45] (R1828). -/
def State.privileged (s : State) : Out State := s.raise .program 0x40000
/-- Program interrupt, trap type: SRR1[46] (R1828). -/
def State.trapInt (s : State) : Out State := s.raise .program 0x20000
/-- Program interrupt, floating-point enabled exception type: SRR1[43] (R1828). -/
def State.fpEnabledInt (s : State) : Out State := s.raise .program 0x100000
/-- Floating-point unavailable interrupt (R1829). -/
def State.fpUnavailable (s : State) : Out State := s.raise .fpUnavailable 0
/-- VXU unavailable interrupt (R1835). -/
def State.vxuUnavailable (s : State) : Out State := s.raise .vxuUnavailable 0

/-- The pending imprecise machine check of thread `t` is taken (R1811); with MSR[ME] = 0 it is a checkstop. -/
def State.takeMachineCheck (s : State) (t : Fin 2) : Out State :=
  if !ibit s.threads[t].msr 51 then s.checkstop
  else .next ((s.modT t fun th => { th with mcheck := none }).interrupt t (.machineCheck false) s.threads[t].pc 0)

/-- The defined bits of the MSR (10_state R54); the others read 0. -/
def msrMask : DWord := 0x900000000200FF32

/-- The MSR that an image gives: PR = 1 forces EE, IR and DR (44_ppe_system R923, R928). -/
def msrOf (image : DWord) : DWord :=
  let m := image &&& msrMask
  if ibit m 49 then m ||| 0x8030 else m

/-- RETURNING FROM AN INTERRUPT: `rfid` (44_ppe_system R923) and, with `hyper`, `hrfid` (R924). -/
def Thread.returnFrom (th : Thread) (hyper : Bool) : Thread :=
  let image := (if hyper then th.hsrr1 else th.srr1) &&& ~~~0x783F0000#64
  let m := msrOf image
  let m := if ibit th.msr 3 then m else setIbit (setIbit m 3 false) 51 (ibit th.msr 51)
  let a := (if hyper then th.hsrr0 else th.srr0) &&& ~~~3#64
  { th with msr := m, pc := if ibit m 0 then a else a &&& 0xFFFFFFFF#64 }

/-! ## PPE instructions -/

/-- Move to the next sequential instruction; in 32-bit mode the upper word is 0 (40_ppe_branch: NIA := pc + 4; R45). -/
def Thread.advance (th : Thread) : Thread :=
  { th with pc := if ibit th.msr 0 then th.pc + 4 else (th.pc + 4) &&& 0xFFFFFFFF#64 }

/-- An instruction of the moving thread that only changes its registers and goes on at the next address. -/
def ppeNext (s : State) (f : Thread → Thread) : Out State :=
  .next (s.modThr fun th => (f th).advance)

/-- A vector instruction that only changes registers: MSR[VXU] is tested first (45_ppe_vmx_1 R1000). -/
def vmxNext (s : State) (f : Thread → Thread) : Out State :=
  if ibit s.thr.msr 38 then ppeNext s f else s.vxuUnavailable

/-- A floating-point instruction: MSR[FP] is tested first (60_exceptions R1829). -/
def fpGuard (s : State) (o : Out State) : Out State :=
  if ibit s.thr.msr 50 then o else s.fpUnavailable

/-- A privileged instruction (44_ppe_system R920). -/
def supervisor (s : State) (o : Out State) : Out State :=
  if ibit s.thr.msr 49 then s.privileged else o

/-- A hypervisor instruction (44_ppe_system R920, 62_platform R1973). -/
def hypervisorOnly (s : State) (o : Out State) : Out State :=
  if ibit s.thr.msr 49 || !ibit s.thr.msr 3 then s.privileged else o

/-- A TLB-management instruction or register: outside hypervisor state a privileged instruction in problem state, an illegal
one otherwise (21_translation R476; 90_conflicts C47). -/
def tlbManager (s : State) (o : Out State) : Out State :=
  if ibit s.thr.msr 49 then s.privileged else if !ibit s.thr.msr 3 then s.illegal else o

/-- An instruction that wrote the MSR, leaving `s'`: with FE0 or FE1 on and FPSCR[FEX] = 1 the floating-point enabled program
interrupt follows, at the instruction itself (60_exceptions R1806 F.1, R1828; log 24). -/
def State.msrWritten (s s' : State) : Out State :=
  if (ibit s'.thr.msr 52 || ibit s'.thr.msr 55) && ibit s'.thr.fpscr 1 then
    .next (s'.interrupt s'.curT .program s.thr.pc 0x100000)
  else .next s'

/-! ## Accesses that may end an instruction -/

/-- The result of a part of an instruction: a value and the state to go on with, or the answer that ends the step. -/
inductive Res (α : Type) where
  | ok (v : α) (s : State)
  | stop (o : Out State)

/-- Go on with the value. -/
def Res.bind {α β : Type} (r : Res α) (f : α → State → Res β) : Res β :=
  match r with
  | .ok v s => f v s
  | .stop o => o |> .stop

/-- End the instruction with the value. -/
def Res.done {α : Type} (r : Res α) (f : α → State → Out State) : Out State :=
  match r with
  | .ok v s => f v s
  | .stop o => o

/-- Run `f` over a list, threading the state. -/
def Res.forEach {α : Type} (f : α → State → Res Unit) : List α → State → Res Unit
  | [], s => .ok () s
  | a :: rest, s => (f a s).bind fun _ s => Res.forEach f rest s

/-! ## SPU registers -/

/-- R[r] (11_state_spe R150). -/
def Spe.get (p : Spe) (r : BitVec 7) : QWord := p.regs[r.toNat]'r.isLt
/-- Write R[r]. -/
def Spe.set (p : Spe) (r : BitVec 7) (v : QWord) : Spe := { p with regs := p.regs.set r.toNat v r.isLt }
/-- The preferred slot of R[r] (11_state_spe R151). -/
def Spe.pref (p : Spe) (r : BitVec 7) : Word := ibm (p.get r) 0 32
/-- The next sequential address, wrapped to the local-storage size (11_state_spe R152). -/
def Spe.nextPc (p : Spe) : Word := (p.pc + 4) &&& p.lslr
/-- Move to the next sequential instruction. -/
def Spe.advance (p : Spe) : Spe := { p with pc := p.nextPc }

/-- An instruction of the moving SPU that only changes the SPE's registers and goes on at the next address. -/
def spuNext (s : State) (f : Spe → Spe) : Out State := .next (s.modSpe fun p => (f p).advance)

/-! ## SPU events and reservations -/

/-- `raise(e)`: the event of bit `b` becomes pending, and channel 0 counts it if it is enabled
(49_spe_mailbox_signal_event R1761, D83). -/
def Spe.raiseEvent (p : Spe) (b : Nat) : Spe :=
  if ibit p.pend b then p
  else
    let p := { p with pend := setIbit p.pend b true }
    if ibit p.emask b then { p with cnt := p.cnt.set 0 1 } else p

/-- SPE `p` loses its lock-line reservation on `granule` to an agent outside it: event Lr (R1776). -/
def Spe.loseLine (p : Spe) (granule : Nat) : Spe :=
  if p.llres = some granule then { p with llres := none }.raiseEvent 21 else p

/-- SPE `p` itself stores to `granule`: the reservation goes, without the event. 20_memory R424 and D54 say so of `putlluc` and
`putqlluc`; that its plain `put`, and its `sdcrz`, do the same is a DESIGN CHOICE (log 31). -/
def Spe.dropLine (p : Spe) (granule : Nat) : Spe :=
  if p.llres = some granule then { p with llres := none } else p

/-- Thread `th` loses its reservation on `granule` (20_memory R421). -/
def Thread.loseReserve (th : Thread) (granule : Nat) : Thread :=
  if th.reserve = some granule then { th with reserve := none } else th

/-- Whether `by_` is an agent of SPE `n`. -/
def Agent.isSpe (a : Option Agent) (n : Fin 8) : Bool :=
  match a with
  | some (.spu m) => decide (m = n)
  | some (.mfc m) => decide (m = n)
  | _ => false

/-- Reservations after `by_` (none: an I/O device) stored into the 128-byte granule `g` of main storage or of an IOIF (20_memory R421,
R424, R1776): every other holder loses it; a thread's own store may clear its own (a draw, D53); for an SPE's own plain store see
`Spe.dropLine` (log 31). -/
def State.noteStore (s : State) (by_ : Option Agent) (g : Nat) : State :=
  let own (t : Fin 2) : Bool := decide (by_ = some (.ppe t))
  let own (t : Fin 2) : Bool := own t && decide (s.threads[t].reserve = some g)
  let th (t : Fin 2) : Thread := if own t && decide (s.free 1 0 ≠ 1) then s.threads[t] else s.threads[t].loseReserve g
  let drawn := own 0 || own 1
  { s with
    threads := #v[th 0, th 1]
    spes := Vector.ofFn fun n => if Agent.isSpe by_ n then s.spes[n].dropLine g else s.spes[n].loseLine g
    freeCount := s.freeCount + (if drawn then 1 else 0) }

/-- Reservations after `by_` stored `k` bytes, at most 128, at real address `a`: both granules that they reach are noted. -/
def State.noteStores (s : State) (by_ : Option Agent) (a : Nat) (k : Nat) : State :=
  let s := s.noteStore by_ (a / 128)
  if (a + k - 1) / 128 = a / 128 then s else s.noteStore by_ ((a + k - 1) / 128)

/-- Store the `k` low bytes of `v` at real address `a` of main storage, in at most 128 bytes. -/
def State.storeMem (s : State) (by_ : Option Agent) (a : Nat) (k : Nat) (v : Nat) : State :=
  ({ s with mem := writeBytes s.mem a v k }).noteStores by_ a k

end Sys2Proof.Machine
end

