-- ==== Sys2Proof/Machine/Flags.lean ====
section
/-! DEFINITION. Status bits: XER, CR, MSR and VSCR of a PPE thread (10_state R48, R49, R51, R54; 42_ppe_integer R740;
30_encoding R548). The FPSCRs are in FloatFlags.lean. -/

namespace Sys2Proof.Machine

/-! ## MSR (10_state R54) -/

/-- MSR[SF]: 64-bit mode. -/
def Thread.sf (th : Thread) : Bool := ibit th.msr 0
/-- MSR[HV]. -/
def Thread.hv (th : Thread) : Bool := ibit th.msr 3
/-- MSR[VXU]. -/
def Thread.vxu (th : Thread) : Bool := ibit th.msr 38
/-- MSR[EE]. -/
def Thread.ee (th : Thread) : Bool := ibit th.msr 48
/-- MSR[PR]. -/
def Thread.pr (th : Thread) : Bool := ibit th.msr 49
/-- MSR[FP]. -/
def Thread.fp (th : Thread) : Bool := ibit th.msr 50
/-- MSR[ME]. -/
def Thread.me (th : Thread) : Bool := ibit th.msr 51
/-- MSR[FE0] or MSR[FE1]: every enabled mode is precise (10_state R54, D21). -/
def Thread.fpExcMode (th : Thread) : Bool := ibit th.msr 52 || ibit th.msr 55
/-- MSR[SE]. -/
def Thread.se (th : Thread) : Bool := ibit th.msr 53
/-- MSR[BE]. -/
def Thread.be (th : Thread) : Bool := ibit th.msr 54
/-- MSR[IR]. -/
def Thread.ir (th : Thread) : Bool := ibit th.msr 58
/-- MSR[DR]. -/
def Thread.dr (th : Thread) : Bool := ibit th.msr 59
/-- Hypervisor state: HV = 1 and PR = 0. -/
def Thread.hypervisor (th : Thread) : Bool := th.hv && !th.pr

/-- The mode width m of 42_ppe_integer R740. -/
def Thread.width (th : Thread) : Nat := if th.sf then 64 else 32

/-! ## XER (10_state R48) -/

/-- XER[SO]. -/
def Thread.so (th : Thread) : Bool := ibit th.xer 32
/-- XER[CA]. -/
def Thread.ca (th : Thread) : Bool := ibit th.xer 34
/-- The byte count XER[57:63]. -/
def Thread.xerCount (th : Thread) : Nat := (ibm th.xer 57 7).toNat
/-- Set XER[CA]. -/
def Thread.setCa (th : Thread) (c : Bool) : Thread := { th with xer := setIbit th.xer 34 c }
/-- Set XER[OV], and XER[SO] if it is set. -/
def Thread.setOv (th : Thread) (o : Bool) : Thread :=
  { th with xer := setIbit (setIbit th.xer 33 o) 32 (th.so || o) }

/-- `carry_m(x, y, c)` (R740). -/
def carryOut (m : Nat) (x y : DWord) (c : Bool) : Bool :=
  decide (2^m ≤ x.toNat % 2^m + y.toNat % 2^m + c.toNat)

/-- The low `m` bits as a signed value. -/
def signedLow (m : Nat) (x : DWord) : Int := (x.setWidth m).toInt

/-- `ovf_m(x, y, c)` (R740): the exact signed sum of the low `m` bits does not fit. -/
def overflowOut (m : Nat) (x y : DWord) (c : Bool) : Bool :=
  let t := signedLow m x + signedLow m y + (c.toNat : Int)
  decide (t < -2^(m - 1)) || decide (2^(m - 1) ≤ t)

/-! ## CR (10_state R49) -/

/-- CR bit k. -/
def Thread.crBit (th : Thread) (k : BitVec 5) : Bool := ibit th.cr k.toNat
/-- Set CR bit k. -/
def Thread.setCrBit (th : Thread) (k : BitVec 5) (b : Bool) : Thread := { th with cr := setIbit th.cr k.toNat b }
/-- CR field k. -/
def Thread.crField (th : Thread) (k : BitVec 3) : BitVec 4 := ibm th.cr (4 * k.toNat) 4
/-- Set CR field k. -/
def Thread.setCrField (th : Thread) (k : BitVec 3) (v : BitVec 4) : Thread :=
  { th with cr := setIbm th.cr (4 * k.toNat) v }

/-- Four bits, the first leftmost. -/
def nibble (a b c d : Bool) : BitVec 4 :=
  BitVec.ofBool a ++ BitVec.ofBool b ++ BitVec.ofBool c ++ BitVec.ofBool d

/-- LT || GT || EQ || SO of a comparison (42_ppe_integer section 4). -/
def compareBits (x y : Int) (so : Bool) : BitVec 4 := nibble (x < y) (y < x) (x = y) so

/-- The record form's CR0: the result compared with 0 in the mode's width, and SO (30_encoding R548). -/
def Thread.recordCr0 (th : Thread) (r : DWord) : Thread :=
  th.setCrField 0 (compareBits (signedLow th.width r) 0 th.so)

/-- Record if Rc = 1. -/
def Thread.recordIf (th : Thread) (rec : Bool) (r : DWord) : Thread := if rec then th.recordCr0 r else th

/-! ## Thread priority -/

/-- `set_priority` (62_platform R2009): a change that is not allowed is ignored. -/
def Thread.setPriority (th : Thread) (p : PpeShared) (want : BitVec 2) : Thread :=
  let notHigh := decide (want ≠ 0b11)
  let allowed := th.hypervisor || (!th.pr && (ibit p.tscr 15 || (ibit p.tscr 16 && notHigh))) ||
    (th.pr && ibit p.tscr 16 && notHigh)
  if want ≠ 0 ∧ allowed then { th with tsrlTp := want } else th

/-! ## VSCR (10_state R51) -/

/-- VSCR[NJ]. -/
def Thread.nj (th : Thread) : Bool := ibit th.vscr 15
/-- VSCR[SAT] := 1 if a clamp changed a value (45_ppe_vmx_2 R1100). -/
def Thread.saturateIf (th : Thread) (b : Bool) : Thread := if b then { th with vscr := setIbit th.vscr 31 true } else th

/-- CR6 of a recording vector compare of `cnt` elements: all true, 0, all false, 0 (45_ppe_vmx_2 R1139). -/
def Thread.recordCr6 (th : Thread) (allTrue allFalse : Bool) : Thread :=
  th.setCrField 6 (nibble allTrue false allFalse false)

end Sys2Proof.Machine
end

