-- ==== Sys2Proof/Machine/Operands.lean ====
section
/-! DEFINITION. Operand forms: effective addresses of the PPE (41_ppe_loadstore R650, 45_ppe_vmx_1 R1002), local-storage
addresses of the SPU (46_spu_loadstore_const R1221, R1222), branch targets, and immediates. -/

namespace Sys2Proof.Machine

/-! ## PPE -/

/-- The operand (RA|0) (30_encoding R547). -/
def Thread.raOr0 (th : Thread) (ra : BitVec 5) : DWord := if ra = 0 then 0 else th.getGpr ra

/-- Sign extension of a 16-bit immediate (30_encoding R543). -/
def si64 (v : BitVec 16) : DWord := v.signExtend 64
/-- Zero extension of a 16-bit immediate (30_encoding R543). -/
def ui64 (v : BitVec 16) : DWord := v.setWidth 64
/-- The displacement of a DS-form, `sext_64(DS || 0b00)` (30_encoding R543). -/
def ds64 (v : BitVec 14) : DWord := (v ++ 0#2).signExtend 64
/-- The low word of a doubleword. -/
def lowWord (v : DWord) : Word := ibm v 32 32

/-- An instruction address: the low two bits 0, and the upper word 0 in 32-bit mode (40_ppe_branch, 10_state R45). -/
def Thread.target (th : Thread) (a : DWord) : DWord :=
  let a := a &&& ~~~3#64
  if th.sf then a else a &&& 0xFFFFFFFF#64

/-! ## SPU -/

/-- The address of the aligned quadword of `ea` in local storage (46_spu_loadstore_const R1221). -/
def Spe.lsa (p : Spe) (ea : Word) : Nat := (ea &&& p.lslr &&& 0xFFFFFFF0#32).toNat
/-- d-form (R1222). -/
def lsaD (p : Spe) (ra : BitVec 7) (i10 : BitVec 10) : Nat := p.lsa (p.pref ra + (i10.signExtend 32 <<< 4))
/-- x-form (R1222). -/
def lsaX (p : Spe) (ra rb : BitVec 7) : Nat := p.lsa (p.pref ra + p.pref rb)
/-- a-form (R1222). -/
def lsaA (p : Spe) (i16 : BitVec 16) : Nat := p.lsa (i16.signExtend 32 <<< 2)
/-- Instruction-relative form (R1222). -/
def lsaR (p : Spe) (i16 : BitVec 16) : Nat := p.lsa (p.pc + (i16.signExtend 32 <<< 2))

/-- The quadword at a local-storage address (20_memory R345). -/
def Spe.lsQuad (p : Spe) (a : Nat) : QWord := BitVec.ofNat 128 (readBytes p.ls a 16)
/-- Store a quadword at a local-storage address. -/
def Spe.setLsQuad (p : Spe) (a : Nat) (v : QWord) : Spe := { p with ls := writeBytes p.ls a v.toNat 16 }

/-- The `shufb` control that inserts the scalar of `len` bytes at the position an address selects (R1231). -/
def insertControl (len : Nat) (a : Word) : QWord :=
  let t := a.toNat % 16 / len * len
  let first := if len = 8 then 0 else 4 - len
  buildEls 8 16 fun k => if t ≤ k ∧ k < t + len then BitVec.ofNat 8 (first + (k - t)) else BitVec.ofNat 8 (16 + k)

/-- A branch target in local storage (48_spu_compare_branch R1440). -/
def Spe.target (p : Spe) (a : Word) : Word := a &&& p.lslr &&& 0xFFFFFFFC#32
/-- Relative branch target. -/
def Spe.relTarget (p : Spe) (i16 : BitVec 16) : Word := (p.pc + (i16.signExtend 32 <<< 2)) &&& p.lslr
/-- Absolute branch target. -/
def Spe.absTarget (p : Spe) (i16 : BitVec 16) : Word := (i16.signExtend 32 <<< 2) &&& p.lslr
/-- The link value: the next address in the preferred slot, the other words 0 (R1440). -/
def Spe.link (p : Spe) : QWord := p.nextPc ++ 0#96

end Sys2Proof.Machine
end

