-- ==== Sys2Proof/Machine/Mmu.lean ====
section
/-! DEFINITION. Address translation of the PPE (21_translation sections 2 to 6): ERAT, segment lookaside buffer, page
table, TLB, and real mode. -/

namespace Sys2Proof.Machine

/-- What an access does (R461). -/
inductive Kind where
  | fetch
  | load
  | store
deriving DecidableEq, Repr

/-- A translated block: the real address of the byte asked for, and what decides whether the access may go on. -/
structure Page where
  ra : Nat
  i : Bool
  g : Bool
  /-- PTE[G], N of the page or of the segment: a fetch is refused (R457). -/
  fetchG : Bool
  noExec : Bool
  ks : Bool
  kp : Bool
  pp : BitVec 2
  /-- The change bit; true in real mode (D90). -/
  c : Bool
  cls : Bool
  /-- log2 of the page size. -/
  bits : Nat
  /-- Where the change bit is kept: key of the TLB entry, real address of the PTE. -/
  slot : Option Nat
  pte : Option Nat
deriving DecidableEq, Repr

/-- A translated piece of an access: the real address and the attributes that apply to it. -/
structure Phys where
  ra : Nat
  i : Bool
  g : Bool
deriving DecidableEq, Repr

/-- The outcome of looking a translation up, before protection is tested. -/
inductive Lookup where
  | page (p : Page) (s : State)
  | noSegment (s : State)
  | pageFault (s : State)
  /-- The real-mode LPAR and limit violations (R463, R467). -/
  | realViolation (s : State)
  | stop (o : Out State)

/-! ## Page sizes, segments -/

/-- log2 of the page size from L, LP and the size selectors of two large pages (R455, R516); none: a reserved selector. -/
def pageBits (selectors : BitVec 4) (l lp : Bool) : Option Nat :=
  if !l then some 12
  else
    let sel : BitVec 2 := if lp then ibm selectors 2 2 else ibm selectors 0 2
    if sel = 0 then some 24 else if sel = 1 then some 20 else if sel = 2 then some 16 else none

/-- HID6[LB] (10_state R77). -/
def PpeShared.lb (p : PpeShared) : BitVec 4 := ibm p.hid6 16 4

/-- The valid entries of an SLB for an address (R447, R502). -/
def slbMatches (l : List SlbEntry) (ea : DWord) : List SlbEntry :=
  l.filter fun e => e.v && decide (e.esid = ibm ea 0 36)

/-- The 80-bit virtual address (R447). -/
def vaOf (e : SlbEntry) (ea : DWord) : BitVec 80 := 0#15 ++ e.vsid ++ ibm ea 36 28

/-! ## The page table (R450 to R456) -/

/-- HTABORG and HTABSIZE of SDR1 or MFC_SDR (10_state R61). -/
def htabOrg (sdr : DWord) : Nat := (ibm sdr 2 44).toNat
def htabSize (sdr : DWord) : Nat := (ibm sdr 59 5).toNat

/-- The primary hash of a virtual address (R452). -/
def hash1 (va : BitVec 80) (p : Nat) : Nat := (ibm va 13 39).toNat ^^^ ((va.toNat % 2^28) / 2^p)

/-- The real address of the PTE group of a hash (R452). -/
def ptegAddr (sdr : DWord) (h : Nat) : Nat :=
  ((htabOrg sdr ||| ((h / 2^11) &&& (2^(htabSize sdr) - 1))) * 2^18 + h % 2^11 * 128) % 2^42

/-- The 16 candidate addresses in search order, with the value of H each must have (R452). -/
def pteCandidates (sdr : DWord) (va : BitVec 80) (p : Nat) : List (Nat × Bool) :=
  let h := hash1 va p
  let g1 := ptegAddr sdr h
  let g2 := ptegAddr sdr (2^39 - 1 - h)
  let order := [0, 2, 4, 6, 1, 3, 5, 7]
  order.map (fun k => (g1 + 16 * k, false)) ++ order.map (fun k => (g2 + 16 * k, true))

/-- The two doublewords of a PTE. -/
def pteAt (s : State) (a : Nat) : DWord × DWord :=
  (BitVec.ofNat 64 (readBytes s.mem a 8), BitVec.ofNat 64 (readBytes s.mem (a + 8) 8))

/-- Whether a PTE matches (R453): V, H, L, AVPN outside the page offset, LP of a large page. -/
def pteMatches (e : SlbEntry) (va : BitVec 80) (p : Nat) (h : Bool) (d0 d1 : DWord) : Bool :=
  ibit d0 63 && (ibit d0 62 == h) && (ibit d0 61 == e.l) &&
  (if p = 24 then ibm d0 15 41 == ibm va 15 41 else ibm d0 15 42 == ibm va 15 42) &&
  (!e.l || ibit d1 51 == e.lp)

/-- The fields in which several matching PTEs may not differ: all but SW, H, AC, R, C (R454). -/
def pteCore (d : DWord × DWord) : DWord × DWord := (d.1 &&& ~~~0x7A#64, d.2 &&& ~~~0x380#64)

/-- The result of a table search. -/
inductive Walk where
  | found (a : Nat) (d0 d1 : DWord)
  | none
  | stop (o : Out State)

/-- The table search (R452 to R454); unimplemented bits of the real page number are refused (R440, U46). `several` is the
answer for PTEs that disagree. -/
def tableSearch (s : State) (sdr : DWord) (e : SlbEntry) (va : BitVec 80) (p : Nat) (several : Out State) : Walk :=
  if 24 < htabSize sdr ∨ 0xFFFFFF < htabOrg sdr then .stop (.refused .reservedValue)
  else
    let cands := pteCandidates sdr va p
    if cands.any fun c => decide (s.cfg.memBytes < c.1 + 16) then .stop s.checkstop
    else
      let hits := cands.filter fun c => pteMatches e va p c.2 (pteAt s c.1).1 (pteAt s c.1).2
      match hits with
      | [] => .none
      | h :: rest =>
        if rest.any fun r => decide (pteCore (pteAt s r.1) ≠ pteCore (pteAt s h.1)) then .stop several
        else if ibm (pteAt s h.1).2 0 22 ≠ (0 : BitVec 22) then .stop (.refused .reservedValue)
        else .found h.1 (pteAt s h.1).1 (pteAt s h.1).2

/-- The real page number of a PTE for a page of 2^p bytes, in units of 4 KB (R451); none: bits inside the page. -/
def rpnOf (l : Bool) (d1 : DWord) (p : Nat) : Option Nat :=
  let rpn := (ibm d1 22 30).toNat
  let rpn := if l then rpn / 2 * 2 else rpn
  if rpn % 2^(p - 12) = 0 then some rpn else none

/-- W and M as Table 4-4 shows them (R475): W = 0, M = NOT I. -/
def effectiveWm (d1 : DWord) : DWord := setIbit (setIbit d1 57 false) 59 (!ibit d1 58)

/-- Set R and, for a permitted store, C in a PTE in memory; whether W and M are rewritten as Table 4-4 shows is a draw
(R456). -/
def State.setPteBits (s : State) (by_ : Agent) (a : Nat) (d1 bits : DWord) : State :=
  if d1 &&& bits = bits then s
  else
    let d := d1 ||| bits
    let d := if s.free 1 0 = 1 then effectiveWm d else d
    (s.drew 1).storeMem (some by_) (a + 8) 8 d.toNat

/-! ## The TLB (R458, R459, R481) -/

/-- The congruence class (R458). -/
def tlbClass (va : BitVec 80) (p : Nat) : Nat :=
  if p = 12 then ((ibm va 52 4 ^^^ ibm va 60 4) ++ ibm va 64 4).toNat
  else if p = 16 then ((ibm va 52 4 ^^^ ibm va 56 4) ++ ibm va 60 4).toNat
  else if p = 20 then (ibm va 52 8).toNat
  else (ibm va 48 8).toNat

/-- The length of the compare tag (Table 4-5). -/
def tlbTagLen (p : Nat) : Nat := if p = 12 then 60 else if p = 16 then 56 else if p = 20 then 52 else 48

/-- The TLB entry with a key. -/
def PpeShared.tlbAt (p : PpeShared) (key : Nat) : TlbEntry := sget TlbEntry.empty p.tlb key

/-- Whether an entry translates the request: its tag is the page number, L, LP and LPID (R458, R459). -/
def tlbHit (x : TlbEntry) (e : SlbEntry) (va : BitVec 80) (p : Nat) (lpid : BitVec 5) : Bool :=
  x.v && (x.l == e.l) && (x.lp == e.lp) && decide (x.lpid = lpid) &&
  decide (va.toNat / 2^(80 - tlbTagLen p) = x.vpn.toNat / 2^(68 - tlbTagLen p))

/-- The first way of a class for which `f` holds. -/
def firstWay (f : Nat → Bool) : Option Nat :=
  if f 0 then some 0 else if f 1 then some 1 else if f 2 then some 2 else if f 3 then some 3 else none

/-- The ways that a 4-bit enable field makes eligible (leftmost bit: way 0); '0000' acts as '1111' (R481, R506). -/
def wayEligible (rmt : BitVec 4) (w : Nat) : Bool := decide (rmt = 0) || ibit rmt w

/-- Choose the `k`-th eligible way, for a drawn `k` (R481, D28). -/
def drawWay (rmt : BitVec 4) (k : BitVec 2) : Nat :=
  let l := [0, 1, 2, 3].filter (wayEligible rmt)
  l.getD (k.toNat % l.length) 0

/-- The replacement class of an address: that of the range that hits, or 0 (10_state R79). Where both ranges of a side hit, of which R79
and R481 do not speak, range 0 gives it: DESIGN CHOICE (log 51). -/
def rclassOf (th : Thread) (ea : DWord) (instr : Bool) : Nat :=
  let hit (rs rm : DWord) (rel : Bool) : Bool :=
    ibit rs 63 && (ibit rs 62 == rel) && decide (ibm rs 0 52 = ibm ea 0 32 ++ (ibm ea 32 20 &&& ibm rm 32 20))
  let r := th.ranges
  if instr then
    if hit r.irsr0 r.irmr0 th.ir then r.icidr0.toNat % 8 else if hit r.irsr1 r.irmr1 th.ir then r.icidr1.toNat % 8 else 0
  else
    if hit r.drsr0 r.drmr0 th.dr then r.dcidr0.toNat % 8 else if hit r.drsr1 r.drmr1 th.dr then r.dcidr1.toNat % 8 else 0

/-- PPE_TLB_RMT entry of a class (10_state R78). -/
def PpeShared.rmt (p : PpeShared) (cls : Nat) : BitVec 4 := ibm p.tlbRmt (32 + 4 * cls) 4

/-- The key of the way to replace in a class: an invalid eligible way, else a drawn one (R481). -/
def State.tlbVictim (s : State) (cls : Nat) (rmt : BitVec 4) : Nat :=
  match firstWay fun w => wayEligible rmt w && !(s.ppe.tlbAt (4 * cls + w)).v with
  | some w => 4 * cls + w
  | none => 4 * cls + drawWay rmt (s.free 2 0)

/-- Write a TLB entry. -/
def State.setTlb (s : State) (key : Nat) (x : TlbEntry) : State :=
  { s with ppe := { s.ppe with tlb := sput TlbEntry.empty s.ppe.tlb key x } }

/-- The image of a class and a way in PPE_TLB_Index and PPE_TLB_Index_Hint: class at 52:59, one-hot way at 60:63
(R476, D66; the SPE layout with two more index bits, log 8). -/
def indexImage (key : Nat) : DWord := BitVec.ofNat 64 (key / 4 * 16 + 2^(3 - key % 4))

/-! ## Real mode (R462 to R468) -/

/-- The real-mode limit (R467). -/
def rmlsLimit (r : BitVec 4) : Nat :=
  match r.toNat with
  | 0 => 2^38
  | 1 => 2^34
  | 2 => 2^30
  | 3 => 2^26
  | 4 => 2^28
  | 5 => 2^24
  | 6 => 2^23
  | 7 => 2^27
  | 9 => 2^22
  | 10 => 2^21
  | _ => 2^20

/-- The boundary of the real-mode storage control facility, HID6[RMSC] (R468). -/
def rmscBoundary (p : PpeShared) : Nat :=
  let v := (ibm p.hid6 26 4).toNat
  if v = 0 then 0 else 2^(27 + v)

/-- The page of a real-mode access (R466, R468). -/
def realPage (s : State) (th : Thread) (k : Kind) (ra : Nat) : Page :=
  let above := decide (rmscBoundary s.ppe ≤ ra)
  { ra := ra, i := above && th.lpcrRmi && decide (k ≠ .fetch), g := above, fetchG := false, noExec := false, ks := false,
    kp := false, pp := 0b10, c := true, cls := false, bits := 12, slot := none, pte := none }

/-- Real-address formation (R462). -/
def realMode (s : State) (th : Thread) (ea : DWord) (k : Kind) : Lookup :=
  let offset (o : DWord) : Nat := ((ibm ea 22 22 ||| ibm o 22 22) ++ ibm ea 44 20).toNat
  if th.hv then .page (realPage s th k (if ibit ea 0 then (ibm ea 22 42).toNat else offset s.ppe.hrmor)) s
  else if !s.ppe.lpes1 then .realViolation s
  else if rmlsLimit s.ppe.rmls ≤ ea.toNat then .realViolation s
  else .page (realPage s th k (offset s.ppe.rmor)) s

/-! ## Virtual mode -/

/-- The page an entry of the TLB gives (R451, R475). -/
def pageOf (x : TlbEntry) (e : SlbEntry) (ea : DWord) (p rpn : Nat) (slot pte : Option Nat) : Page :=
  let i := ibit x.pte1 58
  { ra := rpn * 4096 + ea.toNat % 2^p, i := i, g := i && ibit x.pte1 60, fetchG := ibit x.pte1 60,
    noExec := e.n || ibit x.pte1 61, ks := e.ks, kp := e.kp, pp := ibm x.pte1 62 2, c := ibit x.pte1 56, cls := e.c,
    bits := p, slot := slot, pte := pte }

/-- Finish a lookup: the real page number must fit the page size. -/
def pageOrRefuse (s : State) (x : TlbEntry) (e : SlbEntry) (ea : DWord) (p : Nat) (slot pte : Option Nat) : Lookup :=
  match rpnOf x.l x.pte1 p with
  | none => .stop (.refused .reservedValue)
  | some rpn => .page (pageOf x e ea p rpn slot pte) s

/-- Reload the TLB from the page table into the entry `key` (R456, R458, R460, R481): R is set, W and M are kept as Table 4-4
shows them. -/
def reload (s : State) (t : Fin 2) (e : SlbEntry) (ea : DWord) (p key : Nat) : Lookup :=
  let va := vaOf e ea
  match tableSearch s s.ppe.sdr1 e va p s.checkstop with
  | .stop o => .stop o
  | .none => .pageFault s
  | .found a d0 d1 =>
    let s' := s.setPteBits (.ppe t) a d1 0x100
    let x : TlbEntry :=
      { v := true, vpn := ibm va 0 68, l := e.l, lp := e.lp, lpid := s.ppe.lpidr, pte0 := d0, pte1 := effectiveWm (d1 ||| 0x100) }
    pageOrRefuse (s'.setTlb key x) x e ea p (some key) (some a)

/-- The way of a class that translates the request: of several (software can write entries of one tag into two ways of a class,
on which the specification is silent) the lowest, DESIGN CHOICE (log 33). -/
def PpeShared.tlbWay (q : PpeShared) (e : SlbEntry) (va : BitVec 80) (p : Nat) : Option Nat :=
  firstWay fun w => tlbHit (q.tlbAt (4 * tlbClass va p + w)) e va p q.lpidr

/-- The lookup of a virtual address (R447, R458 to R461). Every miss records in PPE_TLB_Index_Hint the entry that hardware
replaces (R476); PPE_TLB_RMT counts in the hardware-managed mode only (62_platform R1978). -/
def virtualMode (s : State) (t : Fin 2) (th : Thread) (ea : DWord) (k : Kind) : Lookup :=
  match slbMatches th.slb.toList ea with
  | [] => .noSegment s
  | [e] =>
    match pageBits s.ppe.lb e.l e.lp with
    | none => .stop (.refused .reservedValue)
    | some p =>
      let va := vaOf e ea
      let cls := tlbClass va p
      match s.ppe.tlbWay e va p with
      | some w => pageOrRefuse s (s.ppe.tlbAt (4 * cls + w)) e ea p (some (4 * cls + w)) none
      | none =>
        let key := s.tlbVictim cls (if s.ppe.tl then 0 else s.ppe.rmt (rclassOf th ea (decide (k = .fetch))))
        let s := (s.drew 1).modT t fun th => { th with tlbHint := indexImage key }
        if s.ppe.tl then .pageFault s else reload s t e ea p key
  | _ => .stop s.checkstop

/-- Whether the key and PP allow the access (R457). -/
def permits (pr : Bool) (p : Page) (store : Bool) : Bool :=
  let key := (p.kp && pr) || (p.ks && !pr)
  if key then (if p.pp = 0 then false else if p.pp = 2 then true else !store)
  else !store || decide (p.pp ≠ 3)

/-- Whether a fetch may use the page (R457). -/
def fetchable (pr : Bool) (p : Page) : Bool := permits pr p false && !p.fetchG && !p.noExec

/-! ## ERAT (R443, R444) -/

/-- The page an ERAT entry gives. -/
def eratPage (x : EratEntry) (ea : DWord) : Page :=
  { ra := x.raPage.toNat * 4096 + ea.toNat % 4096, i := x.i, g := x.g, fetchG := x.fetchG, noExec := x.n, ks := x.ks,
    kp := x.kp, pp := x.pp, c := x.cBit, cls := x.cls, bits := x.bits, slot := none, pte := none }

/-- Whether an ERAT entry serves the access: tags, protection, and C for a store (R443, R444). -/
def eratServes (th : Thread) (ea : DWord) (k : Kind) (x : EratEntry) : Bool :=
  let rel := if k = .fetch then th.ir else th.dr
  (x.instr == decide (k = .fetch)) && decide (x.eaPage = ibm ea 0 52) && (x.sf == th.sf) && (x.rel == rel) &&
  (x.pr == th.pr) && (x.hv == th.hv) &&
  (if k = .fetch then fetchable th.pr (eratPage x ea) else permits th.pr (eratPage x ea) (decide (k = .store))) &&
  (decide (k ≠ .store) || x.cBit)

/-- The effective address that translation starts from (R470). -/
def Thread.truncEa (th : Thread) (ea : DWord) : DWord := if th.sf then ea else ea &&& 0xFFFFFFFF#64

/-- The translation of a thread, up to protection (R461): ERAT, then real mode or the segment, TLB and page table. `ea` is
already truncated. -/
def lookup (s : State) (t : Fin 2) (ea : DWord) (k : Kind) : Lookup :=
  let th := s.threads[t]
  match th.erat.find? (eratServes th ea k) with
  | some x => .page (eratPage x ea) s
  | none =>
    if if k = .fetch then th.ir else th.dr then virtualMode s t th ea k else realMode s th ea k

/-- Whether a lookup needs no search of the page table: an ERAT entry serves, the access is in real mode, or the TLB holds
the page. -/
def State.heldTranslation (s : State) (t : Fin 2) (ea : DWord) (k : Kind) : Bool :=
  let th := s.threads[t]
  (th.erat.find? (eratServes th ea k)).isSome || !(if k = .fetch then th.ir else th.dr) ||
  match slbMatches th.slb.toList ea with
  | [e] =>
    match pageBits s.ppe.lb e.l e.lp with
    | none => false
    | some p => (s.ppe.tlbWay e (vaOf e ea) p).isSome
  | _ => false

/-- The PTE of a page that thread `t` found in the TLB (R456); none: it is no longer in the page table (log 25). -/
def State.pteOfPage (s : State) (t : Fin 2) (p : Page) (ea : DWord) : Walk :=
  match p.pte with
  | some a => .found a (pteAt s a).1 (pteAt s a).2
  | none =>
    match slbMatches s.threads[t].slb.toList ea with
    | [e] => tableSearch s s.ppe.sdr1 e (vaOf e ea) p.bits s.checkstop
    | _ => .none

/-- Record the change bit in the TLB entry that translated a page, unless another entry stands there by now. -/
def State.markChange (s : State) (t : Fin 2) (key : Nat) (p : Page) (ea : DWord) : State :=
  let x := s.ppe.tlbAt key
  match slbMatches s.threads[t].slb.toList ea with
  | [e] => if tlbHit x e (vaOf e ea) p.bits s.ppe.lpidr then s.setTlb key { x with pte1 := x.pte1 ||| 0x80 } else s
  | _ => s

/-- The search of the page table for the C bit of a page sets R in its PTE (R456), also where the store takes an alignment interrupt:
a search that ends the run, or finds nothing, leaves no trace then. -/
def State.setReference (s : State) (t : Fin 2) (p : Page) (ea : DWord) : State :=
  if p.slot.isSome && !p.c then
    match s.pteOfPage t p ea with
    | .found a _ d1 => s.setPteBits (.ppe t) a d1 0x100
    | _ => s
  else s

/-- Record the change bit for a permitted store that is performed, in memory and in the TLB entry; the search that finds the PTE sets
its R too (R456, R461). -/
def State.setChange (s : State) (t : Fin 2) (p : Page) (ea : DWord) : Res Unit :=
  match p.slot with
  | none => .ok () s
  | some key =>
    if p.c then .ok () s
    else
      match s.pteOfPage t p ea with
      | .stop o => .stop o
      | .none => .ok () (s.markChange t key p ea)
      | .found a _ d1 => .ok () ((s.setPteBits (.ppe t) a d1 0x180).markChange t key p ea)

/-! ## Fetch -/

/-- Translation of an instruction address (R461; interrupts by 60_exceptions R1824, R1825). A fetch that both N or G and the key with PP
forbid sets SRR1[35] only: DESIGN CHOICE (log 59). -/
def translateFetch (s : State) (t : Fin 2) (ea : DWord) : Res Phys :=
  let th := s.threads[t]
  let isi (s : State) (info : DWord) : Res Phys := .stop (.next (s.interrupt t .instStorage th.pc info))
  match lookup s t ea .fetch with
  | .stop o => .stop o
  | .noSegment s => .stop (.next (s.interrupt t .instSegment th.pc 0))
  | .pageFault s => isi s 0x40000000
  | .realViolation s => isi s 0x08000000
  | .page p s =>
    if p.fetchG || p.noExec then isi s 0x10000000
    else if !permits th.pr p false then isi s 0x08000000
    else .ok ⟨p.ra, p.i, p.g⟩ s

end Sys2Proof.Machine
end

