-- ==== Sys2Proof/Machine/PpeSystem.lean ====
section
/-! DEFINITION. System linkage, special registers, synchronization, and segment and TLB management of the PPE
(44_ppe_system.md, 10_state.md section 8, 62_platform R2001, R2009). -/

namespace Sys2Proof.Machine

/-! ## Special-purpose registers: who may read and write them (10_state R80) -/

/-- The least privilege of an access. -/
inductive Priv where
  | user
  | super
  | hyper
  /-- The software TLB registers (21_translation R476): illegal, not privileged, for a supervisor. -/
  | tlb
deriving DecidableEq, Repr

/-- Who may read and write the registers that are read and written alike; the numbers of the address-range registers
(952..957, 976..981) are PRESUMED (log 8). PPE_TLB_RMT (951) is taken as one of the software TLB registers, so that a supervisor's access
is of the illegal type: DESIGN CHOICE (log 50). -/
def sprBoth (n : Nat) : Option Priv :=
  if n = 1 ∨ n = 8 ∨ n = 9 ∨ n = 256 ∨ n = 896 then some .user
  else if n = 18 ∨ n = 19 ∨ n = 22 ∨ n = 26 ∨ n = 27 ∨ n = 29 ∨ (272 ≤ n ∧ n ≤ 275) ∨ (952 ≤ n ∧ n ≤ 957) ∨
      (976 ≤ n ∧ n ≤ 981) then some .super
  else if n = 25 ∨ n = 304 ∨ n = 305 ∨ n = 310 ∨ (312 ≤ n ∧ n ≤ 315) ∨ n = 318 ∨ n = 319 ∨ n = 921 ∨ n = 922 ∨ n = 1008 ∨
      n = 1009 ∨ n = 1012 ∨ n = 1013 ∨ n = 1015 ∨ n = 1017 then some .hyper
  else if n = 947 ∨ n = 948 ∨ n = 949 ∨ n = 951 then some .tlb
  else none

/-- Who may read SPR n; none: not implemented. -/
def sprReadPriv (n : Nat) : Option Priv :=
  if n = 136 ∨ n = 259 ∨ n = 268 ∨ n = 269 ∨ n = 897 then some .user
  else if n = 287 ∨ n = 1023 then some .super
  else if n = 946 then some .tlb
  else sprBoth n

/-- Who may write SPR n. CTRL is written by a supervisor, its TE bits by a hypervisor only (R70). -/
def sprWritePriv (n : Nat) : Option Priv :=
  if n = 152 then some .super
  else if n = 284 ∨ n = 285 then some .hyper
  else sprBoth n

/-- The program interrupts of an access to SPR n (60_exceptions R1836). -/
def sprAccess (s : State) (n : Nat) (p : Option Priv) (o : Out State) : Out State :=
  match p with
  | none => if s.thr.pr && decide (n / 16 % 2 = 1) then s.privileged else s.illegal
  | some .user => o
  | some .super => supervisor s o
  | some .hyper => hypervisorOnly s o
  | some .tlb => tlbManager s o

/-! ## Images -/

/-- LPCR (10_state R64). -/
def lpcrImage (p : PpeShared) (th : Thread) : DWord :=
  setIbm (setIbit (setIbit (setIbit (setIbit (setIbm 0#64 34 p.rmls) 52 th.lpcrMer) 53 p.tl) 62 th.lpcrRmi) 63 th.lpcrHdice)
    60 p.lpes

/-- CTRL as thread t reads it (R69). -/
def ctrlImage (p : PpeShared) (t : Fin 2) : Word :=
  let ct : BitVec 2 := if t = 0 then 0b10 else 0b01
  setIbit (setIbm (setIbm (setIbm 0#32 0 ct) 8 p.te) 16 p.th) 31 p.run

/-- TSRL or TSRR: TP and a drawn FWDP (R71, U73). -/
def tsrImage (tp : BitVec 2) (fwdp : BitVec 20) : DWord := setIbm (setIbm 0#64 11 tp) 44 fwdp

/-! ## The software TLB registers (21_translation R476, R477) -/

/-- The key of the entry that PPE_TLB_Index selects; none: the way is not one-hot (U46). -/
def indexKey (i : DWord) : Option Nat :=
  let cls := (ibm i 52 8).toNat
  match (ibm i 60 4).toNat with
  | 8 => some (4 * cls)
  | 4 => some (4 * cls + 1)
  | 2 => some (4 * cls + 2)
  | 1 => some (4 * cls + 3)
  | _ => none

/-- Whether an entry of size selectors `l`, `lp` is a page of 2^p bytes. -/
def isSize (p : Option Nat) (n : Nat) : Bool := decide (p = some n)

/-- The first doubleword of an entry (R477): the doubleword it was loaded with; bit 56 of a 1 MB page is drawn. -/
def vpnImage (x : TlbEntry) (bits : Option Nat) (free : BitVec 1) : DWord :=
  let d := setIbit (setIbit (x.pte0 &&& 0x1FFFFFFFFFFFA) 61 x.l) 63 x.v
  if isSize bits 20 then setIbm d 56 free else d

/-- The entry that a write of PPE_TLB_VPN stores; W and M are kept as Table 4-4 shows them (R458). The LP tag of an
entry with L = 0 is 0, so that a segment with L = 0 and LP = 1 never hits it: DESIGN CHOICE (log 32). -/
def vpnEntry (v : DWord) (p : PpeShared) : TlbEntry :=
  let l := ibit v 61
  { v := ibit v 63, vpn := 0#15 ++ ibm v 15 42 ++ ibm p.tlbIndex 16 11, l := l, lp := l && ibit p.tlbRpn 51, lpid := p.lpidr,
    pte0 := v, pte1 := effectiveWm (p.tlbRpn ||| 0x100) }

/-- Write PPE_TLB_VPN; unimplemented bits of the virtual address, and bit 56 of a 16 MB page, are refused (R440, R477, U46). -/
def State.writeTlbVpn (s : State) (v : DWord) : Out State :=
  let x := vpnEntry v s.ppe
  match indexKey s.ppe.tlbIndex with
  | none => .refused .reservedValue
  | some key =>
    if ibm v 0 15 ≠ (0 : BitVec 15) then .refused .reservedValue
    else if isSize (pageBits s.ppe.lb x.l x.lp) 24 && ibit v 56 then .refused .reservedValue
    else .next ((s.setTlb key x).modThr Thread.advance)

/-! ## Reading (R926) -/

/-- The value of SPR n, and how many draws reading it made. PPE_TLB_Index, which 21_translation R476 describes as written only,
reads as last written: DESIGN CHOICE (log 50). -/
def State.readSpr (s : State) (n : Nat) : DWord × Nat :=
  let th := s.thr
  let p := s.ppe
  let r := th.ranges
  match n with
  | 1 => (th.xer, 0)
  | 8 => (th.lr, 0)
  | 9 => (th.ctr, 0)
  | 18 => (th.dsisr.setWidth 64, 0)
  | 19 => (th.dar, 0)
  | 22 => (th.dec.setWidth 64, 0)
  | 25 => (p.sdr1, 0)
  | 26 => (th.srr0, 0)
  | 27 => (th.srr1, 0)
  | 29 => (th.accr, 0)
  | 136 => ((ctrlImage p s.curT).setWidth 64, 0)
  | 256 => (th.vrsave.setWidth 64, 0)
  | 259 => (th.sprg3, 0)
  | 268 => (p.tb, 0)
  | 269 => ((ibm p.tb 0 32).setWidth 64, 0)
  | 272 => (th.sprg0, 0)
  | 273 => (th.sprg1, 0)
  | 274 => (th.sprg2, 0)
  | 275 => (th.sprg3, 0)
  | 287 => (s.cfg.pvr.setWidth 64, 0)
  | 304 => (th.hsprg0, 0)
  | 305 => (th.hsprg1, 0)
  | 310 => (p.hdec.setWidth 64, 0)
  | 312 => (p.rmor, 0)
  | 313 => (p.hrmor, 0)
  | 314 => (th.hsrr0, 0)
  | 315 => (th.hsrr1, 0)
  | 318 => (lpcrImage p th, 0)
  | 319 => (p.lpidr.setWidth 64, 0)
  | 896 => (tsrImage th.tsrlTp (s.free 20 0), 1)
  | 897 => (tsrImage s.threads[1 - s.curT].tsrlTp (s.free 20 0), 1)
  | 921 => (p.tscr.setWidth 64, 0)
  | 922 => (p.ttr, 0)
  | 946 => (th.tlbHint, 0)
  | 947 => (p.tlbIndex, 0)
  | 948 =>
    let x := p.tlbAt ((indexKey p.tlbIndex).getD 0)
    (vpnImage x (pageBits p.lb x.l x.lp) (s.free 1 0), 1)
  | 949 => ((p.tlbAt ((indexKey p.tlbIndex).getD 0)).pte1, 0)
  | 951 => (p.tlbRmt, 0)
  | 952 => (r.drsr0, 0)
  | 953 => (r.drmr0, 0)
  | 954 => (r.dcidr0, 0)
  | 955 => (r.drsr1, 0)
  | 956 => (r.drmr1, 0)
  | 957 => (r.dcidr1, 0)
  | 976 => (r.irsr0, 0)
  | 977 => (r.irmr0, 0)
  | 978 => (r.icidr0, 0)
  | 979 => (r.irsr1, 0)
  | 980 => (r.irmr1, 0)
  | 981 => (r.icidr1, 0)
  | 1008 => (p.hid0, 0)
  | 1009 => (p.hid1, 0)
  | 1012 => (p.hid4, 0)
  | 1013 => (th.dabr, 0)
  | 1015 => (th.dabrx, 0)
  | 1017 => (p.hid6, 0)
  | 1023 => ((if s.curT = 0 then s.cfg.pir0 else s.cfg.pir1).setWidth 64, 0)
  | _ => (0, 0)

/-! ## Writing (R925); reserved bits are ignored (10_state R81) -/

/-- Write CTRL (R69, R70, 62_platform R2001): RUN and the thread history; in hypervisor state the thread may suspend itself
and ask for the other thread to resume. A thread that suspends itself in trace mode leaves any value in SRR0 and for SRR0 at
the resume (60_exceptions R1834, U12, U70). -/
def State.writeCtrl (s : State) (v : Word) : Out State :=
  let t := s.curT
  let o : Fin 2 := 1 - t
  let th := s.thr
  let stops := th.hypervisor && !ibit v (8 + t.val)
  let te := if stops then setIbit s.ppe.te t.val false else s.ppe.te
  let s1 : State :=
    { s with ppe := { s.ppe with te := te, run := ibit v 31, th := setIbit s.ppe.th t.val true } }
  let s2 := if th.hypervisor && ibit v (8 + o.val) && !ibit s.ppe.te o.val then
    s1.modT o fun u => { u with resumeReq := true } else s1
  if stops && (th.se || th.be) then .next ((s2.drew 2).modThr fun u => { u with srr0 := s.free 64 0, pc := s.free 64 1 })
  else .next (s2.modThr Thread.advance)

/-- A register of the thread is written. -/
def sprThread (s : State) (f : Thread → Thread) : Out State := ppeNext s f
/-- A shared register is written. -/
def sprShared (s : State) (f : PpeShared → PpeShared) : Out State := ppeNext { s with ppe := f s.ppe } id
/-- An address-range register is written. -/
def sprRange (s : State) (f : RangeRegs → RangeRegs) : Out State := ppeNext s fun th => { th with ranges := f th.ranges }

/-- Whether a valid entry for a large page is in the TLB, or in an SLB or ERAT of a thread (21_translation R455). -/
def State.holdsLargePages (s : State) : Bool :=
  s.ppe.tlb.any (fun x => x.2.v && x.2.l) ||
  s.threads.toList.any fun th => th.slb.toList.any (fun e => e.v && e.l) || th.erat.any fun x => decide (x.bits ≠ 12)

/-- Write HID6: a change of LB while large pages are held is refused (21_translation R455). -/
def State.writeHid6 (s : State) (v : DWord) : Out State :=
  if decide (ibm v 16 4 ≠ s.ppe.lb) && s.holdsLargePages then .refused .reservedValue
  else sprShared s fun p => { p with hid6 := v }

/-- Write PPE_TLB_RPN: unimplemented bits of the real address are refused (21_translation R440, U46). -/
def State.writeTlbRpn (s : State) (v : DWord) : Out State :=
  if ibm v 0 22 ≠ (0 : BitVec 22) then .refused .reservedValue else sprShared s fun p => { p with tlbRpn := v &&& 0x3FFFFFFF3FF }

/-- Write SPR n. The bits of HID0, HID1, HID4 and HID6 that the specification does not name keep what is written and read it back:
DESIGN CHOICE (log 29). A 0-to-1 transition of HID1[flush_ic] (bit 11, log 8) empties the instruction cache (10_state R75). -/
def State.writeSpr (s : State) (n : Nat) (v : DWord) : Out State :=
  let w := lowWord v
  match n with
  | 1 => sprThread s fun th => { th with xer := v &&& 0xE000007F }
  | 8 => sprThread s fun th => { th with lr := v }
  | 9 => sprThread s fun th => { th with ctr := v }
  | 18 => sprThread s fun th => { th with dsisr := w }
  | 19 => sprThread s fun th => { th with dar := v }
  | 22 => sprThread s fun th => { th with dec := w }
  | 25 => sprShared s fun p => { p with sdr1 := v &&& 0x3FFFFFFFFFFC001F }
  | 26 => sprThread s fun th => { th with srr0 := v }
  | 27 => sprThread s fun th => { th with srr1 := v }
  | 29 => sprThread s fun th => { th with accr := v }
  | 152 => s.writeCtrl w
  | 256 => sprThread s fun th => { th with vrsave := w }
  | 272 => sprThread s fun th => { th with sprg0 := v }
  | 273 => sprThread s fun th => { th with sprg1 := v }
  | 274 => sprThread s fun th => { th with sprg2 := v }
  | 275 => sprThread s fun th => { th with sprg3 := v }
  | 284 => sprShared s fun p => { p with tb := ibm p.tb 0 32 ++ w }
  | 285 => sprShared s fun p => { p with tb := w ++ ibm p.tb 32 32 }
  | 304 => sprThread s fun th => { th with hsprg0 := v }
  | 305 => sprThread s fun th => { th with hsprg1 := v }
  | 310 => sprShared s fun p => { p with hdec := w }
  | 312 => sprShared s fun p => { p with rmor := v &&& 0x3FFFFF00000 }
  | 313 => sprShared s fun p => { p with hrmor := v &&& 0x3FFFFF00000 }
  | 314 => sprThread s fun th => { th with hsrr0 := v }
  | 315 => sprThread s fun th => { th with hsrr1 := v }
  | 318 =>
    ppeNext { s with ppe := { s.ppe with rmls := ibm v 34 4, tl := ibit v 53, lpes := ibm v 60 2 } } fun th =>
      { th with lpcrMer := ibit v 52, lpcrRmi := ibit v 62, lpcrHdice := ibit v 63 }
  | 319 => sprShared s fun p => { p with lpidr := ibm v 59 5 }
  | 896 => sprThread s fun th => th.setPriority s.ppe (ibm v 11 2)
  | 921 => sprShared s fun p => { p with tscr := w &&& 0xF87D8000 }
  | 922 => sprShared s fun p => { p with ttr := v &&& 0xFFFFF }
  | 947 => sprShared s fun p => { p with tlbIndex := v &&& 0xFFE000000FFF }
  | 948 => s.writeTlbVpn v
  | 949 => s.writeTlbRpn v
  | 951 => sprShared s fun p => { p with tlbRmt := v &&& 0xFFFFFFFF }
  | 952 => sprRange s fun r => { r with drsr0 := v &&& 0xFFFFFFFFFFFFF003 }
  | 953 => sprRange s fun r => { r with drmr0 := v &&& 0xFFFFF000 }
  | 954 => sprRange s fun r => { r with dcidr0 := v &&& 7 }
  | 955 => sprRange s fun r => { r with drsr1 := v &&& 0xFFFFFFFFFFFFF003 }
  | 956 => sprRange s fun r => { r with drmr1 := v &&& 0xFFFFF000 }
  | 957 => sprRange s fun r => { r with dcidr1 := v &&& 7 }
  | 976 => sprRange s fun r => { r with irsr0 := v &&& 0xFFFFFFFFFFFFF003 }
  | 977 => sprRange s fun r => { r with irmr0 := v &&& 0xFFFFF000 }
  | 978 => sprRange s fun r => { r with icidr0 := v &&& 7 }
  | 979 => sprRange s fun r => { r with irsr1 := v &&& 0xFFFFFFFFFFFFF003 }
  | 980 => sprRange s fun r => { r with irmr1 := v &&& 0xFFFFF000 }
  | 981 => sprRange s fun r => { r with icidr1 := v &&& 7 }
  | 1008 => sprShared s fun p => { p with hid0 := v }
  | 1009 => sprShared s fun p =>
    { p with hid1 := v, icache := if !ibit p.hid1 11 && ibit v 11 then [] else p.icache }
  | 1012 => sprShared s fun p => { p with hid4 := v }
  | 1013 => sprThread s fun th => { th with dabr := v }
  | 1015 => sprThread s fun th => { th with dabrx := v &&& 0xF }
  | 1017 => s.writeHid6 v
  | _ => ppeNext s id

/-! ## The move to the MSR (R928, R929) -/

/-- An instruction that acts as a `sync` of its thread: a pending imprecise machine check is taken, and then the instruction has not
been executed (60_exceptions R1811). -/
def State.afterSync (s : State) (o : Out State) : Out State := if s.thr.mcheck.isSome then s.takeMachineCheck s.curT else o

/-- A move to the MSR with L = 0 acts as a `sync` (R928); with L = 1 it does not. -/
def State.moveSync (s : State) (l : Bool) (o : Out State) : Out State := if l then o else s.afterSync o

/-- The MSR after `mtmsrd` of an image, or after `mtmsr` of the image's low word. -/
def moveMsr (old v : DWord) (l : Bool) : DWord :=
  if l then setIbit (setIbit old 48 (ibit v 48)) 62 (ibit v 62)
  else setIbit (setIbit (msrOf v) 3 (ibit old 3)) 51 (ibit old 51)

/-! ## SLB, ERAT and TLB invalidation (21_translation R445, R448, R471, R472) -/

/-- The number of the entry that RB selects. -/
def slbNumber (rb : DWord) : Fin 64 := ⟨(ibm rb 58 6).toNat, (ibm rb 58 6).isLt⟩

/-- The entry of the `slbmte` images. VSID[0:14] are ignored, as R446 and R448 say; R440 and U46 would refuse a value that sets them:
DEDUCED (log 50). -/
def slbOf (rs rb : DWord) : SlbEntry :=
  { esid := ibm rb 0 36, v := ibit rb 36, vsid := ibm rs 15 37, ks := ibit rs 52, kp := ibit rs 53, n := ibit rs 54,
    l := ibit rs 55, c := ibit rs 56, lp := ibit rs 59, pageBits := 12 }
/-- The `slbmfee` image. -/
def slbEsidImage (e : SlbEntry) : DWord := setIbit (setIbm 0#64 0 e.esid) 36 e.v
/-- The `slbmfev` image. -/
def slbVsidImage (e : SlbEntry) : DWord :=
  setIbit (setIbit (setIbit (setIbit (setIbit (setIbit (setIbm 0#64 15 e.vsid) 52 e.ks) 53 e.kp) 54 e.n) 55 e.l) 56 e.c) 59
    e.lp

/-- The ERAT entries that `tlbie` or `tlbiel` keeps: none for a large page; else those of other EA[47:51] (R445). -/
def eratKept (l : Bool) (rb : DWord) (x : EratEntry) : Bool := !l && decide (ibm x.eaPage 47 5 ≠ ibm rb 47 5)

/-- Drop the ERAT entries of both threads. -/
def State.eratInvalidate (s : State) (l : Bool) (rb : DWord) : State :=
  { s with threads := s.threads.map fun th => { th with erat := th.erat.filter (eratKept l rb) } }

/-- Whether a page number, in pages of 2^p bytes, agrees with RB[22:63-p] (R471). -/
def sameVpn (p page : Nat) (rb : DWord) : Bool := decide (page % 2^(42 - p) = rb.toNat % 2^42 / 2^p)

/-- Clear V of the entries that `f` picks, by class. -/
def clearTlb (f : Nat → TlbEntry → Bool) (l : List (Nat × TlbEntry)) : List (Nat × TlbEntry) :=
  (l.map fun kx => if f (kx.1 / 4) kx.2 then (kx.1, { kx.2 with v := false }) else kx).filter fun kx =>
    decide (kx.2 ≠ TlbEntry.empty)

/-- A selective invalidation of the TLB of the PPE. LP is compared by the page size it selects, as in the RTL of R472 and in R471;
the table of R472 names LP itself, which differs where both selectors of HID6[LB] are equal: DEDUCED (log 50). -/
def selects (p : PpeShared) (l : Bool) (bits : Nat) (rb : DWord) (x : TlbEntry) : Bool :=
  x.v && (x.l == l) && isSize (pageBits p.lb x.l x.lp) bits && decide (x.lpid = p.lpidr) &&
  sameVpn bits (x.vpn.toNat / 2^(bits - 12)) rb

/-- MFC_LPID and SMM_HID among the plain registers of an SPE (Mmio.lean). -/
def keyMfcLpid : Nat := 0x80008
def keySmmHid : Nat := 0x80580

/-- Whether a `tlbie` of partition `lpid` is for the translation unit of an SPE: MFC_SR1[T] = 1 and the same partition (R471,
R517). -/
def Spe.takesTlbie (q : Spe) (lpid : BitVec 5) : Bool :=
  ibit q.sr1 62 && decide ((sget 0 q.cells keyMfcLpid).toNat = lpid.toNat)

/-- The translation unit of an SPE performs a `tlbie` (R517). The entry's page number is its tag, and its class below it
(R505). One whose page size SMM_HID leaves reserved invalidates nothing: DESIGN CHOICE (log 50). -/
def Spe.performTlbie (q : Spe) (x : Snoop) : Spe :=
  let hid := ibm (sget 0 q.cells keySmmHid) 0 4
  match pageBits hid x.l (ibit x.rb 51) with
  | none => q
  | some p =>
    { q with tlb := clearTlb (fun cls e => (e.l == x.l) && isSize (pageBits hid e.l e.lp) p &&
        sameVpn p (e.vpn.toNat / 2^6 / 2^(p - 12) * 64 + cls) x.rb) q.tlb }

/-- A `tlbie` reaches the SPEs: each performs it in a later step of its MFC (R480, R517). -/
def State.broadcastTlbie (s : State) (x : Snoop) : State :=
  { s with spes := s.spes.map fun q => if q.takesTlbie x.lpid then { q with snoops := q.snoops ++ [x] } else q }

/-- An SPE performs every `tlbie` that waits. -/
def Spe.performTlbies (q : Spe) : Spe := { q.snoops.foldl Spe.performTlbie q with snoops := [] }

/-- `tlbie` and `tlbiel` with IS = '0-': the entries of one page (R471, R472). -/
def State.tlbInvalidate (s : State) (l : Bool) (rb : DWord) (broadcast : Bool) : Out State :=
  match pageBits s.ppe.lb l (ibit rb 51) with
  | none => .refused .reservedValue
  | some p =>
    let s1 : State := { s with ppe := { s.ppe with tlb := clearTlb (fun _ x => selects s.ppe l p rb x) s.ppe.tlb } }
    let s2 : State := if broadcast then s1.broadcastTlbie ⟨s.ppe.lpidr, l, rb⟩ else s1
    .next ((s2.eratInvalidate l rb).modThr Thread.advance)

/-- `tlbiel` with IS = '1-': a congruence class of every page size (R472). -/
def State.tlbInvalidateClass (s : State) (l : Bool) (rb : DWord) : Out State :=
  let hit (x : TlbEntry) : Bool :=
    match pageBits s.ppe.lb x.l x.lp with
    | none => false
    | some p => decide (tlbClass (x.vpn ++ 0#12) p = (ibm rb 44 8).toNat)
  let s1 : State := { s with ppe := { s.ppe with tlb := clearTlb (fun _ x => hit x) s.ppe.tlb } }
  .next ((s1.eratInvalidate l rb).modThr Thread.advance)

/-! ## CR moves -/

/-- `mtcrf`: the fields that FXM selects, from the low word of the register (R932). -/
def crMask (fxm : BitVec 8) : Word :=
  let f (i : Nat) : BitVec 4 := if ibit fxm i then 0xF else 0
  f 0 ++ f 1 ++ f 2 ++ f 3 ++ f 4 ++ f 5 ++ f 6 ++ f 7
/-- CR with the selected fields replaced. -/
def mergeCr (cr w : Word) (fxm : BitVec 8) : Word := (cr &&& ~~~(crMask fxm)) ||| (w &&& crMask fxm)

/-! ## System linkage -/

/-- `sc`, R922. Only the low bit of LEV is used. -/
def execPpeSc (lev : BitVec 7) (s : State) : Out State :=
  .next (s.interrupt s.curT (.systemCall (ibit lev 6)) (s.thr.pc + 4) 0)

/-- `rfid`, R923. -/
def execPpeRfid (s : State) : Out State :=
  supervisor s (s.msrWritten (s.modThr fun th => th.returnFrom false))

/-- `hrfid`, R924. -/
def execPpeHrfid (s : State) : Out State :=
  hypervisorOnly s (s.msrWritten (s.modThr fun th => th.returnFrom true))

/-! ## Special registers -/

/-- `mtspr`, R925. -/
def execPpeMtspr (rs : BitVec 5) (spr : BitVec 10) (s : State) : Out State :=
  sprAccess s spr.toNat (sprWritePriv spr.toNat) (s.writeSpr spr.toNat (s.thr.getGpr rs))

/-- `mfspr`, R926. -/
def execPpeMfspr (rt : BitVec 5) (spr : BitVec 10) (s : State) : Out State :=
  let n := spr.toNat
  sprAccess s n (sprReadPriv n)
    (if (n = 948 ∨ n = 949) ∧ (indexKey s.ppe.tlbIndex).isNone then .refused .reservedValue
     else ppeNext (s.drew (s.readSpr n).2) fun th => th.setGpr rt (s.readSpr n).1)

/-- `mftb`, R927. -/
def execPpeMftb (rt : BitVec 5) (tbr : BitVec 10) (s : State) : Out State :=
  if tbr.toNat = 268 ∨ tbr.toNat = 269 then ppeNext s fun th => th.setGpr rt (s.readSpr tbr.toNat).1
  else s.illegal

/-- `mtmsrd`, R928. -/
def execPpeMtmsrd (rs : BitVec 5) (l : Bool) (s : State) : Out State :=
  supervisor s (s.moveSync l (s.msrWritten (s.modThr fun th => { th with msr := moveMsr th.msr (th.getGpr rs) l }.advance)))

/-- `mtmsr`, R929. -/
def execPpeMtmsr (rs : BitVec 5) (l : Bool) (s : State) : Out State :=
  supervisor s (s.moveSync l (s.msrWritten (s.modThr fun th =>
    { th with msr := moveMsr th.msr (ibm th.msr 0 32 ++ lowWord (th.getGpr rs)) l }.advance)))

/-- `mfmsr`, R931. -/
def execPpeMfmsr (rt : BitVec 5) (s : State) : Out State :=
  supervisor s (ppeNext s fun th => th.setGpr rt th.msr)

/-- `mtcrf`, R932. -/
def execPpeMtcrf (rs : BitVec 5) (fxm : BitVec 8) (s : State) : Out State :=
  ppeNext s fun th => { th with cr := mergeCr th.cr (lowWord (th.getGpr rs)) fxm }

/-- `mtocrf`, R933. Any CR unless one field is selected (U53). -/
def execPpeMtocrf (rs : BitVec 5) (fxm : BitVec 8) (s : State) : Out State :=
  if popcount fxm = 1 then ppeNext s fun th => { th with cr := mergeCr th.cr (lowWord (th.getGpr rs)) fxm }
  else ppeNext (s.drew 1) fun th => { th with cr := s.free 32 0 }

/-- `mfcr`, R934. -/
def execPpeMfcr (rt : BitVec 5) (s : State) : Out State :=
  ppeNext s fun th => th.setGpr rt (th.cr.setWidth 64)

/-- `mfocrf`, R935. The bits outside the selected field are any value (U53). -/
def execPpeMfocrf (rt : BitVec 5) (fxm : BitVec 8) (s : State) : Out State :=
  let any := s.free 64 0
  ppeNext (s.drew 1) fun th =>
    th.setGpr rt (if popcount fxm = 1 then ibm any 0 32 ++ mergeCr (lowWord any) th.cr fxm else any)

/-! ## Synchronization: every access of the model is performed in order (log 6) -/

/-- `sync`, R930. With L = 0 (or 3, which acts as 0), and with L = 2, `ptesync`, which has every effect of `sync` (R937, 20_memory
R408), it does not complete before a pending imprecise machine check is taken (60_exceptions R1811). -/
def execPpeSync (l : BitVec 2) (s : State) : Out State :=
  if l = 1 then ppeNext s id else s.afterSync (ppeNext s id)

/-- `eieio`, R938. -/
def execPpeEieio (s : State) : Out State :=
  ppeNext s id

/-- `isync`, R939. -/
def execPpeIsync (s : State) : Out State :=
  ppeNext s id

/-! ## Segment lookaside buffer -/

/-- `slbmte`, R940. -/
def execPpeSlbmte (rs rb : BitVec 5) (s : State) : Out State :=
  supervisor s (ppeNext s fun th =>
    { th with slb := th.slb.set (slbNumber (th.getGpr rb)) (slbOf (th.getGpr rs) (th.getGpr rb)) })

/-- `slbmfee`, R941. -/
def execPpeSlbmfee (rt rb : BitVec 5) (s : State) : Out State :=
  supervisor s (ppeNext s fun th => th.setGpr rt (slbEsidImage th.slb[slbNumber (th.getGpr rb)]))

/-- `slbmfev`, R942. -/
def execPpeSlbmfev (rt rb : BitVec 5) (s : State) : Out State :=
  supervisor s (ppeNext s fun th => th.setGpr rt (slbVsidImage th.slb[slbNumber (th.getGpr rb)]))

/-- `slbie`, R943. -/
def execPpeSlbie (rb : BitVec 5) (s : State) : Out State :=
  supervisor s (ppeNext s fun th =>
    let v := th.getGpr rb
    { th with
      slb := th.slb.map fun e => if e.esid = ibm v 0 36 ∧ e.c = ibit v 36 then { e with v := false } else e
      erat := th.erat.filter fun x => x.cls != ibit v 36 })

/-- `slbia`, R944. -/
def execPpeSlbia (s : State) : Out State :=
  supervisor s (ppeNext s fun th => { th with slb := th.slb.map fun e => { e with v := false }, erat := [] })

/-! ## TLB -/

/-- `tlbie`, R945. -/
def execPpeTlbie (l : Bool) (rb : BitVec 5) (s : State) : Out State :=
  tlbManager s (s.tlbInvalidate l (s.thr.getGpr rb) true)

/-- `tlbiel`, R946. -/
def execPpeTlbiel (l : Bool) (rb : BitVec 5) (s : State) : Out State :=
  tlbManager s (
    let v := s.thr.getGpr rb
    if ibit v 52 then s.tlbInvalidateClass l v else s.tlbInvalidate l v false)

/-- `tlbsync`, R947: it completes when every `tlbie` has been performed at every SPE (21_translation R480); the model performs
those that still wait (log 16). -/
def execPpeTlbsync (s : State) : Out State :=
  tlbManager s (ppeNext { s with spes := s.spes.map Spe.performTlbies } id)

/-! ## Attention -/

/-- `attn`, R950. HID0[en_attn] is bit 31 (log 8). -/
def execPpeAttn (s : State) : Out State :=
  if ibit s.ppe.hid0 31 then .refused .attnDebugger else s.illegal

end Sys2Proof.Machine
end

