-- ==== Sys2Proof/Machine/Inbound.lean ====
section
/-! DEFINITION. The inbound writes that the machine has accepted and whose data it has not written yet: which of them comes before
which, and the writing of their data (20_memory.md R358, R359, R388, R389, R418; log 30). -/

namespace Sys2Proof.Machine

/-! ## Order (R388) -/

/-- Whether an inbound write is one of the accesses that come before a later one of `u` at `len` bytes from the I/O address `a`
on: the same device on the same virtual channel of the same interface; and a common I/O address, or `strong`. -/
def IoWrite.before (x : IoWrite) (u : IoUnit) (strong : Bool) (a len : Nat) : Bool :=
  decide (x.unit.ifc = u.ifc) && decide (x.unit.ioid = u.ioid) && decide (x.unit.vc = u.vc) &&
  (strong || (decide (x.addr < a + len) && decide (a < x.addr + x.len)))

/-- A pending inbound write with its target: main storage or a local storage. -/
structure Inbound where
  target : Option (Fin 8)
  w : IoWrite
deriving DecidableEq, Repr

/-- Whether `x` comes before `y`. -/
def Inbound.precedes (x y : Inbound) : Bool := decide (x.w.seq < y.w.seq) && x.w.before y.w.unit y.w.strong y.w.addr y.w.len

/-- Whether the data of `y` must wait for that of `x`. One write to a local storage that comes before an access elsewhere need only
be performed in the main-storage domain (R389, R418: `due`). -/
def Inbound.waitsFor (y x : Inbound) : Bool := x.precedes y && (decide (x.target = none) || decide (x.target = y.target))

/-- Put a pending write into a list, in the order of acceptance. -/
def insertInbound (x : Inbound) : List Inbound → List Inbound
  | [] => [x]
  | y :: rest => if x.w.seq ≤ y.w.seq then x :: y :: rest else y :: insertInbound x rest

/-- Every pending inbound write, in the order of acceptance. -/
def State.inbound (s : State) : List Inbound :=
  (s.plat.ioWrites.map (Inbound.mk none) ++
    (List.finRange 8).flatMap fun n => s.spes[n].snoopQ.map (Inbound.mk (some n))).foldr insertInbound []

/-- The members of a list that `f` picks, with every earlier one that one of them waits for. -/
def closedUnder (f : Inbound → Bool) : List Inbound → List Inbound
  | [] => []
  | x :: rest =>
    let l := closedUnder f rest
    if f x || l.any fun y => y.waitsFor x then x :: l else l

/-! ## The data -/

/-- Change the pending write with a number. -/
def changeWrite (f : IoWrite → IoWrite) (seq : Nat) (l : List IoWrite) : List IoWrite :=
  l.map fun x => if x.seq = seq then f x else x

/-- Change a pending write; one without data left is gone. -/
def State.modInbound (s : State) (x : Inbound) (f : IoWrite → IoWrite) : State :=
  let change (l : List IoWrite) : List IoWrite := (changeWrite f x.w.seq l).filter fun y => !y.parts.isEmpty
  match x.target with
  | none => { s with plat := { s.plat with ioWrites := change s.plat.ioWrites } }
  | some n => s.modN n fun p => { p with snoopQ := change p.snoopQ }

/-- Write the data of one access. -/
def State.putInbound (s : State) (target : Option (Fin 8)) (part : Nat × List Byte) : State :=
  let len := part.2.length
  match target with
  | none => s.storeMem none part.1 len (natOfBytes part.2)
  | some n => s.modN n fun p => { p with ls := writeBytes p.ls part.1 (natOfBytes part.2) len }

/-- The writes to a local storage that come before a write whose data is seen are performed in the main-storage domain. -/
def State.noteDue (s : State) (y : Inbound) : State :=
  let due (n : Fin 8) (x : IoWrite) : IoWrite := { x with due := x.due || (Inbound.mk (some n) x).precedes y }
  { s with spes := Vector.ofFn fun n => { s.spes[n] with snoopQ := s.spes[n].snoopQ.map (due n) } }

/-- One of the accesses of a pending write takes effect. -/
def State.inboundPart (s : State) (y : Inbound) (k : Nat) : State :=
  match y.w.parts[k]? with
  | none => s
  | some part => ((s.noteDue y).putInbound y.target part).modInbound y fun x => { x with parts := x.parts.eraseIdx k }

/-- All that is left of a pending write takes effect. -/
def State.inboundWhole (s : State) (y : Inbound) : State :=
  ((y.w.parts.foldl (fun s part => s.putInbound y.target part) (s.noteDue y))).modInbound y fun x => { x with parts := [] }

/-- The pending writes that `f` picks take effect, with those that they wait for. -/
def State.performInbound (s : State) (f : Inbound → Bool) : State := (closedUnder f s.inbound).foldl State.inboundWhole s

/-- One access of the pending write with a number takes effect, unless that write must wait. -/
def State.ioData (s : State) (seq part : Nat) : State :=
  match s.inbound.find? fun y => y.w.seq == seq with
  | none => s
  | some y => if s.inbound.any fun x => y.waitsFor x then s else s.inboundPart y (part % y.w.parts.length)

/-! ## The points at which pending data must be there -/

/-- An access of the main-storage domain to the local storage of SPE `n` comes after the writes that are due (R389, R418). -/
def State.meetAlias (s : State) (n : Fin 8) : State := s.performInbound fun x => x.w.due && decide (x.target = some n)

/-- An access of `u` other than a pending write comes after the ones before it (R388). -/
def State.ioBarrier (s : State) (u : IoUnit) (strong : Bool) (a len : Nat) : State :=
  let first (x : Inbound) : Bool := x.w.before u strong a len
  let s := s.performInbound fun x => first x && x.target.isNone
  { s with
    spes := s.spes.map fun p => { p with snoopQ := p.snoopQ.map fun x => { x with due := x.due || x.before u strong a len } } }

/-- An interrupt packet of an interface follows the pending writes of that interface (R389). -/
def State.followWrites (s : State) (p : Packet) : State :=
  let ifc : Fin 2 := if p.src = 0xB then 1 else 0
  let mark (x : IoWrite) : IoWrite := if x.unit.ifc = ifc then { x with followed := p :: x.followed } else x
  { s with
    plat := { s.plat with ioWrites := s.plat.ioWrites.map mark }
    spes := s.spes.map fun q => { q with snoopQ := q.snoopQ.map mark } }

/-- Software reads in IIC_IPP the interrupts for which `f` holds: what it accesses from then on is performed after the writes that
they follow (R389). -/
def State.meetInterrupt (s : State) (f : Packet → Bool) : State :=
  let s := s.performInbound fun x => x.target.isNone && x.w.followed.any f
  { s with spes := s.spes.map fun q => { q with snoopQ := q.snoopQ.map fun x => { x with due := x.due || x.followed.any f } } }

/-- Accept an inbound write: its data waits (R389). -/
def State.acceptWrite (s : State) (target : Option (Fin 8)) (u : IoUnit) (strong : Bool) (a len : Nat)
    (parts : List (Nat × List Byte)) : State :=
  let x : IoWrite :=
    { seq := s.plat.ioNext, unit := u, strong := strong, addr := a, len := len, parts := parts, followed := [], due := false,
      ms := false, ch := false }
  let s : State := { s with plat := { s.plat with ioNext := s.plat.ioNext + 1 } }
  match target with
  | none => { s with plat := { s.plat with ioWrites := s.plat.ioWrites ++ [x] } }
  | some n => s.modN n fun p => { p with snoopQ := p.snoopQ ++ [x] }

/-! ## Multisource synchronization (R418) -/

/-- A request through MFC_MSSync tracks the pending writes. -/
def Spe.requestMsSync (p : Spe) : Spe := { p with msSync := true, snoopQ := p.snoopQ.map fun x => { x with ms := true } }

/-- A request through channel 9 tracks the pending writes. -/
def Spe.trackWrites (p : Spe) : Spe := { p with snoopQ := p.snoopQ.map fun x => { x with ch := true } }

end Sys2Proof.Machine
end

