-- ==== Sys2Proof/Machine/Iic.lean ====
section
/-! DEFINITION. The internal interrupt controllers and the interrupts that the SPEs send to the PPE threads
(61_spe_iic_interrupts.md). -/

namespace Sys2Proof.Machine

/-! ## The internal interrupt controllers -/

/-- The unit ID of an SPE (12_state_platform R263). -/
def speUnit (n : Fin 8) : BitVec 4 := (#v[4, 7, 3, 8, 2, 9, 1, 0xA] : Vector (BitVec 4) 8)[n]

/-- Whether an 8-bit destination (node, unit) names one of the four units of this chip (R1905). -/
def validDst (d : BitVec 8) : Bool := d == 0x0E || d == 0x0F || d == 0x00 || d == 0x0B

/-- Change the controller of thread `t`. -/
def State.modIic (s : State) (t : Fin 2) (f : Iic → Iic) : State :=
  { s with plat := { s.plat with iic := s.plat.iic.set t (f s.plat.iic[t]) } }

/-- The IIC accepts a packet, or answers retry (none) if the queue entry of its priority is occupied; a packet for an IOIF
leaves the chip (R1902, R1905). -/
def State.deliver (s : State) (p : Packet) : Option State :=
  if p.dst = 0xE ∨ p.dst = 0xF then
    let t : Fin 2 := if p.dst = 0xE then 0 else 1
    let k : BitVec 4 := ibm p.prio 0 4
    if (s.plat.iic[t].queue[k.toNat]'k.isLt).valid then none
    else some (s.modIic t fun c =>
      { c with queue := c.queue.set k.toNat { valid := true, cls := p.cls, srcNode := p.srcNode, src := p.src } k.isLt })
  else some s

/-- The presented interrupt of a controller: priority, whether it is a generation-port one, class and source (R1903); the
generation port is first among equals (D98). `k` priorities are looked at, from `16 - k` on. -/
def Iic.bestFrom (c : Iic) : Nat → Option (BitVec 4 × Bool × BitVec 2 × BitVec 8)
  | 0 => none
  | k + 1 =>
    let p := BitVec.ofNat 4 (15 - k)
    let e := c.queue[p.toNat]'p.isLt
    if ibit c.igp p.toNat then some (p, true, 0, 0)
    else if e.valid then some (p, false, e.cls, e.srcNode ++ e.src)
    else c.bestFrom k

/-- The presented interrupt. -/
def Iic.best (c : Iic) : Option (BitVec 4 × Bool × BitVec 2 × BitVec 8) := c.bestFrom 16

/-- The value of IIC_IPP (12_state_platform R262). -/
def Iic.ipp (c : Iic) : DWord :=
  match c.best with
  | none => 0
  | some (p, gen, cls, src) =>
    let w : DWord := setIbit (setIbit 0 32 true) 33 gen
    setIbm (setIbm (setIbm w 46 cls) 48 src) 56 p

/-- The external interrupt signal of a thread (R1908). -/
def Iic.signal (c : Iic) : Bool :=
  match c.best with
  | none => false
  | some (p, _) => (p ++ 0#1).ult c.cpl

/-- A destructive read takes the presented interrupt and loads the current priority level (R1906). -/
def Iic.take (c : Iic) : Iic :=
  match c.best with
  | none => c
  | some (p, gen, _, _) =>
    let c := { c with cpl := p ++ 0#1 }
    if gen then { c with igp := setIbit c.igp p.toNat false }
    else { c with queue := c.queue.set p.toNat IicEntry.empty p.isLt }

/-- A packet that IIC_ISR creates (R1910); a full queue entry makes the IIC hold it (D100). -/
def State.sendIsr (s : State) : Res Unit :=
  let irr := s.plat.irr
  if !validDst (ibm irr 56 8) then .stop (.refused .interruptDestination)
  else
    let p : Packet :=
      { cls := 1, dstNode := ibm irr 56 4, dst := ibm irr 60 4, prio := ibm irr 48 4 ++ 0#4, srcNode := 0, src := 0xE }
    match s.deliver p with
    | some s => .ok () s
    | none => .ok () { s with plat := { s.plat with isrHeld := s.plat.isrHeld ++ [p] } }

/-- Bits of IIC_ISR become 1 (R1910): a packet when the register was zero. -/
def State.raiseIsr (s : State) (bits : DWord) : Res Unit :=
  let s' := { s with plat := { s.plat with isr := s.plat.isr ||| bits } }
  if s.plat.isr = 0 ∧ bits ≠ 0 then s'.sendIsr else .ok () s'

/-- A register of the platform among the cells. -/
def Platform.cell (p : Platform) (off : Nat) : DWord := sget 0 p.cells off

def offMicCnfg2 : Nat := 0x50A040
def offMicTraceMax : Nat := 0x50A058
def offMicTraceCur : Nat := 0x50A060
def offTkmCr : Nat := 0x50AC00
def offTkmIsr : Nat := 0x50AC28
def offEibInt : Nat := 0x511808
def offExcpStat : Nat := 0x510920
def offExcpMask : Nat := 0x510928

/-- The signals to IIC_ISR that are asserted (R1910): EIB_Int[0] with EIB_AC0_CTL[16] = 0 (59, R1913), the full auxiliary trace
region with MIC_Ctl_Cnfg2[8] = 1 (60, R1911), a captured I/O exception that IOC_IO_ExcpMask reports (61, R1912), and TKM_ISR
with an enable in TKM_CR[59:63] (63, R1914). The performance monitor asserts none (62, R1916). The places of the bits of
TKM_ISR, of PMI and TMI and the offsets are the model's (log 8). -/
def Platform.isrSources (p : Platform) : DWord :=
  let eib := ibit (p.cell offEibInt) 0 && !ibit (p.cell offEibAc0Ctl) 16
  let mic := ibit (p.cell offMicCnfg2) 8 && decide (p.cell offMicTraceCur = p.cell offMicTraceMax)
  let ioc := ibit (p.cell offExcpStat) 0 && decide (ibm (p.cell offExcpStat) 1 2 &&& ibm (p.cell offExcpMask) 1 2 ≠ (0 : BitVec 2))
  let tkm := decide (p.cell offTkmIsr &&& p.cell offTkmCr &&& 0x1F ≠ 0)
  setIbit (setIbit (setIbit (setIbit 0 59 eib) 60 mic) 61 ioc) 63 tkm

/-- A store to IIC_ISR clears the bits that it holds as 1, but one whose source is still asserted is set again at once; a 0 has no
effect on a bit; a packet again if bits are left (R1910, 12_state_platform R267). -/
def State.clearIsr (s : State) (v : DWord) : Res Unit :=
  let s := { s with plat := { s.plat with isr := s.plat.isr &&& (~~~v ||| s.plat.isrSources) } }
  if s.plat.isr ≠ 0 then s.sendIsr else .ok () s

/-- A platform register receives a value; the signals to IIC_ISR that it asserts are seen. -/
def State.setSignalCell (s : State) (off : Nat) (v : DWord) : Res Unit :=
  let s' : State := { s with plat := { s.plat with cells := sput 0 s.plat.cells off v } }
  s'.raiseIsr (s'.plat.isrSources &&& ~~~s.plat.isrSources)

/-! ## Held packets -/

/-- Send the packets held for IOIF devices again, in order (R1915). -/
def State.resendIo (s : State) : List Packet → State
  | [] => s
  | p :: rest =>
    match s.deliver p with
    | some s => { s with plat := { s.plat with ioHeld := s.plat.ioHeld.erase p } }.resendIo rest
    | none => s.resendIo rest

/-- Send the held packet of class `c` of SPE `n` again. -/
def State.resendSpe (s : State) (nc : Fin 8 × Fin 3) : State :=
  match s.spes[nc.1].held[nc.2] with
  | none => s
  | some p =>
    match s.deliver p with
    | some s => s.modN nc.1 fun e => { e with held := e.held.set nc.2 none }
    | none => s

/-- Send the packets of IIC_ISR that wait again, in order. -/
def State.resendIsr (s : State) : List Packet → State
  | [] => s
  | p :: rest =>
    match s.deliver p with
    | some s => { s with plat := { s.plat with isrHeld := s.plat.isrHeld.erase p } }.resendIsr rest
    | none => s.resendIsr rest

/-- Every sender of a held packet. -/
def heldSenders : List (Fin 8 × Fin 3) :=
  (List.finRange 8).flatMap fun n => (List.finRange 3).map fun c => (n, c)

/-- Interrupt-reissue (R1915). Of several held packets for one priority, for which the rule gives no order, the IIC's own come first,
then those of the SPEs by number and class, then those of the IOIFs: DESIGN CHOICE (log 53). -/
def State.reissue (s : State) : State :=
  let s := heldSenders.foldl State.resendSpe (s.resendIsr s.plat.isrHeld)
  s.resendIo s.plat.ioHeld

/-- A destructive read of IIC_IPP of thread `t` (R1906, D99): the value, and the state after it. -/
def State.ippTake (s : State) (t : Fin 2) : DWord × State :=
  (s.plat.iic[t].ipp, (s.modIic t Iic.take).reissue)

/-- Software reads the presented interrupt of thread `t` in IIC_IPP: the writes of its interface that it follows are there for what
software accesses next (20_memory R389). -/
def State.ippSeen (s : State) (t : Fin 2) : State :=
  match s.plat.iic[t].best with
  | some (k, false, cls, src) =>
    s.meetInterrupt fun p =>
      decide (p.dst = if t = 0 then 0xE else 0xF) && decide (ibm p.prio 0 4 = k) && decide (p.cls = cls) &&
        decide (p.srcNode ++ p.src = src)
  | _ => s

/-- A packet from an IOIF (R1917): the source becomes that interface's unit ID; a retried packet is held. It follows the writes of
the interface (20_memory R389). -/
def State.ioPacket (s : State) (p : Packet) : Res Unit :=
  let p := { p with srcNode := 0, src := if p.src = 0xB then 0xB else 0 }
  let s := s.followWrites p
  if !validDst (p.dstNode ++ p.dst) then .stop (.refused .interruptDestination)
  else
    match s.deliver p with
    | some s => .ok () s
    | none => .ok () { s with plat := { s.plat with ioHeld := s.plat.ioHeld ++ [p] } }

/-! ## SPE interrupts -/

/-- The implemented bits of INT_Stat and INT_Mask of a class (R1930 to R1932). -/
def intBits (c : Fin 3) : DWord := (#v[0x100000007, 0xF, 0x1F] : Vector DWord 3)[c]

/-- `pend` of a class (R1926). -/
def Spe.intPend (p : Spe) (c : Fin 3) : Bool := decide (p.intStat[c] &&& p.intMask[c] ≠ 0)

/-- The offset of INT_Route. -/
def keyIntRoute : Nat := 0x80180

/-- SPE `n` sends a packet of class `c` as INT_Route says (R1926, R1934); one packet of a class is outstanding at a time. -/
def State.sendInt (s : State) (n : Fin 8) (c : Fin 3) : Res Unit :=
  let p := s.spes[n]
  let route := sget 0 p.cells keyIntRoute
  let dst := ibm route (16 * c.val + 8) 8
  if p.held[c].isSome then .ok () s
  else if !validDst dst then .stop (.refused .interruptDestination)
  else
    let k : Packet :=
      { cls := BitVec.ofNat 2 c.val, dstNode := ibm dst 0 4, dst := ibm dst 4 4, prio := ibm route (16 * c.val) 4 ++ 0#4,
        srcNode := 0, src := speUnit n }
    match s.deliver k with
    | some s => .ok () s
    | none => .ok () (s.modN n fun e => { e with held := e.held.set c (some k) })

/-- Change a class of SPE `n`; a packet is sent when `pend` becomes true, and, with `again`, when it is left true (D101). -/
def State.changeInt (s : State) (n : Fin 8) (c : Fin 3) (again : Bool) (f : Spe → Spe) : Res Unit :=
  let before := s.spes[n].intPend c
  let s := s.modN n f
  if s.spes[n].intPend c && (again || !before) then s.sendInt n c else .ok () s

/-- A cause sets bits of INT_Stat of class `c`. -/
def State.raiseInt (s : State) (n : Fin 8) (c : Fin 3) (bits : DWord) : Res Unit :=
  s.changeInt n c false fun p => { p with intStat := p.intStat.set c (p.intStat[c] ||| bits) }

/-- A store to INT_Mask. -/
def State.storeIntMask (s : State) (n : Fin 8) (c : Fin 3) (v : DWord) : Res Unit :=
  s.changeInt n c false fun p => { p with intMask := p.intMask.set c (v &&& intBits c) }

/-- The offsets of MFC_FIR, MFC_FIR_Err and MFC_FIR_ChkStpEnbl (11_state_spe R182). -/
def keyFir : Nat := 0x80380
def keyFirErr : Nat := 0x80398
def keyFirChkstp : Nat := 0x803B0

/-- The bits of MFC_FIR that count. -/
def Spe.firPend (p : Spe) : DWord := sget 0 p.cells keyFir &&& ~~~sget 0 p.cells keyFirErr

/-- A store to INT_Stat clears the bits that it holds as 1; MF of class 0 is set again while MFC_FIR holds a bit (R1926,
R1939). -/
def State.storeIntStat (s : State) (n : Fin 8) (c : Fin 3) (v : DWord) : Res Unit :=
  let mf : DWord := if c = 0 ∧ s.spes[n].firPend ≠ 0 then 0x100000000 else 0
  s.changeInt n c true fun p => { p with intStat := p.intStat.set c ((p.intStat[c] &&& ~~~v) ||| mf) }

/-- A register of the MFC_FIR family receives a value (R1939, D103): checkstop where enabled, else MF of class 0 when the
condition becomes true. -/
def State.storeFir (s : State) (n : Fin 8) (key : Nat) (v : DWord) : Res Unit :=
  let before := s.spes[n].firPend
  let s := s.modN n fun p => { p with cells := sput 0 p.cells key v }
  let after := s.spes[n].firPend
  if after &&& sget 0 s.spes[n].cells keyFirChkstp ≠ 0 then .stop s.checkstop
  else if before = 0 ∧ after ≠ 0 then s.raiseInt n 0 0x100000000
  else .ok () s

end Sys2Proof.Machine
end

