-- ==== Sys2Proof/Machine/SpuOps.lean ====
section
/-! DEFINITION. How an SPU starts and stops, and the effects of its channels (48_spu_compare_branch.md,
49_spu_control_channel.md, 49_spe_mailbox_signal_event.md, 49_mfc_commands.md section 7). -/

namespace Sys2Proof.Machine

/-! ## Running and stopping -/

/-- The register SPU_ERR_Mask among the cells (61_spe_iic_interrupts R1933). -/
def keySpuErrMask : Nat := 0x81018

/-- MFC_SR1[S], bit 58 (11_state_spe R183). -/
def Spe.masterRun (p : Spe) : Bool := ibit p.sr1 58

/-- SPU_Status with the StopCode kept and the other bits replaced (11_state_spe R176). -/
def Spe.statusWith (p : Spe) (bits : Word) : Word := (p.status &&& 0xFFFF0000) ||| bits

/-- The SPU leaves the running state: SPU_Status becomes `status` and SPU_NPC the address `a` with the current IE in bit 31
(11_state_spe R176, R177). -/
def Spe.stopAt (p : Spe) (status a : Word) : Spe :=
  { p with running := false, status := status, npc := a ||| (if p.ie then 1 else 0), pc := a }

/-- A stop-and-signal with signal type `code` (R1553): SPU_Status[P], class 2 interrupt S. -/
def State.stopSignal (s : State) (code : BitVec 14) : Out State :=
  let s := s.modSpe fun p => p.stopAt (code.setWidth 16 ++ (2 : BitVec 16)) p.nextPc
  (s.raiseInt s.curN 2 0x2).done fun _ s => .next s

/-- A halt whose condition holds (R1407): SPU_Status[H], class 2 interrupt H. -/
def State.spuHalt (s : State) : Out State :=
  let s := s.modSpe fun p => p.stopAt (p.statusWith 0x4) p.nextPc
  (s.raiseInt s.curN 2 0x4).done fun _ s => .next s

/-- A conditional halt. -/
def haltIf (s : State) (b : Bool) : Out State := if b then s.spuHalt else spuNext s id

/-- An invalid instruction (30_encoding R564, D70): SPU_Status[I], SPU_NPC holds its own address, class 0 interrupt SE if
SPU_ERR_Mask[I] is 1. -/
def State.spuInvalid (s : State) : Out State :=
  let s := s.modSpe fun p => p.stopAt (p.statusWith 0x20) p.pc
  if ibit (sget 0 s.spe.cells keySpuErrMask) 63 then (s.raiseInt s.curN 0 0x4).done fun _ s => .next s
  else .next s

/-- A run request (R1557): it starts a stopped SPU if MFC_SR1[S] is 1; SPU_Status is then R alone (98_test_vectors_spe section
2.12.3). -/
def Spe.runRequest (p : Spe) : Spe :=
  let p := { p with runCntl := 1 }
  if p.masterRun && !p.running then
    { p with running := true, pc := p.npc &&& p.lslr &&& ~~~3#32, ie := ibit p.npc 31, status := 1, ibuf := [] }
  else p

/-- A running SPU stops between two instructions, without a reason bit (R1557). -/
def Spe.stopOutside (p : Spe) : Spe :=
  if p.running then p.stopAt (p.statusWith 0) p.pc else p

/-- SPU_Status[W], bit 28. -/
def Spe.waiting (p : Spe) (w : Bool) : Spe := { p with status := setIbit p.status 28 w }

/-- An instruction that is not supported on the Cell/B.E. (30_encoding R564). -/
def xcellOnly (s : State) (o : Out State) : Out State :=
  if s.cfg.chip = .powerXCell8i then o else s.spuInvalid

/-! ## Branches (R1440, R1449) -/

/-- A word in the preferred slot, zeros elsewhere. -/
def prefQ (w : Word) : QWord := w ++ (0 : BitVec 96)

/-- Set link. -/
def Spe.setLink (p : Spe) (rt : BitVec 7) : Spe := p.set rt p.link

/-- The preferred halfword of a register. -/
def Spe.prefHalf (p : Spe) (r : BitVec 7) : Half := ibm (p.get r) 16 16

/-- Go to the target if the condition holds. -/
def Spe.branchTo (p : Spe) (taken : Bool) (target : Word) : Spe :=
  { p with pc := if taken then target else p.nextPc }

/-- The interrupt feature bits of a taken indirect branch. -/
def Spe.feature (p : Spe) (d e : Bool) : Spe := { p with ie := if e then true else if d then false else p.ie }

/-- An indirect branch with interrupt feature bits; both bits together are undefined (U58). -/
def branchIndirect (s : State) (d e : Bool) (f : Spe → Bool × Word × Spe) : Out State :=
  if d && e then .refused .branchDisableAndEnable
  else .next (s.modSpe fun p =>
    match f p with
    | (taken, target, p') => if taken then (p'.feature d e).branchTo true target else p'.branchTo false target)

/-- SRR0 as `iret` and channel 15 see it: before `syncc` the old or the new value (U59). After two writes of channel 14 without a `syncc`
the old value is that of the first one: DESIGN CHOICE (log 47). -/
def State.seenSrr0 (s : State) : Word :=
  match s.spe.srr0Old with
  | none => s.spe.srr0
  | some w => if s.free 1 0 = 1 then w else s.spe.srr0

/-- The draw of `seenSrr0`, if one was made. -/
def State.drewSrr0 (s : State) : State := if s.spe.srr0Old.isSome then s.drew 1 else s

/-- SPU interrupt entry (R1460); after an unsynchronized write of SRR0 either value is kept (U59). -/
def State.spuInterrupt (s : State) : State :=
  let keep := s.spe.srr0Old.isSome && decide (s.free 1 0 = 1)
  s.drewSrr0.modSpe fun p =>
    { p.waiting false with ie := false, srr0 := if keep then p.srr0 else p.pc, srr0Old := none, pc := 0 }

/-! ## Channels (11_state_spe R159, R160) -/

/-- Set a channel count. -/
def Spe.setCnt (p : Spe) (ch : Fin 32) (v : Word) : Spe := { p with cnt := p.cnt.set ch v }

/-- The readable channels. -/
def readableChannel (ch : Nat) : Bool := [0, 3, 4, 8, 11, 12, 13, 15, 24, 25, 27, 29].contains ch
/-- The writable channels. -/
def writableChannel (ch : Nat) : Bool :=
  [1, 2, 7, 9, 14, 16, 17, 18, 19, 20, 21, 22, 23, 26, 28, 30].contains ch
/-- The blocking channels. -/
def blockingChannel (ch : Nat) : Bool := [0, 3, 4, 9, 21, 23, 24, 25, 27, 28, 29, 30].contains ch

/-- The count of a channel. -/
def Spe.count (p : Spe) (ch : Nat) : Word := p.cnt[ch % 32]'(Nat.mod_lt _ (by decide))

/-- The value of `rchcnt` (R1562). -/
def Spe.rchcnt (p : Spe) (ch : Nat) : Word :=
  if blockingChannel ch then p.count ch else if readableChannel ch || writableChannel ch then 1 else 0

/-- After a change of PEND or EMASK by a channel: the count of channel 0 becomes 1 if an enabled event is pending (R1763,
R1765). -/
def Spe.recount (p : Spe) : Spe := if p.pend &&& p.emask ≠ 0 then p.setCnt 0 1 else p

/-- Write of channel 7 (R1564). -/
def Spe.writeDec (p : Spe) (v : Word) (dh : Bool) : Spe :=
  let old := p.sdec
  let p := { p with sdec := v, sdecRun := p.sdecRun || !dh }
  if !ibit old 0 && ibit v 0 then p.raiseEvent 26 else p

/-- One tick of the SPU decrementer (R1564, R1783). -/
def Spe.tickDec (p : Spe) : Spe :=
  if p.sdecRun && !p.dh then
    let old := p.sdec
    let p := { p with sdec := p.sdec - 1 }
    if !ibit old 0 && ibit p.sdec 0 then p.raiseEvent 26 else p
  else p

/-- Write of channel 2 (R1765, R1783). -/
def Spe.ackEvents (p : Spe) (v : Word) : Spe :=
  { p with sdecRun := p.sdecRun && !(ibit v 26 && !ibit p.emask 26), pend := p.pend &&& ~~~v }.recount

/-- The inbound mailbox without its oldest entry. -/
def Spe.popInMbox (p : Spe) : Spe := { p with inMbox := #v[p.inMbox[1], p.inMbox[2], p.inMbox[3], 0] }

/-- The read effect of a readable channel whose count is not 0 (R1560). -/
def readChannel (s : State) (ch : Nat) : Res Word :=
  let p := s.spe
  match ch with
  | 0 => .ok (p.pend &&& p.emask) (s.modSpe fun p => p.setCnt 0 0)
  | 3 => .ok p.sig1 (s.modSpe fun p => { p with sig1 := 0 }.setCnt 3 0)
  | 4 => .ok p.sig2 (s.modSpe fun p => { p with sig2 := 0 }.setCnt 4 0)
  | 8 => .ok p.sdec s
  | 11 => .ok p.emask s
  | 12 => .ok p.tagMask s
  | 13 => .ok (if p.ie then 1 else 0) s
  | 15 => .ok s.seenSrr0 s.drewSrr0
  | 24 => .ok p.tagStat (s.modSpe fun p => p.setCnt 24 0)
  | 25 => .ok p.stallStat (s.modSpe fun p => { p with stallStat := 0 }.setCnt 25 0)
  | 27 => .ok p.atomStat (s.modSpe fun p => { p with atomStat := 0 }.setCnt 27 0)
  | 29 =>
    let s := s.modSpe fun p => p.popInMbox.setCnt 29 (p.count 29 - 1)
    (if s.spe.count 29 = 0 then s.raiseInt s.curN 2 0x10 else .ok () s).bind fun _ s => .ok p.inMbox[0] s
  | _ => .ok 0 s

/-! ## Errors and the issue of MFC commands -/

/-- MFC_CER among the cells (11_state_spe R182). -/
def keyCer : Nat := 0x80C00

/-- A command error (`bit` C) or alignment error (`bit` A) of SPE `n`: both queues stop, MFC_CER and INT_Stat_class0 are
written (49_mfc_commands R1639). -/
def State.mfcError (s : State) (n : Fin 8) (bit : DWord) (index : Nat) : Res Unit :=
  (s.modN n fun p => { p with halted := true, cells := sput 0 p.cells keyCer (BitVec.ofNat 64 index) }).raiseInt n 0 bit

/-- INT_Stat_class0[C] and [A]. -/
def intC : DWord := 0x2
def intA : DWord := 0x1

/-- The index that MFC_CER and MFC_DSIPR show for the immediate atomic command (log 21). -/
def atomicIndex : Nat := 24

/-- The immediate atomic opcodes (49_mfc_commands R1641). -/
def immediateOpcode (op : BitVec 8) : Bool := op == 0xD0 || op == 0xB4 || op == 0xB0

/-- The lowest number of an entry that no command of a queue has (log 21). -/
def freeSlot (q : List MfcCmd) : Nat := ((List.range q.length).find? fun k => !q.any fun c => c.slot == k).getD q.length

/-- Write of channel 21 (49_mfc_commands R1641): issue never fails; that an immediate atomic command comes while one is pending
is for the MFC to find (R1631, R1637 (c)). -/
def issueSpu (s : State) (v : Word) : Res Unit :=
  let p := s.spe
  let c : MfcCmd :=
    { word := v, lsa := p.mfcLsa, ea := p.mfcEah ++ p.mfcEal, size := p.mfcSize, tag := p.mfcTag, order := p.orderNext,
      slot := freeSlot p.spuQ, listDone := 0, elem := none, units := 0, stalled := false, dep := false }
  let s := s.modSpe fun p => { p with mfcEah := 0, orderNext := p.orderNext + 1 }
  if immediateOpcode (ibm v 24 8) then
    if p.atomicCmd.isSome then .ok () (s.modSpe fun p => { p with atomicLate := p.atomicLate + 1 })
    else .ok () (s.modSpe fun p => { p with atomicCmd := some c })
  else .ok () (s.modSpe fun p => { p with spuQ := p.spuQ ++ [c] }.setCnt 21 (p.count 21 - 1))

/-- Write of channel 26 (49_mfc_commands R1686, R1676); a tag group with no stalled command leaves STALLSTAT open (U66). -/
def ackStall (s : State) (v : Word) : State :=
  let t : BitVec 5 := ibm v 27 5
  let hit (c : MfcCmd) : Bool := c.stalled && (ibm c.tag 11 5 == t)
  if s.spe.spuQ.any hit then
    s.modSpe fun p => { p with spuQ := p.spuQ.map fun c => if hit c then { c with stalled := false } else c }
  else (s.modSpe fun p => { p with stallStat := s.free 32 0 }).drew 1

/-- The tag-status request of a value: '11', which is reserved, is treated as '00' (49_mfc_commands R1682, U66). -/
def tagRequest (v : BitVec 2) : BitVec 2 := if v = 3 then 0 else v

/-- The write effect of a writable channel that can accept the value (R1561). -/
def writeChannel (s : State) (ch : Nat) (v : Word) : Res Unit :=
  match ch with
  | 1 => .ok () (s.modSpe fun p => { p with emask := v }.recount)
  | 2 => .ok () (s.modSpe fun p => p.ackEvents v)
  | 7 => .ok () (s.modSpe fun p => p.writeDec v p.dh)
  | 9 => .ok () (s.modSpe fun p => p.trackWrites.setCnt 9 0)
  | 14 => .ok () (s.modSpe fun p => { p with srr0 := v, srr0Old := some p.srr0 })
  | 16 => .ok () (s.modSpe fun p => { p with mfcLsa := v })
  | 17 => .ok () (s.modSpe fun p => { p with mfcEah := v })
  | 18 => .ok () (s.modSpe fun p => { p with mfcEal := v })
  | 19 => .ok () (s.modSpe fun p => { p with mfcSize := ibm v 16 16 })
  | 20 => .ok () (s.modSpe fun p => { p with mfcTag := ibm v 16 16 })
  | 21 => issueSpu s v
  | 22 => .ok () (s.modSpe fun p => { p with tagMask := v })
  | 23 => .ok () (s.modSpe fun p => ({ p with tagReq := tagRequest (ibm v 30 2) }.setCnt 23 0).setCnt 24 0)
  | 26 => .ok () (ackStall s v)
  | 28 => .ok () (s.modSpe fun p => { p with outMbox := v }.setCnt 28 0)
  | 30 => (s.modSpe fun p => { p with outIntrMbox := v }.setCnt 30 0).raiseInt s.curN 2 0x1
  | _ => .ok () s

/-- Whether a write of `v` to a channel has to wait: a full SPU command queue has no room whatever a context restore left in the
count; an immediate tag-status request replaces a pending one (D81). -/
def writeWaits (p : Spe) (ch : Nat) (v : Word) : Bool :=
  (blockingChannel ch && decide (p.count ch = 0) && !(ch == 23 && (ibm v 30 2 == (0 : BitVec 2) || ibm v 30 2 == (3 : BitVec 2)))) ||
  (ch == 21 && decide (16 ≤ p.spuQ.length))

end Sys2Proof.Machine
end

