-- ==== Sys2Proof/Machine/Smm.lean ====
section
/-! DEFINITION. The memory-management unit of an SPE: translation of MFC accesses, its registers, and the recording of its
exceptions (21_translation.md section 7). -/

namespace Sys2Proof.Machine

/-! ## Registers among the cells (11_state_spe R182; fields of SMM_HID, MFC_RMAB: log 8) -/

def keySdr : Nat := 0x80400
def keyAccr : Nat := 0x80600
def keyDsisr : Nat := 0x80610
def keyDar : Nat := 0x80620
def keyTlbRmt : Nat := 0x80710
def keyDsipr : Nat := 0x80800
def keyLsacr : Nat := 0x80808
def keyLscrr : Nat := 0x80810
def keyRmab : Nat := 0x80900

/-- A plain register of an SPE. -/
def Spe.cell (p : Spe) (key : Nat) : DWord := sget 0 p.cells key
/-- Write a plain register of an SPE. -/
def Spe.setCell (p : Spe) (key : Nat) (v : DWord) : Spe := { p with cells := sput 0 p.cells key v }

/-- SMM_HID[Pg_Sz_Dcd]. -/
def Spe.pgSzDcd (p : Spe) : BitVec 4 := ibm (p.cell keySmmHid) 0 4
/-- The ways that the RMT lets class `r` replace, bits 48+4r to 51+4r of MFC_TLB_RMT_Data (log 8); all with SMM_HID[RMT_Dsbl],
bit 8 (R506). -/
def Spe.rmt (p : Spe) (r : Nat) : BitVec 4 :=
  if ibit (p.cell keySmmHid) 8 then 0xF else ibm (p.cell keyTlbRmt) (48 + 4 * (r % 4)) 4

/-- An entry of the SMM TLB. -/
def Spe.tlbAt (p : Spe) (key : Nat) : TlbEntry := sget TlbEntry.empty p.tlb key
/-- Write an entry of the SMM TLB. -/
def Spe.setTlb (p : Spe) (key : Nat) (x : TlbEntry) : Spe := { p with tlb := sput TlbEntry.empty p.tlb key x }

/-- What the TLB keeps of the second doubleword: W is not implemented, R and M read 1 (R510, R514). -/
def smmPte1 (d : DWord) : DWord := (d &&& 0x3FFFFFFF3FF &&& ~~~0x40#64) ||| 0x110

/-! ## Exceptions (R519, R520) -/

/-- How the translation of an MFC access ends. -/
inductive DmaRes where
  | real (ra : Nat) (s : State)
  /-- The command waits for the outstanding exception (R519). -/
  | held (s : State)
  /-- An exception: bits of INT_Stat_class1, the DSISR it writes (none: a segment fault), "DMAC suspends". -/
  | fault (stat : DWord) (dsisr : Option DWord) (suspend : Bool) (s : State)
  | stop (o : Out State)

/-- INT_Stat_class1[MF] and [SF]. -/
def statMf : DWord := 0x2
def statSf : DWord := 0x1

/-- MFC_DSISR[S], set for the storing commands. -/
def dsisrS (store : Bool) : DWord := if store then 0x02000000 else 0

/-- A page fault, a protection violation, an atomic access to caching-inhibited storage, an address compare. -/
def smmPageFault (store : Bool) (s : State) : DmaRes := .fault statMf (some (0x40000000 ||| dsisrS store)) false s
def smmProtection (store : Bool) (s : State) : DmaRes := .fault statMf (some (0x08000000 ||| dsisrS store)) false s
def smmAtomic (store : Bool) (s : State) : DmaRes := .fault statMf (some (0x04000000 ||| dsisrS store)) true s
def smmCompare (store : Bool) (s : State) : DmaRes := .fault statMf (some (0x00400000 ||| dsisrS store)) true s

/-- Record an exception of the command with queue index `index`: MFC_DAR and MFC_DSIPR, and MFC_DSISR unless it is a segment
fault (61_spe_iic_interrupts R1937, R1938; 49_mfc_commands R1640). -/
def State.smmException (s : State) (n : Fin 8) (ea : DWord) (index : Nat) (stat : DWord) (dsisr : Option DWord)
    (suspend : Bool) : Res Unit :=
  let s := s.modN n fun p =>
    let p := { p.setCell keyDar ea with smmBusy := true, sc := p.sc || suspend }
    let p := match dsisr with
      | none => p
      | some d => p.setCell keyDsisr d
    if p.dsiprLocked then p else { p.setCell keyDsipr (BitVec.ofNat 64 index) with dsiprLocked := true }
  s.raiseInt n 1 stat

/-! ## Translation (R499 to R518) -/

/-- Real-mode attribute I of an address (R518). -/
def Spe.realI (p : Spe) (ra : Nat) : Bool :=
  let n := (p.cell keyRmab).toNat % 16
  n == 0 || decide (2^(n + 27) ≤ ra)

/-- The congruence class: the six bits above the page offset (R505). -/
def smmClass (va : BitVec 80) (p : Nat) : Nat := va.toNat / 2^p % 64

/-- Whether an entry translates the request; the stored tag is VA[0:61] (R505). -/
def smmHit (x : TlbEntry) (e : SlbEntry) (va : BitVec 80) (p : Nat) : Bool :=
  x.v && (x.l == e.l) && (x.lp == e.lp) && decide (va.toNat / 2^(p + 6) = x.vpn.toNat / 2^6 / 2^(p - 12))

/-- The way to replace: an invalid one, else a drawn one that the RMT leaves eligible (R506, D28). -/
def Spe.smmVictim (p : Spe) (cls r : Nat) (draw : BitVec 2) : Nat :=
  match firstWay fun w => !(p.tlbAt (4 * cls + w)).v with
  | some w => 4 * cls + w
  | none => 4 * cls + drawWay (p.rmt r) draw

/-- The checks after a match (R509): protection, atomic access to caching-inhibited storage, address compare; then C is
recorded in the page table and in the TLB for a store. The address compare (AC = 1 and MFC_ACCR not zero) matches by a draw at each
translation, since the specification leaves open what MFC_ACCR selects: DESIGN CHOICE (log 12). -/
def smmChecks (s : State) (n : Fin 8) (e : SlbEntry) (key : Nat) (pte : Option Nat) (ea : DWord) (store atomic : Bool)
    (bits : Nat) : DmaRes :=
  let p := s.spes[n]
  let x := p.tlbAt key
  match rpnOf x.l x.pte1 bits with
  | none => .stop (.refused .reservedValue)
  | some rpn =>
    let page : Page :=
      { ra := rpn * 4096 + ea.toNat % 2^bits, i := ibit x.pte1 58, g := ibit x.pte1 60, fetchG := false, noExec := false,
        ks := e.ks, kp := e.kp, pp := ibm x.pte1 62 2, c := ibit x.pte1 56, cls := e.c, bits := bits, slot := some key,
        pte := pte }
    let compares := ibit x.pte1 54 && decide (p.cell keyAccr ≠ 0)
    let s' := if compares then s.drew 1 else s
    if !permits (ibit p.sr1 60) page store then smmProtection store s
    else if atomic && page.i then smmAtomic store s
    else if compares && decide (s.free 1 0 = 1) then smmCompare store s'
    else if store && !page.c then
      match pte with
      | none => .real page.ra s'
      | some a =>
        let s' := s'.setPteBits (.mfc n) a (pteAt s' a).2 0x80
        .real page.ra (s'.modN n fun p => p.setTlb key { p.tlbAt key with pte1 := (p.tlbAt key).pte1 ||| 0x80 })
    else .real page.ra s'

/-- Whether the SMM and the PPE disagree on a page table that they share (R510). -/
def tableMismatch (s : State) (p : Spe) : Bool :=
  decide (htabOrg (p.cell keySdr) = htabOrg s.ppe.sdr1) &&
  (decide (htabSize (p.cell keySdr) ≠ htabSize s.ppe.sdr1) || decide (p.pgSzDcd ≠ s.ppe.lb))

/-- A TLB miss, or a store that hits an entry with C = 0 (`old`): software reload reports it (R508), hardware reload
searches the page table and installs the entry (R507). A reserved line counts as one that holds PTEs in use (U47) only if the PTE that
matches is in it, not if the search reads it without a match: DESIGN CHOICE (log 57). -/
def smmMiss (s : State) (n : Fin 8) (e : SlbEntry) (ea : DWord) (bits r : Nat) (old : Option Nat) (store atomic : Bool) :
    DmaRes :=
  let p := s.spes[n]
  let va := vaOf e ea
  let key := match old with
    | some key => key
    | none => p.smmVictim (smmClass va bits) r (s.free 2 0)
  let s := (s.drew 1).modN n fun p => { p with tlbHint := indexImage key }
  if ibit p.sr1 57 then smmPageFault store s
  else if tableMismatch s p then .stop (.refused .pageTableMismatch)
  else
    match tableSearch s (p.cell keySdr) e va bits (.refused .smmMultipleMatch) with
    | .stop o => .stop o
    | .none => smmPageFault store s
    | .found a d0 d1 =>
      if p.llres = some (a / 128) then .stop (.refused .lockedPteLine)
      else
        let s := s.setPteBits (.mfc n) a d1 0x100
        let x : TlbEntry :=
          { v := true, vpn := ibm va 0 62 ++ 0#6, l := e.l, lp := e.lp, lpid := 0, pte0 := d0, pte1 := smmPte1 d1 }
        smmChecks (s.modN n fun p => p.setTlb key x) n e key (some a) ea store atomic bits

/-- Translation of an effective address of SPE `n` for a loading or storing access; `r` is the RclassID. Of several matching ways the
lowest is used: DESIGN CHOICE (log 33). -/
def smmTranslate (s : State) (n : Fin 8) (ea : DWord) (store atomic : Bool) (r : Nat) : DmaRes :=
  let p := s.spes[n]
  if !ibit p.sr1 59 then
    let ra := ea.toNat % 2^42
    if atomic && p.realI ra then (if p.smmBusy then .held s else smmAtomic store s) else .real ra s
  else
    match slbMatches p.slb.toList ea with
    | [] => if p.smmBusy then .held s else .fault statSf none false s
    | [e] =>
      let bits := e.pageBits
      if bits = 0 then .stop (.refused .reservedValue)
      else
        let va := vaOf e ea
        let cls := smmClass va bits
        let miss (old : Option Nat) : DmaRes := if p.smmBusy then .held s else smmMiss s n e ea bits r old store atomic
        match firstWay fun w => smmHit (p.tlbAt (4 * cls + w)) e va bits with
        | none => miss none
        | some w =>
          let key := 4 * cls + w
          if store && !ibit (p.tlbAt key).pte1 56 then miss (some key)
          else
            match smmChecks s n e key none ea store atomic bits with
            | .fault stat dsisr suspend s' => if p.smmBusy then .held s else .fault stat dsisr suspend s'
            | o => o
    | _ => .stop (.refused .smmMultipleMatch)

/-! ## SLB and TLB registers (R500, R501, R511 to R515) -/

/-- Write SLB_ESID: ESID and V of the selected entry. -/
def Spe.writeSlbEsid (p : Spe) (v : DWord) : Spe :=
  let e := p.slb[p.slbIndex.toNat]'p.slbIndex.isLt
  { p with slb := p.slb.set p.slbIndex.toNat { e with esid := ibm v 0 36, v := ibit v 36 } p.slbIndex.isLt }

/-- Write SLB_VSID: the rest of the selected entry, with the page size of the moment (0: a reserved selector). -/
def Spe.writeSlbVsid (p : Spe) (v : DWord) : Spe :=
  let e := p.slb[p.slbIndex.toNat]'p.slbIndex.isLt
  let x := slbOf v 0
  let bits := (pageBits p.pgSzDcd x.l x.lp).getD 0
  { p with slb := p.slb.set p.slbIndex.toNat { x with esid := e.esid, v := e.v, pageBits := bits } p.slbIndex.isLt }

/-- The entry that SLB_Index selects. -/
def Spe.slbSelected (p : Spe) : SlbEntry := p.slb[p.slbIndex.toNat]'p.slbIndex.isLt

/-- Write SLB_Invalidate_Entry. -/
def Spe.slbInvalidate (p : Spe) (ea : DWord) : Spe :=
  { p with slb := p.slb.map fun e => if e.esid = ibm ea 0 36 then { e with v := false } else e }
/-- Write SLB_Invalidate_All (R500): every V is cleared. The other fields stay and can be read, although 'No data is retained':
DESIGN CHOICE (log 50). -/
def Spe.slbInvalidateAll (p : Spe) : Spe := { p with slb := p.slb.map fun e => { e with v := false } }

/-- The key of the entry that MFC_TLB_Index selects (R512). -/
def Spe.indexKey (p : Spe) : Option Nat := Machine.indexKey (p.tlbIndex &&& 0x3FF)

/-- The image of MFC_TLB_VPN (R513). -/
def smmVpnImage (x : TlbEntry) : DWord :=
  setIbit (setIbit ((x.pte0 &&& 0x7A#64) ||| ((ibm x.vpn 15 42).setWidth 64 <<< 7)) 61 x.l) 63 x.v

/-- Write MFC_TLB_VPN: the selected entry gets the tag, the attributes and the last MFC_TLB_RPN. The LP tag of an entry with L = 0
is 0: DESIGN CHOICE (log 32). -/
def Spe.writeTlbVpn (p : Spe) (key : Nat) (v : DWord) : Spe :=
  let l := ibit v 61
  p.setTlb key
    { v := ibit v 63, vpn := 0#15 ++ ibm v 15 42 ++ ibm p.tlbIndex 16 5 ++ 0#6, l := l, lp := l && ibit p.tlbRpn 51,
      lpid := 0, pte0 := v &&& 0x7A, pte1 := smmPte1 p.tlbRpn }

/-- Read MFC_TLB_VPN: MFC_TLB_Index[LVPN] is updated. -/
def Spe.readTlbVpn (p : Spe) (key : Nat) : DWord × Spe :=
  let x := p.tlbAt key
  (smmVpnImage x, { p with tlbIndex := setIbm p.tlbIndex 16 (ibm x.vpn 57 5) })

/-- Write MFC_TLB_Invalidate_Entry (R515): L is bit 62 and LS bit 63 of the value (log 8); none: a reserved selector. -/
def Spe.tlbInvalidateClass (p : Spe) (v : DWord) : Option Spe :=
  (pageBits p.pgSzDcd (ibit v 62) (ibit v 63)).map fun b =>
    let cls := (ibm v (68 - b) 6).toNat
    { p with tlb := clearTlb (fun c _ => decide (c = cls)) p.tlb }

end Sys2Proof.Machine
end

