-- ==== Sys2Proof/Machine/MfcOps.lean ====
section
/-! DEFINITION. The queues of an MFC: issue from outside, tag groups, suspension and purge, context images
(49_mfc_commands.md, 11_state_spe.md R172, R180). -/

namespace Sys2Proof.Machine

/-- The tag of a command. -/
def MfcCmd.tagNo (c : MfcCmd) : Nat := c.tag.toNat % 32

/-- The vector of the tag groups that have no command in a queue: bit 31 - g for group g (R1682). -/
def doneGroups : List MfcCmd → Word
  | [] => 0xFFFFFFFF
  | c :: rest => doneGroups rest &&& ~~~((1 : Word) <<< c.tagNo)

/-- Whether a query of type `ty` (1 any, 2 all) on the masked groups holds (R1682, R1688). -/
def queryHolds (ty : BitVec 2) (done mask : Word) : Bool :=
  if ty = 1 then decide (done &&& mask ≠ 0) else if ty = 2 then decide (done &&& mask = mask) else false

/-- An armed proxy query that holds is disarmed and raises class 2 T (R1688). -/
def State.checkQuery (s : State) (n : Fin 8) : Res Unit :=
  let p := s.spes[n]
  if queryHolds p.pxQueryType (doneGroups p.pxQ) p.pxQueryMask then
    (s.modN n fun p => { p with pxQueryType := 0 }).raiseInt n 2 0x8
  else .ok () s

/-! ## The proxy command registers (R1642, D78) -/

/-- A parameter is written: bits 1 LSA, 2 EAH, 4 EAL, 8 size and tag; a complete set ends with the command (16). -/
def Spe.pxWrote (p : Spe) (bits : BitVec 5) : Spe := { p with pxSeen := (p.pxSeen ||| bits) &&& 15 }

/-- A read of MFC_CMDStatus: the result, and the command enqueued if it is 0. -/
def Spe.cmdStatus (p : Spe) : Word × Spe :=
  let bad := decide (p.pxSeen &&& 29 ≠ 29)
  let full := decide (8 ≤ p.pxQ.length)
  let v : Word := (if bad then 1 else 0) ||| (if full then 2 else 0)
  let p := { p with pxSeen := 0 }
  if v ≠ 0 then (v, p)
  else
    let c : MfcCmd :=
      { word := p.pxCmd, lsa := p.pxLsa, ea := p.pxEah ++ p.pxEal, size := ibm p.pxSizeTag 0 16, tag := ibm p.pxSizeTag 16 16,
        order := p.orderNext, slot := freeSlot p.pxQ, listDone := 0, elem := none, units := 0, stalled := false, dep := false }
    (v, { p with pxQ := p.pxQ ++ [c], orderNext := p.orderNext + 1, pxEah := 0 })

/-- MFC_QStatus (R1688). -/
def Spe.qStatus (p : Spe) : Word :=
  (if p.pxQ.isEmpty then 0x80000000 else 0) ||| BitVec.ofNat 32 (8 - p.pxQ.length)

/-! ## MFC_CNTL (11_state_spe R180; positions: log 8) -/

/-- The value read from MFC_CNTL: Ds 23, Dh 28, Ps 38:39, Q 49, Ss 54:55, Sm 59, Sc 63. -/
def Spe.cntl (p : Spe) : DWord :=
  let w : DWord := setIbit (setIbit 0 23 (p.sdecRun && !p.dh)) 28 p.dh
  let w := setIbm w 38 (if p.purged then (3 : BitVec 2) else 0)
  let w := setIbit w 49 (p.spuQ.isEmpty && p.pxQ.isEmpty)
  let w := setIbm w 54 (if p.sc then (3 : BitVec 2) else 0)
  setIbit (setIbit w 59 p.sm) 63 p.sc

/-- Purge both queues and the atomic unit (49_mfc_commands R1695, log 12): event Qv if the SPU queue was full. -/
def Spe.purge (p : Spe) : Spe :=
  let full := decide (p.count 21 = 0)
  let p := { p with spuQ := [], pxQ := [], atomicCmd := none, atomicLate := 0, resend := none, halted := false, purged := true, dsiprLocked := false }
  let p := p.setCnt 21 16
  if full then p.raiseEvent 28 else p

/-- The older of two order numbers that may be absent. -/
def olderOf : Option Nat → Option Nat → Option Nat
  | some j, some k => some (min j k)
  | some j, none => some j
  | none, o => o

/-- The order number of the oldest command that waits for MFC_CNTL[R]. -/
def Spe.oldestHeld (p : Spe) : Option Nat :=
  (((p.spuQ ++ p.pxQ ++ p.atomicCmd.toList).filter fun c => c.dep).map fun c => c.order).foldl
    (fun o k => olderOf o (some k)) none

/-- A store to MFC_CNTL: Sc, Sm, Dh are kept; Pc (48) purges while suspended; R (31) ends an exception, and the
oldest held command goes first, or one that an earlier store of R released and that has not had its turn (R1640, R1940). Ps stays '11'
until a store with Pc = 0: DESIGN CHOICE (log 49). -/
def Spe.writeCntl (p : Spe) (v : DWord) : Spe :=
  let p := { p with sc := ibit v 63, sm := ibit v 59, dh := ibit v 28, purged := p.purged && ibit v 48 }
  let p := if ibit v 48 && p.sc then p.purge else p
  if ibit v 31 then
    { p with
      smmBusy := false
      resend := olderOf p.oldestHeld p.resend
      spuQ := p.spuQ.map fun c => { c with dep := false }
      pxQ := p.pxQ.map fun c => { c with dep := false }
      atomicCmd := p.atomicCmd.map fun c => { c with dep := false } }
  else p

/-! ## Context images of the queues (MFC_CQ_SR; layout: log 8)

24 entries of four doublewords, 16 of the SPU queue and 8 of the proxy queue, each at the number it keeps: command word and LSA; EA; size, tag, list
bytes taken, units performed; valid (bit 0), stalled, dependency, order number. Of a command in progress the image keeps the
elements that are finished, or the units performed in ascending order from the first; the rest is transferred again. -/

/-- The number of units performed from unit 0 on, at most `k`. -/
def unitPrefix (units : Nat) : Nat → Nat
  | 0 => 0
  | k + 1 => if units % 2 = 1 then unitPrefix (units / 2) k + 1 else 0

/-- Doubleword `j` of a queued command. -/
def MfcCmd.image (c : MfcCmd) (j : Nat) : DWord :=
  if j = 0 then c.word ++ c.lsa
  else if j = 1 then c.ea
  else if j = 2 then c.size ++ c.tag ++ BitVec.ofNat 16 (if c.elem.isSome then c.listDone - 8 else c.listDone) ++
    BitVec.ofNat 16 (if c.elem.isSome then 0 else unitPrefix c.units 1024)
  else BitVec.ofBool true ++ BitVec.ofBool c.stalled ++ BitVec.ofBool c.dep ++ (0 : BitVec 29) ++ BitVec.ofNat 32 c.order

/-- Doubleword `k` of MFC_CQ_SR. -/
def Spe.cqImage (p : Spe) (k : Nat) : DWord :=
  let e := k / 4
  match if e < 16 then p.spuQ.find? fun c => c.slot == e else p.pxQ.find? fun c => c.slot == e - 16 with
  | some c => c.image (k % 4)
  | none => 0

/-- Entry `i` of a queue of `cap` entries is written: it replaces the command that stands there, follows the last one, or (none)
removes the one that stands there. -/
def putEntry (cap i : Nat) (c : Option MfcCmd) (q : List MfcCmd) : List MfcCmd :=
  match c with
  | none => q.filter fun d => d.slot != i
  | some c =>
    if q.any fun d => d.slot == i then q.map fun d => if d.slot = i then c else d
    else if q.length < cap then q ++ [c] else q

/-- The command that written entry `i` describes. -/
def cqCommand (i : Nat) (d0 d1 d2 d3 : DWord) : MfcCmd :=
  { word := ibm d0 0 32, lsa := ibm d0 32 32, ea := d1, size := ibm d2 0 16, tag := ibm d2 16 16, order := (ibm d3 32 32).toNat,
    slot := i, listDone := (ibm d2 32 16).toNat, elem := none, units := 2^((ibm d2 48 16).toNat % 1025) - 1, stalled := ibit d3 1,
    dep := ibit d3 2 }

/-- A store to doubleword `k` of MFC_CQ_SR: the last doubleword of an entry writes it. -/
def Spe.writeCq (p : Spe) (k : Nat) (v : DWord) : Spe :=
  let key (j : Nat) : Nat := 0x62000 + 8 * (k / 4 * 4 + j)
  let p := p.setCell (key (k % 4)) v
  if k % 4 = 3 then
    let e := k / 4
    let c := cqCommand (e % 16) (p.cell (key 0)) (p.cell (key 1)) (p.cell (key 2)) v
    let x := if ibit v 0 then some c else none
    let p := if ibit v 0 then { p with orderNext := max p.orderNext (c.order + 1) } else p
    if e < 16 then { p with spuQ := putEntry 16 (e % 16) x p.spuQ } else { p with pxQ := putEntry 8 (e % 16) x p.pxQ }
  else p

end Sys2Proof.Machine
end

