-- ==== Sys2Proof/Machine/SpeMmio.lean ====
section
/-! DEFINITION. The memory-mapped registers of an SPE: problem state, privilege 2 and privilege 1
(11_state_spe.md sections 6 to 8; offsets: R171, R178, R182, and log 8). -/

namespace Sys2Proof.Machine

/-! ## Common parts -/

/-- An access that is not of the width of the registers it touches (U42), or that touches none (20_memory R376). -/
def misfit (s : State) (regs : List (Nat × Nat)) (off len : Nat) : Out State :=
  if regs.any fun r => decide (off < r.1 + r.2 ∧ r.1 < off + len) then .refused .mmioWidth else s.checkstop

/-- The offsets of the privilege-2 and of the privilege-1 area that belong to the SMM (21_translation R499; the groups "SLB
management", "MFC TLB management" and "memory management" of 11_state_spe R178, R181; log 28): where no register stands, a store
is ignored and a load delivers 0. -/
def smmSpace2 (off : Nat) : Bool := decide (0x1100 ≤ off ∧ off < 0x2000)
def smmSpace1 (off : Nat) : Bool :=
  decide ((0x400 ≤ off ∧ off < 0x548) ∨ (0x580 ≤ off ∧ off < 0x588) ∨ (0x600 ≤ off ∧ off < 0x700) ∨
    (0x710 ≤ off ∧ off < 0x800) ∨ (0x900 ≤ off ∧ off < 0xC00))

/-- Whether an access touches no register but lies in the space of the SMM. -/
def inSmmSpace (regs : List (Nat × Nat)) (space : Nat → Bool) (off len : Nat) : Bool :=
  space off && !regs.any fun r => decide (off < r.1 + r.2 ∧ r.1 < off + len)

/-- A read whose value is not specified, `w` bits (U20). -/
def State.anyRead (s : State) (w : Nat) : Res Nat := .ok (s.free w 0).toNat (s.drew 1)

/-! ## Mailboxes and signals from outside (49_spe_mailbox_signal_event R1732 to R1737, R1751) -/

/-- Read SPU_Out_Mbox (R1732). -/
def State.readOutMbox (s : State) (n : Fin 8) : Res Nat :=
  if s.spes[n].count 28 = 0 then
    .ok s.spes[n].outMbox.toNat (s.modN n fun p => (p.setCnt 28 1).raiseEvent 24)
  else s.anyRead 32

/-- Read SPU_Out_Intr_Mbox (R1734). -/
def State.readOutIntrMbox (s : State) (n : Fin 8) : Res Nat :=
  if s.spes[n].count 30 = 0 then
    .ok s.spes[n].outIntrMbox.toNat (s.modN n fun p => (p.setCnt 30 1).raiseEvent 25)
  else s.anyRead 32

/-- Write SPU_In_Mbox (R1735): a full mailbox has its newest entry replaced. -/
def Spe.writeInMbox (p : Spe) (v : Word) : Spe :=
  let k := (p.count 29).toNat
  if k < 4 then
    let p' := { p with inMbox := p.inMbox.setIfInBounds k v }.setCnt 29 (p.count 29 + 1)
    if k = 0 then p'.raiseEvent 27 else p'
  else { p with inMbox := p.inMbox.set 3 v }

/-- SPU_Mbox_Stat (R1737). -/
def Spe.mboxStat (p : Spe) : Word :=
  ((1 - p.count 30) <<< 16) ||| ((4 - p.count 29) <<< 8) ||| (1 - p.count 28)

/-- Write SPU_Sig_Notify_1 (R1751); SPU_Cfg bit 63 is its mode. -/
def Spe.writeSig1 (p : Spe) (v : Word) : Spe :=
  let was := p.count 3
  let p := { p with sig1 := if ibit p.cfg 63 then p.sig1 ||| v else v }.setCnt 3 1
  if was = 0 then p.raiseEvent 22 else p

/-- Write SPU_Sig_Notify_2 (R1751); SPU_Cfg bit 62 is its mode. -/
def Spe.writeSig2 (p : Spe) (v : Word) : Spe :=
  let was := p.count 4
  let p := { p with sig2 := if ibit p.cfg 62 then p.sig2 ||| v else v }.setCnt 4 1
  if was = 0 then p.raiseEvent 23 else p

/-! ## Problem state (R171) -/

/-- The registers of the problem-state area: offset and width in bytes. -/
def problemRegs : List (Nat × Nat) :=
  [(0, 8), (0x3004, 4), (0x3008, 4), (0x300C, 4), (0x3010, 4), (0x3014, 4), (0x3104, 4), (0x3204, 4), (0x321C, 4), (0x322C, 4),
   (0x4004, 4), (0x400C, 4), (0x4014, 4), (0x401C, 4), (0x4024, 4), (0x4034, 4), (0x1400C, 4), (0x1C00C, 4)]

/-- Read a 32-bit register of the problem-state area. -/
def problemWord (s : State) (n : Fin 8) (off : Nat) : Res Nat :=
  let p := s.spes[n]
  match off with
  | 0x3004 => s.anyRead 32
  | 0x3008 => s.anyRead 32
  | 0x300C => s.anyRead 32
  | 0x3010 => s.anyRead 32
  | 0x3014 => .ok p.cmdStatus.1.toNat (s.modN n fun p => p.cmdStatus.2)
  | 0x3104 => .ok p.qStatus.toNat s
  | 0x3204 => .ok p.pxQueryType.toNat s
  | 0x321C => .ok p.pxQueryMask.toNat s
  | 0x322C => .ok (doneGroups p.pxQ &&& p.pxQueryMask).toNat s
  | 0x4004 => s.readOutMbox n
  | 0x400C => s.anyRead 32
  | 0x4014 => .ok p.mboxStat.toNat s
  | 0x401C => .ok p.runCntl.toNat s
  | 0x4024 => .ok p.status.toNat s
  | 0x4034 => .ok p.npc.toNat s
  | 0x1400C => .ok p.sig1.toNat s
  | 0x1C00C => .ok p.sig2.toNat s
  | _ => .stop (misfit s problemRegs off 4)

/-- Read the problem-state area. -/
def problemRead (s : State) (n : Fin 8) (off len : Nat) : Res Nat :=
  if len = 4 then problemWord s n off
  else if len = 8 ∧ off = 0 then .ok (if s.spes[n].msSync then 1 else 0) s
  else if len = 8 ∧ off = 0x3008 then s.anyRead 64
  else .stop (misfit s problemRegs off len)

/-- A store to SPU_RunCntl (R175, 49_spu_control_channel R1557); isolation requests are outside the model (00_scope R9). -/
def State.writeRunCntl (s : State) (n : Fin 8) (v : Word) : Res Unit :=
  if ibit v 30 then .stop (.refused .isolation)
  else if ibit v 31 then .ok () (s.modN n Spe.runRequest)
  else .ok () (s.modN n fun p => { p with runCntl := 0 }.stopOutside)

/-- A store to Prxy_QueryType (49_mfc_commands R1688); '11', which the rule does not define, disarms the query (log 26). -/
def State.writeQueryType (s : State) (n : Fin 8) (v : Word) : Res Unit :=
  let ty : BitVec 2 := ibm v 30 2
  (s.modN n fun p => { p with pxQueryType := if ty = 3 then 0 else ty }).checkQuery n

/-- Store a 32-bit register of the problem-state area. A store to SPU_Mbox_Stat is ignored (D87); for the other read-only registers
(MFC_QStatus, Prxy_TagStatus, SPU_Out_Mbox, SPU_Status) that is a DESIGN CHOICE (log 49). A store to SPU_NPC while the SPU runs is kept
until the next stop overwrites it, and does not change the pc: DESIGN CHOICE (log 49). -/
def problemStore (s : State) (n : Fin 8) (off : Nat) (v : Word) : Res Unit :=
  let set (f : Spe → Spe) : Res Unit := .ok () (s.modN n f)
  match off with
  | 0x3004 => set fun p => { p with pxLsa := v }.pxWrote 1
  | 0x3008 => set fun p => { p with pxEah := v }.pxWrote 2
  | 0x300C => set fun p => { p with pxEal := v }.pxWrote 4
  | 0x3010 => set fun p => { p with pxSizeTag := v }.pxWrote 8
  | 0x3014 => set fun p => { p with pxCmd := v, pxSeen := p.pxSeen ||| 16 }
  | 0x3104 => .ok () s
  | 0x3204 => s.writeQueryType n v
  | 0x321C => (s.modN n fun p => { p with pxQueryMask := v }).checkQuery n
  | 0x322C => .ok () s
  | 0x4004 => .ok () s
  | 0x400C => set fun p => p.writeInMbox v
  | 0x4014 => .ok () s
  | 0x401C => s.writeRunCntl n v
  | 0x4024 => .ok () s
  | 0x4034 => set fun p => { p with npc := v &&& 0xFFFFFFFD }
  | 0x1400C => set fun p => p.writeSig1 v
  | 0x1C00C => set fun p => p.writeSig2 v
  | _ => .stop (misfit s problemRegs off 4)

/-- Store to the problem-state area. -/
def problemWrite (s : State) (n : Fin 8) (off len : Nat) (v : Nat) : Res Unit :=
  let d : DWord := BitVec.ofNat 64 v
  if len = 4 then problemStore s n off (BitVec.ofNat 32 v)
  else if len = 8 ∧ off = 0 then .ok () (s.modN n Spe.requestMsSync)
  else if len = 8 ∧ off = 0x3008 then
    .ok () (s.modN n fun p => { p with pxEah := ibm d 0 32, pxEal := ibm d 32 32 }.pxWrote 6)
  else .stop (misfit s problemRegs off len)

/-! ## Channel access for context save and restore (R161, R178, U64) -/

/-- MFC_SBI_Derr_Addr: the destination of received data that has an error; no error arises in the model, so that it reads 0
(61_spe_iic_interrupts R1937; its offset: log 8). -/
def offSbiDerrAddr : Nat := 0x3B8

/-- SPU_ChnlIndex: the selected channel. -/
def Spe.chnl (p : Spe) : Nat := p.chnlIndex.toNat % 128

/-- The data behind a channel. 70_reset_and_hazards R2096 says that the PPE cannot read SRR0, the masks, the decrementer and the
pending events in this way; 11_state_spe R161 and R162, 49_spu_control_channel R1567 and 49_spe_mailbox_signal_event R1769 say that
it can, and the model follows them (DEDUCED, log 38). A channel for whose data the specification gives no register (2, 9, 21, 26, the reserved ones) reads 0 and ignores a
store, and so does a store for channel 13: DESIGN CHOICE (log 42). -/
def Spe.chnlData (p : Spe) : Word :=
  match p.chnl with
  | 0 => p.pend
  | 1 => p.emask
  | 3 => p.sig1
  | 4 => p.sig2
  | 7 => p.sdec
  | 8 => p.sdec
  | 11 => p.emask
  | 12 => p.tagMask
  | 13 => if p.ie then 1 else 0
  | 14 => p.srr0
  | 15 => p.srr0
  | 16 => p.mfcLsa
  | 17 => p.mfcEah
  | 18 => p.mfcEal
  | 19 => p.mfcSize.setWidth 32
  | 20 => p.mfcTag.setWidth 32
  | 22 => p.tagMask
  | 23 => p.tagReq.setWidth 32
  | 24 => p.tagStat
  | 25 => p.stallStat
  | 27 => p.atomStat
  | 28 => p.outMbox
  | 29 => p.inMbox[p.chnlWalk.toNat]'p.chnlWalk.isLt
  | 30 => p.outIntrMbox
  | _ => 0

/-- The next access to SPU_ChnlData, load or store, takes the next mailbox entry, after the fourth the first again: DESIGN CHOICE
(log 49). -/
def Spe.walk (p : Spe) : Spe := if p.chnl = 29 then { p with chnlWalk := p.chnlWalk + 1 } else p

/-- Write the data behind a channel. A tag-status request '11' becomes '00' here too, of which the specification speaks for the channel
write only: DESIGN CHOICE (log 60). -/
def Spe.setChnlData (p : Spe) (v : Word) : Spe :=
  match p.chnl with
  | 0 => { p with pend := v }
  | 1 => { p with emask := v }
  | 3 => { p with sig1 := v }
  | 4 => { p with sig2 := v }
  | 7 => { p with sdec := v }
  | 8 => { p with sdec := v }
  | 11 => { p with emask := v }
  | 12 => { p with tagMask := v }
  | 14 => { p with srr0 := v, srr0Old := none }
  | 15 => { p with srr0 := v, srr0Old := none }
  | 16 => { p with mfcLsa := v }
  | 17 => { p with mfcEah := v }
  | 18 => { p with mfcEal := v }
  | 19 => { p with mfcSize := ibm v 16 16 }
  | 20 => { p with mfcTag := ibm v 16 16 }
  | 22 => { p with tagMask := v }
  | 23 => { p with tagReq := tagRequest (ibm v 30 2) }
  | 24 => { p with tagStat := v }
  | 25 => { p with stallStat := v }
  | 27 => { p with atomStat := v }
  | 28 => { p with outMbox := v }
  | 29 => { p with inMbox := p.inMbox.set p.chnlWalk.toNat v p.chnlWalk.isLt }
  | 30 => { p with outIntrMbox := v }
  | _ => p

/-- The capacity of a channel (R159). -/
def chnlCap (ch : Nat) : Nat := if ch = 21 then 16 else if ch = 29 then 4 else 1

/-- SPU_ChnlCnt of the selected channel. -/
def Spe.chnlCnt (p : Spe) : Word := if p.chnl < 32 then p.count p.chnl else 0

/-- Write SPU_ChnlCnt; a value above the capacity of the channel becomes the capacity, DESIGN CHOICE (log 49). -/
def Spe.setChnlCnt (p : Spe) (v : Nat) : Spe :=
  if p.chnl < 32 then p.setCnt (Fin.ofNat 32 p.chnl) (BitVec.ofNat 32 (min v (chnlCap p.chnl))) else p

/-! ## Privilege 2 (R178) -/

/-- The registers of the privilege-2 area outside MFC_CQ_SR. -/
def priv2Regs : List (Nat × Nat) :=
  (0x2000, 0x300) ::
  [0x1108, 0x1110, 0x1118, 0x1120, 0x1128, 0x3000, 0x4000, 0x4040, 0x4058, 0x4060, 0x4068, 0x4070, 0x4078, 0x5008, 0x5010,
   0x5018, 0x5020].map fun o => (o, 8)

/-- A context access to a channel is refused while the SPU runs (U64). -/
def whenStopped {α : Type} (s : State) (n : Fin 8) (r : Res α) : Res α :=
  if s.spes[n].running then .stop (.refused .channelAccessWhileRunning) else r

/-- The context image of the atomic unit, MFC_CSR_ATO: bit 0 says that a lock-line reservation is held, 22:56 on which line, 63
that an immediate atomic command is pending (log 8). MFC_CSR_TSQ holds the partial proxy command's size and tag in 0:31, which
of its parameters were written in 32:36 and the tag status query in 62:63; MFC_CSR_Cmd1 and MFC_CSR_Cmd2 hold the rest. -/
def Spe.atoImage (p : Spe) : DWord :=
  setIbit (match p.llres with
    | some g => setIbm (setIbit (0 : DWord) 0 true) 22 (BitVec.ofNat 35 g)
    | none => 0) 63 p.atomicCmd.isSome

/-- Read a doubleword of the privilege-2 area. -/
def priv2Read (s : State) (n : Fin 8) (off : Nat) : Res Nat :=
  let p := s.spes[n]
  let value (v : DWord) : Res Nat := .ok v.toNat s
  if 0x2000 ≤ off ∧ off < 0x2300 ∧ off % 8 = 0 then value (p.cqImage ((off - 0x2000) / 8))
  else
    match off with
    | 0x1108 => s.anyRead 64
    | 0x1110 => value (slbEsidImage p.slbSelected)
    | 0x1118 => value (slbVsidImage p.slbSelected)
    | 0x1120 => value 0
    | 0x1128 => value 0
    | 0x3000 => value p.cntl
    | 0x4000 => s.readOutIntrMbox n
    | 0x4040 => value p.privCntl
    | 0x4058 => value (p.lslr.setWidth 64)
    | 0x4060 => whenStopped s n (value p.chnlIndex)
    | 0x4068 => whenStopped s n (value (p.chnlCnt.setWidth 64))
    | 0x4070 => whenStopped s n (.ok p.chnlData.toNat (s.modN n Spe.walk))
    | 0x4078 => value p.cfg
    | 0x5008 => value (p.pxSizeTag ++ p.pxSeen ++ (0 : BitVec 25) ++ p.tagReq)
    | 0x5010 => value (p.pxCmd ++ p.pxLsa)
    | 0x5018 => value (p.pxEah ++ p.pxEal)
    | 0x5020 => value p.atoImage
    | _ => .stop (misfit s priv2Regs off 8)

/-- Store a doubleword of the privilege-2 area. A tag-status request '11' in MFC_CSR_TSQ becomes '00': DESIGN CHOICE (log 60). A store to SPU_ChnlIndex starts the walk over the mailbox entries at the first, and one
to SPU_Out_Intr_Mbox (x'4000') is ignored: DESIGN CHOICE (log 49). -/
def priv2Write (s : State) (n : Fin 8) (off : Nat) (v : DWord) : Res Unit :=
  let set (f : Spe → Spe) : Res Unit := .ok () (s.modN n f)
  if 0x2000 ≤ off ∧ off < 0x2300 ∧ off % 8 = 0 then (s.modN n fun p => p.writeCq ((off - 0x2000) / 8) v).checkQuery n
  else
    match off with
    | 0x1108 => set fun p => { p with slbIndex := ibm v 61 3 }
    | 0x1110 => set fun p => p.writeSlbEsid v
    | 0x1118 => set fun p => p.writeSlbVsid v
    | 0x1120 => set fun p => p.slbInvalidate v
    | 0x1128 => set Spe.slbInvalidateAll
    | 0x3000 => (s.modN n fun p => p.writeCntl v).checkQuery n
    | 0x4000 => .ok () s
    | 0x4040 =>
      set fun p =>
        let p := { p with privCntl := v &&& 7 }
        if ibit v 61 then p.raiseEvent 20 else p
    | 0x4058 => set fun p => { p with lslr := ibm v 32 32 &&& 0x3FFFF }
    | 0x4060 => whenStopped s n (set fun p => { p with chnlIndex := v &&& 0x7F, chnlWalk := 0 })
    | 0x4068 => whenStopped s n (set fun p => p.setChnlCnt v.toNat)
    | 0x4070 => whenStopped s n (set fun p => (p.setChnlData (ibm v 32 32)).walk)
    | 0x4078 => set fun p => { p with cfg := v &&& 3 }
    | 0x5008 => set fun p => { p with pxSizeTag := ibm v 0 32, pxSeen := ibm v 32 5, tagReq := tagRequest (ibm v 62 2) }
    | 0x5010 => set fun p => { p with pxCmd := ibm v 0 32, pxLsa := ibm v 32 32 }
    | 0x5018 => set fun p => { p with pxEah := ibm v 0 32, pxEal := ibm v 32 32 }
    | 0x5020 => set fun p => { p with llres := if ibit v 0 then some (ibm v 22 35).toNat else none }
    | _ => .stop (misfit s priv2Regs off 8)

/-! ## Privilege 1 (R182) -/

/-- The plain registers of the privilege-1 area: offset and implemented bits. The offsets of RA_Group_ID (x'280'), RA_Enable
(x'288'), PM_Trace_Tag_Wait_Mask (x'1400') and of MFC_SBI_Derr_Addr (x'3B8') are the model's (log 8); x'3C8' is SBI_PMCR
(12_state_platform R312). -/
def priv1Cells : List (Nat × DWord) :=
  [(0x0008, 0xFFFFFFFFFFFFFFFF), (0x0180, 0xF0FFF0FFF0FF0000), (0x0280, 3), (0x0288, 1), (offSbiDerrAddr, 0),
   (0x03C8, 0xFFFFFFFFFFFFFFFF), (0x0400, 0x3FFFFFFFFFFC001F), (0x0580, 0xFFE0000000000000), (0x0600, 0xFFFFFFFFFFFFFFFF),
   (0x0610, 0x4E400000), (0x0620, 0xFFFFFFFFFFFFFFFF), (0x0710, 0xFFFF), (0x0808, 0xFFFFFFFFFFFFFFFF), (0x0810, 0),
   (0x0820, 0xFFFFFFFFFFFFFFFF), (0x0C00, 0), (0x1000, 0xFFFFFFFFFFFFFFFF), (0x1008, 0xFFFFFFFFFFFFFFFF),
   (0x1010, 0xFFFFFFFFFFFFFFFF), (0x1018, 1), (0x1400, 0xFFFFFFFFFFFFFFFF)]

/-- The registers of the privilege-1 area. -/
def priv1Regs : List (Nat × Nat) :=
  (priv1Cells.map fun c => (c.1, 8)) ++
  [0x0000, 0x0010, 0x0018, 0x0020, 0x0100, 0x0108, 0x0110, 0x0140, 0x0148, 0x0150, 0x0200, 0x0380, 0x0388, 0x0390, 0x0398,
   0x03A0, 0x03A8, 0x03B0, 0x0500, 0x0508, 0x0510, 0x0518, 0x0540, 0x0548, 0x0800, 0x0900].map fun o => (o, 8)

/-- The implemented bits of a plain register, if the offset is one. -/
def cellMask (l : List (Nat × DWord)) (off : Nat) : Option DWord := (l.find? fun c => c.1 == off).map (·.2)

/-- The TLB entry that MFC_TLB_Index selects; a way select that is not one-hot is refused (U46). -/
def withTlbKey {α : Type} (s : State) (n : Fin 8) (f : Nat → Res α) : Res α :=
  match s.spes[n].indexKey with
  | none => .stop (.refused .reservedValue)
  | some key => f key

/-- Read a doubleword of the privilege-1 area. SPU_IDR is the number of the SPE: the specification only says that the value is unique,
DESIGN CHOICE (log 43). A load of MFC_Atomic_Flush (x'200'), of which the rule gives the write only, delivers 0: DESIGN CHOICE
(log 49). -/
def priv1Read (s : State) (n : Fin 8) (off : Nat) : Res Nat :=
  let p := s.spes[n]
  let value (v : DWord) : Res Nat := .ok v.toNat s
  match cellMask priv1Cells off with
  | some _ => value (p.cell (0x80000 + off))
  | none =>
    match off with
    | 0x0000 => value p.sr1
    | 0x0010 => value (BitVec.ofNat 64 n.val)
    | 0x0018 => value s.cfg.mfcVr
    | 0x0020 => value s.cfg.spuVr
    | 0x0100 => value p.intMask[0]
    | 0x0108 => value p.intMask[1]
    | 0x0110 => value p.intMask[2]
    | 0x0140 => value p.intStat[0]
    | 0x0148 => value p.intStat[1]
    | 0x0150 => value p.intStat[2]
    | 0x0200 => value 0
    | 0x0380 => value (p.cell keyFir)
    | 0x0388 => s.anyRead 64
    | 0x0390 => s.anyRead 64
    | 0x0398 => value (p.cell keyFirErr)
    | 0x03A0 => s.anyRead 64
    | 0x03A8 => s.anyRead 64
    | 0x03B0 => value (p.cell keyFirChkstp)
    | 0x0500 => value p.tlbHint
    | 0x0508 => value p.tlbIndex
    | 0x0510 => withTlbKey s n fun key => .ok (p.readTlbVpn key).1.toNat (s.modN n fun p => (p.readTlbVpn key).2)
    | 0x0518 => withTlbKey s n fun key => value ((p.tlbAt key).pte1 ||| 0x110)
    | 0x0540 => value 0
    | 0x0548 => value 0
    | 0x0800 => .ok (p.cell keyDsipr).toNat (s.modN n fun p => { p with dsiprLocked := false })
    | 0x0900 => value (p.cell keyRmab)
    | _ => .stop (misfit s priv1Regs off 8)

/-- A store to MFC_SR1 (R183, 49_spu_control_channel R1557). -/
def Spe.writeSr1 (p : Spe) (v : DWord) : Spe :=
  let p := { p with sr1 := v &&& 0x7B }
  if p.masterRun then p else p.stopOutside

/-- Whether the MFC, not suspended, has an atomic request for the atomic unit (20_memory R432). -/
def Spe.atomicBusy (p : Spe) : Bool :=
  !p.sc && (p.atomicCmd.isSome || p.spuQ.any fun c => ibm c.word 24 8 == (0xB8 : BitVec 8))

/-- Whether the MFC, not suspended, may have a request of the SMM in the atomic unit: a queued command whose address the SMM
translates by a search of the page table (20_memory R432, 21_translation R507). -/
def Spe.smmMayWalk (p : Spe) : Bool := !p.sc && ibit p.sr1 59 && !ibit p.sr1 57 && (!p.spuQ.isEmpty || !p.pxQ.isEmpty)

/-- A store to MFC_Atomic_Flush, bit F at 63 (log 8): the reservation goes (D54). A collision with an atomic request, or, by a draw,
with one of the SMM, is reported in MFC_FIR, in a bit that is not stated, a draw (20_memory R432, U45; log 12). -/
def State.atomicFlush (s : State) (n : Fin 8) (v : DWord) : Res Unit :=
  if !ibit v 63 then .ok () s
  else
    let s' := s.modN n fun p => { p with llres := none }
    let collides := s.spes[n].atomicBusy || (s.spes[n].smmMayWalk && decide (s.free 1 1 = 1))
    if collides then (s'.drew 2).storeFir n keyFir (s.spes[n].cell keyFir ||| (1#64 <<< (s.free 6 0).toNat))
    else .ok () (s'.drew 2)

/-- Whether MFC_RMAB may not be stored to (21_translation R518). -/
def Spe.rmabBusy (p : Spe) : Bool := !p.sc && (!p.spuQ.isEmpty || !p.pxQ.isEmpty || p.atomicCmd.isSome)

/-- Store a doubleword of the privilege-1 area. That a store to a read-only register (SPU_IDR, MFC_VR, SPU_VR, MFC_DSIPR, MFC_LSCRR,
MFC_CER, MFC_TLB_Index_Hint) or to MFC_SBI_Derr_Addr is ignored is a DESIGN CHOICE (log 49): the specification only calls them read-only,
or names no access. -/
def priv1Write (s : State) (n : Fin 8) (off : Nat) (v : DWord) : Res Unit :=
  let p := s.spes[n]
  let set (f : Spe → Spe) : Res Unit := .ok () (s.modN n f)
  match cellMask priv1Cells off with
  | some m => if m = 0 then .ok () s else set fun p => p.setCell (0x80000 + off) (v &&& m)
  | none =>
    match off with
    | 0x0000 => set fun p => p.writeSr1 v
    | 0x0010 => .ok () s
    | 0x0018 => .ok () s
    | 0x0020 => .ok () s
    | 0x0100 => s.storeIntMask n 0 v
    | 0x0108 => s.storeIntMask n 1 v
    | 0x0110 => s.storeIntMask n 2 v
    | 0x0140 => s.storeIntStat n 0 v
    | 0x0148 => s.storeIntStat n 1 v
    | 0x0150 => s.storeIntStat n 2 v
    | 0x0200 => s.atomicFlush n v
    | 0x0380 => s.storeFir n keyFir v
    | 0x0388 => s.storeFir n keyFir (p.cell keyFir ||| v)
    | 0x0390 => s.storeFir n keyFir (p.cell keyFir &&& ~~~v)
    | 0x0398 => s.storeFir n keyFirErr v
    | 0x03A0 => s.storeFir n keyFirErr (p.cell keyFirErr ||| v)
    | 0x03A8 => s.storeFir n keyFirErr (p.cell keyFirErr &&& ~~~v)
    | 0x03B0 => s.storeFir n keyFirChkstp v
    | 0x0500 => .ok () s
    | 0x0508 => set fun p => { p with tlbIndex := v &&& 0xF800000003FF }
    | 0x0510 => withTlbKey s n fun key => set fun p => p.writeTlbVpn key v
    | 0x0518 => set fun p => { p with tlbRpn := v &&& 0x3FFFFFFF3FF }
    | 0x0540 =>
      match p.tlbInvalidateClass v with
      | none => .stop (.refused .reservedValue)
      | some p' => set fun _ => p'
    | 0x0548 => .ok () s
    | 0x0800 => .ok () s
    | 0x0900 => if p.rmabBusy then .stop (.refused .rmabWhileActive) else set fun p => p.setCell keyRmab (v &&& 0xF)
    | _ => .stop (misfit s priv1Regs off 8)

/-! ## The areas of an SPE -/

/-- MFC_DSISR can be accessed as a 32-bit register too (21_translation R499), whose address the specification does not give:
DESIGN CHOICE, the low word of the doubleword at x'610', so that a 4-byte access to x'610' itself is one of the wrong width
(log 8). -/
def offDsisrWord : Nat := 0x614

/-- Read at an offset of the MMIO block below x'410000' outside the local-storage aliases. The 32-bit form of MFC_DSISR: log 8. -/
def speRead (s : State) (off len : Nat) : Res Nat :=
  if off < 0x400000 then
    let n := Fin.ofNat 8 (off / 0x80000)
    let o := off % 0x80000
    if o < 0x60000 then problemRead s n (o - 0x40000) len
    else if inSmmSpace priv2Regs smmSpace2 (o - 0x60000) len then .ok 0 s
    else if len = 8 then priv2Read s n (o - 0x60000)
    else .stop (misfit s priv2Regs (o - 0x60000) len)
  else
    let n := Fin.ofNat 8 ((off - 0x400000) / 0x2000)
    let o := off % 0x2000
    if inSmmSpace priv1Regs smmSpace1 o len then .ok 0 s
    else if len = 8 then priv1Read s n o
    else if len = 4 ∧ o = offDsisrWord then .ok (s.spes[n].cell keyDsisr).toNat s
    else .stop (misfit s priv1Regs o len)

/-- Store there. -/
def speWrite (s : State) (off len v : Nat) : Res Unit :=
  let d : DWord := BitVec.ofNat 64 v
  if off < 0x400000 then
    let n := Fin.ofNat 8 (off / 0x80000)
    let o := off % 0x80000
    if o < 0x60000 then problemWrite s n (o - 0x40000) len v
    else if inSmmSpace priv2Regs smmSpace2 (o - 0x60000) len then .ok () s
    else if len = 8 then priv2Write s n (o - 0x60000) d
    else .stop (misfit s priv2Regs (o - 0x60000) len)
  else
    let n := Fin.ofNat 8 ((off - 0x400000) / 0x2000)
    let o := off % 0x2000
    if inSmmSpace priv1Regs smmSpace1 o len then .ok () s
    else if len = 8 then priv1Write s n o d
    else if len = 4 ∧ o = offDsisrWord then .ok () (s.modN n fun p => p.setCell keyDsisr (d &&& 0x4E400000))
    else .stop (misfit s priv1Regs o len)

end Sys2Proof.Machine
end

