-- ==== Sys2Proof/Machine/Platform.lean ====
section
/-! DEFINITION. The registers of the units outside the SPEs that do more than hold a value: thermal sensors, the frequency
change, fault isolation, the caches of the I/O address translation (12_state_platform.md; offsets and unprinted positions:
log 8). -/

namespace Sys2Proof.Machine

/-- A plain register of the platform. -/
def State.pcell (s : State) (off : Nat) : DWord := sget 0 s.plat.cells off
/-- Write a plain register of the platform. -/
def State.setPcell (s : State) (off : Nat) (v : DWord) : State :=
  { s with plat := { s.plat with cells := sput 0 s.plat.cells off v } }

/-! ## Thermal sensors (R307, 60_exceptions R1880, 62_platform R2025) -/

def offItr1 : Nat := 0x509820
def offItr2 : Nat := 0x509828
def offGitr : Nat := 0x509830
def offTsIsr : Nat := 0x509838
def offTsImr : Nat := 0x509840

/-- The 6-bit field of sensor `x` in a pair of registers: a byte each in the first, a word each in the second. -/
def sensorField (r1 r2 : DWord) (x : Fin 10) : BitVec 6 :=
  if x.val < 8 then ibm r1 (8 * x.val + 2) 6 else if x = 8 then ibm r2 26 6 else ibm r2 58 6

/-- TS_CTSR1 or TS_MTSR1. -/
def sensorImage1 (t : Vector (BitVec 6) 10) : DWord :=
  (List.finRange 8).foldl (fun w x => setIbm w (8 * x.val + 2) t[x]) 0
/-- TS_CTSR2 or TS_MTSR2. -/
def sensorImage2 (t : Vector (BitVec 6) 10) : DWord := setIbm (setIbm 0 26 t[8]) 58 t[9]

/-- The bits of TS_ISR that the current temperatures set: S of sensor x at x, G at 16 + x, Gb at 31. TS_IMR[B] inverts the
direction of a sensor. With TS_IMR[BG] = 1 no G bit is set, and Gb is set when every sensor is below the global level; with BG = 0
Gb is not set: the specification only names the two fields, DESIGN CHOICE (log 44). -/
def State.thermalBits (s : State) : DWord :=
  let imr := s.pcell offTsImr
  let gitr : BitVec 6 := ibm (s.pcell offGitr) 58 6
  let global := ibit imr 47
  let one (w : DWord) (x : Fin 10) : DWord :=
    let cur := s.plat.temps[x]
    let itr := sensorField (s.pcell offItr1) (s.pcell offItr2) x
    let w := setIbit w x.val (if ibit imr (32 + x.val) then cur.ult itr else !cur.ult itr)
    setIbit w (16 + x.val) (!global && !cur.ult gitr)
  let w := (List.finRange 10).foldl one 0
  setIbit w 31 (global && (List.finRange 10).all fun x => s.plat.temps[x].ult gitr)

/-- A sample: the status bits are sticky, the maxima follow. -/
def State.thermalSample (s : State) : State :=
  let s := s.setPcell offTsIsr (s.pcell offTsIsr ||| s.thermalBits)
  { s with
    plat := { s.plat with
      maxTemps := Vector.ofFn fun x => if s.plat.maxTemps[x].ult s.plat.temps[x] then s.plat.temps[x] else s.plat.maxTemps[x] } }

/-- The thermal-management signal: status bits that TS_IMR (M 0:9, C 16:25, Cgb 31) enables. -/
def State.thermalSignal (s : State) : Bool :=
  decide (s.pcell offTsIsr &&& s.pcell offTsImr &&& 0xFFC0FFC100000000 ≠ 0)

/-- A read of TS_MTSR1 or TS_MTSR2 restarts the maxima of its sensors. -/
def State.restartMax (s : State) (first : Bool) : State :=
  { s with
    plat := { s.plat with
      maxTemps := Vector.ofFn fun x => if decide (x.val < 8) == first then s.plat.temps[x] else s.plat.maxTemps[x] } }

/-! ## Frequency (R306, 62_platform R2020) -/

def offPmcr : Nat := 0x509880
def offPmsr : Nat := 0x509888

/-- A store to PMCR: Override is bit 52, PPE_pause 53, Curr_Slow 57:59, Next_Slow 61:63 (log 8). -/
def State.writePmcr (s : State) (v : DWord) : Res Unit :=
  if s.plat.slowTarget.isSome then .stop (.refused .frequencyChange)
  else
    let target : BitVec 3 := if ibit v 52 then ibm v 57 3 else ibm v 61 3
    let s := s.setPcell offPmcr v
    .ok () (if target = ibm (s.pcell offPmsr) 61 3 then s
      else { s with plat := { s.plat with slowTarget := some target } })

/-- The frequency change completes. -/
def State.slowDone (s : State) : State :=
  match s.plat.slowTarget with
  | none => s
  | some t =>
    let s := s.setPcell offPmsr (setIbm 0 61 t)
    { s with plat := { s.plat with slowTarget := none } }

/-! ## Fault isolation of the IOC (R269, 60_exceptions R1870, R1890) -/

def offIocFir : Nat := 0x508528
def offIocChkstp : Nat := 0x508510
def offIocErrMask : Nat := 0x508518
def offIocSysErr : Nat := 0x508520

/-- The system error signal. -/
def State.sysErrSignal (s : State) : Bool :=
  decide (s.pcell offIocFir &&& ~~~s.pcell offIocErrMask &&& ~~~s.pcell offIocChkstp &&& s.pcell offIocSysErr ≠ 0)

/-- A register of the IOC_FIR family receives a value: checkstop where enabled; both threads are signaled when the system
error signal becomes asserted (D96). -/
def State.storeIocFir (s : State) (off : Nat) (v : DWord) : Res Unit :=
  let s' := s.setPcell off v
  if s'.pcell offIocFir &&& ~~~s'.pcell offIocErrMask &&& s'.pcell offIocChkstp ≠ 0 then .stop s'.checkstop
  else if s'.sysErrSignal && !s.sysErrSignal then
    .ok () { s' with threads := s'.threads.map fun th => { th with sysErr := true } }
  else .ok () s'

/-! ## I/O exceptions (R273, 21_translation R529) -/

/-- Capture an I/O exception in IOC_IO_ExcpStat (V 0, type 1:2, address bits 7:29 at 29:51, write 52, device 53:63: log 8)
unless one is captured already; `type` is 0b10 for a segment fault, 0b01 for a page fault, 0 for an invalid address. The mask
bit of the type reports it in IIC_ISR[61]. -/
def State.ioException (s : State) (type : BitVec 2) (a : BitVec 42) (write : Bool) (ioid : BitVec 11) : Res Unit :=
  let stat := s.pcell offExcpStat
  let image : DWord := setIbm (setIbit (setIbm (setIbm (setIbit 0 0 true) 1 type) 29 (ibm a 7 23)) 52 write) 53 ioid
  let s := if ibit stat 0 then s else s.setPcell offExcpStat image
  if ibm (s.pcell offExcpMask) 1 2 &&& type ≠ 0 then s.raiseIsr 0x4 else .ok () s

/-- A load of `len` bytes by a processor from a range of an IOIF: what the device answers is any value, or the location is
invalid, a draw; then an I/O exception is captured and the data is all ones (21_translation R529; log 23). -/
def State.ioifRead (s : State) (ra len : Nat) : Res Nat :=
  if s.free 1 0 = 1 then
    ((s.drew 2).ioException 0 (BitVec.ofNat 42 ra) false (s.free 11 1)).bind fun _ s => .ok (256^len - 1) s
  else .ok (s.free (8 * len) 1).toNat (s.drew 2)

/-- A store of `len` bytes there by the moving agent: the device takes the data, and reservations on their lines are lost
(49_spe_mailbox_signal_event R1776), or it is discarded (R529; log 23). -/
def State.ioifWrite (s : State) (ra len : Nat) : Res Unit :=
  if s.free 1 0 = 1 then (s.drew 2).ioException 0 (BitVec.ofNat 42 ra) true (s.free 11 1)
  else .ok () ((s.drew 2).noteStores (some s.cur) ra len)

/-! ## Addresses of the IOC (R270, R272) -/

/-- IOC_BaseAddr0, IOC_BaseAddrMask0, IOC_BaseAddr1, IOC_BaseAddrMask1 in the IOC command area (offsets: log 8). -/
def offIocBaseAddr (k : Nat) : Nat := offIocBaseAddr0 + 16 * k
def offIocBaseAddrMask (k : Nat) : Nat := offIocBaseAddr0 + 8 + 16 * k

/-! ## The caches of the I/O address translation (R274, R275, 21_translation R530 to R533) -/

def offIostOrigin : Nat := 0x510918
def offIostInvd : Nat := 0x510900
def offIoptInvd : Nat := 0x510908

/-- An entry of the IOPT cache, keyed by 4 * class + way. -/
def State.ioptAt (s : State) (key : Nat) : IoptCacheEntry := sget IoptCacheEntry.empty s.plat.ioptCache key
/-- Write an entry of the IOPT cache. -/
def State.setIopt (s : State) (key : Nat) (e : IoptCacheEntry) : State :=
  { s with plat := { s.plat with ioptCache := sput IoptCacheEntry.empty s.plat.ioptCache key e } }

/-- A hardware load of the IOPT cache begins; the oldest one brings its entry (R532). -/
def State.startIopt (s : State) (key : Nat) (e : IoptCacheEntry) : State :=
  { s with plat := { s.plat with ioptLoad := s.plat.ioptLoad ++ [(key, e)] } }
def State.arriveIopt (s : State) : State :=
  match s.plat.ioptLoad with
  | [] => s
  | x :: rest => ({ s with plat := { s.plat with ioptLoad := rest } }).setIopt x.1 x.2

/-- The reversal of six bits (R531, steps 4 and 5). -/
def bitrev6 (v : BitVec 6) : BitVec 6 :=
  BitVec.ofBool (ibit v 5) ++ BitVec.ofBool (ibit v 4) ++ BitVec.ofBool (ibit v 3) ++ BitVec.ofBool (ibit v 2) ++
    BitVec.ofBool (ibit v 1) ++ BitVec.ofBool (ibit v 0)

/-- The doubleword address of the IOPT entry that a tag in a class stands for: the inverse of the hash (R531). -/
def ioptEntryAddr (cls : Nat) (tag : BitVec 33) : Nat :=
  let lo : BitVec 9 := ibm tag 24 9
  let low6 : BitVec 6 := ibm lo 3 6
  (ibm tag 0 24 ++ bitrev6 (BitVec.ofNat 6 cls ^^^ low6) ++ lo).toNat

/-- Load a directory entry: the entry goes to the staging register (R533). The places of valid (0), H (30) and the tag (31:63)
are the model's (log 8). -/
def State.readCacheDir (s : State) (k : Nat) : Res Nat :=
  let e := s.ioptAt (k % 64 * 4 + k / 64)
  .ok (setIbm (setIbit (setIbit 0 0 e.valid) 30 e.h) 31 e.tag : DWord).toNat
    { s with plat := { s.plat with ioptStage := e.entry, ioptArmed := false, ioptSpoiled := false } }

/-- Store a directory entry: the cache entry is loaded from the staging register (R533, U46). -/
def State.writeCacheDir (s : State) (k : Nat) (v : DWord) : Res Unit :=
  let cls := k % 64
  let way := k / 64
  let e : IoptCacheEntry := { valid := ibit v 0, h := ibit v 30, tag := ibm v 31 33, entry := s.plat.ioptStage }
  let same (w : Nat) : Bool := decide (w ≠ way) && (s.ioptAt (4 * cls + w)).valid && decide ((s.ioptAt (4 * cls + w)).tag = e.tag)
  if s.plat.ioptSpoiled || (e.valid && anyUpTo same 4) then .stop (.refused .reservedValue)
  else .ok () ({ s with plat := { s.plat with ioptArmed := false } }.setIopt (4 * cls + way) e)

/-- A store to IOC_IOPT_CacheInvd: B is bit 63, NE 0:10, IOPTE_DRA 22:60 (the specification names the fields without positions:
PRESUMED, log 8); B reads 0 again, since a load on its way is dropped
(R533). Between a store to IOC_IOPT_Cache and the one to the directory it spoils that one. A store with B = 0, of which R533 does not
speak, is kept, invalidates nothing and spoils likewise: DESIGN CHOICE (log 55). -/
def State.writeIoptInvd (s : State) (v : DWord) : State :=
  let first := (ibm v 22 39).toNat
  let last := first + (ibm v 0 11).toNat
  let hit (key : Nat) (e : IoptCacheEntry) : Bool :=
    let a := ioptEntryAddr (key / 4) e.tag
    decide (first ≤ a) && decide (a ≤ last)
  let s := { s with plat := { s.plat with ioptSpoiled := s.plat.ioptSpoiled || s.plat.ioptArmed } }
  if ibit v 63 then
    let s := { s with plat := { s.plat with ioptLoad := s.plat.ioptLoad.filter fun x => !hit x.1 x.2 } }
    (s.plat.ioptCache.foldl (fun s x => if hit x.1 x.2 then s.setIopt x.1 { x.2 with valid := false } else s) s).setPcell
      offIoptInvd (setIbit v 63 false)
  else s.setPcell offIoptInvd v

/-- A store to IOC_IOST_CacheInvd: B is bit 63 (the specification gives it no position: PRESUMED, log 8), the segment number 29:35
(R530, U46). -/
def State.writeIostInvd (s : State) (v : DWord) : Res Unit :=
  if !ibit v 63 then .stop (.refused .reservedValue)
  else
    let k := (ibm v 31 5).toNat
    let s := { s with plat := { s.plat with iostCache := sput 0 s.plat.iostCache k (setIbit (sget 0 s.plat.iostCache k) 1 false) } }
    .ok () (s.setPcell offIostInvd (setIbit v 63 false))

end Sys2Proof.Machine
end

