-- ==== Sys2Proof/Machine/Mmio.lean ====
section
/-! DEFINITION. The memory-mapped registers (20_memory.md R371 to R376; 12_state_platform.md R260): a read and a write by
offset in the MMIO block. Offsets that the specification does not print are the model's (log 8). -/

namespace Sys2Proof.Machine

/-- Doubleword registers from an offset on. -/
def cellsFrom (off count : Nat) : List Nat := (List.range count).map fun k => off + 8 * k

/-- CIU_DR1 (12_state_platform R312). -/
def offCiuDr1 : Nat := 0x500958

/-- CIU_FIR and NCU_DR1: the specification names the registers without their offsets (10_state R82; log 8). -/
def offCiuFir : Nat := 0x500940
def offNcuDr1 : Nat := 0x500A58

/-- The registers of the PPE privilege area: L2, CIU, NCU, BIU, each a cell that a store writes whole (10_state R82, D29);
BIU_ModeSetup1 and BIU_ModeSetup2 are the first two of the last group (log 8). -/
def ppeAreaCells : List Nat :=
  cellsFrom 0x500310 173 ++ cellsFrom 0x500938 3 ++ [offCiuDr1, 0x500A48, offNcuDr1] ++ cellsFrom 0x500B48 7

/-- The counters and the interval timer of the performance monitor, of 32 bits (R310). -/
def pmCounters : List Nat := [0x509408, 0x509410, 0x509418, 0x509420, 0x509428]

/-- The registers that signal IIC_ISR (61_spe_iic_interrupts R1911, R1913, R1914). -/
def signalCells : List Nat := [offMicCnfg2, offMicTraceMax, offMicTraceCur, offTkmCr, offTkmIsr, offEibInt]

/-- Registers of the platform that only hold their value: PPE privilege area, performance monitor (R310), thermal and
power (R307, R308, R305), debug (R312), MIC (R281), TKM (R295), IOC commands (R271, R272, R277), EIB (R280). -/
def platCells : List Nat :=
  ppeAreaCells ++ pmCounters ++
  [0x509430, 0x509438, 0x509440, 0x509448, 0x509450, 0x509458, 0x509460, 0x509468, 0x509470, 0x509478, 0x509480, 0x509488] ++
  [0x509848, 0x509850, 0x509858, 0x509860, 0x509868, 0x509870, 0x509878, 0x509890, 0x509C98] ++
  [0x50A010, offMicCnfg2, 0x50A050, offMicTraceMax, offMicTraceCur, 0x50A0A0, 0x50A1E0, offTkmCr, 0x50AC08, 0x50AC10, 0x50AC18,
   0x50AC20, offTkmIsr] ++
  [offExcpMask, 0x511C00, offIocBaseAddr 0, offIocBaseAddrMask 0, offIocBaseAddr 1, offIocBaseAddrMask 1, 0x511C28, 0x511C30,
   0x511C38, offEibAc0Ctl, offEibInt, 0x511810, 0x511818, 0x511820, 0x511828]

/-- The MIC timers of the frequency change (R281, 62_platform R2020). -/
def micTimers : List Nat := [0x50A090, 0x50A098, 0x50A1D0, 0x50A1D8]

/-- Registers with their own rule. -/
def platSpecial : List Nat :=
  [0x508400, 0x508408, 0x508410, 0x508418, 0x508420, 0x508428, 0x508430, 0x508438, 0x508440, 0x508448, 0x508500, 0x508508,
   0x508510, 0x508518, 0x508520, 0x508528, 0x509400, 0x509800, 0x509808, 0x509810, 0x509818, 0x509820, 0x509828, 0x509830,
   0x509838, 0x509840, 0x509880, 0x509888, 0x510900, 0x510908, 0x510910, 0x510918, 0x510920]

/-- The registers of the platform whose fields the specification names in full, with the bits of these fields; the other bits are
reserved: a store does not change them and they read 0 (20_memory R376; the positions of the fields of TBR, PMCR, TKM_ISR and the
thermal registers: log 8). IOC_IO_ExcpMask R273; IOC_BaseAddrn, IOC_BaseAddrMaskn R272; EIB_AC0_CTL, EIB_Int R280; the MIC timers
R281; TBR R305; PMCR R306; TS_ITR1, TS_ITR2, TS_GITR, TS_IMR R307; the counters R310. The registers of the PPE privilege area are whole cells by 10_state R82 and D29. -/
def platFields : List (Nat × DWord) :=
  (pmCounters.map fun o => (o, 0xFFFFFFFF)) ++
  [(offItr1, 0x3F3F3F3F3F3F3F3F), (offItr2, 0x3F0000003F),
   (offGitr, 0x3F), (offTsImr, 0xFFC0FFC1FFC10001), (offPmcr, 0xC77), (0x509890, 0x1FF), (0x50A090, 0xFFF00000000000),
   (0x50A098, 0xFFF000000000), (0x50A1D0, 0xFFF00000000000), (0x50A1D8, 0xFFF000000000), (offTkmIsr, 0x1F),
   (offExcpMask, 0x6000000000000000), (offIocBaseAddr 0, iocBaseBits), (offIocBaseAddr 1, iocBaseBits),
   (offIocBaseAddrMask 0, iocMaskBits), (offIocBaseAddrMask 1, iocMaskBits), (offEibAc0Ctl, 0x0C37800000000000),
   (offEibInt, 0x8000000000000000), (offIostInvd, 0x7F0000001), (offIoptInvd, 0xFFE003FFFFFFFFF9)]

/-- The bits that a store to a register of the platform can change. -/
def platBits (off : Nat) : DWord := (cellMask platFields off).getD 0xFFFFFFFFFFFFFFFF

/-- Every register of the platform. -/
def platRegs : List (Nat × Nat) :=
  (0x510000, 0x900) :: (platCells ++ micTimers ++ platSpecial).map fun o => (o, 8)

/-- While IOC_IOST_Origin[E] = 0 no other register of the I/O address translation can be accessed (R270). -/
def State.iocClosed (s : State) (off : Nat) : Bool :=
  decide (0x510000 ≤ off) && decide (off < 0x511000) && decide (off ≠ offIostOrigin) && !ibit (s.pcell offIostOrigin) 0

/-- Read a doubleword register of the platform. What a load of IIC_IGP0, IIC_IGP1, IOC_FIR_Set or IOC_FIR_Reset returns is any value:
for the last two, of which the specification gives no kind of access, DESIGN CHOICE (log 12). -/
def platRead (s : State) (off : Nat) : Res Nat :=
  let value (v : DWord) : Res Nat := .ok v.toNat s
  let take (t : Fin 2) : Res Nat := .ok (s.ippTake t).1.toNat ((s.ippSeen t).ippTake t).2
  let peek (t : Fin 2) : Res Nat := .ok s.plat.iic[t].ipp.toNat (s.ippSeen t)
  if !platRegs.any fun r => decide (r.1 ≤ off ∧ off < r.1 + r.2) then .stop s.checkstop
  else if off % 8 ≠ 0 then .stop (misfit s platRegs off 8)
  else if s.iocClosed off then s.anyRead 64
  else if platCells.contains off || micTimers.contains off then value (s.pcell off)
  else if off < 0x510100 ∧ 0x510000 ≤ off then value (sget 0 s.plat.iostCache ((off - 0x510000) / 8))
  else if off < 0x510900 ∧ 0x510100 ≤ off then s.readCacheDir ((off - 0x510100) / 8)
  else
    match off with
    | 0x508400 => peek 0
    | 0x508408 => take 0
    | 0x508410 => s.anyRead 64
    | 0x508418 => value ((s.plat.iic[0].cpl ++ 0#3).setWidth 64)
    | 0x508420 => peek 1
    | 0x508428 => take 1
    | 0x508430 => s.anyRead 64
    | 0x508438 => value ((s.plat.iic[1].cpl ++ 0#3).setWidth 64)
    | 0x508440 => value s.plat.irr
    | 0x508448 => value s.plat.isr
    | 0x508500 => s.anyRead 64
    | 0x508508 => s.anyRead 64
    | 0x509400 => value 0
    | 0x509800 => value (sensorImage1 s.plat.temps)
    | 0x509808 => value (sensorImage2 s.plat.temps)
    | 0x509810 => .ok (sensorImage1 s.plat.maxTemps).toNat (s.restartMax true)
    | 0x509818 => .ok (sensorImage2 s.plat.maxTemps).toNat (s.restartMax false)
    | 0x510910 => value s.plat.ioptStage
    | _ => value (s.pcell off)

/-- A store to IIC_IGPt (61_spe_iic_interrupts R1909). -/
def State.generate (s : State) (t : Fin 2) (v : DWord) : State :=
  s.modIic t fun c => { c with igp := setIbit c.igp (ibm v 56 4).toNat true }

/-- Store a doubleword register of the platform; its reserved bits are not changed (20_memory R376). A store to the read-only PMSR, or to
a register of the current or the maximum temperatures, is ignored: DESIGN CHOICE (log 49). A store to IOC_FIR_Set (x'508508') sets the
bits of IOC_FIR that are 1 in it, one to IOC_FIR_Reset (x'508500') clears them, as R1939 says of MFC_FIR_Set and MFC_FIR_Reset: DESIGN
CHOICE (log 61), since 12_state_platform R269 gives no sense of the data. -/
def platWrite (s : State) (off : Nat) (v : DWord) : Res Unit :=
  let v := v &&& platBits off
  let sampled : Res Unit := .ok () (s.setPcell off v).thermalSample
  if !platRegs.any fun r => decide (r.1 ≤ off ∧ off < r.1 + r.2) then .stop s.checkstop
  else if off % 8 ≠ 0 then .stop (misfit s platRegs off 8)
  else if s.iocClosed off then .ok () s
  else if signalCells.contains off then s.setSignalCell off v
  else if platCells.contains off then .ok () (s.setPcell off v)
  else if micTimers.contains off then
    if s.plat.slowTarget.isSome then .stop (.refused .frequencyChange) else .ok () (s.setPcell off v)
  else if off < 0x510100 ∧ 0x510000 ≤ off then
    .ok () { s with plat := { s.plat with iostCache := sput 0 s.plat.iostCache ((off - 0x510000) / 8) (v &&& 0xF00003FFFFFFFFE7) } }
  else if off < 0x510900 ∧ 0x510100 ≤ off then s.writeCacheDir ((off - 0x510100) / 8) v
  else
    match off with
    | 0x508400 => .stop (.refused .reservedValue)
    | 0x508408 => .stop (.refused .reservedValue)
    | 0x508410 => .ok () (s.generate 0 v)
    | 0x508418 => .ok () (s.modIic 0 fun c => { c with cpl := ibm v 56 5 })
    | 0x508420 => .stop (.refused .reservedValue)
    | 0x508428 => .stop (.refused .reservedValue)
    | 0x508430 => .ok () (s.generate 1 v)
    | 0x508438 => .ok () (s.modIic 1 fun c => { c with cpl := ibm v 56 5 })
    | 0x508440 => .ok () { s with plat := { s.plat with irr := v &&& 0xF0FF } }
    | 0x508448 => s.clearIsr v
    | 0x508500 => s.storeIocFir offIocFir (s.pcell offIocFir &&& ~~~v)
    | 0x508508 => s.storeIocFir offIocFir (s.pcell offIocFir ||| v)
    | 0x508510 => s.storeIocFir offIocChkstp v
    | 0x508518 => s.storeIocFir offIocErrMask v
    | 0x508520 => s.storeIocFir offIocSysErr v
    | 0x508528 => s.storeIocFir offIocFir v
    | 0x509400 => .ok () (s.setPcell off v)
    | 0x509820 => sampled
    | 0x509828 => sampled
    | 0x509830 => sampled
    | 0x509838 => .ok () (s.setPcell offTsIsr (s.pcell offTsIsr &&& ~~~v)).thermalSample
    | 0x509840 => sampled
    | 0x509880 => s.writePmcr v
    | 0x510900 => s.writeIostInvd v
    | 0x510908 => .ok () (s.writeIoptInvd v)
    | 0x510910 => .ok () { s with plat := { s.plat with ioptStage := v, ioptArmed := true, ioptSpoiled := false } }
    | 0x510918 => .ok () (s.setPcell off (v &&& 0x800003FFFFFFFC00))
    | 0x510920 => .ok () (s.setPcell off (setIbit (s.pcell off) 0 (ibit (s.pcell off) 0 && ibit v 0)))
    | _ => .ok () s

/-- Read `len` bytes at an offset of the MMIO block outside the local-storage aliases. -/
def mmioRead (s : State) (off len : Nat) : Res Nat :=
  if off < 0x410000 then speRead s off len
  else if len = 8 then platRead s off
  else .stop (misfit s platRegs off len)

/-- Store the `len` low bytes of `v` there. -/
def mmioWrite (s : State) (off len v : Nat) : Res Unit :=
  if off < 0x410000 then speWrite s off len v
  else if len = 8 then platWrite s off (BitVec.ofNat 64 v)
  else .stop (misfit s platRegs off len)

end Sys2Proof.Machine
end

