-- ==== Sys2Proof/Machine/PpeStorage.lean ====
section
/-! DEFINITION. Storage accesses of the PPE: the data breakpoint, translation with the interrupts of 60_exceptions R1820 to
R1827 in the order of R1806, and the access to main storage, to a local-storage alias or to a register. -/

namespace Sys2Proof.Machine

/-! ## Real addresses (20_memory R370 to R376) -/

/-- What stands at a real address. -/
inductive Region where
  | dram
  | ls (n : Fin 8) (off : Nat)
  | mmio (off : Nat)
  | ioif
  /-- Reserved space of the MMIO block, or a local-storage alias that is not decoded (R360, R376). -/
  | unassigned
  | nothing
deriving DecidableEq, Repr

/-- Whether an address is routed to IOIF k (12_state_platform R272). -/
def ioifRange (s : State) (ra k : Nat) : Bool :=
  let base := sget 0 s.plat.cells (offIocBaseAddr k)
  let mask := sget 0 s.plat.cells (offIocBaseAddrMask k)
  let a := BitVec.ofNat 11 (ra / 2^31)
  ibit mask 0 && decide (a &&& ibm mask 22 11 = ibm base 22 11 &&& ibm mask 22 11)

/-- Whether a register stands at an offset of the MMIO block (R376), or an offset that the SMM answers without one (R499). -/
def mmioMapped (off : Nat) : Bool :=
  let inRegs (l : List (Nat × Nat)) (o : Nat) : Bool := l.any fun r => decide (r.1 ≤ o ∧ o < r.1 + r.2)
  if off < 0x400000 then
    let o := off % 0x80000
    if o < 0x40000 then false
    else if o < 0x60000 then inRegs problemRegs (o - 0x40000) else smmSpace2 (o - 0x60000) || inRegs priv2Regs (o - 0x60000)
  else if off < 0x410000 then smmSpace1 (off % 0x2000) || inRegs priv1Regs (off % 0x2000)
  else inRegs platRegs off

/-- The region of a real address; a local-storage alias exists while MFC_SR1[D] = 1 (R360). No rule ranks the routing to an IOIF
(12_state_platform R272) against the MMIO block (R371) and main storage (R373) where software lets them overlap: the block, then main
storage, then the IOIF, DESIGN CHOICE (log 52). -/
def region (s : State) (ra : Nat) : Region :=
  if s.cfg.mmioBase ≤ ra ∧ ra < s.cfg.mmioBase + 0x800000 then
    let off := ra - s.cfg.mmioBase
    let n : Fin 8 := Fin.ofNat 8 (off / 0x80000)
    if off < 0x400000 ∧ off % 0x80000 < 0x40000 then
      if ibit s.spes[n].sr1 63 then .ls n (off % 0x80000) else .unassigned
    else if mmioMapped off then .mmio off else .unassigned
  else if ra < s.cfg.memBytes then .dram
  else if ioifRange s ra 0 || ioifRange s ra 1 then .ioif
  else .nothing

/-- The region of an access of `len` bytes: one that begins beside a register and reaches it finds the register (R375;
49_spe_mailbox_signal_event R1754), whose width it then does not have. -/
def regionAt (s : State) (ra len : Nat) : Region :=
  match region s ra with
  | .unassigned =>
    let off := ra - s.cfg.mmioBase
    if (List.range len).any fun k => mmioMapped (off + k) then .mmio off else .unassigned
  | r => r

/-! ## Interrupts of a data access -/

/-- The store bit of DSISR (R1822). -/
def storeBit (store : Bool) : Word := if store then 0x02000000 else 0

/-- Data storage interrupt (R1820, R1822). -/
def State.dsi (s : State) (ea : DWord) (bits : Word) : Out State :=
  (s.modThr fun th => { th with dsisr := bits, dar := ea }).raise .dataStorage 0

/-- Data segment interrupt (R1823). -/
def State.dataSegment (s : State) (ea : DWord) (store : Bool) : Out State :=
  (s.modThr fun th => { th with dsisr := 0x00200000 ||| storeBit store, dar := ea }).raise .dataSegment 0

/-- Alignment interrupt (R1827): DSISR is not changed. -/
def State.alignInt (s : State) (ea : DWord) : Out State :=
  (s.modThr fun th => { th with dar := ea }).raise .alignment 0

/-- A data address breakpoint match on the bytes `ea .. ea + len - 1` (R1821). -/
def dabrMatch (th : Thread) (ea : DWord) (len : Nat) (store : Bool) : Bool :=
  let dab := th.dabr.toNat / 8
  decide (ea.toNat / 8 ≤ dab) && decide (dab ≤ (ea.toNat + len - 1) / 8) && (ibit th.dabr 61 == th.dr) &&
  (if store then ibit th.dabr 62 else ibit th.dabr 63) &&
  ((th.hv && !th.pr && ibit th.dabrx 61) || (!th.hv && !th.pr && ibit th.dabrx 62) || (th.pr && ibit th.dabrx 63))

/-- The first byte of the operand that the breakpoint matches: R1821 lets DAR name any matching byte, DESIGN CHOICE (log 35). -/
def dabrByte (th : Thread) (ea : DWord) : DWord :=
  if ea.toNat ≤ th.dabr.toNat / 8 * 8 then th.dabr &&& ~~~7#64 else ea

/-! ## Alignment rules

What an instruction brings to the access: an alignment interrupt before translation (R1806 A.2, B.3), and one that depends
on the page and its I bit (A.6 to A.8, B.7 to B.9, D.6 to D.8). -/

/-- The alignment rules of an access. -/
structure Align where
  before : Bool
  after : Page → Bool → Bool

/-- HID4[force_ai], bit 17 (log 8). -/
def PpeShared.forceAi (p : PpeShared) : Bool := ibit p.hid4 17
/-- HID4[enb_force_ci] = 1 and HID4[dis_force_ci] = 0, bits 13 and 14: every load and store is caching-inhibited
(20_memory R432). -/
def PpeShared.forceCi (p : PpeShared) : Bool := ibit p.hid4 13 && !ibit p.hid4 14
/-- HID4[force_geq1], bit 15: every load and store is to guarded storage (10_state R76; the position: log 8). -/
def PpeShared.forceG (p : PpeShared) : Bool := ibit p.hid4 15
/-- HID4[en_dcway] = '0000', bits 8:11: the L1 data cache is disabled. -/
def PpeShared.dcacheOff (p : PpeShared) : Bool := decide (ibm p.hid4 8 4 = 0)

/-- Whether an operand crosses a boundary of `b` bytes. -/
def crosses (ea : DWord) (len b : Nat) : Bool := decide (b < ea.toNat % b + len)

/-- Fixed-point loads and stores (20_memory R351, R353). -/
def alignFixed (s : State) (ea : DWord) (len : Nat) : Align :=
  ⟨false, fun _ i => if i then decide (ea.toNat % len ≠ 0) else s.ppe.forceAi && crosses ea len 32⟩
/-- The algebraic loads, always microcoded (R353). -/
def alignAlgebraic (s : State) (ea : DWord) (len : Nat) : Align :=
  ⟨false, fun _ i => i || (s.ppe.forceAi && crosses ea len 32)⟩
/-- Load and reserve, store conditional: aligned (R354), not caching-inhibited (R353). -/
def alignStrict (ea : DWord) (len : Nat) : Align := ⟨decide (ea.toNat % len ≠ 0), fun _ i => i⟩
/-- Load and store multiple of `n` words: aligned (R354), not caching-inhibited (R353), and with HID4[force_ai] = 1 not across a
32-byte boundary (60_exceptions R1827 item 9), the whole operand counting: DESIGN CHOICE (log 37). -/
def alignMultiple (s : State) (ea : DWord) (n : Nat) : Align :=
  ⟨decide (ea.toNat % 4 ≠ 0), fun _ i => i || (s.ppe.forceAi && crosses ea (4 * n) 32)⟩
/-- Strings (R353); with HID4[force_ai] = 1 the whole operand counts, as for the multiples (log 37). -/
def alignString (s : State) (ea : DWord) (len : Nat) : Align :=
  ⟨false, fun _ i => i || (s.ppe.forceAi && crosses ea len 32)⟩
/-- Floating-point loads and stores (R352, R353; 60_exceptions R1827 items 1, 2, 9). -/
def alignFloat (s : State) (ea : DWord) (len : Nat) : Align :=
  let ea := s.thr.truncEa ea
  ⟨decide (ea.toNat % 4 ≠ 0), fun p i =>
    if i then decide (ea.toNat % len ≠ 0)
    else crosses ea len (2^p.bits) || (s.ppe.forceAi && (crosses ea len 32 || decide (ea.toNat % len ≠ 0)))⟩
/-- VMX element and quadword accesses (R355): none. -/
def alignNone : Align := ⟨false, fun _ _ => false⟩
/-- VMX left and right accesses: not caching-inhibited (60_exceptions R1806 D.6, D.8; R1827 item 10). That these rules go before
45_ppe_vmx_1 R1000 and R1002, by which no vector access takes an alignment interrupt, is DEDUCED (log 13). -/
def alignCached : Align := ⟨false, fun _ i => i⟩
/-- `dcbz` (R1827 item 8). The interrupt for the disabled cache is tested after the translation, like that for I = 1: DESIGN CHOICE
(log 36). -/
def alignDcbz (s : State) : Align := ⟨false, fun _ i => i || s.ppe.dcacheOff⟩

/-! ## One piece of an operand -/

/-- What is left of a lookup when the instruction takes an alignment interrupt: nothing, but that a misaligned store to
caching-inhibited storage may have searched the page table, for the translation or for the C bit, a draw (21_translation R456). -/
def keptLookup (before after : State) (mayKeep : Bool) : State :=
  let back : State := { before with freeCount := after.freeCount }
  if mayKeep then (if after.free 1 0 = 1 then after else back).drew 1 else back

/-- A piece of an operand that is translated, and with whose page. -/
structure Piece where
  phys : Phys
  ea : DWord
  page : Page
deriving DecidableEq, Repr

/-- Translate one piece, `len` bytes at `ea` inside a 4 KB block, of an operand at `op`, with the interrupts in the order of
R1806: the breakpoint, alignment whatever the page, translation (a store in software-managed mode needs C = 1), alignment on a page
with C = 1 or for a load, protection, alignment. R1806 places the alignment interrupts of caching-inhibited storage; those of
HID4[force_ai], and those of a floating-point operand that crosses a page, on cacheable storage have the same places: DESIGN CHOICE
(log 34). The alignment interrupt of a piece comes before a segment or page fault of a later
piece: DESIGN CHOICE (log 34). -/
def dataPage (s : State) (op ea : DWord) (len : Nat) (store : Bool) (al : Align) : Res Piece :=
  let th := s.thr
  if dabrMatch th ea len store then .stop (s.dsi (dabrByte th ea) (0x00400000 ||| storeBit store))
  else if al.before then .stop (s.alignInt op)
  else
    match lookup s s.curT ea (if store then .store else .load) with
    | .stop o => .stop o
    | .realViolation s => .stop (s.dsi ea (0x08000000 ||| storeBit store))
    | .noSegment s => .stop (s.dataSegment ea store)
    | .pageFault s => .stop (s.dsi ea (0x40000000 ||| storeBit store))
    | .page p s' =>
      let i := p.i || s.ppe.forceCi
      let al := al.after p i
      if store && !p.c && s.ppe.tl then .stop (s'.dsi ea (0x40000000 ||| storeBit store))
      else if al && (!store || p.c) then .stop ((keptLookup s s' (store && i)).alignInt op)
      else if !permits th.pr p store then .stop (s'.dsi ea (0x08000000 ||| storeBit store))
      else if al then .stop ((keptLookup s (s'.setReference s.curT p ea) (store && i)).alignInt op)
      else .ok ⟨⟨p.ra, i, p.g || s.ppe.forceG⟩, ea, p⟩ s'

/-- The C bit of the page of a piece is recorded when a store to it is performed (21_translation R456). -/
def State.recordChange (s : State) (x : Piece) : Res Unit := s.setChange s.curT x.page x.ea

/-- An operand of one piece: translated, and, for a store, its C bit recorded, since nothing can end the instruction after that. -/
def dataPiece (s : State) (op ea : DWord) (len : Nat) (store : Bool) (al : Align) : Res Phys :=
  (dataPage s op ea len store al).bind fun x s =>
    if store then (s.recordChange x).bind fun _ s => .ok x.phys s else .ok x.phys s

/-- The pieces of an operand: one, or two where it crosses a 4 KB boundary, or where it crosses a boundary of 32 bytes and so is
several accesses (20_memory R351) of which a breakpoint stops the later ones (60_exceptions R1821). `cut` is 8 for the doubleword stores
of the floating-point unit, which are two accesses of a word already where they are not doubleword-aligned (20_memory R352). Where nothing
stops it, no other agent sees how it is cut (log 6). -/
def pieces (th : Thread) (store : Bool) (ea : DWord) (len : Nat) (cut : Nat := 32) : List (DWord × Nat) :=
  let ea := th.truncEa ea
  let block := if dabrMatch th ea len store then cut else 4096
  let first := block - ea.toNat % block
  if first < len then [(ea, first), (th.truncEa (ea + BitVec.ofNat 64 first), len - first)] else [(ea, len)]

/-- What translating a list of pieces gives: every piece, or the ones before the first that ends the instruction. -/
inductive Prepared where
  | all (l : List Piece) (s : State)
  | some (l : List Piece) (o : Out State)

/-- The first byte of a list of pieces that the breakpoint matches. -/
def breakByte (th : Thread) (store : Bool) (l : List (DWord × Nat)) : Option DWord :=
  (l.find? fun x => dabrMatch th x.1 x.2 store).map fun x => dabrByte th x.1

/-- The interrupt `o` of a piece, or that of the breakpoint on the piece or on a later one of the operand: a match has the highest
priority among the exceptions of a storage instruction (R1821; R1806 A.1, B.2, D.2). That it goes before the interrupts of the pieces
before the matching one too is DEDUCED (log 34). -/
def State.breakFirst (s : State) (store : Bool) (brk : Option DWord) (o : Out State) : Out State :=
  match brk, o with
  | some b, .next t => if t.stopped = s.stopped then s.dsi b (0x00400000 ||| storeBit store) else o
  | _, o => o

/-- Translate the pieces in ascending order; a store is not performed yet, and records no C bit yet. -/
def prepareFrom (op : DWord) (store : Bool) (al : Align) : List (DWord × Nat) → List Piece → State → Prepared
  | [], acc, s => .all acc.reverse s
  | (ea, len) :: rest, acc, s =>
    match dataPage s op ea len store al with
    | .ok p s => prepareFrom op store al rest (p :: acc) s
    | .stop o => .some acc.reverse (s.breakFirst store (breakByte s.thr store ((ea, len) :: rest)) o)

/-- Translate the pieces of an operand. -/
def prepare (op : DWord) (store : Bool) (al : Align) (l : List (DWord × Nat)) (s : State) : Prepared := prepareFrom op store al l [] s

/-! ## Real accesses -/

/-- Both threads take, or the thread takes, a machine check on a load that finds nothing (60_exceptions R1811). The
interrupt comes after the load: the state holds the completed load for the imprecise form, which each thread takes after a drawn
number of instruction boundaries; while one is pending a further load does not put it off (R1809; log 19). -/
def State.machineCheck (s : State) (s' : State) : Out State :=
  if !s.threads[0].me || !s.threads[1].me then s.checkstop
  else if ibit s.ppe.hid0 26 then .next (s.interrupt s.curT (.machineCheck true) (s.thr.advance).pc 0)
  else
    let mark (t : Fin 2) (s : State) : State :=
      if ibit s.ppe.te t.val then s.modT t fun th => { th with mcheck := some (th.mcheck.getD (s'.free 64 t.val).toNat) } else s
    .next ((mark 1 (mark 0 s')).drew 2)

/-- An access of the PPE to unassigned reserved space: at least one of CIU_FIR[7, 8] is set, a draw, and the machine checkstops
(20_memory R376, 10_state R82). -/
def State.unassignedSpace (s : State) : Out State :=
  let k : Nat := (s.free 2 0).toNat % 3
  let bits : DWord := if k = 0 then 0x0100000000000000 else if k = 1 then 0x0080000000000000 else 0x0180000000000000
  ((s.drew 1).setPcell offCiuFir (s.pcell offCiuFir ||| bits)).checkstop

/-- The bytes of main storage as a number. -/
def State.loadMem (s : State) (a len : Nat) : Nat := readBytes s.mem a len

/-- A load that found nothing (U41): whether the access was caching-inhibited. -/
inductive Loaded where
  | value (v : Nat) (s : State)
  | missing (s : State)
  | stop (o : Out State)

/-- Read `len` bytes of a translated piece (20_memory R361, R373, R376). Beyond an IOIF: log 23. -/
def realLoad (s : State) (p : Phys) (len : Nat) : Loaded :=
  match regionAt s p.ra len with
  | .dram => .value (s.loadMem p.ra len) s
  | .ls n off =>
    if p.i then .value (readBytes (s.meetAlias n).spes[n].ls off len) (s.meetAlias n) else .stop (.refused .cacheableDevice)
  | .mmio off =>
    if p.i && p.g then
      match mmioRead s off len with
      | .ok v s => .value v s
      | .stop o => .stop o
    else .stop (.refused .cacheableDevice)
  | .ioif =>
    match s.ioifRead p.ra len with
    | .ok v s => .value v s
    | .stop o => .stop o
  | .unassigned => .stop s.unassignedSpace
  | .nothing => if p.i then .missing s else .stop s.checkstop

/-- Store the `len` low bytes of `v` to a translated piece. -/
def realStore (s : State) (p : Phys) (len v : Nat) : Res Unit :=
  match regionAt s p.ra len with
  | .dram => .ok () (s.storeMem (some s.cur) p.ra len v)
  | .ls n off =>
    if p.i then .ok () ((s.meetAlias n).modN n fun q => { q with ls := writeBytes q.ls off v len }) else .stop (.refused .cacheableDevice)
  | .mmio off => if p.i && p.g then mmioWrite s off len v else .stop (.refused .cacheableDevice)
  | .ioif => s.ioifWrite p.ra len
  | .unassigned => .stop s.unassignedSpace
  | .nothing => .stop s.checkstop

/-! ## Whole operands -/

/-- Read the pieces and join their bytes; `missing` counts a piece that found nothing as ones. -/
def loadAll (lens : List Nat) : List Piece → Nat → Bool → State → Res (Nat × Bool)
  | [], acc, miss, s => .ok (acc, miss) s
  | p :: rest, acc, miss, s =>
    let len := lens.headD 0
    match realLoad s p.phys len with
    | .value v s => loadAll lens.tail rest (acc * 256^len + v % 256^len) miss s
    | .missing s => loadAll lens.tail rest (acc * 256^len + 256^len - 1) true s
    | .stop o => .stop o

/-- Load `len` bytes at `ea` (41_ppe_loadstore R651) and finish the instruction with what `conv` makes of them. A load that finds
nothing ends in a machine check: precise, no register is written; imprecise, the target gets any value, not only one that `conv` can
give (60_exceptions R1811, U68, D92). -/
def loadThen {w : Nat} (s : State) (ea : DWord) (len : Nat) (al : Align) (conv : Nat → BitVec w) (put : BitVec w → State → State) :
    Out State :=
  let ps := pieces s.thr false ea len
  match prepare (s.thr.truncEa ea) false al ps s with
  | .some _ o => o
  | .all l s =>
    match loadAll (ps.map (·.2)) l 0 false s with
    | .stop o => o
    | .ok (v, miss) s =>
      if miss then s.machineCheck (put (s.free w 0) (s.drew 1)) else .next (put (conv v) s)

/-- Store to the pieces; each records the C bit of its page. -/
def storeAll : List (Piece × Nat × Nat) → State → Res Unit
  | [], s => .ok () s
  | (p, len, v) :: rest, s =>
    (s.recordChange p).bind fun _ s => (realStore s p.phys len v).bind fun _ s => storeAll rest s

/-- The part of a number that each piece stores: lengths from the left, of `total` bytes. -/
def splitBytes (v : Nat) : Nat → List Nat → List (Nat × Nat)
  | _, [] => []
  | total, len :: rest => (len, v / 256^(total - len) % 256^len) :: splitBytes v (total - len) rest

/-- How many of `n` accesses take effect when a later one faults: any prefix (U69). -/
def State.prefixLen (s : State) (n : Nat) : Nat := (s.free 8 0).toNat % (n + 1)

/-- The accesses of a piece of an operand that microcode splits: words, else bytes (41_ppe_loadstore R651, 20_memory R351). -/
def accessesOf (x : Piece × Nat × Nat) : List (Piece × Nat × Nat) :=
  let len := x.2.1
  if len = 4 ∧ x.1.phys.ra % 4 = 0 then [x]
  else
    (List.range len).map fun k =>
      ({ x.1 with phys := { x.1.phys with ra := x.1.phys.ra + k } }, 1, x.2.2 / 256^(len - 1 - k) % 256)

/-- Store a list of parts (address, length, value) of an operand at `op` and finish the instruction. Where a later part
faults, any prefix of the accesses before it may have been made (60_exceptions R1822, U69). -/
def storeParts (s : State) (op : DWord) (al : Align) (parts : List (DWord × Nat × Nat)) (f : State → State) : Out State :=
  let vals := parts.map (·.2)
  match prepare op true al (parts.map fun x => (x.1, x.2.1)) s with
  | .all l s => (storeAll (l.zip vals) s).done fun _ s => .next (f s)
  | .some l o =>
    match o, l with
    | .next s', _ :: _ =>
      let done := (l.zip vals).flatMap accessesOf
      (storeAll (done.take (s'.prefixLen done.length)) (s'.drew 1)).done fun _ s => .next s
    | o, _ => o

/-- Store `v` of `len` bytes at `ea` (R651) and finish the instruction; `cut` as for `pieces`. -/
def storeThen (s : State) (ea : DWord) (len : Nat) (al : Align) (v : Nat) (f : State → State) (cut : Nat := 32) : Out State :=
  let ps := pieces s.thr true ea len cut
  storeParts s (s.thr.truncEa ea) al ((ps.map (·.1)).zip (splitBytes v len (ps.map (·.2)))) f

/-- Read each piece. -/
def loadList : List (Piece × Nat) → State → Res (List Nat)
  | [], s => .ok [] s
  | (p, len) :: rest, s =>
    match realLoad s p.phys len with
    | .value v s => (loadList rest s).bind fun l s => .ok (v :: l) s
    | .missing s => (loadList rest s).bind fun l s => .ok ((256^len - 1) :: l) s
    | .stop o => .stop o

/-- Load a list of parts and finish with `f` (which puts the values into registers) and then `g`. Where a later part
faults, any prefix of the parts may have been loaded (60_exceptions R1822, U69). -/
def loadParts (s : State) (op : DWord) (al : Align) (parts : List (DWord × Nat)) (f : List Nat → State → State)
    (g : State → Out State) : Out State :=
  let lens := parts.map (·.2)
  match prepare op false al parts s with
  | .all l s => (loadList (l.zip lens) s).done fun vs s => g (f vs s)
  | .some l o =>
    match o, l with
    | .next s', _ :: _ => (loadList ((l.zip lens).take (s'.prefixLen l.length)) (s'.drew 1)).done fun vs s => .next (f vs s)
    | o, _ => o

/-- `dcbst`, `dcbf` and `dcbtst` on a granule may clear the other thread's reservation (20_memory R421 item 4). -/
def State.noteTouch (s : State) (g : Nat) : State :=
  let other : Fin 2 := 1 - s.curT
  if s.threads[other].reserve = some g then
    (if s.free 1 0 = 1 then s.modT other fun th => th.loseReserve g else s).drew 1
  else s

end Sys2Proof.Machine
end

