-- ==== Sys2Proof/Machine/MfcUnits.lean ====
section
/-! DEFINITION. What the MFC commands share: the selected command, its checks, the units of a transfer, list elements, the
atomic commands, completion (49_mfc_commands.md). The meanings are in MfcCommands.lean. -/

namespace Sys2Proof.Machine

/-! ## The selected command -/

/-- The command that a selection stands for. -/
def Spe.commandOf (p : Spe) (x : MfcSel) : Option MfcCmd :=
  match x with
  | .spu k => p.spuQ[k]?
  | .proxy k => p.pxQ[k]?
  | .atomic => p.atomicCmd

/-- The command that the moving MFC performs. -/
def State.selected (s : State) : Option MfcCmd := s.spe.commandOf s.sel

/-- The index of a command in MFC_CER and MFC_DSIPR: that of its queue entry, which it keeps (61_spe_iic_interrupts R1937, D102;
the atomic command: log 21). -/
def Spe.indexOf (p : Spe) (x : MfcSel) : Nat :=
  let slot := match p.commandOf x with
    | some c => c.slot
    | none => 0
  match x with
  | .spu _ => slot
  | .proxy _ => 16 + slot
  | .atomic => atomicIndex

/-- Change the selected command. -/
def State.modSelected (s : State) (f : MfcCmd → MfcCmd) : State :=
  match s.sel with
  | .spu k => s.modSpe fun p => { p with spuQ := p.spuQ.modify k f }
  | .proxy k => s.modSpe fun p => { p with pxQ := p.pxQ.modify k f }
  | .atomic => s.modSpe fun p => { p with atomicCmd := p.atomicCmd.map f }

/-- Completion (R1643): the entry leaves its queue. -/
def State.completeSelected (s : State) : Out State :=
  match s.sel with
  | .spu k =>
    .next (s.modSpe fun p =>
      let p' := { p with spuQ := p.spuQ.eraseIdx k }.setCnt 21 (p.count 21 + 1)
      if p.count 21 = 0 then p'.raiseEvent 28 else p')
  | .proxy k => ((s.modSpe fun p => { p with pxQ := p.pxQ.eraseIdx k }).checkQuery s.curN).done fun _ s => .next s
  | .atomic => .next (s.modSpe fun p => { p with atomicCmd := none })

/-- A command error or an alignment error of the selected command (R1639). -/
def State.selectedError (s : State) (bit : DWord) : Out State :=
  (s.mfcError s.curN bit (s.spe.indexOf s.sel)).done fun _ s => .next s

/-! ## Checks (R1633 to R1637) -/

/-- The transfer size: bits 1:15 of the parameter. -/
def MfcCmd.bytes (c : MfcCmd) : Nat := c.size.toNat % 2^15

/-- A valid transfer size (R1633). -/
def sizeOk (n : Nat) : Bool :=
  n == 0 || n == 1 || n == 2 || n == 4 || n == 8 || (decide (n % 16 = 0) && decide (n ≤ 16384))

/-- Alignment of a transfer (R1634, R1651). -/
def alignOk (n lsa ea : Nat) : Bool :=
  if n == 1 || n == 2 || n == 4 || n == 8 then decide (ea % n = 0) && decide (lsa % 16 = ea % 16)
  else decide (ea % 16 = 0) && decide (lsa % 16 = 0)

/-- Which queues a command may stand in (R1637). -/
inductive Queues where
  | both
  | spuOnly
  | proxyOnly
deriving DecidableEq, Repr

/-- Whether the selection is in one of the queues. -/
def Queues.allow (q : Queues) (x : MfcSel) : Bool :=
  match x with
  | .spu _ => decide (q ≠ .proxyOnly)
  | .proxy _ => decide (q ≠ .spuOnly)
  | .atomic => false

/-- A queued command: tag and queue are checked (R1636, R1637), then `f` goes on. -/
def queued (s : State) (q : Queues) (f : MfcCmd → Out State) : Out State :=
  match s.selected with
  | none => .next s
  | some c => if decide (ibm c.tag 0 11 ≠ (0 : BitVec 11)) || !q.allow s.sel then s.selectedError intC else f c

/-- The replacement class of a command (R1638, R1694). -/
def rclassNo (r : BitVec 8) : Nat := if r.toNat < 4 then r.toNat else 0

/-! ## EA side of a unit (R1653) -/

/-- Read `len` bytes at a real address (beyond an IOIF: log 23). -/
def dmaRead (s : State) (ra len : Nat) : Res Nat :=
  match regionAt s ra len with
  | .dram => .ok (s.loadMem ra len) s
  | .ls m off =>
    if m = s.curN then .stop (.refused .ownLocalStorageAlias)
    else .ok (readBytes (s.meetAlias m).spes[m].ls off len) (s.meetAlias m)
  | .mmio off => if 8 < len then .stop (.refused .dmaToMmio) else mmioRead s off len
  | .ioif => s.ioifRead ra len
  | .unassigned => .stop s.checkstop
  | .nothing => .stop s.checkstop

/-- Store the `len` low bytes of `v` at a real address. -/
def dmaWrite (s : State) (ra len v : Nat) : Res Unit :=
  match regionAt s ra len with
  | .dram => .ok () (s.storeMem (some s.cur) ra len v)
  | .ls m off =>
    if m = s.curN then .stop (.refused .ownLocalStorageAlias)
    else .ok () ((s.meetAlias m).modN m fun p => { p with ls := writeBytes p.ls off v len })
  | .mmio off => if 8 < len then .stop (.refused .dmaToMmio) else mmioWrite s off len v
  | .ioif => s.ioifWrite ra len
  | .unassigned => .stop s.checkstop
  | .nothing => .stop s.checkstop

/-- The command waits for MFC_CNTL[R] (R1640). -/
def State.holdSelected (s : State) : State := s.modSelected fun c => { c with dep := true }

/-- Translate an EA of the selected command and go on with the real address (R1640, 21_translation R519, R520): an exception
is recorded and the command held; MFC_DAR follows the translations while no exception is outstanding (log 20). -/
def dmaTranslate (s : State) (ea : DWord) (store atomic : Bool) (r : Nat) (f : Nat → State → Out State) : Out State :=
  match smmTranslate s s.curN ea store atomic r with
  | .real ra s => f ra (if s.spe.smmBusy then s else s.modSpe fun p => p.setCell keyDar ea)
  | .held s => .next s.holdSelected
  | .fault stat dsisr suspend s =>
    (s.holdSelected.smmException s.curN ea (s.spe.indexOf s.sel) stat dsisr suspend).done fun _ s => .next s
  | .stop o => o

/-- The LS address compare (21_translation R519, D68): none while MFC_LSACR is 0; else whether it matches, and MFC_LSCRR, are
drawn. A match suspends the MFC and sets LP (the command reads LS) or LG. -/
def lsCompare (s : State) (readsLs : Bool) (f : State → Out State) : Out State :=
  if s.spe.cell keyLsacr = 0 then f s
  else if s.free 1 0 = 1 then
    let s' := (s.drew 2).modSpe fun p => { p.setCell keyLscrr (s.free 64 1) with sc := true }
    (s'.raiseInt s.curN 1 (if readsLs then 0x8 else 0x4)).done fun _ s => .next s
  else f (s.drew 1)

/-! ## Units (R1645 to R1647) -/

/-- The number of units of a transfer. -/
def unitCount (n : Nat) : Nat := if n = 0 then 0 else if n < 16 then 1 else n / 16

/-- The units not yet performed. -/
def unitsLeft (units count : Nat) : List Nat := (List.range count).filter fun k => !units.testBit k

/-- One of the units left; several: a drawn one. -/
def pickUnit (l : List Nat) (draw : Nat) : Nat :=
  match l with
  | [k] => k
  | l => l.getD (draw % l.length) 0

/-- An LS address (R1652). -/
def Spe.dmaLs (p : Spe) (lsa : Nat) : Nat := lsa &&& p.lslr.toNat

/-- Perform a unit of `len` bytes between LS and the EA; then `f`. -/
def moveUnit (s : State) (put : Bool) (lsa : Nat) (ea : DWord) (len r : Nat) (f : State → State) : Out State :=
  dmaTranslate s ea put false r fun ra s =>
    let a := s.spe.dmaLs lsa
    if put then (dmaWrite s ra len (readBytes s.spe.ls a len)).done fun _ s => .next (f s)
    else (dmaRead s ra len).done fun v s => .next (f (s.modSpe fun p => { p with ls := writeBytes p.ls a v len }))

/-- Whether the translation of an EA ends in an exception. -/
def translationFails (s : State) (ea : DWord) (store : Bool) (r : Nat) : Bool :=
  match smmTranslate s s.curN ea store false r with
  | .real _ _ => false
  | .held _ => true
  | .fault _ _ _ _ => true
  | .stop _ => false

/-- The unit to perform: a drawn one of those left; the first one left instead of one whose translation fails, so that an
exception names the first byte not transferred (61_spe_iic_interrupts R1937, R1950). -/
def chooseUnit (s : State) (l : List Nat) (draw : Nat) (ea : Nat → DWord) (store : Bool) (r : Nat) : Nat :=
  let k := pickUnit l draw
  if translationFails s (ea k) store r then l.headD k else k

/-- Perform one of the units left of a transfer of `n` bytes from `ea` on, of which `count` may be performed, and mark it. -/
def performUnit (s : State) (c : MfcCmd) (put : Bool) (lsa : Nat) (ea : DWord) (n count r : Nat) : Out State :=
  lsCompare s put fun s =>
    let l := unitsLeft c.units count
    let at_ (k : Nat) : DWord := ea + BitVec.ofNat 64 (16 * k)
    let s' := if 1 < l.length then s.drew 1 else s
    let k := chooseUnit s' l (s.free 16 0).toNat at_ put r
    moveUnit s' put (lsa + 16 * k) (at_ k) (if n < 16 then n else 16) r fun s => s.modSelected fun c => { c with units := c.units ||| 2^k }

/-! ## Transfers (R1645, R1646, R1650, R1651, R1655) -/

/-- A step of a `put` or `get` form whose command and queue are valid: a unit, or the completion, which for the `s` forms
starts the SPU first. -/
def transferStep (s : State) (c : MfcCmd) (put start : Bool) (r : Nat) : Out State :=
  let n := c.bytes
  let count := unitCount n
  if !sizeOk n || !alignOk n c.lsa.toNat (c.ea.toNat % 2^32) then s.selectedError intA
  else if (unitsLeft c.units count).isEmpty then (if start then s.modSpe Spe.runRequest else s).completeSelected
  else performUnit s c put c.lsa.toNat c.ea n count r

/-- A step of a `put` or `get` form. -/
def transfer (s : State) (q : Queues) (put start : Bool) (r : Nat) : Out State :=
  queued s q fun c => transferStep s c put start r

/-- A step of `sndsig` and its forms (R1655): a `put` of 4 bytes. -/
def signalCmd (s : State) (r : Nat) : Out State :=
  queued s .both fun c => if c.bytes ≠ 4 then s.selectedError intA else transferStep s c true false r

/-! ## Lists (R1635, R1670 to R1675) -/

/-- LTS, LEAL and the stall flag of a list element (30_encoding R582). -/
def elemSize (e : DWord) : Nat := (ibm e 17 15).toNat
def elemEal (e : DWord) : Nat := (ibm e 32 32).toNat
def elemStall (e : DWord) : Bool := ibit e 0

/-- The next multiple of 16. -/
def roundUp16 (a : Nat) : Nat := (a + 15) / 16 * 16

/-- Fetch the next element (R1671, R1672): it is checked; an element that moves data rounds the running LS address up. -/
def fetchElement (s : State) (c : MfcCmd) : Out State :=
  let e : DWord := BitVec.ofNat 64 (readBytes s.spe.ls (s.spe.dmaLs (c.ea.toNat % 2^32 + c.listDone)) 8)
  let n := elemSize e
  let ok := sizeOk n && (if n = 0 then true else if n < 16 then decide (elemEal e % n = 0) else decide (elemEal e % 16 = 0))
  if !ok then s.selectedError intA
  else
    .next (s.modSelected fun c =>
      { c with
        listDone := c.listDone + 8
        elem := some e
        units := 0
        lsa := if n = 0 then c.lsa else BitVec.ofNat 32 (roundUp16 c.lsa.toNat) })

/-- The LS address of an element's data (R1672). -/
def elemLsa (c : MfcCmd) (e : DWord) : Nat := if elemSize e < 16 then c.lsa.toNat + elemEal e % 16 else c.lsa.toNat

/-- The units of an element below the 4 GB boundary (R1674). -/
def elemUnits (e : DWord) : Nat := min (unitCount (elemSize e)) ((2^32 - elemEal e + 15) / 16)

/-- The end of an element (R1672, R1675): the running LS address, and the stall with its notification. -/
def finishElement (s : State) (c : MfcCmd) (e : DWord) : Out State :=
  let n := elemSize e
  let s := s.modSelected fun c' =>
    { c' with
      elem := none
      units := 0
      lsa := if n = 0 then c'.lsa else BitVec.ofNat 32 (elemLsa c e + n)
      stalled := elemStall e }
  if !elemStall e then .next s
  else
    .next (s.modSpe fun p =>
      let p' := { p with stallStat := setIbit p.stallStat (31 - c.tagNo) true }.setCnt 25 1
      if p.count 25 = 0 then p'.raiseEvent 30 else p')

/-- A step of a list command. -/
def listCmd (s : State) (put : Bool) (r : Nat) : Out State :=
  queued s .spuOnly fun c =>
    let n := c.bytes
    if n % 8 ≠ 0 ∨ 16384 < n ∨ c.ea.toNat % 8 ≠ 0 then s.selectedError intA
    else if c.stalled then .next s
    else
      match c.elem with
      | none => if n ≤ c.listDone then s.completeSelected else fetchElement s c
      | some e =>
        if (unitsLeft c.units (elemUnits e)).isEmpty then
          if 2^32 < elemEal e + elemSize e then s.selectedError intA else finishElement s c e
        else performUnit s c put (elemLsa c e) (ibm c.ea 0 32 ++ ibm e 32 32) (elemSize e) (elemUnits e) r

/-! ## Storage-control and synchronization commands (R1657, R1691) -/

/-- A storage-control command without an effect: the checks of `put`, then it completes (R1657). It does not translate its
address, although 21_translation R499 speaks of every DMA command: DESIGN CHOICE (log 12). -/
def hintCmd (s : State) : Out State :=
  queued s .both fun c =>
    if !sizeOk c.bytes || !alignOk c.bytes c.lsa.toNat (c.ea.toNat % 2^32) then s.selectedError intA else s.completeSelected

/-- The number of 128-byte lines that the range of a command reaches. -/
def lineCount (ea n : Nat) : Nat := if n = 0 then 0 else (ea + n - 1) / 128 - ea / 128 + 1

/-- A step of `sdcrz`: one line is cleared, or the command completes. -/
def clearLines (s : State) (r : Nat) : Out State :=
  queued s .both fun c =>
    let n := c.bytes
    if !sizeOk n || !alignOk n c.lsa.toNat (c.ea.toNat % 2^32) then s.selectedError intA
    else
      let l := unitsLeft c.units (lineCount c.ea.toNat n)
      let at_ (k : Nat) : DWord := (c.ea &&& ~~~127#64) + BitVec.ofNat 64 (128 * k)
      let s' := if 1 < l.length then s.drew 1 else s
      let k := chooseUnit s' l (s.free 16 0).toNat at_ true r
      if l.isEmpty then s.completeSelected
      else
        dmaTranslate s' (at_ k) true false r
          fun ra s => (dmaWrite s ra 128 0).done fun _ s => .next (s.modSelected fun c => { c with units := c.units ||| 2^k })

/-- `barrier`, `mfceieio`, `mfcsync`: complete once eligible. -/
def syncCmd (s : State) : Out State := queued s .both fun _ => s.completeSelected

/-! ## Atomic commands (R1660 to R1664) -/

/-- The LS line of an atomic command. -/
def MfcCmd.lsLine (c : MfcCmd) (p : Spe) : Nat := p.dmaLs c.lsa.toNat / 128 * 128

/-- The data of that line. -/
def State.lineData (s : State) (c : MfcCmd) : Nat := readBytes s.spe.ls (c.lsLine s.spe) 128

/-- The immediate atomic command, translated; in a queue it is a command error (R1637). -/
def immediateCmd (s : State) (store : Bool) (r : Nat) (f : MfcCmd → Nat → State → Out State) : Out State :=
  match s.selected with
  | none => .next s
  | some c =>
    if s.sel = .atomic then dmaTranslate s (c.ea &&& ~~~127#64) store true r fun ra s => f c ra s
    else s.selectedError intC

/-- The end of an immediate atomic command: its status for channel 27 (R1664). -/
def State.atomicDone (s : State) (status : Word) : Out State :=
  .next (s.modSpe fun p => { p with atomicCmd := none, atomStat := status }.setCnt 27 1)

/-- Read the line at a real address that is to be reserved. A reservation needs a cacheable line (21_translation R509, R518), and a local
storage that is mapped as such is refused (20_memory R361, D56). -/
def reserveRead (s : State) (ra : Nat) : Res Nat :=
  match region s ra with
  | .ls m _ => .stop (.refused (if m = s.curN then .ownLocalStorageAlias else .cacheableDevice))
  | _ => dmaRead s ra 128

/-- `getllar` (R1660). -/
def getLine (s : State) (r : Nat) : Out State :=
  immediateCmd s false r fun c ra s =>
    lsCompare s false fun s =>
      (reserveRead s ra).done fun v s =>
        (s.modSpe fun p => { p with ls := writeBytes p.ls (c.lsLine p) v 128, llres := some (ra / 128) }).atomicDone 4

/-- `putllc` (R1661). -/
def putLineConditional (s : State) (r : Nat) : Out State :=
  immediateCmd s true r fun c ra s =>
    lsCompare s true fun s =>
      if s.spe.llres = some (ra / 128) then
        (dmaWrite s ra 128 (s.lineData c)).done fun _ s => (s.modSpe fun p => { p with llres := none }).atomicDone 0
      else (s.modSpe fun p => { p with llres := none }).atomicDone 1

/-- `putlluc` (R1662). -/
def putLine (s : State) (r : Nat) : Out State :=
  immediateCmd s true r fun c ra s =>
    lsCompare s true fun s =>
      (dmaWrite s ra 128 (s.lineData c)).done fun _ s => (s.modSpe fun p => p.dropLine (ra / 128)).atomicDone 2

/-- A step of `putqlluc` (R1663): the line is stored, or the command completes. -/
def putLineQueued (s : State) (r : Nat) : Out State :=
  queued s .spuOnly fun c =>
    if c.units ≠ 0 then s.completeSelected
    else
      dmaTranslate s (c.ea &&& ~~~127#64) true true r fun ra s =>
        lsCompare s true fun s =>
          (dmaWrite s ra 128 (s.lineData c)).done fun _ s =>
            .next ((s.modSpe fun p => p.dropLine (ra / 128)).modSelected fun c => { c with units := 1 })

/-! ## What may move (R1630, R1692) -/

/-- The opcode of a command. -/
def MfcCmd.op (c : MfcCmd) : Nat := c.word.toNat % 256

/-- `barrier`, `mfceieio`, `mfcsync`. -/
def isSync (op : Nat) : Bool := op == 0xC0 || op == 0xC8 || op == 0xCC
/-- The `b` forms. -/
def isBarrier (op : Nat) : Bool := [0x21, 0x25, 0x29, 0x31, 0x35, 0x41, 0x45, 0x49, 0xA1].contains op
/-- The `f` forms. -/
def isFence (op : Nat) : Bool := [0x22, 0x26, 0x2A, 0x32, 0x36, 0x42, 0x46, 0x4A, 0xA2].contains op
/-- The list forms. -/
def isList (op : Nat) : Bool := [0x24, 0x25, 0x26, 0x34, 0x35, 0x36, 0x44, 0x45, 0x46].contains op

/-- Whether the earlier command `d` of the same queue blocks `c` (R1692 (b) to (d)). -/
def blocks (c d : MfcCmd) : Bool :=
  decide (d.order < c.order) &&
  (isSync d.op || isSync c.op ||
    (d.tagNo == c.tagNo && (isBarrier d.op || isFence c.op || isBarrier c.op || c.op == 0xB8)) ||
    (c.op == 0xB8 && d.op == 0xB8))

/-- Whether a command of a queue may move (R1692). -/
def eligible (q : List MfcCmd) (c : MfcCmd) : Bool := !c.stalled && !c.dep && !q.any (blocks c)

/-- Whether the element in transfer, if there is one, is done without a stall. -/
def MfcCmd.elementDone (c : MfcCmd) : Bool :=
  match c.elem with
  | none => true
  | some e => (unitsLeft c.units (elemUnits e)).isEmpty && decide (elemEal e + elemSize e ≤ 2^32) && !elemStall e

/-- Whether all the data of a command has moved, so that it may complete while the MFC is suspended or halted by an error
(R1630, R1639, R1695). -/
def MfcCmd.performed (c : MfcCmd) : Bool :=
  if isList c.op then c.elementDone && decide (0 < c.listDone) && decide (c.bytes ≤ c.listDone)
  else if c.op = 0xB8 then decide (c.units ≠ 0)
  else if c.op = 0x89 then decide (c.units ≠ 0) && (unitsLeft c.units (lineCount c.ea.toNat c.bytes)).isEmpty
  else decide (c.units ≠ 0) && (unitsLeft c.units (unitCount c.bytes)).isEmpty

/-- The commands of an MFC that may move: while it is suspended or halted, only the completion of a performed one. -/
def Spe.mayMove (p : Spe) : List MfcSel :=
  let open_ := !p.sc && !p.halted
  let ok (q : List MfcCmd) (c : MfcCmd) : Bool := eligible q c && (open_ || c.performed)
  let pick (q : List MfcCmd) (f : Nat → MfcSel) : List MfcSel :=
    (List.range q.length).filterMap fun k => if (q[k]?).any (ok q) then some (f k) else none
  pick p.spuQ .spu ++ pick p.pxQ .proxy ++ (if open_ && p.atomicCmd.any fun c => !c.dep then [.atomic] else [])

/-- The commands that may move next: the one to be resent after MFC_CNTL[R], if it may (R1640). -/
def Spe.movable (p : Spe) : List MfcSel :=
  match p.resend with
  | none => p.mayMove
  | some o =>
    match p.mayMove.find? fun x => (p.commandOf x).any fun c => decide (c.order = o) with
    | some x => [x]
    | none => p.mayMove

end Sys2Proof.Machine
end

