-- ==== Sys2Proof/Machine/MfcCommands.lean ====
section
/-! DEFINITION. The meanings of the MFC commands: one step of the command that the moving MFC has selected
(49_mfc_commands.md sections 4 to 6). The class identifiers are the operands; only the replacement class reaches the
translation (R1638, R1694). The order among commands (fence, barrier) is in the choice of the command, `blocks` (R1692). -/

namespace Sys2Proof.Machine

/-- `put`, R1646. -/
def execMfcPut (_tclass rclass : BitVec 8) (s : State) : Out State := transfer s .both true false (rclassNo rclass)

/-- `putb`, R1646, R1648. -/
def execMfcPutb (_tclass rclass : BitVec 8) (s : State) : Out State := transfer s .both true false (rclassNo rclass)

/-- `putf`, R1646, R1648. -/
def execMfcPutf (_tclass rclass : BitVec 8) (s : State) : Out State := transfer s .both true false (rclassNo rclass)

/-- `putl`, R1670. -/
def execMfcPutl (_tclass rclass : BitVec 8) (s : State) : Out State := listCmd s true (rclassNo rclass)

/-- `putlb`, R1670, R1648. -/
def execMfcPutlb (_tclass rclass : BitVec 8) (s : State) : Out State := listCmd s true (rclassNo rclass)

/-- `putlf`, R1670, R1648. -/
def execMfcPutlf (_tclass rclass : BitVec 8) (s : State) : Out State := listCmd s true (rclassNo rclass)

/-- `puts`, R1646, R1650. -/
def execMfcPuts (_tclass rclass : BitVec 8) (s : State) : Out State := transfer s .proxyOnly true true (rclassNo rclass)

/-- `putbs`, R1646, R1648, R1650. -/
def execMfcPutbs (_tclass rclass : BitVec 8) (s : State) : Out State := transfer s .proxyOnly true true (rclassNo rclass)

/-- `putfs`, R1646, R1648, R1650. -/
def execMfcPutfs (_tclass rclass : BitVec 8) (s : State) : Out State := transfer s .proxyOnly true true (rclassNo rclass)

/-- `putr`, R1649. -/
def execMfcPutr (_tclass rclass : BitVec 8) (s : State) : Out State := transfer s .both true false (rclassNo rclass)

/-- `putrb`, R1649, R1648. -/
def execMfcPutrb (_tclass rclass : BitVec 8) (s : State) : Out State := transfer s .both true false (rclassNo rclass)

/-- `putrf`, R1649, R1648. -/
def execMfcPutrf (_tclass rclass : BitVec 8) (s : State) : Out State := transfer s .both true false (rclassNo rclass)

/-- `putrl`, R1649, R1670. -/
def execMfcPutrl (_tclass rclass : BitVec 8) (s : State) : Out State := listCmd s true (rclassNo rclass)

/-- `putrlb`, R1649, R1670, R1648. -/
def execMfcPutrlb (_tclass rclass : BitVec 8) (s : State) : Out State := listCmd s true (rclassNo rclass)

/-- `putrlf`, R1649, R1670, R1648. -/
def execMfcPutrlf (_tclass rclass : BitVec 8) (s : State) : Out State := listCmd s true (rclassNo rclass)

/-- `get`, R1645. -/
def execMfcGet (_tclass rclass : BitVec 8) (s : State) : Out State := transfer s .both false false (rclassNo rclass)

/-- `getb`, R1645, R1648. -/
def execMfcGetb (_tclass rclass : BitVec 8) (s : State) : Out State := transfer s .both false false (rclassNo rclass)

/-- `getf`, R1645, R1648. -/
def execMfcGetf (_tclass rclass : BitVec 8) (s : State) : Out State := transfer s .both false false (rclassNo rclass)

/-- `getl`, R1670. -/
def execMfcGetl (_tclass rclass : BitVec 8) (s : State) : Out State := listCmd s false (rclassNo rclass)

/-- `getlb`, R1670, R1648. -/
def execMfcGetlb (_tclass rclass : BitVec 8) (s : State) : Out State := listCmd s false (rclassNo rclass)

/-- `getlf`, R1670, R1648. -/
def execMfcGetlf (_tclass rclass : BitVec 8) (s : State) : Out State := listCmd s false (rclassNo rclass)

/-- `gets`, R1645, R1650. -/
def execMfcGets (_tclass rclass : BitVec 8) (s : State) : Out State := transfer s .proxyOnly false true (rclassNo rclass)

/-- `getbs`, R1645, R1648, R1650. -/
def execMfcGetbs (_tclass rclass : BitVec 8) (s : State) : Out State := transfer s .proxyOnly false true (rclassNo rclass)

/-- `getfs`, R1645, R1648, R1650. -/
def execMfcGetfs (_tclass rclass : BitVec 8) (s : State) : Out State := transfer s .proxyOnly false true (rclassNo rclass)

/-- `sdcrt`, R1657. -/
def execMfcSdcrt (_tclass _rclass : BitVec 8) (s : State) : Out State := hintCmd s

/-- `sdcrtst`, R1657. -/
def execMfcSdcrtst (_tclass _rclass : BitVec 8) (s : State) : Out State := hintCmd s

/-- `sdcrz`, R1657. -/
def execMfcSdcrz (_tclass rclass : BitVec 8) (s : State) : Out State := clearLines s (rclassNo rclass)

/-- `sdcrst`, R1657. -/
def execMfcSdcrst (_tclass _rclass : BitVec 8) (s : State) : Out State := hintCmd s

/-- `sdcrf`, R1657. -/
def execMfcSdcrf (_tclass _rclass : BitVec 8) (s : State) : Out State := hintCmd s

/-- `sndsig`, R1655. -/
def execMfcSndsig (_tclass rclass : BitVec 8) (s : State) : Out State := signalCmd s (rclassNo rclass)

/-- `sndsigb`, R1656. -/
def execMfcSndsigb (_tclass rclass : BitVec 8) (s : State) : Out State := signalCmd s (rclassNo rclass)

/-- `sndsigf`, R1656. -/
def execMfcSndsigf (_tclass rclass : BitVec 8) (s : State) : Out State := signalCmd s (rclassNo rclass)

/-- `putlluc`, R1662. -/
def execMfcPutlluc (_tclass rclass : BitVec 8) (s : State) : Out State := putLine s (rclassNo rclass)

/-- `putllc`, R1661. -/
def execMfcPutllc (_tclass rclass : BitVec 8) (s : State) : Out State := putLineConditional s (rclassNo rclass)

/-- `putqlluc`, R1663. -/
def execMfcPutqlluc (_tclass rclass : BitVec 8) (s : State) : Out State := putLineQueued s (rclassNo rclass)

/-- `barrier`, R1691. -/
def execMfcBarrier (_tclass _rclass : BitVec 8) (s : State) : Out State := syncCmd s

/-- `mfceieio`, R1691. -/
def execMfcMfceieio (_tclass _rclass : BitVec 8) (s : State) : Out State := syncCmd s

/-- `mfcsync`, R1691. -/
def execMfcMfcsync (_tclass _rclass : BitVec 8) (s : State) : Out State := syncCmd s

/-- `getllar`, R1660. -/
def execMfcGetllar (_tclass rclass : BitVec 8) (s : State) : Out State := getLine s (rclassNo rclass)

end Sys2Proof.Machine
end

