-- ==== Sys2Proof/Machine/PpeBranch.lean ====
section
/-! DEFINITION. Branch, condition-register and trap instructions of the PPE (40_ppe_branch.md). -/

namespace Sys2Proof.Machine

/-! ## Shapes -/

/-- CTR counted down when BO[2] = 0. -/
def Thread.countDown (th : Thread) (bo : BitVec 5) : Thread := if ibit bo 2 then th else { th with ctr := th.ctr - 1 }
/-- `ctr_ok`, of the counted CTR. -/
def Thread.ctrOk (th : Thread) (bo : BitVec 5) : Bool := ibit bo 2 || (decide (th.ctr.toNat % 2^th.width ≠ 0) != ibit bo 3)
/-- `cond_ok`. -/
def Thread.condOk (th : Thread) (bo bi : BitVec 5) : Bool := ibit bo 0 || (th.crBit bi == ibit bo 1)
/-- Go to `a` if the branch is taken, on to the next instruction if not; LR takes pc + 4 when LK = 1. -/
def Thread.jump (th : Thread) (taken : Bool) (a : DWord) (lk : Bool) : Thread :=
  { th with pc := if taken then th.target a else th.advance.pc, lr := if lk then th.pc + 4 else th.lr }

/-- A condition-register logical instruction. -/
def crLogic (f : Bool → Bool → Bool) (bt ba bb : BitVec 5) (th : Thread) : Thread :=
  th.setCrBit bt (f (th.crBit ba) (th.crBit bb))

/-- `trap_cond` of section 3. -/
def trapCond (a b : DWord) (t : BitVec 5) : Bool :=
  (a.slt b && ibit t 0) || (b.slt a && ibit t 1) || (a == b && ibit t 2) || (a.ult b && ibit t 3) || (b.ult a && ibit t 4)
/-- A trap instruction. -/
def trapIf (s : State) (c : Bool) : Out State := if c then s.trapInt else ppeNext s id
/-- The low word of a register, sign-extended. -/
def Thread.sword (th : Thread) (r : BitVec 5) : DWord := (lowWord (th.getGpr r)).signExtend 64

/-! ## Branches -/

/-- `b`, R600. -/
def execPpeB (li : BitVec 24) (aa lk : Bool) (s : State) : Out State :=
  .next (s.modThr fun th => th.jump true ((if aa then 0 else th.pc) + (li ++ 0#2).signExtend 64) lk)

/-- `bc`, R601. -/
def execPpeBc (bo bi : BitVec 5) (bd : BitVec 14) (aa lk : Bool) (s : State) : Out State :=
  .next (s.modThr fun th =>
    let th := th.countDown bo
    th.jump (th.ctrOk bo && th.condOk bo bi) ((if aa then 0 else th.pc) + (bd ++ 0#2).signExtend 64) lk)

/-- `bclr`, R602. BH is a hint. -/
def execPpeBclr (bo bi : BitVec 5) (bh : BitVec 2) (lk : Bool) (s : State) : Out State :=
  let _ := bh
  .next (s.modThr fun th =>
    let th := th.countDown bo
    th.jump (th.ctrOk bo && th.condOk bo bi) th.lr lk)

/-- `bcctr`, R603. BH is a hint. -/
def execPpeBcctr (bo bi : BitVec 5) (bh : BitVec 2) (lk : Bool) (s : State) : Out State :=
  let _ := bh
  if !ibit bo 2 then s.illegal else .next (s.modThr fun th => th.jump (th.condOk bo bi) th.ctr lk)

/-! ## Condition-register instructions -/

/-- `crand`, R610. -/
def execPpeCrand (bt ba bb : BitVec 5) (s : State) : Out State :=
  ppeNext s fun th => crLogic (fun a b => a && b) bt ba bb th

/-- `cror`, R611. -/
def execPpeCror (bt ba bb : BitVec 5) (s : State) : Out State :=
  ppeNext s fun th => crLogic (fun a b => a || b) bt ba bb th

/-- `crxor`, R612. -/
def execPpeCrxor (bt ba bb : BitVec 5) (s : State) : Out State :=
  ppeNext s fun th => crLogic (fun a b => a ^^ b) bt ba bb th

/-- `crnand`, R613. -/
def execPpeCrnand (bt ba bb : BitVec 5) (s : State) : Out State :=
  ppeNext s fun th => crLogic (fun a b => !(a && b)) bt ba bb th

/-- `crnor`, R614. -/
def execPpeCrnor (bt ba bb : BitVec 5) (s : State) : Out State :=
  ppeNext s fun th => crLogic (fun a b => !(a || b)) bt ba bb th

/-- `creqv`, R615. -/
def execPpeCreqv (bt ba bb : BitVec 5) (s : State) : Out State :=
  ppeNext s fun th => crLogic (fun a b => !(a ^^ b)) bt ba bb th

/-- `crandc`, R616. -/
def execPpeCrandc (bt ba bb : BitVec 5) (s : State) : Out State :=
  ppeNext s fun th => crLogic (fun a b => a && !b) bt ba bb th

/-- `crorc`, R617. -/
def execPpeCrorc (bt ba bb : BitVec 5) (s : State) : Out State :=
  ppeNext s fun th => crLogic (fun a b => a || !b) bt ba bb th

/-- `mcrf`, R618. -/
def execPpeMcrf (bf bfa : BitVec 3) (s : State) : Out State :=
  ppeNext s fun th => th.setCrField bf (th.crField bfa)

/-! ## Traps -/

/-- `tw`, R620. -/
def execPpeTw (trapOn ra rb : BitVec 5) (s : State) : Out State :=
  trapIf s (trapCond (s.thr.sword ra) (s.thr.sword rb) trapOn)

/-- `twi`, R621. -/
def execPpeTwi (trapOn ra : BitVec 5) (si : BitVec 16) (s : State) : Out State :=
  trapIf s (trapCond (s.thr.sword ra) (si64 si) trapOn)

/-- `td`, R622. -/
def execPpeTd (trapOn ra rb : BitVec 5) (s : State) : Out State :=
  trapIf s (trapCond (s.thr.getGpr ra) (s.thr.getGpr rb) trapOn)

/-- `tdi`, R623. -/
def execPpeTdi (trapOn ra : BitVec 5) (si : BitVec 16) (s : State) : Out State :=
  trapIf s (trapCond (s.thr.getGpr ra) (si64 si) trapOn)

end Sys2Proof.Machine
end

