-- ==== Sys2Proof/Machine/SoftFloat.lean ====
section
/-! DEFINITION. Binary floating point as exact arithmetic followed by one rounding. A finite non-zero value is
(sign, m, e) with value m * 2^e; a quotient or root that is not exact carries a sticky low bit below the precision that any
rounding looks at, so that it rounds as the exact value does. Used by 43_ppe_float.md, 45_ppe_vmx_2.md, 48_spu_float.md. -/

namespace Sys2Proof.Machine

/-- A rounding direction (10_state R50, FPSCR[RN]). -/
inductive RMode where
  | nearest
  | zero
  | up
  | down
deriving DecidableEq, Repr

/-- The direction a two-bit field names. -/
def rmodeOf (b : BitVec 2) : RMode :=
  if b = 0 then .nearest else if b = 1 then .zero else if b = 2 then .up else .down

/-- An IEEE format: exponent bits and fraction bits. -/
structure Fmt where
  eb : Nat
  fb : Nat
deriving DecidableEq, Repr

/-- binary64. -/
def f64 : Fmt := ⟨11, 52⟩
/-- binary32. -/
def f32 : Fmt := ⟨8, 23⟩

/-- The exponent bias. -/
def Fmt.bias (f : Fmt) : Int := 2^(f.eb - 1) - 1
/-- The exponent of the least bit of a denormal. -/
def Fmt.qmin (f : Fmt) : Int := 1 - f.bias - f.fb
/-- The image of +infinity. -/
def Fmt.infMag (f : Fmt) : Nat := (2^f.eb - 1) * 2^f.fb
/-- The sign bit's weight. -/
def Fmt.signBit (f : Fmt) : Nat := 2^(f.eb + f.fb)

/-- What an image stands for. -/
inductive Num where
  | nan
  | inf (neg : Bool)
  | zero (neg : Bool)
  | fin (neg : Bool) (m : Nat) (e : Int)
deriving DecidableEq, Repr

/-- Read an image. -/
def unpack (f : Fmt) (w : Nat) : Num :=
  let neg := w / f.signBit % 2 == 1
  let x := w / 2^f.fb % 2^f.eb
  let fr := w % 2^f.fb
  if x = 2^f.eb - 1 then (if fr = 0 then .inf neg else .nan)
  else if x = 0 then (if fr = 0 then .zero neg else .fin neg fr f.qmin)
  else .fin neg (2^f.fb + fr) (x + f.qmin - 1)

/-- Whether an image is a NaN. -/
def isNan (f : Fmt) (w : Nat) : Bool := decide (f.infMag < w % f.signBit)
/-- Whether a NaN image is signalling: its leading fraction bit is 0 (43_ppe_float R842). -/
def isSnan (f : Fmt) (w : Nat) : Bool := isNan f w && decide (w / 2^(f.fb - 1) % 2 = 0)
/-- Whether an image is a denormal. -/
def isDenorm (f : Fmt) (w : Nat) : Bool := decide (w % f.signBit < 2^f.fb) && decide (w % f.signBit ≠ 0)
/-- The quieted NaN: the leading fraction bit set. -/
def quiet (f : Fmt) (w : Nat) : Nat := if w / 2^(f.fb - 1) % 2 = 0 then w + 2^(f.fb - 1) else w

/-- The exponent of the leading bit of m * 2^e. -/
def topExp (m : Nat) (e : Int) : Int := e + m.log2

/-- A value rounded to a multiple of 2^q. -/
structure Rounded where
  m : Nat
  q : Int
  inexact : Bool
  /-- The magnitude was increased. -/
  up : Bool
deriving DecidableEq, Repr

/-- Round m * 2^e to a multiple of 2^q. -/
def roundAt (mode : RMode) (neg : Bool) (m : Nat) (e q : Int) : Rounded :=
  if q ≤ e then ⟨m * 2^(e - q).toNat, q, false, false⟩
  else
    let d := (q - e).toNat
    let m0 := m / 2^d
    let r := m % 2^d
    let up := match mode with
      | .nearest => decide (2^d < 2 * r) || (decide (2 * r = 2^d) && decide (m0 % 2 = 1))
      | .zero => false
      | .up => decide (r ≠ 0) && !neg
      | .down => decide (r ≠ 0) && neg
    ⟨m0 + up.toNat, q, decide (r ≠ 0), up⟩

/-- The magnitude image of r.m * 2^r.q, for a value rounded to the format's precision or on its denormal grid. -/
def Fmt.packMag (f : Fmt) (r : Rounded) : Nat := (r.q - f.qmin).toNat * 2^f.fb + r.m

/-- An image from its sign and magnitude. -/
def Fmt.image (f : Fmt) (neg : Bool) (mag : Nat) : Nat := neg.toNat * f.signBit + mag

/-- Round to the format's precision with an unbounded exponent. -/
def roundUnbounded (f : Fmt) (mode : RMode) (neg : Bool) (m : Nat) (e : Int) : Rounded :=
  roundAt mode neg m e (topExp m e - f.fb)

/-- Round to the format, on the denormal grid where the value is small. -/
def roundFmt (f : Fmt) (mode : RMode) (neg : Bool) (m : Nat) (e : Int) : Rounded :=
  roundAt mode neg m e (max (topExp m e - f.fb) f.qmin)

/-- Below the smallest normal of the format, before rounding (43_ppe_float R843). -/
def Fmt.tiny (f : Fmt) (m : Nat) (e : Int) : Bool := decide (topExp m e < 1 - f.bias)

/-- The magnitude delivered on overflow. -/
def Fmt.overflowMag (f : Fmt) (mode : RMode) (neg : Bool) : Nat :=
  match mode with
  | .nearest => f.infMag
  | .zero => f.infMag - 1
  | .up => if neg then f.infMag - 1 else f.infMag
  | .down => if neg then f.infMag else f.infMag - 1

/-- A rounded result with the IEEE default handling of overflow and underflow. -/
structure IeeeResult where
  image : Nat
  overflow : Bool
  /-- Tiny and inexact. -/
  underflow : Bool
  inexact : Bool
  /-- The delivered magnitude exceeds the exact one. -/
  up : Bool
deriving DecidableEq, Repr

/-- Round a non-zero value to the format with default (non-trapping) results. -/
def ieeeRound (f : Fmt) (mode : RMode) (neg : Bool) (m : Nat) (e : Int) : IeeeResult :=
  let r := roundFmt f mode neg m e
  let mag := f.packMag r
  if f.infMag ≤ mag then
    let o := f.overflowMag mode neg
    ⟨f.image neg o, true, false, true, decide (o = f.infMag)⟩
  else ⟨f.image neg mag, false, f.tiny m e && r.inexact, r.inexact, r.up⟩

/-! ## Exact operations -/

/-- The exact result of an operation whose operands are not NaN, or that it is invalid. -/
inductive Calc where
  | invalid
  | inf (neg : Bool)
  /-- An exact zero. -/
  | zero (neg : Bool)
  | fin (neg : Bool) (m : Nat) (e : Int)
deriving DecidableEq, Repr

/-- The sign of a zero sum of operands of opposite sign (R843 step 3). -/
def zeroSumSign (mode : RMode) : Bool :=
  match mode with
  | .nearest => false
  | .zero => false
  | .up => false
  | .down => true

/-- Signed integer of a sign and a magnitude. -/
def signedNat (neg : Bool) (m : Nat) : Int := if neg then -(m : Int) else m

/-- The exact sum of two finite non-zero values. -/
def addFin (mode : RMode) (n1 : Bool) (m1 : Nat) (e1 : Int) (n2 : Bool) (m2 : Nat) (e2 : Int) : Calc :=
  let e := min e1 e2
  let t := signedNat n1 (m1 * 2^(e1 - e).toNat) + signedNat n2 (m2 * 2^(e2 - e).toNat)
  if t = 0 then .zero (zeroSumSign mode) else .fin (decide (t < 0)) t.natAbs e

/-- a + b. -/
def addNum (mode : RMode) : Num → Num → Calc
  | .nan, _ => .invalid
  | _, .nan => .invalid
  | .inf a, .inf b => if a = b then .inf a else .invalid
  | .inf a, _ => .inf a
  | _, .inf b => .inf b
  | .zero a, .zero b => .zero (if a = b then a else zeroSumSign mode)
  | .zero _, .fin n m e => .fin n m e
  | .fin n m e, .zero _ => .fin n m e
  | .fin n1 m1 e1, .fin n2 m2 e2 => addFin mode n1 m1 e1 n2 m2 e2

/-- a * b. -/
def mulNum : Num → Num → Calc
  | .nan, _ => .invalid
  | _, .nan => .invalid
  | .inf _, .zero _ => .invalid
  | .zero _, .inf _ => .invalid
  | .inf a, .inf b => .inf (a != b)
  | .inf a, .fin b _ _ => .inf (a != b)
  | .fin a _ _, .inf b => .inf (a != b)
  | .zero a, .zero b => .zero (a != b)
  | .zero a, .fin b _ _ => .zero (a != b)
  | .fin a _ _, .zero b => .zero (a != b)
  | .fin a m1 e1, .fin b m2 e2 => .fin (a != b) (m1 * m2) (e1 + e2)

/-- The value as an operand again. -/
def Calc.toNum : Calc → Num
  | .invalid => .nan
  | .inf n => .inf n
  | .zero n => .zero n
  | .fin n m e => .fin n m e

/-- The negated operand. -/
def Num.neg : Num → Num
  | .nan => .nan
  | .inf n => .inf !n
  | .zero n => .zero !n
  | .fin n m e => .fin (!n) m e

/-- a * c + b, exact. -/
def fmaNum (mode : RMode) (a c b : Num) : Calc :=
  match mulNum a c with
  | .invalid => .invalid
  | p => addNum mode p.toNum b

/-- m1 / m2 * 2^(e1 - e2) with 128 quotient bits or more and a sticky bit. -/
def divFin (neg : Bool) (m1 : Nat) (e1 : Int) (m2 : Nat) (e2 : Int) : Calc :=
  let k := 128 + m2.log2
  let q := m1 * 2^k / m2
  let r := m1 * 2^k % m2
  .fin neg (2 * q + (if r = 0 then 0 else 1)) (e1 - e2 - k - 1)

/-- a / b; a finite non-zero value over zero is an infinity (the caller records the zero divide). -/
def divNum : Num → Num → Calc
  | .nan, _ => .invalid
  | _, .nan => .invalid
  | .inf _, .inf _ => .invalid
  | .zero _, .zero _ => .invalid
  | .inf a, .zero b => .inf (a != b)
  | .inf a, .fin b _ _ => .inf (a != b)
  | .zero a, .inf b => .zero (a != b)
  | .zero a, .fin b _ _ => .zero (a != b)
  | .fin a _ _, .inf b => .zero (a != b)
  | .fin a _ _, .zero b => .inf (a != b)
  | .fin a m1 e1, .fin b m2 e2 => divFin (a != b) m1 e1 m2 e2

/-- The integer square root, one bit at a time from bit `k - 1` down, starting from `r`. -/
def isqrtFrom (n : Nat) : Nat → Nat → Nat
  | 0, r => r
  | k + 1, r => if (r + 2^k) * (r + 2^k) ≤ n then isqrtFrom n k (r + 2^k) else isqrtFrom n k r

/-- The integer square root. -/
def isqrt (n : Nat) : Nat := isqrtFrom n (n.log2 / 2 + 1) 0

/-- sqrt(m * 2^e) with at least 64 bits and a sticky bit. -/
def sqrtFin (m : Nat) (e : Int) : Calc :=
  let e' := if e % 2 = 0 then e else e - 1
  let m' := (if e % 2 = 0 then m else 2 * m) * 2^256
  let r := isqrt m'
  .fin false (2 * r + (if r * r = m' then 0 else 1)) ((e' - 256) / 2 - 1)

/-- sqrt(b). -/
def sqrtNum : Num → Calc
  | .nan => .invalid
  | .inf n => if n then .invalid else .inf false
  | .zero n => .zero n
  | .fin n m e => if n then .invalid else sqrtFin m e

/-- The comparison of two operands that are not NaN: the sign of a - b. -/
def cmpNum (a b : Num) : Ordering :=
  let key : Num → Int × Nat × Int := fun x => match x with
    | .nan => (0, 0, 0)
    | .inf n => (if n then -2 else 2, 0, 0)
    | .zero _ => (0, 0, 0)
    | .fin n m e => (if n then -1 else 1, m, e)
  match key a, key b with
  | (ca, ma, ea), (cb, mb, eb) =>
    if ca ≠ cb then compare ca cb
    else
      let e := min ea eb
      compare (signedNat (decide (ca < 0)) (ma * 2^(ea - e).toNat)) (signedNat (decide (cb < 0)) (mb * 2^(eb - e).toNat))

/-- A value rounded to an integer. -/
def roundInt (mode : RMode) (neg : Bool) (m : Nat) (e : Int) : Rounded := roundAt mode neg m e 0

/-- `a * 2^t ≤ b`. -/
def scaledLe (a : Nat) (t : Int) (b : Nat) : Bool :=
  if 0 ≤ t then decide (a * 2^t.toNat ≤ b) else decide (a ≤ b * 2^(-t).toNat)

/-- `b ≤ a * 2^t`. -/
def scaledGe (a : Nat) (t : Int) (b : Nat) : Bool :=
  if 0 ≤ t then decide (b ≤ a * 2^t.toNat) else decide (b * 2^(-t).toNat ≤ a)

/-- |c * b - 1| ≤ 1 / d for magnitudes c = mc * 2^ec and b = mb * 2^eb. -/
def nearReciprocal (d mc : Nat) (ec : Int) (mb : Nat) (eb : Int) : Bool :=
  scaledLe (d * mc * mb) (ec + eb) (d + 1) && scaledGe (d * mc * mb) (ec + eb) (d - 1)

/-- |c * sqrt(b) - 1| ≤ 1 / d for positive c and b. -/
def nearRsqrt (d mc : Nat) (ec : Int) (mb : Nat) (eb : Int) : Bool :=
  scaledLe (d * d * mc * mc * mb) (2 * ec + eb) ((d + 1) * (d + 1)) &&
  scaledGe (d * d * mc * mc * mb) (2 * ec + eb) ((d - 1) * (d - 1))

/-- Fraction bits of log2 by repeated squaring of x in [2^320, 2^321): `k` more bits after `acc`. -/
def log2Bits : Nat → Nat → Nat → Nat
  | 0, _, acc => acc
  | k + 1, x, acc =>
    let y := x * x / 2^320
    if 2^321 ≤ y then log2Bits k (y / 2) (2 * acc + 1) else log2Bits k y (2 * acc)

/-- log2(m * 2^e) * 2^k, rounded down: exact for a power of two, else less than the true value, by less than two units. -/
def log2Scaled (k m : Nat) (e : Int) : Int :=
  let l := m.log2
  let x := if l ≤ 320 then m * 2^(320 - l) else m / 2^(l - 320)
  (e + l) * 2^k + log2Bits k x 0

/-- The fraction bits with which an estimate is compared with a logarithm. -/
def logBits : Nat := 192

end Sys2Proof.Machine
end

