-- ==== Sys2Proof/Machine/FloatFlags.lean ====
section
/-! DEFINITION. The FPSCR of a PPE thread (10_state R50) and the arithmetic template of 43_ppe_float.md R843. -/

namespace Sys2Proof.Machine

/-! ## FPSCR -/

/-- The defined bits: all but 20, which is reserved. Writes of it are ignored and it reads 0: PRESUMED (log 58). -/
def fpscrMask : Word := 0xFFFFF7FF
/-- The exception bits that make FX: OX, UX, ZX, XX and the VX* bits. -/
def fpExcMask : Word := 0x1FF80700
/-- The VX* bits. -/
def fpVxMask : Word := 0x01F80700
/-- VXSNAN, VXISI, VXIDI, VXZDZ, VXIMZ, VXVC, VXSQRT, VXCVI. -/
def vxSnan : Word := 0x01000000
def vxIsi : Word := 0x00800000
def vxIdi : Word := 0x00400000
def vxZdz : Word := 0x00200000
def vxImz : Word := 0x00100000
def vxVc : Word := 0x00080000
def vxSqrt : Word := 0x00000200
def vxCvi : Word := 0x00000100

/-- VX and FEX recomputed from the other bits (R843 step 4). -/
def fpSummary (f : Word) : Word :=
  let vx := decide (f &&& fpVxMask ≠ 0)
  let fex := (vx && ibit f 24) || (ibit f 3 && ibit f 25) || (ibit f 4 && ibit f 26) || (ibit f 5 && ibit f 27) ||
    (ibit f 6 && ibit f 28)
  setIbit (setIbit f 2 vx) 1 fex

/-- Exception bits raised by an instruction: sticky, and FX when one of them was 0. -/
def fpRaise (f bits : Word) : Word := fpSummary (if bits &&& ~~~f = 0 then f ||| bits else f ||| bits ||| 0x80000000)

/-- Set FR and FI. -/
def setFrFi (f : Word) (fr fi : Bool) : Word := setIbit (setIbit f 13 fr) 14 fi

/-- CR1 := FX, FEX, VX, OX (R841). -/
def Thread.recordCr1 (th : Thread) (rec : Bool) : Thread := if rec then th.setCrField 1 (ibm th.fpscr 0 4) else th

/-- FPSCR[RN], FPSCR[NI]. -/
def Thread.fpMode (th : Thread) : RMode := rmodeOf (ibm th.fpscr 30 2)
def Thread.fpNi (th : Thread) : Bool := ibit th.fpscr 29

/-- End a floating-point instruction that updated the thread by `f`: CR1 is copied, then an enabled exception is raised as a
precise program interrupt (R843 step 5), or the thread goes on. -/
def fpEnd (s : State) (f : Thread → Thread) : Out State :=
  let s := s.modThr f
  if ibit s.thr.fpscr 1 && s.thr.fpExcMode then s.fpEnabledInt else .next (s.modThr Thread.advance)

/-! ## Results -/

/-- What an arithmetic instruction delivers. -/
structure FpRes where
  /-- The exception bits it raises. -/
  exc : Word
  fr : Bool
  fi : Bool
  /-- The value and FPRF; none: suppressed. -/
  value : Option (DWord × BitVec 5)
  /-- The exception bits that it leaves undefined and that come out as 0. -/
  clear : Word := 0
deriving DecidableEq, Repr

/-- A result whose FR, FI and XX are any value (R845, R873, R874): the three bits as drawn. -/
def FpRes.drawn (r : FpRes) (bits : BitVec 3) : FpRes :=
  { r with
    fr := ibit bits 0, fi := ibit bits 1, exc := (r.exc &&& ~~~0x02000000#32) ||| (if ibit bits 2 then 0x02000000 else 0),
    clear := if ibit bits 2 then 0 else 0x02000000 }

/-- Write a result. -/
def FpRes.apply (r : FpRes) (frt : BitVec 5) (th : Thread) : Thread :=
  let f := fpRaise (setFrFi (th.fpscr &&& ~~~r.clear) r.fr r.fi) r.exc
  match r.value with
  | none => { th with fpscr := f }
  | some (v, c) => { th.setFpr frt v with fpscr := setIbm f 15 c }

/-- FPRF of a NaN, an infinity, a zero, and a finite value. -/
def classNan : BitVec 5 := 0b10001
def classInf (neg : Bool) : BitVec 5 := if neg then 0b01001 else 0b00101
def classZero (neg : Bool) : BitVec 5 := if neg then 0b10010 else 0b00010
def classFin (neg denorm : Bool) : BitVec 5 :=
  if denorm then (if neg then 0b11000 else 0b10100) else (if neg then 0b01000 else 0b00100)

/-- The class of a double image. -/
def classOf (v : DWord) : BitVec 5 :=
  match unpack f64 v.toNat with
  | .nan => classNan
  | .inf n => classInf n
  | .zero n => classZero n
  | .fin n _ _ => classFin n (isDenorm f64 v.toNat)

/-- The double image of m * 2^q, which double format holds. -/
def f64Of (neg : Bool) (m : Nat) (q : Int) : DWord :=
  BitVec.ofNat 64 (if m = 0 then f64.image neg 0 else f64.image neg (f64.packMag (roundFmt f64 .zero neg m q)))

/-- The NaN result: the first operand that is a NaN, quieted, or the default; single results lose the low 29 bits (R843). -/
def nanResult (single : Bool) (ops : List DWord) : DWord :=
  let v : DWord := match ops.find? fun w => isNan f64 w.toNat with
    | some w => w ||| 0x0008000000000000
    | none => 0x7FF8000000000000
  if single then v &&& ~~~0x1FFFFFFF#64 else v

/-- The invalid-operation path: `vx` are the VX* bits it sets. The result is suppressed if an exception is raised and VE = 1
(a quiet NaN raises none). -/
def nanPath (fpscr : Word) (single : Bool) (ops : List DWord) (vx : Word) : FpRes :=
  { exc := vx, fr := false, fi := false,
    value := if vx ≠ 0 ∧ ibit fpscr 24 then none else some (nanResult single ops, classNan) }

/-- The exponent adjustment of a trapped overflow or underflow (R843 step 3). -/
def trapShift (f : Fmt) : Int := if f = f64 then 1536 else 192

/-- The magnitude with its least significand bit in the place that the precision gives it. -/
def Rounded.normalize (f : Fmt) (r : Rounded) : Rounded := if r.m = 2^(f.fb + 1) then { r with m := 2^f.fb, q := r.q + 1 } else r

/-- Whether the format holds m * 2^q; with `wide`, whatever the exponent. -/
def Fmt.holds (f : Fmt) (wide : Bool) (m : Nat) (q : Int) : Bool :=
  !(if wide then roundUnbounded f .zero false m q else roundFmt f .zero false m q).inexact

/-- The `k`-th of the values within `d` units in the last place of a rounded value, in steps of half a unit, since below a power
of two the values are half as far apart (R845): its magnitude, and whether its sign is the other one. A step at which the format
has no value stands for the rounded value itself. -/
def nearby (f : Fmt) (wide : Bool) (d k : Nat) (r : Rounded) : Rounded × Bool :=
  let r := r.normalize f
  let i : Int := 2 * r.m + (k % (4 * d + 1) : Nat) - 2 * d
  let x := if wide then roundUnbounded f .zero false i.natAbs (r.q - 1) else roundFmt f .zero false i.natAbs (r.q - 1)
  if f.holds wide i.natAbs (r.q - 1) then ({ r with m := x.m, q := x.q }, decide (i < 0)) else (r, false)

/-- The value that is delivered for a rounded one: itself, or with `ni` (the largest distance, a drawn number) one near it. -/
def moved (f : Fmt) (wide : Bool) (ni : Option (Nat × Nat)) (r : Rounded) : Rounded × Bool :=
  match ni with
  | none => (r, false)
  | some (d, k) => nearby f wide d k r

/-- A rounded value as a result: an infinity from the overflow threshold on. -/
def rounded (f : Fmt) (neg : Bool) (w : Rounded) : DWord × BitVec 5 :=
  if f.infMag ≤ f.packMag w then (BitVec.ofNat 64 (f64.image neg f64.infMag), classInf neg)
  else (f64Of neg w.m w.q, if w.m = 0 then classZero neg else classFin neg (f.tiny w.m w.q))

/-- The value that IEEE arithmetic delivers on overflow: an infinity as the power of two after the largest number, or that
number. -/
def overflowed (f : Fmt) (inf : Bool) : Rounded :=
  if inf then ⟨2^f.fb, f.bias - f.fb + 1, true, true⟩ else ⟨2^(f.fb + 1) - 1, f.bias - f.fb, true, false⟩

/-- Round a finite non-zero value (R843 step 3) and flip the sign if `flip`; with `ni` the value delivered is one near the rounded
one, trapped or not (R845). -/
def deliverFin (f : Fmt) (fpscr : Word) (flip : Bool) (ni : Option (Nat × Nat)) (neg : Bool) (m : Nat) (e : Int) : FpRes :=
  let mode := rmodeOf (ibm fpscr 30 2)
  let n := neg != flip
  let r := roundFmt f mode neg m e
  let u := roundUnbounded f mode neg m e
  /- A trapped overflow or underflow: the exponent is adjusted by `shift`. -/
  let trapped (exc : Word) (shift : Int) : FpRes :=
    let w := moved f true ni u
    { exc := exc ||| (if u.inexact then 0x02000000 else 0), fr := u.up, fi := u.inexact,
      value := some (f64Of (n != w.2) w.1.m (w.1.q + shift), classFin (n != w.2) false) }
  if f.infMag ≤ f.packMag r then
    if ibit fpscr 25 then trapped 0x10000000 (-trapShift f)
    else
      let inf := decide (f.overflowMag mode neg = f.infMag)
      let w := moved f false ni (overflowed f inf)
      { exc := 0x12000000, fr := inf, fi := true, value := some (rounded f (n != w.2) w.1) }
  else if f.tiny m e && ibit fpscr 26 then trapped 0x08000000 (trapShift f)
  else
    let w := moved f false ni r
    { exc := (if f.tiny m e && r.inexact then 0x08000000 else 0) ||| (if r.inexact then 0x02000000 else 0),
      fr := r.up, fi := r.inexact, value := some (rounded f (n != w.2) w.1) }

/-- The zero of a format as a rounded value. -/
def Fmt.zero (f : Fmt) : Rounded := ⟨0, f.qmin, false, false⟩

/-- Deliver a result. With `ni` (R845) a zero is moved in units of the smallest denormal number; an infinite result of infinite
operands is delivered as it is, since the specification does not say what a unit in its last place is: DESIGN CHOICE (log 40). -/
def deliver (f : Fmt) (fpscr : Word) (flip : Bool) (ni : Option (Nat × Nat)) : Calc → FpRes
  | .invalid => nanPath fpscr (f = f32) [] 0
  | .inf n =>
    { exc := 0, fr := false, fi := false,
      value := some (BitVec.ofNat 64 (f64.image (n != flip) f64.infMag), classInf (n != flip)) }
  | .zero n =>
    let w := moved f false ni f.zero
    { exc := 0, fr := false, fi := false, value := some (rounded f ((n != flip) != w.2) w.1) }
  | .fin n m e => deliverFin f fpscr flip ni n m e

/-- VXSNAN if an operand is a signalling NaN. -/
def snanBits (ops : List DWord) : Word := if ops.any fun w => isSnan f64 w.toNat then vxSnan else 0

/-- The template R843 on the operands `ops` in the order FRA, FRB, FRC; `vx` are the VX* bits that the operation adds. -/
def fpResult (f : Fmt) (fpscr : Word) (flip : Bool) (ni : Option (Nat × Nat)) (ops : List DWord) (vx : Word) (c : Calc) :
    FpRes :=
  let vx := snanBits ops ||| vx
  if vx ≠ 0 ∨ ops.any (fun w => isNan f64 w.toNat) then nanPath fpscr (f = f32) ops vx else deliver f fpscr flip ni c

/-- Whether single format holds the value of a double image (R844). -/
def fitsSingle (w : DWord) : Bool :=
  match unpack f64 w.toNat with
  | .nan => decide (ibm w 35 29 = 0)
  | .inf _ => true
  | .zero _ => true
  | .fin n m e => !(roundFmt f32 .zero n m e).inexact && decide (f32.packMag (roundFmt f32 .zero n m e) < f32.infMag)

/-- The undefined outcome of a single-precision instruction on operands that single format does not hold (R844, U50): FRT, the
status bits and, with Rc = 1, CR1 are any value. -/
def fpUndefined (s : State) (frt : BitVec 5) (rec : Bool) : Out State :=
  let v : DWord := s.free 64 0
  let st : Word := s.free 32 1
  let cr : BitVec 4 := s.free 4 2
  fpEnd (s.drew 3) fun th =>
    let th := { th.setFpr frt v with fpscr := fpSummary ((th.fpscr &&& 0xFF) ||| (st &&& 0xFFFFF700)) }
    if rec then th.setCrField 1 cr else th

/-- An arithmetic instruction: floating-point unavailable first (R840), then the operands, then the result. -/
def fpArith (s : State) (f : Fmt) (frt : BitVec 5) (rec : Bool) (ops : List DWord) (r : Word → FpRes) : Out State :=
  fpGuard s (
    if f = f32 ∧ ops.any (fun w => !fitsSingle w) then fpUndefined s frt rec
    else fpEnd s fun th => ((r th.fpscr).apply frt th).recordCr1 rec)

/-- A divide or square root: with NI = 1 the result is drawn near the rounded one and FR, FI and XX are any value, after an invalid
operation or a zero divide too (R845). -/
def fpArithNi (s : State) (f : Fmt) (frt : BitVec 5) (rec : Bool) (ops : List DWord)
    (r : Word → Option (Nat × Nat) → FpRes) : Out State :=
  if s.thr.fpNi then
    let d := match s.thr.fpMode with
      | .nearest => 1
      | .zero => 1
      | .up => 2
      | .down => 2
    let k := (s.free 8 0).toNat
    let bits : BitVec 3 := s.free 3 1
    fpArith (s.drew 2) f frt rec ops fun fpscr => (r fpscr (some (d, k))).drawn bits
  else fpArith s f frt rec ops fun fpscr => r fpscr none

/-! ## The operations -/

/-- The operand of an image. -/
def num (w : DWord) : Num := unpack f64 w.toNat

/-- a + b, or a - b with `sub`. -/
def addRes (f : Fmt) (sub : Bool) (a b : DWord) (fpscr : Word) : FpRes :=
  let mode := rmodeOf (ibm fpscr 30 2)
  let y := if sub then (num b).neg else num b
  let vx := match num a, y with
    | .inf p, .inf q => if p = q then 0 else vxIsi
    | _, _ => 0
  fpResult f fpscr false none [a, b] vx (addNum mode (num a) y)

/-- VXIMZ of a product. -/
def vxMul (a c : Num) : Word :=
  match a, c with
  | .inf _, .zero _ => vxImz
  | .zero _, .inf _ => vxImz
  | _, _ => 0

/-- a * c. -/
def mulRes (f : Fmt) (a c : DWord) (fpscr : Word) : FpRes :=
  fpResult f fpscr false none [a, c] (vxMul (num a) (num c)) (mulNum (num a) (num c))

/-- a / b. -/
def divRes (f : Fmt) (a b : DWord) (fpscr : Word) (ni : Option (Nat × Nat)) : FpRes :=
  let vx := match num a, num b with
    | .inf _, .inf _ => vxIdi
    | .zero _, .zero _ => vxZdz
    | _, _ => 0
  let zx := match num a, num b with
    | .fin _ _ _, .zero _ => true
    | _, _ => false
  let r := fpResult f fpscr false ni [a, b] vx (divNum (num a) (num b))
  if zx then { r with exc := 0x04000000, value := if ibit fpscr 27 then none else r.value } else r

/-- sqrt(b). -/
def sqrtRes (f : Fmt) (b : DWord) (fpscr : Word) (ni : Option (Nat × Nat)) : FpRes :=
  let vx := match num b with
    | .inf n => if n then vxSqrt else 0
    | .fin n _ _ => if n then vxSqrt else 0
    | _ => 0
  fpResult f fpscr false ni [b] vx (sqrtNum (num b))

/-- a * c + b, or a * c - b with `sub`; the rounded result is negated with `flip`. -/
def fmaRes (f : Fmt) (sub flip : Bool) (a b c : DWord) (fpscr : Word) : FpRes :=
  let mode := rmodeOf (ibm fpscr 30 2)
  let y := if sub then (num b).neg else num b
  let isi := match mulNum (num a) (num c), y with
    | .inf p, .inf q => if p = q then 0 else vxIsi
    | _, _ => 0
  fpResult f fpscr flip none [a, b, c] (vxMul (num a) (num c) ||| isi) (fmaNum mode (num a) (num c) y)

/-! ## Estimates (R873, R874) -/

/-- The outcome of an estimate of a finite non-zero operand: the drawn candidate if it is within the bound, else the rounded
exact value if that is, else (nothing representable is) the candidate as it is. -/
def estimate (cand rounded : DWord) (within : DWord → Bool) : DWord :=
  if within cand then cand else if within rounded then rounded else cand

/-- Whether a double image is a finite value of the given sign whose magnitude `p` accepts. -/
def finWith (neg : Bool) (p : Nat → Int → Bool) (w : DWord) : Bool :=
  match num w with
  | .fin n m e => (n == neg) && p m e
  | _ => false

/-- An estimate delivered: FR, FI and XX are any value (log 14). It raises neither OX nor UX, also where the reciprocal is outside the
normal numbers of the format, of which the specification says nothing: DESIGN CHOICE (log 39). -/
def estimateRes (v : DWord) (cls : BitVec 5) (bits : BitVec 3) : FpRes :=
  { exc := 0, fr := false, fi := false, value := some (v, cls) : FpRes }.drawn bits

/-- A zero operand of an estimate: an infinity of its sign, with ZX. -/
def zeroDivideRes (fpscr : Word) (neg : Bool) : FpRes :=
  { exc := 0x04000000, fr := false, fi := false,
    value := if ibit fpscr 27 then none else some (BitVec.ofNat 64 (f64.image neg f64.infMag), classInf neg) }

/-! ## Conversion to integer (R881 to R884) -/

/-- The integer and the exception bits of a conversion to `n` bits: none of the bits FR and FI with VXCVI. -/
def toIntRes (n : Nat) (mode : RMode) (b : DWord) : BitVec n × Word × Bool × Bool :=
  let minI : BitVec n := BitVec.ofInt n (-2^(n - 1))
  match num b with
  | .nan => (minI, vxCvi ||| (if isSnan f64 b.toNat then vxSnan else 0), false, false)
  | .inf neg => (if neg then minI else ~~~minI, vxCvi, false, false)
  | .zero _ => (0, 0, false, false)
  | .fin neg m e =>
    let r := roundInt mode neg m e
    let i := signedNat neg r.m
    if i < -2^(n - 1) then (minI, vxCvi, false, false)
    else if 2^(n - 1) ≤ i then (~~~minI, vxCvi, false, false)
    else (BitVec.ofInt n i, if r.inexact then 0x02000000 else 0, r.up, r.inexact)

/-- A conversion to integer: `wide` makes the register's value of the result; FPRF is any value (U50). -/
def fpToInt (s : State) (n : Nat) (mode : RMode) (frt frb : BitVec 5) (rec : Bool) (wide : BitVec n → DWord) : Out State :=
  fpGuard s (
    let x := toIntRes n mode (s.thr.getFpr frb)
    let cls : BitVec 5 := s.free 5 0
    fpEnd (s.drew 1) fun th =>
      let f := setIbm (fpRaise (setFrFi th.fpscr x.2.2.1 x.2.2.2) x.2.1) 15 cls
      let th := if x.2.1 &&& vxCvi ≠ 0 ∧ ibit th.fpscr 24 then th else th.setFpr frt (wide x.1)
      { th with fpscr := f }.recordCr1 rec)

/-! ## Compares (section 5) -/

/-- FL, FG, FE, FU of two images of a format. -/
def compareClass (f : Fmt) (a b : Nat) : BitVec 4 :=
  if isNan f a || isNan f b then 0b0001
  else match cmpNum (unpack f a) (unpack f b) with
    | .lt => 0b1000
    | .gt => 0b0100
    | .eq => 0b0010

/-- A compare that raises the exception bits `exc`. -/
def fpCompare (s : State) (bf : BitVec 3) (a b : DWord) (exc : Word) : Out State :=
  fpGuard s (
    let c := compareClass f64 a.toNat b.toNat
    fpEnd s fun th => { th.setCrField bf c with fpscr := fpRaise (setIbm th.fpscr 16 c) exc })

/-! ## Writes of the FPSCR (section 6) -/

/-- The FPSCR with the bits of `mask` taken from `v`; FEX and VX are recomputed. FX follows only if the mask holds it: that a move
which turns an exception bit to 1 without writing FX leaves FX alone is PRESUMED (log 41), and so is that the reserved bit 20 keeps its
0 (log 58). -/
def fpscrMerge (f v mask : Word) : Word :=
  let m := mask &&& fpscrMask &&& ~~~0x60000000#32
  fpSummary ((f &&& ~~~m) ||| (v &&& m))

/-- A write of the FPSCR by `g`. -/
def fpWrite (s : State) (rec : Bool) (g : Word → Word) : Out State :=
  fpGuard s (fpEnd s fun th => { th with fpscr := g th.fpscr }.recordCr1 rec)

/-- The mask of one field. -/
def fieldMask (bf : BitVec 3) : Word := setIbm 0#32 (4 * bf.toNat) 0xF#4

/-- A move of an image (section 2): no FPSCR change. -/
def fpMove (s : State) (frt : BitVec 5) (rec : Bool) (v : DWord) : Out State :=
  fpGuard s (ppeNext s fun th => (th.setFpr frt v).recordCr1 rec)

end Sys2Proof.Machine
end

