-- ==== Sys2Proof/Machine/PpeFloat.lean ====
section
/-! DEFINITION. Floating-point instructions of the PPE (43_ppe_float.md). -/

namespace Sys2Proof.Machine

/-! ## Move and sign -/

/-- `fmr`, R850. -/
def execPpeFmr (frt frb : BitVec 5) (rec : Bool) (s : State) : Out State :=
  fpMove s frt rec (s.thr.getFpr frb)

/-- `fneg`, R851. -/
def execPpeFneg (frt frb : BitVec 5) (rec : Bool) (s : State) : Out State :=
  fpMove s frt rec (s.thr.getFpr frb ^^^ 0x8000000000000000)

/-- `fabs`, R852. -/
def execPpeFabs (frt frb : BitVec 5) (rec : Bool) (s : State) : Out State :=
  fpMove s frt rec (s.thr.getFpr frb &&& 0x7FFFFFFFFFFFFFFF)

/-- `fnabs`, R853. -/
def execPpeFnabs (frt frb : BitVec 5) (rec : Bool) (s : State) : Out State :=
  fpMove s frt rec (s.thr.getFpr frb ||| 0x8000000000000000)

/-! ## Arithmetic -/

/-- `fadd`, R855. -/
def execPpeFadd (frt fra frb : BitVec 5) (rec : Bool) (s : State) : Out State :=
  fpArith s f64 frt rec [s.thr.getFpr fra, s.thr.getFpr frb]
    (addRes f64 false (s.thr.getFpr fra) (s.thr.getFpr frb))

/-- `fsub`, R857. -/
def execPpeFsub (frt fra frb : BitVec 5) (rec : Bool) (s : State) : Out State :=
  fpArith s f64 frt rec [s.thr.getFpr fra, s.thr.getFpr frb]
    (addRes f64 true (s.thr.getFpr fra) (s.thr.getFpr frb))

/-- `fmul`, R859. -/
def execPpeFmul (frt fra frc : BitVec 5) (rec : Bool) (s : State) : Out State :=
  fpArith s f64 frt rec [s.thr.getFpr fra, s.thr.getFpr frc]
    (mulRes f64 (s.thr.getFpr fra) (s.thr.getFpr frc))

/-- `fdiv`, R861. -/
def execPpeFdiv (frt fra frb : BitVec 5) (rec : Bool) (s : State) : Out State :=
  fpArithNi s f64 frt rec [s.thr.getFpr fra, s.thr.getFpr frb]
    (divRes f64 (s.thr.getFpr fra) (s.thr.getFpr frb))

/-- `fsqrt`, R863. -/
def execPpeFsqrt (frt frb : BitVec 5) (rec : Bool) (s : State) : Out State :=
  fpArithNi s f64 frt rec [s.thr.getFpr frb] (sqrtRes f64 (s.thr.getFpr frb))

/-- `fmadd`, R865. -/
def execPpeFmadd (frt fra frb frc : BitVec 5) (rec : Bool) (s : State) : Out State :=
  fpArith s f64 frt rec [s.thr.getFpr fra, s.thr.getFpr frb, s.thr.getFpr frc]
    (fmaRes f64 false false (s.thr.getFpr fra) (s.thr.getFpr frb) (s.thr.getFpr frc))

/-- `fmsub`, R867. -/
def execPpeFmsub (frt fra frb frc : BitVec 5) (rec : Bool) (s : State) : Out State :=
  fpArith s f64 frt rec [s.thr.getFpr fra, s.thr.getFpr frb, s.thr.getFpr frc]
    (fmaRes f64 true false (s.thr.getFpr fra) (s.thr.getFpr frb) (s.thr.getFpr frc))

/-- `fnmadd`, R869. -/
def execPpeFnmadd (frt fra frb frc : BitVec 5) (rec : Bool) (s : State) : Out State :=
  fpArith s f64 frt rec [s.thr.getFpr fra, s.thr.getFpr frb, s.thr.getFpr frc]
    (fmaRes f64 false true (s.thr.getFpr fra) (s.thr.getFpr frb) (s.thr.getFpr frc))

/-- `fnmsub`, R871. -/
def execPpeFnmsub (frt fra frb frc : BitVec 5) (rec : Bool) (s : State) : Out State :=
  fpArith s f64 frt rec [s.thr.getFpr fra, s.thr.getFpr frb, s.thr.getFpr frc]
    (fmaRes f64 true true (s.thr.getFpr fra) (s.thr.getFpr frb) (s.thr.getFpr frc))

/-- `fadds`, R856. -/
def execPpeFadds (frt fra frb : BitVec 5) (rec : Bool) (s : State) : Out State :=
  fpArith s f32 frt rec [s.thr.getFpr fra, s.thr.getFpr frb]
    (addRes f32 false (s.thr.getFpr fra) (s.thr.getFpr frb))

/-- `fsubs`, R858. -/
def execPpeFsubs (frt fra frb : BitVec 5) (rec : Bool) (s : State) : Out State :=
  fpArith s f32 frt rec [s.thr.getFpr fra, s.thr.getFpr frb]
    (addRes f32 true (s.thr.getFpr fra) (s.thr.getFpr frb))

/-- `fmuls`, R860. -/
def execPpeFmuls (frt fra frc : BitVec 5) (rec : Bool) (s : State) : Out State :=
  fpArith s f32 frt rec [s.thr.getFpr fra, s.thr.getFpr frc]
    (mulRes f32 (s.thr.getFpr fra) (s.thr.getFpr frc))

/-- `fdivs`, R862. -/
def execPpeFdivs (frt fra frb : BitVec 5) (rec : Bool) (s : State) : Out State :=
  fpArithNi s f32 frt rec [s.thr.getFpr fra, s.thr.getFpr frb]
    (divRes f32 (s.thr.getFpr fra) (s.thr.getFpr frb))

/-- `fsqrts`, R864. -/
def execPpeFsqrts (frt frb : BitVec 5) (rec : Bool) (s : State) : Out State :=
  fpArithNi s f32 frt rec [s.thr.getFpr frb] (sqrtRes f32 (s.thr.getFpr frb))

/-- `fmadds`, R866. -/
def execPpeFmadds (frt fra frb frc : BitVec 5) (rec : Bool) (s : State) : Out State :=
  fpArith s f32 frt rec [s.thr.getFpr fra, s.thr.getFpr frb, s.thr.getFpr frc]
    (fmaRes f32 false false (s.thr.getFpr fra) (s.thr.getFpr frb) (s.thr.getFpr frc))

/-- `fmsubs`, R868. -/
def execPpeFmsubs (frt fra frb frc : BitVec 5) (rec : Bool) (s : State) : Out State :=
  fpArith s f32 frt rec [s.thr.getFpr fra, s.thr.getFpr frb, s.thr.getFpr frc]
    (fmaRes f32 true false (s.thr.getFpr fra) (s.thr.getFpr frb) (s.thr.getFpr frc))

/-- `fnmadds`, R870. -/
def execPpeFnmadds (frt fra frb frc : BitVec 5) (rec : Bool) (s : State) : Out State :=
  fpArith s f32 frt rec [s.thr.getFpr fra, s.thr.getFpr frb, s.thr.getFpr frc]
    (fmaRes f32 false true (s.thr.getFpr fra) (s.thr.getFpr frb) (s.thr.getFpr frc))

/-- `fnmsubs`, R872. -/
def execPpeFnmsubs (frt fra frb frc : BitVec 5) (rec : Bool) (s : State) : Out State :=
  fpArith s f32 frt rec [s.thr.getFpr fra, s.thr.getFpr frb, s.thr.getFpr frc]
    (fmaRes f32 true true (s.thr.getFpr fra) (s.thr.getFpr frb) (s.thr.getFpr frc))

/-- The image in double format of a single image. -/
def doubleImage (w : Word) : DWord :=
  match unpack f32 w.toNat with
  | .nan => BitVec.ofNat 64 (f64.image (ibit w 0) (f64.infMag + w.toNat % 2^23 * 2^29))
  | .inf n => BitVec.ofNat 64 (f64.image n f64.infMag)
  | .zero n => BitVec.ofNat 64 (f64.image n 0)
  | .fin n m e => f64Of n m e

/-- `fres`, R873. The estimate is a draw within 1/256 (U52); FR, FI and XX are any value. -/
def execPpeFres (frt frb : BitVec 5) (rec : Bool) (s : State) : Out State :=
  let b := s.thr.getFpr frb
  let cand := s.free 32 0
  let bits : BitVec 3 := s.free 3 1
  fpArith (s.drew 2) f32 frt rec [b] fun fpscr =>
    match num b with
    | .zero n => zeroDivideRes fpscr n
    | .inf n => estimateRes (BitVec.ofNat 64 (f64.image n 0)) (classZero n) bits
    | .nan => fpResult f32 fpscr false none [b] 0 .invalid
    | .fin n m e =>
      let w := match divFin n 1 0 m e with
        | .fin n m e => BitVec.ofNat 32 (ieeeRound f32 .nearest n m e).image
        | _ => 0
      let v := estimate (doubleImage cand) (doubleImage w) (finWith n fun mc ec => nearReciprocal 256 mc ec m e)
      estimateRes v (match num v with
        | .fin n m e => classFin n (f32.tiny m e)
        | _ => classOf v) bits

/-- `frsqrte`, R874. The estimate is a draw within 1/32 (U52); FR, FI and XX are any value. -/
def execPpeFrsqrte (frt frb : BitVec 5) (rec : Bool) (s : State) : Out State :=
  let b := s.thr.getFpr frb
  let cand := s.free 64 0
  let bits : BitVec 3 := s.free 3 1
  fpArith (s.drew 2) f64 frt rec [b] fun fpscr =>
    match num b with
    | .zero n => zeroDivideRes fpscr n
    | .inf n => if n then fpResult f64 fpscr false none [b] vxSqrt .invalid else estimateRes 0 (classZero false) bits
    | .nan => fpResult f64 fpscr false none [b] 0 .invalid
    | .fin n m e =>
      if n then fpResult f64 fpscr false none [b] vxSqrt .invalid
      else
        let w := match sqrtFin m e with
          | .fin _ m e => (match divFin false 1 0 m e with
            | .fin n m e => BitVec.ofNat 64 (ieeeRound f64 .nearest n m e).image
            | _ => 0)
          | _ => 0
        let v := estimate cand w (finWith false fun mc ec => nearRsqrt 32 mc ec m e)
        estimateRes v (classOf v) bits

/-- `fsel`, R875. -/
def execPpeFsel (frt fra frb frc : BitVec 5) (rec : Bool) (s : State) : Out State :=
  let a := s.thr.getFpr fra
  let nonNeg := match num a with
    | .nan => false
    | .inf n => !n
    | .zero _ => true
    | .fin n _ _ => !n
  fpMove s frt rec (if nonNeg then s.thr.getFpr frc else s.thr.getFpr frb)

/-! ## Rounding and conversion -/

/-- `frsp`, R880. -/
def execPpeFrsp (frt frb : BitVec 5) (rec : Bool) (s : State) : Out State :=
  let b := s.thr.getFpr frb
  let c : Calc := match num b with
    | .nan => .invalid
    | .inf n => .inf n
    | .zero n => .zero n
    | .fin n m e => .fin n m e
  fpGuard s (fpEnd s fun th => ((fpResult f32 th.fpscr false none [b] 0 c).apply frt th).recordCr1 rec)

/-- `fctid`, R881. -/
def execPpeFctid (frt frb : BitVec 5) (rec : Bool) (s : State) : Out State :=
  fpToInt s 64 s.thr.fpMode frt frb rec id

/-- `fctidz`, R882. -/
def execPpeFctidz (frt frb : BitVec 5) (rec : Bool) (s : State) : Out State :=
  fpToInt s 64 .zero frt frb rec id

/-- `fctiw`, R883. The upper word is any value (U50). -/
def execPpeFctiw (frt frb : BitVec 5) (rec : Bool) (s : State) : Out State :=
  let high : Word := s.free 32 0
  fpToInt (s.drew 1) 32 s.thr.fpMode frt frb rec fun r => high ++ r

/-- `fctiwz`, R884. The upper word is any value (U50). -/
def execPpeFctiwz (frt frb : BitVec 5) (rec : Bool) (s : State) : Out State :=
  let high : Word := s.free 32 0
  fpToInt (s.drew 1) 32 .zero frt frb rec fun r => high ++ r

/-- `fcfid`, R885. -/
def execPpeFcfid (frt frb : BitVec 5) (rec : Bool) (s : State) : Out State :=
  let i := (s.thr.getFpr frb).toInt
  let c : Calc := if i = 0 then .zero false else .fin (decide (i < 0)) i.natAbs 0
  fpArith s f64 frt rec [] fun fpscr => deliver f64 fpscr false none c

/-! ## Compares -/

/-- `fcmpu`, R888. -/
def execPpeFcmpu (bf : BitVec 3) (fra frb : BitVec 5) (s : State) : Out State :=
  let a := s.thr.getFpr fra
  let b := s.thr.getFpr frb
  fpCompare s bf a b (snanBits [a, b])

/-- `fcmpo`, R889. -/
def execPpeFcmpo (bf : BitVec 3) (fra frb : BitVec 5) (s : State) : Out State :=
  let a := s.thr.getFpr fra
  let b := s.thr.getFpr frb
  let exc :=
    if snanBits [a, b] ≠ 0 then vxSnan ||| (if ibit s.thr.fpscr 24 then 0 else vxVc)
    else if isNan f64 a.toNat || isNan f64 b.toNat then vxVc else 0
  fpCompare s bf a b exc

/-! ## FPSCR instructions -/

/-- The mask of the fields that FLM selects. -/
def crMask8 (flm : BitVec 8) : Word :=
  let f (i : Nat) : BitVec 4 := if ibit flm i then 0xF else 0
  f 0 ++ f 1 ++ f 2 ++ f 3 ++ f 4 ++ f 5 ++ f 6 ++ f 7

/-- `mffs`, R892. The upper word is any value (U50). -/
def execPpeMffs (frt : BitVec 5) (rec : Bool) (s : State) : Out State :=
  fpGuard s (
    let high : Word := s.free 32 0
    ppeNext (s.drew 1) fun th => (th.setFpr frt (high ++ th.fpscr)).recordCr1 rec)

/-- `mcrfs`, R893. -/
def execPpeMcrfs (bf bfa : BitVec 3) (s : State) : Out State :=
  fpGuard s (fpEnd s fun th =>
    { th.setCrField bf (ibm th.fpscr (4 * bfa.toNat) 4) with
      fpscr := fpSummary (th.fpscr &&& ~~~(fieldMask bfa &&& (fpExcMask ||| 0x80000000))) })

/-- `mtfsfi`, R894. -/
def execPpeMtfsfi (bf : BitVec 3) (u : BitVec 4) (rec : Bool) (s : State) : Out State :=
  fpWrite s rec fun f => fpscrMerge f (setIbm 0#32 (4 * bf.toNat) u) (fieldMask bf)

/-- `mtfsf`, R895. -/
def execPpeMtfsf (flm : BitVec 8) (frb : BitVec 5) (rec : Bool) (s : State) : Out State :=
  fpWrite s rec fun f => fpscrMerge f (lowWord (s.thr.getFpr frb)) (crMask8 flm)

/-- `mtfsb0`, R896. -/
def execPpeMtfsb0 (bt : BitVec 5) (rec : Bool) (s : State) : Out State :=
  fpWrite s rec fun f => fpscrMerge f 0 (setIbit 0#32 bt.toNat true)

/-- `mtfsb1`, R897. Setting an exception bit sets FX, also where the bit is 1 already, of which the rule does not speak: DESIGN CHOICE
(log 41). -/
def execPpeMtfsb1 (bt : BitVec 5) (rec : Bool) (s : State) : Out State :=
  fpWrite s rec fun f =>
    let bit := setIbit 0#32 bt.toNat true
    fpscrMerge f 0xFFFFFFFF (if bit &&& fpExcMask = 0 then bit else bit ||| 0x80000000)

end Sys2Proof.Machine
end

