-- ==== Sys2Proof/Machine/PpeInteger.lean ====
section
/-! DEFINITION. PPE fixed-point arithmetic, compare, logical, rotate and shift instructions (42_ppe_integer.md). -/

namespace Sys2Proof.Machine

/-! ## Shared forms -/

/-- GPR[rt] := x + y + c, with CA, OV and CR0 as the form asks (42_ppe_integer R740). -/
def addForm (rt : BitVec 5) (x y : DWord) (c setCa oe rec : Bool) (th : Thread) : Thread :=
  let r := x + y + c.toNat
  let t1 := th.setGpr rt r
  let t2 := if setCa then t1.setCa (carryOut th.width x y c) else t1
  let t3 := if oe then t2.setOv (overflowOut th.width x y c) else t2
  t3.recordIf rec r

/-- GPR[rt] := r, OV := ov if OE, CR0 if Rc. -/
def mulForm (rt : BitVec 5) (r : DWord) (ov oe rec : Bool) (th : Thread) : Thread :=
  let t1 := th.setGpr rt r
  let t2 := if oe then t1.setOv ov else t1
  t2.recordIf rec r

/-- The signed product of two values of `n` bits fits in `n` signed bits. -/
def fitsSigned (n : Nat) (p : Int) : Bool := decide (-2^(n - 1) ≤ p) && decide (p < 2^(n - 1))

/-- CR0 of a record form whose LT, GT and EQ are undefined in 64-bit mode: free bits there, computed from the low word in
32-bit mode, which the instruction defines (U49). -/
def undefinedRecord (s : State) (k : Nat) (r : DWord) (rec : Bool) (th : Thread) : Thread :=
  if rec then
    if th.sf then th.setCrField 0 (s.free 3 k ++ BitVec.ofBool th.so) else th.recordCr0 r
  else th

/-- A result of 32 bits whose upper half is undefined: free bits above `w` (U49). -/
def wordResult (rt : BitVec 5) (w : Word) (ov oe rec : Bool) (s : State) : Out State :=
  let r : DWord := s.free 32 0 ++ w
  ppeNext (s.drew 2) fun th =>
    let t1 := th.setGpr rt r
    let t2 := if oe then t1.setOv ov else t1
    undefinedRecord s 1 r rec t2

/-- A divide whose whole result is undefined: GPR[rt] and CR0[LT, GT, EQ] are free, OV is 1 (U49). -/
def undefinedDivide (rt : BitVec 5) (oe rec : Bool) (s : State) : Out State :=
  let r := s.free 64 0
  ppeNext (s.drew 2) fun th =>
    let t1 := th.setGpr rt r
    let t2 := if oe then t1.setOv true else t1
    if rec then t2.setCrField 0 (s.free 3 1 ++ BitVec.ofBool t2.so) else t2

/-- A doubleword divide of defined result. -/
def divForm (rt : BitVec 5) (r : DWord) (oe rec : Bool) (s : State) : Out State :=
  ppeNext s (mulForm rt r false oe rec)

/-- A compare: CR field BF := LT || GT || EQ || XER[SO]. -/
def compareForm (bf : BitVec 3) (x y : Int) (th : Thread) : Thread := th.setCrField bf (compareBits x y th.so)

/-- A logical form: GPR[ra] := r, CR0 if Rc. -/
def logicForm (ra : BitVec 5) (r : DWord) (rec : Bool) (th : Thread) : Thread := (th.setGpr ra r).recordIf rec r

/-- An algebraic right shift: the result, and CA := source negative and a one was shifted out (section 7). -/
def sraForm (ra : BitVec 5) (w : Int) (n : Nat) (rec : Bool) (th : Thread) : Thread :=
  let q := w / 2^n
  let r : DWord := BitVec.ofInt 64 q
  ((th.setGpr ra r).setCa (decide (w < 0) && decide (q * 2^n ≠ w))).recordIf rec r

/-! ## Add and subtract -/

/-- `addi`, R741. -/
def execPpeAddi (rt ra : BitVec 5) (si : BitVec 16) (s : State) : Out State :=
  ppeNext s fun th => th.setGpr rt (th.raOr0 ra + si64 si)
/-- `addis`, R742. -/
def execPpeAddis (rt ra : BitVec 5) (si : BitVec 16) (s : State) : Out State :=
  ppeNext s fun th => th.setGpr rt (th.raOr0 ra + (si ++ 0#16).signExtend 64)
/-- `add`, R743. -/
def execPpeAdd (rt ra rb : BitVec 5) (oe rec : Bool) (s : State) : Out State :=
  ppeNext s fun th => addForm rt (th.getGpr ra) (th.getGpr rb) false false oe rec th
/-- `subf`, R744. -/
def execPpeSubf (rt ra rb : BitVec 5) (oe rec : Bool) (s : State) : Out State :=
  ppeNext s fun th => addForm rt (~~~(th.getGpr ra)) (th.getGpr rb) true false oe rec th
/-- `addic`, R745. -/
def execPpeAddic (rt ra : BitVec 5) (si : BitVec 16) (s : State) : Out State :=
  ppeNext s fun th => addForm rt (th.getGpr ra) (si64 si) false true false false th
/-- `addic.`, R746. -/
def execPpeAddicDot (rt ra : BitVec 5) (si : BitVec 16) (s : State) : Out State :=
  ppeNext s fun th => addForm rt (th.getGpr ra) (si64 si) false true false true th
/-- `subfic`, R747. -/
def execPpeSubfic (rt ra : BitVec 5) (si : BitVec 16) (s : State) : Out State :=
  ppeNext s fun th => addForm rt (~~~(th.getGpr ra)) (si64 si) true true false false th
/-- `addc`, R748. -/
def execPpeAddc (rt ra rb : BitVec 5) (oe rec : Bool) (s : State) : Out State :=
  ppeNext s fun th => addForm rt (th.getGpr ra) (th.getGpr rb) false true oe rec th
/-- `subfc`, R749. -/
def execPpeSubfc (rt ra rb : BitVec 5) (oe rec : Bool) (s : State) : Out State :=
  ppeNext s fun th => addForm rt (~~~(th.getGpr ra)) (th.getGpr rb) true true oe rec th
/-- `adde`, R750. -/
def execPpeAdde (rt ra rb : BitVec 5) (oe rec : Bool) (s : State) : Out State :=
  ppeNext s fun th => addForm rt (th.getGpr ra) (th.getGpr rb) th.ca true oe rec th
/-- `subfe`, R751. -/
def execPpeSubfe (rt ra rb : BitVec 5) (oe rec : Bool) (s : State) : Out State :=
  ppeNext s fun th => addForm rt (~~~(th.getGpr ra)) (th.getGpr rb) th.ca true oe rec th
/-- `addme`, R752. -/
def execPpeAddme (rt ra : BitVec 5) (oe rec : Bool) (s : State) : Out State :=
  ppeNext s fun th => addForm rt (th.getGpr ra) (BitVec.allOnes 64) th.ca true oe rec th
/-- `subfme`, R753. -/
def execPpeSubfme (rt ra : BitVec 5) (oe rec : Bool) (s : State) : Out State :=
  ppeNext s fun th => addForm rt (~~~(th.getGpr ra)) (BitVec.allOnes 64) th.ca true oe rec th
/-- `addze`, R754. -/
def execPpeAddze (rt ra : BitVec 5) (oe rec : Bool) (s : State) : Out State :=
  ppeNext s fun th => addForm rt (th.getGpr ra) 0 th.ca true oe rec th
/-- `subfze`, R755. -/
def execPpeSubfze (rt ra : BitVec 5) (oe rec : Bool) (s : State) : Out State :=
  ppeNext s fun th => addForm rt (~~~(th.getGpr ra)) 0 th.ca true oe rec th
/-- `neg`, R756. -/
def execPpeNeg (rt ra : BitVec 5) (oe rec : Bool) (s : State) : Out State :=
  ppeNext s fun th => addForm rt (~~~(th.getGpr ra)) 0 true false oe rec th

/-! ## Multiply and divide -/

/-- `mulli`, R760. -/
def execPpeMulli (rt ra : BitVec 5) (si : BitVec 16) (s : State) : Out State :=
  ppeNext s fun th => th.setGpr rt (th.getGpr ra * si64 si)
/-- `mullw`, R761. -/
def execPpeMullw (rt ra rb : BitVec 5) (oe rec : Bool) (s : State) : Out State :=
  ppeNext s fun th =>
    let p := (lowWord (th.getGpr ra)).toInt * (lowWord (th.getGpr rb)).toInt
    mulForm rt (BitVec.ofInt 64 p) (!fitsSigned 32 p) oe rec th
/-- `mulhw`, R762. -/
def execPpeMulhw (rt ra rb : BitVec 5) (rec : Bool) (s : State) : Out State :=
  let p := (lowWord (s.thr.getGpr ra)).toInt * (lowWord (s.thr.getGpr rb)).toInt
  wordResult rt (BitVec.ofInt 32 (p / 2^32)) false false rec s
/-- `mulhwu`, R763. -/
def execPpeMulhwu (rt ra rb : BitVec 5) (rec : Bool) (s : State) : Out State :=
  let p := (lowWord (s.thr.getGpr ra)).toNat * (lowWord (s.thr.getGpr rb)).toNat
  wordResult rt (BitVec.ofNat 32 (p / 2^32)) false false rec s
/-- `mulld`, R764. -/
def execPpeMulld (rt ra rb : BitVec 5) (oe rec : Bool) (s : State) : Out State :=
  ppeNext s fun th =>
    let p := (th.getGpr ra).toInt * (th.getGpr rb).toInt
    mulForm rt (BitVec.ofInt 64 p) (!fitsSigned 64 p) oe rec th
/-- `mulhd`, R765. -/
def execPpeMulhd (rt ra rb : BitVec 5) (rec : Bool) (s : State) : Out State :=
  ppeNext s fun th =>
    mulForm rt (BitVec.ofInt 64 ((th.getGpr ra).toInt * (th.getGpr rb).toInt / 2^64)) false false rec th
/-- `mulhdu`, R766. -/
def execPpeMulhdu (rt ra rb : BitVec 5) (rec : Bool) (s : State) : Out State :=
  ppeNext s fun th =>
    mulForm rt (BitVec.ofNat 64 ((th.getGpr ra).toNat * (th.getGpr rb).toNat / 2^64)) false false rec th
/-- `divw`, R767. -/
def execPpeDivw (rt ra rb : BitVec 5) (oe rec : Bool) (s : State) : Out State :=
  let a := (lowWord (s.thr.getGpr ra)).toInt
  let b := (lowWord (s.thr.getGpr rb)).toInt
  if b = 0 ∨ (a = -2^31 ∧ b = -1) then undefinedDivide rt oe rec s
  else wordResult rt (BitVec.ofInt 32 (a.tdiv b)) false oe rec s
/-- `divwu`, R768. -/
def execPpeDivwu (rt ra rb : BitVec 5) (oe rec : Bool) (s : State) : Out State :=
  let a := (lowWord (s.thr.getGpr ra)).toNat
  let b := (lowWord (s.thr.getGpr rb)).toNat
  if b = 0 then undefinedDivide rt oe rec s
  else wordResult rt (BitVec.ofNat 32 (a / b)) false oe rec s
/-- `divd`, R769. -/
def execPpeDivd (rt ra rb : BitVec 5) (oe rec : Bool) (s : State) : Out State :=
  let a := (s.thr.getGpr ra).toInt
  let b := (s.thr.getGpr rb).toInt
  if b = 0 ∨ (a = -2^63 ∧ b = -1) then undefinedDivide rt oe rec s
  else divForm rt (BitVec.ofInt 64 (a.tdiv b)) oe rec s
/-- `divdu`, R770. -/
def execPpeDivdu (rt ra rb : BitVec 5) (oe rec : Bool) (s : State) : Out State :=
  let a := (s.thr.getGpr ra).toNat
  let b := (s.thr.getGpr rb).toNat
  if b = 0 then undefinedDivide rt oe rec s
  else divForm rt (BitVec.ofNat 64 (a / b)) oe rec s

/-! ## Compare -/

/-- `cmpi`, R775. -/
def execPpeCmpi (bf : BitVec 3) (l : Bool) (ra : BitVec 5) (si : BitVec 16) (s : State) : Out State :=
  ppeNext s fun th =>
    let a := th.getGpr ra
    compareForm bf (if l then a.toInt else (lowWord a).toInt) (si64 si).toInt th
/-- `cmp`, R776. -/
def execPpeCmp (bf : BitVec 3) (l : Bool) (ra rb : BitVec 5) (s : State) : Out State :=
  ppeNext s fun th =>
    let a := th.getGpr ra
    let b := th.getGpr rb
    compareForm bf (if l then a.toInt else (lowWord a).toInt) (if l then b.toInt else (lowWord b).toInt) th
/-- `cmpli`, R777. -/
def execPpeCmpli (bf : BitVec 3) (l : Bool) (ra : BitVec 5) (ui : BitVec 16) (s : State) : Out State :=
  ppeNext s fun th =>
    let a := th.getGpr ra
    compareForm bf (if l then a.toNat else (lowWord a).toNat) (ui64 ui).toNat th
/-- `cmpl`, R778. -/
def execPpeCmpl (bf : BitVec 3) (l : Bool) (ra rb : BitVec 5) (s : State) : Out State :=
  ppeNext s fun th =>
    let a := th.getGpr ra
    let b := th.getGpr rb
    compareForm bf (if l then a.toNat else (lowWord a).toNat) (if l then b.toNat else (lowWord b).toNat) th

/-! ## Logical -/

/-- `ori`, R780. -/
def execPpeOri (rs ra : BitVec 5) (ui : BitVec 16) (s : State) : Out State :=
  ppeNext s fun th => th.setGpr ra (th.getGpr rs ||| ui64 ui)
/-- `oris`, R781. -/
def execPpeOris (rs ra : BitVec 5) (ui : BitVec 16) (s : State) : Out State :=
  ppeNext s fun th => th.setGpr ra (th.getGpr rs ||| (ui64 ui <<< 16))
/-- `xori`, R782. -/
def execPpeXori (rs ra : BitVec 5) (ui : BitVec 16) (s : State) : Out State :=
  ppeNext s fun th => th.setGpr ra (th.getGpr rs ^^^ ui64 ui)
/-- `xoris`, R783. -/
def execPpeXoris (rs ra : BitVec 5) (ui : BitVec 16) (s : State) : Out State :=
  ppeNext s fun th => th.setGpr ra (th.getGpr rs ^^^ (ui64 ui <<< 16))
/-- `andi.`, R784. -/
def execPpeAndiDot (rs ra : BitVec 5) (ui : BitVec 16) (s : State) : Out State :=
  ppeNext s fun th => logicForm ra (th.getGpr rs &&& ui64 ui) true th
/-- `andis.`, R785. -/
def execPpeAndisDot (rs ra : BitVec 5) (ui : BitVec 16) (s : State) : Out State :=
  ppeNext s fun th => logicForm ra (th.getGpr rs &&& (ui64 ui <<< 16)) true th
/-- `and`, R786. -/
def execPpeAnd (rs ra rb : BitVec 5) (rec : Bool) (s : State) : Out State :=
  ppeNext s fun th => logicForm ra (th.getGpr rs &&& th.getGpr rb) rec th
/-- `or`, R787. `or 1,1,1`, `or 2,2,2` and `or 3,3,3` change the thread's priority (62_platform R2009); the dispatch-blocking
forms are timing only (R2010). -/
def execPpeOr (rs ra rb : BitVec 5) (rec : Bool) (s : State) : Out State :=
  ppeNext s fun th =>
    let th := logicForm ra (th.getGpr rs ||| th.getGpr rb) rec th
    if !rec ∧ rs = ra ∧ ra = rb ∧ ra ≠ 0 ∧ ra.toNat ≤ 3 then th.setPriority s.ppe (BitVec.ofNat 2 ra.toNat) else th
/-- `xor`, R788. -/
def execPpeXor (rs ra rb : BitVec 5) (rec : Bool) (s : State) : Out State :=
  ppeNext s fun th => logicForm ra (th.getGpr rs ^^^ th.getGpr rb) rec th
/-- `nand`, R789. -/
def execPpeNand (rs ra rb : BitVec 5) (rec : Bool) (s : State) : Out State :=
  ppeNext s fun th => logicForm ra (~~~(th.getGpr rs &&& th.getGpr rb)) rec th
/-- `nor`, R790. -/
def execPpeNor (rs ra rb : BitVec 5) (rec : Bool) (s : State) : Out State :=
  ppeNext s fun th => logicForm ra (~~~(th.getGpr rs ||| th.getGpr rb)) rec th
/-- `eqv`, R791. -/
def execPpeEqv (rs ra rb : BitVec 5) (rec : Bool) (s : State) : Out State :=
  ppeNext s fun th => logicForm ra (~~~(th.getGpr rs ^^^ th.getGpr rb)) rec th
/-- `andc`, R792. -/
def execPpeAndc (rs ra rb : BitVec 5) (rec : Bool) (s : State) : Out State :=
  ppeNext s fun th => logicForm ra (th.getGpr rs &&& ~~~(th.getGpr rb)) rec th
/-- `orc`, R793. -/
def execPpeOrc (rs ra rb : BitVec 5) (rec : Bool) (s : State) : Out State :=
  ppeNext s fun th => logicForm ra (th.getGpr rs ||| ~~~(th.getGpr rb)) rec th
/-- `extsb`, R794. -/
def execPpeExtsb (rs ra : BitVec 5) (rec : Bool) (s : State) : Out State :=
  ppeNext s fun th => logicForm ra ((ibm (th.getGpr rs) 56 8).signExtend 64) rec th
/-- `extsh`, R795. -/
def execPpeExtsh (rs ra : BitVec 5) (rec : Bool) (s : State) : Out State :=
  ppeNext s fun th => logicForm ra ((ibm (th.getGpr rs) 48 16).signExtend 64) rec th
/-- `extsw`, R796. -/
def execPpeExtsw (rs ra : BitVec 5) (rec : Bool) (s : State) : Out State :=
  ppeNext s fun th => logicForm ra ((lowWord (th.getGpr rs)).signExtend 64) rec th
/-- `cntlzw`, R797. -/
def execPpeCntlzw (rs ra : BitVec 5) (rec : Bool) (s : State) : Out State :=
  ppeNext s fun th => logicForm ra (BitVec.ofNat 64 (clz (lowWord (th.getGpr rs)))) rec th
/-- `cntlzd`, R798. -/
def execPpeCntlzd (rs ra : BitVec 5) (rec : Bool) (s : State) : Out State :=
  ppeNext s fun th => logicForm ra (BitVec.ofNat 64 (clz (th.getGpr rs))) rec th

/-! ## Rotate -/

/-- `(rot and m) or (old and not m)`. -/
def insertUnder (m rot old : DWord) : DWord := (rot &&& m) ||| (old &&& ~~~m)

/-- `rlwinm`, R800. -/
def execPpeRlwinm (rs ra sh mb me : BitVec 5) (rec : Bool) (s : State) : Out State :=
  ppeNext s fun th =>
    logicForm ra (rotl32 (th.getGpr rs) sh.toNat &&& mask64 (mb.toNat + 32) (me.toNat + 32)) rec th
/-- `rlwnm`, R801. -/
def execPpeRlwnm (rs ra rb mb me : BitVec 5) (rec : Bool) (s : State) : Out State :=
  ppeNext s fun th =>
    logicForm ra (rotl32 (th.getGpr rs) (ibm (th.getGpr rb) 59 5).toNat &&&
      mask64 (mb.toNat + 32) (me.toNat + 32)) rec th
/-- `rlwimi`, R802. -/
def execPpeRlwimi (rs ra sh mb me : BitVec 5) (rec : Bool) (s : State) : Out State :=
  ppeNext s fun th =>
    logicForm ra (insertUnder (mask64 (mb.toNat + 32) (me.toNat + 32)) (rotl32 (th.getGpr rs) sh.toNat)
      (th.getGpr ra)) rec th
/-- `rldicl`, R803. -/
def execPpeRldicl (rs ra : BitVec 5) (sh mb : BitVec 6) (rec : Bool) (s : State) : Out State :=
  ppeNext s fun th => logicForm ra ((th.getGpr rs).rotateLeft sh.toNat &&& mask64 mb.toNat 63) rec th
/-- `rldicr`, R804. -/
def execPpeRldicr (rs ra : BitVec 5) (sh me : BitVec 6) (rec : Bool) (s : State) : Out State :=
  ppeNext s fun th => logicForm ra ((th.getGpr rs).rotateLeft sh.toNat &&& mask64 0 me.toNat) rec th
/-- `rldic`, R805. -/
def execPpeRldic (rs ra : BitVec 5) (sh mb : BitVec 6) (rec : Bool) (s : State) : Out State :=
  ppeNext s fun th =>
    logicForm ra ((th.getGpr rs).rotateLeft sh.toNat &&& mask64 mb.toNat (63 - sh.toNat)) rec th
/-- `rldimi`, R806. -/
def execPpeRldimi (rs ra : BitVec 5) (sh mb : BitVec 6) (rec : Bool) (s : State) : Out State :=
  ppeNext s fun th =>
    logicForm ra (insertUnder (mask64 mb.toNat (63 - sh.toNat)) ((th.getGpr rs).rotateLeft sh.toNat)
      (th.getGpr ra)) rec th
/-- `rldcl`, R807. -/
def execPpeRldcl (rs ra rb : BitVec 5) (mb : BitVec 6) (rec : Bool) (s : State) : Out State :=
  ppeNext s fun th =>
    logicForm ra ((th.getGpr rs).rotateLeft (ibm (th.getGpr rb) 58 6).toNat &&& mask64 mb.toNat 63) rec th
/-- `rldcr`, R808. -/
def execPpeRldcr (rs ra rb : BitVec 5) (me : BitVec 6) (rec : Bool) (s : State) : Out State :=
  ppeNext s fun th =>
    logicForm ra ((th.getGpr rs).rotateLeft (ibm (th.getGpr rb) 58 6).toNat &&& mask64 0 me.toNat) rec th

/-! ## Shift -/

/-- `slw`, R812: a count of 32 or more gives 0, since only 32 bits remain. -/
def execPpeSlw (rs ra rb : BitVec 5) (rec : Bool) (s : State) : Out State :=
  ppeNext s fun th =>
    let n := (ibm (th.getGpr rb) 58 6).toNat
    logicForm ra ((lowWord (th.getGpr rs) <<< n).setWidth 64) rec th
/-- `srw`, R813. -/
def execPpeSrw (rs ra rb : BitVec 5) (rec : Bool) (s : State) : Out State :=
  ppeNext s fun th =>
    let n := (ibm (th.getGpr rb) 58 6).toNat
    logicForm ra ((lowWord (th.getGpr rs) >>> n).setWidth 64) rec th
/-- `sraw`, R814. -/
def execPpeSraw (rs ra rb : BitVec 5) (rec : Bool) (s : State) : Out State :=
  ppeNext s fun th => sraForm ra (lowWord (th.getGpr rs)).toInt (ibm (th.getGpr rb) 58 6).toNat rec th
/-- `srawi`, R815. -/
def execPpeSrawi (rs ra sh : BitVec 5) (rec : Bool) (s : State) : Out State :=
  ppeNext s fun th => sraForm ra (lowWord (th.getGpr rs)).toInt sh.toNat rec th
/-- `sld`, R816. -/
def execPpeSld (rs ra rb : BitVec 5) (rec : Bool) (s : State) : Out State :=
  ppeNext s fun th => logicForm ra (th.getGpr rs <<< (ibm (th.getGpr rb) 57 7).toNat) rec th
/-- `srd`, R817. -/
def execPpeSrd (rs ra rb : BitVec 5) (rec : Bool) (s : State) : Out State :=
  ppeNext s fun th => logicForm ra (th.getGpr rs >>> (ibm (th.getGpr rb) 57 7).toNat) rec th
/-- `srad`, R818. -/
def execPpeSrad (rs ra rb : BitVec 5) (rec : Bool) (s : State) : Out State :=
  ppeNext s fun th => sraForm ra (th.getGpr rs).toInt (ibm (th.getGpr rb) 57 7).toNat rec th
/-- `sradi`, R819. -/
def execPpeSradi (rs ra : BitVec 5) (sh : BitVec 6) (rec : Bool) (s : State) : Out State :=
  ppeNext s fun th => sraForm ra (th.getGpr rs).toInt sh.toNat rec th

end Sys2Proof.Machine
end

