-- ==== Sys2Proof/Machine/PpeLoadStore.lean ====
section
/-! DEFINITION. Loads, stores, multiples, strings, reservations, cache instructions and floating-point loads and stores of
the PPE (41_ppe_loadstore.md). -/

namespace Sys2Proof.Machine

/-! ## Effective addresses (R650) -/

/-- D-form. -/
def Thread.eaD (th : Thread) (ra : BitVec 5) (d : BitVec 16) : DWord := th.raOr0 ra + si64 d
/-- DS-form. -/
def Thread.eaDs (th : Thread) (ra : BitVec 5) (ds : BitVec 14) : DWord := th.raOr0 ra + ds64 ds
/-- X-form. -/
def Thread.eaX (th : Thread) (ra rb : BitVec 5) : DWord := th.raOr0 ra + th.getGpr rb

/-! ## The shapes of the instructions -/

/-- The number with its `n` bytes reversed (section 4). -/
def revBytes (n v : Nat) : Nat := natOfBytes (bytesOfNat v n).reverse
/-- The sign-extended value of `n` bytes. -/
def sextBytes (n v : Nat) : DWord := (BitVec.ofNat (8 * n) v).signExtend 64

/-- A load into a GPR. -/
def loadGpr (s : State) (ea : DWord) (len : Nat) (al : Align) (conv : Nat → DWord) (rt : BitVec 5) : Out State :=
  loadThen s ea len al conv fun v s => s.modThr fun th => (th.setGpr rt v).advance
/-- A load with update; RA = 0 and RA = RT are invalid (R653). -/
def loadGprU (s : State) (ea : DWord) (len : Nat) (al : Align) (conv : Nat → DWord) (rt ra : BitVec 5) : Out State :=
  if ra = 0 ∨ ra = rt then s.illegal
  else loadThen s ea len al conv fun v s => s.modThr fun th => ((th.setGpr rt v).setGpr ra ea).advance
/-- A store of the low bytes of a value; `cut` as for `pieces`. -/
def storeVal (s : State) (ea : DWord) (len : Nat) (al : Align) (v : Nat) (cut : Nat := 32) : Out State :=
  storeThen s ea len al v (fun s => s.modThr Thread.advance) cut
/-- A store with update; RA = 0 is invalid (R653). -/
def storeValU (s : State) (ea : DWord) (len : Nat) (al : Align) (v : Nat) (ra : BitVec 5) (cut : Nat := 32) : Out State :=
  if ra = 0 then s.illegal
  else storeThen s ea len al v (fun s => s.modThr fun th => (th.setGpr ra ea).advance) cut

/-! ## Floating-point conversions (section 8) -/

/-- `DOUBLE`. -/
def doubleOf (w : Word) : DWord :=
  let s := ibm w 0 1
  let e := (ibm w 1 8).toNat
  let f := ibm w 9 23
  if e = 255 then s ++ 0x7FF#11 ++ f ++ 0#29
  else if e ≠ 0 then s ++ BitVec.ofNat 11 (e + 896) ++ f ++ 0#29
  else if f = 0 then s ++ 0#63
  else s ++ BitVec.ofNat 11 (896 - clz f) ++ (f <<< (clz f + 1)) ++ 0#29

/-- `SINGLE`; none where the architecture leaves the result undefined (U48). -/
def singleOf (d : DWord) : Option Word :=
  let e := (ibm d 1 11).toNat
  if 896 < e ∨ ibm d 1 63 = 0 then some (ibm d 0 2 ++ ibm d 5 30)
  else if 874 ≤ e then some (ibm d 0 1 ++ 0#8 ++ ((1#1 ++ ibm d 12 52) >>> (897 - e)).extractLsb' 29 23)
  else none

/-- A floating-point load (R1829 first). -/
def loadFpr (s : State) (ea : DWord) (len : Nat) (conv : Nat → DWord) (frt : BitVec 5) : Out State :=
  fpGuard s (loadThen s ea len (alignFloat s ea len) conv fun v s => s.modThr fun th => (th.setFpr frt v).advance)
/-- A floating-point load with update. -/
def loadFprU (s : State) (ea : DWord) (len : Nat) (conv : Nat → DWord) (frt ra : BitVec 5) : Out State :=
  fpGuard s (if ra = 0 then s.illegal
    else loadThen s ea len (alignFloat s ea len) conv fun v s => s.modThr fun th => ((th.setFpr frt v).setGpr ra ea).advance)
/-- The word `stfs` stores, and the state after the draw it may take (U48). -/
def State.singleWord (s : State) (d : DWord) : Nat × State :=
  match singleOf d with
  | some w => (w.toNat, s)
  | none => ((s.free 32 0).toNat, s.drew 1)

/-- lfs. -/
def dbl (v : Nat) : DWord := doubleOf (BitVec.ofNat 32 v)
/-- A value without conversion. -/
def raw (v : Nat) : DWord := BitVec.ofNat 64 v

/-! ## Multiples and strings (section 5) -/

/-- Put the words of a list into GPRs from `r` on, wrapping. -/
def Thread.setWords (th : Thread) (r : Nat) : List Nat → Thread
  | [] => th
  | v :: rest => (th.setGpr (BitVec.ofNat 5 r) (BitVec.ofNat 64 v)).setWords (r + 1) rest

/-- The words of a byte string, four bytes each, only the full ones if `whole`, the last padded on the right otherwise. -/
def wordsOf (whole : Bool) : List Nat → List Nat
  | a :: b :: c :: d :: rest => (((a * 256 + b) * 256 + c) * 256 + d) :: wordsOf whole rest
  | [] => []
  | l => if whole then [] else [(l ++ [0, 0, 0]).take 4 |>.foldl (fun acc b => acc * 256 + b) 0]

/-- The addresses of `n` parts of `len` bytes from `ea` on. -/
def Thread.partsFrom (th : Thread) (ea : DWord) (len n : Nat) : List (DWord × Nat) :=
  (List.range n).map fun k => (th.truncEa (ea + BitVec.ofNat 64 (len * k)), len)

/-- How many of `n` registers from `rt` on come before one that is in `bad` (R703). -/
def beforeCollision (rt : BitVec 5) (bad : List (BitVec 5)) (n : Nat) : Nat :=
  ((List.range n).takeWhile fun k => !bad.contains (BitVec.ofNat 5 (rt.toNat + k))).length

/-- Load string: `n` bytes at `ea` into registers from `rt` on; `bad` are the registers that make the form invalid
(R706, R707). -/
def loadString (s : State) (rt : BitVec 5) (bad : List (BitVec 5)) (ea : DWord) (n : Nat) : Out State :=
  let regs := (n + 3) / 4
  let good := beforeCollision rt bad regs
  let bytes := if good < regs then 4 * good else n
  loadParts s (s.thr.truncEa ea) (alignString s ea bytes) (s.thr.partsFrom ea 1 bytes)
    (fun vs s => s.modThr fun th => th.setWords rt.toNat (wordsOf (decide (vs.length < bytes)) vs))
    fun s => if good < regs then s.illegal else .next (s.modThr Thread.advance)

/-- Byte `k` of a string taken from bits 32:63 of the registers from `rs` on (R708). -/
def Thread.stringByte (th : Thread) (rs : BitVec 5) (k : Nat) : Nat :=
  (el 8 ((lowWord (th.getGpr (BitVec.ofNat 5 (rs.toNat + k / 4))) ++ 0#96)) (k % 4)).toNat

/-- Store string (R708, R709). -/
def storeString (s : State) (rs : BitVec 5) (ea : DWord) (n : Nat) : Out State :=
  storeParts s (s.thr.truncEa ea) (alignString s ea n)
    ((List.range n).map fun k => (s.thr.truncEa (ea + BitVec.ofNat 64 k), 1, s.thr.stringByte rs k))
    fun s => s.modThr Thread.advance

/-- The byte count of an immediate string. -/
def stringLen (nb : BitVec 5) : Nat := if nb = 0 then 32 else nb.toNat

/-! ## Reservations (section 6) -/

/-- Load and reserve (R712). -/
def loadReserve (s : State) (ea : DWord) (len : Nat) (rt : BitVec 5) : Out State :=
  let ea := s.thr.truncEa ea
  (dataPage s ea ea len false (alignStrict ea len)).done fun p s =>
    (loadList [(p, len)] s).done fun vs s =>
      .next (s.modThr fun th => ({ th.setGpr rt (raw (vs.headD 0)) with reserve := some (p.phys.ra / 128) }).advance)

/-- Store conditional (R714): performed if the reservation is on the granule; a draw if it is on another (U44). -/
def storeConditional (s : State) (ea : DWord) (len v : Nat) : Out State :=
  let ea := s.thr.truncEa ea
  (dataPiece s ea ea len true (alignStrict ea len)).done fun p s =>
    let other := match s.thr.reserve with
      | some g => decide (g ≠ p.ra / 128)
      | none => false
    let performed := match s.thr.reserve with
      | some g => decide (g = p.ra / 128) || decide (s.free 1 0 = 1)
      | none => false
    let s := if other then s.drew 1 else s
    (if performed then realStore s p len v else .ok () s).done fun _ s =>
      .next (s.modThr fun th =>
        ({ th.setCrField 0 (nibble false false performed th.so) with reserve := none }).advance)

/-! ## Cache instructions (section 7) -/

/-- Whether a form of `dcbt` is ignored: TH bit 0 is 1 and TH is neither '1000' nor '1010' (20_memory R432). -/
def touchIgnored (th : BitVec 4) : Bool := ibit th 0 && th != 8 && th != 10

/-- A touch (R720): a hint whose one possible effect is that of a table search, a draw; HID4[force_geq1] and HID4[tch_nop]
(bit 16, log 8) and LPCR[TL] = 1 cancel it (20_memory R432; R720 names LPCR[TL] = 1 with a TLB miss only: DESIGN CHOICE, log 45). A touch for a store is cancelled also on a page that forbids a load or has
I = 1 or G = 1, else it may clear the other thread's reservation (20_memory R421, R432). -/
def touch (s : State) (th : BitVec 4) (ea : DWord) (store : Bool) : Out State :=
  let s' :=
    if touchIgnored th || s.ppe.forceG || ibit s.ppe.hid4 16 || s.ppe.tl then s
    else if s.free 1 0 = 1 then
      match lookup (s.drew 1) s.curT (s.thr.truncEa ea) .load with
      | .page p s' =>
        if store && permits s.thr.pr p false && !(p.i || s.ppe.forceCi) && !p.g then s'.noteTouch (p.ra / 128) else s'
      | _ => s.drew 1
    else s.drew 1
  .next (s'.modThr Thread.advance)

/-- A cache instruction translated as a load (R723 to R725). The breakpoint compares the one byte at the EA, though the instruction
works on a line: DESIGN CHOICE (log 35). -/
def cacheOp (s : State) (ea : DWord) (f : Nat → State → State) : Out State :=
  let ea := s.thr.truncEa ea
  (dataPiece s ea ea 1 false alignNone).done fun p s => .next ((f p.ra s).modThr Thread.advance)

/-- `icbi` drops the line of the instruction cache; with HID1[en_icbi] (bit 12, log 8) every line of the congruence
classes it looks at (20_memory R430). The rule does not say which those are: the lines that agree in the line number inside a 4 KB
page, DESIGN CHOICE (log 54). -/
def State.icbiLine (s : State) (ra : Nat) : State :=
  let keep (x : Nat × Nat) : Bool :=
    if ibit s.ppe.hid1 12 then decide (x.1 % 32 ≠ ra / 128 % 32) else decide (x.1 ≠ ra / 128)
  { s with ppe := { s.ppe with icache := s.ppe.icache.filter keep } }

/-! ## Fixed-point loads (section 2) -/

/-- `lbz`, R654. -/
def execPpeLbz (rt ra : BitVec 5) (d : BitVec 16) (s : State) : Out State :=
  loadGpr s (s.thr.eaD ra d) 1 (alignFixed s (s.thr.eaD ra d) 1) raw rt

/-- `lbzu`, R655. -/
def execPpeLbzu (rt ra : BitVec 5) (d : BitVec 16) (s : State) : Out State :=
  loadGprU s (s.thr.eaD ra d) 1 (alignFixed s (s.thr.eaD ra d) 1) raw rt ra

/-- `lbzx`, R656. -/
def execPpeLbzx (rt ra rb : BitVec 5) (s : State) : Out State :=
  loadGpr s (s.thr.eaX ra rb) 1 (alignFixed s (s.thr.eaX ra rb) 1) raw rt

/-- `lbzux`, R657. -/
def execPpeLbzux (rt ra rb : BitVec 5) (s : State) : Out State :=
  loadGprU s (s.thr.eaX ra rb) 1 (alignFixed s (s.thr.eaX ra rb) 1) raw rt ra

/-- `lhz`, R658. -/
def execPpeLhz (rt ra : BitVec 5) (d : BitVec 16) (s : State) : Out State :=
  loadGpr s (s.thr.eaD ra d) 2 (alignFixed s (s.thr.eaD ra d) 2) raw rt

/-- `lhzu`, R659. -/
def execPpeLhzu (rt ra : BitVec 5) (d : BitVec 16) (s : State) : Out State :=
  loadGprU s (s.thr.eaD ra d) 2 (alignFixed s (s.thr.eaD ra d) 2) raw rt ra

/-- `lhzx`, R660. -/
def execPpeLhzx (rt ra rb : BitVec 5) (s : State) : Out State :=
  loadGpr s (s.thr.eaX ra rb) 2 (alignFixed s (s.thr.eaX ra rb) 2) raw rt

/-- `lhzux`, R661. -/
def execPpeLhzux (rt ra rb : BitVec 5) (s : State) : Out State :=
  loadGprU s (s.thr.eaX ra rb) 2 (alignFixed s (s.thr.eaX ra rb) 2) raw rt ra

/-- `lha`, R662. -/
def execPpeLha (rt ra : BitVec 5) (d : BitVec 16) (s : State) : Out State :=
  loadGpr s (s.thr.eaD ra d) 2 (alignAlgebraic s (s.thr.eaD ra d) 2) (sextBytes 2) rt

/-- `lhau`, R663. -/
def execPpeLhau (rt ra : BitVec 5) (d : BitVec 16) (s : State) : Out State :=
  loadGprU s (s.thr.eaD ra d) 2 (alignAlgebraic s (s.thr.eaD ra d) 2) (sextBytes 2) rt ra

/-- `lhax`, R664. -/
def execPpeLhax (rt ra rb : BitVec 5) (s : State) : Out State :=
  loadGpr s (s.thr.eaX ra rb) 2 (alignAlgebraic s (s.thr.eaX ra rb) 2) (sextBytes 2) rt

/-- `lhaux`, R665. -/
def execPpeLhaux (rt ra rb : BitVec 5) (s : State) : Out State :=
  loadGprU s (s.thr.eaX ra rb) 2 (alignAlgebraic s (s.thr.eaX ra rb) 2) (sextBytes 2) rt ra

/-- `lwz`, R666. -/
def execPpeLwz (rt ra : BitVec 5) (d : BitVec 16) (s : State) : Out State :=
  loadGpr s (s.thr.eaD ra d) 4 (alignFixed s (s.thr.eaD ra d) 4) raw rt

/-- `lwzu`, R667. -/
def execPpeLwzu (rt ra : BitVec 5) (d : BitVec 16) (s : State) : Out State :=
  loadGprU s (s.thr.eaD ra d) 4 (alignFixed s (s.thr.eaD ra d) 4) raw rt ra

/-- `lwzx`, R668. -/
def execPpeLwzx (rt ra rb : BitVec 5) (s : State) : Out State :=
  loadGpr s (s.thr.eaX ra rb) 4 (alignFixed s (s.thr.eaX ra rb) 4) raw rt

/-- `lwzux`, R669. -/
def execPpeLwzux (rt ra rb : BitVec 5) (s : State) : Out State :=
  loadGprU s (s.thr.eaX ra rb) 4 (alignFixed s (s.thr.eaX ra rb) 4) raw rt ra

/-- `lwa`, R670. -/
def execPpeLwa (rt ra : BitVec 5) (ds : BitVec 14) (s : State) : Out State :=
  loadGpr s (s.thr.eaDs ra ds) 4 (alignAlgebraic s (s.thr.eaDs ra ds) 4) (sextBytes 4) rt

/-- `lwax`, R671. -/
def execPpeLwax (rt ra rb : BitVec 5) (s : State) : Out State :=
  loadGpr s (s.thr.eaX ra rb) 4 (alignAlgebraic s (s.thr.eaX ra rb) 4) (sextBytes 4) rt

/-- `lwaux`, R672. -/
def execPpeLwaux (rt ra rb : BitVec 5) (s : State) : Out State :=
  loadGprU s (s.thr.eaX ra rb) 4 (alignAlgebraic s (s.thr.eaX ra rb) 4) (sextBytes 4) rt ra

/-- `ld`, R673. -/
def execPpeLd (rt ra : BitVec 5) (ds : BitVec 14) (s : State) : Out State :=
  loadGpr s (s.thr.eaDs ra ds) 8 (alignFixed s (s.thr.eaDs ra ds) 8) raw rt

/-- `ldu`, R674. -/
def execPpeLdu (rt ra : BitVec 5) (ds : BitVec 14) (s : State) : Out State :=
  loadGprU s (s.thr.eaDs ra ds) 8 (alignFixed s (s.thr.eaDs ra ds) 8) raw rt ra

/-- `ldx`, R675. -/
def execPpeLdx (rt ra rb : BitVec 5) (s : State) : Out State :=
  loadGpr s (s.thr.eaX ra rb) 8 (alignFixed s (s.thr.eaX ra rb) 8) raw rt

/-- `ldux`, R676. -/
def execPpeLdux (rt ra rb : BitVec 5) (s : State) : Out State :=
  loadGprU s (s.thr.eaX ra rb) 8 (alignFixed s (s.thr.eaX ra rb) 8) raw rt ra

/-! ## Fixed-point stores (section 3) -/

/-- `stb`, R677. -/
def execPpeStb (rs ra : BitVec 5) (d : BitVec 16) (s : State) : Out State :=
  storeVal s (s.thr.eaD ra d) 1 (alignFixed s (s.thr.eaD ra d) 1) (s.thr.getGpr rs).toNat

/-- `stbu`, R678. -/
def execPpeStbu (rs ra : BitVec 5) (d : BitVec 16) (s : State) : Out State :=
  storeValU s (s.thr.eaD ra d) 1 (alignFixed s (s.thr.eaD ra d) 1) (s.thr.getGpr rs).toNat ra

/-- `stbx`, R679. -/
def execPpeStbx (rs ra rb : BitVec 5) (s : State) : Out State :=
  storeVal s (s.thr.eaX ra rb) 1 (alignFixed s (s.thr.eaX ra rb) 1) (s.thr.getGpr rs).toNat

/-- `stbux`, R680. -/
def execPpeStbux (rs ra rb : BitVec 5) (s : State) : Out State :=
  storeValU s (s.thr.eaX ra rb) 1 (alignFixed s (s.thr.eaX ra rb) 1) (s.thr.getGpr rs).toNat ra

/-- `sth`, R681. -/
def execPpeSth (rs ra : BitVec 5) (d : BitVec 16) (s : State) : Out State :=
  storeVal s (s.thr.eaD ra d) 2 (alignFixed s (s.thr.eaD ra d) 2) (s.thr.getGpr rs).toNat

/-- `sthu`, R682. -/
def execPpeSthu (rs ra : BitVec 5) (d : BitVec 16) (s : State) : Out State :=
  storeValU s (s.thr.eaD ra d) 2 (alignFixed s (s.thr.eaD ra d) 2) (s.thr.getGpr rs).toNat ra

/-- `sthx`, R683. -/
def execPpeSthx (rs ra rb : BitVec 5) (s : State) : Out State :=
  storeVal s (s.thr.eaX ra rb) 2 (alignFixed s (s.thr.eaX ra rb) 2) (s.thr.getGpr rs).toNat

/-- `sthux`, R684. -/
def execPpeSthux (rs ra rb : BitVec 5) (s : State) : Out State :=
  storeValU s (s.thr.eaX ra rb) 2 (alignFixed s (s.thr.eaX ra rb) 2) (s.thr.getGpr rs).toNat ra

/-- `stw`, R685. -/
def execPpeStw (rs ra : BitVec 5) (d : BitVec 16) (s : State) : Out State :=
  storeVal s (s.thr.eaD ra d) 4 (alignFixed s (s.thr.eaD ra d) 4) (s.thr.getGpr rs).toNat

/-- `stwu`, R686. -/
def execPpeStwu (rs ra : BitVec 5) (d : BitVec 16) (s : State) : Out State :=
  storeValU s (s.thr.eaD ra d) 4 (alignFixed s (s.thr.eaD ra d) 4) (s.thr.getGpr rs).toNat ra

/-- `stwx`, R687. -/
def execPpeStwx (rs ra rb : BitVec 5) (s : State) : Out State :=
  storeVal s (s.thr.eaX ra rb) 4 (alignFixed s (s.thr.eaX ra rb) 4) (s.thr.getGpr rs).toNat

/-- `stwux`, R688. -/
def execPpeStwux (rs ra rb : BitVec 5) (s : State) : Out State :=
  storeValU s (s.thr.eaX ra rb) 4 (alignFixed s (s.thr.eaX ra rb) 4) (s.thr.getGpr rs).toNat ra

/-- `std`, R689. -/
def execPpeStd (rs ra : BitVec 5) (ds : BitVec 14) (s : State) : Out State :=
  storeVal s (s.thr.eaDs ra ds) 8 (alignFixed s (s.thr.eaDs ra ds) 8) (s.thr.getGpr rs).toNat

/-- `stdu`, R690. -/
def execPpeStdu (rs ra : BitVec 5) (ds : BitVec 14) (s : State) : Out State :=
  storeValU s (s.thr.eaDs ra ds) 8 (alignFixed s (s.thr.eaDs ra ds) 8) (s.thr.getGpr rs).toNat ra

/-- `stdx`, R691. -/
def execPpeStdx (rs ra rb : BitVec 5) (s : State) : Out State :=
  storeVal s (s.thr.eaX ra rb) 8 (alignFixed s (s.thr.eaX ra rb) 8) (s.thr.getGpr rs).toNat

/-- `stdux`, R692. -/
def execPpeStdux (rs ra rb : BitVec 5) (s : State) : Out State :=
  storeValU s (s.thr.eaX ra rb) 8 (alignFixed s (s.thr.eaX ra rb) 8) (s.thr.getGpr rs).toNat ra

/-! ## Byte reversal (section 4) -/

/-- `lhbrx`, R693. -/
def execPpeLhbrx (rt ra rb : BitVec 5) (s : State) : Out State :=
  loadGpr s (s.thr.eaX ra rb) 2 (alignFixed s (s.thr.eaX ra rb) 2) (fun v => raw (revBytes 2 v)) rt

/-- `lwbrx`, R694. -/
def execPpeLwbrx (rt ra rb : BitVec 5) (s : State) : Out State :=
  loadGpr s (s.thr.eaX ra rb) 4 (alignFixed s (s.thr.eaX ra rb) 4) (fun v => raw (revBytes 4 v)) rt

/-- `ldbrx`, R695. -/
def execPpeLdbrx (rt ra rb : BitVec 5) (s : State) : Out State :=
  loadGpr s (s.thr.eaX ra rb) 8 (alignFixed s (s.thr.eaX ra rb) 8) (fun v => raw (revBytes 8 v)) rt

/-- `sthbrx`, R696. -/
def execPpeSthbrx (rs ra rb : BitVec 5) (s : State) : Out State :=
  storeVal s (s.thr.eaX ra rb) 2 (alignFixed s (s.thr.eaX ra rb) 2) (revBytes 2 (s.thr.getGpr rs).toNat)

/-- `stwbrx`, R697. -/
def execPpeStwbrx (rs ra rb : BitVec 5) (s : State) : Out State :=
  storeVal s (s.thr.eaX ra rb) 4 (alignFixed s (s.thr.eaX ra rb) 4) (revBytes 4 (s.thr.getGpr rs).toNat)

/-- `stdbrx`, R698. -/
def execPpeStdbrx (rs ra rb : BitVec 5) (s : State) : Out State :=
  storeVal s (s.thr.eaX ra rb) 8 (alignFixed s (s.thr.eaX ra rb) 8) (revBytes 8 (s.thr.getGpr rs).toNat)

/-! ## Multiples and strings (section 5) -/

/-- `lmw`, R704. -/
def execPpeLmw (rt ra : BitVec 5) (d : BitVec 16) (s : State) : Out State :=
  let ea := s.thr.eaD ra d
  let n := if rt.toNat ≤ ra.toNat then ra.toNat - rt.toNat else 32 - rt.toNat
  let al := alignMultiple s ea (32 - rt.toNat)
  if n = 0 && al.before then s.alignInt (s.thr.truncEa ea)
  else loadParts s (s.thr.truncEa ea) al (s.thr.partsFrom ea 4 n)
    (fun vs s => s.modThr fun th => th.setWords rt.toNat vs)
    fun s => if rt.toNat ≤ ra.toNat then s.illegal else .next (s.modThr Thread.advance)

/-- `stmw`, R705. -/
def execPpeStmw (rs ra : BitVec 5) (d : BitVec 16) (s : State) : Out State :=
  let ea := s.thr.eaD ra d
  storeParts s (s.thr.truncEa ea) (alignMultiple s ea (32 - rs.toNat))
    ((List.range (32 - rs.toNat)).map fun k =>
      (s.thr.truncEa (ea + BitVec.ofNat 64 (4 * k)), 4, (lowWord (s.thr.getGpr (BitVec.ofNat 5 (rs.toNat + k)))).toNat))
    fun s => s.modThr Thread.advance

/-- `lswi`, R706. -/
def execPpeLswi (rt ra nb : BitVec 5) (s : State) : Out State :=
  loadString s rt [ra] (s.thr.raOr0 ra) (stringLen nb)

/-- `lswx`, R707. A count of 0 leaves RT unchanged (D71). -/
def execPpeLswx (rt ra rb : BitVec 5) (s : State) : Out State :=
  if rt = ra ∨ rt = rb then s.illegal
  else loadString s rt [ra, rb] (s.thr.eaX ra rb) s.thr.xerCount

/-- `stswi`, R708. -/
def execPpeStswi (rs ra nb : BitVec 5) (s : State) : Out State :=
  storeString s rs (s.thr.raOr0 ra) (stringLen nb)

/-- `stswx`, R709. -/
def execPpeStswx (rs ra rb : BitVec 5) (s : State) : Out State :=
  storeString s rs (s.thr.eaX ra rb) s.thr.xerCount

/-! ## Reservations (section 6) -/

/-- `lwarx`, R712. -/
def execPpeLwarx (rt ra rb : BitVec 5) (s : State) : Out State :=
  loadReserve s (s.thr.eaX ra rb) 4 rt

/-- `ldarx`, R713. -/
def execPpeLdarx (rt ra rb : BitVec 5) (s : State) : Out State :=
  loadReserve s (s.thr.eaX ra rb) 8 rt

/-- `stwcx.`, R714. -/
def execPpeStwcxDot (rs ra rb : BitVec 5) (s : State) : Out State :=
  storeConditional s (s.thr.eaX ra rb) 4 (lowWord (s.thr.getGpr rs)).toNat

/-- `stdcx.`, R715. -/
def execPpeStdcxDot (rs ra rb : BitVec 5) (s : State) : Out State :=
  storeConditional s (s.thr.eaX ra rb) 8 (s.thr.getGpr rs).toNat

/-! ## Cache instructions (section 7) -/

/-- `dcbt`, R720. The TH forms: 20_memory R432. -/
def execPpeDcbt (th : BitVec 4) (ra rb : BitVec 5) (s : State) : Out State := touch s th (s.thr.eaX ra rb) false

/-- `dcbtst`, R721. -/
def execPpeDcbtst (ra rb : BitVec 5) (s : State) : Out State :=
  touch s 0 (s.thr.eaX ra rb) true

/-- `dcbz`, R722. A data storage or data segment interrupt puts the address of the line (or of the byte that the breakpoint matches)
into DAR, an alignment interrupt the effective address as computed: DESIGN CHOICE (log 46). -/
def execPpeDcbz (ra rb : BitVec 5) (s : State) : Out State :=
  let ea := s.thr.truncEa (s.thr.eaX ra rb)
  (dataPiece s ea (ea &&& ~~~127#64) 128 true (alignDcbz s)).done fun p s =>
    (realStore s p 128 0).done fun _ s => .next (s.modThr Thread.advance)

/-- `dcbst`, R723. -/
def execPpeDcbst (ra rb : BitVec 5) (s : State) : Out State :=
  cacheOp s (s.thr.eaX ra rb) fun a s => s.noteTouch (a / 128)

/-- `dcbf`, R724. -/
def execPpeDcbf (ra rb : BitVec 5) (s : State) : Out State :=
  cacheOp s (s.thr.eaX ra rb) fun a s => s.noteTouch (a / 128)

/-- `icbi`, R725. -/
def execPpeIcbi (ra rb : BitVec 5) (s : State) : Out State :=
  cacheOp s (s.thr.eaX ra rb) fun a s => s.icbiLine a

/-! ## Floating-point loads and stores (section 8) -/

/-- `lfs`, R730. -/
def execPpeLfs (frt ra : BitVec 5) (d : BitVec 16) (s : State) : Out State :=
  loadFpr s (s.thr.eaD ra d) 4 dbl frt

/-- `lfsu`, R731. -/
def execPpeLfsu (frt ra : BitVec 5) (d : BitVec 16) (s : State) : Out State :=
  loadFprU s (s.thr.eaD ra d) 4 dbl frt ra

/-- `lfsx`, R732. -/
def execPpeLfsx (frt ra rb : BitVec 5) (s : State) : Out State :=
  loadFpr s (s.thr.eaX ra rb) 4 dbl frt

/-- `lfsux`, R733. -/
def execPpeLfsux (frt ra rb : BitVec 5) (s : State) : Out State :=
  loadFprU s (s.thr.eaX ra rb) 4 dbl frt ra

/-- `lfd`, R734. -/
def execPpeLfd (frt ra : BitVec 5) (d : BitVec 16) (s : State) : Out State :=
  loadFpr s (s.thr.eaD ra d) 8 raw frt

/-- `lfdu`, R735. -/
def execPpeLfdu (frt ra : BitVec 5) (d : BitVec 16) (s : State) : Out State :=
  loadFprU s (s.thr.eaD ra d) 8 raw frt ra

/-- `lfdx`, R736. -/
def execPpeLfdx (frt ra rb : BitVec 5) (s : State) : Out State :=
  loadFpr s (s.thr.eaX ra rb) 8 raw frt

/-- `lfdux`, R737. -/
def execPpeLfdux (frt ra rb : BitVec 5) (s : State) : Out State :=
  loadFprU s (s.thr.eaX ra rb) 8 raw frt ra

/-- `stfs`, R738. -/
def execPpeStfs (frs ra : BitVec 5) (d : BitVec 16) (s : State) : Out State :=
  fpGuard s (
    let (v, s) := s.singleWord (s.thr.getFpr frs)
    storeVal s (s.thr.eaD ra d) 4 (alignFloat s (s.thr.eaD ra d) 4) v)

/-- `stfsu`, R716. -/
def execPpeStfsu (frs ra : BitVec 5) (d : BitVec 16) (s : State) : Out State :=
  fpGuard s (
    let (v, s) := s.singleWord (s.thr.getFpr frs)
    storeValU s (s.thr.eaD ra d) 4 (alignFloat s (s.thr.eaD ra d) 4) v ra)

/-- `stfsx`, R717. -/
def execPpeStfsx (frs ra rb : BitVec 5) (s : State) : Out State :=
  fpGuard s (
    let (v, s) := s.singleWord (s.thr.getFpr frs)
    storeVal s (s.thr.eaX ra rb) 4 (alignFloat s (s.thr.eaX ra rb) 4) v)

/-- `stfsux`, R718. -/
def execPpeStfsux (frs ra rb : BitVec 5) (s : State) : Out State :=
  fpGuard s (
    let (v, s) := s.singleWord (s.thr.getFpr frs)
    storeValU s (s.thr.eaX ra rb) 4 (alignFloat s (s.thr.eaX ra rb) 4) v ra)

/-- `stfd`, R726. -/
def execPpeStfd (frs ra : BitVec 5) (d : BitVec 16) (s : State) : Out State :=
  fpGuard s (storeVal s (s.thr.eaD ra d) 8 (alignFloat s (s.thr.eaD ra d) 8) (s.thr.getFpr frs).toNat 8)

/-- `stfdu`, R727. -/
def execPpeStfdu (frs ra : BitVec 5) (d : BitVec 16) (s : State) : Out State :=
  fpGuard s (storeValU s (s.thr.eaD ra d) 8 (alignFloat s (s.thr.eaD ra d) 8) (s.thr.getFpr frs).toNat ra 8)

/-- `stfdx`, R728. -/
def execPpeStfdx (frs ra rb : BitVec 5) (s : State) : Out State :=
  fpGuard s (storeVal s (s.thr.eaX ra rb) 8 (alignFloat s (s.thr.eaX ra rb) 8) (s.thr.getFpr frs).toNat 8)

/-- `stfdux`, R729. -/
def execPpeStfdux (frs ra rb : BitVec 5) (s : State) : Out State :=
  fpGuard s (storeValU s (s.thr.eaX ra rb) 8 (alignFloat s (s.thr.eaX ra rb) 8) (s.thr.getFpr frs).toNat ra 8)

/-- `stfiwx`, R739. -/
def execPpeStfiwx (frs ra rb : BitVec 5) (s : State) : Out State :=
  fpGuard s (storeVal s (s.thr.eaX ra rb) 4 (alignFloat s (s.thr.eaX ra rb) 4) (s.thr.getFpr frs).toNat)

end Sys2Proof.Machine
end

