-- ==== Sys2Proof/Machine/SpuCompare.lean ====
section
/-! DEFINITION. SPU compare instructions (48_spu_compare_branch.md section 1): each element of the result is all ones where the
relation holds and all zeros elsewhere (R1400). -/

namespace Sys2Proof.Machine

/-- `ceqb`, R1410. -/
def execSpuCeqb (rt ra rb : BitVec 7) (s : State) : Out State :=
  spuNext s fun p => p.set rt (zipEls 8 16 (fun a b => maskOf 8 (a == b)) (p.get ra) (p.get rb))

/-- `ceqbi`, R1411. -/
def execSpuCeqbi (rt ra : BitVec 7) (i10 : BitVec 10) (s : State) : Out State :=
  spuNext s fun p => p.set rt (mapEls 8 16 (fun a => maskOf 8 (a == i10.setWidth 8)) (p.get ra))

/-- `cgtb`, R1416. -/
def execSpuCgtb (rt ra rb : BitVec 7) (s : State) : Out State :=
  spuNext s fun p => p.set rt (zipEls 8 16 (fun a b => maskOf 8 ((b).slt a)) (p.get ra) (p.get rb))

/-- `cgtbi`, R1417. -/
def execSpuCgtbi (rt ra : BitVec 7) (i10 : BitVec 10) (s : State) : Out State :=
  spuNext s fun p => p.set rt (mapEls 8 16 (fun a => maskOf 8 ((i10.setWidth 8).slt a)) (p.get ra))

/-- `clgtb`, R1422. -/
def execSpuClgtb (rt ra rb : BitVec 7) (s : State) : Out State :=
  spuNext s fun p => p.set rt (zipEls 8 16 (fun a b => maskOf 8 ((b).ult a)) (p.get ra) (p.get rb))

/-- `clgtbi`, R1423. -/
def execSpuClgtbi (rt ra : BitVec 7) (i10 : BitVec 10) (s : State) : Out State :=
  spuNext s fun p => p.set rt (mapEls 8 16 (fun a => maskOf 8 ((i10.setWidth 8).ult a)) (p.get ra))

/-- `ceqh`, R1412. -/
def execSpuCeqh (rt ra rb : BitVec 7) (s : State) : Out State :=
  spuNext s fun p => p.set rt (zipEls 16 8 (fun a b => maskOf 16 (a == b)) (p.get ra) (p.get rb))

/-- `ceqhi`, R1413. -/
def execSpuCeqhi (rt ra : BitVec 7) (i10 : BitVec 10) (s : State) : Out State :=
  spuNext s fun p => p.set rt (mapEls 16 8 (fun a => maskOf 16 (a == i10.signExtend 16)) (p.get ra))

/-- `cgth`, R1418. -/
def execSpuCgth (rt ra rb : BitVec 7) (s : State) : Out State :=
  spuNext s fun p => p.set rt (zipEls 16 8 (fun a b => maskOf 16 ((b).slt a)) (p.get ra) (p.get rb))

/-- `cgthi`, R1419. -/
def execSpuCgthi (rt ra : BitVec 7) (i10 : BitVec 10) (s : State) : Out State :=
  spuNext s fun p => p.set rt (mapEls 16 8 (fun a => maskOf 16 ((i10.signExtend 16).slt a)) (p.get ra))

/-- `clgth`, R1424. -/
def execSpuClgth (rt ra rb : BitVec 7) (s : State) : Out State :=
  spuNext s fun p => p.set rt (zipEls 16 8 (fun a b => maskOf 16 ((b).ult a)) (p.get ra) (p.get rb))

/-- `clgthi`, R1425. -/
def execSpuClgthi (rt ra : BitVec 7) (i10 : BitVec 10) (s : State) : Out State :=
  spuNext s fun p => p.set rt (mapEls 16 8 (fun a => maskOf 16 ((i10.signExtend 16).ult a)) (p.get ra))

/-- `ceq`, R1414. -/
def execSpuCeq (rt ra rb : BitVec 7) (s : State) : Out State :=
  spuNext s fun p => p.set rt (zipEls 32 4 (fun a b => maskOf 32 (a == b)) (p.get ra) (p.get rb))

/-- `ceqi`, R1415. -/
def execSpuCeqi (rt ra : BitVec 7) (i10 : BitVec 10) (s : State) : Out State :=
  spuNext s fun p => p.set rt (mapEls 32 4 (fun a => maskOf 32 (a == i10.signExtend 32)) (p.get ra))

/-- `cgt`, R1420. -/
def execSpuCgt (rt ra rb : BitVec 7) (s : State) : Out State :=
  spuNext s fun p => p.set rt (zipEls 32 4 (fun a b => maskOf 32 ((b).slt a)) (p.get ra) (p.get rb))

/-- `cgti`, R1421. -/
def execSpuCgti (rt ra : BitVec 7) (i10 : BitVec 10) (s : State) : Out State :=
  spuNext s fun p => p.set rt (mapEls 32 4 (fun a => maskOf 32 ((i10.signExtend 32).slt a)) (p.get ra))

/-- `clgt`, R1428. -/
def execSpuClgt (rt ra rb : BitVec 7) (s : State) : Out State :=
  spuNext s fun p => p.set rt (zipEls 32 4 (fun a b => maskOf 32 ((b).ult a)) (p.get ra) (p.get rb))

/-- `clgti`, R1429. -/
def execSpuClgti (rt ra : BitVec 7) (i10 : BitVec 10) (s : State) : Out State :=
  spuNext s fun p => p.set rt (mapEls 32 4 (fun a => maskOf 32 ((i10.signExtend 32).ult a)) (p.get ra))

end Sys2Proof.Machine
end

