-- ==== Sys2Proof/Machine/SpuControl.lean ====
section
/-! DEFINITION. SPU halts, branches, branch hints, stop, no-operations, synchronization, special-purpose registers and channel
instructions (48_spu_compare_branch.md sections 2 to 5, 49_spu_control_channel.md). -/

namespace Sys2Proof.Machine

/-- `heq`, R1401. -/
def execSpuHeq (ra rb : BitVec 7) (s : State) : Out State :=
  haltIf s (s.spe.pref ra == s.spe.pref rb)

/-- `heqi`, R1402. -/
def execSpuHeqi (ra : BitVec 7) (i10 : BitVec 10) (s : State) : Out State :=
  haltIf s (s.spe.pref ra == i10.signExtend 32)

/-- `hgt`, R1403. -/
def execSpuHgt (ra rb : BitVec 7) (s : State) : Out State :=
  haltIf s ((s.spe.pref rb).slt (s.spe.pref ra))

/-- `hgti`, R1404. -/
def execSpuHgti (ra : BitVec 7) (i10 : BitVec 10) (s : State) : Out State :=
  haltIf s ((i10.signExtend 32).slt (s.spe.pref ra))

/-- `hlgt`, R1405. -/
def execSpuHlgt (ra rb : BitVec 7) (s : State) : Out State :=
  haltIf s ((s.spe.pref rb).ult (s.spe.pref ra))

/-- `hlgti`, R1406. -/
def execSpuHlgti (ra : BitVec 7) (i10 : BitVec 10) (s : State) : Out State :=
  haltIf s ((i10.signExtend 32).ult (s.spe.pref ra))

/-- `br`, R1441. -/
def execSpuBr (i16 : BitVec 16) (s : State) : Out State :=
  .next (s.modSpe fun p => p.branchTo true (p.relTarget i16))

/-- `bra`, R1442. -/
def execSpuBra (i16 : BitVec 16) (s : State) : Out State :=
  .next (s.modSpe fun p => p.branchTo true (p.absTarget i16))

/-- `brsl`, R1443. -/
def execSpuBrsl (rt : BitVec 7) (i16 : BitVec 16) (s : State) : Out State :=
  .next (s.modSpe fun p => (p.setLink rt).branchTo true (p.relTarget i16))

/-- `brasl`, R1444. -/
def execSpuBrasl (rt : BitVec 7) (i16 : BitVec 16) (s : State) : Out State :=
  .next (s.modSpe fun p => (p.setLink rt).branchTo true (p.absTarget i16))

/-- `brnz`, R1445. -/
def execSpuBrnz (rt : BitVec 7) (i16 : BitVec 16) (s : State) : Out State :=
  .next (s.modSpe fun p => p.branchTo (p.pref rt != 0) (p.relTarget i16))

/-- `brz`, R1447. -/
def execSpuBrz (rt : BitVec 7) (i16 : BitVec 16) (s : State) : Out State :=
  .next (s.modSpe fun p => p.branchTo (p.pref rt == 0) (p.relTarget i16))

/-- `brhnz`, R1446. -/
def execSpuBrhnz (rt : BitVec 7) (i16 : BitVec 16) (s : State) : Out State :=
  .next (s.modSpe fun p => p.branchTo (p.prefHalf rt != 0) (p.relTarget i16))

/-- `brhz`, R1448. -/
def execSpuBrhz (rt : BitVec 7) (i16 : BitVec 16) (s : State) : Out State :=
  .next (s.modSpe fun p => p.branchTo (p.prefHalf rt == 0) (p.relTarget i16))

/-- `bi`, R1450. -/
def execSpuBi (ra : BitVec 7) (d e : Bool) (s : State) : Out State :=
  branchIndirect s d e fun p => (true, p.target (p.pref ra), p)

/-- `bisl`, R1451. -/
def execSpuBisl (rt ra : BitVec 7) (d e : Bool) (s : State) : Out State :=
  branchIndirect s d e fun p => (true, p.target (p.pref ra), p.setLink rt)

/-- `bisled`, R1452. The link is written whether or not the branch is taken. -/
def execSpuBisled (rt ra : BitVec 7) (d e : Bool) (s : State) : Out State :=
  branchIndirect s d e fun p => (p.count 0 != 0, p.target (p.pref ra), p.setLink rt)

/-- `biz`, R1453. -/
def execSpuBiz (rt ra : BitVec 7) (d e : Bool) (s : State) : Out State :=
  branchIndirect s d e fun p => (p.pref rt == 0, p.target (p.pref ra), p)

/-- `binz`, R1454. -/
def execSpuBinz (rt ra : BitVec 7) (d e : Bool) (s : State) : Out State :=
  branchIndirect s d e fun p => (p.pref rt != 0, p.target (p.pref ra), p)

/-- `bihz`, R1455. -/
def execSpuBihz (rt ra : BitVec 7) (d e : Bool) (s : State) : Out State :=
  branchIndirect s d e fun p => (p.prefHalf rt == 0, p.target (p.pref ra), p)

/-- `bihnz`, R1456. -/
def execSpuBihnz (rt ra : BitVec 7) (d e : Bool) (s : State) : Out State :=
  branchIndirect s d e fun p => (p.prefHalf rt != 0, p.target (p.pref ra), p)

/-- `iret`, R1457. The operand is not used. -/
def execSpuIret (ra : BitVec 7) (d e : Bool) (s : State) : Out State :=
  branchIndirect s.drewSrr0 d e fun p => (true, p.target s.seenSrr0, p)

/-- `hbr`, R1466. Hints have no program-visible effect (R1465). -/
def execSpuHbr (ra : BitVec 7) (off : BitVec 9) (s : State) : Out State :=
  spuNext s id

/-- `hbrp`, R1469. Hints have no program-visible effect (R1465). -/
def execSpuHbrp (ra : BitVec 7) (off : BitVec 9) (s : State) : Out State :=
  spuNext s id

/-- `hbra`, R1467. Hints have no program-visible effect (R1465). -/
def execSpuHbra (i16 : BitVec 16) (off : BitVec 9) (s : State) : Out State :=
  spuNext s id

/-- `hbrr`, R1468. Hints have no program-visible effect (R1465). -/
def execSpuHbrr (i16 : BitVec 16) (off : BitVec 9) (s : State) : Out State :=
  spuNext s id

/-- `stop`, R1551. -/
def execSpuStop (sig : BitVec 14) (s : State) : Out State :=
  s.stopSignal sig

/-- `stopd`, R1552. The operands are awaited, not used. -/
def execSpuStopd (ra rb rc : BitVec 7) (s : State) : Out State :=
  s.stopSignal 0x3FFF

/-- `lnop`, R1559. -/
def execSpuLnop (s : State) : Out State :=
  spuNext s id

/-- `nop`, R1558. -/
def execSpuNop (s : State) : Out State :=
  spuNext s id

/-- `sync`, R1570. The prefetched instructions are discarded (70_reset_and_hazards R2092). -/
def execSpuSync (s : State) : Out State :=
  spuNext s fun p => { p with ibuf := [] }

/-- `syncc`, R1571. Earlier channel writes are complete (R1566). -/
def execSpuSyncc (s : State) : Out State :=
  spuNext s fun p => { p with ibuf := [], srr0Old := none }

/-- `dsync`, R1572. D59. -/
def execSpuDsync (s : State) : Out State :=
  spuNext s id

/-- `mfspr`, R1575. No special-purpose register exists. -/
def execSpuMfspr (rt sa : BitVec 7) (s : State) : Out State :=
  spuNext s fun p => p.set rt 0

/-- `mtspr`, R1576. -/
def execSpuMtspr (rt sa : BitVec 7) (s : State) : Out State :=
  spuNext s id

/-- `rdch`, R1560. A stalled read leaves the pc and sets SPU_Status[W]. -/
def execSpuRdch (rt ca : BitVec 7) (s : State) : Out State :=
  let ch := ca.toNat
  if !readableChannel ch then spuNext s fun p => p.set rt 0
  else if blockingChannel ch && decide (s.spe.count ch = 0) then .next (s.modSpe fun p => p.waiting true)
  else (readChannel s ch).done fun v s => spuNext s fun p => (p.waiting false).set rt (prefQ v)

/-- `rchcnt`, R1562. -/
def execSpuRchcnt (rt ca : BitVec 7) (s : State) : Out State :=
  spuNext s fun p => p.set rt (prefQ (p.rchcnt ca.toNat))

/-- `wrch`, R1561. A stalled write leaves the pc and sets SPU_Status[W]. -/
def execSpuWrch (rt ca : BitVec 7) (s : State) : Out State :=
  let ch := ca.toNat
  let v := s.spe.pref rt
  if !writableChannel ch then spuNext s id
  else if writeWaits s.spe ch v then .next (s.modSpe fun p => p.waiting true)
  else (writeChannel s ch v).done fun _ s => spuNext s fun p => p.waiting false

end Sys2Proof.Machine
end

