-- ==== Sys2Proof/Machine/VmxPermute.lean ====
section
/-! DEFINITION. Vector permute, merge, splat, pack, logical, rotate and shift instructions (45_ppe_vmx_1.md sections 3 and 4). -/

namespace Sys2Proof.Machine

/-- The 32-byte concatenation `(a || b)`, elements of `len` bits (45_ppe_vmx_1 R1001). -/
def el2 (len : Nat) (a b : QWord) (i : Nat) : BitVec len :=
  if i < 128 / len then el len a i else el len b (i - 128 / len)
/-- Elements with saturation: the quadword, and whether any clamp changed a value (45_ppe_vmx_2 R1100). -/
def satEls (len cnt : Nat) (f : Nat → BitVec len × Bool) : QWord × Bool :=
  (buildEls len cnt fun i => (f i).1, anyUpTo (fun i => (f i).2) cnt)
/-- Write a saturated result and VSCR[SAT]. -/
def Thread.setSat (th : Thread) (vrt : BitVec 5) (r : QWord × Bool) : Thread := (th.setVr vrt r.1).saturateIf r.2
/-- A pixel of 16 bits from a word (R1055). -/
def packPixel (w : Word) : Half := ibm w 7 1 ++ ibm w 8 5 ++ ibm w 16 5 ++ ibm w 24 5
/-- A word from a pixel (R1060). -/
def unpackPixel (h : Half) : Word :=
  (ibm h 0 1).signExtend 8 ++ (ibm h 1 5).setWidth 8 ++ (ibm h 6 5).setWidth 8 ++ (ibm h 11 5).setWidth 8
/-- The low three bits of every byte of the count equal those of the last byte (R1079). -/
def uniformCount (b : QWord) : Bool := !anyUpTo (fun i => ibm (el 8 b i) 5 3 != ibm (el 8 b 15) 5 3) 16
/-- A whole-register shift: the result is free when the counts of the bytes differ (U56). -/
def vmxShift (vrt vrb : BitVec 5) (f : Nat → QWord) (s : State) : Out State :=
  let b := s.thr.getVr vrb
  if uniformCount b then vmxNext s fun th => th.setVr vrt (f (ibm b 125 3).toNat)
  else if s.thr.vxu then vmxNext (s.drew 1) fun th => th.setVr vrt (s.free 128 0)
  else vmxNext s id

/-! ## Permute, select, shift by octet -/

/-- `vperm`, R1030. -/
def execPpeVperm (vrt vra vrb vrc : BitVec 5) (s : State) : Out State :=
  vmxNext s fun th =>
    th.setVr vrt (mapEls 8 16 (fun c => el2 8 (th.getVr vra) (th.getVr vrb) (c.toNat % 32)) (th.getVr vrc))

/-- `vsel`, R1031. -/
def execPpeVsel (vrt vra vrb vrc : BitVec 5) (s : State) : Out State :=
  vmxNext s fun th => th.setVr vrt ((th.getVr vra &&& ~~~(th.getVr vrc)) ||| (th.getVr vrb &&& th.getVr vrc))

/-- `vsldoi`, R1032. -/
def execPpeVsldoi (vrt vra vrb : BitVec 5) (shb : BitVec 4) (s : State) : Out State :=
  vmxNext s fun th => th.setVr vrt (buildEls 8 16 fun i => el2 8 (th.getVr vra) (th.getVr vrb) (shb.toNat + i))

/-- `vslo`, R1033. -/
def execPpeVslo (vrt vra vrb : BitVec 5) (s : State) : Out State :=
  vmxNext s fun th => th.setVr vrt (th.getVr vra <<< (8 * (ibm (th.getVr vrb) 121 4).toNat))

/-- `vsro`, R1034. -/
def execPpeVsro (vrt vra vrb : BitVec 5) (s : State) : Out State :=
  vmxNext s fun th => th.setVr vrt (th.getVr vra >>> (8 * (ibm (th.getVr vrb) 121 4).toNat))

/-! ## Merge and splat -/

/-- `vmrghb`, R1035. -/
def execPpeVmrghb (vrt vra vrb : BitVec 5) (s : State) : Out State :=
  vmxNext s fun th =>
    th.setVr vrt (buildEls 8 16 fun i => if i % 2 = 0 then el 8 (th.getVr vra) (i / 2) else el 8 (th.getVr vrb) (i / 2))

/-- `vmrghh`, R1036. -/
def execPpeVmrghh (vrt vra vrb : BitVec 5) (s : State) : Out State :=
  vmxNext s fun th =>
    th.setVr vrt (buildEls 16 8 fun i => if i % 2 = 0 then el 16 (th.getVr vra) (i / 2) else el 16 (th.getVr vrb) (i / 2))

/-- `vmrghw`, R1037. -/
def execPpeVmrghw (vrt vra vrb : BitVec 5) (s : State) : Out State :=
  vmxNext s fun th =>
    th.setVr vrt (buildEls 32 4 fun i => if i % 2 = 0 then el 32 (th.getVr vra) (i / 2) else el 32 (th.getVr vrb) (i / 2))

/-- `vmrglb`, R1038. -/
def execPpeVmrglb (vrt vra vrb : BitVec 5) (s : State) : Out State :=
  vmxNext s fun th =>
    th.setVr vrt (buildEls 8 16 fun i => if i % 2 = 0 then el 8 (th.getVr vra) (i / 2 + 8) else el 8 (th.getVr vrb) (i / 2 + 8))

/-- `vmrglh`, R1039. -/
def execPpeVmrglh (vrt vra vrb : BitVec 5) (s : State) : Out State :=
  vmxNext s fun th =>
    th.setVr vrt (buildEls 16 8 fun i => if i % 2 = 0 then el 16 (th.getVr vra) (i / 2 + 4) else el 16 (th.getVr vrb) (i / 2 + 4))

/-- `vmrglw`, R1040. -/
def execPpeVmrglw (vrt vra vrb : BitVec 5) (s : State) : Out State :=
  vmxNext s fun th =>
    th.setVr vrt (buildEls 32 4 fun i => if i % 2 = 0 then el 32 (th.getVr vra) (i / 2 + 2) else el 32 (th.getVr vrb) (i / 2 + 2))

/-- `vspltb`, R1041. -/
def execPpeVspltb (vrt vrb uim : BitVec 5) (s : State) : Out State :=
  vmxNext s fun th => th.setVr vrt (buildEls 8 16 fun _ => el 8 (th.getVr vrb) (uim.toNat % 16))

/-- `vsplth`, R1042. -/
def execPpeVsplth (vrt vrb uim : BitVec 5) (s : State) : Out State :=
  vmxNext s fun th => th.setVr vrt (buildEls 16 8 fun _ => el 16 (th.getVr vrb) (uim.toNat % 8))

/-- `vspltw`, R1043. -/
def execPpeVspltw (vrt vrb uim : BitVec 5) (s : State) : Out State :=
  vmxNext s fun th => th.setVr vrt (buildEls 32 4 fun _ => el 32 (th.getVr vrb) (uim.toNat % 4))

/-- `vspltisb`, R1044. -/
def execPpeVspltisb (vrt simm : BitVec 5) (s : State) : Out State :=
  vmxNext s fun th => th.setVr vrt (buildEls 8 16 fun _ => simm.signExtend 8)

/-- `vspltish`, R1045. -/
def execPpeVspltish (vrt simm : BitVec 5) (s : State) : Out State :=
  vmxNext s fun th => th.setVr vrt (buildEls 16 8 fun _ => simm.signExtend 16)

/-- `vspltisw`, R1046. -/
def execPpeVspltisw (vrt simm : BitVec 5) (s : State) : Out State :=
  vmxNext s fun th => th.setVr vrt (buildEls 32 4 fun _ => simm.signExtend 32)

/-! ## Pack and unpack -/

/-- `vpkuhum`, R1047. -/
def execPpeVpkuhum (vrt vra vrb : BitVec 5) (s : State) : Out State :=
  vmxNext s fun th => th.setVr vrt (buildEls 8 16 fun i => (el2 16 (th.getVr vra) (th.getVr vrb) i).setWidth 8)

/-- `vpkuwum`, R1048. -/
def execPpeVpkuwum (vrt vra vrb : BitVec 5) (s : State) : Out State :=
  vmxNext s fun th =>
    th.setVr vrt (buildEls 16 8 fun i => (el2 32 (th.getVr vra) (th.getVr vrb) i).setWidth 16)

/-- `vpkuhus`, R1049. -/
def execPpeVpkuhus (vrt vra vrb : BitVec 5) (s : State) : Out State :=
  vmxNext s fun th =>
    th.setSat vrt (satEls 8 16 fun i => usat 8 (el2 16 (th.getVr vra) (th.getVr vrb) i).toNat)

/-- `vpkuwus`, R1050. -/
def execPpeVpkuwus (vrt vra vrb : BitVec 5) (s : State) : Out State :=
  vmxNext s fun th =>
    th.setSat vrt (satEls 16 8 fun i => usat 16 (el2 32 (th.getVr vra) (th.getVr vrb) i).toNat)

/-- `vpkshus`, R1051. -/
def execPpeVpkshus (vrt vra vrb : BitVec 5) (s : State) : Out State :=
  vmxNext s fun th =>
    th.setSat vrt (satEls 8 16 fun i => usat 8 (el2 16 (th.getVr vra) (th.getVr vrb) i).toInt)

/-- `vpkswus`, R1052. -/
def execPpeVpkswus (vrt vra vrb : BitVec 5) (s : State) : Out State :=
  vmxNext s fun th =>
    th.setSat vrt (satEls 16 8 fun i => usat 16 (el2 32 (th.getVr vra) (th.getVr vrb) i).toInt)

/-- `vpkshss`, R1053. -/
def execPpeVpkshss (vrt vra vrb : BitVec 5) (s : State) : Out State :=
  vmxNext s fun th =>
    th.setSat vrt (satEls 8 16 fun i => ssat 8 (el2 16 (th.getVr vra) (th.getVr vrb) i).toInt)

/-- `vpkswss`, R1054. -/
def execPpeVpkswss (vrt vra vrb : BitVec 5) (s : State) : Out State :=
  vmxNext s fun th =>
    th.setSat vrt (satEls 16 8 fun i => ssat 16 (el2 32 (th.getVr vra) (th.getVr vrb) i).toInt)

/-- `vpkpx`, R1055. -/
def execPpeVpkpx (vrt vra vrb : BitVec 5) (s : State) : Out State :=
  vmxNext s fun th => th.setVr vrt (buildEls 16 8 fun i => packPixel (el2 32 (th.getVr vra) (th.getVr vrb) i))

/-- `vupkhsb`, R1056. -/
def execPpeVupkhsb (vrt vrb : BitVec 5) (s : State) : Out State :=
  vmxNext s fun th => th.setVr vrt (buildEls 16 8 fun i => (el 8 (th.getVr vrb) i).signExtend 16)

/-- `vupkhsh`, R1057. -/
def execPpeVupkhsh (vrt vrb : BitVec 5) (s : State) : Out State :=
  vmxNext s fun th => th.setVr vrt (buildEls 32 4 fun i => (el 16 (th.getVr vrb) i).signExtend 32)

/-- `vupkhpx`, R1060. -/
def execPpeVupkhpx (vrt vrb : BitVec 5) (s : State) : Out State :=
  vmxNext s fun th => th.setVr vrt (buildEls 32 4 fun i => unpackPixel (el 16 (th.getVr vrb) i))

/-- `vupklsb`, R1058. -/
def execPpeVupklsb (vrt vrb : BitVec 5) (s : State) : Out State :=
  vmxNext s fun th => th.setVr vrt (buildEls 16 8 fun i => (el 8 (th.getVr vrb) (i + 8)).signExtend 16)

/-- `vupklsh`, R1059. -/
def execPpeVupklsh (vrt vrb : BitVec 5) (s : State) : Out State :=
  vmxNext s fun th => th.setVr vrt (buildEls 32 4 fun i => (el 16 (th.getVr vrb) (i + 4)).signExtend 32)

/-- `vupklpx`, R1061. -/
def execPpeVupklpx (vrt vrb : BitVec 5) (s : State) : Out State :=
  vmxNext s fun th => th.setVr vrt (buildEls 32 4 fun i => unpackPixel (el 16 (th.getVr vrb) (i + 4)))

/-! ## Logical -/

/-- `vand`, R1062. -/
def execPpeVand (vrt vra vrb : BitVec 5) (s : State) : Out State :=
  vmxNext s fun th => th.setVr vrt (th.getVr vra &&& th.getVr vrb)

/-- `vandc`, R1063. -/
def execPpeVandc (vrt vra vrb : BitVec 5) (s : State) : Out State :=
  vmxNext s fun th => th.setVr vrt (th.getVr vra &&& ~~~(th.getVr vrb))

/-- `vor`, R1064. -/
def execPpeVor (vrt vra vrb : BitVec 5) (s : State) : Out State :=
  vmxNext s fun th => th.setVr vrt (th.getVr vra ||| th.getVr vrb)

/-- `vxor`, R1065. -/
def execPpeVxor (vrt vra vrb : BitVec 5) (s : State) : Out State :=
  vmxNext s fun th => th.setVr vrt (th.getVr vra ^^^ th.getVr vrb)

/-- `vnor`, R1066. -/
def execPpeVnor (vrt vra vrb : BitVec 5) (s : State) : Out State :=
  vmxNext s fun th => th.setVr vrt (~~~(th.getVr vra ||| th.getVr vrb))

/-! ## Rotate and shift -/

/-- `vrlb`, R1067. -/
def execPpeVrlb (vrt vra vrb : BitVec 5) (s : State) : Out State :=
  vmxNext s fun th =>
    th.setVr vrt (zipEls 8 16 (fun a b => a.rotateLeft (b.toNat % 8)) (th.getVr vra) (th.getVr vrb))

/-- `vrlh`, R1068. -/
def execPpeVrlh (vrt vra vrb : BitVec 5) (s : State) : Out State :=
  vmxNext s fun th =>
    th.setVr vrt (zipEls 16 8 (fun a b => a.rotateLeft (b.toNat % 16)) (th.getVr vra) (th.getVr vrb))

/-- `vrlw`, R1069. -/
def execPpeVrlw (vrt vra vrb : BitVec 5) (s : State) : Out State :=
  vmxNext s fun th =>
    th.setVr vrt (zipEls 32 4 (fun a b => a.rotateLeft (b.toNat % 32)) (th.getVr vra) (th.getVr vrb))

/-- `vslb`, R1070. -/
def execPpeVslb (vrt vra vrb : BitVec 5) (s : State) : Out State :=
  vmxNext s fun th => th.setVr vrt (zipEls 8 16 (fun a b => a <<< (b.toNat % 8)) (th.getVr vra) (th.getVr vrb))

/-- `vslh`, R1071. -/
def execPpeVslh (vrt vra vrb : BitVec 5) (s : State) : Out State :=
  vmxNext s fun th =>
    th.setVr vrt (zipEls 16 8 (fun a b => a <<< (b.toNat % 16)) (th.getVr vra) (th.getVr vrb))

/-- `vslw`, R1072. -/
def execPpeVslw (vrt vra vrb : BitVec 5) (s : State) : Out State :=
  vmxNext s fun th =>
    th.setVr vrt (zipEls 32 4 (fun a b => a <<< (b.toNat % 32)) (th.getVr vra) (th.getVr vrb))

/-- `vsrb`, R1073. -/
def execPpeVsrb (vrt vra vrb : BitVec 5) (s : State) : Out State :=
  vmxNext s fun th => th.setVr vrt (zipEls 8 16 (fun a b => a >>> (b.toNat % 8)) (th.getVr vra) (th.getVr vrb))

/-- `vsrh`, R1074. -/
def execPpeVsrh (vrt vra vrb : BitVec 5) (s : State) : Out State :=
  vmxNext s fun th =>
    th.setVr vrt (zipEls 16 8 (fun a b => a >>> (b.toNat % 16)) (th.getVr vra) (th.getVr vrb))

/-- `vsrw`, R1075. -/
def execPpeVsrw (vrt vra vrb : BitVec 5) (s : State) : Out State :=
  vmxNext s fun th =>
    th.setVr vrt (zipEls 32 4 (fun a b => a >>> (b.toNat % 32)) (th.getVr vra) (th.getVr vrb))

/-- `vsrab`, R1076. -/
def execPpeVsrab (vrt vra vrb : BitVec 5) (s : State) : Out State :=
  vmxNext s fun th =>
    th.setVr vrt (zipEls 8 16 (fun a b => a.sshiftRight (b.toNat % 8)) (th.getVr vra) (th.getVr vrb))

/-- `vsrah`, R1077. -/
def execPpeVsrah (vrt vra vrb : BitVec 5) (s : State) : Out State :=
  vmxNext s fun th =>
    th.setVr vrt (zipEls 16 8 (fun a b => a.sshiftRight (b.toNat % 16)) (th.getVr vra) (th.getVr vrb))

/-- `vsraw`, R1078. -/
def execPpeVsraw (vrt vra vrb : BitVec 5) (s : State) : Out State :=
  vmxNext s fun th =>
    th.setVr vrt (zipEls 32 4 (fun a b => a.sshiftRight (b.toNat % 32)) (th.getVr vra) (th.getVr vrb))

/-- `vsl`, R1079. -/
def execPpeVsl (vrt vra vrb : BitVec 5) (s : State) : Out State :=
  vmxShift vrt vrb (fun n => s.thr.getVr vra <<< n) s

/-- `vsr`, R1080. -/
def execPpeVsr (vrt vra vrb : BitVec 5) (s : State) : Out State :=
  vmxShift vrt vrb (fun n => s.thr.getVr vra >>> n) s

end Sys2Proof.Machine
end

