-- ==== Sys2Proof/Machine/VmxInteger.lean ====
section
/-! DEFINITION. Vector integer arithmetic, compare, multiply-sum and VSCR instructions (45_ppe_vmx_2.md sections 1 to 4). -/

namespace Sys2Proof.Machine

/-! ## Add and subtract -/

/-- `vaddubm`, R1101. -/
def execPpeVaddubm (vrt vra vrb : BitVec 5) (s : State) : Out State :=
  vmxNext s fun th => th.setVr vrt (zipEls 8 16 (fun a b => a + b) (th.getVr vra) (th.getVr vrb))

/-- `vadduhm`, R1102. -/
def execPpeVadduhm (vrt vra vrb : BitVec 5) (s : State) : Out State :=
  vmxNext s fun th => th.setVr vrt (zipEls 16 8 (fun a b => a + b) (th.getVr vra) (th.getVr vrb))

/-- `vadduwm`, R1103. -/
def execPpeVadduwm (vrt vra vrb : BitVec 5) (s : State) : Out State :=
  vmxNext s fun th => th.setVr vrt (zipEls 32 4 (fun a b => a + b) (th.getVr vra) (th.getVr vrb))

/-- `vaddubs`, R1105. -/
def execPpeVaddubs (vrt vra vrb : BitVec 5) (s : State) : Out State :=
  vmxNext s fun th =>
    th.setSat vrt (satEls 8 16 fun i => usat 8 (((el 8 (th.getVr vra) i).toNat : Int) + ((el 8 (th.getVr vrb) i).toNat : Int)))

/-- `vadduhs`, R1106. -/
def execPpeVadduhs (vrt vra vrb : BitVec 5) (s : State) : Out State :=
  vmxNext s fun th =>
    th.setSat vrt (satEls 16 8 fun i => usat 16 (((el 16 (th.getVr vra) i).toNat : Int) + ((el 16 (th.getVr vrb) i).toNat : Int)))

/-- `vadduws`, R1107. -/
def execPpeVadduws (vrt vra vrb : BitVec 5) (s : State) : Out State :=
  vmxNext s fun th =>
    th.setSat vrt (satEls 32 4 fun i => usat 32 (((el 32 (th.getVr vra) i).toNat : Int) + ((el 32 (th.getVr vrb) i).toNat : Int)))

/-- `vaddsbs`, R1108. -/
def execPpeVaddsbs (vrt vra vrb : BitVec 5) (s : State) : Out State :=
  vmxNext s fun th =>
    th.setSat vrt (satEls 8 16 fun i => ssat 8 ((el 8 (th.getVr vra) i).toInt + (el 8 (th.getVr vrb) i).toInt))

/-- `vaddshs`, R1109. -/
def execPpeVaddshs (vrt vra vrb : BitVec 5) (s : State) : Out State :=
  vmxNext s fun th =>
    th.setSat vrt (satEls 16 8 fun i => ssat 16 ((el 16 (th.getVr vra) i).toInt + (el 16 (th.getVr vrb) i).toInt))

/-- `vaddsws`, R1110. -/
def execPpeVaddsws (vrt vra vrb : BitVec 5) (s : State) : Out State :=
  vmxNext s fun th =>
    th.setSat vrt (satEls 32 4 fun i => ssat 32 ((el 32 (th.getVr vra) i).toInt + (el 32 (th.getVr vrb) i).toInt))

/-- `vsububm`, R1111. -/
def execPpeVsububm (vrt vra vrb : BitVec 5) (s : State) : Out State :=
  vmxNext s fun th => th.setVr vrt (zipEls 8 16 (fun a b => a - b) (th.getVr vra) (th.getVr vrb))

/-- `vsubuhm`, R1112. -/
def execPpeVsubuhm (vrt vra vrb : BitVec 5) (s : State) : Out State :=
  vmxNext s fun th => th.setVr vrt (zipEls 16 8 (fun a b => a - b) (th.getVr vra) (th.getVr vrb))

/-- `vsubuwm`, R1113. -/
def execPpeVsubuwm (vrt vra vrb : BitVec 5) (s : State) : Out State :=
  vmxNext s fun th => th.setVr vrt (zipEls 32 4 (fun a b => a - b) (th.getVr vra) (th.getVr vrb))

/-- `vsububs`, R1115. -/
def execPpeVsububs (vrt vra vrb : BitVec 5) (s : State) : Out State :=
  vmxNext s fun th =>
    th.setSat vrt (satEls 8 16 fun i => usat 8 (((el 8 (th.getVr vra) i).toNat : Int) - ((el 8 (th.getVr vrb) i).toNat : Int)))

/-- `vsubuhs`, R1116. -/
def execPpeVsubuhs (vrt vra vrb : BitVec 5) (s : State) : Out State :=
  vmxNext s fun th =>
    th.setSat vrt (satEls 16 8 fun i => usat 16 (((el 16 (th.getVr vra) i).toNat : Int) - ((el 16 (th.getVr vrb) i).toNat : Int)))

/-- `vsubuws`, R1117. -/
def execPpeVsubuws (vrt vra vrb : BitVec 5) (s : State) : Out State :=
  vmxNext s fun th =>
    th.setSat vrt (satEls 32 4 fun i => usat 32 (((el 32 (th.getVr vra) i).toNat : Int) - ((el 32 (th.getVr vrb) i).toNat : Int)))

/-- `vsubsbs`, R1118. -/
def execPpeVsubsbs (vrt vra vrb : BitVec 5) (s : State) : Out State :=
  vmxNext s fun th =>
    th.setSat vrt (satEls 8 16 fun i => ssat 8 ((el 8 (th.getVr vra) i).toInt - (el 8 (th.getVr vrb) i).toInt))

/-- `vsubshs`, R1119. -/
def execPpeVsubshs (vrt vra vrb : BitVec 5) (s : State) : Out State :=
  vmxNext s fun th =>
    th.setSat vrt (satEls 16 8 fun i => ssat 16 ((el 16 (th.getVr vra) i).toInt - (el 16 (th.getVr vrb) i).toInt))

/-- `vsubsws`, R1120. -/
def execPpeVsubsws (vrt vra vrb : BitVec 5) (s : State) : Out State :=
  vmxNext s fun th =>
    th.setSat vrt (satEls 32 4 fun i => ssat 32 ((el 32 (th.getVr vra) i).toInt - (el 32 (th.getVr vrb) i).toInt))

/-- `vaddcuw`, R1104. -/
def execPpeVaddcuw (vrt vra vrb : BitVec 5) (s : State) : Out State :=
  vmxNext s fun th =>
    th.setVr vrt (zipEls 32 4 (fun a b => BitVec.ofNat 32 ((a.toNat + b.toNat) / 2^32)) (th.getVr vra) (th.getVr vrb))

/-- `vsubcuw`, R1114. -/
def execPpeVsubcuw (vrt vra vrb : BitVec 5) (s : State) : Out State :=
  vmxNext s fun th =>
    th.setVr vrt (zipEls 32 4 (fun a b => if b.toNat ≤ a.toNat then 1 else 0) (th.getVr vra) (th.getVr vrb))

/-! ## Average, maximum, minimum -/

/-- `vavgub`, R1121. -/
def execPpeVavgub (vrt vra vrb : BitVec 5) (s : State) : Out State :=
  vmxNext s fun th =>
    th.setVr vrt (zipEls 8 16 (fun a b => BitVec.ofNat 8 ((a.toNat + b.toNat + 1) / 2)) (th.getVr vra) (th.getVr vrb))

/-- `vavguh`, R1122. -/
def execPpeVavguh (vrt vra vrb : BitVec 5) (s : State) : Out State :=
  vmxNext s fun th =>
    th.setVr vrt (zipEls 16 8 (fun a b => BitVec.ofNat 16 ((a.toNat + b.toNat + 1) / 2)) (th.getVr vra) (th.getVr vrb))

/-- `vavguw`, R1123. -/
def execPpeVavguw (vrt vra vrb : BitVec 5) (s : State) : Out State :=
  vmxNext s fun th =>
    th.setVr vrt (zipEls 32 4 (fun a b => BitVec.ofNat 32 ((a.toNat + b.toNat + 1) / 2)) (th.getVr vra) (th.getVr vrb))

/-- `vavgsb`, R1124. -/
def execPpeVavgsb (vrt vra vrb : BitVec 5) (s : State) : Out State :=
  vmxNext s fun th =>
    th.setVr vrt (zipEls 8 16 (fun a b => BitVec.ofInt 8 ((a.toInt + b.toInt + 1) / 2)) (th.getVr vra) (th.getVr vrb))

/-- `vavgsh`, R1125. -/
def execPpeVavgsh (vrt vra vrb : BitVec 5) (s : State) : Out State :=
  vmxNext s fun th =>
    th.setVr vrt (zipEls 16 8 (fun a b => BitVec.ofInt 16 ((a.toInt + b.toInt + 1) / 2)) (th.getVr vra) (th.getVr vrb))

/-- `vavgsw`, R1126. -/
def execPpeVavgsw (vrt vra vrb : BitVec 5) (s : State) : Out State :=
  vmxNext s fun th =>
    th.setVr vrt (zipEls 32 4 (fun a b => BitVec.ofInt 32 ((a.toInt + b.toInt + 1) / 2)) (th.getVr vra) (th.getVr vrb))

/-- `vmaxub`, R1127. -/
def execPpeVmaxub (vrt vra vrb : BitVec 5) (s : State) : Out State :=
  vmxNext s fun th =>
    th.setVr vrt (zipEls 8 16 (fun a b => if a.ult b then b else a) (th.getVr vra) (th.getVr vrb))

/-- `vmaxuh`, R1128. -/
def execPpeVmaxuh (vrt vra vrb : BitVec 5) (s : State) : Out State :=
  vmxNext s fun th =>
    th.setVr vrt (zipEls 16 8 (fun a b => if a.ult b then b else a) (th.getVr vra) (th.getVr vrb))

/-- `vmaxuw`, R1129. -/
def execPpeVmaxuw (vrt vra vrb : BitVec 5) (s : State) : Out State :=
  vmxNext s fun th =>
    th.setVr vrt (zipEls 32 4 (fun a b => if a.ult b then b else a) (th.getVr vra) (th.getVr vrb))

/-- `vmaxsb`, R1130. -/
def execPpeVmaxsb (vrt vra vrb : BitVec 5) (s : State) : Out State :=
  vmxNext s fun th =>
    th.setVr vrt (zipEls 8 16 (fun a b => if a.slt b then b else a) (th.getVr vra) (th.getVr vrb))

/-- `vmaxsh`, R1131. -/
def execPpeVmaxsh (vrt vra vrb : BitVec 5) (s : State) : Out State :=
  vmxNext s fun th =>
    th.setVr vrt (zipEls 16 8 (fun a b => if a.slt b then b else a) (th.getVr vra) (th.getVr vrb))

/-- `vmaxsw`, R1132. -/
def execPpeVmaxsw (vrt vra vrb : BitVec 5) (s : State) : Out State :=
  vmxNext s fun th =>
    th.setVr vrt (zipEls 32 4 (fun a b => if a.slt b then b else a) (th.getVr vra) (th.getVr vrb))

/-- `vminub`, R1133. -/
def execPpeVminub (vrt vra vrb : BitVec 5) (s : State) : Out State :=
  vmxNext s fun th =>
    th.setVr vrt (zipEls 8 16 (fun a b => if a.ult b then a else b) (th.getVr vra) (th.getVr vrb))

/-- `vminuh`, R1134. -/
def execPpeVminuh (vrt vra vrb : BitVec 5) (s : State) : Out State :=
  vmxNext s fun th =>
    th.setVr vrt (zipEls 16 8 (fun a b => if a.ult b then a else b) (th.getVr vra) (th.getVr vrb))

/-- `vminuw`, R1135. -/
def execPpeVminuw (vrt vra vrb : BitVec 5) (s : State) : Out State :=
  vmxNext s fun th =>
    th.setVr vrt (zipEls 32 4 (fun a b => if a.ult b then a else b) (th.getVr vra) (th.getVr vrb))

/-- `vminsb`, R1136. -/
def execPpeVminsb (vrt vra vrb : BitVec 5) (s : State) : Out State :=
  vmxNext s fun th =>
    th.setVr vrt (zipEls 8 16 (fun a b => if a.slt b then a else b) (th.getVr vra) (th.getVr vrb))

/-- `vminsh`, R1137. -/
def execPpeVminsh (vrt vra vrb : BitVec 5) (s : State) : Out State :=
  vmxNext s fun th =>
    th.setVr vrt (zipEls 16 8 (fun a b => if a.slt b then a else b) (th.getVr vra) (th.getVr vrb))

/-- `vminsw`, R1138. -/
def execPpeVminsw (vrt vra vrb : BitVec 5) (s : State) : Out State :=
  vmxNext s fun th =>
    th.setVr vrt (zipEls 32 4 (fun a b => if a.slt b then a else b) (th.getVr vra) (th.getVr vrb))

/-! ## Compare -/

/-- A vector compare: all ones where the relation holds, and CR6 with Rc (R1139). -/
def compareEls (len cnt : Nat) (vrt : BitVec 5) (rec : Bool) (rel : Nat → Bool) (th : Thread) : Thread :=
  let t := th.setVr vrt (buildEls len cnt fun i => maskOf len (rel i))
  if rec then t.recordCr6 (!anyUpTo (fun i => !rel i) cnt) (!anyUpTo rel cnt) else t

/-- `vcmpequb`, R1140. -/
def execPpeVcmpequb (vrt vra vrb : BitVec 5) (rec : Bool) (s : State) : Out State :=
  vmxNext s fun th => compareEls 8 16 vrt rec (fun i => el 8 (th.getVr vra) i == el 8 (th.getVr vrb) i) th

/-- `vcmpgtub`, R1145. -/
def execPpeVcmpgtub (vrt vra vrb : BitVec 5) (rec : Bool) (s : State) : Out State :=
  vmxNext s fun th => compareEls 8 16 vrt rec (fun i => (el 8 (th.getVr vrb) i).ult (el 8 (th.getVr vra) i)) th

/-- `vcmpgtsb`, R1149. -/
def execPpeVcmpgtsb (vrt vra vrb : BitVec 5) (rec : Bool) (s : State) : Out State :=
  vmxNext s fun th => compareEls 8 16 vrt rec (fun i => (el 8 (th.getVr vrb) i).slt (el 8 (th.getVr vra) i)) th

/-- `vcmpequh`, R1141. -/
def execPpeVcmpequh (vrt vra vrb : BitVec 5) (rec : Bool) (s : State) : Out State :=
  vmxNext s fun th => compareEls 16 8 vrt rec (fun i => el 16 (th.getVr vra) i == el 16 (th.getVr vrb) i) th

/-- `vcmpgtuh`, R1146. -/
def execPpeVcmpgtuh (vrt vra vrb : BitVec 5) (rec : Bool) (s : State) : Out State :=
  vmxNext s fun th =>
    compareEls 16 8 vrt rec (fun i => (el 16 (th.getVr vrb) i).ult (el 16 (th.getVr vra) i)) th

/-- `vcmpgtsh`, R1150. -/
def execPpeVcmpgtsh (vrt vra vrb : BitVec 5) (rec : Bool) (s : State) : Out State :=
  vmxNext s fun th =>
    compareEls 16 8 vrt rec (fun i => (el 16 (th.getVr vrb) i).slt (el 16 (th.getVr vra) i)) th

/-- `vcmpequw`, R1142. -/
def execPpeVcmpequw (vrt vra vrb : BitVec 5) (rec : Bool) (s : State) : Out State :=
  vmxNext s fun th => compareEls 32 4 vrt rec (fun i => el 32 (th.getVr vra) i == el 32 (th.getVr vrb) i) th

/-- `vcmpgtuw`, R1147. -/
def execPpeVcmpgtuw (vrt vra vrb : BitVec 5) (rec : Bool) (s : State) : Out State :=
  vmxNext s fun th =>
    compareEls 32 4 vrt rec (fun i => (el 32 (th.getVr vrb) i).ult (el 32 (th.getVr vra) i)) th

/-- `vcmpgtsw`, R1151. -/
def execPpeVcmpgtsw (vrt vra vrb : BitVec 5) (rec : Bool) (s : State) : Out State :=
  vmxNext s fun th =>
    compareEls 32 4 vrt rec (fun i => (el 32 (th.getVr vrb) i).slt (el 32 (th.getVr vra) i)) th

/-! ## Multiply, multiply-add, multiply-sum, sum across -/

/-- `vmuleub`, R1153. -/
def execPpeVmuleub (vrt vra vrb : BitVec 5) (s : State) : Out State :=
  vmxNext s fun th =>
    th.setVr vrt (buildEls 16 8 fun i => BitVec.ofNat 16 ((el 8 (th.getVr vra) (2 * i)).toNat * (el 8 (th.getVr vrb) (2 * i)).toNat))

/-- `vmulesb`, R1155. -/
def execPpeVmulesb (vrt vra vrb : BitVec 5) (s : State) : Out State :=
  vmxNext s fun th =>
    th.setVr vrt (buildEls 16 8 fun i => BitVec.ofInt 16 ((el 8 (th.getVr vra) (2 * i)).toInt * (el 8 (th.getVr vrb) (2 * i)).toInt))

/-- `vmuleuh`, R1154. -/
def execPpeVmuleuh (vrt vra vrb : BitVec 5) (s : State) : Out State :=
  vmxNext s fun th =>
    th.setVr vrt (buildEls 32 4 fun i => BitVec.ofNat 32 ((el 16 (th.getVr vra) (2 * i)).toNat * (el 16 (th.getVr vrb) (2 * i)).toNat))

/-- `vmulesh`, R1156. -/
def execPpeVmulesh (vrt vra vrb : BitVec 5) (s : State) : Out State :=
  vmxNext s fun th =>
    th.setVr vrt (buildEls 32 4 fun i => BitVec.ofInt 32 ((el 16 (th.getVr vra) (2 * i)).toInt * (el 16 (th.getVr vrb) (2 * i)).toInt))

/-- `vmuloub`, R1157. -/
def execPpeVmuloub (vrt vra vrb : BitVec 5) (s : State) : Out State :=
  vmxNext s fun th =>
    th.setVr vrt (buildEls 16 8 fun i => BitVec.ofNat 16 ((el 8 (th.getVr vra) (2 * i + 1)).toNat * (el 8 (th.getVr vrb) (2 * i + 1)).toNat))

/-- `vmulosb`, R1159. -/
def execPpeVmulosb (vrt vra vrb : BitVec 5) (s : State) : Out State :=
  vmxNext s fun th =>
    th.setVr vrt (buildEls 16 8 fun i => BitVec.ofInt 16 ((el 8 (th.getVr vra) (2 * i + 1)).toInt * (el 8 (th.getVr vrb) (2 * i + 1)).toInt))

/-- `vmulouh`, R1158. -/
def execPpeVmulouh (vrt vra vrb : BitVec 5) (s : State) : Out State :=
  vmxNext s fun th =>
    th.setVr vrt (buildEls 32 4 fun i => BitVec.ofNat 32 ((el 16 (th.getVr vra) (2 * i + 1)).toNat * (el 16 (th.getVr vrb) (2 * i + 1)).toNat))

/-- `vmulosh`, R1160. -/
def execPpeVmulosh (vrt vra vrb : BitVec 5) (s : State) : Out State :=
  vmxNext s fun th =>
    th.setVr vrt (buildEls 32 4 fun i => BitVec.ofInt 32 ((el 16 (th.getVr vra) (2 * i + 1)).toInt * (el 16 (th.getVr vrb) (2 * i + 1)).toInt))

/-- `vmhaddshs`, R1161. -/
def execPpeVmhaddshs (vrt vra vrb vrc : BitVec 5) (s : State) : Out State :=
  vmxNext s fun th =>
    th.setSat vrt (satEls 16 8 fun i => ssat 16 ((el 16 (th.getVr vra) i).toInt * (el 16 (th.getVr vrb) i).toInt / 2^15 + (el 16 (th.getVr vrc) i).toInt))

/-- `vmhraddshs`, R1162. -/
def execPpeVmhraddshs (vrt vra vrb vrc : BitVec 5) (s : State) : Out State :=
  vmxNext s fun th =>
    th.setSat vrt (satEls 16 8 fun i => ssat 16 (((el 16 (th.getVr vra) i).toInt * (el 16 (th.getVr vrb) i).toInt + 0x4000) / 2^15 + (el 16 (th.getVr vrc) i).toInt))

/-- `vmladduhm`, R1163. -/
def execPpeVmladduhm (vrt vra vrb vrc : BitVec 5) (s : State) : Out State :=
  vmxNext s fun th =>
    th.setVr vrt (zip3Els 16 8 (fun a b c => a * b + c) (th.getVr vra) (th.getVr vrb) (th.getVr vrc))

/-- The exact sum of the products of the `cnt` pairs of elements from element `k` on. -/
def sumProducts (len : Nat) (f g : BitVec len → Int) (a b : QWord) (k : Nat) : Nat → Int
  | 0 => 0
  | c + 1 => sumProducts len f g a b k c + f (el len a (k + c)) * g (el len b (k + c))
/-- An element as an unsigned number. -/
def unsignedEl {len : Nat} (v : BitVec len) : Int := v.toNat

/-- `vmsumubm`, R1164. -/
def execPpeVmsumubm (vrt vra vrb vrc : BitVec 5) (s : State) : Out State :=
  vmxNext s fun th =>
    th.setVr vrt (buildEls 32 4 fun i => truncInt 32 (((el 32 (th.getVr vrc) i).toNat : Int) + sumProducts 8 unsignedEl unsignedEl (th.getVr vra) (th.getVr vrb) (4 * i) 4))

/-- `vmsummbm`, R1165. -/
def execPpeVmsummbm (vrt vra vrb vrc : BitVec 5) (s : State) : Out State :=
  vmxNext s fun th =>
    th.setVr vrt (buildEls 32 4 fun i => truncInt 32 ((el 32 (th.getVr vrc) i).toInt + sumProducts 8 BitVec.toInt unsignedEl (th.getVr vra) (th.getVr vrb) (4 * i) 4))

/-- `vmsumuhm`, R1166. -/
def execPpeVmsumuhm (vrt vra vrb vrc : BitVec 5) (s : State) : Out State :=
  vmxNext s fun th =>
    th.setVr vrt (buildEls 32 4 fun i => truncInt 32 (((el 32 (th.getVr vrc) i).toNat : Int) + sumProducts 16 unsignedEl unsignedEl (th.getVr vra) (th.getVr vrb) (2 * i) 2))

/-- `vmsumuhs`, R1167. -/
def execPpeVmsumuhs (vrt vra vrb vrc : BitVec 5) (s : State) : Out State :=
  vmxNext s fun th =>
    th.setSat vrt (satEls 32 4 fun i => usat 32 (((el 32 (th.getVr vrc) i).toNat : Int) + sumProducts 16 unsignedEl unsignedEl (th.getVr vra) (th.getVr vrb) (2 * i) 2))

/-- `vmsumshm`, R1168. -/
def execPpeVmsumshm (vrt vra vrb vrc : BitVec 5) (s : State) : Out State :=
  vmxNext s fun th =>
    th.setVr vrt (buildEls 32 4 fun i => truncInt 32 ((el 32 (th.getVr vrc) i).toInt + sumProducts 16 BitVec.toInt BitVec.toInt (th.getVr vra) (th.getVr vrb) (2 * i) 2))

/-- `vmsumshs`, R1169. -/
def execPpeVmsumshs (vrt vra vrb vrc : BitVec 5) (s : State) : Out State :=
  vmxNext s fun th =>
    th.setSat vrt (satEls 32 4 fun i => ssat 32 ((el 32 (th.getVr vrc) i).toInt + sumProducts 16 BitVec.toInt BitVec.toInt (th.getVr vra) (th.getVr vrb) (2 * i) 2))

/-- The exact sum of `cnt` elements from element `k` on. -/
def sumEls (len : Nat) (f : BitVec len → Int) (a : QWord) (k : Nat) : Nat → Int
  | 0 => 0
  | c + 1 => sumEls len f a k c + f (el len a (k + c))

/-- `vsum4ubs`, R1170. -/
def execPpeVsum4ubs (vrt vra vrb : BitVec 5) (s : State) : Out State :=
  vmxNext s fun th =>
    th.setSat vrt (satEls 32 4 fun i => usat 32 (unsignedEl (el 32 (th.getVr vrb) i) + sumEls 8 unsignedEl (th.getVr vra) (4 * i) 4))

/-- `vsum4sbs`, R1171. -/
def execPpeVsum4sbs (vrt vra vrb : BitVec 5) (s : State) : Out State :=
  vmxNext s fun th =>
    th.setSat vrt (satEls 32 4 fun i => ssat 32 ((el 32 (th.getVr vrb) i).toInt + sumEls 8 BitVec.toInt (th.getVr vra) (4 * i) 4))

/-- `vsum4shs`, R1172. -/
def execPpeVsum4shs (vrt vra vrb : BitVec 5) (s : State) : Out State :=
  vmxNext s fun th =>
    th.setSat vrt (satEls 32 4 fun i => ssat 32 ((el 32 (th.getVr vrb) i).toInt + sumEls 16 BitVec.toInt (th.getVr vra) (2 * i) 2))

/-- `vsum2sws`, R1173. -/
def execPpeVsum2sws (vrt vra vrb : BitVec 5) (s : State) : Out State :=
  vmxNext s fun th =>
    th.setSat vrt (satEls 32 4 fun i =>
      if i % 2 = 1 then ssat 32 ((el 32 (th.getVr vrb) i).toInt + sumEls 32 BitVec.toInt (th.getVr vra) (i - 1) 2) else (0, false))

/-- `vsumsws`, R1174. -/
def execPpeVsumsws (vrt vra vrb : BitVec 5) (s : State) : Out State :=
  vmxNext s fun th =>
    th.setSat vrt (satEls 32 4 fun i =>
      if i = 3 then ssat 32 ((el 32 (th.getVr vrb) 3).toInt + sumEls 32 BitVec.toInt (th.getVr vra) 0 4) else (0, false))

/-! ## VSCR -/

/-- `mfvscr`, R1175. -/
def execPpeMfvscr (vrt : BitVec 5) (s : State) : Out State :=
  vmxNext s fun th => th.setVr vrt (th.vscr.setWidth 128)

/-- `mtvscr`, R1176. -/
def execPpeMtvscr (vrb : BitVec 5) (s : State) : Out State :=
  vmxNext s fun th =>
    { th with vscr := setIbit (setIbit 0 15 (ibit (el 32 (th.getVr vrb) 3) 15)) 31 (ibit (el 32 (th.getVr vrb) 3) 31) }

end Sys2Proof.Machine
end

