-- ==== Sys2Proof/Machine/VmxFloat.lean ====
section
/-! DEFINITION. Floating-point instructions of the vector unit (45_ppe_vmx_2.md sections 2, 5 and 6). -/

namespace Sys2Proof.Machine

/-! ## Modes (R1180) -/

/-- The three modes. -/
inductive VMode where
  | java
  | nonJava
  | graphics
deriving DecidableEq, Repr

/-- The mode of the moving thread; HID1[grap_mode] is bit 13 (log 8). -/
def State.vmode (s : State) : VMode :=
  if ibit s.ppe.hid1 13 then .graphics else if s.thr.nj then .nonJava else .java

/-- The rounding of the arithmetic instructions. -/
def VMode.rounding : VMode → RMode
  | .graphics => .zero
  | _ => .nearest

/-- The value of a word: the extended range of R1190 in graphics mode, denormals flushed outside Java mode. -/
def vread (md : VMode) (w : Word) : Num :=
  match md with
  | .java => unpack f32 w.toNat
  | .nonJava => if isDenorm f32 w.toNat then .zero (ibit w 0) else unpack f32 w.toNat
  | .graphics =>
    if ibm w 1 8 = 0 then .zero (ibit w 0)
    else .fin (ibit w 0) (2^23 + (ibm w 9 23).toNat) ((ibm w 1 8).toNat - 150)

/-- A zero, an infinity. -/
def zeroWord (neg : Bool) : Word := if neg then 0x80000000 else 0
def infWord (neg : Bool) : Word := if neg then 0xFF800000 else 0x7F800000
/-- The largest value of graphics mode. -/
def maxWord (neg : Bool) : Word := if neg then 0xFFFFFFFF else 0x7FFFFFFF
/-- The default quiet NaN. -/
def qnanWord : Word := 0x7FC00000

/-- Flush a denormal image. -/
def flushWord (w : Word) : Word := if isDenorm f32 w.toNat then zeroWord (ibit w 0) else w

/-- Round a finite non-zero value (R1180, R1190). -/
def vround (md : VMode) (neg : Bool) (m : Nat) (e : Int) : Word :=
  match md with
  | .java => BitVec.ofNat 32 (ieeeRound f32 .nearest neg m e).image
  | .nonJava => flushWord (BitVec.ofNat 32 (ieeeRound f32 .nearest neg m e).image)
  | .graphics =>
    if topExp m e < -126 then zeroWord neg
    else if 128 < topExp m e then maxWord neg
    else BitVec.ofNat 32 (f32.image neg (f32.packMag (roundUnbounded f32 .zero neg m e)))

/-- The result of a calculation. -/
def vcalc (md : VMode) : Calc → Word
  | .invalid => qnanWord
  | .inf n => infWord n
  | .zero n => zeroWord n
  | .fin n m e => vround md n m e

/-- The first NaN operand, quieted; none in graphics mode, which has no NaNs. -/
def vnan (md : VMode) (ops : List Word) : Option Word :=
  if md = .graphics then none
  else (ops.find? fun w => isNan f32 w.toNat).map fun w => w ||| 0x00400000

/-- The result of an arithmetic instruction. -/
def vresult (md : VMode) (ops : List Word) (c : Calc) : Word := (vnan md ops).getD (vcalc md c)

/-! ## Arithmetic -/

/-- a + b, a - b. -/
def vadd (md : VMode) (a b : Word) : Word := vresult md [a, b] (addNum md.rounding (vread md a) (vread md b))
def vsub (md : VMode) (a b : Word) : Word := vresult md [a, b] (addNum md.rounding (vread md a) (vread md b).neg)
/-- a * c + b. -/
def vmadd (md : VMode) (a b c : Word) : Word :=
  vresult md [a, b, c] (fmaNum md.rounding (vread md a) (vread md c) (vread md b))
/-- - (a * c - b); a NaN result is not negated. -/
def vnmsub (md : VMode) (a b c : Word) : Word :=
  match vnan md [a, b, c] with
  | some w => w
  | none =>
    match fmaNum md.rounding (vread md a) (vread md c) (vread md b).neg with
    | .invalid => qnanWord
    | x => vcalc md x ^^^ 0x80000000

/-- The order of two operands; none: one is a NaN. -/
def vorder (md : VMode) (a b : Word) : Option Ordering :=
  if (vnan md [a, b]).isSome then none else some (cmpNum (vread md a) (vread md b))

/-- The operand as a result: outside Java mode a denormal is flushed. -/
def voperand (md : VMode) (w : Word) : Word := if md = .java then w else flushWord w

/-- max and min (R1204, R1205); of two zeros, +0 and -0. -/
def vmaxf (md : VMode) (a b : Word) : Word :=
  match vorder md a b with
  | none => (vnan md [a, b]).getD qnanWord
  | some .gt => voperand md a
  | some .lt => voperand md b
  | some .eq => voperand md a &&& voperand md b
def vminf (md : VMode) (a b : Word) : Word :=
  match vorder md a b with
  | none => (vnan md [a, b]).getD qnanWord
  | some .gt => voperand md b
  | some .lt => voperand md a
  | some .eq => voperand md a ||| voperand md b

/-- a compare. -/
def vcompare (md : VMode) (p : Ordering → Bool) (a b : Word) : Word :=
  maskOf 32 (match vorder md a b with
    | none => false
    | some o => p o)

/-- Compare bounds (R1152). -/
def vbounds (md : VMode) (a b : Word) : Word :=
  let le := match vorder md a b with
    | none => false
    | some o => o != Ordering.gt
  let ge := match vorder md a (b ^^^ 0x80000000) with
    | none => false
    | some o => o != Ordering.lt
  BitVec.ofBool (!le) ++ BitVec.ofBool (!ge) ++ 0#30

/-- A recording compare of words. -/
def vcmpf (s : State) (vrt vra vrb : BitVec 5) (rec : Bool) (f : Word → Word → Word) : Out State :=
  vmxNext s fun th =>
    let t := zipEls 32 4 f (th.getVr vra) (th.getVr vrb)
    let th := th.setVr vrt t
    if rec then th.recordCr6 (decide (t = BitVec.allOnes 128)) (decide (t = 0)) else th

/-! ## Estimates (U57): a drawn candidate within the bound, else a value that is -/

/-- The drawn candidate if `p` accepts its sign, significand and exponent, else the given value. Outside Java mode no
denormal is a result. -/
def vestimate (md : VMode) (cand other : Word) (p : Bool → Nat → Int → Bool) : Word :=
  let ok := (md = .java || !isDenorm f32 cand.toNat) && match vread md cand with
    | .fin n m e => p n m e
    | .zero n => p n 0 0
    | _ => false
  if ok then cand else other

/-- Reciprocal estimate (R1206, R1193). -/
def vre (md : VMode) (b cand : Word) : Word :=
  match vnan md [b], vread md b with
  | some w, _ => w
  | none, .nan => qnanWord
  | none, .inf n => zeroWord n
  | none, .zero n => infWord n
  | none, .fin n m e =>
    vestimate md cand (vcalc md (divFin n 1 0 m e)) fun nc mc ec => (nc == n) && nearReciprocal 4096 mc ec m e

/-- Reciprocal square-root estimate (R1207, R1194). -/
def vrsqrte (md : VMode) (b cand : Word) : Word :=
  let b := if md = .graphics then b &&& 0x7FFFFFFF else b
  match vnan md [b], vread md b with
  | some w, _ => w
  | none, .nan => qnanWord
  | none, .inf n => if n then qnanWord else 0
  | none, .zero n => infWord n
  | none, .fin n m e =>
    if n then qnanWord
    else
      let w := match sqrtFin m e with
        | .fin _ m e => vcalc md (divFin false 1 0 m e)
        | _ => 0
      vestimate md cand w fun nc mc ec => !nc && nearRsqrt 4096 mc ec m e

/-- |c - log2(mb * 2^eb)| is at most 1/32, the bound included: exact where b is a power of two; else, since the logarithm is
irrational and the bound is not met with equality, less than 2^-190 beyond the bound is still taken. -/
def nearLog (neg : Bool) (m : Nat) (e : Int) (mb : Nat) (eb : Int) : Bool :=
  let k := (-(e + logBits)).toNat
  let d := signedNat neg (m * 2^(e + logBits + k).toNat) - log2Scaled logBits mb eb * 2^k
  let slack := if mb = 2^mb.log2 then 0 else 2
  decide (-(2^(logBits - 5) * 2^k) ≤ d) && decide (d ≤ (2^(logBits - 5) + slack) * 2^k)

/-- Logarithm estimate (R1208, R1195). -/
def vloge (md : VMode) (b cand : Word) : Word :=
  let b := if md = .graphics then b &&& 0x7FFFFFFF else b
  match vnan md [b], vread md b with
  | some w, _ => w
  | none, .nan => qnanWord
  | none, .inf n => if n then qnanWord else infWord false
  | none, .zero _ => if md = .graphics then 0xFFFFFFFF else infWord true
  | none, .fin n m e =>
    if n then qnanWord
    else
      let l := log2Scaled 30 m e
      let w := if l = 0 then 0 else vround md (decide (l < 0)) l.natAbs (-30)
      vestimate md cand w fun nc mc ec => nearLog nc mc ec m e

/-- The value b scaled by 2^k and rounded down, of a value below 2^8 in magnitude. -/
def scaledBy (k : Nat) (neg : Bool) (m : Nat) (e : Int) : Int :=
  let v := signedNat neg m
  if 0 ≤ e + k then v * 2^(e + k).toNat else v / 2^(-(e + k)).toNat

/-- Whether 15/16 ≤ c / 2^(x / 2^192) ≤ 17/16, the bounds included, of a value c: exact where the exponent is an integer; else, since
the power is irrational and the bounds are not met with equality, less than 2^-190 of log2 beyond a bound is still taken. -/
def nearExp (mc : Nat) (ec : Int) (x : Int) : Bool :=
  if x % 2^logBits = 0 then
    let t := ec - x / 2^logBits
    scaledGe (16 * mc) t 15 && scaledLe (16 * mc) t 17
  else
    let d := log2Scaled logBits mc ec - x
    decide (mc ≠ 0) && decide (log2Scaled logBits 15 (-4) - 2 ≤ d) && decide (d ≤ log2Scaled logBits 17 (-4) + 2)

/-- Exponential estimate (R1209, R1196): in graphics mode the results are those of non-Java mode, but for the infinity. -/
def vexpte (md : VMode) (b cand : Word) : Word :=
  let top := if md = .graphics then maxWord false else infWord false
  let rmd := if md = .graphics then .nonJava else md
  let near (fine : Int) : Word :=
    let x := fine / 2^(logBits - 30)
    let i := x / 2^30
    let f := (x % 2^30).toNat
    let w := vestimate rmd cand (vround rmd false (2^65 + f * (21 * 2^30 + 11 * f)) (i - 65)) fun nc mc ec => !nc && nearExp mc ec fine
    if w = infWord false then top else w
  match vnan md [b], vread md b with
  | some w, _ => w
  | none, .nan => qnanWord
  | none, .inf n => if n then 0 else top
  | none, .zero _ => near 0
  | none, .fin n m e =>
    if 7 ≤ topExp m e ∧ !n then top
    else if 8 ≤ topExp m e then 0
    else near (scaledBy logBits n m e)

/-- A one-operand estimate of every word. -/
def vest (s : State) (vrt vrb : BitVec 5) (f : VMode → Word → Word → Word) : Out State :=
  let cand := buildEls 32 4 fun i => s.free 32 i
  vmxNext (s.drew 4) fun th => th.setVr vrt (zipEls 32 4 (f s.vmode) (th.getVr vrb) cand)

/-! ## Rounding and conversion -/

/-- Round to an integral value (R1210 to R1213, R1199). -/
def vrfi (md : VMode) (mode : RMode) (b : Word) : Word :=
  match vnan md [b], vread md b with
  | some w, _ => w
  | none, .nan => qnanWord
  | none, .inf n => infWord n
  | none, .zero n => zeroWord n
  | none, .fin n m e =>
    let r := roundInt mode n m e
    if 0 ≤ e then b else if r.m = 0 then zeroWord n else vround md n r.m 0

/-- An integer divided by 2^k, rounded to nearest (R1214, R1198). -/
def vcf (i : Int) (k : Nat) : Word :=
  if i = 0 then 0 else BitVec.ofNat 32 (ieeeRound f32 .nearest (decide (i < 0)) i.natAbs (-(k : Int))).image

/-- A value times 2^k as a saturated integer (R1216, R1217, R1197). -/
def vct (md : VMode) (sat : Int → Word × Bool) (k : Nat) (b : Word) : Word × Bool :=
  match vread md b with
  | .nan => (0, false)
  | .inf n => sat (if n then -2^40 else 2^40)
  | .zero _ => (0, false)
  | .fin n m e => sat (signedNat n (roundInt .zero n m (e + k)).m)

/-! ## Instructions -/

/-- `vaddfp`, R1200. -/
def execPpeVaddfp (vrt vra vrb : BitVec 5) (s : State) : Out State :=
  vmxNext s fun th => th.setVr vrt (zipEls 32 4 (vadd s.vmode) (th.getVr vra) (th.getVr vrb))

/-- `vsubfp`, R1201. -/
def execPpeVsubfp (vrt vra vrb : BitVec 5) (s : State) : Out State :=
  vmxNext s fun th => th.setVr vrt (zipEls 32 4 (vsub s.vmode) (th.getVr vra) (th.getVr vrb))

/-- `vmaxfp`, R1204. -/
def execPpeVmaxfp (vrt vra vrb : BitVec 5) (s : State) : Out State :=
  vmxNext s fun th => th.setVr vrt (zipEls 32 4 (vmaxf s.vmode) (th.getVr vra) (th.getVr vrb))

/-- `vminfp`, R1205. -/
def execPpeVminfp (vrt vra vrb : BitVec 5) (s : State) : Out State :=
  vmxNext s fun th => th.setVr vrt (zipEls 32 4 (vminf s.vmode) (th.getVr vra) (th.getVr vrb))

/-- `vmaddfp`, R1202. -/
def execPpeVmaddfp (vrt vra vrb vrc : BitVec 5) (s : State) : Out State :=
  vmxNext s fun th => th.setVr vrt (zip3Els 32 4 (vmadd s.vmode) (th.getVr vra) (th.getVr vrb) (th.getVr vrc))

/-- `vnmsubfp`, R1203. -/
def execPpeVnmsubfp (vrt vra vrb vrc : BitVec 5) (s : State) : Out State :=
  vmxNext s fun th => th.setVr vrt (zip3Els 32 4 (vnmsub s.vmode) (th.getVr vra) (th.getVr vrb) (th.getVr vrc))

/-- `vcmpeqfp`, R1143. -/
def execPpeVcmpeqfp (vrt vra vrb : BitVec 5) (rec : Bool) (s : State) : Out State :=
  vcmpf s vrt vra vrb rec (vcompare s.vmode fun o => o == Ordering.eq)

/-- `vcmpgefp`, R1144. -/
def execPpeVcmpgefp (vrt vra vrb : BitVec 5) (rec : Bool) (s : State) : Out State :=
  vcmpf s vrt vra vrb rec (vcompare s.vmode fun o => o != Ordering.lt)

/-- `vcmpgtfp`, R1148. -/
def execPpeVcmpgtfp (vrt vra vrb : BitVec 5) (rec : Bool) (s : State) : Out State :=
  vcmpf s vrt vra vrb rec (vcompare s.vmode fun o => o == Ordering.gt)

/-- `vcmpbfp`, R1152. -/
def execPpeVcmpbfp (vrt vra vrb : BitVec 5) (rec : Bool) (s : State) : Out State :=
  vmxNext s fun th =>
    let t := zipEls 32 4 (vbounds s.vmode) (th.getVr vra) (th.getVr vrb)
    let th := th.setVr vrt t
    if rec then th.setCrField 6 (nibble false false (decide (t = 0)) false) else th

/-- `vrefp`, R1206. -/
def execPpeVrefp (vrt vrb : BitVec 5) (s : State) : Out State :=
  vest s vrt vrb vre

/-- `vrsqrtefp`, R1207. -/
def execPpeVrsqrtefp (vrt vrb : BitVec 5) (s : State) : Out State :=
  vest s vrt vrb vrsqrte

/-- `vlogefp`, R1208. -/
def execPpeVlogefp (vrt vrb : BitVec 5) (s : State) : Out State :=
  vest s vrt vrb vloge

/-- `vexptefp`, R1209. -/
def execPpeVexptefp (vrt vrb : BitVec 5) (s : State) : Out State :=
  vest s vrt vrb vexpte

/-- `vrfin`, R1210. -/
def execPpeVrfin (vrt vrb : BitVec 5) (s : State) : Out State :=
  vmxNext s fun th => th.setVr vrt (mapEls 32 4 (vrfi s.vmode .nearest) (th.getVr vrb))

/-- `vrfiz`, R1211. -/
def execPpeVrfiz (vrt vrb : BitVec 5) (s : State) : Out State :=
  vmxNext s fun th => th.setVr vrt (mapEls 32 4 (vrfi s.vmode .zero) (th.getVr vrb))

/-- `vrfip`, R1212. -/
def execPpeVrfip (vrt vrb : BitVec 5) (s : State) : Out State :=
  vmxNext s fun th => th.setVr vrt (mapEls 32 4 (vrfi s.vmode .up) (th.getVr vrb))

/-- `vrfim`, R1213. -/
def execPpeVrfim (vrt vrb : BitVec 5) (s : State) : Out State :=
  vmxNext s fun th => th.setVr vrt (mapEls 32 4 (vrfi s.vmode .down) (th.getVr vrb))

/-- `vcfux`, R1214. -/
def execPpeVcfux (vrt vrb uim : BitVec 5) (s : State) : Out State :=
  vmxNext s fun th => th.setVr vrt (mapEls 32 4 (fun b => vcf b.toNat uim.toNat) (th.getVr vrb))

/-- `vcfsx`, R1215. -/
def execPpeVcfsx (vrt vrb uim : BitVec 5) (s : State) : Out State :=
  vmxNext s fun th => th.setVr vrt (mapEls 32 4 (fun b => vcf b.toInt uim.toNat) (th.getVr vrb))

/-- `vctuxs`, R1216. -/
def execPpeVctuxs (vrt vrb uim : BitVec 5) (s : State) : Out State :=
  vmxNext s fun th =>
    th.setSat vrt (satEls 32 4 fun i => vct s.vmode (usat 32) uim.toNat (el 32 (th.getVr vrb) i))

/-- `vctsxs`, R1217. -/
def execPpeVctsxs (vrt vrb uim : BitVec 5) (s : State) : Out State :=
  vmxNext s fun th =>
    th.setSat vrt (satEls 32 4 fun i => vct s.vmode (ssat 32) uim.toNat (el 32 (th.getVr vrb) i))

end Sys2Proof.Machine
end

