-- ==== Sys2Proof/Machine/SpuFloat.lean ====
section
/-! DEFINITION. SPU floating-point instructions (48_spu_float.md). -/

namespace Sys2Proof.Machine

/-! ## Single precision (R1490, R1492, R1495) -/

/-- A result and the flags of its slice. -/
structure SpRes where
  image : Word
  ovf : Bool
  unf : Bool
deriving DecidableEq, Repr

/-- `spval`: the extended range, denormals as zero (R1490). -/
def spval (w : Word) : Num := vread .graphics w

/-- `spround` (R1492): truncation; underflow and zero give +0, overflow the largest magnitude. -/
def spround : Calc → SpRes
  | .fin n m e =>
    let r := roundUnbounded f32 .zero n m e
    if topExp m e < -126 then ⟨0, false, true⟩
    else if 128 < topExp m e then ⟨maxWord n, true, false⟩
    else ⟨BitVec.ofNat 32 (f32.image n (f32.packMag r)), decide (f32.packMag r = 0x7FFFFFFF) && r.inexact, false⟩
  | .inf n => ⟨maxWord n, true, false⟩
  | .zero _ => ⟨0, false, false⟩
  | .invalid => ⟨0, false, false⟩

/-- An operand on which IEEE arithmetic would differ: exponent all ones, or a denormal. -/
def odd (w : Word) : Bool := ibm w 1 8 == (0xFF : BitVec 8) || isDenorm f32 w.toNat

/-- The flags of word slice `k` (11_state_spe R153). -/
def spFlags (k : Nat) (r : SpRes) (operandOdd : Bool) : QWord :=
  let diff := r.ovf || r.unf || operandOdd || ibm r.image 1 8 == (0xFF : BitVec 8)
  setIbit (setIbit (setIbit (0 : QWord) (29 + 32 * k) r.ovf) (30 + 32 * k) r.unf) (31 + 32 * k) diff

/-- The or of the flags of `cnt` slices. -/
def orFlags (f : Nat → QWord) : Nat → QWord
  | 0 => 0
  | k + 1 => orFlags f k ||| f k

/-- A single-precision arithmetic instruction: `f` of the operands of every word slice, the flags sticky. -/
def spArith (p : Spe) (rt : BitVec 7) (ops : List QWord) (f : List Num → Calc) : Spe :=
  let words (k : Nat) : List Word := ops.map fun q => el 32 q k
  let r (k : Nat) : SpRes := spround (f ((words k).map spval))
  let flags := orFlags (fun k => spFlags k (r k) ((words k).any odd)) 4
  { p.set rt (buildEls 32 4 fun k => (r k).image) with fpscr := p.fpscr ||| flags }

/-- a + b. -/
def spAdd : List Num → Calc
  | [a, b] => addNum .zero a b
  | _ => .invalid
/-- a - b. -/
def spSub : List Num → Calc
  | [a, b] => addNum .zero a b.neg
  | _ => .invalid
/-- a * b. -/
def spMul : List Num → Calc
  | [a, b] => mulNum a b
  | _ => .invalid
/-- a * b + c. -/
def spMadd : List Num → Calc
  | [a, b, c] => fmaNum .zero a b c
  | _ => .invalid
/-- c - a * b. -/
def spNmsub : List Num → Calc
  | [a, b, c] => fmaNum .zero a.neg b c
  | _ => .invalid
/-- a * b - c. -/
def spMsub : List Num → Calc
  | [a, b, c] => fmaNum .zero a b c.neg
  | _ => .invalid

/-- `fa`, R1500. -/
def execSpuFa (rt ra rb : BitVec 7) (s : State) : Out State :=
  spuNext s fun p => spArith p rt [p.get ra, p.get rb] spAdd

/-- `fs`, R1501. -/
def execSpuFs (rt ra rb : BitVec 7) (s : State) : Out State :=
  spuNext s fun p => spArith p rt [p.get ra, p.get rb] spSub

/-- `fm`, R1502. -/
def execSpuFm (rt ra rb : BitVec 7) (s : State) : Out State :=
  spuNext s fun p => spArith p rt [p.get ra, p.get rb] spMul

/-- `fma`, R1503. -/
def execSpuFma (rt ra rb rc : BitVec 7) (s : State) : Out State :=
  spuNext s fun p => spArith p rt [p.get ra, p.get rb, p.get rc] spMadd

/-- `fnms`, R1504. -/
def execSpuFnms (rt ra rb rc : BitVec 7) (s : State) : Out State :=
  spuNext s fun p => spArith p rt [p.get ra, p.get rb, p.get rc] spNmsub

/-- `fms`, R1505. -/
def execSpuFms (rt ra rb rc : BitVec 7) (s : State) : Out State :=
  spuNext s fun p => spArith p rt [p.get ra, p.get rb, p.get rc] spMsub

/-! ## Double precision (R1494) -/

/-- A double-precision result and the six flags of its slice. -/
structure DpRes where
  image : Nat
  ovf : Bool := false
  unf : Bool := false
  inx : Bool := false
  inv : Bool := false
  nan : Bool := false
  denorm : Bool := false
deriving DecidableEq, Repr

/-- FPSCR.RN of slice `j`. -/
def Spe.rn (p : Spe) (j : Nat) : RMode := rmodeOf (ibm p.fpscr (20 + 2 * j) 2)

/-- An operand with a denormal taken as zero. -/
def dpval (f : Fmt) (w : Nat) : Num :=
  if isDenorm f w then .zero (decide (f.signBit ≤ w)) else unpack f w

/-- The common treatment of operands, given what the exact calculation delivers. -/
def dpFinish (f : Fmt) (ws : List Nat) (quietNan : Nat) (invalid : Bool) (r : DpRes) : DpRes :=
  let den := ws.any (isDenorm f)
  let product : Bool := match ws.map (dpval f) with
    | [a, b, _] => a != .nan && b != .nan && mulNum a b == .invalid
    | _ => false
  if ws.any (isNan f) then { image := quietNan, nan := true, inv := ws.any (isSnan f) || product, denorm := den }
  else if invalid then { image := quietNan, inv := true, denorm := den }
  else { r with denorm := den }

/-- An exact calculation rounded to double. UNF is decided before rounding, as R843 says for the PPE and R1495 for single precision:
DEDUCED (log 14). -/
def dpRound (mode : RMode) : Calc → DpRes
  | .fin n m e =>
    let r := ieeeRound f64 mode n m e
    { image := r.image, ovf := r.overflow, unf := r.underflow, inx := r.inexact }
  | .inf n => { image := f64.image n f64.infMag }
  | .zero n => { image := f64.image n 0 }
  | .invalid => { image := 0 }

/-- The default NaN of double precision. -/
def dpNan : Nat := 0x7FF8000000000000

/-- An arithmetic operation on the operands of a slice. -/
def dpOp (mode : RMode) (ws : List Nat) (f : RMode → List Num → Calc) : DpRes :=
  let c := f mode (ws.map (dpval f64))
  dpFinish f64 ws dpNan (decide (c = .invalid)) (dpRound mode c)

/-- The flags of double slice `j` (11_state_spe R153). -/
def dpFlags (j : Nat) (r : DpRes) : QWord :=
  let b := 50 + 32 * j
  setIbit (setIbit (setIbit (setIbit (setIbit (setIbit (0 : QWord) b r.ovf) (b + 1) r.unf) (b + 2) r.inx) (b + 3) r.inv)
    (b + 4) r.nan) (b + 5) r.denorm

/-- Doubleword `j` as a number. -/
def dw (q : QWord) (j : Nat) : Nat := (el 64 q j).toNat

/-- A double-precision instruction: `r j` is what slice `j` delivers. -/
def dpWrite (p : Spe) (rt : BitVec 7) (r : Nat → DpRes) : Spe :=
  { p.set rt (buildEls 64 2 fun j => BitVec.ofNat 64 (r j).image) with fpscr := p.fpscr ||| orFlags (fun j => dpFlags j (r j)) 2 }

/-- A double-precision arithmetic instruction. -/
def dpArith (p : Spe) (rt : BitVec 7) (ops : List QWord) (f : RMode → List Num → Calc) : Spe :=
  dpWrite p rt fun j => dpOp (p.rn j) (ops.map fun q => dw q j) f

/-- The same with the result negated unless it is a NaN (R1511, R1512). -/
def dpArithNeg (p : Spe) (rt : BitVec 7) (ops : List QWord) (f : RMode → List Num → Calc) : Spe :=
  dpWrite p rt fun j =>
    let r := dpOp (p.rn j) (ops.map fun q => dw q j) f
    if r.nan || r.inv then r else { r with image := (r.image + f64.signBit) % 2^64 }

/-- a + b, a - b, a * b, a * b + c, a * b - c, with the rounding direction's sign of a zero sum. -/
def dpAdd (mode : RMode) : List Num → Calc
  | [a, b] => addNum mode a b
  | _ => .invalid
def dpSub (mode : RMode) : List Num → Calc
  | [a, b] => addNum mode a b.neg
  | _ => .invalid
def dpMul (_ : RMode) : List Num → Calc
  | [a, b] => mulNum a b
  | _ => .invalid
def dpMadd (mode : RMode) : List Num → Calc
  | [a, b, c] => fmaNum mode a b c
  | _ => .invalid
def dpMsub (mode : RMode) : List Num → Calc
  | [a, b, c] => fmaNum mode a b c.neg
  | _ => .invalid

/-- `dfa`, R1506. -/
def execSpuDfa (rt ra rb : BitVec 7) (s : State) : Out State :=
  spuNext s fun p => dpArith p rt [p.get ra, p.get rb] dpAdd

/-- `dfs`, R1507. -/
def execSpuDfs (rt ra rb : BitVec 7) (s : State) : Out State :=
  spuNext s fun p => dpArith p rt [p.get ra, p.get rb] dpSub

/-- `dfm`, R1508. -/
def execSpuDfm (rt ra rb : BitVec 7) (s : State) : Out State :=
  spuNext s fun p => dpArith p rt [p.get ra, p.get rb] dpMul

/-- `dfma`, R1509. -/
def execSpuDfma (rt ra rb : BitVec 7) (s : State) : Out State :=
  spuNext s fun p => dpArith p rt [p.get ra, p.get rb, p.get rt] dpMadd

/-- `dfms`, R1510. -/
def execSpuDfms (rt ra rb : BitVec 7) (s : State) : Out State :=
  spuNext s fun p => dpArith p rt [p.get ra, p.get rb, p.get rt] dpMsub

/-- `dfnms`, R1511. -/
def execSpuDfnms (rt ra rb : BitVec 7) (s : State) : Out State :=
  spuNext s fun p => dpArithNeg p rt [p.get ra, p.get rb, p.get rt] dpMsub

/-- `dfnma`, R1512. -/
def execSpuDfnma (rt ra rb : BitVec 7) (s : State) : Out State :=
  spuNext s fun p => dpArithNeg p rt [p.get ra, p.get rb, p.get rt] dpMadd

/-! ## Estimates (R1515 to R1517, U61) -/

/-- An estimate instruction: the tokens, and DBZ of the slices whose operand reads as zero. -/
def spEstimate (p : Spe) (rt : BitVec 7) (a : QWord) (tok : Word → Word) : Spe :=
  let dbz := orFlags (fun k => setIbit (0 : QWord) (116 + k) (ibm (el 32 a k) 1 8 == (0 : BitVec 8))) 4
  { p.set rt (mapEls 32 4 tok a) with fpscr := p.fpscr ||| dbz }

/-- The token of `frsqest`: never the one of `frest`, since `fi` tells a pair of the one from a pair of the other (log 27). -/
def rsqrtTok (w : Word) : Word := if Config.frsqestTok w = Config.frestTok w then ~~~Config.frestTok w else Config.frsqestTok w

/-- The drawn value if its sign, significand and exponent are `ok`; else the exact value truncated, or where that underflows the
smallest number if it is `ok`; the drawn value where no number is. -/
def fiPick (cand : Word) (exact : Calc) (ok : Bool → Nat → Int → Bool) : Word :=
  let good (w : Word) : Bool := match spval w with
    | .fin n m e => ok n m e
    | _ => false
  let r := spround exact
  if good cand then cand
  else if !r.unf then r.image
  else if good 0x00800000 then 0x00800000
  else if good 0x80800000 then 0x80800000
  else cand

/-- `fi` of a word: a value within the bound where `b` is an estimate of `a`, any value elsewhere. -/
def fiWord (a b cand : Word) : Word :=
  match spval a with
  | .fin n m e =>
    if b = Config.frestTok a then fiPick cand (divFin n 1 0 m e) fun nc mc ec => nc == n && nearReciprocal 4096 mc ec m e
    else if b = rsqrtTok a then
      match sqrtFin m e with
      | .fin _ mr er => fiPick cand (divFin false 1 0 mr er) fun nc mc ec => !nc && nearRsqrt 4096 mc ec m e
      | _ => cand
    else cand
  | _ =>
    if b = Config.frestTok a then maxWord (ibit a 0)
    else if b = rsqrtTok a then maxWord false
    else cand

/-- `frest`, R1515. -/
def execSpuFrest (rt ra : BitVec 7) (s : State) : Out State :=
  spuNext s fun p => spEstimate p rt (p.get ra) Config.frestTok

/-- `frsqest`, R1516. -/
def execSpuFrsqest (rt ra : BitVec 7) (s : State) : Out State :=
  spuNext s fun p => spEstimate p rt (p.get ra) rsqrtTok

/-- `fi`, R1517. -/
def execSpuFi (rt ra rb : BitVec 7) (s : State) : Out State :=
  let cand := buildEls 32 4 fun i => s.free 32 i
  spuNext (s.drew 4) fun p => p.set rt (zip3Els 32 4 fiWord (p.get ra) (p.get rb) cand)

/-! ## Conversions (R1520 to R1526) -/

/-- An instruction with a scale: outside 0 to 127 the result is any value (U62). -/
def scaled (s : State) (rt ra : BitVec 7) (bias : Nat) (i8 : BitVec 8) (f : Nat → Word → Word) : Out State :=
  if i8.toNat ≤ bias ∧ bias ≤ i8.toNat + 127 then
    spuNext s fun p => p.set rt (mapEls 32 4 (f (bias - i8.toNat)) (p.get ra))
  else spuNext (s.drew 1) fun p => p.set rt (s.free 128 0)

/-- An integer divided by 2^sc. -/
def fltOfInt (sc : Nat) (i : Int) : Word :=
  if i = 0 then 0 else (spround (.fin (decide (i < 0)) i.natAbs (-(sc : Int)))).image

/-- A value times 2^sc, truncated to an integer and saturated. -/
def intOfFlt (sat : Int → Word × Bool) (sc : Nat) (w : Word) : Word :=
  match spval w with
  | .fin n m e => (sat (signedNat n (roundInt .zero n m (e + sc)).m)).1
  | _ => 0

/-- `frds` of a doubleword (R1525). Whether the result is below the single normal range is decided before rounding, and
that the forced zero sets INX too: DEDUCED (log 14). -/
def frdsOf (mode : RMode) (w : Nat) : DpRes :=
  dpFinish f64 [w] 0x7FC00000 false <|
    match dpval f64 w with
    | .fin n m e =>
      if f32.tiny m e then { image := f32.image n 0, unf := true, inx := true }
      else
        let r := ieeeRound f32 mode n m e
        if r.overflow then { image := f32.image n f32.infMag, ovf := true, inx := true }
        else { image := r.image, inx := r.inexact }
    | .inf n => { image := f32.image n f32.infMag }
    | .zero n => { image := f32.image n 0 }
    | .nan => { image := 0 }

/-- `fesd` of a word (R1526). It sets DENORM and NaN as R1526 says; that R1495, which says that `fesd` changes no flag, speaks of the
flags of single precision is DEDUCED (log 48). -/
def fesdOf (w : Nat) : DpRes :=
  match dpval f32 w with
  | .fin n m e => { image := (ieeeRound f64 .nearest n m e).image }
  | .inf n => { image := f64.image n f64.infMag }
  | .zero n => { image := f64.image n 0, denorm := isDenorm f32 w }
  | .nan => { image := dpNan, nan := true }

/-- `csflt`, R1520. -/
def execSpuCsflt (rt ra : BitVec 7) (i8 : BitVec 8) (s : State) : Out State :=
  scaled s rt ra 155 i8 fun sc w => fltOfInt sc w.toInt

/-- `cflts`, R1521. -/
def execSpuCflts (rt ra : BitVec 7) (i8 : BitVec 8) (s : State) : Out State :=
  scaled s rt ra 173 i8 (intOfFlt (ssat 32))

/-- `cuflt`, R1522. -/
def execSpuCuflt (rt ra : BitVec 7) (i8 : BitVec 8) (s : State) : Out State :=
  scaled s rt ra 155 i8 fun sc w => fltOfInt sc w.toNat

/-- `cfltu`, R1523. -/
def execSpuCfltu (rt ra : BitVec 7) (i8 : BitVec 8) (s : State) : Out State :=
  scaled s rt ra 173 i8 (intOfFlt (usat 32))

/-- `frds`, R1525. -/
def execSpuFrds (rt ra : BitVec 7) (s : State) : Out State :=
  spuNext s fun p =>
    dpWrite p rt fun j =>
      let r := frdsOf (p.rn j) (dw (p.get ra) j)
      { r with image := r.image * 2^32 }

/-- `fesd`, R1526. -/
def execSpuFesd (rt ra : BitVec 7) (s : State) : Out State :=
  spuNext s fun p => dpWrite p rt fun j => fesdOf (el 32 (p.get ra) (2 * j)).toNat

/-! ## Compares (R1530 to R1539) -/

/-- The magnitude of an operand. -/
def Num.abs : Num → Num
  | .nan => .nan
  | .inf _ => .inf false
  | .zero _ => .zero false
  | .fin _ m e => .fin false m e

/-- A single-precision compare of every word. -/
def spCompare (p : Spe) (rt ra rb : BitVec 7) (f : Num → Num) (rel : Ordering → Bool) : Spe :=
  p.set rt (zipEls 32 4 (fun a b => maskOf 32 (rel (cmpNum (f (spval a)) (f (spval b))))) (p.get ra) (p.get rb))

/-- A double-precision compare of both doublewords: false for a NaN, INV for a signalling one. -/
def dpCompare (p : Spe) (rt ra rb : BitVec 7) (f : Num → Num) (rel : Ordering → Bool) : Spe :=
  dpWrite p rt fun j =>
    let a := dw (p.get ra) j
    let b := dw (p.get rb) j
    let yes := !isNan f64 a && !isNan f64 b && rel (cmpNum (f (dpval f64 a)) (f (dpval f64 b)))
    { image := (maskOf 64 yes).toNat, inv := isSnan f64 a || isSnan f64 b }

/-- The class bit of a doubleword in the order of the I7 field of `dftsv` (R1539). -/
def dpClass (w : DWord) : BitVec 7 :=
  let neg := ibit w 0
  if isNan f64 w.toNat then 0x40
  else if isDenorm f64 w.toNat then (if neg then 0x01 else 0x02)
  else match unpack f64 w.toNat with
    | .inf n => if n then 0x10 else 0x20
    | .zero n => if n then 0x04 else 0x08
    | _ => 0

/-- `fceq`, R1530. -/
def execSpuFceq (rt ra rb : BitVec 7) (s : State) : Out State :=
  spuNext s fun p => spCompare p rt ra rb id (· == .eq)

/-- `fcmeq`, R1531. -/
def execSpuFcmeq (rt ra rb : BitVec 7) (s : State) : Out State :=
  spuNext s fun p => spCompare p rt ra rb Num.abs (· == .eq)

/-- `fcgt`, R1532. -/
def execSpuFcgt (rt ra rb : BitVec 7) (s : State) : Out State :=
  spuNext s fun p => spCompare p rt ra rb id (· == .gt)

/-- `fcmgt`, R1533. -/
def execSpuFcmgt (rt ra rb : BitVec 7) (s : State) : Out State :=
  spuNext s fun p => spCompare p rt ra rb Num.abs (· == .gt)

/-- `dfceq`, R1535. PowerXCell 8i only. -/
def execSpuDfceq (rt ra rb : BitVec 7) (s : State) : Out State :=
  xcellOnly s (spuNext s fun p => dpCompare p rt ra rb id (· == .eq))

/-- `dfcmeq`, R1536. PowerXCell 8i only. -/
def execSpuDfcmeq (rt ra rb : BitVec 7) (s : State) : Out State :=
  xcellOnly s (spuNext s fun p => dpCompare p rt ra rb Num.abs (· == .eq))

/-- `dfcgt`, R1537. PowerXCell 8i only. -/
def execSpuDfcgt (rt ra rb : BitVec 7) (s : State) : Out State :=
  xcellOnly s (spuNext s fun p => dpCompare p rt ra rb id (· == .gt))

/-- `dfcmgt`, R1538. PowerXCell 8i only. -/
def execSpuDfcmgt (rt ra rb : BitVec 7) (s : State) : Out State :=
  xcellOnly s (spuNext s fun p => dpCompare p rt ra rb Num.abs (· == .gt))

/-- `dftsv`, R1539. PowerXCell 8i only. -/
def execSpuDftsv (rt ra i7 : BitVec 7) (s : State) : Out State :=
  xcellOnly s (spuNext s fun p => p.set rt (mapEls 64 2 (fun w => maskOf 64 (dpClass w &&& i7 != 0)) (p.get ra)))

/-! ## FPSCR access -/

/-- The defined bits of FPSCR (11_state_spe R153). -/
def spuFpscrMask : QWord := 0x00000f0700003f0700003f0700000f07

/-- `fscrwr`, R1541. -/
def execSpuFscrwr (ra : BitVec 7) (s : State) : Out State :=
  spuNext s fun p => { p with fpscr := p.get ra &&& spuFpscrMask }

/-- `fscrrd`, R1540. -/
def execSpuFscrrd (rt : BitVec 7) (s : State) : Out State :=
  spuNext s fun p => p.set rt (p.fpscr &&& spuFpscrMask)

end Sys2Proof.Machine
end

