-- ==== Sys2Proof/Machine/SpuInteger.lean ====
section
/-! DEFINITION. SPU integer, logical, select and shuffle instructions (47_spu_integer.md). -/

namespace Sys2Proof.Machine

/-- The low halfword of a word, signed (R1275). -/
def loS (w : Word) : Int := (ibm w 16 16).toInt
/-- The low halfword, unsigned. -/
def loU (w : Word) : Nat := (ibm w 16 16).toNat
/-- The high halfword, signed. -/
def hiS (w : Word) : Int := (ibm w 0 16).toInt
/-- The high halfword, unsigned. -/
def hiU (w : Word) : Nat := (ibm w 0 16).toNat
/-- The exact sum of the words and the carry-in bit 31 of the old target (R1269). -/
def sumX (a b c : Word) : Nat := a.toNat + b.toNat + c.toNat % 2
/-- A word as 1 or 0. -/
def flagWord (b : Bool) : Word := if b then 1 else 0
/-- A word in the preferred slot, the other words 0. -/
def inPref (w : Word) : QWord := buildEls 32 4 fun k => if k = 0 then w else 0
/-- The sum of the four bytes of a word (R1300). -/
def byteSum (w : Word) : Half :=
  (ibm w 0 8).setWidth 16 + (ibm w 8 8).setWidth 16 + (ibm w 16 8).setWidth 16 + (ibm w 24 8).setWidth 16
/-- The least-significant bits of the `cnt` elements of `len` bits, element 0 leftmost (R1295). -/
def gatherBits (len cnt : Nat) (q : QWord) : Nat := catEls 1 (fun k => (el len q k).setWidth 1) cnt

/-! ## Add and subtract -/

/-- `a`, R1261. -/
def execSpuA (rt ra rb : BitVec 7) (s : State) : Out State :=
  spuNext s fun p => p.set rt (zipEls 32 4 (fun a b => a + b) (p.get ra) (p.get rb))

/-- `ah`, R1262. -/
def execSpuAh (rt ra rb : BitVec 7) (s : State) : Out State :=
  spuNext s fun p => p.set rt (zipEls 16 8 (fun a b => a + b) (p.get ra) (p.get rb))

/-- `ai`, R1263. -/
def execSpuAi (rt ra : BitVec 7) (i10 : BitVec 10) (s : State) : Out State :=
  spuNext s fun p => p.set rt (mapEls 32 4 (fun a => a + i10.signExtend 32) (p.get ra))

/-- `ahi`, R1264. -/
def execSpuAhi (rt ra : BitVec 7) (i10 : BitVec 10) (s : State) : Out State :=
  spuNext s fun p => p.set rt (mapEls 16 8 (fun a => a + i10.signExtend 16) (p.get ra))

/-- `sf`, R1265. -/
def execSpuSf (rt ra rb : BitVec 7) (s : State) : Out State :=
  spuNext s fun p => p.set rt (zipEls 32 4 (fun a b => b - a) (p.get ra) (p.get rb))

/-- `sfh`, R1266. -/
def execSpuSfh (rt ra rb : BitVec 7) (s : State) : Out State :=
  spuNext s fun p => p.set rt (zipEls 16 8 (fun a b => b - a) (p.get ra) (p.get rb))

/-- `sfi`, R1267. -/
def execSpuSfi (rt ra : BitVec 7) (i10 : BitVec 10) (s : State) : Out State :=
  spuNext s fun p => p.set rt (mapEls 32 4 (fun a => i10.signExtend 32 - a) (p.get ra))

/-- `sfhi`, R1268. -/
def execSpuSfhi (rt ra : BitVec 7) (i10 : BitVec 10) (s : State) : Out State :=
  spuNext s fun p => p.set rt (mapEls 16 8 (fun a => i10.signExtend 16 - a) (p.get ra))

/-- `addx`, R1269. -/
def execSpuAddx (rt ra rb : BitVec 7) (s : State) : Out State :=
  spuNext s fun p =>
    p.set rt (zip3Els 32 4 (fun a b c => BitVec.ofNat 32 (sumX a b c)) (p.get ra) (p.get rb) (p.get rt))

/-- `cg`, R1270. -/
def execSpuCg (rt ra rb : BitVec 7) (s : State) : Out State :=
  spuNext s fun p =>
    p.set rt (zipEls 32 4 (fun a b => flagWord (decide (2^32 ≤ a.toNat + b.toNat))) (p.get ra) (p.get rb))

/-- `cgx`, R1271. -/
def execSpuCgx (rt ra rb : BitVec 7) (s : State) : Out State :=
  spuNext s fun p =>
    p.set rt (zip3Els 32 4 (fun a b c => flagWord (decide (2^32 ≤ sumX a b c))) (p.get ra) (p.get rb) (p.get rt))

/-- `sfx`, R1272. -/
def execSpuSfx (rt ra rb : BitVec 7) (s : State) : Out State :=
  spuNext s fun p =>
    p.set rt (zip3Els 32 4 (fun a b c => BitVec.ofNat 32 (sumX (~~~a) b c)) (p.get ra) (p.get rb) (p.get rt))

/-- `bg`, R1273. -/
def execSpuBg (rt ra rb : BitVec 7) (s : State) : Out State :=
  spuNext s fun p =>
    p.set rt (zipEls 32 4 (fun a b => flagWord (decide (a.toNat ≤ b.toNat))) (p.get ra) (p.get rb))

/-- `bgx`, R1274. -/
def execSpuBgx (rt ra rb : BitVec 7) (s : State) : Out State :=
  spuNext s fun p =>
    p.set rt (zip3Els 32 4 (fun a b c => flagWord (decide (2^32 ≤ sumX (~~~a) b c))) (p.get ra) (p.get rb) (p.get rt))

/-! ## Multiply -/

/-- `mpy`, R1275. -/
def execSpuMpy (rt ra rb : BitVec 7) (s : State) : Out State :=
  spuNext s fun p => p.set rt (zipEls 32 4 (fun a b => truncInt 32 (loS a * loS b)) (p.get ra) (p.get rb))

/-- `mpyu`, R1276. -/
def execSpuMpyu (rt ra rb : BitVec 7) (s : State) : Out State :=
  spuNext s fun p => p.set rt (zipEls 32 4 (fun a b => BitVec.ofNat 32 (loU a * loU b)) (p.get ra) (p.get rb))

/-- `mpyi`, R1277. -/
def execSpuMpyi (rt ra : BitVec 7) (i10 : BitVec 10) (s : State) : Out State :=
  spuNext s fun p => p.set rt (mapEls 32 4 (fun a => truncInt 32 (loS a * i10.toInt)) (p.get ra))

/-- `mpyui`, R1278. -/
def execSpuMpyui (rt ra : BitVec 7) (i10 : BitVec 10) (s : State) : Out State :=
  spuNext s fun p =>
    p.set rt (mapEls 32 4 (fun a => BitVec.ofNat 32 (loU a * (i10.signExtend 16).toNat)) (p.get ra))

/-- `mpya`, R1279. -/
def execSpuMpya (rt ra rb rc : BitVec 7) (s : State) : Out State :=
  spuNext s fun p =>
    p.set rt (zip3Els 32 4 (fun a b c => truncInt 32 (loS a * loS b) + c) (p.get ra) (p.get rb) (p.get rc))

/-- `mpyh`, R1280. -/
def execSpuMpyh (rt ra rb : BitVec 7) (s : State) : Out State :=
  spuNext s fun p =>
    p.set rt (zipEls 32 4 (fun a b => BitVec.ofNat 32 (hiU a * loU b * 2^16)) (p.get ra) (p.get rb))

/-- `mpys`, R1281. -/
def execSpuMpys (rt ra rb : BitVec 7) (s : State) : Out State :=
  spuNext s fun p =>
    p.set rt (zipEls 32 4 (fun a b => truncInt 32 (loS a * loS b / 2^16)) (p.get ra) (p.get rb))

/-- `mpyhh`, R1282. -/
def execSpuMpyhh (rt ra rb : BitVec 7) (s : State) : Out State :=
  spuNext s fun p => p.set rt (zipEls 32 4 (fun a b => truncInt 32 (hiS a * hiS b)) (p.get ra) (p.get rb))

/-- `mpyhha`, R1283. -/
def execSpuMpyhha (rt ra rb : BitVec 7) (s : State) : Out State :=
  spuNext s fun p =>
    p.set rt (zip3Els 32 4 (fun a b c => truncInt 32 (hiS a * hiS b) + c) (p.get ra) (p.get rb) (p.get rt))

/-- `mpyhhu`, R1284. -/
def execSpuMpyhhu (rt ra rb : BitVec 7) (s : State) : Out State :=
  spuNext s fun p => p.set rt (zipEls 32 4 (fun a b => BitVec.ofNat 32 (hiU a * hiU b)) (p.get ra) (p.get rb))

/-- `mpyhhau`, R1285. -/
def execSpuMpyhhau (rt ra rb : BitVec 7) (s : State) : Out State :=
  spuNext s fun p =>
    p.set rt (zip3Els 32 4 (fun a b c => BitVec.ofNat 32 (hiU a * hiU b) + c) (p.get ra) (p.get rb) (p.get rt))

/-! ## Count, mask, gather, byte arithmetic, sign extension -/

/-- `clz`, R1290. -/
def execSpuClz (rt ra : BitVec 7) (s : State) : Out State :=
  spuNext s fun p => p.set rt (mapEls 32 4 (fun a => BitVec.ofNat 32 (clz a)) (p.get ra))

/-- `cntb`, R1291. -/
def execSpuCntb (rt ra : BitVec 7) (s : State) : Out State :=
  spuNext s fun p => p.set rt (mapEls 8 16 (fun a => BitVec.ofNat 8 (popcount a)) (p.get ra))

/-- `fsmb`, R1292. -/
def execSpuFsmb (rt ra : BitVec 7) (s : State) : Out State :=
  spuNext s fun p => p.set rt (buildEls 8 16 fun k => maskOf 8 (ibit (ibm (p.pref ra) 16 16) k))

/-- `fsmh`, R1293. -/
def execSpuFsmh (rt ra : BitVec 7) (s : State) : Out State :=
  spuNext s fun p => p.set rt (buildEls 16 8 fun k => maskOf 16 (ibit (ibm (p.pref ra) 24 8) k))

/-- `fsm`, R1294. -/
def execSpuFsm (rt ra : BitVec 7) (s : State) : Out State :=
  spuNext s fun p => p.set rt (buildEls 32 4 fun k => maskOf 32 (ibit (ibm (p.pref ra) 28 4) k))

/-- `gbb`, R1295. -/
def execSpuGbb (rt ra : BitVec 7) (s : State) : Out State :=
  spuNext s fun p => p.set rt (inPref (BitVec.ofNat 32 (gatherBits 8 16 (p.get ra))))

/-- `gbh`, R1296. -/
def execSpuGbh (rt ra : BitVec 7) (s : State) : Out State :=
  spuNext s fun p => p.set rt (inPref (BitVec.ofNat 32 (gatherBits 16 8 (p.get ra))))

/-- `gb`, R1297. -/
def execSpuGb (rt ra : BitVec 7) (s : State) : Out State :=
  spuNext s fun p => p.set rt (inPref (BitVec.ofNat 32 (gatherBits 32 4 (p.get ra))))

/-- `avgb`, R1298. -/
def execSpuAvgb (rt ra rb : BitVec 7) (s : State) : Out State :=
  spuNext s fun p =>
    p.set rt (zipEls 8 16 (fun a b => BitVec.ofNat 8 ((a.toNat + b.toNat + 1) / 2)) (p.get ra) (p.get rb))

/-- `absdb`, R1299. -/
def execSpuAbsdb (rt ra rb : BitVec 7) (s : State) : Out State :=
  spuNext s fun p =>
    p.set rt (zipEls 8 16 (fun a b => BitVec.ofNat 8 (a.toNat - b.toNat + (b.toNat - a.toNat))) (p.get ra) (p.get rb))

/-- `sumb`, R1300. -/
def execSpuSumb (rt ra rb : BitVec 7) (s : State) : Out State :=
  spuNext s fun p => p.set rt (zipEls 32 4 (fun a b => byteSum b ++ byteSum a) (p.get ra) (p.get rb))

/-- `xsbh`, R1301. -/
def execSpuXsbh (rt ra : BitVec 7) (s : State) : Out State :=
  spuNext s fun p => p.set rt (mapEls 16 8 (fun a => (ibm a 8 8).signExtend 16) (p.get ra))

/-- `xshw`, R1302. -/
def execSpuXshw (rt ra : BitVec 7) (s : State) : Out State :=
  spuNext s fun p => p.set rt (mapEls 32 4 (fun a => (ibm a 16 16).signExtend 32) (p.get ra))

/-- `xswd`, R1303. -/
def execSpuXswd (rt ra : BitVec 7) (s : State) : Out State :=
  spuNext s fun p => p.set rt (mapEls 64 2 (fun a => (ibm a 32 32).signExtend 64) (p.get ra))

/-! ## Logical -/

/-- `and`, R1305. -/
def execSpuAnd (rt ra rb : BitVec 7) (s : State) : Out State :=
  spuNext s fun p => p.set rt (p.get ra &&& p.get rb)

/-- `andc`, R1306. -/
def execSpuAndc (rt ra rb : BitVec 7) (s : State) : Out State :=
  spuNext s fun p => p.set rt (p.get ra &&& ~~~(p.get rb))

/-- `or`, R1310. -/
def execSpuOr (rt ra rb : BitVec 7) (s : State) : Out State :=
  spuNext s fun p => p.set rt (p.get ra ||| p.get rb)

/-- `orc`, R1311. -/
def execSpuOrc (rt ra rb : BitVec 7) (s : State) : Out State :=
  spuNext s fun p => p.set rt (p.get ra ||| ~~~(p.get rb))

/-- `xor`, R1316. -/
def execSpuXor (rt ra rb : BitVec 7) (s : State) : Out State :=
  spuNext s fun p => p.set rt (p.get ra ^^^ p.get rb)

/-- `nand`, R1320. -/
def execSpuNand (rt ra rb : BitVec 7) (s : State) : Out State :=
  spuNext s fun p => p.set rt (~~~(p.get ra &&& p.get rb))

/-- `nor`, R1321. -/
def execSpuNor (rt ra rb : BitVec 7) (s : State) : Out State :=
  spuNext s fun p => p.set rt (~~~(p.get ra ||| p.get rb))

/-- `eqv`, R1322. -/
def execSpuEqv (rt ra rb : BitVec 7) (s : State) : Out State :=
  spuNext s fun p => p.set rt (~~~(p.get ra ^^^ p.get rb))

/-- `andbi`, R1307. -/
def execSpuAndbi (rt ra : BitVec 7) (i10 : BitVec 10) (s : State) : Out State :=
  spuNext s fun p => p.set rt (mapEls 8 16 (fun a => a &&& i10.setWidth 8) (p.get ra))

/-- `andhi`, R1308. -/
def execSpuAndhi (rt ra : BitVec 7) (i10 : BitVec 10) (s : State) : Out State :=
  spuNext s fun p => p.set rt (mapEls 16 8 (fun a => a &&& i10.signExtend 16) (p.get ra))

/-- `andi`, R1309. -/
def execSpuAndi (rt ra : BitVec 7) (i10 : BitVec 10) (s : State) : Out State :=
  spuNext s fun p => p.set rt (mapEls 32 4 (fun a => a &&& i10.signExtend 32) (p.get ra))

/-- `orbi`, R1312. -/
def execSpuOrbi (rt ra : BitVec 7) (i10 : BitVec 10) (s : State) : Out State :=
  spuNext s fun p => p.set rt (mapEls 8 16 (fun a => a ||| i10.setWidth 8) (p.get ra))

/-- `orhi`, R1313. -/
def execSpuOrhi (rt ra : BitVec 7) (i10 : BitVec 10) (s : State) : Out State :=
  spuNext s fun p => p.set rt (mapEls 16 8 (fun a => a ||| i10.signExtend 16) (p.get ra))

/-- `ori`, R1314. -/
def execSpuOri (rt ra : BitVec 7) (i10 : BitVec 10) (s : State) : Out State :=
  spuNext s fun p => p.set rt (mapEls 32 4 (fun a => a ||| i10.signExtend 32) (p.get ra))

/-- `xorbi`, R1317. -/
def execSpuXorbi (rt ra : BitVec 7) (i10 : BitVec 10) (s : State) : Out State :=
  spuNext s fun p => p.set rt (mapEls 8 16 (fun a => a ^^^ i10.setWidth 8) (p.get ra))

/-- `xorhi`, R1318. -/
def execSpuXorhi (rt ra : BitVec 7) (i10 : BitVec 10) (s : State) : Out State :=
  spuNext s fun p => p.set rt (mapEls 16 8 (fun a => a ^^^ i10.signExtend 16) (p.get ra))

/-- `xori`, R1319. -/
def execSpuXori (rt ra : BitVec 7) (i10 : BitVec 10) (s : State) : Out State :=
  spuNext s fun p => p.set rt (mapEls 32 4 (fun a => a ^^^ i10.signExtend 32) (p.get ra))

/-- `orx`, R1315. -/
def execSpuOrx (rt ra : BitVec 7) (s : State) : Out State :=
  spuNext s fun p =>
    p.set rt (inPref (el 32 (p.get ra) 0 ||| el 32 (p.get ra) 1 ||| el 32 (p.get ra) 2 ||| el 32 (p.get ra) 3))

/-! ## Select and shuffle -/

/-- One byte of a shuffle (R1330). -/
def shuffleByte (a b : QWord) (c : Byte) : Byte :=
  if ibm c 0 2 = 0b10 then 0
  else if ibm c 0 3 = 0b110 then 0xFF
  else if ibm c 0 3 = 0b111 then 0x80
  else
    let k := (ibm c 3 5).toNat
    if k < 16 then el 8 a k else el 8 b (k - 16)

/-- `selb`, R1329. -/
def execSpuSelb (rt ra rb rc : BitVec 7) (s : State) : Out State :=
  spuNext s fun p => p.set rt ((p.get rc &&& p.get rb) ||| (~~~(p.get rc) &&& p.get ra))

/-- `shufb`, R1330. -/
def execSpuShufb (rt ra rb rc : BitVec 7) (s : State) : Out State :=
  spuNext s fun p => p.set rt (mapEls 8 16 (shuffleByte (p.get ra) (p.get rb)) (p.get rc))

end Sys2Proof.Machine
end

