-- ==== Sys2Proof/Machine/SpuLoadConst.lean ====
section
/-! DEFINITION. SPU load, store, store-assist and constant-formation instructions (46_spu_loadstore_const.md). -/

namespace Sys2Proof.Machine

/-- `lqd`, R1223. -/
def execSpuLqd (rt ra : BitVec 7) (i10 : BitVec 10) (s : State) : Out State :=
  spuNext s fun p => p.set rt (p.lsQuad (lsaD p ra i10))

/-- `lqx`, R1224. -/
def execSpuLqx (rt ra rb : BitVec 7) (s : State) : Out State :=
  spuNext s fun p => p.set rt (p.lsQuad (lsaX p ra rb))

/-- `lqa`, R1225. -/
def execSpuLqa (rt : BitVec 7) (i16 : BitVec 16) (s : State) : Out State :=
  spuNext s fun p => p.set rt (p.lsQuad (lsaA p i16))

/-- `lqr`, R1226. -/
def execSpuLqr (rt : BitVec 7) (i16 : BitVec 16) (s : State) : Out State :=
  spuNext s fun p => p.set rt (p.lsQuad (lsaR p i16))

/-- `stqd`, R1227. -/
def execSpuStqd (rt ra : BitVec 7) (i10 : BitVec 10) (s : State) : Out State :=
  spuNext s fun p => p.setLsQuad (lsaD p ra i10) (p.get rt)

/-- `stqx`, R1228. -/
def execSpuStqx (rt ra rb : BitVec 7) (s : State) : Out State :=
  spuNext s fun p => p.setLsQuad (lsaX p ra rb) (p.get rt)

/-- `stqa`, R1229. -/
def execSpuStqa (rt : BitVec 7) (i16 : BitVec 16) (s : State) : Out State :=
  spuNext s fun p => p.setLsQuad (lsaA p i16) (p.get rt)

/-- `stqr`, R1230. -/
def execSpuStqr (rt : BitVec 7) (i16 : BitVec 16) (s : State) : Out State :=
  spuNext s fun p => p.setLsQuad (lsaR p i16) (p.get rt)

/-! ## Store-assist: controls for insertion (R1231) -/

/-- `cbd`, R1232. -/
def execSpuCbd (rt ra i7 : BitVec 7) (s : State) : Out State :=
  spuNext s fun p => p.set rt (insertControl 1 (p.pref ra + i7.setWidth 32))

/-- `cbx`, R1233. -/
def execSpuCbx (rt ra rb : BitVec 7) (s : State) : Out State :=
  spuNext s fun p => p.set rt (insertControl 1 (p.pref ra + p.pref rb))

/-- `chd`, R1234. -/
def execSpuChd (rt ra i7 : BitVec 7) (s : State) : Out State :=
  spuNext s fun p => p.set rt (insertControl 2 (p.pref ra + i7.setWidth 32))

/-- `chx`, R1235. -/
def execSpuChx (rt ra rb : BitVec 7) (s : State) : Out State :=
  spuNext s fun p => p.set rt (insertControl 2 (p.pref ra + p.pref rb))

/-- `cwd`, R1236. -/
def execSpuCwd (rt ra i7 : BitVec 7) (s : State) : Out State :=
  spuNext s fun p => p.set rt (insertControl 4 (p.pref ra + i7.setWidth 32))

/-- `cwx`, R1237. -/
def execSpuCwx (rt ra rb : BitVec 7) (s : State) : Out State :=
  spuNext s fun p => p.set rt (insertControl 4 (p.pref ra + p.pref rb))

/-- `cdd`, R1238. -/
def execSpuCdd (rt ra i7 : BitVec 7) (s : State) : Out State :=
  spuNext s fun p => p.set rt (insertControl 8 (p.pref ra + i7.setWidth 32))

/-- `cdx`, R1239. -/
def execSpuCdx (rt ra rb : BitVec 7) (s : State) : Out State :=
  spuNext s fun p => p.set rt (insertControl 8 (p.pref ra + p.pref rb))

/-! ## Constant formation -/

/-- `ilh`, R1240. -/
def execSpuIlh (rt : BitVec 7) (i16 : BitVec 16) (s : State) : Out State :=
  spuNext s fun p => p.set rt (buildEls 16 8 fun _ => i16)

/-- `ilhu`, R1241. -/
def execSpuIlhu (rt : BitVec 7) (i16 : BitVec 16) (s : State) : Out State :=
  spuNext s fun p => p.set rt (buildEls 32 4 fun _ => i16 ++ 0#16)

/-- `il`, R1242. -/
def execSpuIl (rt : BitVec 7) (i16 : BitVec 16) (s : State) : Out State :=
  spuNext s fun p => p.set rt (buildEls 32 4 fun _ => i16.signExtend 32)

/-- `ila`, R1243. -/
def execSpuIla (rt : BitVec 7) (i18 : BitVec 18) (s : State) : Out State :=
  spuNext s fun p => p.set rt (buildEls 32 4 fun _ => i18.setWidth 32)

/-- `iohl`, R1244. -/
def execSpuIohl (rt : BitVec 7) (i16 : BitVec 16) (s : State) : Out State :=
  spuNext s fun p => p.set rt (mapEls 32 4 (fun w => w ||| i16.setWidth 32) (p.get rt))

/-- `fsmbi`, R1245. -/
def execSpuFsmbi (rt : BitVec 7) (i16 : BitVec 16) (s : State) : Out State :=
  spuNext s fun p => p.set rt (buildEls 8 16 fun k => maskOf 8 (ibit i16 k))

end Sys2Proof.Machine
end

