-- ==== Sys2Proof/Machine/SpuShift.lean ====
section
/-! DEFINITION. SPU shift and rotate instructions (47_spu_shift_rotate.md). A shift by the element's size or more gives zeros, or copies of
the sign (R1350), which is what the shifts of BitVec do. -/

namespace Sys2Proof.Machine

/-- The shift distance of a rotate-and-mask: the negated count, modulo `m`, a power of two that divides 2^n (R1350). -/
def negCount {n : Nat} (m : Nat) (count : BitVec n) : Nat := (m - count.toNat % m) % m

/-- `shlh`, R1351. -/
def execSpuShlh (rt ra rb : BitVec 7) (s : State) : Out State :=
  spuNext s fun p => p.set rt (zipEls 16 8 (fun a b => a <<< (b.toNat % 32)) (p.get ra) (p.get rb))

/-- `shlhi`, R1352. -/
def execSpuShlhi (rt ra i7 : BitVec 7) (s : State) : Out State :=
  spuNext s fun p => p.set rt (mapEls 16 8 (fun a => a <<< (i7.toNat % 32)) (p.get ra))

/-- `shl`, R1353. -/
def execSpuShl (rt ra rb : BitVec 7) (s : State) : Out State :=
  spuNext s fun p => p.set rt (zipEls 32 4 (fun a b => a <<< (b.toNat % 64)) (p.get ra) (p.get rb))

/-- `shli`, R1354. -/
def execSpuShli (rt ra i7 : BitVec 7) (s : State) : Out State :=
  spuNext s fun p => p.set rt (mapEls 32 4 (fun a => a <<< (i7.toNat % 64)) (p.get ra))

/-- `shlqbi`, R1355. -/
def execSpuShlqbi (rt ra rb : BitVec 7) (s : State) : Out State :=
  spuNext s fun p => p.set rt (p.get ra <<< ((p.pref rb).toNat % 8))

/-- `shlqbii`, R1356. -/
def execSpuShlqbii (rt ra i7 : BitVec 7) (s : State) : Out State :=
  spuNext s fun p => p.set rt (p.get ra <<< (i7.toNat % 8))

/-- `shlqby`, R1357. -/
def execSpuShlqby (rt ra rb : BitVec 7) (s : State) : Out State :=
  spuNext s fun p => p.set rt (p.get ra <<< (8 * ((p.pref rb).toNat % 32)))

/-- `shlqbyi`, R1358. -/
def execSpuShlqbyi (rt ra i7 : BitVec 7) (s : State) : Out State :=
  spuNext s fun p => p.set rt (p.get ra <<< (8 * (i7.toNat % 32)))

/-- `shlqbybi`, R1359. -/
def execSpuShlqbybi (rt ra rb : BitVec 7) (s : State) : Out State :=
  spuNext s fun p => p.set rt (p.get ra <<< (8 * ((p.pref rb).toNat / 8 % 32)))

/-! ## Rotate left -/

/-- `roth`, R1360. -/
def execSpuRoth (rt ra rb : BitVec 7) (s : State) : Out State :=
  spuNext s fun p => p.set rt (zipEls 16 8 (fun a b => a.rotateLeft (b.toNat % 16)) (p.get ra) (p.get rb))

/-- `rothi`, R1361. -/
def execSpuRothi (rt ra i7 : BitVec 7) (s : State) : Out State :=
  spuNext s fun p => p.set rt (mapEls 16 8 (fun a => a.rotateLeft (i7.toNat % 16)) (p.get ra))

/-- `rot`, R1362. -/
def execSpuRot (rt ra rb : BitVec 7) (s : State) : Out State :=
  spuNext s fun p => p.set rt (zipEls 32 4 (fun a b => a.rotateLeft (b.toNat % 32)) (p.get ra) (p.get rb))

/-- `roti`, R1363. -/
def execSpuRoti (rt ra i7 : BitVec 7) (s : State) : Out State :=
  spuNext s fun p => p.set rt (mapEls 32 4 (fun a => a.rotateLeft (i7.toNat % 32)) (p.get ra))

/-- `rotqbi`, R1364. -/
def execSpuRotqbi (rt ra rb : BitVec 7) (s : State) : Out State :=
  spuNext s fun p => p.set rt ((p.get ra).rotateLeft ((p.pref rb).toNat % 8))

/-- `rotqbii`, R1365. -/
def execSpuRotqbii (rt ra i7 : BitVec 7) (s : State) : Out State :=
  spuNext s fun p => p.set rt ((p.get ra).rotateLeft (i7.toNat % 8))

/-- `rotqby`, R1366. -/
def execSpuRotqby (rt ra rb : BitVec 7) (s : State) : Out State :=
  spuNext s fun p => p.set rt ((p.get ra).rotateLeft (8 * ((p.pref rb).toNat % 16)))

/-- `rotqbyi`, R1367. -/
def execSpuRotqbyi (rt ra i7 : BitVec 7) (s : State) : Out State :=
  spuNext s fun p => p.set rt ((p.get ra).rotateLeft (8 * (i7.toNat % 16)))

/-- `rotqbybi`, R1368. -/
def execSpuRotqbybi (rt ra rb : BitVec 7) (s : State) : Out State :=
  spuNext s fun p => p.set rt ((p.get ra).rotateLeft (8 * ((p.pref rb).toNat / 8 % 16)))

/-! ## Rotate and mask: right shifts by the negated count -/

/-- `rothm`, R1369. -/
def execSpuRothm (rt ra rb : BitVec 7) (s : State) : Out State :=
  spuNext s fun p => p.set rt (zipEls 16 8 (fun a b => a >>> negCount 32 b) (p.get ra) (p.get rb))

/-- `rothmi`, R1370. -/
def execSpuRothmi (rt ra i7 : BitVec 7) (s : State) : Out State :=
  spuNext s fun p => p.set rt (mapEls 16 8 (fun a => a >>> negCount 32 i7) (p.get ra))

/-- `rotm`, R1371. -/
def execSpuRotm (rt ra rb : BitVec 7) (s : State) : Out State :=
  spuNext s fun p => p.set rt (zipEls 32 4 (fun a b => a >>> negCount 64 b) (p.get ra) (p.get rb))

/-- `rotmi`, R1372. -/
def execSpuRotmi (rt ra i7 : BitVec 7) (s : State) : Out State :=
  spuNext s fun p => p.set rt (mapEls 32 4 (fun a => a >>> negCount 64 i7) (p.get ra))

/-- `rotqmbi`, R1373. -/
def execSpuRotqmbi (rt ra rb : BitVec 7) (s : State) : Out State :=
  spuNext s fun p => p.set rt (p.get ra >>> negCount 8 (p.pref rb))

/-- `rotqmbii`, R1374. -/
def execSpuRotqmbii (rt ra i7 : BitVec 7) (s : State) : Out State :=
  spuNext s fun p => p.set rt (p.get ra >>> negCount 8 i7)

/-- `rotqmby`, R1375. -/
def execSpuRotqmby (rt ra rb : BitVec 7) (s : State) : Out State :=
  spuNext s fun p => p.set rt (p.get ra >>> (8 * negCount 32 (p.pref rb)))

/-- `rotqmbyi`, R1376. -/
def execSpuRotqmbyi (rt ra i7 : BitVec 7) (s : State) : Out State :=
  spuNext s fun p => p.set rt (p.get ra >>> (8 * negCount 32 i7))

/-- `rotqmbybi`, R1377. -/
def execSpuRotqmbybi (rt ra rb : BitVec 7) (s : State) : Out State :=
  spuNext s fun p => p.set rt (p.get ra >>> (8 * negCount 32 (ibm (p.pref rb) 24 5)))

/-! ## Rotate and mask algebraic -/

/-- `rotmah`, R1378. -/
def execSpuRotmah (rt ra rb : BitVec 7) (s : State) : Out State :=
  spuNext s fun p => p.set rt (zipEls 16 8 (fun a b => a.sshiftRight (negCount 32 b)) (p.get ra) (p.get rb))

/-- `rotmahi`, R1379. -/
def execSpuRotmahi (rt ra i7 : BitVec 7) (s : State) : Out State :=
  spuNext s fun p => p.set rt (mapEls 16 8 (fun a => a.sshiftRight (negCount 32 i7)) (p.get ra))

/-- `rotma`, R1380. -/
def execSpuRotma (rt ra rb : BitVec 7) (s : State) : Out State :=
  spuNext s fun p => p.set rt (zipEls 32 4 (fun a b => a.sshiftRight (negCount 64 b)) (p.get ra) (p.get rb))

/-- `rotmai`, R1381. -/
def execSpuRotmai (rt ra i7 : BitVec 7) (s : State) : Out State :=
  spuNext s fun p => p.set rt (mapEls 32 4 (fun a => a.sshiftRight (negCount 64 i7)) (p.get ra))

end Sys2Proof.Machine
end

