-- ==== Sys2Proof/Machine/VmxLoadStore.lean ====
section
/-! DEFINITION. Loads, stores and data-stream instructions of the vector unit (45_ppe_vmx_1.md section 2). -/

namespace Sys2Proof.Machine

/-- MSR[VXU] is tested first (R1000). -/
def vmxGuard (s : State) (o : Out State) : Out State := if ibit s.thr.msr 38 then o else s.vxuUnavailable

/-- EA := (RA|0) + GPR[RB], truncated in 32-bit mode (R1002). -/
def Thread.eaV (th : Thread) (ra rb : BitVec 5) : DWord := th.truncEa (th.raOr0 ra + th.getGpr rb)

/-- EA[60:63]. -/
def lowBits (ea : DWord) : Nat := ea.toNat % 16

/-- Load `len` bytes at `ea` and put `conv` of them into VRT. -/
def vecLoad (s : State) (ea : DWord) (len : Nat) (al : Align) (vrt : BitVec 5) (conv : Nat → QWord) : Out State :=
  vmxGuard s (loadThen s ea len al conv fun v s => s.modThr fun th => (th.setVr vrt v).advance)

/-- Load one element of `n` bytes; the other elements are any value (U55). -/
def vecLoadEl (s : State) (ea : DWord) (n : Nat) (vrt : BitVec 5) : Out State :=
  let ea := ea &&& ~~~(BitVec.ofNat 64 (n - 1))
  vmxGuard s (loadThen s ea n alignNone (BitVec.ofNat (8 * n)) fun v s =>
    (s.drew 1).modThr fun th => (th.setVr vrt (setIbm (s.free 128 0) (8 * lowBits ea) v)).advance)

/-- The quadword at `ea` rounded down. -/
def vecLoadQuad (s : State) (ea : DWord) (vrt : BitVec 5) : Out State :=
  vecLoad s (ea &&& ~~~15#64) 16 alignNone vrt (BitVec.ofNat 128)

/-- The bytes from `ea` to the end of its quadword, left-justified (R1008). On caching-inhibited storage an alignment interrupt
(60_exceptions R1827 item 10, log 13), as for the three other left and right accesses; DAR is then the address of the first byte
accessed, DESIGN CHOICE (log 13). -/
def vecLoadLeft (s : State) (ea : DWord) (vrt : BitVec 5) : Out State :=
  vecLoad s ea (16 - lowBits ea) alignCached vrt fun v => BitVec.ofNat 128 (v * 256^lowBits ea)

/-- The bytes of the quadword below `ea`, right-justified; no access where there are none (R1010). -/
def vecLoadRight (s : State) (ea : DWord) (vrt : BitVec 5) : Out State :=
  if lowBits ea = 0 then vmxNext s fun th => th.setVr vrt 0
  else vecLoad s (ea &&& ~~~15#64) (lowBits ea) alignCached vrt (BitVec.ofNat 128)

/-- Store the `len` low bytes of `v` at `ea`. -/
def vecStore (s : State) (ea : DWord) (len : Nat) (al : Align) (v : Nat) : Out State :=
  vmxGuard s (storeThen s ea len al v fun s => s.modThr Thread.advance)

/-- Store element of `n` bytes that `ea` selects. -/
def vecStoreEl (s : State) (ea : DWord) (n : Nat) (q : QWord) : Out State :=
  let ea := ea &&& ~~~(BitVec.ofNat 64 (n - 1))
  vecStore s ea n alignNone (q.toNat / 256^(16 - n - lowBits ea) % 256^n)

/-- Store the quadword at `ea` rounded down. -/
def vecStoreQuad (s : State) (ea : DWord) (q : QWord) : Out State := vecStore s (ea &&& ~~~15#64) 16 alignNone q.toNat

/-- Store the leftmost bytes up to the end of the quadword of `ea` (R1019). -/
def vecStoreLeft (s : State) (ea : DWord) (q : QWord) : Out State :=
  vecStore s ea (16 - lowBits ea) alignCached (q.toNat / 256^lowBits ea)

/-- Store the rightmost bytes below `ea`; nothing where there are none (R1021). -/
def vecStoreRight (s : State) (ea : DWord) (q : QWord) : Out State :=
  if lowBits ea = 0 then vmxNext s id else vecStore s (ea &&& ~~~15#64) (lowBits ea) alignCached (q.toNat % 256^lowBits ea)

/-! ## Loads -/

/-- `lvx`, R1003. -/
def execPpeLvx (vrt ra rb : BitVec 5) (s : State) : Out State :=
  vecLoadQuad s (s.thr.eaV ra rb) vrt

/-- `lvxl`, R1004. -/
def execPpeLvxl (vrt ra rb : BitVec 5) (s : State) : Out State :=
  vecLoadQuad s (s.thr.eaV ra rb) vrt

/-- `lvlx`, R1008. -/
def execPpeLvlx (vrt ra rb : BitVec 5) (s : State) : Out State :=
  vecLoadLeft s (s.thr.eaV ra rb) vrt

/-- `lvlxl`, R1009. -/
def execPpeLvlxl (vrt ra rb : BitVec 5) (s : State) : Out State :=
  vecLoadLeft s (s.thr.eaV ra rb) vrt

/-- `lvrx`, R1010. -/
def execPpeLvrx (vrt ra rb : BitVec 5) (s : State) : Out State :=
  vecLoadRight s (s.thr.eaV ra rb) vrt

/-- `lvrxl`, R1011. -/
def execPpeLvrxl (vrt ra rb : BitVec 5) (s : State) : Out State :=
  vecLoadRight s (s.thr.eaV ra rb) vrt

/-- `lvebx`, R1005. -/
def execPpeLvebx (vrt ra rb : BitVec 5) (s : State) : Out State :=
  vecLoadEl s (s.thr.eaV ra rb) 1 vrt

/-- `lvehx`, R1006. -/
def execPpeLvehx (vrt ra rb : BitVec 5) (s : State) : Out State :=
  vecLoadEl s (s.thr.eaV ra rb) 2 vrt

/-- `lvewx`, R1007. -/
def execPpeLvewx (vrt ra rb : BitVec 5) (s : State) : Out State :=
  vecLoadEl s (s.thr.eaV ra rb) 4 vrt

/-- `lvsl`, R1012. -/
def execPpeLvsl (vrt ra rb : BitVec 5) (s : State) : Out State :=
  vmxNext s fun th =>
    th.setVr vrt (buildEls 8 16 fun i => BitVec.ofNat 8 (lowBits (th.eaV ra rb) + i))

/-- `lvsr`, R1013. -/
def execPpeLvsr (vrt ra rb : BitVec 5) (s : State) : Out State :=
  vmxNext s fun th =>
    th.setVr vrt (buildEls 8 16 fun i => BitVec.ofNat 8 (16 - lowBits (th.eaV ra rb) + i))

/-! ## Stores -/

/-- `stvx`, R1014. -/
def execPpeStvx (vrs ra rb : BitVec 5) (s : State) : Out State :=
  vecStoreQuad s (s.thr.eaV ra rb) (s.thr.getVr vrs)

/-- `stvxl`, R1015. -/
def execPpeStvxl (vrs ra rb : BitVec 5) (s : State) : Out State :=
  vecStoreQuad s (s.thr.eaV ra rb) (s.thr.getVr vrs)

/-- `stvlx`, R1019. -/
def execPpeStvlx (vrs ra rb : BitVec 5) (s : State) : Out State :=
  vecStoreLeft s (s.thr.eaV ra rb) (s.thr.getVr vrs)

/-- `stvlxl`, R1020. -/
def execPpeStvlxl (vrs ra rb : BitVec 5) (s : State) : Out State :=
  vecStoreLeft s (s.thr.eaV ra rb) (s.thr.getVr vrs)

/-- `stvrx`, R1021. -/
def execPpeStvrx (vrs ra rb : BitVec 5) (s : State) : Out State :=
  vecStoreRight s (s.thr.eaV ra rb) (s.thr.getVr vrs)

/-- `stvrxl`, R1022. -/
def execPpeStvrxl (vrs ra rb : BitVec 5) (s : State) : Out State :=
  vecStoreRight s (s.thr.eaV ra rb) (s.thr.getVr vrs)

/-- `stvebx`, R1016. -/
def execPpeStvebx (vrs ra rb : BitVec 5) (s : State) : Out State :=
  vecStoreEl s (s.thr.eaV ra rb) 1 (s.thr.getVr vrs)

/-- `stvehx`, R1017. -/
def execPpeStvehx (vrs ra rb : BitVec 5) (s : State) : Out State :=
  vecStoreEl s (s.thr.eaV ra rb) 2 (s.thr.getVr vrs)

/-- `stvewx`, R1018. -/
def execPpeStvewx (vrs ra rb : BitVec 5) (s : State) : Out State :=
  vecStoreEl s (s.thr.eaV ra rb) 4 (s.thr.getVr vrs)

/-! ## Data streams: no-ops (R1024) -/

/-- `dst`, R1024. -/
def execPpeDst (strm : BitVec 2) (ra rb : BitVec 5) (s : State) : Out State :=
  let _ := (strm, ra, rb)
  vmxNext s id

/-- `dstt`, R1025. -/
def execPpeDstt (strm : BitVec 2) (ra rb : BitVec 5) (s : State) : Out State :=
  let _ := (strm, ra, rb)
  vmxNext s id

/-- `dstst`, R1026. -/
def execPpeDstst (strm : BitVec 2) (ra rb : BitVec 5) (s : State) : Out State :=
  let _ := (strm, ra, rb)
  vmxNext s id

/-- `dststt`, R1027. -/
def execPpeDststt (strm : BitVec 2) (ra rb : BitVec 5) (s : State) : Out State :=
  let _ := (strm, ra, rb)
  vmxNext s id

/-- `dss`, R1028. -/
def execPpeDss (strm : BitVec 2) (s : State) : Out State :=
  let _ := strm
  vmxNext s id

/-- `dssall`, R1029. -/
def execPpeDssall (s : State) : Out State :=
  vmxNext s id

end Sys2Proof.Machine
end

