-- ==== Sys2Proof/Machine/Dispatch.lean ====
section
/-! DEFINITION. One arm per instruction: the call of its meaning. -/

namespace Sys2Proof.Machine

/-- The meaning of an instruction. -/
def exec (i : Instr) (s : State) : Host.Outcome State Fault Refusal :=
  match i with
  | .ppeB li aa lk => Sys2Proof.Machine.execPpeB li aa lk s
  | .ppeBc bo bi bd aa lk => Sys2Proof.Machine.execPpeBc bo bi bd aa lk s
  | .ppeBclr bo bi bh lk => Sys2Proof.Machine.execPpeBclr bo bi bh lk s
  | .ppeBcctr bo bi bh lk => Sys2Proof.Machine.execPpeBcctr bo bi bh lk s
  | .ppeSc lev => Sys2Proof.Machine.execPpeSc lev s
  | .ppeRfid => Sys2Proof.Machine.execPpeRfid s
  | .ppeHrfid => Sys2Proof.Machine.execPpeHrfid s
  | .ppeIsync => Sys2Proof.Machine.execPpeIsync s
  | .ppeCrand bt ba bb => Sys2Proof.Machine.execPpeCrand bt ba bb s
  | .ppeCror bt ba bb => Sys2Proof.Machine.execPpeCror bt ba bb s
  | .ppeCrxor bt ba bb => Sys2Proof.Machine.execPpeCrxor bt ba bb s
  | .ppeCrnand bt ba bb => Sys2Proof.Machine.execPpeCrnand bt ba bb s
  | .ppeCrnor bt ba bb => Sys2Proof.Machine.execPpeCrnor bt ba bb s
  | .ppeCreqv bt ba bb => Sys2Proof.Machine.execPpeCreqv bt ba bb s
  | .ppeCrandc bt ba bb => Sys2Proof.Machine.execPpeCrandc bt ba bb s
  | .ppeCrorc bt ba bb => Sys2Proof.Machine.execPpeCrorc bt ba bb s
  | .ppeMcrf bf bfa => Sys2Proof.Machine.execPpeMcrf bf bfa s
  | .ppeTw trapOn ra rb => Sys2Proof.Machine.execPpeTw trapOn ra rb s
  | .ppeTd trapOn ra rb => Sys2Proof.Machine.execPpeTd trapOn ra rb s
  | .ppeTwi trapOn ra si => Sys2Proof.Machine.execPpeTwi trapOn ra si s
  | .ppeTdi trapOn ra si => Sys2Proof.Machine.execPpeTdi trapOn ra si s
  | .ppeMtspr rs spr => Sys2Proof.Machine.execPpeMtspr rs spr s
  | .ppeMfspr rt spr => Sys2Proof.Machine.execPpeMfspr rt spr s
  | .ppeMftb rt tbr => Sys2Proof.Machine.execPpeMftb rt tbr s
  | .ppeMtmsr rs l => Sys2Proof.Machine.execPpeMtmsr rs l s
  | .ppeMtmsrd rs l => Sys2Proof.Machine.execPpeMtmsrd rs l s
  | .ppeMfmsr rt => Sys2Proof.Machine.execPpeMfmsr rt s
  | .ppeMtcrf rs fxm => Sys2Proof.Machine.execPpeMtcrf rs fxm s
  | .ppeMtocrf rs fxm => Sys2Proof.Machine.execPpeMtocrf rs fxm s
  | .ppeMfcr rt => Sys2Proof.Machine.execPpeMfcr rt s
  | .ppeMfocrf rt fxm => Sys2Proof.Machine.execPpeMfocrf rt fxm s
  | .ppeSync l => Sys2Proof.Machine.execPpeSync l s
  | .ppeEieio => Sys2Proof.Machine.execPpeEieio s
  | .ppeSlbmte rs rb => Sys2Proof.Machine.execPpeSlbmte rs rb s
  | .ppeSlbmfee rt rb => Sys2Proof.Machine.execPpeSlbmfee rt rb s
  | .ppeSlbmfev rt rb => Sys2Proof.Machine.execPpeSlbmfev rt rb s
  | .ppeSlbie rb => Sys2Proof.Machine.execPpeSlbie rb s
  | .ppeSlbia => Sys2Proof.Machine.execPpeSlbia s
  | .ppeTlbie l rb => Sys2Proof.Machine.execPpeTlbie l rb s
  | .ppeTlbiel l rb => Sys2Proof.Machine.execPpeTlbiel l rb s
  | .ppeTlbsync => Sys2Proof.Machine.execPpeTlbsync s
  | .ppeAttn => Sys2Proof.Machine.execPpeAttn s
  | .ppeLbz rt ra d => Sys2Proof.Machine.execPpeLbz rt ra d s
  | .ppeLbzu rt ra d => Sys2Proof.Machine.execPpeLbzu rt ra d s
  | .ppeLhz rt ra d => Sys2Proof.Machine.execPpeLhz rt ra d s
  | .ppeLhzu rt ra d => Sys2Proof.Machine.execPpeLhzu rt ra d s
  | .ppeLha rt ra d => Sys2Proof.Machine.execPpeLha rt ra d s
  | .ppeLhau rt ra d => Sys2Proof.Machine.execPpeLhau rt ra d s
  | .ppeLwz rt ra d => Sys2Proof.Machine.execPpeLwz rt ra d s
  | .ppeLwzu rt ra d => Sys2Proof.Machine.execPpeLwzu rt ra d s
  | .ppeLmw rt ra d => Sys2Proof.Machine.execPpeLmw rt ra d s
  | .ppeStb rs ra d => Sys2Proof.Machine.execPpeStb rs ra d s
  | .ppeStbu rs ra d => Sys2Proof.Machine.execPpeStbu rs ra d s
  | .ppeSth rs ra d => Sys2Proof.Machine.execPpeSth rs ra d s
  | .ppeSthu rs ra d => Sys2Proof.Machine.execPpeSthu rs ra d s
  | .ppeStw rs ra d => Sys2Proof.Machine.execPpeStw rs ra d s
  | .ppeStwu rs ra d => Sys2Proof.Machine.execPpeStwu rs ra d s
  | .ppeStmw rs ra d => Sys2Proof.Machine.execPpeStmw rs ra d s
  | .ppeLfs frt ra d => Sys2Proof.Machine.execPpeLfs frt ra d s
  | .ppeLfsu frt ra d => Sys2Proof.Machine.execPpeLfsu frt ra d s
  | .ppeLfd frt ra d => Sys2Proof.Machine.execPpeLfd frt ra d s
  | .ppeLfdu frt ra d => Sys2Proof.Machine.execPpeLfdu frt ra d s
  | .ppeStfs frs ra d => Sys2Proof.Machine.execPpeStfs frs ra d s
  | .ppeStfsu frs ra d => Sys2Proof.Machine.execPpeStfsu frs ra d s
  | .ppeStfd frs ra d => Sys2Proof.Machine.execPpeStfd frs ra d s
  | .ppeStfdu frs ra d => Sys2Proof.Machine.execPpeStfdu frs ra d s
  | .ppeLd rt ra ds => Sys2Proof.Machine.execPpeLd rt ra ds s
  | .ppeLdu rt ra ds => Sys2Proof.Machine.execPpeLdu rt ra ds s
  | .ppeLwa rt ra ds => Sys2Proof.Machine.execPpeLwa rt ra ds s
  | .ppeStd rs ra ds => Sys2Proof.Machine.execPpeStd rs ra ds s
  | .ppeStdu rs ra ds => Sys2Proof.Machine.execPpeStdu rs ra ds s
  | .ppeLbzx rt ra rb => Sys2Proof.Machine.execPpeLbzx rt ra rb s
  | .ppeLbzux rt ra rb => Sys2Proof.Machine.execPpeLbzux rt ra rb s
  | .ppeLhzx rt ra rb => Sys2Proof.Machine.execPpeLhzx rt ra rb s
  | .ppeLhzux rt ra rb => Sys2Proof.Machine.execPpeLhzux rt ra rb s
  | .ppeLhax rt ra rb => Sys2Proof.Machine.execPpeLhax rt ra rb s
  | .ppeLhaux rt ra rb => Sys2Proof.Machine.execPpeLhaux rt ra rb s
  | .ppeLwzx rt ra rb => Sys2Proof.Machine.execPpeLwzx rt ra rb s
  | .ppeLwzux rt ra rb => Sys2Proof.Machine.execPpeLwzux rt ra rb s
  | .ppeLwax rt ra rb => Sys2Proof.Machine.execPpeLwax rt ra rb s
  | .ppeLwaux rt ra rb => Sys2Proof.Machine.execPpeLwaux rt ra rb s
  | .ppeLdx rt ra rb => Sys2Proof.Machine.execPpeLdx rt ra rb s
  | .ppeLdux rt ra rb => Sys2Proof.Machine.execPpeLdux rt ra rb s
  | .ppeLhbrx rt ra rb => Sys2Proof.Machine.execPpeLhbrx rt ra rb s
  | .ppeLwbrx rt ra rb => Sys2Proof.Machine.execPpeLwbrx rt ra rb s
  | .ppeLswx rt ra rb => Sys2Proof.Machine.execPpeLswx rt ra rb s
  | .ppeLwarx rt ra rb => Sys2Proof.Machine.execPpeLwarx rt ra rb s
  | .ppeLdarx rt ra rb => Sys2Proof.Machine.execPpeLdarx rt ra rb s
  | .ppeLdbrx rt ra rb => Sys2Proof.Machine.execPpeLdbrx rt ra rb s
  | .ppeStbx rs ra rb => Sys2Proof.Machine.execPpeStbx rs ra rb s
  | .ppeStbux rs ra rb => Sys2Proof.Machine.execPpeStbux rs ra rb s
  | .ppeSthx rs ra rb => Sys2Proof.Machine.execPpeSthx rs ra rb s
  | .ppeSthux rs ra rb => Sys2Proof.Machine.execPpeSthux rs ra rb s
  | .ppeStwx rs ra rb => Sys2Proof.Machine.execPpeStwx rs ra rb s
  | .ppeStwux rs ra rb => Sys2Proof.Machine.execPpeStwux rs ra rb s
  | .ppeStdx rs ra rb => Sys2Proof.Machine.execPpeStdx rs ra rb s
  | .ppeStdux rs ra rb => Sys2Proof.Machine.execPpeStdux rs ra rb s
  | .ppeSthbrx rs ra rb => Sys2Proof.Machine.execPpeSthbrx rs ra rb s
  | .ppeStwbrx rs ra rb => Sys2Proof.Machine.execPpeStwbrx rs ra rb s
  | .ppeStswx rs ra rb => Sys2Proof.Machine.execPpeStswx rs ra rb s
  | .ppeStdbrx rs ra rb => Sys2Proof.Machine.execPpeStdbrx rs ra rb s
  | .ppeLswi rt ra nb => Sys2Proof.Machine.execPpeLswi rt ra nb s
  | .ppeStswi rs ra nb => Sys2Proof.Machine.execPpeStswi rs ra nb s
  | .ppeStwcxDot rs ra rb => Sys2Proof.Machine.execPpeStwcxDot rs ra rb s
  | .ppeStdcxDot rs ra rb => Sys2Proof.Machine.execPpeStdcxDot rs ra rb s
  | .ppeDcbt th ra rb => Sys2Proof.Machine.execPpeDcbt th ra rb s
  | .ppeDcbtst ra rb => Sys2Proof.Machine.execPpeDcbtst ra rb s
  | .ppeDcbz ra rb => Sys2Proof.Machine.execPpeDcbz ra rb s
  | .ppeDcbst ra rb => Sys2Proof.Machine.execPpeDcbst ra rb s
  | .ppeDcbf ra rb => Sys2Proof.Machine.execPpeDcbf ra rb s
  | .ppeIcbi ra rb => Sys2Proof.Machine.execPpeIcbi ra rb s
  | .ppeLfsx frt ra rb => Sys2Proof.Machine.execPpeLfsx frt ra rb s
  | .ppeLfsux frt ra rb => Sys2Proof.Machine.execPpeLfsux frt ra rb s
  | .ppeLfdx frt ra rb => Sys2Proof.Machine.execPpeLfdx frt ra rb s
  | .ppeLfdux frt ra rb => Sys2Proof.Machine.execPpeLfdux frt ra rb s
  | .ppeStfsx frs ra rb => Sys2Proof.Machine.execPpeStfsx frs ra rb s
  | .ppeStfsux frs ra rb => Sys2Proof.Machine.execPpeStfsux frs ra rb s
  | .ppeStfdx frs ra rb => Sys2Proof.Machine.execPpeStfdx frs ra rb s
  | .ppeStfdux frs ra rb => Sys2Proof.Machine.execPpeStfdux frs ra rb s
  | .ppeStfiwx frs ra rb => Sys2Proof.Machine.execPpeStfiwx frs ra rb s
  | .ppeAddi rt ra si => Sys2Proof.Machine.execPpeAddi rt ra si s
  | .ppeAddis rt ra si => Sys2Proof.Machine.execPpeAddis rt ra si s
  | .ppeAddic rt ra si => Sys2Proof.Machine.execPpeAddic rt ra si s
  | .ppeAddicDot rt ra si => Sys2Proof.Machine.execPpeAddicDot rt ra si s
  | .ppeSubfic rt ra si => Sys2Proof.Machine.execPpeSubfic rt ra si s
  | .ppeMulli rt ra si => Sys2Proof.Machine.execPpeMulli rt ra si s
  | .ppeOri rs ra ui => Sys2Proof.Machine.execPpeOri rs ra ui s
  | .ppeOris rs ra ui => Sys2Proof.Machine.execPpeOris rs ra ui s
  | .ppeXori rs ra ui => Sys2Proof.Machine.execPpeXori rs ra ui s
  | .ppeXoris rs ra ui => Sys2Proof.Machine.execPpeXoris rs ra ui s
  | .ppeAndiDot rs ra ui => Sys2Proof.Machine.execPpeAndiDot rs ra ui s
  | .ppeAndisDot rs ra ui => Sys2Proof.Machine.execPpeAndisDot rs ra ui s
  | .ppeCmpi bf l ra si => Sys2Proof.Machine.execPpeCmpi bf l ra si s
  | .ppeCmpli bf l ra ui => Sys2Proof.Machine.execPpeCmpli bf l ra ui s
  | .ppeAdd rt ra rb oe rec => Sys2Proof.Machine.execPpeAdd rt ra rb oe rec s
  | .ppeAddc rt ra rb oe rec => Sys2Proof.Machine.execPpeAddc rt ra rb oe rec s
  | .ppeAdde rt ra rb oe rec => Sys2Proof.Machine.execPpeAdde rt ra rb oe rec s
  | .ppeSubf rt ra rb oe rec => Sys2Proof.Machine.execPpeSubf rt ra rb oe rec s
  | .ppeSubfc rt ra rb oe rec => Sys2Proof.Machine.execPpeSubfc rt ra rb oe rec s
  | .ppeSubfe rt ra rb oe rec => Sys2Proof.Machine.execPpeSubfe rt ra rb oe rec s
  | .ppeMullw rt ra rb oe rec => Sys2Proof.Machine.execPpeMullw rt ra rb oe rec s
  | .ppeMulld rt ra rb oe rec => Sys2Proof.Machine.execPpeMulld rt ra rb oe rec s
  | .ppeDivw rt ra rb oe rec => Sys2Proof.Machine.execPpeDivw rt ra rb oe rec s
  | .ppeDivwu rt ra rb oe rec => Sys2Proof.Machine.execPpeDivwu rt ra rb oe rec s
  | .ppeDivd rt ra rb oe rec => Sys2Proof.Machine.execPpeDivd rt ra rb oe rec s
  | .ppeDivdu rt ra rb oe rec => Sys2Proof.Machine.execPpeDivdu rt ra rb oe rec s
  | .ppeAddme rt ra oe rec => Sys2Proof.Machine.execPpeAddme rt ra oe rec s
  | .ppeAddze rt ra oe rec => Sys2Proof.Machine.execPpeAddze rt ra oe rec s
  | .ppeSubfme rt ra oe rec => Sys2Proof.Machine.execPpeSubfme rt ra oe rec s
  | .ppeSubfze rt ra oe rec => Sys2Proof.Machine.execPpeSubfze rt ra oe rec s
  | .ppeNeg rt ra oe rec => Sys2Proof.Machine.execPpeNeg rt ra oe rec s
  | .ppeMulhw rt ra rb rec => Sys2Proof.Machine.execPpeMulhw rt ra rb rec s
  | .ppeMulhwu rt ra rb rec => Sys2Proof.Machine.execPpeMulhwu rt ra rb rec s
  | .ppeMulhd rt ra rb rec => Sys2Proof.Machine.execPpeMulhd rt ra rb rec s
  | .ppeMulhdu rt ra rb rec => Sys2Proof.Machine.execPpeMulhdu rt ra rb rec s
  | .ppeCmp bf l ra rb => Sys2Proof.Machine.execPpeCmp bf l ra rb s
  | .ppeCmpl bf l ra rb => Sys2Proof.Machine.execPpeCmpl bf l ra rb s
  | .ppeAnd rs ra rb rec => Sys2Proof.Machine.execPpeAnd rs ra rb rec s
  | .ppeAndc rs ra rb rec => Sys2Proof.Machine.execPpeAndc rs ra rb rec s
  | .ppeOr rs ra rb rec => Sys2Proof.Machine.execPpeOr rs ra rb rec s
  | .ppeOrc rs ra rb rec => Sys2Proof.Machine.execPpeOrc rs ra rb rec s
  | .ppeXor rs ra rb rec => Sys2Proof.Machine.execPpeXor rs ra rb rec s
  | .ppeNand rs ra rb rec => Sys2Proof.Machine.execPpeNand rs ra rb rec s
  | .ppeNor rs ra rb rec => Sys2Proof.Machine.execPpeNor rs ra rb rec s
  | .ppeEqv rs ra rb rec => Sys2Proof.Machine.execPpeEqv rs ra rb rec s
  | .ppeSlw rs ra rb rec => Sys2Proof.Machine.execPpeSlw rs ra rb rec s
  | .ppeSrw rs ra rb rec => Sys2Proof.Machine.execPpeSrw rs ra rb rec s
  | .ppeSraw rs ra rb rec => Sys2Proof.Machine.execPpeSraw rs ra rb rec s
  | .ppeSld rs ra rb rec => Sys2Proof.Machine.execPpeSld rs ra rb rec s
  | .ppeSrd rs ra rb rec => Sys2Proof.Machine.execPpeSrd rs ra rb rec s
  | .ppeSrad rs ra rb rec => Sys2Proof.Machine.execPpeSrad rs ra rb rec s
  | .ppeExtsb rs ra rec => Sys2Proof.Machine.execPpeExtsb rs ra rec s
  | .ppeExtsh rs ra rec => Sys2Proof.Machine.execPpeExtsh rs ra rec s
  | .ppeExtsw rs ra rec => Sys2Proof.Machine.execPpeExtsw rs ra rec s
  | .ppeCntlzw rs ra rec => Sys2Proof.Machine.execPpeCntlzw rs ra rec s
  | .ppeCntlzd rs ra rec => Sys2Proof.Machine.execPpeCntlzd rs ra rec s
  | .ppeSrawi rs ra sh rec => Sys2Proof.Machine.execPpeSrawi rs ra sh rec s
  | .ppeSradi rs ra sh rec => Sys2Proof.Machine.execPpeSradi rs ra sh rec s
  | .ppeRlwimi rs ra sh mb me rec => Sys2Proof.Machine.execPpeRlwimi rs ra sh mb me rec s
  | .ppeRlwinm rs ra sh mb me rec => Sys2Proof.Machine.execPpeRlwinm rs ra sh mb me rec s
  | .ppeRlwnm rs ra rb mb me rec => Sys2Proof.Machine.execPpeRlwnm rs ra rb mb me rec s
  | .ppeRldicl rs ra sh mb rec => Sys2Proof.Machine.execPpeRldicl rs ra sh mb rec s
  | .ppeRldicr rs ra sh me rec => Sys2Proof.Machine.execPpeRldicr rs ra sh me rec s
  | .ppeRldic rs ra sh mb rec => Sys2Proof.Machine.execPpeRldic rs ra sh mb rec s
  | .ppeRldimi rs ra sh mb rec => Sys2Proof.Machine.execPpeRldimi rs ra sh mb rec s
  | .ppeRldcl rs ra rb mb rec => Sys2Proof.Machine.execPpeRldcl rs ra rb mb rec s
  | .ppeRldcr rs ra rb me rec => Sys2Proof.Machine.execPpeRldcr rs ra rb me rec s
  | .ppeFadd frt fra frb rec => Sys2Proof.Machine.execPpeFadd frt fra frb rec s
  | .ppeFadds frt fra frb rec => Sys2Proof.Machine.execPpeFadds frt fra frb rec s
  | .ppeFsub frt fra frb rec => Sys2Proof.Machine.execPpeFsub frt fra frb rec s
  | .ppeFsubs frt fra frb rec => Sys2Proof.Machine.execPpeFsubs frt fra frb rec s
  | .ppeFdiv frt fra frb rec => Sys2Proof.Machine.execPpeFdiv frt fra frb rec s
  | .ppeFdivs frt fra frb rec => Sys2Proof.Machine.execPpeFdivs frt fra frb rec s
  | .ppeFmul frt fra frc rec => Sys2Proof.Machine.execPpeFmul frt fra frc rec s
  | .ppeFmuls frt fra frc rec => Sys2Proof.Machine.execPpeFmuls frt fra frc rec s
  | .ppeFsqrt frt frb rec => Sys2Proof.Machine.execPpeFsqrt frt frb rec s
  | .ppeFsqrts frt frb rec => Sys2Proof.Machine.execPpeFsqrts frt frb rec s
  | .ppeFres frt frb rec => Sys2Proof.Machine.execPpeFres frt frb rec s
  | .ppeFrsqrte frt frb rec => Sys2Proof.Machine.execPpeFrsqrte frt frb rec s
  | .ppeFsel frt fra frb frc rec => Sys2Proof.Machine.execPpeFsel frt fra frb frc rec s
  | .ppeFmadd frt fra frb frc rec => Sys2Proof.Machine.execPpeFmadd frt fra frb frc rec s
  | .ppeFmadds frt fra frb frc rec => Sys2Proof.Machine.execPpeFmadds frt fra frb frc rec s
  | .ppeFmsub frt fra frb frc rec => Sys2Proof.Machine.execPpeFmsub frt fra frb frc rec s
  | .ppeFmsubs frt fra frb frc rec => Sys2Proof.Machine.execPpeFmsubs frt fra frb frc rec s
  | .ppeFnmadd frt fra frb frc rec => Sys2Proof.Machine.execPpeFnmadd frt fra frb frc rec s
  | .ppeFnmadds frt fra frb frc rec => Sys2Proof.Machine.execPpeFnmadds frt fra frb frc rec s
  | .ppeFnmsub frt fra frb frc rec => Sys2Proof.Machine.execPpeFnmsub frt fra frb frc rec s
  | .ppeFnmsubs frt fra frb frc rec => Sys2Proof.Machine.execPpeFnmsubs frt fra frb frc rec s
  | .ppeFmr frt frb rec => Sys2Proof.Machine.execPpeFmr frt frb rec s
  | .ppeFneg frt frb rec => Sys2Proof.Machine.execPpeFneg frt frb rec s
  | .ppeFabs frt frb rec => Sys2Proof.Machine.execPpeFabs frt frb rec s
  | .ppeFnabs frt frb rec => Sys2Proof.Machine.execPpeFnabs frt frb rec s
  | .ppeFrsp frt frb rec => Sys2Proof.Machine.execPpeFrsp frt frb rec s
  | .ppeFctid frt frb rec => Sys2Proof.Machine.execPpeFctid frt frb rec s
  | .ppeFctidz frt frb rec => Sys2Proof.Machine.execPpeFctidz frt frb rec s
  | .ppeFctiw frt frb rec => Sys2Proof.Machine.execPpeFctiw frt frb rec s
  | .ppeFctiwz frt frb rec => Sys2Proof.Machine.execPpeFctiwz frt frb rec s
  | .ppeFcfid frt frb rec => Sys2Proof.Machine.execPpeFcfid frt frb rec s
  | .ppeFcmpu bf fra frb => Sys2Proof.Machine.execPpeFcmpu bf fra frb s
  | .ppeFcmpo bf fra frb => Sys2Proof.Machine.execPpeFcmpo bf fra frb s
  | .ppeMffs frt rec => Sys2Proof.Machine.execPpeMffs frt rec s
  | .ppeMcrfs bf bfa => Sys2Proof.Machine.execPpeMcrfs bf bfa s
  | .ppeMtfsfi bf u rec => Sys2Proof.Machine.execPpeMtfsfi bf u rec s
  | .ppeMtfsf flm frb rec => Sys2Proof.Machine.execPpeMtfsf flm frb rec s
  | .ppeMtfsb0 bt rec => Sys2Proof.Machine.execPpeMtfsb0 bt rec s
  | .ppeMtfsb1 bt rec => Sys2Proof.Machine.execPpeMtfsb1 bt rec s
  | .ppeLvsl vrt ra rb => Sys2Proof.Machine.execPpeLvsl vrt ra rb s
  | .ppeLvsr vrt ra rb => Sys2Proof.Machine.execPpeLvsr vrt ra rb s
  | .ppeLvebx vrt ra rb => Sys2Proof.Machine.execPpeLvebx vrt ra rb s
  | .ppeLvehx vrt ra rb => Sys2Proof.Machine.execPpeLvehx vrt ra rb s
  | .ppeLvewx vrt ra rb => Sys2Proof.Machine.execPpeLvewx vrt ra rb s
  | .ppeLvx vrt ra rb => Sys2Proof.Machine.execPpeLvx vrt ra rb s
  | .ppeLvxl vrt ra rb => Sys2Proof.Machine.execPpeLvxl vrt ra rb s
  | .ppeLvlx vrt ra rb => Sys2Proof.Machine.execPpeLvlx vrt ra rb s
  | .ppeLvrx vrt ra rb => Sys2Proof.Machine.execPpeLvrx vrt ra rb s
  | .ppeLvlxl vrt ra rb => Sys2Proof.Machine.execPpeLvlxl vrt ra rb s
  | .ppeLvrxl vrt ra rb => Sys2Proof.Machine.execPpeLvrxl vrt ra rb s
  | .ppeStvebx vrs ra rb => Sys2Proof.Machine.execPpeStvebx vrs ra rb s
  | .ppeStvehx vrs ra rb => Sys2Proof.Machine.execPpeStvehx vrs ra rb s
  | .ppeStvewx vrs ra rb => Sys2Proof.Machine.execPpeStvewx vrs ra rb s
  | .ppeStvx vrs ra rb => Sys2Proof.Machine.execPpeStvx vrs ra rb s
  | .ppeStvxl vrs ra rb => Sys2Proof.Machine.execPpeStvxl vrs ra rb s
  | .ppeStvlx vrs ra rb => Sys2Proof.Machine.execPpeStvlx vrs ra rb s
  | .ppeStvrx vrs ra rb => Sys2Proof.Machine.execPpeStvrx vrs ra rb s
  | .ppeStvlxl vrs ra rb => Sys2Proof.Machine.execPpeStvlxl vrs ra rb s
  | .ppeStvrxl vrs ra rb => Sys2Proof.Machine.execPpeStvrxl vrs ra rb s
  | .ppeDst strm ra rb => Sys2Proof.Machine.execPpeDst strm ra rb s
  | .ppeDstt strm ra rb => Sys2Proof.Machine.execPpeDstt strm ra rb s
  | .ppeDstst strm ra rb => Sys2Proof.Machine.execPpeDstst strm ra rb s
  | .ppeDststt strm ra rb => Sys2Proof.Machine.execPpeDststt strm ra rb s
  | .ppeDss strm => Sys2Proof.Machine.execPpeDss strm s
  | .ppeDssall => Sys2Proof.Machine.execPpeDssall s
  | .ppeVperm vrt vra vrb vrc => Sys2Proof.Machine.execPpeVperm vrt vra vrb vrc s
  | .ppeVsel vrt vra vrb vrc => Sys2Proof.Machine.execPpeVsel vrt vra vrb vrc s
  | .ppeVsldoi vrt vra vrb shb => Sys2Proof.Machine.execPpeVsldoi vrt vra vrb shb s
  | .ppeVslo vrt vra vrb => Sys2Proof.Machine.execPpeVslo vrt vra vrb s
  | .ppeVsro vrt vra vrb => Sys2Proof.Machine.execPpeVsro vrt vra vrb s
  | .ppeVmrghb vrt vra vrb => Sys2Proof.Machine.execPpeVmrghb vrt vra vrb s
  | .ppeVmrghh vrt vra vrb => Sys2Proof.Machine.execPpeVmrghh vrt vra vrb s
  | .ppeVmrghw vrt vra vrb => Sys2Proof.Machine.execPpeVmrghw vrt vra vrb s
  | .ppeVmrglb vrt vra vrb => Sys2Proof.Machine.execPpeVmrglb vrt vra vrb s
  | .ppeVmrglh vrt vra vrb => Sys2Proof.Machine.execPpeVmrglh vrt vra vrb s
  | .ppeVmrglw vrt vra vrb => Sys2Proof.Machine.execPpeVmrglw vrt vra vrb s
  | .ppeVspltb vrt vrb uim => Sys2Proof.Machine.execPpeVspltb vrt vrb uim s
  | .ppeVsplth vrt vrb uim => Sys2Proof.Machine.execPpeVsplth vrt vrb uim s
  | .ppeVspltw vrt vrb uim => Sys2Proof.Machine.execPpeVspltw vrt vrb uim s
  | .ppeVspltisb vrt simm => Sys2Proof.Machine.execPpeVspltisb vrt simm s
  | .ppeVspltish vrt simm => Sys2Proof.Machine.execPpeVspltish vrt simm s
  | .ppeVspltisw vrt simm => Sys2Proof.Machine.execPpeVspltisw vrt simm s
  | .ppeVpkuhum vrt vra vrb => Sys2Proof.Machine.execPpeVpkuhum vrt vra vrb s
  | .ppeVpkuwum vrt vra vrb => Sys2Proof.Machine.execPpeVpkuwum vrt vra vrb s
  | .ppeVpkuhus vrt vra vrb => Sys2Proof.Machine.execPpeVpkuhus vrt vra vrb s
  | .ppeVpkuwus vrt vra vrb => Sys2Proof.Machine.execPpeVpkuwus vrt vra vrb s
  | .ppeVpkshus vrt vra vrb => Sys2Proof.Machine.execPpeVpkshus vrt vra vrb s
  | .ppeVpkswus vrt vra vrb => Sys2Proof.Machine.execPpeVpkswus vrt vra vrb s
  | .ppeVpkshss vrt vra vrb => Sys2Proof.Machine.execPpeVpkshss vrt vra vrb s
  | .ppeVpkswss vrt vra vrb => Sys2Proof.Machine.execPpeVpkswss vrt vra vrb s
  | .ppeVpkpx vrt vra vrb => Sys2Proof.Machine.execPpeVpkpx vrt vra vrb s
  | .ppeVupkhsb vrt vrb => Sys2Proof.Machine.execPpeVupkhsb vrt vrb s
  | .ppeVupkhsh vrt vrb => Sys2Proof.Machine.execPpeVupkhsh vrt vrb s
  | .ppeVupklsb vrt vrb => Sys2Proof.Machine.execPpeVupklsb vrt vrb s
  | .ppeVupklsh vrt vrb => Sys2Proof.Machine.execPpeVupklsh vrt vrb s
  | .ppeVupkhpx vrt vrb => Sys2Proof.Machine.execPpeVupkhpx vrt vrb s
  | .ppeVupklpx vrt vrb => Sys2Proof.Machine.execPpeVupklpx vrt vrb s
  | .ppeVand vrt vra vrb => Sys2Proof.Machine.execPpeVand vrt vra vrb s
  | .ppeVandc vrt vra vrb => Sys2Proof.Machine.execPpeVandc vrt vra vrb s
  | .ppeVor vrt vra vrb => Sys2Proof.Machine.execPpeVor vrt vra vrb s
  | .ppeVxor vrt vra vrb => Sys2Proof.Machine.execPpeVxor vrt vra vrb s
  | .ppeVnor vrt vra vrb => Sys2Proof.Machine.execPpeVnor vrt vra vrb s
  | .ppeVrlb vrt vra vrb => Sys2Proof.Machine.execPpeVrlb vrt vra vrb s
  | .ppeVrlh vrt vra vrb => Sys2Proof.Machine.execPpeVrlh vrt vra vrb s
  | .ppeVrlw vrt vra vrb => Sys2Proof.Machine.execPpeVrlw vrt vra vrb s
  | .ppeVslb vrt vra vrb => Sys2Proof.Machine.execPpeVslb vrt vra vrb s
  | .ppeVslh vrt vra vrb => Sys2Proof.Machine.execPpeVslh vrt vra vrb s
  | .ppeVslw vrt vra vrb => Sys2Proof.Machine.execPpeVslw vrt vra vrb s
  | .ppeVsrb vrt vra vrb => Sys2Proof.Machine.execPpeVsrb vrt vra vrb s
  | .ppeVsrh vrt vra vrb => Sys2Proof.Machine.execPpeVsrh vrt vra vrb s
  | .ppeVsrw vrt vra vrb => Sys2Proof.Machine.execPpeVsrw vrt vra vrb s
  | .ppeVsrab vrt vra vrb => Sys2Proof.Machine.execPpeVsrab vrt vra vrb s
  | .ppeVsrah vrt vra vrb => Sys2Proof.Machine.execPpeVsrah vrt vra vrb s
  | .ppeVsraw vrt vra vrb => Sys2Proof.Machine.execPpeVsraw vrt vra vrb s
  | .ppeVsl vrt vra vrb => Sys2Proof.Machine.execPpeVsl vrt vra vrb s
  | .ppeVsr vrt vra vrb => Sys2Proof.Machine.execPpeVsr vrt vra vrb s
  | .ppeVaddubm vrt vra vrb => Sys2Proof.Machine.execPpeVaddubm vrt vra vrb s
  | .ppeVadduhm vrt vra vrb => Sys2Proof.Machine.execPpeVadduhm vrt vra vrb s
  | .ppeVadduwm vrt vra vrb => Sys2Proof.Machine.execPpeVadduwm vrt vra vrb s
  | .ppeVaddcuw vrt vra vrb => Sys2Proof.Machine.execPpeVaddcuw vrt vra vrb s
  | .ppeVaddubs vrt vra vrb => Sys2Proof.Machine.execPpeVaddubs vrt vra vrb s
  | .ppeVadduhs vrt vra vrb => Sys2Proof.Machine.execPpeVadduhs vrt vra vrb s
  | .ppeVadduws vrt vra vrb => Sys2Proof.Machine.execPpeVadduws vrt vra vrb s
  | .ppeVaddsbs vrt vra vrb => Sys2Proof.Machine.execPpeVaddsbs vrt vra vrb s
  | .ppeVaddshs vrt vra vrb => Sys2Proof.Machine.execPpeVaddshs vrt vra vrb s
  | .ppeVaddsws vrt vra vrb => Sys2Proof.Machine.execPpeVaddsws vrt vra vrb s
  | .ppeVsububm vrt vra vrb => Sys2Proof.Machine.execPpeVsububm vrt vra vrb s
  | .ppeVsubuhm vrt vra vrb => Sys2Proof.Machine.execPpeVsubuhm vrt vra vrb s
  | .ppeVsubuwm vrt vra vrb => Sys2Proof.Machine.execPpeVsubuwm vrt vra vrb s
  | .ppeVsubcuw vrt vra vrb => Sys2Proof.Machine.execPpeVsubcuw vrt vra vrb s
  | .ppeVsububs vrt vra vrb => Sys2Proof.Machine.execPpeVsububs vrt vra vrb s
  | .ppeVsubuhs vrt vra vrb => Sys2Proof.Machine.execPpeVsubuhs vrt vra vrb s
  | .ppeVsubuws vrt vra vrb => Sys2Proof.Machine.execPpeVsubuws vrt vra vrb s
  | .ppeVsubsbs vrt vra vrb => Sys2Proof.Machine.execPpeVsubsbs vrt vra vrb s
  | .ppeVsubshs vrt vra vrb => Sys2Proof.Machine.execPpeVsubshs vrt vra vrb s
  | .ppeVsubsws vrt vra vrb => Sys2Proof.Machine.execPpeVsubsws vrt vra vrb s
  | .ppeVavgub vrt vra vrb => Sys2Proof.Machine.execPpeVavgub vrt vra vrb s
  | .ppeVavguh vrt vra vrb => Sys2Proof.Machine.execPpeVavguh vrt vra vrb s
  | .ppeVavguw vrt vra vrb => Sys2Proof.Machine.execPpeVavguw vrt vra vrb s
  | .ppeVavgsb vrt vra vrb => Sys2Proof.Machine.execPpeVavgsb vrt vra vrb s
  | .ppeVavgsh vrt vra vrb => Sys2Proof.Machine.execPpeVavgsh vrt vra vrb s
  | .ppeVavgsw vrt vra vrb => Sys2Proof.Machine.execPpeVavgsw vrt vra vrb s
  | .ppeVmaxub vrt vra vrb => Sys2Proof.Machine.execPpeVmaxub vrt vra vrb s
  | .ppeVmaxuh vrt vra vrb => Sys2Proof.Machine.execPpeVmaxuh vrt vra vrb s
  | .ppeVmaxuw vrt vra vrb => Sys2Proof.Machine.execPpeVmaxuw vrt vra vrb s
  | .ppeVmaxsb vrt vra vrb => Sys2Proof.Machine.execPpeVmaxsb vrt vra vrb s
  | .ppeVmaxsh vrt vra vrb => Sys2Proof.Machine.execPpeVmaxsh vrt vra vrb s
  | .ppeVmaxsw vrt vra vrb => Sys2Proof.Machine.execPpeVmaxsw vrt vra vrb s
  | .ppeVminub vrt vra vrb => Sys2Proof.Machine.execPpeVminub vrt vra vrb s
  | .ppeVminuh vrt vra vrb => Sys2Proof.Machine.execPpeVminuh vrt vra vrb s
  | .ppeVminuw vrt vra vrb => Sys2Proof.Machine.execPpeVminuw vrt vra vrb s
  | .ppeVminsb vrt vra vrb => Sys2Proof.Machine.execPpeVminsb vrt vra vrb s
  | .ppeVminsh vrt vra vrb => Sys2Proof.Machine.execPpeVminsh vrt vra vrb s
  | .ppeVminsw vrt vra vrb => Sys2Proof.Machine.execPpeVminsw vrt vra vrb s
  | .ppeVcmpequb vrt vra vrb rec => Sys2Proof.Machine.execPpeVcmpequb vrt vra vrb rec s
  | .ppeVcmpequh vrt vra vrb rec => Sys2Proof.Machine.execPpeVcmpequh vrt vra vrb rec s
  | .ppeVcmpequw vrt vra vrb rec => Sys2Proof.Machine.execPpeVcmpequw vrt vra vrb rec s
  | .ppeVcmpeqfp vrt vra vrb rec => Sys2Proof.Machine.execPpeVcmpeqfp vrt vra vrb rec s
  | .ppeVcmpgefp vrt vra vrb rec => Sys2Proof.Machine.execPpeVcmpgefp vrt vra vrb rec s
  | .ppeVcmpgtub vrt vra vrb rec => Sys2Proof.Machine.execPpeVcmpgtub vrt vra vrb rec s
  | .ppeVcmpgtuh vrt vra vrb rec => Sys2Proof.Machine.execPpeVcmpgtuh vrt vra vrb rec s
  | .ppeVcmpgtuw vrt vra vrb rec => Sys2Proof.Machine.execPpeVcmpgtuw vrt vra vrb rec s
  | .ppeVcmpgtfp vrt vra vrb rec => Sys2Proof.Machine.execPpeVcmpgtfp vrt vra vrb rec s
  | .ppeVcmpgtsb vrt vra vrb rec => Sys2Proof.Machine.execPpeVcmpgtsb vrt vra vrb rec s
  | .ppeVcmpgtsh vrt vra vrb rec => Sys2Proof.Machine.execPpeVcmpgtsh vrt vra vrb rec s
  | .ppeVcmpgtsw vrt vra vrb rec => Sys2Proof.Machine.execPpeVcmpgtsw vrt vra vrb rec s
  | .ppeVcmpbfp vrt vra vrb rec => Sys2Proof.Machine.execPpeVcmpbfp vrt vra vrb rec s
  | .ppeVmuleub vrt vra vrb => Sys2Proof.Machine.execPpeVmuleub vrt vra vrb s
  | .ppeVmuleuh vrt vra vrb => Sys2Proof.Machine.execPpeVmuleuh vrt vra vrb s
  | .ppeVmulesb vrt vra vrb => Sys2Proof.Machine.execPpeVmulesb vrt vra vrb s
  | .ppeVmulesh vrt vra vrb => Sys2Proof.Machine.execPpeVmulesh vrt vra vrb s
  | .ppeVmuloub vrt vra vrb => Sys2Proof.Machine.execPpeVmuloub vrt vra vrb s
  | .ppeVmulouh vrt vra vrb => Sys2Proof.Machine.execPpeVmulouh vrt vra vrb s
  | .ppeVmulosb vrt vra vrb => Sys2Proof.Machine.execPpeVmulosb vrt vra vrb s
  | .ppeVmulosh vrt vra vrb => Sys2Proof.Machine.execPpeVmulosh vrt vra vrb s
  | .ppeVmhaddshs vrt vra vrb vrc => Sys2Proof.Machine.execPpeVmhaddshs vrt vra vrb vrc s
  | .ppeVmhraddshs vrt vra vrb vrc => Sys2Proof.Machine.execPpeVmhraddshs vrt vra vrb vrc s
  | .ppeVmladduhm vrt vra vrb vrc => Sys2Proof.Machine.execPpeVmladduhm vrt vra vrb vrc s
  | .ppeVmsumubm vrt vra vrb vrc => Sys2Proof.Machine.execPpeVmsumubm vrt vra vrb vrc s
  | .ppeVmsummbm vrt vra vrb vrc => Sys2Proof.Machine.execPpeVmsummbm vrt vra vrb vrc s
  | .ppeVmsumuhm vrt vra vrb vrc => Sys2Proof.Machine.execPpeVmsumuhm vrt vra vrb vrc s
  | .ppeVmsumuhs vrt vra vrb vrc => Sys2Proof.Machine.execPpeVmsumuhs vrt vra vrb vrc s
  | .ppeVmsumshm vrt vra vrb vrc => Sys2Proof.Machine.execPpeVmsumshm vrt vra vrb vrc s
  | .ppeVmsumshs vrt vra vrb vrc => Sys2Proof.Machine.execPpeVmsumshs vrt vra vrb vrc s
  | .ppeVsum4ubs vrt vra vrb => Sys2Proof.Machine.execPpeVsum4ubs vrt vra vrb s
  | .ppeVsum4sbs vrt vra vrb => Sys2Proof.Machine.execPpeVsum4sbs vrt vra vrb s
  | .ppeVsum4shs vrt vra vrb => Sys2Proof.Machine.execPpeVsum4shs vrt vra vrb s
  | .ppeVsum2sws vrt vra vrb => Sys2Proof.Machine.execPpeVsum2sws vrt vra vrb s
  | .ppeVsumsws vrt vra vrb => Sys2Proof.Machine.execPpeVsumsws vrt vra vrb s
  | .ppeMfvscr vrt => Sys2Proof.Machine.execPpeMfvscr vrt s
  | .ppeMtvscr vrb => Sys2Proof.Machine.execPpeMtvscr vrb s
  | .ppeVaddfp vrt vra vrb => Sys2Proof.Machine.execPpeVaddfp vrt vra vrb s
  | .ppeVsubfp vrt vra vrb => Sys2Proof.Machine.execPpeVsubfp vrt vra vrb s
  | .ppeVmaddfp vrt vra vrb vrc => Sys2Proof.Machine.execPpeVmaddfp vrt vra vrb vrc s
  | .ppeVnmsubfp vrt vra vrb vrc => Sys2Proof.Machine.execPpeVnmsubfp vrt vra vrb vrc s
  | .ppeVmaxfp vrt vra vrb => Sys2Proof.Machine.execPpeVmaxfp vrt vra vrb s
  | .ppeVminfp vrt vra vrb => Sys2Proof.Machine.execPpeVminfp vrt vra vrb s
  | .ppeVrefp vrt vrb => Sys2Proof.Machine.execPpeVrefp vrt vrb s
  | .ppeVrsqrtefp vrt vrb => Sys2Proof.Machine.execPpeVrsqrtefp vrt vrb s
  | .ppeVlogefp vrt vrb => Sys2Proof.Machine.execPpeVlogefp vrt vrb s
  | .ppeVexptefp vrt vrb => Sys2Proof.Machine.execPpeVexptefp vrt vrb s
  | .ppeVrfin vrt vrb => Sys2Proof.Machine.execPpeVrfin vrt vrb s
  | .ppeVrfiz vrt vrb => Sys2Proof.Machine.execPpeVrfiz vrt vrb s
  | .ppeVrfip vrt vrb => Sys2Proof.Machine.execPpeVrfip vrt vrb s
  | .ppeVrfim vrt vrb => Sys2Proof.Machine.execPpeVrfim vrt vrb s
  | .ppeVcfux vrt vrb uim => Sys2Proof.Machine.execPpeVcfux vrt vrb uim s
  | .ppeVcfsx vrt vrb uim => Sys2Proof.Machine.execPpeVcfsx vrt vrb uim s
  | .ppeVctuxs vrt vrb uim => Sys2Proof.Machine.execPpeVctuxs vrt vrb uim s
  | .ppeVctsxs vrt vrb uim => Sys2Proof.Machine.execPpeVctsxs vrt vrb uim s
  | .spuLqd rt ra i10 => Sys2Proof.Machine.execSpuLqd rt ra i10 s
  | .spuLqx rt ra rb => Sys2Proof.Machine.execSpuLqx rt ra rb s
  | .spuLqa rt i16 => Sys2Proof.Machine.execSpuLqa rt i16 s
  | .spuLqr rt i16 => Sys2Proof.Machine.execSpuLqr rt i16 s
  | .spuStqd rt ra i10 => Sys2Proof.Machine.execSpuStqd rt ra i10 s
  | .spuStqx rt ra rb => Sys2Proof.Machine.execSpuStqx rt ra rb s
  | .spuStqa rt i16 => Sys2Proof.Machine.execSpuStqa rt i16 s
  | .spuStqr rt i16 => Sys2Proof.Machine.execSpuStqr rt i16 s
  | .spuCbd rt ra i7 => Sys2Proof.Machine.execSpuCbd rt ra i7 s
  | .spuCbx rt ra rb => Sys2Proof.Machine.execSpuCbx rt ra rb s
  | .spuChd rt ra i7 => Sys2Proof.Machine.execSpuChd rt ra i7 s
  | .spuChx rt ra rb => Sys2Proof.Machine.execSpuChx rt ra rb s
  | .spuCwd rt ra i7 => Sys2Proof.Machine.execSpuCwd rt ra i7 s
  | .spuCwx rt ra rb => Sys2Proof.Machine.execSpuCwx rt ra rb s
  | .spuCdd rt ra i7 => Sys2Proof.Machine.execSpuCdd rt ra i7 s
  | .spuCdx rt ra rb => Sys2Proof.Machine.execSpuCdx rt ra rb s
  | .spuIlh rt i16 => Sys2Proof.Machine.execSpuIlh rt i16 s
  | .spuIlhu rt i16 => Sys2Proof.Machine.execSpuIlhu rt i16 s
  | .spuIl rt i16 => Sys2Proof.Machine.execSpuIl rt i16 s
  | .spuIla rt i18 => Sys2Proof.Machine.execSpuIla rt i18 s
  | .spuIohl rt i16 => Sys2Proof.Machine.execSpuIohl rt i16 s
  | .spuFsmbi rt i16 => Sys2Proof.Machine.execSpuFsmbi rt i16 s
  | .spuAh rt ra rb => Sys2Proof.Machine.execSpuAh rt ra rb s
  | .spuAhi rt ra i10 => Sys2Proof.Machine.execSpuAhi rt ra i10 s
  | .spuA rt ra rb => Sys2Proof.Machine.execSpuA rt ra rb s
  | .spuAi rt ra i10 => Sys2Proof.Machine.execSpuAi rt ra i10 s
  | .spuSfh rt ra rb => Sys2Proof.Machine.execSpuSfh rt ra rb s
  | .spuSfhi rt ra i10 => Sys2Proof.Machine.execSpuSfhi rt ra i10 s
  | .spuSf rt ra rb => Sys2Proof.Machine.execSpuSf rt ra rb s
  | .spuSfi rt ra i10 => Sys2Proof.Machine.execSpuSfi rt ra i10 s
  | .spuAddx rt ra rb => Sys2Proof.Machine.execSpuAddx rt ra rb s
  | .spuCg rt ra rb => Sys2Proof.Machine.execSpuCg rt ra rb s
  | .spuCgx rt ra rb => Sys2Proof.Machine.execSpuCgx rt ra rb s
  | .spuSfx rt ra rb => Sys2Proof.Machine.execSpuSfx rt ra rb s
  | .spuBg rt ra rb => Sys2Proof.Machine.execSpuBg rt ra rb s
  | .spuBgx rt ra rb => Sys2Proof.Machine.execSpuBgx rt ra rb s
  | .spuMpy rt ra rb => Sys2Proof.Machine.execSpuMpy rt ra rb s
  | .spuMpyu rt ra rb => Sys2Proof.Machine.execSpuMpyu rt ra rb s
  | .spuMpyi rt ra i10 => Sys2Proof.Machine.execSpuMpyi rt ra i10 s
  | .spuMpyui rt ra i10 => Sys2Proof.Machine.execSpuMpyui rt ra i10 s
  | .spuMpya rt ra rb rc => Sys2Proof.Machine.execSpuMpya rt ra rb rc s
  | .spuMpyh rt ra rb => Sys2Proof.Machine.execSpuMpyh rt ra rb s
  | .spuMpys rt ra rb => Sys2Proof.Machine.execSpuMpys rt ra rb s
  | .spuMpyhh rt ra rb => Sys2Proof.Machine.execSpuMpyhh rt ra rb s
  | .spuMpyhha rt ra rb => Sys2Proof.Machine.execSpuMpyhha rt ra rb s
  | .spuMpyhhu rt ra rb => Sys2Proof.Machine.execSpuMpyhhu rt ra rb s
  | .spuMpyhhau rt ra rb => Sys2Proof.Machine.execSpuMpyhhau rt ra rb s
  | .spuClz rt ra => Sys2Proof.Machine.execSpuClz rt ra s
  | .spuCntb rt ra => Sys2Proof.Machine.execSpuCntb rt ra s
  | .spuFsmb rt ra => Sys2Proof.Machine.execSpuFsmb rt ra s
  | .spuFsmh rt ra => Sys2Proof.Machine.execSpuFsmh rt ra s
  | .spuFsm rt ra => Sys2Proof.Machine.execSpuFsm rt ra s
  | .spuGbb rt ra => Sys2Proof.Machine.execSpuGbb rt ra s
  | .spuGbh rt ra => Sys2Proof.Machine.execSpuGbh rt ra s
  | .spuGb rt ra => Sys2Proof.Machine.execSpuGb rt ra s
  | .spuAvgb rt ra rb => Sys2Proof.Machine.execSpuAvgb rt ra rb s
  | .spuAbsdb rt ra rb => Sys2Proof.Machine.execSpuAbsdb rt ra rb s
  | .spuSumb rt ra rb => Sys2Proof.Machine.execSpuSumb rt ra rb s
  | .spuXsbh rt ra => Sys2Proof.Machine.execSpuXsbh rt ra s
  | .spuXshw rt ra => Sys2Proof.Machine.execSpuXshw rt ra s
  | .spuXswd rt ra => Sys2Proof.Machine.execSpuXswd rt ra s
  | .spuAnd rt ra rb => Sys2Proof.Machine.execSpuAnd rt ra rb s
  | .spuAndc rt ra rb => Sys2Proof.Machine.execSpuAndc rt ra rb s
  | .spuAndbi rt ra i10 => Sys2Proof.Machine.execSpuAndbi rt ra i10 s
  | .spuAndhi rt ra i10 => Sys2Proof.Machine.execSpuAndhi rt ra i10 s
  | .spuAndi rt ra i10 => Sys2Proof.Machine.execSpuAndi rt ra i10 s
  | .spuOr rt ra rb => Sys2Proof.Machine.execSpuOr rt ra rb s
  | .spuOrc rt ra rb => Sys2Proof.Machine.execSpuOrc rt ra rb s
  | .spuOrbi rt ra i10 => Sys2Proof.Machine.execSpuOrbi rt ra i10 s
  | .spuOrhi rt ra i10 => Sys2Proof.Machine.execSpuOrhi rt ra i10 s
  | .spuOri rt ra i10 => Sys2Proof.Machine.execSpuOri rt ra i10 s
  | .spuOrx rt ra => Sys2Proof.Machine.execSpuOrx rt ra s
  | .spuXor rt ra rb => Sys2Proof.Machine.execSpuXor rt ra rb s
  | .spuXorbi rt ra i10 => Sys2Proof.Machine.execSpuXorbi rt ra i10 s
  | .spuXorhi rt ra i10 => Sys2Proof.Machine.execSpuXorhi rt ra i10 s
  | .spuXori rt ra i10 => Sys2Proof.Machine.execSpuXori rt ra i10 s
  | .spuNand rt ra rb => Sys2Proof.Machine.execSpuNand rt ra rb s
  | .spuNor rt ra rb => Sys2Proof.Machine.execSpuNor rt ra rb s
  | .spuEqv rt ra rb => Sys2Proof.Machine.execSpuEqv rt ra rb s
  | .spuSelb rt ra rb rc => Sys2Proof.Machine.execSpuSelb rt ra rb rc s
  | .spuShufb rt ra rb rc => Sys2Proof.Machine.execSpuShufb rt ra rb rc s
  | .spuShlh rt ra rb => Sys2Proof.Machine.execSpuShlh rt ra rb s
  | .spuShlhi rt ra i7 => Sys2Proof.Machine.execSpuShlhi rt ra i7 s
  | .spuShl rt ra rb => Sys2Proof.Machine.execSpuShl rt ra rb s
  | .spuShli rt ra i7 => Sys2Proof.Machine.execSpuShli rt ra i7 s
  | .spuShlqbi rt ra rb => Sys2Proof.Machine.execSpuShlqbi rt ra rb s
  | .spuShlqbii rt ra i7 => Sys2Proof.Machine.execSpuShlqbii rt ra i7 s
  | .spuShlqby rt ra rb => Sys2Proof.Machine.execSpuShlqby rt ra rb s
  | .spuShlqbyi rt ra i7 => Sys2Proof.Machine.execSpuShlqbyi rt ra i7 s
  | .spuShlqbybi rt ra rb => Sys2Proof.Machine.execSpuShlqbybi rt ra rb s
  | .spuRoth rt ra rb => Sys2Proof.Machine.execSpuRoth rt ra rb s
  | .spuRothi rt ra i7 => Sys2Proof.Machine.execSpuRothi rt ra i7 s
  | .spuRot rt ra rb => Sys2Proof.Machine.execSpuRot rt ra rb s
  | .spuRoti rt ra i7 => Sys2Proof.Machine.execSpuRoti rt ra i7 s
  | .spuRotqby rt ra rb => Sys2Proof.Machine.execSpuRotqby rt ra rb s
  | .spuRotqbyi rt ra i7 => Sys2Proof.Machine.execSpuRotqbyi rt ra i7 s
  | .spuRotqbybi rt ra rb => Sys2Proof.Machine.execSpuRotqbybi rt ra rb s
  | .spuRotqbi rt ra rb => Sys2Proof.Machine.execSpuRotqbi rt ra rb s
  | .spuRotqbii rt ra i7 => Sys2Proof.Machine.execSpuRotqbii rt ra i7 s
  | .spuRothm rt ra rb => Sys2Proof.Machine.execSpuRothm rt ra rb s
  | .spuRothmi rt ra i7 => Sys2Proof.Machine.execSpuRothmi rt ra i7 s
  | .spuRotm rt ra rb => Sys2Proof.Machine.execSpuRotm rt ra rb s
  | .spuRotmi rt ra i7 => Sys2Proof.Machine.execSpuRotmi rt ra i7 s
  | .spuRotqmby rt ra rb => Sys2Proof.Machine.execSpuRotqmby rt ra rb s
  | .spuRotqmbyi rt ra i7 => Sys2Proof.Machine.execSpuRotqmbyi rt ra i7 s
  | .spuRotqmbybi rt ra rb => Sys2Proof.Machine.execSpuRotqmbybi rt ra rb s
  | .spuRotqmbi rt ra rb => Sys2Proof.Machine.execSpuRotqmbi rt ra rb s
  | .spuRotqmbii rt ra i7 => Sys2Proof.Machine.execSpuRotqmbii rt ra i7 s
  | .spuRotmah rt ra rb => Sys2Proof.Machine.execSpuRotmah rt ra rb s
  | .spuRotmahi rt ra i7 => Sys2Proof.Machine.execSpuRotmahi rt ra i7 s
  | .spuRotma rt ra rb => Sys2Proof.Machine.execSpuRotma rt ra rb s
  | .spuRotmai rt ra i7 => Sys2Proof.Machine.execSpuRotmai rt ra i7 s
  | .spuHeq ra rb => Sys2Proof.Machine.execSpuHeq ra rb s
  | .spuHeqi ra i10 => Sys2Proof.Machine.execSpuHeqi ra i10 s
  | .spuHgt ra rb => Sys2Proof.Machine.execSpuHgt ra rb s
  | .spuHgti ra i10 => Sys2Proof.Machine.execSpuHgti ra i10 s
  | .spuHlgt ra rb => Sys2Proof.Machine.execSpuHlgt ra rb s
  | .spuHlgti ra i10 => Sys2Proof.Machine.execSpuHlgti ra i10 s
  | .spuCeqb rt ra rb => Sys2Proof.Machine.execSpuCeqb rt ra rb s
  | .spuCeqbi rt ra i10 => Sys2Proof.Machine.execSpuCeqbi rt ra i10 s
  | .spuCeqh rt ra rb => Sys2Proof.Machine.execSpuCeqh rt ra rb s
  | .spuCeqhi rt ra i10 => Sys2Proof.Machine.execSpuCeqhi rt ra i10 s
  | .spuCeq rt ra rb => Sys2Proof.Machine.execSpuCeq rt ra rb s
  | .spuCeqi rt ra i10 => Sys2Proof.Machine.execSpuCeqi rt ra i10 s
  | .spuCgtb rt ra rb => Sys2Proof.Machine.execSpuCgtb rt ra rb s
  | .spuCgtbi rt ra i10 => Sys2Proof.Machine.execSpuCgtbi rt ra i10 s
  | .spuCgth rt ra rb => Sys2Proof.Machine.execSpuCgth rt ra rb s
  | .spuCgthi rt ra i10 => Sys2Proof.Machine.execSpuCgthi rt ra i10 s
  | .spuCgt rt ra rb => Sys2Proof.Machine.execSpuCgt rt ra rb s
  | .spuCgti rt ra i10 => Sys2Proof.Machine.execSpuCgti rt ra i10 s
  | .spuClgtb rt ra rb => Sys2Proof.Machine.execSpuClgtb rt ra rb s
  | .spuClgtbi rt ra i10 => Sys2Proof.Machine.execSpuClgtbi rt ra i10 s
  | .spuClgth rt ra rb => Sys2Proof.Machine.execSpuClgth rt ra rb s
  | .spuClgthi rt ra i10 => Sys2Proof.Machine.execSpuClgthi rt ra i10 s
  | .spuClgt rt ra rb => Sys2Proof.Machine.execSpuClgt rt ra rb s
  | .spuClgti rt ra i10 => Sys2Proof.Machine.execSpuClgti rt ra i10 s
  | .spuBr i16 => Sys2Proof.Machine.execSpuBr i16 s
  | .spuBra i16 => Sys2Proof.Machine.execSpuBra i16 s
  | .spuBrsl rt i16 => Sys2Proof.Machine.execSpuBrsl rt i16 s
  | .spuBrasl rt i16 => Sys2Proof.Machine.execSpuBrasl rt i16 s
  | .spuBi ra d e => Sys2Proof.Machine.execSpuBi ra d e s
  | .spuIret ra d e => Sys2Proof.Machine.execSpuIret ra d e s
  | .spuBisled rt ra d e => Sys2Proof.Machine.execSpuBisled rt ra d e s
  | .spuBisl rt ra d e => Sys2Proof.Machine.execSpuBisl rt ra d e s
  | .spuBrnz rt i16 => Sys2Proof.Machine.execSpuBrnz rt i16 s
  | .spuBrz rt i16 => Sys2Proof.Machine.execSpuBrz rt i16 s
  | .spuBrhnz rt i16 => Sys2Proof.Machine.execSpuBrhnz rt i16 s
  | .spuBrhz rt i16 => Sys2Proof.Machine.execSpuBrhz rt i16 s
  | .spuBiz rt ra d e => Sys2Proof.Machine.execSpuBiz rt ra d e s
  | .spuBinz rt ra d e => Sys2Proof.Machine.execSpuBinz rt ra d e s
  | .spuBihz rt ra d e => Sys2Proof.Machine.execSpuBihz rt ra d e s
  | .spuBihnz rt ra d e => Sys2Proof.Machine.execSpuBihnz rt ra d e s
  | .spuHbr ra off => Sys2Proof.Machine.execSpuHbr ra off s
  | .spuHbrp ra off => Sys2Proof.Machine.execSpuHbrp ra off s
  | .spuHbra i16 off => Sys2Proof.Machine.execSpuHbra i16 off s
  | .spuHbrr i16 off => Sys2Proof.Machine.execSpuHbrr i16 off s
  | .spuFa rt ra rb => Sys2Proof.Machine.execSpuFa rt ra rb s
  | .spuDfa rt ra rb => Sys2Proof.Machine.execSpuDfa rt ra rb s
  | .spuFs rt ra rb => Sys2Proof.Machine.execSpuFs rt ra rb s
  | .spuDfs rt ra rb => Sys2Proof.Machine.execSpuDfs rt ra rb s
  | .spuFm rt ra rb => Sys2Proof.Machine.execSpuFm rt ra rb s
  | .spuDfm rt ra rb => Sys2Proof.Machine.execSpuDfm rt ra rb s
  | .spuFma rt ra rb rc => Sys2Proof.Machine.execSpuFma rt ra rb rc s
  | .spuDfma rt ra rb => Sys2Proof.Machine.execSpuDfma rt ra rb s
  | .spuFnms rt ra rb rc => Sys2Proof.Machine.execSpuFnms rt ra rb rc s
  | .spuDfnms rt ra rb => Sys2Proof.Machine.execSpuDfnms rt ra rb s
  | .spuFms rt ra rb rc => Sys2Proof.Machine.execSpuFms rt ra rb rc s
  | .spuDfms rt ra rb => Sys2Proof.Machine.execSpuDfms rt ra rb s
  | .spuDfnma rt ra rb => Sys2Proof.Machine.execSpuDfnma rt ra rb s
  | .spuFrest rt ra => Sys2Proof.Machine.execSpuFrest rt ra s
  | .spuFrsqest rt ra => Sys2Proof.Machine.execSpuFrsqest rt ra s
  | .spuFi rt ra rb => Sys2Proof.Machine.execSpuFi rt ra rb s
  | .spuCsflt rt ra i8 => Sys2Proof.Machine.execSpuCsflt rt ra i8 s
  | .spuCflts rt ra i8 => Sys2Proof.Machine.execSpuCflts rt ra i8 s
  | .spuCuflt rt ra i8 => Sys2Proof.Machine.execSpuCuflt rt ra i8 s
  | .spuCfltu rt ra i8 => Sys2Proof.Machine.execSpuCfltu rt ra i8 s
  | .spuFrds rt ra => Sys2Proof.Machine.execSpuFrds rt ra s
  | .spuFesd rt ra => Sys2Proof.Machine.execSpuFesd rt ra s
  | .spuDfceq rt ra rb => Sys2Proof.Machine.execSpuDfceq rt ra rb s
  | .spuDfcmeq rt ra rb => Sys2Proof.Machine.execSpuDfcmeq rt ra rb s
  | .spuDfcgt rt ra rb => Sys2Proof.Machine.execSpuDfcgt rt ra rb s
  | .spuDfcmgt rt ra rb => Sys2Proof.Machine.execSpuDfcmgt rt ra rb s
  | .spuDftsv rt ra i7 => Sys2Proof.Machine.execSpuDftsv rt ra i7 s
  | .spuFceq rt ra rb => Sys2Proof.Machine.execSpuFceq rt ra rb s
  | .spuFcmeq rt ra rb => Sys2Proof.Machine.execSpuFcmeq rt ra rb s
  | .spuFcgt rt ra rb => Sys2Proof.Machine.execSpuFcgt rt ra rb s
  | .spuFcmgt rt ra rb => Sys2Proof.Machine.execSpuFcmgt rt ra rb s
  | .spuFscrwr ra => Sys2Proof.Machine.execSpuFscrwr ra s
  | .spuFscrrd rt => Sys2Proof.Machine.execSpuFscrrd rt s
  | .spuStop sig => Sys2Proof.Machine.execSpuStop sig s
  | .spuStopd ra rb rc => Sys2Proof.Machine.execSpuStopd ra rb rc s
  | .spuLnop => Sys2Proof.Machine.execSpuLnop s
  | .spuNop => Sys2Proof.Machine.execSpuNop s
  | .spuSync => Sys2Proof.Machine.execSpuSync s
  | .spuSyncc => Sys2Proof.Machine.execSpuSyncc s
  | .spuDsync => Sys2Proof.Machine.execSpuDsync s
  | .spuMfspr rt sa => Sys2Proof.Machine.execSpuMfspr rt sa s
  | .spuMtspr rt sa => Sys2Proof.Machine.execSpuMtspr rt sa s
  | .spuRdch rt ca => Sys2Proof.Machine.execSpuRdch rt ca s
  | .spuRchcnt rt ca => Sys2Proof.Machine.execSpuRchcnt rt ca s
  | .spuWrch rt ca => Sys2Proof.Machine.execSpuWrch rt ca s
  | .mfcPut tclass rclass => Sys2Proof.Machine.execMfcPut tclass rclass s
  | .mfcPutb tclass rclass => Sys2Proof.Machine.execMfcPutb tclass rclass s
  | .mfcPutf tclass rclass => Sys2Proof.Machine.execMfcPutf tclass rclass s
  | .mfcPutl tclass rclass => Sys2Proof.Machine.execMfcPutl tclass rclass s
  | .mfcPutlb tclass rclass => Sys2Proof.Machine.execMfcPutlb tclass rclass s
  | .mfcPutlf tclass rclass => Sys2Proof.Machine.execMfcPutlf tclass rclass s
  | .mfcPuts tclass rclass => Sys2Proof.Machine.execMfcPuts tclass rclass s
  | .mfcPutbs tclass rclass => Sys2Proof.Machine.execMfcPutbs tclass rclass s
  | .mfcPutfs tclass rclass => Sys2Proof.Machine.execMfcPutfs tclass rclass s
  | .mfcPutr tclass rclass => Sys2Proof.Machine.execMfcPutr tclass rclass s
  | .mfcPutrb tclass rclass => Sys2Proof.Machine.execMfcPutrb tclass rclass s
  | .mfcPutrf tclass rclass => Sys2Proof.Machine.execMfcPutrf tclass rclass s
  | .mfcPutrl tclass rclass => Sys2Proof.Machine.execMfcPutrl tclass rclass s
  | .mfcPutrlb tclass rclass => Sys2Proof.Machine.execMfcPutrlb tclass rclass s
  | .mfcPutrlf tclass rclass => Sys2Proof.Machine.execMfcPutrlf tclass rclass s
  | .mfcGet tclass rclass => Sys2Proof.Machine.execMfcGet tclass rclass s
  | .mfcGetb tclass rclass => Sys2Proof.Machine.execMfcGetb tclass rclass s
  | .mfcGetf tclass rclass => Sys2Proof.Machine.execMfcGetf tclass rclass s
  | .mfcGetl tclass rclass => Sys2Proof.Machine.execMfcGetl tclass rclass s
  | .mfcGetlb tclass rclass => Sys2Proof.Machine.execMfcGetlb tclass rclass s
  | .mfcGetlf tclass rclass => Sys2Proof.Machine.execMfcGetlf tclass rclass s
  | .mfcGets tclass rclass => Sys2Proof.Machine.execMfcGets tclass rclass s
  | .mfcGetbs tclass rclass => Sys2Proof.Machine.execMfcGetbs tclass rclass s
  | .mfcGetfs tclass rclass => Sys2Proof.Machine.execMfcGetfs tclass rclass s
  | .mfcSdcrt tclass rclass => Sys2Proof.Machine.execMfcSdcrt tclass rclass s
  | .mfcSdcrtst tclass rclass => Sys2Proof.Machine.execMfcSdcrtst tclass rclass s
  | .mfcSdcrz tclass rclass => Sys2Proof.Machine.execMfcSdcrz tclass rclass s
  | .mfcSdcrst tclass rclass => Sys2Proof.Machine.execMfcSdcrst tclass rclass s
  | .mfcSdcrf tclass rclass => Sys2Proof.Machine.execMfcSdcrf tclass rclass s
  | .mfcSndsig tclass rclass => Sys2Proof.Machine.execMfcSndsig tclass rclass s
  | .mfcSndsigb tclass rclass => Sys2Proof.Machine.execMfcSndsigb tclass rclass s
  | .mfcSndsigf tclass rclass => Sys2Proof.Machine.execMfcSndsigf tclass rclass s
  | .mfcPutlluc tclass rclass => Sys2Proof.Machine.execMfcPutlluc tclass rclass s
  | .mfcPutllc tclass rclass => Sys2Proof.Machine.execMfcPutllc tclass rclass s
  | .mfcPutqlluc tclass rclass => Sys2Proof.Machine.execMfcPutqlluc tclass rclass s
  | .mfcBarrier tclass rclass => Sys2Proof.Machine.execMfcBarrier tclass rclass s
  | .mfcMfceieio tclass rclass => Sys2Proof.Machine.execMfcMfceieio tclass rclass s
  | .mfcMfcsync tclass rclass => Sys2Proof.Machine.execMfcMfcsync tclass rclass s
  | .mfcGetllar tclass rclass => Sys2Proof.Machine.execMfcGetllar tclass rclass s

end Sys2Proof.Machine
end

