-- ==== Sys2Proof/Machine/Ioc.lean ====
section
/-! DEFINITION. Inbound I/O accesses: the translation of an I/O address, its caches, I/O exceptions, and the access itself
(21_translation.md section 8, 12_state_platform.md section 3). -/

namespace Sys2Proof.Machine

/-! ## Translation (R525 to R528) -/

/-- The outcome of an I/O translation, or of a part of it. A real address has the storage-ordering bits SO of its IOPT entry beside
it (R528). -/
inductive IoRes (α : Type) where
  | real (v : α) (so : BitVec 2) (s : State)
  | fault (type : BitVec 2) (s : State)
  | stop (o : Out State)

/-- The page size of an IOST entry, in bits (R526); none: a value that is not listed. -/
def ioPageBits (ps : Nat) : Option Nat :=
  if ps = 1 then some 12 else if ps = 3 then some 16 else if ps = 5 then some 20 else if ps = 7 then some 24 else none

/-- The IOST cache entry of a memory entry: V 0, cache-valid 1, tag 2:3, IOPT base 22:51, NPPT 52:58, PS 61:63. -/
def iostLoaded (ste : DWord) (tag : BitVec 2) : DWord :=
  setIbm (setIbit (ste &&& 0x800003FFFFFFFFE7) 1 true) 2 tag

/-- The IOST entry of a segment: from the cache, or from memory with hardware miss handling (R528, R530). A read of the table at an
address that is not main storage, a local-storage alias, a register or an IOIF range among them, is a checkstop: DESIGN CHOICE (log 56). -/
def State.iostLookup (s : State) (a : BitVec 42) : IoRes DWord :=
  let seg := (ibm a 7 7).toNat
  let tag : BitVec 2 := ibm a 7 2
  let e := sget 0 s.plat.iostCache (seg % 32)
  if ibit e 1 && decide (ibm e 2 2 = tag) then (if ibit e 0 then .real e 0 s else .fault 2 s)
  else if !ibit (s.pcell offIostOrigin) 52 then .fault 2 s
  else
    let ra := (ibm (s.pcell offIostOrigin) 22 30).toNat * 4096 + 8 * seg
    if s.cfg.memBytes < ra + 8 then .stop s.checkstop
    else
      let m : DWord := BitVec.ofNat 64 (readBytes s.mem ra 8)
      if !ibit m 0 then .fault 2 s
      else if ibit m 60 then .stop (.refused .reservedValue)
      else
        let e := iostLoaded m tag
        .real e 0 { s with plat := { s.plat with iostCache := sput 0 s.plat.iostCache (seg % 32) e } }

/-- Congruence class and tag of a page (R531): `lo` has 9 bits, or fewer for the larger pages. -/
def ioptPlace (base page bits : Nat) : Nat × BitVec 33 :=
  let k := min 9 (28 - bits)
  let lo := page % 2^k
  let sum := (base + page / 2^k) % 2^30
  ((bitrev6 (BitVec.ofNat 6 sum) ^^^ BitVec.ofNat 6 lo).toNat, BitVec.ofNat 33 (sum / 64 * 512 + lo))

/-- One member of a list of ways, for a drawn `k`. -/
def pickWay (l : List Nat) (k : Nat) : Nat :=
  match l with
  | [w] => w
  | l => l.getD (k % l.length) 0

/-- The first of some lists of ways that is not empty, and one of it, for a drawn `k`. -/
def firstChoice (k : Nat) : List (List Nat) → Option Nat
  | [] => none
  | l :: rest => if l.isEmpty then firstChoice k rest else some (pickWay l k)

/-- The way that a hardware load replaces (R532, D28), one of the first criterion that any way meets, for a drawn `k`; none: all
four are locked (R529). -/
def State.ioptVictim (s : State) (cls : Nat) (k : Nat) : Option Nat :=
  let ways := [0, 1, 2, 3]
  let e (w : Nat) := s.ioptAt (4 * cls + w)
  if ibit (s.pcell offIostOrigin) 53 then
    firstChoice k [ways.filter fun w => !(e w).valid && !(e w).h, ways.filter fun w => !(e w).h]
  else firstChoice k [ways.filter fun w => !(e w).valid, ways.filter fun w => !(e w).h, ways]

/-- The IOPT entry of a page: from the cache, from a load on its way, or from memory with hardware miss handling (R528, R532).
A load may arrive in the cache at once or later, a draw: until then software may write the entry that it replaces. A read of the table
at an address that is not main storage: as for the IOST, DESIGN CHOICE (log 56). -/
def State.ioptLookup (s : State) (base page bits : Nat) : IoRes DWord :=
  let place := ioptPlace base page bits
  let waiting := s.plat.ioptLoad.find? fun x => decide (x.1 / 4 = place.1) && decide (x.2.tag = place.2)
  match firstWay fun w => (s.ioptAt (4 * place.1 + w)).valid && decide ((s.ioptAt (4 * place.1 + w)).tag = place.2), waiting with
  | some w, _ => .real (s.ioptAt (4 * place.1 + w)).entry 0 s
  | none, some x => .real x.2.entry 0 s
  | none, none =>
    if !ibit (s.pcell offIostOrigin) 52 then .fault 1 s
    else
      match s.ioptVictim place.1 (s.free 8 0).toNat with
      | none => .fault 1 s
      | some w =>
        let ra := (base * 4096 + 8 * page) % 2^42
        if s.cfg.memBytes < ra + 8 then .stop s.checkstop
        else
          let m : DWord := BitVec.ofNat 64 (readBytes s.mem ra 8)
          let s' := (s.drew 2).startIopt (4 * place.1 + w) { valid := true, h := ibit m 52, tag := place.2, entry := m }
          .real m 0 (if s.free 1 1 = 1 then s'.arriveIopt else s')

/-- The checks on an IOPT entry and the real address (R527, R528). -/
def ioptAddress (s : State) (e : DWord) (a : BitVec 42) (bits : Nat) (write : Bool) (ioid : BitVec 11) : IoRes Nat :=
  let pp : BitVec 2 := ibm e 0 2
  let rpn := (ibm e 22 30).toNat
  if pp = 0 ∨ (pp = 1 ∧ write) ∨ (pp = 2 ∧ ¬write) ∨ ibm e 53 11 ≠ ioid then .fault 1 s
  else if ibm e 3 2 = (1 : BitVec 2) then .stop (.refused .iopteOrder)
  else if ibm e 5 17 ≠ (0 : BitVec 17) ∨ rpn % 2^(bits - 12) ≠ 0 then .stop (.refused .reservedValue)
  else .real (rpn * 4096 + a.toNat % 2^bits) (ibm e 3 2) s

/-- Go on with what a part of an I/O translation gives. -/
def IoRes.bind {α β : Type} (r : IoRes α) (f : α → State → IoRes β) : IoRes β :=
  match r with
  | .real v _ s => f v s
  | .fault type s => .fault type s
  | .stop o => .stop o

/-- IOTranslate (R528) of the 35-bit I/O address in `a`. -/
def State.ioTranslate (s : State) (a : BitVec 42) (write : Bool) (ioid : BitVec 11) : IoRes Nat :=
  (s.iostLookup a).bind fun ste s =>
    match ioPageBits (ibm ste 61 3).toNat with
    | none => .stop (.refused .reservedValue)
    | some bits =>
      let page := a.toNat % 2^28 / 2^bits
      if 512 * (ibm ste 52 7).toNat + 511 < page then .fault 1 s
      else (s.ioptLookup (ibm ste 22 30).toNat page bits).bind fun e s => ioptAddress s e a bits write ioid

/-- The real address of an inbound access (R525). -/
def State.ioAddress (s : State) (a : Nat) (write : Bool) (ioid : BitVec 11) : IoRes Nat :=
  let e := ibit (s.pcell offIostOrigin) 0
  if e != ibit (s.pcell 0x511C00) 16 then .stop (.refused .ioTranslationEnable)
  else if e then s.ioTranslate (BitVec.ofNat 42 (a % 2^35)) write ioid
  else .real (a % 2^42) 0 s

/-! ## The access -/

/-- The I/O address as the exception register keeps it. -/
def ioAddr42 (a : Nat) : BitVec 42 := BitVec.ofNat 42 (a % 2^42)

/-- Whether the previous writes of a unit come before its access whatever their I/O addresses: S = 1, and with translation
SO = '10' or '11' (20_memory R388). -/
def IoUnit.strong (u : IoUnit) (te : Bool) (so : BitVec 2) : Bool := u.s && (!te || ibit so 0)

/-- What an inbound access finds, and whether it is ordered after all previous writes of the unit; an access that finds nothing
is an I/O exception, one to reserved MMIO space gets the error response only (R529, 20_memory R376), one routed back to its own
interface is refused (R525). -/
def State.ioAccess (s : State) (u : IoUnit) (a len : Nat) (write : Bool) (f : Region → Nat → Bool → State → Res Unit) : Res Unit :=
  match s.ioAddress a write u.ioid with
  | .stop o => .stop o
  | .fault type s => s.ioException type (ioAddr42 a) write u.ioid
  | .real ra so s =>
    match regionAt s ra len with
    | .nothing => s.ioException 0 (ioAddr42 a) write u.ioid
    | .unassigned => .ok () s
    | r =>
      if r = .ioif ∧ ioifRange s ra u.ifc.val = true then .stop (.refused .ioLoopedBack)
      else f r ra (u.strong (ibit (s.pcell 0x511C00) 16) so) s

/-- The lengths of a device's commands (20_memory R385): 1, 2, 4, 8, 16 bytes naturally aligned; a multiple of 16 that is
quadword-aligned and does not cross a 128-byte boundary; 3, 5, 7, 9 to 15 bytes inside one quadword. -/
def ioSized (a len : Nat) : Bool :=
  if [1, 2, 4, 8, 16].contains len then decide (a % len = 0)
  else if len % 16 = 0 then decide (a % 16 = 0) && decide (0 < len) && decide (a % 128 + len ≤ 128)
  else decide (len < 16) && len != 6 && decide (a % 16 + len ≤ 16)

/-- An inbound read, after the writes of the unit that come before it: it changes a register that a read changes. -/
def State.ioRead (s : State) (u : IoUnit) (a len : Nat) : Res Unit :=
  if !ioSized a len then .ok () s
  else
    s.ioAccess u a len false fun r _ strong s =>
      let s := s.ioBarrier u strong a len
      match r with
      | .mmio off => (mmioRead s off len).bind fun _ s => .ok () s
      | .ls n _ => .ok () (s.meetAlias n)
      | _ => .ok () s

/-- The bytes that an inbound write of `len` bytes at `a` stores in one indivisible access (20_memory R359): all of an aligned
1, 2, 4 or 16, else 4 of 8, 16 of more, or one. -/
def ioPiece (a len : Nat) : Nat :=
  if [1, 2, 4, 16].contains len && decide (a % len = 0) then len
  else if len = 8 then 4 else if len % 16 = 0 then 16 else 1

/-- The indivisible accesses of an inbound write. -/
def ioParts (a : Nat) (bytes : List Byte) : List (Nat × List Byte) :=
  let k := ioPiece a bytes.length
  (List.range (bytes.length / k)).map fun j => (a + k * j, (bytes.drop (k * j)).take k)

/-- An inbound write. A register takes it whole and at once; the data for main storage or a local storage waits, and takes effect
in indivisible accesses in any order (`Move.ioData`; 20_memory R359, R388, R389). A write to the other interface (R391) is performed
after the writes of the unit that come before it, and ends the reservations on its lines (49_spe_mailbox_signal_event R1776; log 23). -/
def State.ioWrite (s : State) (u : IoUnit) (a : Nat) (bytes : List Byte) : Res Unit :=
  let len := bytes.length
  if !ioSized a len then .ok () s
  else
    s.ioAccess u a len true fun r ra strong s =>
      match r with
      | .mmio off => mmioWrite (s.ioBarrier u strong a len) off len (natOfBytes bytes)
      | .ls n off => .ok () (s.acceptWrite (some n) u strong a len (ioParts off bytes))
      | .dram => .ok () (s.acceptWrite none u strong a len (ioParts ra bytes))
      | .ioif => .ok () ((s.ioBarrier u strong a len).noteStores none ra len)
      | _ => .ok () s

end Sys2Proof.Machine
end

