-- ==== Sys2Proof/Machine/Sequencer.lean ====
section
/-! DEFINITION. What a step of the machine is made of: the step of a PPE thread (60_exceptions R1806, 62_platform R2004), of an
SPU (49_spu_control_channel R1550), of an MFC (49_mfc_commands R1630), the time base (62_platform R1990), and the moves of the
schedule (log 1). (Noncomputable for the reason given in Decode.lean.) -/

namespace Sys2Proof.Machine

noncomputable section

/-! ## A PPE thread -/

/-- `MSR[EE] | NOT(MSR[HV])`, the enable of the hypervisor interrupts (60_exceptions R1832, R1870, R1875, R1880). -/
def Thread.hypEnabled (th : Thread) : Bool := th.ee || !ibit th.msr 3

/-- HSRR1[33] (60_exceptions R1826, R1832, R1870, R1875, R1880). -/
def info33 : DWord := 0x40000000
/-- HSRR1[42]: the external interrupt is a mediated one (R1830). -/
def info42 : DWord := 0x200000
/-- SRR1[43] of a trace interrupt (R1834). -/
def info43 : DWord := 0x100000

/-- The external interrupt of thread `t`, direct or mediated, if one exists and is enabled (R1826, R1830): which of the two it
is, if both are, is drawn. A mediated one with LPES bit 0 = 1 uses SRR0 and SRR1, with SRR1[42] = 0 (R1830). -/
def State.externalInterrupt (s : State) (t : Fin 2) : Option (Out State) :=
  let th := s.threads[t]
  let userOrGuest := !ibit th.msr 3 || ibit th.msr 49
  let direct := s.plat.iic[t].signal && (th.ee || (!s.ppe.lpes0 && userOrGuest && s.ppe.extrHsrr))
  let mediated := th.lpcrMer && th.ee && userOrGuest && s.ppe.extrHsrr
  let s' := if direct && mediated then s.drew 1 else s
  if mediated && (!direct || decide (s.free 1 0 = 1)) then
    some (.next (s'.interrupt t .external th.pc (if s.ppe.lpes0 then 0 else info33 ||| info42)))
  else if direct then
    some (.next (s'.interrupt t .external th.pc (if !s.ppe.lpes0 && s.ppe.extrHsrr then info33 else 0)))
  else none

/-- The information of an instruction-caused maintenance interrupt: opcode compares 0 and 1 at 35:36, data and instruction
address breakpoint at 45:46 (R1875). -/
def maintInfo (causes : BitVec 4) : DWord := setIbm (setIbm 0 35 (ibm causes 0 2 : BitVec 2)) 45 (ibm causes 2 2 : BitVec 2)

/-- The interrupt that thread `t` takes at an instruction boundary before anything else but a machine check, highest priority
first (R1806, D91): the system-caused ones, and a maintenance interrupt of an instruction that the scan facility matched, which
nothing masks (R1875). -/
def State.systemInterrupt (s : State) (t : Fin 2) : Option (Out State) :=
  let th := s.threads[t]
  if th.hypEnabled && ibit s.ppe.hid0 29 && s.thermalSignal then some (.next (s.interrupt t .thermal th.pc info33))
  else if th.hypEnabled && ibit s.ppe.hid0 30 && th.sysErr then
    some (.next ((s.modT t fun th => { th with sysErr := false }).interrupt t .systemError th.pc info33))
  else if th.maintInstr ≠ 0 then
    some (.next ((s.modT t fun th => { th with maintInstr := 0 }).interrupt t .maintenance th.pc (maintInfo th.maintInstr)))
  else if th.hypEnabled && decide (th.maint ≠ 0) then
    some (.next ((s.modT t fun th => { th with maint := 0 }).interrupt t .maintenance th.pc (setIbm info33 35 th.maint)))
  else
    match s.externalInterrupt t with
    | some o => some o
    | none =>
      if th.hypEnabled && th.lpcrHdice && ibit s.ppe.hdec 0 then
        some (.next (s.interrupt t .hypervisorDecrementer th.pc info33))
      else if th.ee && ibit th.dec 0 then some (.next (s.interrupt t .decrementer th.pc 0))
      else none

/-- The reasons to resume a suspended thread (62_platform R2003). -/
def State.wakeReasons (s : State) (t : Fin 2) : List (BitVec 3) :=
  let th := s.threads[t]
  (if th.resumeReq then [5] else []) ++
  (if s.thermalSignal && ibit s.ppe.hid0 22 then [2] else []) ++
  (if th.sysErr && ibit s.ppe.hid0 24 then [6] else []) ++
  (if (s.plat.iic[t].signal || (th.lpcrMer && s.ppe.extrHsrr)) && ibit s.ppe.tscr 11 then [4] else []) ++
  (if ibit th.dec 0 && ibit s.ppe.tscr (9 + t.val) then [3] else [])

/-- One of a list, for a drawn `k`. -/
def pickOne {α : Type} (d : α) (l : List α) (k : Nat) : α :=
  match l with
  | [a] => a
  | l => l.getD (k % l.length) d

/-- The resume of a suspended thread: a system reset interrupt with one of the reasons in SRR1[42:44] (62_platform R2004,
60_exceptions R1810); an imprecise machine check that it still had is not taken (R1807). -/
def State.resume (s : State) (t : Fin 2) : State :=
  let l := s.wakeReasons t
  let reason := pickOne 5 l (s.free 8 0).toNat
  let s := if 1 < l.length then s.drew 1 else s
  let s := s.interrupt t .systemReset s.threads[t].pc (setIbm 0 42 reason)
  let s := s.modT t fun th => { th with tsrlTp := 3, resumeReq := false, mcheck := none, sysErr := th.sysErr && decide (reason ≠ 6) }
  { s with ppe := { s.ppe with te := setIbit s.ppe.te t.val true } }

/-- Whether a fetch may use a line of the instruction cache: not with HID1[en_if_cach] (bit 10) = 0 and HID4[enb_force_ci]
(bit 13) = 1 (10_state R75, 20_memory R432). -/
def PpeShared.fetchCached (p : PpeShared) : Bool := ibit p.hid1 10 || !ibit p.hid4 13

/-- The line of the instruction cache that a fetch uses: none if it is caching-inhibited (20_memory R380) or the cache is not used. -/
def PpeShared.icacheLine (p : PpeShared) (x : Phys) : Option (Nat × Nat) :=
  if p.fetchCached && !x.i then p.icache.find? fun l => l.1 == x.ra / 128 else none

/-- The instruction word at a translated address: from a line of the instruction cache that may be stale, from main storage
(20_memory R430), or, caching-inhibited, from a local storage (R340, R361), which then holds the inbound writes that are due (R389);
a device beyond an IOIF: log 23. A fetch is nonguarded, so that one of a register is refused (R383, D56). -/
def fetchWord (s : State) (p : Phys) : Res Word :=
  match region s p.ra with
  | .dram =>
    match s.ppe.icacheLine p with
    | some x => .ok (BitVec.ofNat 32 (x.2 / 256^(124 - p.ra % 128))) s
    | none => .ok (BitVec.ofNat 32 (readBytes s.mem p.ra 4)) s
  | .ls n off =>
    if p.i || !s.ppe.fetchCached then .ok (BitVec.ofNat 32 (readBytes (s.meetAlias n).spes[n].ls off 4)) (s.meetAlias n)
    else .stop (.refused .cacheableDevice)
  | .mmio _ => .stop (.refused .cacheableDevice)
  | .ioif => (s.ioifRead p.ra 4).bind fun v s => .ok (BitVec.ofNat 32 v) s
  | .unassigned => .stop s.unassignedSpace
  | .nothing => .stop s.checkstop

/-- The primary opcode and the extended opcode of the XL and X forms. -/
def wordOp (w : Word) : Nat := (ibm w 0 6).toNat
def wordXo (w : Word) : Nat := (ibm w 21 10).toNat

/-- `b`, `bc`, `bclr`, `bcctr`. -/
def isBranchWord (w : Word) : Bool :=
  wordOp w == 16 || wordOp w == 18 || (wordOp w == 19 && (wordXo w == 16 || wordXo w == 528))
/-- `rfid`, `hrfid`, `sc`, `attn`: never traced. -/
def isUntracedWord (w : Word) : Bool :=
  wordOp w == 17 || wordOp w == 0 || (wordOp w == 19 && (wordXo w == 18 || wordXo w == 274))
/-- `mtmsr`, `mtmsrd`. -/
def isMoveToMsrWord (w : Word) : Bool := wordOp w == 31 && (wordXo w == 146 || wordXo w == 178)

/-- The trace interrupt after an instruction (R1834). An instruction that took another interrupt left SE = BE = 0. -/
def traceAfter (s : State) (t : Fin 2) (w : Word) (s' : State) : State :=
  let th := s.threads[t]
  let th' := s'.threads[t]
  if !isUntracedWord w && ibit s'.ppe.te t.val && (ibit th'.msr 53 || (isBranchWord w && ibit th'.msr 54)) then
    s'.interrupt t .trace (if isMoveToMsrWord w && !ibit th.msr 53 then th.pc else th'.pc) info43
  else s'

/-- Fetch, decode and execute an instruction of thread `t`; a word of no row is an illegal instruction (30_encoding R546). -/
def State.ppeInstruction (s : State) (t : Fin 2) : Out State :=
  (translateFetch s t s.threads[t].pc).done fun p s =>
    (fetchWord s p).done fun w s =>
      match decodePpe w with
      | .error _ => s.illegal
      | .ok i =>
        match exec i s with
        | .next s' => .next (traceAfter s t w s')
        | o => o

/-- A step of a thread that is not suspended: the interrupts of the boundary, else an instruction. -/
def State.boundary (s : State) (t : Fin 2) : Out State :=
  match s.systemInterrupt t with
  | some o => o
  | none => s.ppeInstruction t

/-- A step of thread `t`. A pending imprecise machine check is taken before anything else, at the boundary that was drawn when it
arose (60_exceptions R1809, R1811; log 19). -/
def State.ppeStep (s : State) (t : Fin 2) : Out State :=
  if !ibit s.ppe.te t.val then .next (s.resume t)
  else
    match s.threads[t].mcheck with
    | none => s.boundary t
    | some 0 => s.takeMachineCheck t
    | some (k + 1) => (s.modT t fun th => { th with mcheck := some k }).boundary t

/-! ## An SPU (49_spu_control_channel R1550) -/

/-- The address that an SPU fetches from: the program counter within the local-storage size, on every fetch
(11_state_spe R152). -/
def Spe.fetchAddr (p : Spe) : Nat := (p.pc &&& p.lslr).toNat

/-- The instruction word of an SPU: from a prefetched line that may be stale, or from local storage
(70_reset_and_hazards R2092). -/
def Spe.fetchWord (p : Spe) : Word :=
  let a := p.fetchAddr
  match p.ibuf.find? fun x => x.1 == a / 128 with
  | some x => BitVec.ofNat 32 (x.2 / 256^(124 - a % 128))
  | none => BitVec.ofNat 32 (readBytes p.ls a 4)

/-- SPU_PrivCntl[S], bit 63 (log 8). -/
def Spe.singleStep (p : Spe) : Bool := ibit p.privCntl 63

/-- The end of an instruction in single-step mode (R1556): it may be honoured, or a later one (U63). A stalled channel
instruction, which left SPU_Status[W] set, has not executed. -/
def State.afterSpu (s : State) : Out State :=
  if s.spe.singleStep && !ibit s.spe.status 28 then
    if s.free 1 0 = 1 then
      let s := (s.drew 1).modSpe fun p =>
        if p.running then p.stopAt (p.statusWith 0x10) p.pc else { p with status := p.status ||| 0x10 }
      (s.raiseInt s.curN 2 0x4).done fun _ s => .next s
    else .next (s.drew 1)
  else .next s

/-- A step of the moving SPU. SPU_Status[W] tells whether the instruction of this step stalls (R1560, R1561), and not of an earlier one. -/
def State.spuStep (s : State) : Out State :=
  if s.spe.ie && decide (s.spe.count 0 ≠ 0) then .next s.spuInterrupt
  else
    let o := match decodeSpu s.spe.fetchWord with
      | .error _ => s.spuInvalid
      | .ok i => exec i (s.modSpe fun p => p.waiting false)
    match o with
    | .next s' => s'.afterSpu
    | o => o

/-! ## An MFC (49_mfc_commands R1630) -/

/-- What an MFC may do next. -/
inductive MfcMove where
  /-- A multisource synchronization request of the MMIO register, of the channel, completes (20_memory R418). -/
  | msSync
  | channelSync
  /-- A tag-status update (R1682). -/
  | tagUpdate
  /-- The oldest broadcast `tlbie` is performed (21_translation R480, R517). -/
  | snoop
  /-- An atomic command issued while one was pending is reported (R1631, R1637, D76). -/
  | lateAtomic
  | command (x : MfcSel)
deriving DecidableEq, Repr

/-- The moves that are open to an MFC; a multisource synchronization completes when no write that it tracks is left (20_memory R418). -/
def Spe.mfcMoves (p : Spe) : List MfcMove :=
  (if p.msSync && !p.snoopQ.any (·.ms) then [.msSync] else []) ++
  (if decide (p.count 9 = 0) && !p.snoopQ.any (·.ch) then [.channelSync] else []) ++
  (if decide (p.count 23 = 0) && (decide (p.tagReq = 0) || queryHolds p.tagReq (doneGroups p.spuQ) p.tagMask) then [.tagUpdate]
    else []) ++
  (if p.snoops.isEmpty then [] else [.snoop]) ++
  (if decide (0 < p.atomicLate) && !p.halted && !p.sc then [.lateAtomic] else []) ++
  p.movable.map .command

/-- The MMIO request of a multisource synchronization completes; it makes sure that the count of channel 9 is 1 and that the
event is raised, but has no effect on a request of that channel whose writes are still outstanding: that one completes on its own
(20_memory R418, 49_spe_mailbox_signal_event R1775). -/
def Spe.endMsSync (p : Spe) : Spe :=
  let p' := { p with msSync := false }
  if p.count 9 = 0 && !p.snoopQ.any (·.ch) then (p'.setCnt 9 1).raiseEvent 19 else p'

/-- Perform the oldest broadcast `tlbie`. -/
def Spe.performOldest (p : Spe) : Spe :=
  match p.snoops with
  | [] => p
  | x :: rest => { p.performTlbie x with snoops := rest }

/-- Perform the selected command: a word of no row is a command error (R1637). -/
def State.mfcCommand (s : State) : Out State :=
  match s.selected with
  | none => .next s
  | some c =>
    match decodeMfc c.word with
    | .error _ => s.selectedError intC
    | .ok i => exec i s

/-- The delivery of a tag status (R1682). -/
def Spe.deliverTags (p : Spe) : Spe :=
  let p := { p with tagStat := doneGroups p.spuQ &&& p.tagMask, tagReq := 0 }
  ((p.setCnt 24 1).setCnt 23 1).raiseEvent 31

/-- The command that MFC_CNTL[R] resends first has its turn (R1640). -/
def State.resentNow (s : State) (x : MfcSel) : State :=
  match s.spe.resend, s.spe.commandOf x with
  | some k, some c => if c.order = k then s.modSpe fun p => { p with resend := none } else s
  | _, _ => s

/-- A step of the moving MFC. -/
def State.mfcStep (s : State) : Out State :=
  let l := s.spe.mfcMoves
  let m := pickOne .msSync l (s.free 8 0).toNat
  let s := if 1 < l.length then s.drew 1 else s
  if l.isEmpty then .next s
  else
    match m with
    | .msSync => .next (s.modSpe Spe.endMsSync)
    | .channelSync => .next (s.modSpe fun p => (p.setCnt 9 1).raiseEvent 19)
    | .tagUpdate => .next (s.modSpe Spe.deliverTags)
    | .snoop => .next (s.modSpe Spe.performOldest)
    | .lateAtomic =>
      ((s.modSpe fun p => { p with atomicLate := p.atomicLate - 1 }).mfcError s.curN intC atomicIndex).done fun _ s => .next s
    | .command x => ({ s with sel := x }.resentNow x).mfcCommand

/-! ## The time base (62_platform R1990, R1995) -/

/-- TBR: the mode is bit 55, the setting 56:63 (log 8). -/
def offTbr : Nat := 0x509890

/-- Whether the internal mode ticks, whether the external mode takes a rising edge of TBEN; HID6[tb_enable] is bit 15
(log 8). -/
def State.tickInternal (s : State) : Bool :=
  s.plat.tben && ibit s.ppe.hid6 15 && !ibit (s.pcell offTbr) 55 && decide (ibm (s.pcell offTbr) 56 8 ≠ (0 : BitVec 8))
def State.tickExternal (s : State) : Bool := ibit s.ppe.hid6 15 && ibit (s.pcell offTbr) 55

/-- A tick. -/
def State.tick (s : State) : State :=
  { s with
    ppe := { s.ppe with tb := s.ppe.tb + 1, hdec := s.ppe.hdec - 1 }
    threads := s.threads.map fun th => { th with dec := th.dec - 1 }
    spes := s.spes.map Spe.tickDec }

/-- The TBEN input changes; in the external mode its rising edge ticks. -/
def State.setTben (s : State) (high : Bool) : State :=
  let s' : State := { s with plat := { s.plat with tben := high } }
  if high && !s.plat.tben && s.tickExternal then s'.tick else s'

/-! ## The moves of the schedule (log 1) -/

/-- Whether two ERAT entries stand in the same set of the 32 of an ERAT, by EA[47:51] (00_scope R10). -/
def eratSet (x y : EratEntry) : Bool := (x.instr == y.instr) && decide (ibm x.eaPage 47 5 = ibm y.eaPage 47 5)

/-- Whether two entries have the same tags (D62). -/
def eratSame (x y : EratEntry) : Bool :=
  (x.instr == y.instr) && decide (x.eaPage = y.eaPage) && (x.sf == y.sf) && (x.rel == y.rel) && (x.pr == y.pr) && (x.hv == y.hv)

/-- The entries of both threads in the set of `x`, with their threads; of thread `t`, without one of the same tags. -/
def State.eratRivals (s : State) (t : Fin 2) (x : EratEntry) : List (Fin 2 × EratEntry) :=
  [(0 : Fin 2), 1].flatMap fun u =>
    ((s.threads[u].erat.filter (eratSet x)).filter fun y => !(decide (u = t) && eratSame x y)).map fun y => (u, y)

/-- Put an entry into an ERAT of two ways in 32 sets, which the threads share (00_scope R10): of the entries that stand in its
set at most one stays, a drawn one. -/
def State.eratPut (s : State) (t : Fin 2) (x : EratEntry) : State :=
  let l := s.eratRivals t x
  let kept := if l.length < 2 then l else (l[(s.free 8 0).toNat % l.length]?).toList
  let s := if l.length < 2 then s else s.drew 1
  let others (u : Fin 2) : List EratEntry :=
    (kept.filter fun y => decide (y.1 = u)).map (·.2) ++ s.threads[u].erat.filter fun y => !eratSet x y
  { s with threads := Vector.ofFn fun u => { s.threads[u] with erat := if u = t then x :: others u else others u } }

/-- Install the translation of an address in an ERAT (21_translation R444); nothing happens where the translation needs a search
of the page table, which only an access makes (R456), or fails. -/
def State.eratFill (s : State) (t : Fin 2) (instr : Bool) (ea : DWord) : State :=
  let th := s.threads[t]
  let ea := th.truncEa ea
  let k : Kind := if instr then .fetch else .load
  match if s.heldTranslation t ea k then lookup s t ea k else .pageFault s with
  | .page p s =>
    let x : EratEntry :=
      { instr := instr, eaPage := ibm ea 0 52, sf := th.sf, rel := if instr then th.ir else th.dr, pr := th.pr, hv := th.hv,
        raPage := BitVec.ofNat 30 (p.ra / 4096), i := p.i, g := p.g, n := p.noExec, fetchG := p.fetchG, ks := p.ks, kp := p.kp,
        pp := p.pp, cBit := p.c, cls := p.cls, bits := p.bits }
    s.eratPut t x
  | _ => s

/-- Put a line of main storage into the instruction cache (20_memory R430). -/
def State.icachePut (s : State) (line : Nat) : State :=
  if line * 128 + 128 ≤ s.cfg.memBytes then
    { s with ppe := { s.ppe with icache := (line, readBytes s.mem (line * 128) 128) :: s.ppe.icache.filter fun x => x.1 != line } }
  else s

/-- A thread that runs fetches the line of an address into the instruction cache (R430): ahead of its program only where the page
may be fetched from, is cacheable and nonguarded (R380, R383) and is translated without a search of the page table, which is never
speculative (21_translation R456); and in any cacheable page the line of its next instruction, which the program dictates. -/
def State.icacheFill (s : State) (t : Fin 2) (ea : DWord) : State :=
  let th := s.threads[t]
  let ea := th.truncEa ea
  let dictated := decide ((th.truncEa th.pc).toNat / 128 = ea.toNat / 128)
  if !ibit s.ppe.te t.val || !s.ppe.fetchCached || !(dictated || s.heldTranslation t ea .fetch) then s
  else
    match lookup s t ea .fetch with
    | .page p _ => if fetchable th.pr p && !p.i && (dictated || !p.g) then s.icachePut (p.ra / 128) else s
    | _ => s

/-- Prefetch a line of local storage (70_reset_and_hazards R2092). -/
def Spe.prefetch (p : Spe) (line : Nat) : Spe :=
  let k := line % 2048
  if p.running then { p with ibuf := (k, readBytes p.ls (k * 128) 128) :: p.ibuf.filter fun x => x.1 != k } else p

/-- EIB possible-livelock detection (12_state_platform R280, U30). -/
def State.livelock (s : State) : Res Unit :=
  let mode := ibm (s.pcell offEibAc0Ctl) 13 3
  if mode = (3 : BitVec 3) ∨ mode = 4 ∨ mode = 5 ∨ mode = 7 then .ok () s
  else
    s.setSignalCell offEibInt (setIbit (s.pcell offEibInt) 0 true)

/-- Power-on reset (70_reset_and_hazards R2063): the state after reset of the chip as it is configured, with its image in main
storage (R2067). -/
def State.powerOn (s : State) : State :=
  { State.resetOf s.cfg with
    mem := s.cfg.image.foldl (fun m x => writeByte m x.1 x.2) []
    schedule := s.schedule
    freeCount := s.freeCount }

/-- Whether an agent has a step to take. -/
def State.able (s : State) (a : Agent) : Bool :=
  match a with
  | .ppe t => ibit s.ppe.te t.val || !(s.wakeReasons t).isEmpty
  | .spu n => s.spes[n].running
  | .mfc n => !(s.spes[n].mfcMoves).isEmpty

/-- A step of an agent that is able to take one. -/
def State.agentStep (s : State) (a : Agent) : Out State :=
  let s := { s with cur := a }
  match a with
  | .ppe t => s.ppeStep t
  | .spu _ => s.spuStep
  | .mfc _ => s.mfcStep

/-- Finish a part with the state. -/
def Res.toOut (r : Res Unit) : Out State := r.done fun _ s => .next s

/-- Apply a move. -/
def State.applyMove (s : State) (m : Move) : Out State :=
  match m with
  | .run a => if s.able a then s.agentStep a else .next s
  | .tick => .next (if s.tickInternal then s.tick else s)
  | .setTben high => .next (s.setTben high)
  | .eratFill t instr ea => .next (s.eratFill t instr ea)
  | .eratDrop t k => .next (s.modT t fun th => { th with erat := th.erat.eraseIdx k })
  | .icacheFill t ea => .next (s.icacheFill t ea)
  | .icacheDrop k => .next { s with ppe := { s.ppe with icache := s.ppe.icache.eraseIdx k } }
  | .spuPrefetch n line => .next (s.modN n fun p => p.prefetch line)
  | .spuDrop n k => .next (s.modN n fun p => { p with ibuf := p.ibuf.eraseIdx k })
  | .ioRead u a len => (s.ioRead u a len).toOut
  | .ioWrite u a bytes => (s.ioWrite u a bytes).toOut
  | .ioData seq part => .next (s.ioData seq part)
  | .ioInterrupt p => (s.ioPacket p).toOut
  | .ioptArrive => .next s.arriveIopt
  | .micTrace a => (s.setSignalCell offMicTraceCur a).toOut
  | .tokenLevel b => (s.setSignalCell offTkmIsr (setIbit (s.pcell offTkmIsr) (59 + b.val) true)).toOut
  | .livelock => s.livelock.toOut
  | .temperature x code => .next { s with plat := { s.plat with temps := s.plat.temps.set x code } }.thermalSample
  | .thermalOverload => s.stopWith .thermalOverload
  | .slowDone => .next s.slowDone
  | .iocFault bit => (s.storeIocFir offIocFir (s.pcell offIocFir ||| (1 <<< (63 - bit.val)))).toOut
  | .maintenance t inputs => .next (s.modT t fun th => { th with maint := th.maint ||| inputs })
  | .scanMatch t causes => .next (s.modT t fun th => { th with maintInstr := th.maintInstr ||| causes })
  | .watchdog => s.checkstop
  | .checkstopSignal => s.checkstop
  | .powerOnReset => .next s.powerOn

/-- The agents in the order of their turns. -/
def allAgents : List Agent :=
  [.ppe 0, .ppe 1, .spu 0, .spu 1, .spu 2, .spu 3, .spu 4, .spu 5, .spu 6, .spu 7, .mfc 0, .mfc 1, .mfc 2, .mfc 3, .mfc 4,
   .mfc 5, .mfc 6, .mfc 7]

/-- The turn of an agent. -/
def turnOf (a : Agent) : Nat :=
  match a with
  | .ppe t => t.val
  | .spu n => 2 + n.val
  | .mfc n => 10 + n.val

/-- The next agent that is able to move, after the last one in turn; and whether the turns started over before it. -/
def State.nextAgent (s : State) : Option Agent × Bool :=
  let k := turnOf s.cur + 1
  match (allAgents.drop k).find? s.able with
  | some a => (some a, false)
  | none => ((allAgents.take k).find? s.able, true)

/-- What happens once a round: the time base ticks, a frequency change completes, a load of the IOPT cache arrives, the data of
inbound writes is written (log 1, log 30; 62_platform R2020, 21_translation R532). -/
def State.round (s : State) : State :=
  (if s.tickInternal then s.tick else s).slowDone.arriveIopt.performInbound fun _ => true

/-- A step with an empty schedule: the agents take turns (log 1). -/
def State.turn (s : State) : Out State :=
  let n := s.nextAgent
  let s := if n.2 then s.round else s
  match n.1 with
  | some a => if s.able a then s.agentStep a else .next s
  | none => .next s

/-- One step of a machine that is stopped: only a power-on reset has an effect (60_exceptions R1890, 62_platform R2026, U75);
with no move to come it is stopped for good. -/
def State.stoppedStep (s : State) (f : Fault) : Out State :=
  match s.schedule with
  | [] => .fault f
  | m :: rest => .next (if m = .powerOnReset then { s with schedule := rest }.powerOn else { s with schedule := rest })

/-- One step of the machine. -/
def State.advanceMachine (s : State) : Out State :=
  match s.stopped with
  | some f => s.stoppedStep f
  | none =>
    match s.schedule with
    | [] => s.turn
    | m :: rest => { s with schedule := rest }.applyMove m

/-! ## Placing an instruction where the machine fetches it (log 7) -/

/-- A PPE word at the address that thread 0 fetches from, if its translation succeeds there. -/
def State.placePpe (s : State) (w : Word) : State :=
  match translateFetch s 0 s.threads[0].pc with
  | .ok p _ => { s with mem := writeBytes s.mem p.ra w.toNat 4, schedule := .run (.ppe 0) :: s.schedule }
  | .stop _ => s

/-- An SPU word at the address that SPU 0 fetches from; SPU 0 runs. -/
def State.placeSpu (s : State) (w : Word) : State :=
  { s.modN 0 fun p => { p with ls := writeBytes p.ls p.fetchAddr w.toNat 4, running := true, ibuf := [] } with
    schedule := .run (.spu 0) :: s.schedule }

/-- An MFC command word in the queue of MFC 0 that takes it: the atomic slot, the proxy queue for the `s` forms, else the SPU
queue. -/
def State.placeMfc (s : State) (w : Word) : State :=
  let op := w.toNat % 256
  let p := s.spes[(0 : Fin 8)]
  let start := [0x28, 0x29, 0x2A, 0x48, 0x49, 0x4A].contains op
  let c : MfcCmd :=
    { word := w, lsa := 0, ea := 0, size := if 0xA0 ≤ op ∧ op ≤ 0xA2 then 4 else 0, tag := 0, order := p.orderNext,
      slot := if start then freeSlot p.pxQ else freeSlot p.spuQ, listDone := 0, elem := none, units := 0, stalled := false, dep := false }
  { s.modN 0 fun p =>
      let p := { p with orderNext := p.orderNext + 1 }
      if immediateOpcode (ibm w 24 8) then { p with atomicCmd := some c }
      else if start then { p with pxQ := p.pxQ ++ [c] }
      else { p with spuQ := p.spuQ ++ [c] }.setCnt 21 (p.count 21 - 1) with
    schedule := .run (.mfc 0) :: s.schedule }

/-- A word of the opcode table (bit 0 the least significant bit), placed in the instruction set it belongs to. -/
def State.placeWord (s : State) (nbits w : Nat) : State :=
  let v := w % 2^32
  match tableWordSet nbits v with
  | some .ppe => s.placePpe (BitVec.ofNat 32 v)
  | some .spu => s.placeSpu (BitVec.ofNat 32 v)
  | some .mfc => s.placeMfc (BitVec.ofNat 32 v)
  | none => s

end

end Sys2Proof.Machine
end

