-- ==== Sys2Proof/Machine/Step.lean ====
section
/-! DEFINITION. One step of the machine, and the placement of an instruction where the next step fetches it. -/

namespace Sys2Proof.Machine

noncomputable section

/-- One step: the next move of the schedule, or the next agent's turn. -/
def step (s : State) : Host.Outcome State Fault Refusal := s.advanceMachine

/-- The state with an instruction of the opcode table where `step` fetches its next instruction (log 7). -/
def State.withFetchWord (s : State) (nbits w : Nat) : State := s.placeWord nbits w

end

end Sys2Proof.Machine
end

