-- ==== Sys2Proof/WellFormed.lean ====
section
/-! DEFINITION. Well-formed instructions: the forms that the manual calls invalid are ill-formed (30_encoding R552 item 5,
41_ppe_loadstore R653, 40_ppe_branch R603, 48_spu_compare_branch R1449). The machine still gives an ill-formed instruction
the meaning the specification gives it (an illegal-instruction interrupt, or a stop by name). -/

namespace Sys2Proof

/-- A load with update: RA is neither 0 nor RT (R653). -/
def loadUpdateOk (rt ra : BitVec 5) : Bool := decide (ra ≠ 0) && decide (ra ≠ rt)

/-- A store with update, or a floating-point load with update: RA is not 0 (R653). -/
def updateOk (ra : BitVec 5) : Bool := decide (ra ≠ 0)

/-- Load multiple: RA is not among the registers RT to 31 (R704, D71). -/
def multipleOk (rt ra : BitVec 5) : Bool := decide (ra.toNat < rt.toNat)

/-- None of the `n` registers from `rt` on, wrapping from 31 to 0, is `r` (R706, R707). -/
def outsideRange (rt r : BitVec 5) (n : Nat) : Bool := decide (n ≤ (r - rt).toNat)

/-- Load string immediate: RA is outside the registers to be loaded; a count of 0 means 32 bytes (R706). -/
def stringImmOk (rt ra nb : BitVec 5) : Bool :=
  outsideRange rt ra (((if nb = 0 then 32 else nb.toNat) + 3) / 4)

/-- Load string indexed: RT is neither RA nor RB; the rest of the range depends on XER (R707). -/
def stringIdxOk (rt ra rb : BitVec 5) : Bool := decide (rt ≠ ra) && decide (rt ≠ rb)

/-- `bcctr` does not decrement CTR: BO[2] = 1 (R603). -/
def bcctrOk (bo : BitVec 5) : Bool := bo.getLsbD 2

/-- An indirect branch of the SPU does not both disable and enable interrupts (R1449). -/
def featureOk (d e : Bool) : Bool := !(d && e)

/-- The well-formed instructions. -/
def Instr.wf : Instr → Bool
  | .ppeLbzu rt ra _ | .ppeLhzu rt ra _ | .ppeLhau rt ra _ | .ppeLwzu rt ra _ => loadUpdateOk rt ra
  | .ppeLdu rt ra _ => loadUpdateOk rt ra
  | .ppeLbzux rt ra _ | .ppeLhzux rt ra _ | .ppeLhaux rt ra _ | .ppeLwzux rt ra _ | .ppeLwaux rt ra _
  | .ppeLdux rt ra _ => loadUpdateOk rt ra
  | .ppeStbu _ ra _ | .ppeSthu _ ra _ | .ppeStwu _ ra _ => updateOk ra
  | .ppeStdu _ ra _ => updateOk ra
  | .ppeStbux _ ra _ | .ppeSthux _ ra _ | .ppeStwux _ ra _ | .ppeStdux _ ra _ => updateOk ra
  | .ppeLfsu _ ra _ | .ppeLfdu _ ra _ | .ppeStfsu _ ra _ | .ppeStfdu _ ra _ => updateOk ra
  | .ppeLfsux _ ra _ | .ppeLfdux _ ra _ | .ppeStfsux _ ra _ | .ppeStfdux _ ra _ => updateOk ra
  | .ppeLmw rt ra _ => multipleOk rt ra
  | .ppeLswi rt ra nb => stringImmOk rt ra nb
  | .ppeLswx rt ra rb => stringIdxOk rt ra rb
  | .ppeBcctr bo _ _ _ => bcctrOk bo
  | .spuBi _ d e | .spuIret _ d e => featureOk d e
  | .spuBisled _ _ d e | .spuBisl _ _ d e | .spuBiz _ _ d e | .spuBinz _ _ d e | .spuBihz _ _ d e
  | .spuBihnz _ _ d e => featureOk d e
  | _ => true

end Sys2Proof
end

