-- ==== Sys2Proof/Safety.lean ====
section
/-! DEFINITION. What the statements about the machine are said with: the invariants of a safe run, the frames (what a step
leaves unchanged), the conditions under which an access is an ordinary one, and tables of the instructions by family with
what the numbered rules of spec/ say each of them does. Nothing of the machine uses this file. -/

namespace Sys2Proof.Safety

open Machine

/-! ## Invariants -/

/-- Main storage and every local storage are in canonical form (20_memory R341, R358). -/
def memoriesCanonical (s : State) : Prop :=
  Memory.wf s.mem = true ∧ ∀ n : Fin 8, Memory.wf s.spes[n].ls = true

/-- The MSR of a thread is legal: its reserved bits and LE read 0 (10_state R54), and in problem state external interrupts
and both relocations are on (44_ppe_system R923, R928). -/
def legalMsr (m : DWord) : Prop :=
  m &&& ~~~0x900000000200FF32#64 = 0 ∧ (ibit m 49 = true → ibit m 48 = true ∧ ibit m 58 = true ∧ ibit m 59 = true)

/-- Both threads have a legal MSR. -/
def legalMsrs (s : State) : Prop := ∀ t : Fin 2, legalMsr s.threads[t].msr

/-! ## Frames -/

/-- Nothing changes outside the moving thread but the count of free values: every byte of main storage and of the local
storages, the other thread, the shared registers of the PPE, the SPEs, the platform. -/
structure OnlyThread (s t : State) : Prop where
  others : { t with threads := s.threads, freeCount := s.freeCount } = s
  thread : ∀ u : Fin 2, u ≠ s.curT → t.threads[u] = s.threads[u]
  memory : ∀ a, readByte t.mem a = readByte s.mem a
  storage : ∀ (n : Fin 8) (a : Nat), readByte t.spes[n].ls a = readByte s.spes[n].ls a

/-- Nothing changes outside the moving SPE but the count of free values. -/
structure OnlySpe (s t : State) : Prop where
  others : { t with spes := s.spes, freeCount := s.freeCount } = s
  spe : ∀ n : Fin 8, n ≠ s.curN → t.spes[n] = s.spes[n]
  memory : ∀ a, readByte t.mem a = readByte s.mem a

/-- What an instruction of the PPE may write: registers by number, bits of XER, CR, FPSCR and VSCR as masks, LR, CTR, the
priority. -/
structure Writes where
  gpr : List (BitVec 5) := []
  fpr : List (BitVec 5) := []
  vr : List (BitVec 5) := []
  xer : DWord := 0
  cr : Word := 0
  fpscr : Word := 0
  vscr : Word := 0
  lr : Bool := false
  ctr : Bool := false
  prio : Bool := false

/-- A thread changes from `x` to `y` at most in what `w` lists, and in the program counter. -/
structure Keeps (w : Writes) (x y : Thread) : Prop where
  gpr : ∀ r, r ∉ w.gpr → y.getGpr r = x.getGpr r
  fpr : ∀ r, r ∉ w.fpr → y.getFpr r = x.getFpr r
  vr : ∀ r, r ∉ w.vr → y.getVr r = x.getVr r
  xer : y.xer &&& ~~~w.xer = x.xer &&& ~~~w.xer
  cr : y.cr &&& ~~~w.cr = x.cr &&& ~~~w.cr
  fpscr : y.fpscr &&& ~~~w.fpscr = x.fpscr &&& ~~~w.fpscr
  vscr : y.vscr &&& ~~~w.vscr = x.vscr &&& ~~~w.vscr
  lr : w.lr = false → y.lr = x.lr
  ctr : w.ctr = false → y.ctr = x.ctr
  prio : w.prio = false → y.tsrlTp = x.tsrlTp
  rest : { y with
           pc := x.pc, gpr := x.gpr, fpr := x.fpr, vr := x.vr, xer := x.xer, cr := x.cr, fpscr := x.fpscr, vscr := x.vscr,
           lr := x.lr, ctr := x.ctr, tsrlTp := x.tsrlTp } = x

/-- The address of the next sequential instruction (40_ppe_branch, 10_state R45). -/
def following (th : Thread) : DWord :=
  if ibit th.msr 0 then th.pc + 4 else ((th.pc + 4).setWidth 32).setWidth 64

/-- Instruction `i` completes in state `s`: it goes on at the next instruction, writes at most what `w` lists, and the next
state meets `P`. -/
def Completes (i : Instr) (s : State) (w : Writes) (P : State → Prop) : Prop :=
  ∃ t, Machine.exec i s = .next t ∧ OnlyThread s t ∧ Keeps w s.thr t.thr ∧ t.thr.pc = following s.thr ∧ P t

/-! ## Fixed-point results (42_ppe_integer) -/

/-- XER[CA]; XER[SO] and XER[OV]; CR field 0; a CR field. -/
def caMask : DWord := 0x20000000
def ovMask : DWord := 0xC0000000
def cr0Mask : Word := 0xF0000000
def crFieldMask (bf : BitVec 3) : Word := 0xF0000000#32 >>> (4 * bf.toNat)

/-- What a fixed-point instruction delivers: destination, value, CA and OV if it sets them, whether it records. -/
structure ArithFx where
  dst : BitVec 5
  val : DWord
  ca : Option Bool := none
  ov : Option Bool := none
  cr0 : Bool := false

/-- What `x` lets an instruction write. -/
def ArithFx.writes (x : ArithFx) : Writes where
  gpr := [x.dst]
  xer := (if x.ca.isSome then caMask else 0) ||| (if x.ov.isSome then ovMask else 0)
  cr := if x.cr0 then cr0Mask else 0

/-- The low `m` bits as a signed number. -/
def signedPart (m : Nat) (v : DWord) : Int :=
  if v.toNat % 2^m < 2^(m - 1) then (v.toNat % 2^m : Int) else (v.toNat % 2^m : Int) - 2^m

/-- CR0 of a record form: LT, GT, EQ of the signed value in the mode's width against 0, and SO (30_encoding R548). -/
structure Recorded (th : Thread) (r : DWord) : Prop where
  lt : ibit th.cr 0 = decide (signedPart th.width r < 0)
  gt : ibit th.cr 1 = decide (0 < signedPart th.width r)
  eq : ibit th.cr 2 = decide (signedPart th.width r = 0)
  so : ibit th.cr 3 = ibit th.xer 32

/-- The instruction delivers `x`. -/
structure Delivers (x : ArithFx) (s t : State) : Prop where
  val : t.thr.getGpr x.dst = x.val
  ca : ∀ c, x.ca = some c → ibit t.thr.xer 34 = c
  ov : ∀ o, x.ov = some o → ibit t.thr.xer 33 = o ∧ ibit t.thr.xer 32 = (ibit s.thr.xer 32 || o)
  cr : x.cr0 = true → Recorded t.thr x.val

/-- `carry_m(x, y, c)` (R740). -/
def carry (m : Nat) (x y : DWord) (c : Bool) : Bool := decide (2^m ≤ x.toNat % 2^m + y.toNat % 2^m + c.toNat)
/-- `ovf_m(x, y, c)` (R740): the carry into the sign bit differs from the carry out of it. -/
def overflow (m : Nat) (x y : DWord) (c : Bool) : Bool := carry (m - 1) x y c != carry m x y c

/-- x + y + c. -/
def sumFx (dst : BitVec 5) (x y : DWord) (c setCa oe rec : Bool) (th : Thread) : ArithFx where
  dst := dst
  val := x + y + BitVec.ofNat 64 c.toNat
  ca := if setCa then some (carry th.width x y c) else none
  ov := if oe then some (overflow th.width x y c) else none
  cr0 := rec

/-- Primary opcode and, of the XO-form, the extended opcode in bits 22:30. -/
def opcd (i : Instr) : Nat := (ibm (encode i) 0 6).toNat
def xo9 (i : Instr) : Nat := (ibm (encode i) 22 9).toNat

/-- The additions and subtractions that leave CA alone: instruction, opcode, extended opcode, effect (R741 to R744, R756). -/
inductive PlainSum : Instr → Nat → Option Nat → (Thread → ArithFx) → Prop
  | addi (rt ra : BitVec 5) (si : BitVec 16) : PlainSum (.ppeAddi rt ra si) 14 none
      fun th => sumFx rt (if ra = 0 then 0 else th.getGpr ra) (si.signExtend 64) false false false false th
  | addis (rt ra : BitVec 5) (si : BitVec 16) : PlainSum (.ppeAddis rt ra si) 15 none
      fun th => sumFx rt (if ra = 0 then 0 else th.getGpr ra) (si.signExtend 64 <<< 16) false false false false th
  | add (rt ra rb : BitVec 5) (oe rec : Bool) : PlainSum (.ppeAdd rt ra rb oe rec) 31 (some 266)
      fun th => sumFx rt (th.getGpr ra) (th.getGpr rb) false false oe rec th
  | subf (rt ra rb : BitVec 5) (oe rec : Bool) : PlainSum (.ppeSubf rt ra rb oe rec) 31 (some 40)
      fun th => sumFx rt (~~~(th.getGpr ra)) (th.getGpr rb) true false oe rec th
  | neg (rt ra : BitVec 5) (oe rec : Bool) : PlainSum (.ppeNeg rt ra oe rec) 31 (some 104)
      fun th =>
        { dst := rt, val := -(th.getGpr ra), cr0 := rec,
          ov := if oe then some (decide ((th.getGpr ra).toNat % 2^th.width = 2^(th.width - 1))) else none }

/-- The carrying additions and subtractions (R745 to R755). -/
inductive CarryingSum : Instr → Nat → Option Nat → (Thread → ArithFx) → Prop
  | addic (rt ra : BitVec 5) (si : BitVec 16) : CarryingSum (.ppeAddic rt ra si) 12 none
      fun th => sumFx rt (th.getGpr ra) (si.signExtend 64) false true false false th
  | addicDot (rt ra : BitVec 5) (si : BitVec 16) : CarryingSum (.ppeAddicDot rt ra si) 13 none
      fun th => sumFx rt (th.getGpr ra) (si.signExtend 64) false true false true th
  | subfic (rt ra : BitVec 5) (si : BitVec 16) : CarryingSum (.ppeSubfic rt ra si) 8 none
      fun th => sumFx rt (~~~(th.getGpr ra)) (si.signExtend 64) true true false false th
  | addc (rt ra rb : BitVec 5) (oe rec : Bool) : CarryingSum (.ppeAddc rt ra rb oe rec) 31 (some 10)
      fun th => sumFx rt (th.getGpr ra) (th.getGpr rb) false true oe rec th
  | subfc (rt ra rb : BitVec 5) (oe rec : Bool) : CarryingSum (.ppeSubfc rt ra rb oe rec) 31 (some 8)
      fun th => sumFx rt (~~~(th.getGpr ra)) (th.getGpr rb) true true oe rec th
  | adde (rt ra rb : BitVec 5) (oe rec : Bool) : CarryingSum (.ppeAdde rt ra rb oe rec) 31 (some 138)
      fun th => sumFx rt (th.getGpr ra) (th.getGpr rb) (ibit th.xer 34) true oe rec th
  | subfe (rt ra rb : BitVec 5) (oe rec : Bool) : CarryingSum (.ppeSubfe rt ra rb oe rec) 31 (some 136)
      fun th => sumFx rt (~~~(th.getGpr ra)) (th.getGpr rb) (ibit th.xer 34) true oe rec th
  | addme (rt ra : BitVec 5) (oe rec : Bool) : CarryingSum (.ppeAddme rt ra oe rec) 31 (some 234)
      fun th => sumFx rt (th.getGpr ra) (-1) (ibit th.xer 34) true oe rec th
  | subfme (rt ra : BitVec 5) (oe rec : Bool) : CarryingSum (.ppeSubfme rt ra oe rec) 31 (some 232)
      fun th => sumFx rt (~~~(th.getGpr ra)) (-1) (ibit th.xer 34) true oe rec th
  | addze (rt ra : BitVec 5) (oe rec : Bool) : CarryingSum (.ppeAddze rt ra oe rec) 31 (some 202)
      fun th => sumFx rt (th.getGpr ra) 0 (ibit th.xer 34) true oe rec th
  | subfze (rt ra : BitVec 5) (oe rec : Bool) : CarryingSum (.ppeSubfze rt ra oe rec) 31 (some 200)
      fun th => sumFx rt (~~~(th.getGpr ra)) 0 (ibit th.xer 34) true oe rec th

/-- The low word of a register, unsigned and signed. -/
def lowNat (v : DWord) : Nat := v.toNat % 2^32
def lowInt (v : DWord) : Int := signedPart 32 v

/-- A product with its overflow. -/
def productFx (dst : BitVec 5) (val : DWord) (ov oe rec : Bool) : ArithFx where
  dst := dst
  val := val
  ov := if oe then some ov else none
  cr0 := rec

/-- The quotient of `a` by `b` truncated toward zero: the remainder is smaller than the divisor and has the dividend's
sign. -/
def IsQuotient (a b q : Int) : Prop :=
  ∃ r, a = q * b + r ∧ r.natAbs < b.natAbs ∧ (0 ≤ a → 0 ≤ r) ∧ (a ≤ 0 → r ≤ 0)

/-- The products and quotients whose whole result is defined: the effect holds for the values that meet the condition
(R760, R761, R764 to R766, R769, R770). -/
inductive WholeProduct : Instr → (Thread → Prop) → (Thread → ArithFx → Prop) → Prop
  | mulli (rt ra : BitVec 5) (si : BitVec 16) : WholeProduct (.ppeMulli rt ra si) (fun _ => True)
      fun th x => x = productFx rt (BitVec.ofInt 64 ((th.getGpr ra).toInt * si.toInt)) false false false
  | mullw (rt ra rb : BitVec 5) (oe rec : Bool) : WholeProduct (.ppeMullw rt ra rb oe rec) (fun _ => True)
      fun th x =>
        let p := lowInt (th.getGpr ra) * lowInt (th.getGpr rb)
        x = productFx rt (BitVec.ofInt 64 p) (!(decide (-2^31 ≤ p) && decide (p < 2^31))) oe rec
  | mulld (rt ra rb : BitVec 5) (oe rec : Bool) : WholeProduct (.ppeMulld rt ra rb oe rec) (fun _ => True)
      fun th x =>
        let p := (th.getGpr ra).toInt * (th.getGpr rb).toInt
        x = productFx rt (BitVec.ofInt 64 p) (!(decide (-2^63 ≤ p) && decide (p < 2^63))) oe rec
  | mulhd (rt ra rb : BitVec 5) (rec : Bool) : WholeProduct (.ppeMulhd rt ra rb rec) (fun _ => True)
      fun th x => x = productFx rt (BitVec.ofInt 64 ((th.getGpr ra).toInt * (th.getGpr rb).toInt / 2^64)) false false rec
  | mulhdu (rt ra rb : BitVec 5) (rec : Bool) : WholeProduct (.ppeMulhdu rt ra rb rec) (fun _ => True)
      fun th x => x = productFx rt (BitVec.ofNat 64 ((th.getGpr ra).toNat * (th.getGpr rb).toNat / 2^64)) false false rec
  | divd (rt ra rb : BitVec 5) (oe rec : Bool) : WholeProduct (.ppeDivd rt ra rb oe rec)
      (fun th => th.getGpr rb ≠ 0 ∧ ¬((th.getGpr ra).toInt = -2^63 ∧ (th.getGpr rb).toInt = -1))
      fun th x => ∃ q : Int, IsQuotient (th.getGpr ra).toInt (th.getGpr rb).toInt q ∧
        x = productFx rt (BitVec.ofInt 64 q) false oe rec
  | divdu (rt ra rb : BitVec 5) (oe rec : Bool) : WholeProduct (.ppeDivdu rt ra rb oe rec)
      (fun th => th.getGpr rb ≠ 0)
      fun th x => ∃ q : Int, IsQuotient (th.getGpr ra).toNat (th.getGpr rb).toNat q ∧
        x = productFx rt (BitVec.ofInt 64 q) false oe rec

/-- The results of a word whose upper half is undefined: destination, OE and Rc, condition, low word (R762, R763, R767,
R768). -/
inductive WordProduct : Instr → BitVec 5 → Bool → Bool → (Thread → Prop) → (Thread → Word → Prop) → Prop
  | mulhw (rt ra rb : BitVec 5) (rec : Bool) : WordProduct (.ppeMulhw rt ra rb rec) rt false rec (fun _ => True)
      fun th w => w = BitVec.ofInt 32 (lowInt (th.getGpr ra) * lowInt (th.getGpr rb) / 2^32)
  | mulhwu (rt ra rb : BitVec 5) (rec : Bool) : WordProduct (.ppeMulhwu rt ra rb rec) rt false rec (fun _ => True)
      fun th w => w = BitVec.ofNat 32 (lowNat (th.getGpr ra) * lowNat (th.getGpr rb) / 2^32)
  | divw (rt ra rb : BitVec 5) (oe rec : Bool) : WordProduct (.ppeDivw rt ra rb oe rec) rt oe rec
      (fun th => lowNat (th.getGpr rb) ≠ 0 ∧ ¬(lowInt (th.getGpr ra) = -2^31 ∧ lowInt (th.getGpr rb) = -1))
      fun th w => ∃ q : Int, IsQuotient (lowInt (th.getGpr ra)) (lowInt (th.getGpr rb)) q ∧ w = BitVec.ofInt 32 q
  | divwu (rt ra rb : BitVec 5) (oe rec : Bool) : WordProduct (.ppeDivwu rt ra rb oe rec) rt oe rec
      (fun th => lowNat (th.getGpr rb) ≠ 0)
      fun th w => ∃ q : Int, IsQuotient (lowNat (th.getGpr ra)) (lowNat (th.getGpr rb)) q ∧ w = BitVec.ofInt 32 q

/-- The divides of undefined result (R767 to R770, U49). -/
inductive UndefinedQuotient : Instr → BitVec 5 → Bool → Bool → (Thread → Prop) → Prop
  | divw (rt ra rb : BitVec 5) (oe rec : Bool) : UndefinedQuotient (.ppeDivw rt ra rb oe rec) rt oe rec
      fun th => lowNat (th.getGpr rb) = 0 ∨ (lowInt (th.getGpr ra) = -2^31 ∧ lowInt (th.getGpr rb) = -1)
  | divwu (rt ra rb : BitVec 5) (oe rec : Bool) : UndefinedQuotient (.ppeDivwu rt ra rb oe rec) rt oe rec
      fun th => lowNat (th.getGpr rb) = 0
  | divd (rt ra rb : BitVec 5) (oe rec : Bool) : UndefinedQuotient (.ppeDivd rt ra rb oe rec) rt oe rec
      fun th => th.getGpr rb = 0 ∨ ((th.getGpr ra).toInt = -2^63 ∧ (th.getGpr rb).toInt = -1)
  | divdu (rt ra rb : BitVec 5) (oe rec : Bool) : UndefinedQuotient (.ppeDivdu rt ra rb oe rec) rt oe rec
      fun th => th.getGpr rb = 0

/-- A product or quotient may write its destination, OV and SO if OE, CR0 if Rc. -/
def productWrites (rt : BitVec 5) (oe rec : Bool) : Writes where
  gpr := [rt]
  xer := if oe then ovMask else 0
  cr := if rec then cr0Mask else 0

/-- The compares: the field, and the two numbers that are compared (R775 to R778). -/
inductive Comparison : Instr → BitVec 3 → (Thread → Int × Int) → Prop
  | cmpi (bf : BitVec 3) (l : Bool) (ra : BitVec 5) (si : BitVec 16) : Comparison (.ppeCmpi bf l ra si) bf
      fun th => (if l then (th.getGpr ra).toInt else lowInt (th.getGpr ra), si.toInt)
  | cmp (bf : BitVec 3) (l : Bool) (ra rb : BitVec 5) : Comparison (.ppeCmp bf l ra rb) bf
      fun th => if l then ((th.getGpr ra).toInt, (th.getGpr rb).toInt) else (lowInt (th.getGpr ra), lowInt (th.getGpr rb))
  | cmpli (bf : BitVec 3) (l : Bool) (ra : BitVec 5) (ui : BitVec 16) : Comparison (.ppeCmpli bf l ra ui) bf
      fun th => (if l then (th.getGpr ra).toNat else lowNat (th.getGpr ra), ui.toNat)
  | cmpl (bf : BitVec 3) (l : Bool) (ra rb : BitVec 5) : Comparison (.ppeCmpl bf l ra rb) bf
      fun th => if l then ((th.getGpr ra).toNat, (th.getGpr rb).toNat) else (lowNat (th.getGpr ra), lowNat (th.getGpr rb))

/-- Bit `k` of the result of each logical instruction, from the registers: destination, Rc, bit (R780 to R796). -/
inductive Logical : Instr → BitVec 5 → Bool → (Thread → Nat → Bool) → Prop
  | ori (rs ra : BitVec 5) (ui : BitVec 16) : Logical (.ppeOri rs ra ui) ra false
      fun th k => ibit (th.getGpr rs) k || (decide (48 ≤ k) && ibit ui (k - 48))
  | oris (rs ra : BitVec 5) (ui : BitVec 16) : Logical (.ppeOris rs ra ui) ra false
      fun th k => ibit (th.getGpr rs) k || (decide (32 ≤ k ∧ k < 48) && ibit ui (k - 32))
  | xori (rs ra : BitVec 5) (ui : BitVec 16) : Logical (.ppeXori rs ra ui) ra false
      fun th k => ibit (th.getGpr rs) k ^^ (decide (48 ≤ k) && ibit ui (k - 48))
  | xoris (rs ra : BitVec 5) (ui : BitVec 16) : Logical (.ppeXoris rs ra ui) ra false
      fun th k => ibit (th.getGpr rs) k ^^ (decide (32 ≤ k ∧ k < 48) && ibit ui (k - 32))
  | andiDot (rs ra : BitVec 5) (ui : BitVec 16) : Logical (.ppeAndiDot rs ra ui) ra true
      fun th k => ibit (th.getGpr rs) k && (decide (48 ≤ k) && ibit ui (k - 48))
  | andisDot (rs ra : BitVec 5) (ui : BitVec 16) : Logical (.ppeAndisDot rs ra ui) ra true
      fun th k => ibit (th.getGpr rs) k && (decide (32 ≤ k ∧ k < 48) && ibit ui (k - 32))
  | and (rs ra rb : BitVec 5) (rec : Bool) : Logical (.ppeAnd rs ra rb rec) ra rec
      fun th k => ibit (th.getGpr rs) k && ibit (th.getGpr rb) k
  | or (rs ra rb : BitVec 5) (rec : Bool) : Logical (.ppeOr rs ra rb rec) ra rec
      fun th k => ibit (th.getGpr rs) k || ibit (th.getGpr rb) k
  | xor (rs ra rb : BitVec 5) (rec : Bool) : Logical (.ppeXor rs ra rb rec) ra rec
      fun th k => ibit (th.getGpr rs) k ^^ ibit (th.getGpr rb) k
  | nand (rs ra rb : BitVec 5) (rec : Bool) : Logical (.ppeNand rs ra rb rec) ra rec
      fun th k => !(ibit (th.getGpr rs) k && ibit (th.getGpr rb) k)
  | nor (rs ra rb : BitVec 5) (rec : Bool) : Logical (.ppeNor rs ra rb rec) ra rec
      fun th k => !(ibit (th.getGpr rs) k || ibit (th.getGpr rb) k)
  | eqv (rs ra rb : BitVec 5) (rec : Bool) : Logical (.ppeEqv rs ra rb rec) ra rec
      fun th k => ibit (th.getGpr rs) k == ibit (th.getGpr rb) k
  | andc (rs ra rb : BitVec 5) (rec : Bool) : Logical (.ppeAndc rs ra rb rec) ra rec
      fun th k => ibit (th.getGpr rs) k && !ibit (th.getGpr rb) k
  | orc (rs ra rb : BitVec 5) (rec : Bool) : Logical (.ppeOrc rs ra rb rec) ra rec
      fun th k => ibit (th.getGpr rs) k || !ibit (th.getGpr rb) k
  | extsb (rs ra : BitVec 5) (rec : Bool) : Logical (.ppeExtsb rs ra rec) ra rec
      fun th k => ibit (th.getGpr rs) (max k 56)
  | extsh (rs ra : BitVec 5) (rec : Bool) : Logical (.ppeExtsh rs ra rec) ra rec
      fun th k => ibit (th.getGpr rs) (max k 48)
  | extsw (rs ra : BitVec 5) (rec : Bool) : Logical (.ppeExtsw rs ra rec) ra rec
      fun th k => ibit (th.getGpr rs) (max k 32)

/-- A logical instruction may write its destination and CR0; `or` of a register with itself may change the priority
(62_platform R2009). -/
def logicalWrites (i : Instr) (ra : BitVec 5) (rec : Bool) : Writes where
  gpr := [ra]
  cr := if rec then cr0Mask else 0
  prio := match i with
    | .ppeOr rs ra' rb false => decide (rs = ra' ∧ ra' = rb ∧ (ra' = 1 ∨ ra' = 2 ∨ ra' = 3))
    | _ => false

/-- Whether bit `k` is in MASK(mb, me) (R740). -/
def inMask (mb me k : Nat) : Bool := if mb ≤ me then decide (mb ≤ k ∧ k ≤ me) else decide (mb ≤ k ∨ k ≤ me)

/-- The rotations: destination, Rc, the source's bit that comes to bit k, whether bit k is in the mask, whether the bits
outside the mask keep the destination's (R800 to R808). -/
inductive Rotation : Instr → BitVec 5 → Bool → (Thread → Nat → Bool) → (Thread → Nat → Bool) → Bool → Prop
  | rlwinm (rs ra sh mb me : BitVec 5) (rec : Bool) : Rotation (.ppeRlwinm rs ra sh mb me rec) ra rec
      (fun th k => ibit (th.getGpr rs) (32 + (k + sh.toNat) % 32)) (fun _ k => inMask (mb.toNat + 32) (me.toNat + 32) k) false
  | rlwnm (rs ra rb mb me : BitVec 5) (rec : Bool) : Rotation (.ppeRlwnm rs ra rb mb me rec) ra rec
      (fun th k => ibit (th.getGpr rs) (32 + (k + (th.getGpr rb).toNat % 32) % 32))
      (fun _ k => inMask (mb.toNat + 32) (me.toNat + 32) k) false
  | rlwimi (rs ra sh mb me : BitVec 5) (rec : Bool) : Rotation (.ppeRlwimi rs ra sh mb me rec) ra rec
      (fun th k => ibit (th.getGpr rs) (32 + (k + sh.toNat) % 32)) (fun _ k => inMask (mb.toNat + 32) (me.toNat + 32) k) true
  | rldicl (rs ra : BitVec 5) (sh mb : BitVec 6) (rec : Bool) : Rotation (.ppeRldicl rs ra sh mb rec) ra rec
      (fun th k => ibit (th.getGpr rs) ((k + sh.toNat) % 64)) (fun _ k => inMask mb.toNat 63 k) false
  | rldicr (rs ra : BitVec 5) (sh me : BitVec 6) (rec : Bool) : Rotation (.ppeRldicr rs ra sh me rec) ra rec
      (fun th k => ibit (th.getGpr rs) ((k + sh.toNat) % 64)) (fun _ k => inMask 0 me.toNat k) false
  | rldic (rs ra : BitVec 5) (sh mb : BitVec 6) (rec : Bool) : Rotation (.ppeRldic rs ra sh mb rec) ra rec
      (fun th k => ibit (th.getGpr rs) ((k + sh.toNat) % 64)) (fun _ k => inMask mb.toNat (63 - sh.toNat) k) false
  | rldimi (rs ra : BitVec 5) (sh mb : BitVec 6) (rec : Bool) : Rotation (.ppeRldimi rs ra sh mb rec) ra rec
      (fun th k => ibit (th.getGpr rs) ((k + sh.toNat) % 64)) (fun _ k => inMask mb.toNat (63 - sh.toNat) k) true
  | rldcl (rs ra rb : BitVec 5) (mb : BitVec 6) (rec : Bool) : Rotation (.ppeRldcl rs ra rb mb rec) ra rec
      (fun th k => ibit (th.getGpr rs) ((k + (th.getGpr rb).toNat % 64) % 64)) (fun _ k => inMask mb.toNat 63 k) false
  | rldcr (rs ra rb : BitVec 5) (me : BitVec 6) (rec : Bool) : Rotation (.ppeRldcr rs ra rb me rec) ra rec
      (fun th k => ibit (th.getGpr rs) ((k + (th.getGpr rb).toNat % 64) % 64)) (fun _ k => inMask 0 me.toNat k) false

/-- The shifts, and the counts of leading zeros (R797, R798, R812 to R819). -/
inductive Shift : Instr → (Thread → ArithFx) → Prop
  | slw (rs ra rb : BitVec 5) (rec : Bool) : Shift (.ppeSlw rs ra rb rec) fun th =>
      { dst := ra, cr0 := rec, val := BitVec.ofNat 64 (lowNat (th.getGpr rs) * 2^((th.getGpr rb).toNat % 64) % 2^32) }
  | srw (rs ra rb : BitVec 5) (rec : Bool) : Shift (.ppeSrw rs ra rb rec) fun th =>
      { dst := ra, cr0 := rec, val := BitVec.ofNat 64 (lowNat (th.getGpr rs) / 2^((th.getGpr rb).toNat % 64)) }
  | sraw (rs ra rb : BitVec 5) (rec : Bool) : Shift (.ppeSraw rs ra rb rec) fun th =>
      let w := lowInt (th.getGpr rs)
      let n := (th.getGpr rb).toNat % 64
      { dst := ra, cr0 := rec, val := BitVec.ofInt 64 (w / 2^n), ca := some (decide (w < 0) && decide (w % 2^n ≠ 0)) }
  | srawi (rs ra sh : BitVec 5) (rec : Bool) : Shift (.ppeSrawi rs ra sh rec) fun th =>
      let w := lowInt (th.getGpr rs)
      { dst := ra, cr0 := rec, val := BitVec.ofInt 64 (w / 2^sh.toNat),
        ca := some (decide (w < 0) && decide (w % 2^sh.toNat ≠ 0)) }
  | sld (rs ra rb : BitVec 5) (rec : Bool) : Shift (.ppeSld rs ra rb rec) fun th =>
      { dst := ra, cr0 := rec, val := BitVec.ofNat 64 ((th.getGpr rs).toNat * 2^((th.getGpr rb).toNat % 128)) }
  | srd (rs ra rb : BitVec 5) (rec : Bool) : Shift (.ppeSrd rs ra rb rec) fun th =>
      { dst := ra, cr0 := rec, val := BitVec.ofNat 64 ((th.getGpr rs).toNat / 2^((th.getGpr rb).toNat % 128)) }
  | srad (rs ra rb : BitVec 5) (rec : Bool) : Shift (.ppeSrad rs ra rb rec) fun th =>
      let w := (th.getGpr rs).toInt
      let n := (th.getGpr rb).toNat % 128
      { dst := ra, cr0 := rec, val := BitVec.ofInt 64 (w / 2^n), ca := some (decide (w < 0) && decide (w % 2^n ≠ 0)) }
  | sradi (rs ra : BitVec 5) (sh : BitVec 6) (rec : Bool) : Shift (.ppeSradi rs ra sh rec) fun th =>
      let w := (th.getGpr rs).toInt
      { dst := ra, cr0 := rec, val := BitVec.ofInt 64 (w / 2^sh.toNat),
        ca := some (decide (w < 0) && decide (w % 2^sh.toNat ≠ 0)) }
  | cntlzw (rs ra : BitVec 5) (rec : Bool) : Shift (.ppeCntlzw rs ra rec) fun th =>
      { dst := ra, cr0 := rec, val := if lowNat (th.getGpr rs) = 0 then 32 else BitVec.ofNat 64 (31 - (lowNat (th.getGpr rs)).log2) }
  | cntlzd (rs ra : BitVec 5) (rec : Bool) : Shift (.ppeCntlzd rs ra rec) fun th =>
      { dst := ra, cr0 := rec, val := if th.getGpr rs = 0 then 64 else BitVec.ofNat 64 (63 - (th.getGpr rs).toNat.log2) }

/-! ## Condition register, branches, traps (40_ppe_branch) -/

/-- CR bit `k` as a mask. -/
def crBitMask (k : BitVec 5) : Word := 0x80000000#32 >>> k.toNat

/-- The condition-register logical instructions: the bit written and its value (R610 to R617). -/
inductive CrLogical : Instr → BitVec 5 → (Thread → Bool) → Prop
  | crand (bt ba bb : BitVec 5) : CrLogical (.ppeCrand bt ba bb) bt fun th => ibit th.cr ba.toNat && ibit th.cr bb.toNat
  | cror (bt ba bb : BitVec 5) : CrLogical (.ppeCror bt ba bb) bt fun th => ibit th.cr ba.toNat || ibit th.cr bb.toNat
  | crxor (bt ba bb : BitVec 5) : CrLogical (.ppeCrxor bt ba bb) bt fun th => ibit th.cr ba.toNat != ibit th.cr bb.toNat
  | crnand (bt ba bb : BitVec 5) : CrLogical (.ppeCrnand bt ba bb) bt fun th => !(ibit th.cr ba.toNat && ibit th.cr bb.toNat)
  | crnor (bt ba bb : BitVec 5) : CrLogical (.ppeCrnor bt ba bb) bt fun th => !(ibit th.cr ba.toNat || ibit th.cr bb.toNat)
  | creqv (bt ba bb : BitVec 5) : CrLogical (.ppeCreqv bt ba bb) bt fun th => ibit th.cr ba.toNat == ibit th.cr bb.toNat
  | crandc (bt ba bb : BitVec 5) : CrLogical (.ppeCrandc bt ba bb) bt fun th => ibit th.cr ba.toNat && !ibit th.cr bb.toNat
  | crorc (bt ba bb : BitVec 5) : CrLogical (.ppeCrorc bt ba bb) bt fun th => ibit th.cr ba.toNat || !ibit th.cr bb.toNat

/-- `target(a)`: a multiple of 4, its upper word 0 in 32-bit mode. -/
def branchTarget (th : Thread) (a : DWord) : DWord :=
  let a := a / 4 * 4
  if ibit th.msr 0 then a else (a.setWidth 32).setWidth 64

/-- CTR is counted down, and its low bits in the mode's width pass the test of BO (`ctr_ok`). -/
def ctrPasses (th : Thread) (bo : BitVec 5) : Bool :=
  ibit bo 2 || (decide ((th.ctr - 1).toNat % (if ibit th.msr 0 then 2^64 else 2^32) ≠ 0) != ibit bo 3)

/-- `cond_ok`. -/
def condPasses (th : Thread) (bo bi : BitVec 5) : Bool := ibit bo 0 || decide (ibit th.cr bi.toNat = ibit bo 1)

/-- The branches, where their form is valid: whether the branch is taken, the address before `target`, whether LR is
written, whether CTR is counted down (R600 to R603). -/
inductive Branch : Instr → (Thread → Bool) → (Thread → DWord) → Bool → Bool → Prop
  | b (li : BitVec 24) (aa lk : Bool) : Branch (.ppeB li aa lk) (fun _ => true)
      (fun th => (if aa then 0 else th.pc) + (li ++ 0#2).signExtend 64) lk false
  | bc (bo bi : BitVec 5) (bd : BitVec 14) (aa lk : Bool) : Branch (.ppeBc bo bi bd aa lk)
      (fun th => ctrPasses th bo && condPasses th bo bi) (fun th => (if aa then 0 else th.pc) + (bd ++ 0#2).signExtend 64) lk
      (!ibit bo 2)
  | bclr (bo bi : BitVec 5) (bh : BitVec 2) (lk : Bool) : Branch (.ppeBclr bo bi bh lk)
      (fun th => ctrPasses th bo && condPasses th bo bi) (fun th => th.lr) lk (!ibit bo 2)
  | bcctr (bo bi : BitVec 5) (bh : BitVec 2) (lk : Bool) (valid : ibit bo 2 = true) : Branch (.ppeBcctr bo bi bh lk)
      (fun th => condPasses th bo bi) (fun th => th.ctr) lk false

/-- The trap condition of `a` and `b` (40_ppe_branch section 3). -/
def trapHolds (a b : DWord) (on : BitVec 5) : Prop :=
  (a.toInt < b.toInt ∧ ibit on 0 = true) ∨ (b.toInt < a.toInt ∧ ibit on 1 = true) ∨ (a = b ∧ ibit on 2 = true) ∨
  (a.toNat < b.toNat ∧ ibit on 3 = true) ∨ (b.toNat < a.toNat ∧ ibit on 4 = true)

/-- The traps: when the condition holds (R620 to R623). -/
inductive Trap : Instr → (Thread → Prop) → Prop
  | tw (on ra rb : BitVec 5) : Trap (.ppeTw on ra rb)
      fun th => trapHolds (((th.getGpr ra).setWidth 32).signExtend 64) (((th.getGpr rb).setWidth 32).signExtend 64) on
  | twi (on ra : BitVec 5) (si : BitVec 16) : Trap (.ppeTwi on ra si)
      fun th => trapHolds (((th.getGpr ra).setWidth 32).signExtend 64) (si.signExtend 64) on
  | td (on ra rb : BitVec 5) : Trap (.ppeTd on ra rb) fun th => trapHolds (th.getGpr ra) (th.getGpr rb) on
  | tdi (on ra : BitVec 5) (si : BitVec 16) : Trap (.ppeTdi on ra si) fun th => trapHolds (th.getGpr ra) (si.signExtend 64) on

/-! ## Interrupts (60_exceptions) -/

/-- LPCR[LPES] = '00': the 'm' interrupts set MSR[HV] (R1805). -/
def lpesZero (s : State) : Bool := decide (s.ppe.lpes = 0)

/-- The MSR after an interrupt that saves in SRR0 and SRR1 (R1805): SF set, HV set if `hv`; BE, EE, FE0, FE1, FP, PR, SE, DR, IR
and RI cleared. -/
def entryMsr (m : DWord) (hv : Bool) : DWord :=
  (m ||| (if hv then 0x9000000000000000 else 0x8000000000000000)) &&& ~~~0xEF32#64

/-- The vectors of Table 9-3 (R1804). -/
inductive VectorTable : Interrupt → DWord → Prop
  | machineCheck (p : Bool) : VectorTable (.machineCheck p) 0x200
  | dataStorage : VectorTable .dataStorage 0x300
  | dataSegment : VectorTable .dataSegment 0x380
  | instStorage : VectorTable .instStorage 0x400
  | instSegment : VectorTable .instSegment 0x480
  | external : VectorTable .external 0x500
  | alignment : VectorTable .alignment 0x600
  | program : VectorTable .program 0x700
  | fpUnavailable : VectorTable .fpUnavailable 0x800
  | decrementer : VectorTable .decrementer 0x900
  | hypervisorDecrementer : VectorTable .hypervisorDecrementer 0x980
  | systemCall (lev : Bool) : VectorTable (.systemCall lev) 0xC00
  | trace : VectorTable .trace 0xD00
  | vxuUnavailable : VectorTable .vxuUnavailable 0xF20
  | systemError : VectorTable .systemError 0x1200
  | maintenance : VectorTable .maintenance 0x1600
  | thermal : VectorTable .thermal 0x1800

/-- The interrupts that always save in HSRR0 and HSRR1 (R1802). -/
def hypervisorKind (k : Interrupt) : Bool :=
  decide (k = .hypervisorDecrementer ∨ k = .systemError ∨ k = .maintenance ∨ k = .thermal)

/-- Those that save in HSRR0 and HSRR1 (R1802): the external interrupt with LPES bit 0 = 0 and HID0[extr_hsrr] = 1 too. -/
def savesInHsrr (p : PpeShared) (k : Interrupt) : Bool :=
  hypervisorKind k || (decide (k = .external) && !ibit p.lpes 0 && p.extrHsrr)

/-- The bits of the saved image that copy the MSR: not 33:36 and 42:47 (R1801), for the thermal management interrupt not 33:47 (R1880),
for maintenance of these 38 only (R1875), for an imprecise machine check not 62 (R1811, R1805 note 3). -/
def copiesMsr (k : Interrupt) (b : Nat) : Bool :=
  match k with
  | .thermal => decide (b < 33 ∨ 48 ≤ b)
  | .maintenance => decide (b < 33 ∨ b = 38 ∨ 48 ≤ b)
  | .machineCheck precise => decide (b < 33 ∨ (37 ≤ b ∧ b < 42) ∨ 48 ≤ b) && (precise || decide (b ≠ 62))
  | _ => decide (b < 33 ∨ (37 ≤ b ∧ b < 42) ∨ 48 ≤ b)

/-- Those that set MSR[HV] (R1805): columns 1, e, s and m. -/
def entersHypervisor (p : PpeShared) (k : Interrupt) : Bool :=
  hypervisorKind k || decide (k = .systemReset ∨ k = .machineCheck false ∨ k = .machineCheck true ∨ k = .systemCall true) ||
  (if k = .external then !ibit p.lpes 0 else decide (p.lpes = 0))

/-- The moving thread, with `from_` for its registers, enters the handler at `vector` with `ret` in SRR0 and the information
bits `info` in SRR1 (R1801). -/
structure Enters (from_ : Thread) (s t : State) (vector ret info : DWord) (hv : Bool) : Prop where
  only : OnlyThread s t
  thread : t.thr = { from_ with
    srr0 := ret, srr1 := (s.thr.msr &&& ~~~0x783F0000#64) ||| info, msr := entryMsr s.thr.msr hv, pc := vector }

/-- Instruction `i` takes the interrupt at `vector` that returns to the instruction, with no other effect. -/
def Traps (i : Instr) (s : State) (vector info : DWord) : Prop :=
  ∃ t, Machine.exec i s = .next t ∧ Enters s.thr s t vector s.thr.pc info (lpesZero s)

/-- Instruction `i` updates the thread within `w` to one that meets `P` and then takes the interrupt at `vector` that returns to the
instruction. -/
def TrapsAfter (i : Instr) (s : State) (w : Writes) (P : Thread → Prop) (vector info : DWord) : Prop :=
  ∃ t u, Machine.exec i s = .next t ∧ Keeps w s.thr u ∧ u.pc = s.thr.pc ∧ P u ∧ Enters u s t vector s.thr.pc info (lpesZero s)

/-- Instruction `i` takes the pending imprecise machine check before it is executed (60_exceptions R1811). -/
def TakesMachineCheck (i : Instr) (s : State) : Prop :=
  Machine.exec i s = .next
    ((s.modT s.curT fun th => { th with mcheck := none }).interrupt s.curT (.machineCheck false) s.thr.pc 0)

/-- An enabled floating-point exception is pending: FPSCR[FEX] = 1 with FE0 or FE1 (60_exceptions R1806 F.1). -/
def enabledFloatPending (th : Thread) : Bool := (ibit th.msr 52 || ibit th.msr 55) && ibit th.fpscr 1

/-- Instruction `i` of state `s` leaves state `t`, unless an enabled floating-point exception is pending in `t`: then the program
interrupt follows, which returns to `i` (60_exceptions R1806 F.1; that SRR0 holds the address of `i`: log 24). -/
structure LeavesOrFloatTraps (i : Instr) (s t : State) : Prop where
  leaves : enabledFloatPending t.thr = false → Machine.exec i s = .next t
  traps : enabledFloatPending t.thr = true → Machine.exec i s = .next (t.interrupt t.curT .program s.thr.pc 0x100000)

/-- The instructions that only a supervisor (false) or only a hypervisor (true) may execute (44_ppe_system R920). -/
inductive Privileged : Instr → Bool → Prop
  | rfid : Privileged .ppeRfid false
  | hrfid : Privileged .ppeHrfid true
  | mtmsr (rs : BitVec 5) (l : Bool) : Privileged (.ppeMtmsr rs l) false
  | mtmsrd (rs : BitVec 5) (l : Bool) : Privileged (.ppeMtmsrd rs l) false
  | mfmsr (rt : BitVec 5) : Privileged (.ppeMfmsr rt) false
  | slbmte (rs rb : BitVec 5) : Privileged (.ppeSlbmte rs rb) false
  | slbmfee (rt rb : BitVec 5) : Privileged (.ppeSlbmfee rt rb) false
  | slbmfev (rt rb : BitVec 5) : Privileged (.ppeSlbmfev rt rb) false
  | slbie (rb : BitVec 5) : Privileged (.ppeSlbie rb) false
  | slbia : Privileged .ppeSlbia false

/-- The TLB-management instructions, for a hypervisor; without its privilege a supervisor takes the illegal-instruction
interrupt (44_ppe_system R920, 21_translation R476, 90_conflicts C47). -/
inductive TlbManagement : Instr → Prop
  | tlbie (l : Bool) (rb : BitVec 5) : TlbManagement (.ppeTlbie l rb)
  | tlbiel (l : Bool) (rb : BitVec 5) : TlbManagement (.ppeTlbiel l rb)
  | tlbsync : TlbManagement .ppeTlbsync

/-- Problem state, or, for a hypervisor instruction, not hypervisor state. -/
def lacksPrivilege (th : Thread) (hyper : Bool) : Prop := ibit th.msr 49 = true ∨ (hyper = true ∧ ibit th.msr 3 = false)

/-- Supervisor state, and hypervisor state. -/
def supervisorState (th : Thread) : Prop := ibit th.msr 49 = false
def hypervisorState (th : Thread) : Prop := ibit th.msr 3 = true ∧ ibit th.msr 49 = false

/-! ## Invalidation of TLB entries (21_translation R445, R455, R471, R472, R505, R517) -/

/-- L and LP name the page size 2^bits, by the selectors of the two large pages (R455); a reserved selector names none. -/
def pageSizeIs (sel : BitVec 4) (l lp : Bool) (bits : Nat) : Prop :=
  if l then ((ibm sel (if lp then 2 else 0) 2 : BitVec 2).toNat, bits) ∈ [(0, 24), (1, 20), (2, 16)] else bits = 12

/-- HID6[LB]. -/
def largeSizes (q : PpeShared) : BitVec 4 := ibm q.hid6 16 4

/-- Entry `x` translates the page of 2^bits bytes, of kind `l`, that RB names: VPN[38:79-bits] = RB[22:63-bits], in the partition
of LPIDR (R471, R472). -/
def namesPage (q : PpeShared) (l : Bool) (bits : Nat) (rb : DWord) (x : TlbEntry) : Prop :=
  x.v = true ∧ x.l = l ∧ pageSizeIs (largeSizes q) x.l x.lp bits ∧ x.lpid = q.lpidr ∧
  ∀ b, 38 ≤ b → b + bits ≤ 79 → ibit (x.vpn ++ 0#12) b = ibit rb (b - 16)

/-- Entry `x` stands in the congruence class RB[44:51] of its page size, whatever its partition (R472). -/
def inClass (q : PpeShared) (rb : DWord) (x : TlbEntry) : Prop :=
  let v : BitVec 80 := x.vpn ++ 0#12
  ∃ bits, pageSizeIs (largeSizes q) x.l x.lp bits ∧ ∀ j, j < 4 →
    if bits = 12 then (ibit v (52 + j) != ibit v (60 + j)) = ibit rb (44 + j) ∧ ibit v (64 + j) = ibit rb (48 + j)
    else if bits = 16 then (ibit v (52 + j) != ibit v (56 + j)) = ibit rb (44 + j) ∧ ibit v (60 + j) = ibit rb (48 + j)
    else if bits = 20 then ibit v (52 + j) = ibit rb (44 + j) ∧ ibit v (56 + j) = ibit rb (48 + j)
    else ibit v (48 + j) = ibit rb (44 + j) ∧ ibit v (52 + j) = ibit rb (48 + j)

/-- The invalidation reaches SPE `p`: MFC_SR1[T] = 1 and MFC_LPID is the partition of LPIDR (R471, R517). -/
def takesInvalidation (q : PpeShared) (p : Spe) : Prop :=
  ibit p.sr1 62 = true ∧ (p.cell keyMfcLpid).toNat = q.lpidr.toNat

/-- Instruction `i` goes on and invalidates the entries of the PPE's TLB that `hit` holds of and the ERAT entries of both threads
that R445 names; with `broadcast` the invalidation waits in the SPEs it reaches. Nothing else changes. -/
def TlbInvalidated (i : Instr) (s : State) (l : Bool) (rb : DWord) (hit : TlbEntry → Prop) (broadcast : Bool) : Prop :=
  ∃ t, Machine.exec i s = .next t ∧
    { t with threads := s.threads, ppe := s.ppe, spes := s.spes } = s ∧ { t.ppe with tlb := s.ppe.tlb } = s.ppe ∧
    (∀ key, (hit (s.ppe.tlbAt key) → t.ppe.tlbAt key = { s.ppe.tlbAt key with v := false }) ∧
      (¬hit (s.ppe.tlbAt key) → t.ppe.tlbAt key = s.ppe.tlbAt key)) ∧
    (∀ u : Fin 2,
      (∀ x, x ∈ t.threads[u].erat ↔
        x ∈ s.threads[u].erat ∧ l = false ∧ ∃ b, 47 ≤ b ∧ b ≤ 51 ∧ ibit x.eaPage b ≠ ibit rb b) ∧
      { t.threads[u] with erat := s.threads[u].erat, pc := s.threads[u].pc } = s.threads[u] ∧
      t.threads[u].pc = if u = s.curT then following s.thr else s.threads[u].pc) ∧
    ∀ n : Fin 8,
      (broadcast = true ∧ takesInvalidation s.ppe s.spes[n] →
        t.spes[n] = { s.spes[n] with snoops := s.spes[n].snoops ++ [⟨s.ppe.lpidr, l, rb⟩] }) ∧
      (¬(broadcast = true ∧ takesInvalidation s.ppe s.spes[n]) → t.spes[n] = s.spes[n])

/-- Invalidation `w` names entry `x` with key `key` of the translation unit of SPE `p`: VPN[38:79-p] is the tag and, below it, the
class (R505, R517; the place of the size selectors: log 8). -/
def namesSmmEntry (p : Spe) (w : Snoop) (key : Nat) (x : TlbEntry) : Prop :=
  let sel : BitVec 4 := ibm (p.cell keySmmHid) 0 4
  ∃ bits, pageSizeIs sel w.l (ibit w.rb 51) bits ∧ x.l = w.l ∧ pageSizeIs sel x.l x.lp bits ∧
    (x.vpn.toNat / 2^(bits - 6) * 64 + key / 4) % 2^(42 - bits) = w.rb.toNat % 2^42 / 2^bits

/-- SPE `p` becomes `q` by performing the invalidations `ws`, after which those of `left` wait. -/
structure SmmInvalidated (p q : Spe) (ws left : List Snoop) : Prop where
  left : q.snoops = left
  others : { q with snoops := p.snoops, tlb := p.tlb } = p
  hit : ∀ key, (∃ w ∈ ws, namesSmmEntry p w key (p.tlbAt key)) → q.tlbAt key = { p.tlbAt key with v := false }
  kept : ∀ key, (¬∃ w ∈ ws, namesSmmEntry p w key (p.tlbAt key)) → q.tlbAt key = p.tlbAt key

/-! ## Special registers (10_state section 8) -/

/-- The special-purpose registers that a write and then a read show alike: number, who may access it (0 all, 1 supervisor,
2 hypervisor), the implemented bits (10_state R64, R79 to R81; the numbers of the address-range registers are the model's, log 8). -/
inductive PlainSpr : Nat → Nat → DWord → Prop
  | xer : PlainSpr 1 0 0xE000007F
  | lr : PlainSpr 8 0 0xFFFFFFFFFFFFFFFF
  | ctr : PlainSpr 9 0 0xFFFFFFFFFFFFFFFF
  | dsisr : PlainSpr 18 1 0xFFFFFFFF
  | dar : PlainSpr 19 1 0xFFFFFFFFFFFFFFFF
  | dec : PlainSpr 22 1 0xFFFFFFFF
  | sdr1 : PlainSpr 25 2 0x3FFFFFFFFFFC001F
  | srr0 : PlainSpr 26 1 0xFFFFFFFFFFFFFFFF
  | srr1 : PlainSpr 27 1 0xFFFFFFFFFFFFFFFF
  | vrsave : PlainSpr 256 0 0xFFFFFFFF
  | sprg0 : PlainSpr 272 1 0xFFFFFFFFFFFFFFFF
  | sprg1 : PlainSpr 273 1 0xFFFFFFFFFFFFFFFF
  | sprg2 : PlainSpr 274 1 0xFFFFFFFFFFFFFFFF
  | sprg3 : PlainSpr 275 1 0xFFFFFFFFFFFFFFFF
  | hsprg0 : PlainSpr 304 2 0xFFFFFFFFFFFFFFFF
  | hsprg1 : PlainSpr 305 2 0xFFFFFFFFFFFFFFFF
  | hdec : PlainSpr 310 2 0xFFFFFFFF
  | rmor : PlainSpr 312 2 0x3FFFFF00000
  | hrmor : PlainSpr 313 2 0x3FFFFF00000
  | hsrr0 : PlainSpr 314 2 0xFFFFFFFFFFFFFFFF
  | hsrr1 : PlainSpr 315 2 0xFFFFFFFFFFFFFFFF
  | lpcr : PlainSpr 318 2 0x3C000C0F
  | lpidr : PlainSpr 319 2 0x1F
  | tscr : PlainSpr 921 2 0xF87D8000
  | ttr : PlainSpr 922 2 0xFFFFF
  | hid0 : PlainSpr 1008 2 0xFFFFFFFFFFFFFFFF
  | hid1 : PlainSpr 1009 2 0xFFFFFFFFFFFFFFFF
  | hid4 : PlainSpr 1012 2 0xFFFFFFFFFFFFFFFF
  | dabr : PlainSpr 1013 2 0xFFFFFFFFFFFFFFFF
  | dabrx : PlainSpr 1015 2 0xF
  | hid6 : PlainSpr 1017 2 0xFFFFFFFFFFFFFFFF
  | rangeBase (n : Nat) : n ∈ [952, 955, 976, 979] → PlainSpr n 1 0xFFFFFFFFFFFFF003
  | rangeMask (n : Nat) : n ∈ [953, 956, 977, 980] → PlainSpr n 1 0xFFFFF000
  | rangeClass (n : Nat) : n ∈ [954, 957, 978, 981] → PlainSpr n 1 0x7

/-- A valid entry for a large page stands in the TLB, or in the SLB or the ERAT of a thread (21_translation R455). -/
def holdsLarge (s : State) : Prop :=
  (∃ x ∈ s.ppe.tlb, x.2.v = true ∧ x.2.l = true) ∨ ∃ u : Fin 2,
    (∃ k : Fin 64, s.threads[u].slb[k].v = true ∧ s.threads[u].slb[k].l = true) ∨ ∃ x ∈ s.threads[u].erat, x.bits ≠ 12

/-- Whether a thread may access a register of that level. -/
def mayAccess (th : Thread) (level : Nat) : Prop :=
  (1 ≤ level → ibit th.msr 49 = false) ∧ (2 ≤ level → ibit th.msr 3 = true)

/-- The state goes on at the next instruction with other shared registers of the PPE; nothing else changes. -/
structure OnlyShared (s t : State) : Prop where
  others : { t with ppe := s.ppe, threads := s.threads } = s
  thread : t.thr = { s.thr with pc := following s.thr }
  other : ∀ u : Fin 2, u ≠ s.curT → t.threads[u] = s.threads[u]

/-- A thread may change its priority to `want` (62_platform R2009, Table 10-6). -/
def priorityAllowed (p : PpeShared) (th : Thread) (want : BitVec 2) : Prop :=
  want ≠ 0 ∧ (hypervisorState th ∨ (ibit th.msr 49 = false ∧ ibit p.tscr 15 = true) ∨ (ibit p.tscr 16 = true ∧ want ≠ 0b11))

/-! ## Storage accesses of the PPE -/

/-- An ordinary access: `len` bytes at the (truncated) address `ea`, inside one 4 KB block, translate to page `p` without a
table search, no breakpoint matches, the page allows the access (and has its change bit set for a store), and the bytes are in
main storage. -/
structure Ordinary (s : State) (ea : DWord) (len : Nat) (store : Bool) (p : Page) : Prop where
  inBlock : ea.toNat % 4096 + len ≤ 4096
  found : lookup s s.curT ea (if store then .store else .load) = .page p s
  noBreak : dabrMatch s.thr ea len store = false
  allowed : permits s.thr.pr p store = true
  changed : store = true → p.c = true
  dram : region s p.ra = .dram

/-- Whether the access is caching-inhibited (20_memory R432). -/
def inhibited (s : State) (p : Page) : Bool := p.i || s.ppe.forceCi

/-- With HID4[force_ai] = 1 the operand stays within 32 bytes (60_exceptions R1827 item 9). -/
def unforced (s : State) (ea : DWord) (len : Nat) : Prop := s.ppe.forceAi = true → ea.toNat % 32 + len ≤ 32

/-- The alignment that an access needs (20_memory R351 to R355, 60_exceptions R1827). -/
inductive Alignment where
  /-- Fixed-point loads and stores. -/
  | fixed
  /-- The algebraic loads and the strings: not caching-inhibited. -/
  | cached
  /-- Reservations and multiples: aligned, not caching-inhibited. -/
  | strict
  /-- Floating-point. -/
  | float
  /-- Vector elements and quadwords. -/
  | none
  /-- Vector left and right. -/
  | vectorPart
deriving DecidableEq, Repr

/-- Whether `len` bytes at `ea` on page `p` are aligned as the access needs. -/
def alignedFor (a : Alignment) (s : State) (p : Page) (ea : DWord) (len : Nat) : Prop :=
  match a with
  | .fixed => if inhibited s p then ea.toNat % len = 0 else s.ppe.forceAi = true → ea.toNat % 32 + len ≤ 32
  | .cached => inhibited s p = false ∧ (s.ppe.forceAi = true → ea.toNat % 32 + len ≤ 32)
  | .strict => inhibited s p = false ∧ ea.toNat % len = 0
  | .float => ea.toNat % 4 = 0 ∧
      (if inhibited s p then ea.toNat % len = 0
       else ea.toNat % 2^p.bits + len ≤ 2^p.bits ∧ (s.ppe.forceAi = true → ea.toNat % 32 + len ≤ 32 ∧ ea.toNat % len = 0))
  | .none => True
  | .vectorPart => inhibited s p = false

/-- The little-endian value of `k` bytes. -/
def readReversed (m : List Host.Cell) (a : Nat) : Nat → Nat
  | 0 => 0
  | k + 1 => readReversed m a k + (readByte m (a + k)).toNat * 256^k

/-- The signed value of the low `8 * k` bits. -/
def signedBytes (k v : Nat) : Int := if v < 2^(8 * k - 1) then (v : Int) else (v : Int) - 2^(8 * k)

/-- The effective addresses (41_ppe_loadstore R650). -/
def eaD (ra : BitVec 5) (d : BitVec 16) (th : Thread) : DWord := (if ra = 0 then 0 else th.getGpr ra) + d.signExtend 64
def eaDs (ra : BitVec 5) (ds : BitVec 14) (th : Thread) : DWord := (if ra = 0 then 0 else th.getGpr ra) + ds.signExtend 64 * 4
def eaX (ra rb : BitVec 5) (th : Thread) : DWord := (if ra = 0 then 0 else th.getGpr ra) + th.getGpr rb

/-- What a load makes of the bytes at a real address. -/
def zeroExtended (len : Nat) (m : List Host.Cell) (a : Nat) : DWord := BitVec.ofNat 64 (readBytes m a len)
def signExtended (len : Nat) (m : List Host.Cell) (a : Nat) : DWord := BitVec.ofInt 64 (signedBytes len (readBytes m a len))
def byteReversed (len : Nat) (m : List Host.Cell) (a : Nat) : DWord := BitVec.ofNat 64 (readReversed m a len)

/-- The fixed-point loads: destination, base register that is updated, address, length, alignment, value (41_ppe_loadstore
R654 to R676, R693 to R695). -/
inductive FixedLoad :
    Instr → BitVec 5 → Option (BitVec 5) → (Thread → DWord) → Nat → Alignment → (List Host.Cell → Nat → DWord) → Prop
  | lbz (rt ra : BitVec 5) (d : BitVec 16) : FixedLoad (.ppeLbz rt ra d) rt none (eaD ra d) 1 .fixed (zeroExtended 1)
  | lbzu (rt ra : BitVec 5) (d : BitVec 16) : FixedLoad (.ppeLbzu rt ra d) rt (some ra) (eaD ra d) 1 .fixed (zeroExtended 1)
  | lbzx (rt ra rb : BitVec 5) : FixedLoad (.ppeLbzx rt ra rb) rt none (eaX ra rb) 1 .fixed (zeroExtended 1)
  | lbzux (rt ra rb : BitVec 5) : FixedLoad (.ppeLbzux rt ra rb) rt (some ra) (eaX ra rb) 1 .fixed (zeroExtended 1)
  | lhz (rt ra : BitVec 5) (d : BitVec 16) : FixedLoad (.ppeLhz rt ra d) rt none (eaD ra d) 2 .fixed (zeroExtended 2)
  | lhzu (rt ra : BitVec 5) (d : BitVec 16) : FixedLoad (.ppeLhzu rt ra d) rt (some ra) (eaD ra d) 2 .fixed (zeroExtended 2)
  | lhzx (rt ra rb : BitVec 5) : FixedLoad (.ppeLhzx rt ra rb) rt none (eaX ra rb) 2 .fixed (zeroExtended 2)
  | lhzux (rt ra rb : BitVec 5) : FixedLoad (.ppeLhzux rt ra rb) rt (some ra) (eaX ra rb) 2 .fixed (zeroExtended 2)
  | lha (rt ra : BitVec 5) (d : BitVec 16) : FixedLoad (.ppeLha rt ra d) rt none (eaD ra d) 2 .cached (signExtended 2)
  | lhau (rt ra : BitVec 5) (d : BitVec 16) : FixedLoad (.ppeLhau rt ra d) rt (some ra) (eaD ra d) 2 .cached (signExtended 2)
  | lhax (rt ra rb : BitVec 5) : FixedLoad (.ppeLhax rt ra rb) rt none (eaX ra rb) 2 .cached (signExtended 2)
  | lhaux (rt ra rb : BitVec 5) : FixedLoad (.ppeLhaux rt ra rb) rt (some ra) (eaX ra rb) 2 .cached (signExtended 2)
  | lwz (rt ra : BitVec 5) (d : BitVec 16) : FixedLoad (.ppeLwz rt ra d) rt none (eaD ra d) 4 .fixed (zeroExtended 4)
  | lwzu (rt ra : BitVec 5) (d : BitVec 16) : FixedLoad (.ppeLwzu rt ra d) rt (some ra) (eaD ra d) 4 .fixed (zeroExtended 4)
  | lwzx (rt ra rb : BitVec 5) : FixedLoad (.ppeLwzx rt ra rb) rt none (eaX ra rb) 4 .fixed (zeroExtended 4)
  | lwzux (rt ra rb : BitVec 5) : FixedLoad (.ppeLwzux rt ra rb) rt (some ra) (eaX ra rb) 4 .fixed (zeroExtended 4)
  | lwa (rt ra : BitVec 5) (ds : BitVec 14) : FixedLoad (.ppeLwa rt ra ds) rt none (eaDs ra ds) 4 .cached (signExtended 4)
  | lwax (rt ra rb : BitVec 5) : FixedLoad (.ppeLwax rt ra rb) rt none (eaX ra rb) 4 .cached (signExtended 4)
  | lwaux (rt ra rb : BitVec 5) : FixedLoad (.ppeLwaux rt ra rb) rt (some ra) (eaX ra rb) 4 .cached (signExtended 4)
  | ld (rt ra : BitVec 5) (ds : BitVec 14) : FixedLoad (.ppeLd rt ra ds) rt none (eaDs ra ds) 8 .fixed (zeroExtended 8)
  | ldu (rt ra : BitVec 5) (ds : BitVec 14) : FixedLoad (.ppeLdu rt ra ds) rt (some ra) (eaDs ra ds) 8 .fixed (zeroExtended
      8)
  | ldx (rt ra rb : BitVec 5) : FixedLoad (.ppeLdx rt ra rb) rt none (eaX ra rb) 8 .fixed (zeroExtended 8)
  | ldux (rt ra rb : BitVec 5) : FixedLoad (.ppeLdux rt ra rb) rt (some ra) (eaX ra rb) 8 .fixed (zeroExtended 8)
  | lhbrx (rt ra rb : BitVec 5) : FixedLoad (.ppeLhbrx rt ra rb) rt none (eaX ra rb) 2 .fixed (byteReversed 2)
  | lwbrx (rt ra rb : BitVec 5) : FixedLoad (.ppeLwbrx rt ra rb) rt none (eaX ra rb) 4 .fixed (byteReversed 4)
  | ldbrx (rt ra rb : BitVec 5) : FixedLoad (.ppeLdbrx rt ra rb) rt none (eaX ra rb) 8 .fixed (byteReversed 8)

/-- The fixed-point stores: source, base register that is updated, address, length, whether the bytes are reversed
(41_ppe_loadstore R677 to R692, R696 to R698). -/
inductive FixedStore : Instr → BitVec 5 → Option (BitVec 5) → (Thread → DWord) → Nat → Bool → Prop
  | stb (rs ra : BitVec 5) (d : BitVec 16) : FixedStore (.ppeStb rs ra d) rs none (eaD ra d) 1 false
  | stbu (rs ra : BitVec 5) (d : BitVec 16) : FixedStore (.ppeStbu rs ra d) rs (some ra) (eaD ra d) 1 false
  | stbx (rs ra rb : BitVec 5) : FixedStore (.ppeStbx rs ra rb) rs none (eaX ra rb) 1 false
  | stbux (rs ra rb : BitVec 5) : FixedStore (.ppeStbux rs ra rb) rs (some ra) (eaX ra rb) 1 false
  | sth (rs ra : BitVec 5) (d : BitVec 16) : FixedStore (.ppeSth rs ra d) rs none (eaD ra d) 2 false
  | sthu (rs ra : BitVec 5) (d : BitVec 16) : FixedStore (.ppeSthu rs ra d) rs (some ra) (eaD ra d) 2 false
  | sthx (rs ra rb : BitVec 5) : FixedStore (.ppeSthx rs ra rb) rs none (eaX ra rb) 2 false
  | sthux (rs ra rb : BitVec 5) : FixedStore (.ppeSthux rs ra rb) rs (some ra) (eaX ra rb) 2 false
  | stw (rs ra : BitVec 5) (d : BitVec 16) : FixedStore (.ppeStw rs ra d) rs none (eaD ra d) 4 false
  | stwu (rs ra : BitVec 5) (d : BitVec 16) : FixedStore (.ppeStwu rs ra d) rs (some ra) (eaD ra d) 4 false
  | stwx (rs ra rb : BitVec 5) : FixedStore (.ppeStwx rs ra rb) rs none (eaX ra rb) 4 false
  | stwux (rs ra rb : BitVec 5) : FixedStore (.ppeStwux rs ra rb) rs (some ra) (eaX ra rb) 4 false
  | std (rs ra : BitVec 5) (ds : BitVec 14) : FixedStore (.ppeStd rs ra ds) rs none (eaDs ra ds) 8 false
  | stdu (rs ra : BitVec 5) (ds : BitVec 14) : FixedStore (.ppeStdu rs ra ds) rs (some ra) (eaDs ra ds) 8 false
  | stdx (rs ra rb : BitVec 5) : FixedStore (.ppeStdx rs ra rb) rs none (eaX ra rb) 8 false
  | stdux (rs ra rb : BitVec 5) : FixedStore (.ppeStdux rs ra rb) rs (some ra) (eaX ra rb) 8 false
  | sthbrx (rs ra rb : BitVec 5) : FixedStore (.ppeSthbrx rs ra rb) rs none (eaX ra rb) 2 true
  | stwbrx (rs ra rb : BitVec 5) : FixedStore (.ppeStwbrx rs ra rb) rs none (eaX ra rb) 4 true
  | stdbrx (rs ra rb : BitVec 5) : FixedStore (.ppeStdbrx rs ra rb) rs none (eaX ra rb) 8 true

/-- The byte at place `k` of `len` stored bytes of a value: big-endian, or reversed. -/
def storedByte (len : Nat) (rev : Bool) (v k : Nat) : Byte :=
  BitVec.ofNat 8 (v / 256^(if rev then k else len - 1 - k))

/-- What a store of `len` bytes at real address `a` changes outside the registers of the thread: those bytes, and the
reservations that it ends (with the events of the SPEs that lose one). -/
structure Stores (s t : State) (a len : Nat) (byte : Nat → Byte) : Prop where
  bytes : ∀ q, readByte t.mem q = if a ≤ q ∧ q < a + len then byte (q - a) else readByte s.mem q
  others : { t with threads := s.threads, spes := s.spes, mem := s.mem, freeCount := s.freeCount } = s
  thread : ∀ u : Fin 2, u ≠ s.curT → { t.threads[u] with reserve := s.threads[u].reserve } = s.threads[u]
  spes : ∀ n : Fin 8, { t.spes[n] with llres := s.spes[n].llres, pend := s.spes[n].pend, cnt := s.spes[n].cnt } = s.spes[n]

/-- Instruction `i` completes with a store of `len` bytes at real address `a`: it goes on at the next instruction, writes at
most what `w` lists (its own reservation apart), and the next state meets `P`. -/
def CompletesStore (i : Instr) (s : State) (a len : Nat) (byte : Nat → Byte) (w : Writes) (P : State → Prop) : Prop :=
  ∃ t, Machine.exec i s = .next t ∧ Stores s t a len byte ∧ Keeps w s.thr { t.thr with reserve := s.thr.reserve } ∧
    t.thr.pc = following s.thr ∧ P t

/-- The update forms, where R653 calls them valid. -/
def updateValid (upd : Option (BitVec 5)) (rt : Option (BitVec 5)) : Prop := ∀ r, upd = some r → r ≠ 0 ∧ rt ≠ some r

/-- The floating-point loads: destination, base register that is updated, address, whether in single format (R730 to R737). -/
inductive FloatLoad : Instr → BitVec 5 → Option (BitVec 5) → (Thread → DWord) → Bool → Prop
  | lfs (frt ra : BitVec 5) (d : BitVec 16) : FloatLoad (.ppeLfs frt ra d) frt none (eaD ra d) true
  | lfsu (frt ra : BitVec 5) (d : BitVec 16) : FloatLoad (.ppeLfsu frt ra d) frt (some ra) (eaD ra d) true
  | lfsx (frt ra rb : BitVec 5) : FloatLoad (.ppeLfsx frt ra rb) frt none (eaX ra rb) true
  | lfsux (frt ra rb : BitVec 5) : FloatLoad (.ppeLfsux frt ra rb) frt (some ra) (eaX ra rb) true
  | lfd (frt ra : BitVec 5) (d : BitVec 16) : FloatLoad (.ppeLfd frt ra d) frt none (eaD ra d) false
  | lfdu (frt ra : BitVec 5) (d : BitVec 16) : FloatLoad (.ppeLfdu frt ra d) frt (some ra) (eaD ra d) false
  | lfdx (frt ra rb : BitVec 5) : FloatLoad (.ppeLfdx frt ra rb) frt none (eaX ra rb) false
  | lfdux (frt ra rb : BitVec 5) : FloatLoad (.ppeLfdux frt ra rb) frt (some ra) (eaX ra rb) false

/-- The floating-point stores of a doubleword or of a word image: source, base register that is updated, address, length
(R726 to R729, R739). -/
inductive FloatStore : Instr → BitVec 5 → Option (BitVec 5) → (Thread → DWord) → Nat → Prop
  | stfd (frs ra : BitVec 5) (d : BitVec 16) : FloatStore (.ppeStfd frs ra d) frs none (eaD ra d) 8
  | stfdu (frs ra : BitVec 5) (d : BitVec 16) : FloatStore (.ppeStfdu frs ra d) frs (some ra) (eaD ra d) 8
  | stfdx (frs ra rb : BitVec 5) : FloatStore (.ppeStfdx frs ra rb) frs none (eaX ra rb) 8
  | stfdux (frs ra rb : BitVec 5) : FloatStore (.ppeStfdux frs ra rb) frs (some ra) (eaX ra rb) 8
  | stfiwx (frs ra rb : BitVec 5) : FloatStore (.ppeStfiwx frs ra rb) frs none (eaX ra rb) 4

/-- The stores in single format (R716 to R718, R738). -/
inductive SingleStore : Instr → BitVec 5 → Option (BitVec 5) → (Thread → DWord) → Prop
  | stfs (frs ra : BitVec 5) (d : BitVec 16) : SingleStore (.ppeStfs frs ra d) frs none (eaD ra d)
  | stfsu (frs ra : BitVec 5) (d : BitVec 16) : SingleStore (.ppeStfsu frs ra d) frs (some ra) (eaD ra d)
  | stfsx (frs ra rb : BitVec 5) : SingleStore (.ppeStfsx frs ra rb) frs none (eaX ra rb)
  | stfsux (frs ra rb : BitVec 5) : SingleStore (.ppeStfsux frs ra rb) frs (some ra) (eaX ra rb)

/-! ## Data accesses that cannot be performed (60_exceptions R1820 to R1823, R1827) -/

/-- The instructions of one data access, in a valid form: address, length, whether it stores, the alignment it needs. -/
inductive DataAccess : Instr → (Thread → DWord) → Nat → Bool → Alignment → Prop
  | load {i rt upd ea len al val} : FixedLoad i rt upd ea len al val → updateValid upd (some rt) → DataAccess i ea len false al
  | store {i rs upd ea len rev} : FixedStore i rs upd ea len rev → updateValid upd none → DataAccess i ea len true .fixed
  | floatLoad {i frt upd ea sg} : FloatLoad i frt upd ea sg → updateValid upd none → DataAccess i ea (if sg then 4 else 8) false .float
  | floatStore {i frs upd ea len} : FloatStore i frs upd ea len → updateValid upd none → DataAccess i ea len true .float
  | singleStore {i frs upd ea} : SingleStore i frs upd ea → updateValid upd none → DataAccess i ea 4 true .float
  | lwarx (rt ra rb : BitVec 5) : DataAccess (.ppeLwarx rt ra rb) (eaX ra rb) 4 false .strict
  | ldarx (rt ra rb : BitVec 5) : DataAccess (.ppeLdarx rt ra rb) (eaX ra rb) 8 false .strict
  | stwcx (rs ra rb : BitVec 5) : DataAccess (.ppeStwcxDot rs ra rb) (eaX ra rb) 4 true .strict
  | stdcx (rs ra rb : BitVec 5) : DataAccess (.ppeStdcxDot rs ra rb) (eaX ra rb) 8 true .strict

/-- The operand misses the alignment that its instruction needs whatever its page: reservations are aligned, floating-point operands on
words (R1827 items 1 and 3). -/
def misplaced (al : Alignment) (a : DWord) (len : Nat) : Prop :=
  (al = .strict ∧ a.toNat % len ≠ 0) ∨ (al = .float ∧ a.toNat % 4 ≠ 0)

/-- No segment of the thread holds the address (R1823). -/
def noSegment (th : Thread) (a : DWord) : Prop := ∀ k : Fin 64, th.slb[k].v = true → th.slb[k].esid.toNat ≠ a.toNat / 2^28

/-- One segment of the thread holds the address, and neither the TLB nor, where hardware searches it, the page table holds the page
(R1820 item 1). -/
def noPage (s : State) (a : DWord) : Prop :=
  ∃ e p, slbMatches s.thr.slb.toList a = [e] ∧ pageBits s.ppe.lb e.l e.lp = some p ∧ s.ppe.tlbWay e (vaOf e a) p = none ∧
    (s.ppe.tl = true ∨ tableSearch s s.ppe.sdr1 e (vaOf e a) p s.checkstop = .none)

/-- Instruction `i` takes the interrupt at `vector` that returns to it, with these values in DSISR and DAR and no other effect; a
search of the TLB that fails (`searched`) may write PPE_TLB_Index_Hint (21_translation R476). -/
def TakesData (i : Instr) (s : State) (vector : DWord) (dsisr : Word) (dar : DWord) (searched : Bool := false) : Prop :=
  ∃ t, Machine.exec i s = .next t ∧
    Enters { s.thr with dsisr := dsisr, dar := dar, tlbHint := if searched then t.thr.tlbHint else s.thr.tlbHint } s t vector s.thr.pc 0
      (lpesZero s)

/-- Instruction `i` takes the interrupt at `vector` likewise, and nothing else is changed, or what storing the bytes `byte` at real
address `a`, `len` of them, changes. -/
def TakesDataAfter (i : Instr) (s : State) (vector : DWord) (dsisr : Word) (dar : DWord) (a len : Nat) (byte : Nat → Byte) : Prop :=
  ∃ t, Machine.exec i s = .next t ∧ (OnlyThread s t ∨ Stores s t a len byte) ∧
    t.thr = { s.thr with
      dsisr := dsisr, dar := dar, srr0 := s.thr.pc, srr1 := s.thr.msr &&& ~~~0x783F0000#64, msr := entryMsr s.thr.msr (lpesZero s),
      pc := vector, reserve := t.thr.reserve }

/-- The operand is one that the floating-point unit stores as two words: a doubleword, word- but not doubleword-aligned (20_memory
R352). -/
def twoWords (store : Bool) (al : Alignment) (a : DWord) (len : Nat) : Prop :=
  store = true ∧ al = .float ∧ len = 8 ∧ a.toNat % 8 = 4

/-- The page table entry that a search for the C bit of the page finds, if it finds one, has R = 1. -/
def referenced (s : State) (p : Page) (a : DWord) : Prop :=
  ∀ b d0 d1, s.pteOfPage s.curT p a = .found b d0 d1 → ibit d1 55 = true

/-- The cache instructions that act on the block of their address without storing (R723 to R725). -/
inductive CacheBlockOp : Instr → BitVec 5 → BitVec 5 → Prop
  | dcbst (ra rb : BitVec 5) : CacheBlockOp (.ppeDcbst ra rb) ra rb
  | dcbf (ra rb : BitVec 5) : CacheBlockOp (.ppeDcbf ra rb) ra rb
  | icbi (ra rb : BitVec 5) : CacheBlockOp (.ppeIcbi ra rb) ra rb

/-- The touches (R720, R721). -/
inductive Touch : Instr → Prop
  | dcbt (th : BitVec 4) (ra rb : BitVec 5) : Touch (.ppeDcbt th ra rb)
  | dcbtst (ra rb : BitVec 5) : Touch (.ppeDcbtst ra rb)

/-- The instructions of the PPE that only order accesses (44_ppe_system R930, R938, R939). -/
inductive Barrier : Instr → Prop
  | sync (l : BitVec 2) : Barrier (.ppeSync l)
  | eieio : Barrier .ppeEieio
  | isync : Barrier .ppeIsync


/-! ## Floating point (43_ppe_float) -/

/-- A double image that is neither an infinity nor a NaN. -/
def finiteDouble (w : DWord) : Prop := w.toNat / 2^52 % 2^11 ≠ 2047

/-- The value of a finite double, in units of 2^-1074. -/
def scaled (w : DWord) : Int :=
  let x := w.toNat / 2^52 % 2^11
  let f := w.toNat % 2^52
  let m : Nat := if x = 0 then f else (2^52 + f) * 2^(x - 1)
  if ibit w 0 then -(m : Int) else m

/-- The value of a finite single image, in units of 2^-1074. -/
def scaledSingle (w : Word) : Int :=
  let x := w.toNat / 2^23 % 2^8
  let f := w.toNat % 2^23
  let m : Nat := (if x = 0 then f else (2^23 + f) * 2^(x - 1)) * 2^925
  if ibit w 0 then -(m : Int) else m

/-- A finite single image. -/
def finiteSingle (w : Word) : Prop := w.toNat / 2^23 % 2^8 ≠ 255

/-- A finite double that single format holds (R844). -/
def isSingle (w : DWord) : Prop := finiteDouble w ∧ ∃ v, finiteSingle v ∧ scaledSingle v = scaled w

/-- The values of the target format. -/
def targets (single : Bool) (c : Int) : Prop :=
  if single then ∃ w, finiteSingle w ∧ scaledSingle w = c else ∃ w, finiteDouble w ∧ scaled w = c

/-- The significand of the value in the target format is even. -/
def evenSignificand (single : Bool) (r : Int) : Prop :=
  if single then ∀ w : Word, finiteSingle w → scaledSingle w = r → ibit w 31 = false
  else ∀ w : DWord, finiteDouble w → scaled w = r → ibit w 63 = false

/-- `r` is the value of the format that the direction RN gives for `x / k` (10_state R50; nearest with a tie to the even
significand, zero, up, down). -/
def RoundsTo (rn : BitVec 2) (single : Bool) (k x r : Int) : Prop :=
  match rn.toNat with
  | 0 => (∀ c, targets single c → (r * k - x).natAbs ≤ (c * k - x).natAbs) ∧
      ∀ c, targets single c → c ≠ r → (c * k - x).natAbs = (r * k - x).natAbs → evenSignificand single r
  | 1 => (r * k).natAbs ≤ x.natAbs ∧ (0 < r → 0 < x) ∧ (r < 0 → x < 0) ∧
      ∀ c, targets single c → (c * k).natAbs ≤ x.natAbs → (c * k).natAbs ≤ (r * k).natAbs
  | 2 => x ≤ r * k ∧ ∀ c, targets single c → x ≤ c * k → r ≤ c
  | _ => r * k ≤ x ∧ ∀ c, targets single c → c * k ≤ x → c ≤ r

/-- The exact value `x / k` overflows the format: its rounding with an unbounded exponent is past the largest number (43_ppe_float
R843 step 3). -/
def overflows (rn : BitVec 2) (single : Bool) (k x : Int) : Bool :=
  let top : Int := if single then 2^1202 else 2^2098
  let ulp : Int := if single then 2^1178 else 2^2045
  match rn.toNat with
  | 0 => decide ((2 * top - ulp) * k ≤ 2 * x.natAbs)
  | 1 => decide (top * k ≤ x.natAbs)
  | 2 => decide ((top - ulp) * k < x ∨ x ≤ -top * k)
  | _ => decide (top * k ≤ x ∨ x < -(top - ulp) * k)

/-- The exact value `x / k` is not zero and below the smallest normal number of the format. -/
def tinyValue (single : Bool) (k x : Int) : Bool := decide (x ≠ 0 ∧ (x.natAbs : Int) < (if single then 2^948 else 2^52) * k)

/-- The order of images that are not NaNs: the magnitude with its sign, -0 and +0 alike. -/
def imageKey (n w : Nat) : Int := if 2^(n - 1) ≤ w then -((w - 2^(n - 1) : Nat) : Int) else w

/-- VX is the or of the VX* bits, FEX the or of the enabled exceptions (10_state R50). -/
structure Summary (f : Word) : Prop where
  vx : ibit f 2 = [7, 8, 9, 10, 11, 12, 21, 22, 23].any (ibit f)
  fex : ibit f 1 = [(2, 24), (3, 25), (4, 26), (5, 27), (6, 28)].any fun p => ibit f p.1 && ibit f p.2

/-- CR1 is a copy of FX, FEX, VX, OX (R841). -/
def copiesCr1 (th : Thread) : Prop := ∀ j, j < 4 → ibit th.cr (4 + j) = ibit th.fpscr j

/-- CR field 1. -/
def cr1Mask : Word := 0x0F000000

/-- Instruction `i` updates the thread within `w` to one that meets `P`; then an enabled exception takes the program interrupt
with SRR1[43] if FE0 or FE1 is set, and otherwise the thread goes on (R843, 60_exceptions R1828). -/
def FloatEnds (i : Instr) (s : State) (w : Writes) (P : Thread → Prop) : Prop :=
  ∃ t u, Machine.exec i s = .next t ∧ Keeps w s.thr u ∧ u.pc = s.thr.pc ∧ P u ∧
    if ibit u.fpscr 1 && (ibit s.thr.msr 52 || ibit s.thr.msr 55) then Enters u s t 0x700 s.thr.pc 0x100000 (lpesZero s)
    else OnlyThread s t ∧ t.thr = { u with pc := following s.thr }

/-! ### The exceptions of floating-point operands (43_ppe_float R843)

Whether the operands, in the order FRA, FRB, FRC, raise the exception of a bit of FPSCR: 5 ZX, 8 VXISI, 9 VXIDI, 10 VXZDZ, 11 VXIMZ,
22 VXSQRT. -/

/-- An infinity; a zero. -/
def isInfinite (w : DWord) : Bool := decide (w.toNat % 2^63 = 0x7FF0000000000000)
def isZero (w : DWord) : Bool := decide (w.toNat % 2^63 = 0)

/-- a + b, or a - b with `sub`: infinities of opposite signs. -/
def sumCause (sub : Bool) : List DWord → Nat → Bool
  | [a, b], k => k == 8 && isInfinite a && isInfinite b && (ibit a 0 != (ibit b 0 != sub))
  | _, _ => false

/-- a * c: an infinity and a zero. -/
def productCause : List DWord → Nat → Bool
  | [a, c], k => k == 11 && ((isInfinite a && isZero c) || (isZero a && isInfinite c))
  | _, _ => false

/-- a / b: infinities, zeros, a finite number that is not zero by zero. -/
def quotientCause : List DWord → Nat → Bool
  | [a, b], k => (k == 9 && isInfinite a && isInfinite b) || (k == 10 && isZero a && isZero b) ||
      (k == 5 && isZero b && !isZero a && !isInfinite a && !isNan f64 a.toNat)
  | _, _ => false

/-- a * c + b, or a * c - b with `sub`. -/
def fusedCause (sub : Bool) : List DWord → Nat → Bool
  | [a, b, c], k => productCause [a, c] k || (k == 8 && isInfinite b && (isInfinite a || isInfinite c) && !isZero a && !isZero c &&
      !isNan f64 a.toNat && !isNan f64 c.toNat && ((ibit a 0 != ibit c 0) != (ibit b 0 != sub)))
  | _, _ => false

/-- sqrt(b): a negative number that is not zero. -/
def rootCause : List DWord → Nat → Bool
  | [b], k => k == 22 && ibit b 0 && !isZero b && !isNan f64 b.toNat
  | _, _ => false

/-- 1 / b and 1 / sqrt(b): a zero. -/
def zeroCause : List DWord → Nat → Bool
  | [b], k => k == 5 && isZero b
  | _, _ => false
def inverseRootCause (l : List DWord) (k : Nat) : Bool := zeroCause l k || rootCause l k

/-- No exception but that of a signalling NaN. -/
def noCause (_ : List DWord) (_ : Nat) : Bool := false

/-- The exception bits of FPSCR, which make FX: OX, UX, ZX, XX and the VX* bits. -/
def floatExceptions : List Nat := [3, 4, 5, 6, 7, 8, 9, 10, 11, 12, 21, 22, 23]

/-- The arithmetic instructions: destination, Rc, whether the target is single format, the operands in the order FRA, FRB, FRC,
the exception bits that they raise (R855 to R874, R880, R885). -/
inductive FloatArith : Instr → BitVec 5 → Bool → Bool → (Thread → List DWord) → (List DWord → Nat → Bool) → Prop
  | fadd (frt fra frb : BitVec 5) (rec : Bool) : FloatArith (.ppeFadd frt fra frb rec)
      frt rec false (fun th => [(th.getFpr fra), (th.getFpr frb)]) (sumCause false)
  | fadds (frt fra frb : BitVec 5) (rec : Bool) : FloatArith (.ppeFadds frt fra frb rec)
      frt rec true (fun th => [(th.getFpr fra), (th.getFpr frb)]) (sumCause false)
  | fsub (frt fra frb : BitVec 5) (rec : Bool) : FloatArith (.ppeFsub frt fra frb rec)
      frt rec false (fun th => [(th.getFpr fra), (th.getFpr frb)]) (sumCause true)
  | fsubs (frt fra frb : BitVec 5) (rec : Bool) : FloatArith (.ppeFsubs frt fra frb rec)
      frt rec true (fun th => [(th.getFpr fra), (th.getFpr frb)]) (sumCause true)
  | fmul (frt fra frc : BitVec 5) (rec : Bool) : FloatArith (.ppeFmul frt fra frc rec)
      frt rec false (fun th => [(th.getFpr fra), (th.getFpr frc)]) productCause
  | fmuls (frt fra frc : BitVec 5) (rec : Bool) : FloatArith (.ppeFmuls frt fra frc rec)
      frt rec true (fun th => [(th.getFpr fra), (th.getFpr frc)]) productCause
  | fdiv (frt fra frb : BitVec 5) (rec : Bool) : FloatArith (.ppeFdiv frt fra frb rec)
      frt rec false (fun th => [(th.getFpr fra), (th.getFpr frb)]) quotientCause
  | fdivs (frt fra frb : BitVec 5) (rec : Bool) : FloatArith (.ppeFdivs frt fra frb rec)
      frt rec true (fun th => [(th.getFpr fra), (th.getFpr frb)]) quotientCause
  | fsqrt (frt frb : BitVec 5) (rec : Bool) : FloatArith (.ppeFsqrt frt frb rec) frt rec false (fun th => [(th.getFpr frb)]) rootCause
  | fsqrts (frt frb : BitVec 5) (rec : Bool) : FloatArith (.ppeFsqrts frt frb rec) frt rec true (fun th => [(th.getFpr frb)]) rootCause
  | fmadd (frt fra frb frc : BitVec 5) (rec : Bool) : FloatArith (.ppeFmadd frt fra frb frc rec)
      frt rec false (fun th => [(th.getFpr fra), (th.getFpr frb), (th.getFpr frc)]) (fusedCause false)
  | fmadds (frt fra frb frc : BitVec 5) (rec : Bool) : FloatArith (.ppeFmadds frt fra frb frc rec)
      frt rec true (fun th => [(th.getFpr fra), (th.getFpr frb), (th.getFpr frc)]) (fusedCause false)
  | fmsub (frt fra frb frc : BitVec 5) (rec : Bool) : FloatArith (.ppeFmsub frt fra frb frc rec)
      frt rec false (fun th => [(th.getFpr fra), (th.getFpr frb), (th.getFpr frc)]) (fusedCause true)
  | fmsubs (frt fra frb frc : BitVec 5) (rec : Bool) : FloatArith (.ppeFmsubs frt fra frb frc rec)
      frt rec true (fun th => [(th.getFpr fra), (th.getFpr frb), (th.getFpr frc)]) (fusedCause true)
  | fnmadd (frt fra frb frc : BitVec 5) (rec : Bool) : FloatArith (.ppeFnmadd frt fra frb frc rec)
      frt rec false (fun th => [(th.getFpr fra), (th.getFpr frb), (th.getFpr frc)]) (fusedCause false)
  | fnmadds (frt fra frb frc : BitVec 5) (rec : Bool) : FloatArith (.ppeFnmadds frt fra frb frc rec)
      frt rec true (fun th => [(th.getFpr fra), (th.getFpr frb), (th.getFpr frc)]) (fusedCause false)
  | fnmsub (frt fra frb frc : BitVec 5) (rec : Bool) : FloatArith (.ppeFnmsub frt fra frb frc rec)
      frt rec false (fun th => [(th.getFpr fra), (th.getFpr frb), (th.getFpr frc)]) (fusedCause true)
  | fnmsubs (frt fra frb frc : BitVec 5) (rec : Bool) : FloatArith (.ppeFnmsubs frt fra frb frc rec)
      frt rec true (fun th => [(th.getFpr fra), (th.getFpr frb), (th.getFpr frc)]) (fusedCause true)
  | fres (frt frb : BitVec 5) (rec : Bool) : FloatArith (.ppeFres frt frb rec) frt rec true (fun th => [(th.getFpr frb)]) zeroCause
  | frsqrte (frt frb : BitVec 5) (rec : Bool) : FloatArith (.ppeFrsqrte frt frb rec)
      frt rec false (fun th => [(th.getFpr frb)]) inverseRootCause
  | frsp (frt frb : BitVec 5) (rec : Bool) : FloatArith (.ppeFrsp frt frb rec) frt rec true (fun th => [(th.getFpr frb)]) noCause
  | fcfid (frt frb : BitVec 5) (rec : Bool) : FloatArith (.ppeFcfid frt frb rec) frt rec false (fun _ => []) noCause

/-- The status bits an arithmetic instruction may change: all but the enables, NI and RN. -/
def floatStatus : Word := 0xFFFFFF00

/-- What an arithmetic instruction may write. -/
def floatWrites (frt : BitVec 5) (rec : Bool) : Writes where
  fpr := [frt]
  fpscr := floatStatus
  cr := if rec then cr1Mask else 0

/-- The instructions whose result is their exact result rounded once: destination, whether the target is single format, whether
the rounded value is negated, for which operands; the exact result is the integer in units of 2^-1074 divided by the factor
(R843, R855 to R862, R865 to R872, R880, R885; the quotients in IEEE mode, R845). -/
inductive RoundedOp : Instr → BitVec 5 → Bool → Bool → (Thread → Prop) → (Thread → Int) → (Thread → Int) → Prop
  | fadd (frt fra frb : BitVec 5) (rec : Bool) : RoundedOp (.ppeFadd frt fra frb rec)
      frt false false (fun th => finiteDouble (th.getFpr fra) ∧ finiteDouble (th.getFpr frb)) (fun _ => 1) fun th => scaled (th.getFpr
      fra) + scaled (th.getFpr frb)
  | fadds (frt fra frb : BitVec 5) (rec : Bool) : RoundedOp (.ppeFadds frt fra frb rec)
      frt true false (fun th => isSingle (th.getFpr fra) ∧ isSingle (th.getFpr frb)) (fun _ => 1) fun th => scaled (th.getFpr fra) +
      scaled (th.getFpr frb)
  | fsub (frt fra frb : BitVec 5) (rec : Bool) : RoundedOp (.ppeFsub frt fra frb rec)
      frt false false (fun th => finiteDouble (th.getFpr fra) ∧ finiteDouble (th.getFpr frb)) (fun _ => 1) fun th => scaled (th.getFpr
      fra) - scaled (th.getFpr frb)
  | fsubs (frt fra frb : BitVec 5) (rec : Bool) : RoundedOp (.ppeFsubs frt fra frb rec)
      frt true false (fun th => isSingle (th.getFpr fra) ∧ isSingle (th.getFpr frb)) (fun _ => 1) fun th => scaled (th.getFpr fra) -
      scaled (th.getFpr frb)
  | fmul (frt fra frc : BitVec 5) (rec : Bool) : RoundedOp (.ppeFmul frt fra frc rec)
      frt false false (fun th => finiteDouble (th.getFpr fra) ∧ finiteDouble (th.getFpr frc)) (fun _ => 2^1074) fun th => scaled
      (th.getFpr fra) * scaled (th.getFpr frc)
  | fmuls (frt fra frc : BitVec 5) (rec : Bool) : RoundedOp (.ppeFmuls frt fra frc rec)
      frt true false (fun th => isSingle (th.getFpr fra) ∧ isSingle (th.getFpr frc)) (fun _ => 2^1074) fun th => scaled (th.getFpr
      fra) * scaled (th.getFpr frc)
  | fmadd (frt fra frb frc : BitVec 5) (rec : Bool) : RoundedOp (.ppeFmadd frt fra frb frc rec)
      frt false false (fun th => finiteDouble (th.getFpr fra) ∧ finiteDouble (th.getFpr frb) ∧ finiteDouble (th.getFpr
      frc)) (fun _ => 2^1074) fun th => scaled (th.getFpr fra) * scaled (th.getFpr frc) + scaled (th.getFpr frb) * 2^1074
  | fmadds (frt fra frb frc : BitVec 5) (rec : Bool) : RoundedOp (.ppeFmadds frt fra frb frc rec)
      frt true false (fun th => isSingle (th.getFpr fra) ∧ isSingle (th.getFpr frb) ∧ isSingle (th.getFpr frc)) (fun _ => 2^1074)
      fun th => scaled (th.getFpr fra) * scaled (th.getFpr frc) + scaled (th.getFpr frb) * 2^1074
  | fmsub (frt fra frb frc : BitVec 5) (rec : Bool) : RoundedOp (.ppeFmsub frt fra frb frc rec)
      frt false false (fun th => finiteDouble (th.getFpr fra) ∧ finiteDouble (th.getFpr frb) ∧ finiteDouble (th.getFpr
      frc)) (fun _ => 2^1074) fun th => scaled (th.getFpr fra) * scaled (th.getFpr frc) - scaled (th.getFpr frb) * 2^1074
  | fmsubs (frt fra frb frc : BitVec 5) (rec : Bool) : RoundedOp (.ppeFmsubs frt fra frb frc rec)
      frt true false (fun th => isSingle (th.getFpr fra) ∧ isSingle (th.getFpr frb) ∧ isSingle (th.getFpr frc)) (fun _ => 2^1074)
      fun th => scaled (th.getFpr fra) * scaled (th.getFpr frc) - scaled (th.getFpr frb) * 2^1074
  | fnmadd (frt fra frb frc : BitVec 5) (rec : Bool) : RoundedOp (.ppeFnmadd frt fra frb frc rec)
      frt false true (fun th => finiteDouble (th.getFpr fra) ∧ finiteDouble (th.getFpr frb) ∧ finiteDouble (th.getFpr frc))
      (fun _ => 2^1074) fun th => scaled (th.getFpr fra) * scaled (th.getFpr frc) + scaled (th.getFpr frb) * 2^1074
  | fnmadds (frt fra frb frc : BitVec 5) (rec : Bool) : RoundedOp (.ppeFnmadds frt fra frb frc rec)
      frt true true (fun th => isSingle (th.getFpr fra) ∧ isSingle (th.getFpr frb) ∧ isSingle (th.getFpr frc)) (fun _ => 2^1074) fun
      th => scaled (th.getFpr fra) * scaled (th.getFpr frc) + scaled (th.getFpr frb) * 2^1074
  | fnmsub (frt fra frb frc : BitVec 5) (rec : Bool) : RoundedOp (.ppeFnmsub frt fra frb frc rec)
      frt false true (fun th => finiteDouble (th.getFpr fra) ∧ finiteDouble (th.getFpr frb) ∧ finiteDouble (th.getFpr frc))
      (fun _ => 2^1074) fun th => scaled (th.getFpr fra) * scaled (th.getFpr frc) - scaled (th.getFpr frb) * 2^1074
  | fnmsubs (frt fra frb frc : BitVec 5) (rec : Bool) : RoundedOp (.ppeFnmsubs frt fra frb frc rec)
      frt true true (fun th => isSingle (th.getFpr fra) ∧ isSingle (th.getFpr frb) ∧ isSingle (th.getFpr frc)) (fun _ => 2^1074) fun
      th => scaled (th.getFpr fra) * scaled (th.getFpr frc) - scaled (th.getFpr frb) * 2^1074
  | frsp (frt frb : BitVec 5) (rec : Bool) : RoundedOp (.ppeFrsp frt frb rec)
      frt true false (fun th => finiteDouble (th.getFpr frb)) (fun _ => 1) fun th => scaled (th.getFpr frb)
  | fcfid (frt frb : BitVec 5) (rec : Bool) : RoundedOp (.ppeFcfid frt frb rec)
      frt false false (fun _ => True) (fun _ => 1) fun th => (th.getFpr frb).toInt * 2^1074
  | fdiv (frt fra frb : BitVec 5) (rec : Bool) : RoundedOp (.ppeFdiv frt fra frb rec)
      frt false false (fun th => finiteDouble (th.getFpr fra) ∧ finiteDouble (th.getFpr frb) ∧ scaled (th.getFpr frb) ≠ 0 ∧
        ibit th.fpscr 29 = false)
      (fun th => (scaled (th.getFpr frb)).natAbs) fun th => (scaled (th.getFpr frb)).sign * scaled (th.getFpr fra) * 2^1074
  | fdivs (frt fra frb : BitVec 5) (rec : Bool) : RoundedOp (.ppeFdivs frt fra frb rec)
      frt true false (fun th => isSingle (th.getFpr fra) ∧ isSingle (th.getFpr frb) ∧ scaled (th.getFpr frb) ≠ 0 ∧
        ibit th.fpscr 29 = false)
      (fun th => (scaled (th.getFpr frb)).natAbs) fun th => (scaled (th.getFpr frb)).sign * scaled (th.getFpr fra) * 2^1074

/-- The square roots: destination, source, whether the target is single format (R863, R864). -/
inductive FloatRoot : Instr → BitVec 5 → BitVec 5 → Bool → Prop
  | fsqrt (frt frb : BitVec 5) (rec : Bool) : FloatRoot (.ppeFsqrt frt frb rec) frt frb false
  | fsqrts (frt frb : BitVec 5) (rec : Bool) : FloatRoot (.ppeFsqrts frt frb rec) frt frb true

/-- `r` is the value of the format that the direction RN gives for the square root of `x`. -/
def RootRoundsTo (rn : BitVec 2) (single : Bool) (x r : Int) : Prop :=
  0 ≤ r ∧ match rn.toNat with
  | 0 => ∀ c, targets single c → 0 ≤ c → (r < c → 4 * x ≤ (r + c)^2) ∧ (c < r → (r + c)^2 ≤ 4 * x)
  | 2 => x ≤ r^2 ∧ ∀ c, targets single c → 0 ≤ c → x ≤ c^2 → r ≤ c
  | _ => r^2 ≤ x ∧ ∀ c, targets single c → 0 ≤ c → c^2 ≤ x → c ≤ r

/-- `r` differs from 1 / b by at most one part in `n`; `r` is positive and differs from 1 / sqrt(b) by at most one part in `n`: all
in units of 2^-1074. -/
def nearInverse (n : Nat) (b r : Int) : Prop := (n * (r * b - 2^2148)).natAbs ≤ 2^2148
def nearInverseRoot (n : Nat) (b r : Int) : Prop :=
  0 < r ∧ (n - 1 : Int)^2 * 2^3222 ≤ (n : Int)^2 * r^2 * b ∧ (n : Int)^2 * r^2 * b ≤ (n + 1 : Int)^2 * 2^3222

/-- The conversions to integer: destination, source, Rc, width, whether toward zero whatever RN (R881 to R884). -/
inductive FloatToInt : Instr → BitVec 5 → BitVec 5 → Bool → Nat → Bool → Prop
  | fctid (frt frb : BitVec 5) (rec : Bool) : FloatToInt (.ppeFctid frt frb rec) frt frb rec 64 false
  | fctidz (frt frb : BitVec 5) (rec : Bool) : FloatToInt (.ppeFctidz frt frb rec) frt frb rec 64 true
  | fctiw (frt frb : BitVec 5) (rec : Bool) : FloatToInt (.ppeFctiw frt frb rec) frt frb rec 32 false
  | fctiwz (frt frb : BitVec 5) (rec : Bool) : FloatToInt (.ppeFctiwz frt frb rec) frt frb rec 32 true

/-- The integer next to `x / 2^1074` in the direction RN. -/
def IntegerNear (rn : BitVec 2) (x i : Int) : Prop :=
  match rn.toNat with
  | 0 => 2 * (i * 2^1074 - x).natAbs ≤ 2^1074 ∧ (2 * (i * 2^1074 - x).natAbs = 2^1074 → i % 2 = 0)
  | 1 => i = x.tdiv (2^1074)
  | 2 => x ≤ i * 2^1074 ∧ i * 2^1074 < x + 2^1074
  | _ => i * 2^1074 ≤ x ∧ x < i * 2^1074 + 2^1074

/-- The nearest of the `n`-bit signed integers. -/
def saturated (n : Nat) (x : Int) : Int := max (-2^(n - 1)) (min (2^(n - 1) - 1) x)

/-- The moves: destination, Rc, image (R850 to R853, R875). -/
inductive FloatMove : Instr → BitVec 5 → Bool → (Thread → DWord) → Prop
  | fmr (frt frb : BitVec 5) (rec : Bool) : FloatMove (.ppeFmr frt frb rec) frt rec fun th => (th.getFpr frb)
  | fneg (frt frb : BitVec 5) (rec : Bool) : FloatMove (.ppeFneg frt frb rec)
      frt rec fun th => (th.getFpr frb) ^^^ (1#64 <<< 63)
  | fabs (frt frb : BitVec 5) (rec : Bool) : FloatMove (.ppeFabs frt frb rec)
      frt rec fun th => (th.getFpr frb) &&& ~~~(1#64 <<< 63)
  | fnabs (frt frb : BitVec 5) (rec : Bool) : FloatMove (.ppeFnabs frt frb rec)
      frt rec fun th => (th.getFpr frb) ||| (1#64 <<< 63)
  | fsel (frt fra frb frc : BitVec 5) (rec : Bool) : FloatMove (.ppeFsel frt fra frb frc rec)
      frt rec fun th => if ¬isNan f64 (th.getFpr fra).toNat ∧ 0 ≤ imageKey 64 (th.getFpr fra).toNat then (th.getFpr frc)
      else (th.getFpr frb)

/-- The writes of the FPSCR: Rc, and the new value of every bit but FEX, VX and the reserved bit 20 (R894 to R897). -/
inductive FpscrWrite : Instr → Bool → (Thread → Nat → Bool) → Prop
  | mtfsfi (bf : BitVec 3) (u : BitVec 4) (rec : Bool) : FpscrWrite (.ppeMtfsfi bf u rec) rec
      fun th b => if b / 4 = bf.toNat then ibit u (b % 4) else ibit th.fpscr b
  | mtfsf (flm : BitVec 8) (frb : BitVec 5) (rec : Bool) : FpscrWrite (.ppeMtfsf flm frb rec) rec
      fun th b => if ibit flm (b / 4) then ibit (th.getFpr frb) (32 + b) else ibit th.fpscr b
  | mtfsb0 (bt : BitVec 5) (rec : Bool) : FpscrWrite (.ppeMtfsb0 bt rec) rec
      fun th b => if b = bt.toNat then false else ibit th.fpscr b
  | mtfsb1 (bt : BitVec 5) (rec : Bool) : FpscrWrite (.ppeMtfsb1 bt rec) rec
      fun th b => if b = bt.toNat ∨ (b = 0 ∧ bt.toNat ∈ [3, 4, 5, 6, 7, 8, 9, 10, 11, 12, 21, 22, 23]) then true
        else ibit th.fpscr b

/-- Every instruction that MSR[FP] = 0 makes unavailable (60_exceptions R1829). -/
inductive UsesFloat : Instr → Prop
  | arith (i frt rec single ops cause) (h : FloatArith i frt rec single ops cause) : UsesFloat i
  | toInt (i frt frb rec n z) (h : FloatToInt i frt frb rec n z) : UsesFloat i
  | move (i frt rec v) (h : FloatMove i frt rec v) : UsesFloat i
  | write (i rec f) (h : FpscrWrite i rec f) : UsesFloat i
  | fcmpu (bf : BitVec 3) (fra frb : BitVec 5) : UsesFloat (.ppeFcmpu bf fra frb)
  | fcmpo (bf : BitVec 3) (fra frb : BitVec 5) : UsesFloat (.ppeFcmpo bf fra frb)
  | mffs (frt : BitVec 5) (rec : Bool) : UsesFloat (.ppeMffs frt rec)
  | mcrfs (bf bfa : BitVec 3) : UsesFloat (.ppeMcrfs bf bfa)
  | load (i frt upd ea single) (h : FloatLoad i frt upd ea single) : UsesFloat i
  | store (i frs upd ea len) (h : FloatStore i frs upd ea len) : UsesFloat i
  | single (i frs upd ea) (h : SingleStore i frs upd ea) : UsesFloat i

/-! ## Vectors (45_ppe_vmx_1, 45_ppe_vmx_2) -/

/-- Element `i` of `len` bits of a quadword, element 0 leftmost, as an unsigned and as a signed number. -/
def element (len : Nat) (q : QWord) (i : Nat) : Nat := q.toNat / 2^(128 - len * (i + 1)) % 2^len
def signedElement (len : Nat) (q : QWord) (i : Nat) : Int :=
  if element len q i < 2^(len - 1) then (element len q i : Int) else (element len q i : Int) - 2^len

/-- Elements of vector registers; elements of the pair of two registers. -/
def vU (len : Nat) (r : BitVec 5) (i : Nat) (th : Thread) : Int := element len (th.getVr r) i
def vS (len : Nat) (r : BitVec 5) (i : Nat) (th : Thread) : Int := signedElement len (th.getVr r) i
def vPair (len : Nat) (a b : BitVec 5) (i : Nat) (th : Thread) : Int :=
  if i < 128 / len then vU len a i th else vU len b (i - 128 / len) th
def vPairS (len : Nat) (a b : BitVec 5) (i : Nat) (th : Thread) : Int :=
  if i < 128 / len then vS len a i th else vS len b (i - 128 / len) th

/-- The vector instructions whose elements wrap: destination, bits of an element, number of elements, and a number that each
element of the result is congruent to (R1012, R1013, R1030 to R1078, R1101 to R1104, R1111 to R1114, R1121 to R1138,
R1153 to R1160, R1163 to R1168, R1175). -/
inductive VmxPlain : Instr → BitVec 5 → Nat → Nat → (Thread → Nat → Int) → Prop
  | vaddubm (vrt vra vrb : BitVec 5) : VmxPlain (.ppeVaddubm vrt vra vrb) vrt 8 16 fun th i => vU 8 vra i th + vU 8 vrb i th
  | vsububm (vrt vra vrb : BitVec 5) : VmxPlain (.ppeVsububm vrt vra vrb) vrt 8 16 fun th i => vU 8 vra i th - vU 8 vrb i th
  | vavgub (vrt vra vrb : BitVec 5) : VmxPlain (.ppeVavgub vrt vra vrb)
      vrt 8 16 fun th i => (vU 8 vra i th + vU 8 vrb i th + 1) / 2
  | vavgsb (vrt vra vrb : BitVec 5) : VmxPlain (.ppeVavgsb vrt vra vrb)
      vrt 8 16 fun th i => (vS 8 vra i th + vS 8 vrb i th + 1) / 2
  | vmaxub (vrt vra vrb : BitVec 5) : VmxPlain (.ppeVmaxub vrt vra vrb)
      vrt 8 16 fun th i => max (vU 8 vra i th) (vU 8 vrb i th)
  | vmaxsb (vrt vra vrb : BitVec 5) : VmxPlain (.ppeVmaxsb vrt vra vrb)
      vrt 8 16 fun th i => max (vS 8 vra i th) (vS 8 vrb i th)
  | vminub (vrt vra vrb : BitVec 5) : VmxPlain (.ppeVminub vrt vra vrb)
      vrt 8 16 fun th i => min (vU 8 vra i th) (vU 8 vrb i th)
  | vminsb (vrt vra vrb : BitVec 5) : VmxPlain (.ppeVminsb vrt vra vrb)
      vrt 8 16 fun th i => min (vS 8 vra i th) (vS 8 vrb i th)
  | vrlb (vrt vra vrb : BitVec 5) : VmxPlain (.ppeVrlb vrt vra vrb)
      vrt 8 16 fun th i => vU 8 vra i th * 2^(vU 8 vrb i th % 8).toNat + vU 8 vra i th / 2^(8 - (vU 8 vrb i th % 8).toNat)
  | vslb (vrt vra vrb : BitVec 5) : VmxPlain (.ppeVslb vrt vra vrb)
      vrt 8 16 fun th i => vU 8 vra i th * 2^(vU 8 vrb i th % 8).toNat
  | vsrb (vrt vra vrb : BitVec 5) : VmxPlain (.ppeVsrb vrt vra vrb)
      vrt 8 16 fun th i => vU 8 vra i th / 2^(vU 8 vrb i th % 8).toNat
  | vsrab (vrt vra vrb : BitVec 5) : VmxPlain (.ppeVsrab vrt vra vrb)
      vrt 8 16 fun th i => vS 8 vra i th / 2^(vU 8 vrb i th % 8).toNat
  | vmrghb (vrt vra vrb : BitVec 5) : VmxPlain (.ppeVmrghb vrt vra vrb)
      vrt 8 16 fun th i => if i % 2 = 0 then vU 8 vra (i / 2) th else vU 8 vrb (i / 2) th
  | vmrglb (vrt vra vrb : BitVec 5) : VmxPlain (.ppeVmrglb vrt vra vrb)
      vrt 8 16 fun th i => if i % 2 = 0 then vU 8 vra (i / 2 + 8) th else vU 8 vrb (i / 2 + 8) th
  | vspltb (vrt vrb uim : BitVec 5) : VmxPlain (.ppeVspltb vrt vrb uim) vrt 8 16 fun th _ => vU 8 vrb (uim.toNat % 16) th
  | vspltisb (vrt simm : BitVec 5) : VmxPlain (.ppeVspltisb vrt simm) vrt 8 16 fun _ _ => simm.toInt
  | vadduhm (vrt vra vrb : BitVec 5) : VmxPlain (.ppeVadduhm vrt vra vrb)
      vrt 16 8 fun th i => vU 16 vra i th + vU 16 vrb i th
  | vsubuhm (vrt vra vrb : BitVec 5) : VmxPlain (.ppeVsubuhm vrt vra vrb)
      vrt 16 8 fun th i => vU 16 vra i th - vU 16 vrb i th
  | vavguh (vrt vra vrb : BitVec 5) : VmxPlain (.ppeVavguh vrt vra vrb)
      vrt 16 8 fun th i => (vU 16 vra i th + vU 16 vrb i th + 1) / 2
  | vavgsh (vrt vra vrb : BitVec 5) : VmxPlain (.ppeVavgsh vrt vra vrb)
      vrt 16 8 fun th i => (vS 16 vra i th + vS 16 vrb i th + 1) / 2
  | vmaxuh (vrt vra vrb : BitVec 5) : VmxPlain (.ppeVmaxuh vrt vra vrb)
      vrt 16 8 fun th i => max (vU 16 vra i th) (vU 16 vrb i th)
  | vmaxsh (vrt vra vrb : BitVec 5) : VmxPlain (.ppeVmaxsh vrt vra vrb)
      vrt 16 8 fun th i => max (vS 16 vra i th) (vS 16 vrb i th)
  | vminuh (vrt vra vrb : BitVec 5) : VmxPlain (.ppeVminuh vrt vra vrb)
      vrt 16 8 fun th i => min (vU 16 vra i th) (vU 16 vrb i th)
  | vminsh (vrt vra vrb : BitVec 5) : VmxPlain (.ppeVminsh vrt vra vrb)
      vrt 16 8 fun th i => min (vS 16 vra i th) (vS 16 vrb i th)
  | vrlh (vrt vra vrb : BitVec 5) : VmxPlain (.ppeVrlh vrt vra vrb)
      vrt 16 8 fun th i => vU 16 vra i th * 2^(vU 16 vrb i th % 16).toNat + vU 16 vra i th / 2^(16 - (vU 16 vrb i th %
      16).toNat)
  | vslh (vrt vra vrb : BitVec 5) : VmxPlain (.ppeVslh vrt vra vrb)
      vrt 16 8 fun th i => vU 16 vra i th * 2^(vU 16 vrb i th % 16).toNat
  | vsrh (vrt vra vrb : BitVec 5) : VmxPlain (.ppeVsrh vrt vra vrb)
      vrt 16 8 fun th i => vU 16 vra i th / 2^(vU 16 vrb i th % 16).toNat
  | vsrah (vrt vra vrb : BitVec 5) : VmxPlain (.ppeVsrah vrt vra vrb)
      vrt 16 8 fun th i => vS 16 vra i th / 2^(vU 16 vrb i th % 16).toNat
  | vmrghh (vrt vra vrb : BitVec 5) : VmxPlain (.ppeVmrghh vrt vra vrb)
      vrt 16 8 fun th i => if i % 2 = 0 then vU 16 vra (i / 2) th else vU 16 vrb (i / 2) th
  | vmrglh (vrt vra vrb : BitVec 5) : VmxPlain (.ppeVmrglh vrt vra vrb)
      vrt 16 8 fun th i => if i % 2 = 0 then vU 16 vra (i / 2 + 4) th else vU 16 vrb (i / 2 + 4) th
  | vsplth (vrt vrb uim : BitVec 5) : VmxPlain (.ppeVsplth vrt vrb uim) vrt 16 8 fun th _ => vU 16 vrb (uim.toNat % 8) th
  | vspltish (vrt simm : BitVec 5) : VmxPlain (.ppeVspltish vrt simm) vrt 16 8 fun _ _ => simm.toInt
  | vadduwm (vrt vra vrb : BitVec 5) : VmxPlain (.ppeVadduwm vrt vra vrb)
      vrt 32 4 fun th i => vU 32 vra i th + vU 32 vrb i th
  | vsubuwm (vrt vra vrb : BitVec 5) : VmxPlain (.ppeVsubuwm vrt vra vrb)
      vrt 32 4 fun th i => vU 32 vra i th - vU 32 vrb i th
  | vavguw (vrt vra vrb : BitVec 5) : VmxPlain (.ppeVavguw vrt vra vrb)
      vrt 32 4 fun th i => (vU 32 vra i th + vU 32 vrb i th + 1) / 2
  | vavgsw (vrt vra vrb : BitVec 5) : VmxPlain (.ppeVavgsw vrt vra vrb)
      vrt 32 4 fun th i => (vS 32 vra i th + vS 32 vrb i th + 1) / 2
  | vmaxuw (vrt vra vrb : BitVec 5) : VmxPlain (.ppeVmaxuw vrt vra vrb)
      vrt 32 4 fun th i => max (vU 32 vra i th) (vU 32 vrb i th)
  | vmaxsw (vrt vra vrb : BitVec 5) : VmxPlain (.ppeVmaxsw vrt vra vrb)
      vrt 32 4 fun th i => max (vS 32 vra i th) (vS 32 vrb i th)
  | vminuw (vrt vra vrb : BitVec 5) : VmxPlain (.ppeVminuw vrt vra vrb)
      vrt 32 4 fun th i => min (vU 32 vra i th) (vU 32 vrb i th)
  | vminsw (vrt vra vrb : BitVec 5) : VmxPlain (.ppeVminsw vrt vra vrb)
      vrt 32 4 fun th i => min (vS 32 vra i th) (vS 32 vrb i th)
  | vrlw (vrt vra vrb : BitVec 5) : VmxPlain (.ppeVrlw vrt vra vrb)
      vrt 32 4 fun th i => vU 32 vra i th * 2^(vU 32 vrb i th % 32).toNat + vU 32 vra i th / 2^(32 - (vU 32 vrb i th %
      32).toNat)
  | vslw (vrt vra vrb : BitVec 5) : VmxPlain (.ppeVslw vrt vra vrb)
      vrt 32 4 fun th i => vU 32 vra i th * 2^(vU 32 vrb i th % 32).toNat
  | vsrw (vrt vra vrb : BitVec 5) : VmxPlain (.ppeVsrw vrt vra vrb)
      vrt 32 4 fun th i => vU 32 vra i th / 2^(vU 32 vrb i th % 32).toNat
  | vsraw (vrt vra vrb : BitVec 5) : VmxPlain (.ppeVsraw vrt vra vrb)
      vrt 32 4 fun th i => vS 32 vra i th / 2^(vU 32 vrb i th % 32).toNat
  | vmrghw (vrt vra vrb : BitVec 5) : VmxPlain (.ppeVmrghw vrt vra vrb)
      vrt 32 4 fun th i => if i % 2 = 0 then vU 32 vra (i / 2) th else vU 32 vrb (i / 2) th
  | vmrglw (vrt vra vrb : BitVec 5) : VmxPlain (.ppeVmrglw vrt vra vrb)
      vrt 32 4 fun th i => if i % 2 = 0 then vU 32 vra (i / 2 + 2) th else vU 32 vrb (i / 2 + 2) th
  | vspltw (vrt vrb uim : BitVec 5) : VmxPlain (.ppeVspltw vrt vrb uim) vrt 32 4 fun th _ => vU 32 vrb (uim.toNat % 4) th
  | vspltisw (vrt simm : BitVec 5) : VmxPlain (.ppeVspltisw vrt simm) vrt 32 4 fun _ _ => simm.toInt
  | vaddcuw (vrt vra vrb : BitVec 5) : VmxPlain (.ppeVaddcuw vrt vra vrb)
      vrt 32 4 fun th i => (vU 32 vra i th + vU 32 vrb i th) / 2^32
  | vsubcuw (vrt vra vrb : BitVec 5) : VmxPlain (.ppeVsubcuw vrt vra vrb)
      vrt 32 4 fun th i => if vU 32 vrb i th ≤ vU 32 vra i th then 1 else 0
  | vmuleub (vrt vra vrb : BitVec 5) : VmxPlain (.ppeVmuleub vrt vra vrb)
      vrt 16 8 fun th i => vU 8 vra (2 * i) th * vU 8 vrb (2 * i) th
  | vmulesb (vrt vra vrb : BitVec 5) : VmxPlain (.ppeVmulesb vrt vra vrb)
      vrt 16 8 fun th i => vS 8 vra (2 * i) th * vS 8 vrb (2 * i) th
  | vmuleuh (vrt vra vrb : BitVec 5) : VmxPlain (.ppeVmuleuh vrt vra vrb)
      vrt 32 4 fun th i => vU 16 vra (2 * i) th * vU 16 vrb (2 * i) th
  | vmulesh (vrt vra vrb : BitVec 5) : VmxPlain (.ppeVmulesh vrt vra vrb)
      vrt 32 4 fun th i => vS 16 vra (2 * i) th * vS 16 vrb (2 * i) th
  | vmuloub (vrt vra vrb : BitVec 5) : VmxPlain (.ppeVmuloub vrt vra vrb)
      vrt 16 8 fun th i => vU 8 vra (2 * i + 1) th * vU 8 vrb (2 * i + 1) th
  | vmulosb (vrt vra vrb : BitVec 5) : VmxPlain (.ppeVmulosb vrt vra vrb)
      vrt 16 8 fun th i => vS 8 vra (2 * i + 1) th * vS 8 vrb (2 * i + 1) th
  | vmulouh (vrt vra vrb : BitVec 5) : VmxPlain (.ppeVmulouh vrt vra vrb)
      vrt 32 4 fun th i => vU 16 vra (2 * i + 1) th * vU 16 vrb (2 * i + 1) th
  | vmulosh (vrt vra vrb : BitVec 5) : VmxPlain (.ppeVmulosh vrt vra vrb)
      vrt 32 4 fun th i => vS 16 vra (2 * i + 1) th * vS 16 vrb (2 * i + 1) th
  | vmladduhm (vrt vra vrb vrc : BitVec 5) : VmxPlain (.ppeVmladduhm vrt vra vrb vrc)
      vrt 16 8 fun th i => vU 16 vra i th * vU 16 vrb i th + vU 16 vrc i th
  | vmsumubm (vrt vra vrb vrc : BitVec 5) : VmxPlain (.ppeVmsumubm vrt vra vrb vrc)
      vrt 32 4 fun th i => vU 32 vrc i th + (vU 8 vra (4 * i) th * vU 8 vrb (4 * i) th + vU 8 vra (4 * i + 1) th * vU 8 vrb
      (4 * i + 1) th + vU 8 vra (4 * i + 2) th * vU 8 vrb (4 * i + 2) th + vU 8 vra (4 * i + 3) th * vU 8 vrb (4 * i + 3)
      th)
  | vmsummbm (vrt vra vrb vrc : BitVec 5) : VmxPlain (.ppeVmsummbm vrt vra vrb vrc)
      vrt 32 4 fun th i => vS 32 vrc i th + (vS 8 vra (4 * i) th * vU 8 vrb (4 * i) th + vS 8 vra (4 * i + 1) th * vU 8 vrb
      (4 * i + 1) th + vS 8 vra (4 * i + 2) th * vU 8 vrb (4 * i + 2) th + vS 8 vra (4 * i + 3) th * vU 8 vrb (4 * i + 3)
      th)
  | vmsumuhm (vrt vra vrb vrc : BitVec 5) : VmxPlain (.ppeVmsumuhm vrt vra vrb vrc)
      vrt 32 4 fun th i => vU 32 vrc i th + (vU 16 vra (2 * i) th * vU 16 vrb (2 * i) th + vU 16 vra (2 * i + 1) th * vU 16
      vrb (2 * i + 1) th)
  | vmsumshm (vrt vra vrb vrc : BitVec 5) : VmxPlain (.ppeVmsumshm vrt vra vrb vrc)
      vrt 32 4 fun th i => vS 32 vrc i th + (vS 16 vra (2 * i) th * vS 16 vrb (2 * i) th + vS 16 vra (2 * i + 1) th * vS 16
      vrb (2 * i + 1) th)
  | vpkuhum (vrt vra vrb : BitVec 5) : VmxPlain (.ppeVpkuhum vrt vra vrb) vrt 8 16 fun th i => vPair 16 vra vrb i th
  | vpkuwum (vrt vra vrb : BitVec 5) : VmxPlain (.ppeVpkuwum vrt vra vrb) vrt 16 8 fun th i => vPair 32 vra vrb i th
  | vpkpx (vrt vra vrb : BitVec 5) : VmxPlain (.ppeVpkpx vrt vra vrb)
      vrt 16 8 fun th i => (vPair 32 vra vrb i th / 2^24 % 2) * 2^15 + (vPair 32 vra vrb i th / 2^19 % 32) * 2^10 + (vPair
      32 vra vrb i th / 2^11 % 32) * 2^5 + vPair 32 vra vrb i th / 2^3 % 32
  | vupkhsb (vrt vrb : BitVec 5) : VmxPlain (.ppeVupkhsb vrt vrb) vrt 16 8 fun th i => vS 8 vrb i th
  | vupkhsh (vrt vrb : BitVec 5) : VmxPlain (.ppeVupkhsh vrt vrb) vrt 32 4 fun th i => vS 16 vrb i th
  | vupkhpx (vrt vrb : BitVec 5) : VmxPlain (.ppeVupkhpx vrt vrb)
      vrt 32 4 fun th i => (if 2^15 ≤ vU 16 vrb i th then 255 * 2^24 else 0) + (vU 16 vrb i th / 2^10 % 32) * 2^16 + (vU 16
      vrb i th / 2^5 % 32) * 2^8 + vU 16 vrb i th % 32
  | vupklsb (vrt vrb : BitVec 5) : VmxPlain (.ppeVupklsb vrt vrb) vrt 16 8 fun th i => vS 8 vrb (i + 8) th
  | vupklsh (vrt vrb : BitVec 5) : VmxPlain (.ppeVupklsh vrt vrb) vrt 32 4 fun th i => vS 16 vrb (i + 4) th
  | vupklpx (vrt vrb : BitVec 5) : VmxPlain (.ppeVupklpx vrt vrb)
      vrt 32 4 fun th i => (if 2^15 ≤ vU 16 vrb (i + 4) th then 255 * 2^24 else 0) + (vU 16 vrb (i + 4) th / 2^10 % 32) *
      2^16 + (vU 16 vrb (i + 4) th / 2^5 % 32) * 2^8 + vU 16 vrb (i + 4) th % 32
  | vand (vrt vra vrb : BitVec 5) : VmxPlain (.ppeVand vrt vra vrb) vrt 1 128 fun th i => vU 1 vra i th * vU 1 vrb i th
  | vandc (vrt vra vrb : BitVec 5) : VmxPlain (.ppeVandc vrt vra vrb)
      vrt 1 128 fun th i => vU 1 vra i th * (1 - vU 1 vrb i th)
  | vor (vrt vra vrb : BitVec 5) : VmxPlain (.ppeVor vrt vra vrb) vrt 1 128 fun th i => max (vU 1 vra i th) (vU 1 vrb i th)
  | vxor (vrt vra vrb : BitVec 5) : VmxPlain (.ppeVxor vrt vra vrb) vrt 1 128 fun th i => vU 1 vra i th + vU 1 vrb i th
  | vnor (vrt vra vrb : BitVec 5) : VmxPlain (.ppeVnor vrt vra vrb)
      vrt 1 128 fun th i => (1 - vU 1 vra i th) * (1 - vU 1 vrb i th)
  | vsel (vrt vra vrb vrc : BitVec 5) : VmxPlain (.ppeVsel vrt vra vrb vrc)
      vrt 1 128 fun th i => if vU 1 vrc i th = 1 then vU 1 vrb i th else vU 1 vra i th
  | vperm (vrt vra vrb vrc : BitVec 5) : VmxPlain (.ppeVperm vrt vra vrb vrc)
      vrt 8 16 fun th i => vPair 8 vra vrb (vU 8 vrc i th % 32).toNat th
  | vsldoi (vrt vra vrb : BitVec 5) (shb : BitVec 4) : VmxPlain (.ppeVsldoi vrt vra vrb shb)
      vrt 8 16 fun th i => vPair 8 vra vrb (shb.toNat + i) th
  | vslo (vrt vra vrb : BitVec 5) : VmxPlain (.ppeVslo vrt vra vrb)
      vrt 8 16 fun th i => if i + ((th.getVr vrb).toNat / 8 % 16) < 16 then vU 8 vra (i + ((th.getVr vrb).toNat / 8 % 16))
      th else 0
  | vsro (vrt vra vrb : BitVec 5) : VmxPlain (.ppeVsro vrt vra vrb)
      vrt 8 16 fun th i => if ((th.getVr vrb).toNat / 8 % 16) ≤ i then vU 8 vra (i - ((th.getVr vrb).toNat / 8 % 16)) th
      else 0
  | lvsl (vrt ra rb : BitVec 5) : VmxPlain (.ppeLvsl vrt ra rb) vrt 8 16 fun th i => ((eaX ra rb th).toNat % 16 : Int) + i
  | lvsr (vrt ra rb : BitVec 5) : VmxPlain (.ppeLvsr vrt ra rb)
      vrt 8 16 fun th i => 16 - ((eaX ra rb th).toNat % 16 : Int) + i
  | mfvscr (vrt : BitVec 5) : VmxPlain (.ppeMfvscr vrt) vrt 128 1 fun th _ => th.vscr.toNat

/-- The saturating vector instructions: destination, bits of an element, number of elements, whether the bounds are signed, the
exact value of each element (R1049 to R1054, R1105 to R1120, R1161, R1162, R1167, R1169 to R1174). -/
inductive VmxSaturating : Instr → BitVec 5 → Nat → Nat → Bool → (Thread → Nat → Int) → Prop
  | vaddubs (vrt vra vrb : BitVec 5) : VmxSaturating (.ppeVaddubs vrt vra vrb)
      vrt 8 16 false fun th i => vU 8 vra i th + vU 8 vrb i th
  | vaddsbs (vrt vra vrb : BitVec 5) : VmxSaturating (.ppeVaddsbs vrt vra vrb)
      vrt 8 16 true fun th i => vS 8 vra i th + vS 8 vrb i th
  | vsububs (vrt vra vrb : BitVec 5) : VmxSaturating (.ppeVsububs vrt vra vrb)
      vrt 8 16 false fun th i => vU 8 vra i th - vU 8 vrb i th
  | vsubsbs (vrt vra vrb : BitVec 5) : VmxSaturating (.ppeVsubsbs vrt vra vrb)
      vrt 8 16 true fun th i => vS 8 vra i th - vS 8 vrb i th
  | vadduhs (vrt vra vrb : BitVec 5) : VmxSaturating (.ppeVadduhs vrt vra vrb)
      vrt 16 8 false fun th i => vU 16 vra i th + vU 16 vrb i th
  | vaddshs (vrt vra vrb : BitVec 5) : VmxSaturating (.ppeVaddshs vrt vra vrb)
      vrt 16 8 true fun th i => vS 16 vra i th + vS 16 vrb i th
  | vsubuhs (vrt vra vrb : BitVec 5) : VmxSaturating (.ppeVsubuhs vrt vra vrb)
      vrt 16 8 false fun th i => vU 16 vra i th - vU 16 vrb i th
  | vsubshs (vrt vra vrb : BitVec 5) : VmxSaturating (.ppeVsubshs vrt vra vrb)
      vrt 16 8 true fun th i => vS 16 vra i th - vS 16 vrb i th
  | vadduws (vrt vra vrb : BitVec 5) : VmxSaturating (.ppeVadduws vrt vra vrb)
      vrt 32 4 false fun th i => vU 32 vra i th + vU 32 vrb i th
  | vaddsws (vrt vra vrb : BitVec 5) : VmxSaturating (.ppeVaddsws vrt vra vrb)
      vrt 32 4 true fun th i => vS 32 vra i th + vS 32 vrb i th
  | vsubuws (vrt vra vrb : BitVec 5) : VmxSaturating (.ppeVsubuws vrt vra vrb)
      vrt 32 4 false fun th i => vU 32 vra i th - vU 32 vrb i th
  | vsubsws (vrt vra vrb : BitVec 5) : VmxSaturating (.ppeVsubsws vrt vra vrb)
      vrt 32 4 true fun th i => vS 32 vra i th - vS 32 vrb i th
  | vpkuhus (vrt vra vrb : BitVec 5) : VmxSaturating (.ppeVpkuhus vrt vra vrb)
      vrt 8 16 false fun th i => vPair 16 vra vrb i th
  | vpkshus (vrt vra vrb : BitVec 5) : VmxSaturating (.ppeVpkshus vrt vra vrb)
      vrt 8 16 false fun th i => vPairS 16 vra vrb i th
  | vpkshss (vrt vra vrb : BitVec 5) : VmxSaturating (.ppeVpkshss vrt vra vrb)
      vrt 8 16 true fun th i => vPairS 16 vra vrb i th
  | vpkuwus (vrt vra vrb : BitVec 5) : VmxSaturating (.ppeVpkuwus vrt vra vrb)
      vrt 16 8 false fun th i => vPair 32 vra vrb i th
  | vpkswus (vrt vra vrb : BitVec 5) : VmxSaturating (.ppeVpkswus vrt vra vrb)
      vrt 16 8 false fun th i => vPairS 32 vra vrb i th
  | vpkswss (vrt vra vrb : BitVec 5) : VmxSaturating (.ppeVpkswss vrt vra vrb)
      vrt 16 8 true fun th i => vPairS 32 vra vrb i th
  | vmhaddshs (vrt vra vrb vrc : BitVec 5) : VmxSaturating (.ppeVmhaddshs vrt vra vrb vrc)
      vrt 16 8 true fun th i => vS 16 vra i th * vS 16 vrb i th / 2^15 + vS 16 vrc i th
  | vmhraddshs (vrt vra vrb vrc : BitVec 5) : VmxSaturating (.ppeVmhraddshs vrt vra vrb vrc)
      vrt 16 8 true fun th i => (vS 16 vra i th * vS 16 vrb i th + 2^14) / 2^15 + vS 16 vrc i th
  | vmsumuhs (vrt vra vrb vrc : BitVec 5) : VmxSaturating (.ppeVmsumuhs vrt vra vrb vrc)
      vrt 32 4 false fun th i => vU 32 vrc i th + (vU 16 vra (2 * i) th * vU 16 vrb (2 * i) th + vU 16 vra (2 * i + 1) th *
      vU 16 vrb (2 * i + 1) th)
  | vmsumshs (vrt vra vrb vrc : BitVec 5) : VmxSaturating (.ppeVmsumshs vrt vra vrb vrc)
      vrt 32 4 true fun th i => vS 32 vrc i th + (vS 16 vra (2 * i) th * vS 16 vrb (2 * i) th + vS 16 vra (2 * i + 1) th *
      vS 16 vrb (2 * i + 1) th)
  | vsum4ubs (vrt vra vrb : BitVec 5) : VmxSaturating (.ppeVsum4ubs vrt vra vrb)
      vrt 32 4 false fun th i => vU 32 vrb i th + (vU 8 vra (4 * i) th + vU 8 vra (4 * i + 1) th + vU 8 vra (4 * i + 2) th
      + vU 8 vra (4 * i + 3) th)
  | vsum4sbs (vrt vra vrb : BitVec 5) : VmxSaturating (.ppeVsum4sbs vrt vra vrb)
      vrt 32 4 true fun th i => vS 32 vrb i th + (vS 8 vra (4 * i) th + vS 8 vra (4 * i + 1) th + vS 8 vra (4 * i + 2) th +
      vS 8 vra (4 * i + 3) th)
  | vsum4shs (vrt vra vrb : BitVec 5) : VmxSaturating (.ppeVsum4shs vrt vra vrb)
      vrt 32 4 true fun th i => vS 32 vrb i th + (vS 16 vra (2 * i) th + vS 16 vra (2 * i + 1) th)
  | vsum2sws (vrt vra vrb : BitVec 5) : VmxSaturating (.ppeVsum2sws vrt vra vrb)
      vrt 32 4 true fun th i => if i % 2 = 1 then vS 32 vrb i th + (vS 32 vra (i - 1) th + vS 32 vra i th) else 0
  | vsumsws (vrt vra vrb : BitVec 5) : VmxSaturating (.ppeVsumsws vrt vra vrb)
      vrt 32 4 true fun th i => if i = 3 then vS 32 vrb i th + (vS 32 vra 0 th + vS 32 vra 1 th + vS 32 vra 2 th + vS 32
      vra 3 th) else 0

/-- The bounds of saturation. -/
def satLow (len : Nat) (signed : Bool) : Int := if signed then -2^(len - 1) else 0
def satHigh (len : Nat) (signed : Bool) : Int := if signed then 2^(len - 1) - 1 else 2^len - 1

/-- The integer compares: destination, Rc, bits of an element, number of elements, relation (R1140 to R1151). -/
inductive VmxCompare : Instr → BitVec 5 → Bool → Nat → Nat → (Thread → Nat → Bool) → Prop
  | vcmpequb (vrt vra vrb : BitVec 5) (rec : Bool) : VmxCompare (.ppeVcmpequb vrt vra vrb rec)
      vrt rec 8 16 fun th i => decide (vU 8 vra i th = vU 8 vrb i th)
  | vcmpgtub (vrt vra vrb : BitVec 5) (rec : Bool) : VmxCompare (.ppeVcmpgtub vrt vra vrb rec)
      vrt rec 8 16 fun th i => decide (vU 8 vrb i th < vU 8 vra i th)
  | vcmpgtsb (vrt vra vrb : BitVec 5) (rec : Bool) : VmxCompare (.ppeVcmpgtsb vrt vra vrb rec)
      vrt rec 8 16 fun th i => decide (vS 8 vrb i th < vS 8 vra i th)
  | vcmpequh (vrt vra vrb : BitVec 5) (rec : Bool) : VmxCompare (.ppeVcmpequh vrt vra vrb rec)
      vrt rec 16 8 fun th i => decide (vU 16 vra i th = vU 16 vrb i th)
  | vcmpgtuh (vrt vra vrb : BitVec 5) (rec : Bool) : VmxCompare (.ppeVcmpgtuh vrt vra vrb rec)
      vrt rec 16 8 fun th i => decide (vU 16 vrb i th < vU 16 vra i th)
  | vcmpgtsh (vrt vra vrb : BitVec 5) (rec : Bool) : VmxCompare (.ppeVcmpgtsh vrt vra vrb rec)
      vrt rec 16 8 fun th i => decide (vS 16 vrb i th < vS 16 vra i th)
  | vcmpequw (vrt vra vrb : BitVec 5) (rec : Bool) : VmxCompare (.ppeVcmpequw vrt vra vrb rec)
      vrt rec 32 4 fun th i => decide (vU 32 vra i th = vU 32 vrb i th)
  | vcmpgtuw (vrt vra vrb : BitVec 5) (rec : Bool) : VmxCompare (.ppeVcmpgtuw vrt vra vrb rec)
      vrt rec 32 4 fun th i => decide (vU 32 vrb i th < vU 32 vra i th)
  | vcmpgtsw (vrt vra vrb : BitVec 5) (rec : Bool) : VmxCompare (.ppeVcmpgtsw vrt vra vrb rec)
      vrt rec 32 4 fun th i => decide (vS 32 vrb i th < vS 32 vra i th)

/-- The floating-point vector instructions: destination, the registers whose NaN elements pass to the result, the bits of VSCR
and of CR that may change (R1143, R1144, R1148, R1152, R1200 to R1217). -/
inductive VmxFloat : Instr → BitVec 5 → List (BitVec 5) → Word → Word → Prop
  | vaddfp (vrt vra vrb : BitVec 5) : VmxFloat (.ppeVaddfp vrt vra vrb) vrt [vra, vrb] 0 0
  | vsubfp (vrt vra vrb : BitVec 5) : VmxFloat (.ppeVsubfp vrt vra vrb) vrt [vra, vrb] 0 0
  | vmaxfp (vrt vra vrb : BitVec 5) : VmxFloat (.ppeVmaxfp vrt vra vrb) vrt [vra, vrb] 0 0
  | vminfp (vrt vra vrb : BitVec 5) : VmxFloat (.ppeVminfp vrt vra vrb) vrt [vra, vrb] 0 0
  | vmaddfp (vrt vra vrb vrc : BitVec 5) : VmxFloat (.ppeVmaddfp vrt vra vrb vrc) vrt [vra, vrb, vrc] 0 0
  | vnmsubfp (vrt vra vrb vrc : BitVec 5) : VmxFloat (.ppeVnmsubfp vrt vra vrb vrc) vrt [vra, vrb, vrc] 0 0
  | vrefp (vrt vrb : BitVec 5) : VmxFloat (.ppeVrefp vrt vrb) vrt [vrb] 0 0
  | vrsqrtefp (vrt vrb : BitVec 5) : VmxFloat (.ppeVrsqrtefp vrt vrb) vrt [vrb] 0 0
  | vlogefp (vrt vrb : BitVec 5) : VmxFloat (.ppeVlogefp vrt vrb) vrt [vrb] 0 0
  | vexptefp (vrt vrb : BitVec 5) : VmxFloat (.ppeVexptefp vrt vrb) vrt [vrb] 0 0
  | vrfin (vrt vrb : BitVec 5) : VmxFloat (.ppeVrfin vrt vrb) vrt [vrb] 0 0
  | vrfiz (vrt vrb : BitVec 5) : VmxFloat (.ppeVrfiz vrt vrb) vrt [vrb] 0 0
  | vrfip (vrt vrb : BitVec 5) : VmxFloat (.ppeVrfip vrt vrb) vrt [vrb] 0 0
  | vrfim (vrt vrb : BitVec 5) : VmxFloat (.ppeVrfim vrt vrb) vrt [vrb] 0 0
  | vcfux (vrt vrb uim : BitVec 5) : VmxFloat (.ppeVcfux vrt vrb uim) vrt [] 0 0
  | vcfsx (vrt vrb uim : BitVec 5) : VmxFloat (.ppeVcfsx vrt vrb uim) vrt [] 0 0
  | vctuxs (vrt vrb uim : BitVec 5) : VmxFloat (.ppeVctuxs vrt vrb uim) vrt [] 1 0
  | vctsxs (vrt vrb uim : BitVec 5) : VmxFloat (.ppeVctsxs vrt vrb uim) vrt [] 1 0
  | vcmpeqfp (vrt vra vrb : BitVec 5) (rec : Bool) : VmxFloat (.ppeVcmpeqfp vrt vra vrb rec)
      vrt [] 0 (if rec then crFieldMask 6 else 0)
  | vcmpgefp (vrt vra vrb : BitVec 5) (rec : Bool) : VmxFloat (.ppeVcmpgefp vrt vra vrb rec)
      vrt [] 0 (if rec then crFieldMask 6 else 0)
  | vcmpgtfp (vrt vra vrb : BitVec 5) (rec : Bool) : VmxFloat (.ppeVcmpgtfp vrt vra vrb rec)
      vrt [] 0 (if rec then crFieldMask 6 else 0)
  | vcmpbfp (vrt vra vrb : BitVec 5) (rec : Bool) : VmxFloat (.ppeVcmpbfp vrt vra vrb rec)
      vrt [] 0 (if rec then crFieldMask 6 else 0)

/-- Compares of words in Java mode: destination, Rc, relation of the keys (R1143, R1144, R1148). -/
inductive VmxOrder : Instr → BitVec 5 → BitVec 5 → BitVec 5 → Bool → (Int → Int → Bool) → Prop
  | eq (vrt vra vrb : BitVec 5) (rec : Bool) : VmxOrder (.ppeVcmpeqfp vrt vra vrb rec) vrt vra vrb rec
      fun a b => decide (a = b)
  | ge (vrt vra vrb : BitVec 5) (rec : Bool) : VmxOrder (.ppeVcmpgefp vrt vra vrb rec) vrt vra vrb rec
      fun a b => decide (b ≤ a)
  | gt (vrt vra vrb : BitVec 5) (rec : Bool) : VmxOrder (.ppeVcmpgtfp vrt vra vrb rec) vrt vra vrb rec
      fun a b => decide (b < a)

/-- The data-stream instructions, without effect (R1024 to R1029). -/
inductive DataStream : Instr → Prop
  | dst (strm : BitVec 2) (ra rb : BitVec 5) : DataStream (.ppeDst strm ra rb)
  | dstt (strm : BitVec 2) (ra rb : BitVec 5) : DataStream (.ppeDstt strm ra rb)
  | dstst (strm : BitVec 2) (ra rb : BitVec 5) : DataStream (.ppeDstst strm ra rb)
  | dststt (strm : BitVec 2) (ra rb : BitVec 5) : DataStream (.ppeDststt strm ra rb)
  | dss (strm : BitVec 2) : DataStream (.ppeDss strm)
  | dssall : DataStream .ppeDssall

/-- What a vector load or store accesses (20_memory R355). -/
inductive VectorPart where
  | quad
  | element (n : Nat)
  | left
  | right
deriving DecidableEq, Repr

/-- First address, number of bytes, and the byte of the register that the first one is. -/
def VectorPart.base (v : VectorPart) (ea : DWord) : DWord :=
  match v with
  | .quad => ea / 16 * 16
  | .element n => ea / BitVec.ofNat 64 n * BitVec.ofNat 64 n
  | .left => ea
  | .right => ea / 16 * 16
def VectorPart.len (v : VectorPart) (ea : DWord) : Nat :=
  match v with
  | .quad => 16
  | .element n => n
  | .left => 16 - ea.toNat % 16
  | .right => ea.toNat % 16
def VectorPart.pos (v : VectorPart) (ea : DWord) : Nat :=
  match v with
  | .quad => 0
  | .element n => ea.toNat % 16 / n * n
  | .left => 0
  | .right => 16 - ea.toNat % 16
/-- The alignment that the access needs (60_exceptions R1827 item 10; that an element or a quadword needs none, R1002). -/
def VectorPart.alignment (v : VectorPart) : Alignment :=
  match v with
  | .quad => .none
  | .element _ => .none
  | .left => .vectorPart
  | .right => .vectorPart

/-- The vector loads (R1003 to R1011). -/
inductive VectorLoad : Instr → BitVec 5 → BitVec 5 → BitVec 5 → VectorPart → Prop
  | lvx (vrt ra rb : BitVec 5) : VectorLoad (.ppeLvx vrt ra rb) vrt ra rb .quad
  | lvxl (vrt ra rb : BitVec 5) : VectorLoad (.ppeLvxl vrt ra rb) vrt ra rb .quad
  | lvebx (vrt ra rb : BitVec 5) : VectorLoad (.ppeLvebx vrt ra rb) vrt ra rb (.element 1)
  | lvehx (vrt ra rb : BitVec 5) : VectorLoad (.ppeLvehx vrt ra rb) vrt ra rb (.element 2)
  | lvewx (vrt ra rb : BitVec 5) : VectorLoad (.ppeLvewx vrt ra rb) vrt ra rb (.element 4)
  | lvlx (vrt ra rb : BitVec 5) : VectorLoad (.ppeLvlx vrt ra rb) vrt ra rb .left
  | lvlxl (vrt ra rb : BitVec 5) : VectorLoad (.ppeLvlxl vrt ra rb) vrt ra rb .left
  | lvrx (vrt ra rb : BitVec 5) : VectorLoad (.ppeLvrx vrt ra rb) vrt ra rb .right
  | lvrxl (vrt ra rb : BitVec 5) : VectorLoad (.ppeLvrxl vrt ra rb) vrt ra rb .right

/-- The vector stores (R1014 to R1022). -/
inductive VectorStore : Instr → BitVec 5 → BitVec 5 → BitVec 5 → VectorPart → Prop
  | stvx (vrs ra rb : BitVec 5) : VectorStore (.ppeStvx vrs ra rb) vrs ra rb .quad
  | stvxl (vrs ra rb : BitVec 5) : VectorStore (.ppeStvxl vrs ra rb) vrs ra rb .quad
  | stvebx (vrs ra rb : BitVec 5) : VectorStore (.ppeStvebx vrs ra rb) vrs ra rb (.element 1)
  | stvehx (vrs ra rb : BitVec 5) : VectorStore (.ppeStvehx vrs ra rb) vrs ra rb (.element 2)
  | stvewx (vrs ra rb : BitVec 5) : VectorStore (.ppeStvewx vrs ra rb) vrs ra rb (.element 4)
  | stvlx (vrs ra rb : BitVec 5) : VectorStore (.ppeStvlx vrs ra rb) vrs ra rb .left
  | stvlxl (vrs ra rb : BitVec 5) : VectorStore (.ppeStvlxl vrs ra rb) vrs ra rb .left
  | stvrx (vrs ra rb : BitVec 5) : VectorStore (.ppeStvrx vrs ra rb) vrs ra rb .right
  | stvrxl (vrs ra rb : BitVec 5) : VectorStore (.ppeStvrxl vrs ra rb) vrs ra rb .right

/-- Every instruction that MSR[VXU] = 0 makes unavailable (R1000). -/
inductive UsesVectors : Instr → Prop
  | plain (i vrt len cnt f) (h : VmxPlain i vrt len cnt f) : UsesVectors i
  | saturating (i vrt len cnt sg f) (h : VmxSaturating i vrt len cnt sg f) : UsesVectors i
  | compare (i vrt rec len cnt f) (h : VmxCompare i vrt rec len cnt f) : UsesVectors i
  | float (i vrt regs v c) (h : VmxFloat i vrt regs v c) : UsesVectors i
  | stream (i) (h : DataStream i) : UsesVectors i
  | vsl (vrt vra vrb : BitVec 5) : UsesVectors (.ppeVsl vrt vra vrb)
  | vsr (vrt vra vrb : BitVec 5) : UsesVectors (.ppeVsr vrt vra vrb)
  | mtvscr (vrb : BitVec 5) : UsesVectors (.ppeMtvscr vrb)
  | load (i vrt ra rb v) (h : VectorLoad i vrt ra rb v) : UsesVectors i
  | store (i vrs ra rb v) (h : VectorStore i vrs ra rb v) : UsesVectors i

/-! ## The SPU (46_spu_loadstore_const, 47_spu_integer, 47_spu_shift_rotate, 48_spu_compare_branch, 48_spu_float) -/

/-- Elements of SPU registers, as numbers and as images. -/
def sU (len : Nat) (r : BitVec 7) (i : Nat) (p : Spe) : Int := element len (p.get r) i
def sS (len : Nat) (r : BitVec 7) (i : Nat) (p : Spe) : Int := signedElement len (p.get r) i
def sW (r : BitVec 7) (i : Nat) (p : Spe) : Word := BitVec.ofNat 32 (element 32 (p.get r) i)
def sD (r : BitVec 7) (i : Nat) (p : Spe) : DWord := BitVec.ofNat 64 (element 64 (p.get r) i)

/-- The next sequential address of an SPU (11_state_spe R152). -/
def spuFollowing (p : Spe) : Word := (p.pc + 4) &&& p.lslr

/-- Instruction `i` of the SPU completes in state `s`: it goes on at the next instruction, writes at most register `rt` and the
bits `m` of FPSCR, and the next state meets `P`. -/
def CompletesSpu (i : Instr) (s : State) (rt : Option (BitVec 7)) (m : QWord) (P : State → Prop) : Prop :=
  ∃ t, Machine.exec i s = .next t ∧ OnlySpe s t ∧ (∀ r, rt ≠ some r → t.spe.get r = s.spe.get r) ∧
    t.spe.fpscr &&& ~~~m = s.spe.fpscr &&& ~~~m ∧
    { t.spe with regs := s.spe.regs, pc := s.spe.pc, fpscr := s.spe.fpscr } = s.spe ∧
    t.spe.pc = spuFollowing s.spe ∧ P t

/-- Byte `k` of the control that inserts `w` bytes, from byte `first` of the scalar on, at address `a` (R1231). -/
def insertionByte (w first a k : Nat) : Int :=
  let t := a % 16 / w * w
  if t ≤ k ∧ k < t + w then (first + (k - t) : Nat) else (16 + k : Nat)

/-- The channels that have a count, and those that never block (11_state_spe R159, R160). -/
def countedChannels : List Nat := [0, 3, 4, 9, 21, 23, 24, 25, 27, 28, 29, 30]
def freeChannels : List Nat := [1, 2, 7, 8, 11, 12, 13, 14, 15, 16, 17, 18, 19, 20, 22, 26]

/-- What `rchcnt` reads (49_spu_control_channel R1562). -/
def channelCount (p : Spe) (ch : Nat) : Int :=
  if ch ∈ countedChannels then (p.cnt[ch]?.getD 0).toNat else if ch ∈ freeChannels then 1 else 0

/-- The SPU instructions that only compute a register: destination, bits of an element, number of elements, and a number that
each element of the result is congruent to (R1231 to R1245, R1261 to R1330, R1351 to R1381, R1410 to R1429, R1540, R1562, R1575). -/
inductive SpuPlain : Instr → BitVec 7 → Nat → Nat → (Spe → Nat → Int) → Prop
  | ah (rt ra rb : BitVec 7) : SpuPlain (.spuAh rt ra rb) rt 16 8 fun p i => sU 16 ra i p + sU 16 rb i p
  | ahi (rt ra : BitVec 7) (i10 : BitVec 10) : SpuPlain (.spuAhi rt ra i10) rt 16 8 fun p i => sU 16 ra i p + i10.toInt
  | sfh (rt ra rb : BitVec 7) : SpuPlain (.spuSfh rt ra rb) rt 16 8 fun p i => sU 16 rb i p - sU 16 ra i p
  | sfhi (rt ra : BitVec 7) (i10 : BitVec 10) : SpuPlain (.spuSfhi rt ra i10) rt 16 8 fun p i => i10.toInt - sU 16 ra i p
  | a (rt ra rb : BitVec 7) : SpuPlain (.spuA rt ra rb) rt 32 4 fun p i => sU 32 ra i p + sU 32 rb i p
  | ai (rt ra : BitVec 7) (i10 : BitVec 10) : SpuPlain (.spuAi rt ra i10) rt 32 4 fun p i => sU 32 ra i p + i10.toInt
  | sf (rt ra rb : BitVec 7) : SpuPlain (.spuSf rt ra rb) rt 32 4 fun p i => sU 32 rb i p - sU 32 ra i p
  | sfi (rt ra : BitVec 7) (i10 : BitVec 10) : SpuPlain (.spuSfi rt ra i10) rt 32 4 fun p i => i10.toInt - sU 32 ra i p
  | addx (rt ra rb : BitVec 7) : SpuPlain (.spuAddx rt ra rb)
      rt 32 4 fun p i => sU 32 ra i p + sU 32 rb i p + sU 32 rt i p % 2
  | cg (rt ra rb : BitVec 7) : SpuPlain (.spuCg rt ra rb) rt 32 4 fun p i => (sU 32 ra i p + sU 32 rb i p) / 2^32
  | cgx (rt ra rb : BitVec 7) : SpuPlain (.spuCgx rt ra rb)
      rt 32 4 fun p i => (sU 32 ra i p + sU 32 rb i p + sU 32 rt i p % 2) / 2^32
  | sfx (rt ra rb : BitVec 7) : SpuPlain (.spuSfx rt ra rb)
      rt 32 4 fun p i => (2^32 - 1 - sU 32 ra i p) + sU 32 rb i p + sU 32 rt i p % 2
  | bg (rt ra rb : BitVec 7) : SpuPlain (.spuBg rt ra rb) rt 32 4 fun p i => if sU 32 ra i p ≤ sU 32 rb i p then 1 else 0
  | bgx (rt ra rb : BitVec 7) : SpuPlain (.spuBgx rt ra rb)
      rt 32 4 fun p i => ((2^32 - 1 - sU 32 ra i p) + sU 32 rb i p + sU 32 rt i p % 2) / 2^32
  | mpy (rt ra rb : BitVec 7) : SpuPlain (.spuMpy rt ra rb)
      rt 32 4 fun p i => sS 16 ra (2 * i + 1) p * sS 16 rb (2 * i + 1) p
  | mpyu (rt ra rb : BitVec 7) : SpuPlain (.spuMpyu rt ra rb)
      rt 32 4 fun p i => sU 16 ra (2 * i + 1) p * sU 16 rb (2 * i + 1) p
  | mpyi (rt ra : BitVec 7) (i10 : BitVec 10) : SpuPlain (.spuMpyi rt ra i10)
      rt 32 4 fun p i => sS 16 ra (2 * i + 1) p * i10.toInt
  | mpyui (rt ra : BitVec 7) (i10 : BitVec 10) : SpuPlain (.spuMpyui rt ra i10)
      rt 32 4 fun p i => sU 16 ra (2 * i + 1) p * (i10.toInt % 2^16)
  | mpya (rt ra rb rc : BitVec 7) : SpuPlain (.spuMpya rt ra rb rc)
      rt 32 4 fun p i => sS 16 ra (2 * i + 1) p * sS 16 rb (2 * i + 1) p + sU 32 rc i p
  | mpyh (rt ra rb : BitVec 7) : SpuPlain (.spuMpyh rt ra rb)
      rt 32 4 fun p i => sU 16 ra (2 * i) p * sU 16 rb (2 * i + 1) p * 2^16
  | mpys (rt ra rb : BitVec 7) : SpuPlain (.spuMpys rt ra rb)
      rt 32 4 fun p i => sS 16 ra (2 * i + 1) p * sS 16 rb (2 * i + 1) p / 2^16
  | mpyhh (rt ra rb : BitVec 7) : SpuPlain (.spuMpyhh rt ra rb) rt 32 4 fun p i => sS 16 ra (2 * i) p * sS 16 rb (2 * i) p
  | mpyhha (rt ra rb : BitVec 7) : SpuPlain (.spuMpyhha rt ra rb)
      rt 32 4 fun p i => sS 16 ra (2 * i) p * sS 16 rb (2 * i) p + sU 32 rt i p
  | mpyhhu (rt ra rb : BitVec 7) : SpuPlain (.spuMpyhhu rt ra rb) rt 32 4 fun p i => sU 16 ra (2 * i) p * sU 16 rb (2 * i) p
  | mpyhhau (rt ra rb : BitVec 7) : SpuPlain (.spuMpyhhau rt ra rb)
      rt 32 4 fun p i => sU 16 ra (2 * i) p * sU 16 rb (2 * i) p + sU 32 rt i p
  | clz (rt ra : BitVec 7) : SpuPlain (.spuClz rt ra)
      rt 32 4 fun p i => if sU 32 ra i p = 0 then 32 else 31 - ((sU 32 ra i p).toNat.log2 : Int)
  | cntb (rt ra : BitVec 7) : SpuPlain (.spuCntb rt ra)
      rt 8 16 fun p i => ((List.range 8).filter fun k => sU 1 ra (8 * i + k) p = 1).length
  | fsmb (rt ra : BitVec 7) : SpuPlain (.spuFsmb rt ra) rt 8 16 fun p i => 255 * sU 1 ra (16 + i) p
  | fsmh (rt ra : BitVec 7) : SpuPlain (.spuFsmh rt ra) rt 16 8 fun p i => (2^16 - 1) * sU 1 ra (24 + i) p
  | fsm (rt ra : BitVec 7) : SpuPlain (.spuFsm rt ra) rt 32 4 fun p i => (2^32 - 1) * sU 1 ra (28 + i) p
  | gbb (rt ra : BitVec 7) : SpuPlain (.spuGbb rt ra)
      rt 1 128 fun p i => if 16 ≤ i ∧ i < 32 then sU 1 ra (8 * (i - 16) + 7) p else 0
  | gbh (rt ra : BitVec 7) : SpuPlain (.spuGbh rt ra)
      rt 1 128 fun p i => if 24 ≤ i ∧ i < 32 then sU 1 ra (16 * (i - 24) + 15) p else 0
  | gb (rt ra : BitVec 7) : SpuPlain (.spuGb rt ra)
      rt 1 128 fun p i => if 28 ≤ i ∧ i < 32 then sU 1 ra (32 * (i - 28) + 31) p else 0
  | avgb (rt ra rb : BitVec 7) : SpuPlain (.spuAvgb rt ra rb) rt 8 16 fun p i => (sU 8 ra i p + sU 8 rb i p + 1) / 2
  | absdb (rt ra rb : BitVec 7) : SpuPlain (.spuAbsdb rt ra rb)
      rt 8 16 fun p i => max (sU 8 ra i p) (sU 8 rb i p) - min (sU 8 ra i p) (sU 8 rb i p)
  | sumb (rt ra rb : BitVec 7) : SpuPlain (.spuSumb rt ra rb)
      rt 16 8 fun p i => if i % 2 = 0 then sU 8 rb (2 * i) p + sU 8 rb (2 * i + 1) p + sU 8 rb (2 * i + 2) p + sU 8 rb (2 *
      i + 3) p else sU 8 ra (2 * i - 2) p + sU 8 ra (2 * i - 1) p + sU 8 ra (2 * i) p + sU 8 ra (2 * i + 1) p
  | xsbh (rt ra : BitVec 7) : SpuPlain (.spuXsbh rt ra) rt 16 8 fun p i => sS 8 ra (2 * i + 1) p
  | xshw (rt ra : BitVec 7) : SpuPlain (.spuXshw rt ra) rt 32 4 fun p i => sS 16 ra (2 * i + 1) p
  | xswd (rt ra : BitVec 7) : SpuPlain (.spuXswd rt ra) rt 64 2 fun p i => sS 32 ra (2 * i + 1) p
  | and (rt ra rb : BitVec 7) : SpuPlain (.spuAnd rt ra rb) rt 1 128 fun p i => sU 1 ra i p * sU 1 rb i p
  | andc (rt ra rb : BitVec 7) : SpuPlain (.spuAndc rt ra rb) rt 1 128 fun p i => sU 1 ra i p * (1 - sU 1 rb i p)
  | or (rt ra rb : BitVec 7) : SpuPlain (.spuOr rt ra rb) rt 1 128 fun p i => max (sU 1 ra i p) (sU 1 rb i p)
  | orc (rt ra rb : BitVec 7) : SpuPlain (.spuOrc rt ra rb) rt 1 128 fun p i => max (sU 1 ra i p) (1 - sU 1 rb i p)
  | xor (rt ra rb : BitVec 7) : SpuPlain (.spuXor rt ra rb) rt 1 128 fun p i => sU 1 ra i p + sU 1 rb i p
  | nand (rt ra rb : BitVec 7) : SpuPlain (.spuNand rt ra rb) rt 1 128 fun p i => 1 - sU 1 ra i p * sU 1 rb i p
  | nor (rt ra rb : BitVec 7) : SpuPlain (.spuNor rt ra rb) rt 1 128 fun p i => (1 - sU 1 ra i p) * (1 - sU 1 rb i p)
  | eqv (rt ra rb : BitVec 7) : SpuPlain (.spuEqv rt ra rb) rt 1 128 fun p i => 1 + sU 1 ra i p + sU 1 rb i p
  | andbi (rt ra : BitVec 7) (i10 : BitVec 10) : SpuPlain (.spuAndbi rt ra i10)
      rt 1 128 fun p i => if ibit (i10.setWidth 8) (i % 8) then sU 1 ra i p else 0
  | orbi (rt ra : BitVec 7) (i10 : BitVec 10) : SpuPlain (.spuOrbi rt ra i10)
      rt 1 128 fun p i => if ibit (i10.setWidth 8) (i % 8) then 1 else sU 1 ra i p
  | xorbi (rt ra : BitVec 7) (i10 : BitVec 10) : SpuPlain (.spuXorbi rt ra i10)
      rt 1 128 fun p i => if ibit (i10.setWidth 8) (i % 8) then 1 - sU 1 ra i p else sU 1 ra i p
  | andhi (rt ra : BitVec 7) (i10 : BitVec 10) : SpuPlain (.spuAndhi rt ra i10)
      rt 1 128 fun p i => if ibit (i10.signExtend 16) (i % 16) then sU 1 ra i p else 0
  | orhi (rt ra : BitVec 7) (i10 : BitVec 10) : SpuPlain (.spuOrhi rt ra i10)
      rt 1 128 fun p i => if ibit (i10.signExtend 16) (i % 16) then 1 else sU 1 ra i p
  | xorhi (rt ra : BitVec 7) (i10 : BitVec 10) : SpuPlain (.spuXorhi rt ra i10)
      rt 1 128 fun p i => if ibit (i10.signExtend 16) (i % 16) then 1 - sU 1 ra i p else sU 1 ra i p
  | andi (rt ra : BitVec 7) (i10 : BitVec 10) : SpuPlain (.spuAndi rt ra i10)
      rt 1 128 fun p i => if ibit (i10.signExtend 32) (i % 32) then sU 1 ra i p else 0
  | ori (rt ra : BitVec 7) (i10 : BitVec 10) : SpuPlain (.spuOri rt ra i10)
      rt 1 128 fun p i => if ibit (i10.signExtend 32) (i % 32) then 1 else sU 1 ra i p
  | xori (rt ra : BitVec 7) (i10 : BitVec 10) : SpuPlain (.spuXori rt ra i10)
      rt 1 128 fun p i => if ibit (i10.signExtend 32) (i % 32) then 1 - sU 1 ra i p else sU 1 ra i p
  | orx (rt ra : BitVec 7) : SpuPlain (.spuOrx rt ra)
      rt 1 128 fun p i => if i < 32 then max (max (sU 1 ra i p) (sU 1 ra (i + 32) p)) (max (sU 1 ra (i + 64) p) (sU 1 ra (i
      + 96) p)) else 0
  | selb (rt ra rb rc : BitVec 7) : SpuPlain (.spuSelb rt ra rb rc)
      rt 1 128 fun p i => if sU 1 rc i p = 1 then sU 1 rb i p else sU 1 ra i p
  | shufb (rt ra rb rc : BitVec 7) : SpuPlain (.spuShufb rt ra rb rc)
      rt 8 16 fun p i => if sU 8 rc i p / 64 = 2 then 0 else if sU 8 rc i p / 32 = 6 then 255 else if sU 8 rc i p / 32 = 7
      then 128 else if (sU 8 rc i p % 32).toNat < 16 then sU 8 ra (sU 8 rc i p % 32).toNat p else sU 8 rb ((sU 8 rc i p %
      32).toNat - 16) p
  | shlh (rt ra rb : BitVec 7) : SpuPlain (.spuShlh rt ra rb) rt 16 8 fun p i => sU 16 ra i p * 2^(sU 16 rb i p % 32).toNat
  | shlhi (rt ra i7 : BitVec 7) : SpuPlain (.spuShlhi rt ra i7)
      rt 16 8 fun p i => sU 16 ra i p * 2^((i7.toNat : Int) % 32).toNat
  | roth (rt ra rb : BitVec 7) : SpuPlain (.spuRoth rt ra rb)
      rt 16 8 fun p i => sU 16 ra i p * 2^(sU 16 rb i p % 16).toNat + sU 16 ra i p / 2^(16 - (sU 16 rb i p % 16).toNat)
  | rothi (rt ra i7 : BitVec 7) : SpuPlain (.spuRothi rt ra i7)
      rt 16 8 fun p i => sU 16 ra i p * 2^((i7.toNat : Int) % 16).toNat + sU 16 ra i p / 2^(16 - ((i7.toNat : Int) %
      16).toNat)
  | rothm (rt ra rb : BitVec 7) : SpuPlain (.spuRothm rt ra rb)
      rt 16 8 fun p i => sU 16 ra i p / 2^(-sU 16 rb i p % 32).toNat
  | rothmi (rt ra i7 : BitVec 7) : SpuPlain (.spuRothmi rt ra i7)
      rt 16 8 fun p i => sU 16 ra i p / 2^(-(i7.toNat : Int) % 32).toNat
  | rotmah (rt ra rb : BitVec 7) : SpuPlain (.spuRotmah rt ra rb)
      rt 16 8 fun p i => sS 16 ra i p / 2^(-sU 16 rb i p % 32).toNat
  | rotmahi (rt ra i7 : BitVec 7) : SpuPlain (.spuRotmahi rt ra i7)
      rt 16 8 fun p i => sS 16 ra i p / 2^(-(i7.toNat : Int) % 32).toNat
  | shl (rt ra rb : BitVec 7) : SpuPlain (.spuShl rt ra rb) rt 32 4 fun p i => sU 32 ra i p * 2^(sU 32 rb i p % 64).toNat
  | shli (rt ra i7 : BitVec 7) : SpuPlain (.spuShli rt ra i7)
      rt 32 4 fun p i => sU 32 ra i p * 2^((i7.toNat : Int) % 64).toNat
  | rot (rt ra rb : BitVec 7) : SpuPlain (.spuRot rt ra rb)
      rt 32 4 fun p i => sU 32 ra i p * 2^(sU 32 rb i p % 32).toNat + sU 32 ra i p / 2^(32 - (sU 32 rb i p % 32).toNat)
  | roti (rt ra i7 : BitVec 7) : SpuPlain (.spuRoti rt ra i7)
      rt 32 4 fun p i => sU 32 ra i p * 2^((i7.toNat : Int) % 32).toNat + sU 32 ra i p / 2^(32 - ((i7.toNat : Int) %
      32).toNat)
  | rotm (rt ra rb : BitVec 7) : SpuPlain (.spuRotm rt ra rb) rt 32 4 fun p i => sU 32 ra i p / 2^(-sU 32 rb i p % 64).toNat
  | rotmi (rt ra i7 : BitVec 7) : SpuPlain (.spuRotmi rt ra i7)
      rt 32 4 fun p i => sU 32 ra i p / 2^(-(i7.toNat : Int) % 64).toNat
  | rotma (rt ra rb : BitVec 7) : SpuPlain (.spuRotma rt ra rb)
      rt 32 4 fun p i => sS 32 ra i p / 2^(-sU 32 rb i p % 64).toNat
  | rotmai (rt ra i7 : BitVec 7) : SpuPlain (.spuRotmai rt ra i7)
      rt 32 4 fun p i => sS 32 ra i p / 2^(-(i7.toNat : Int) % 64).toNat
  | shlqbi (rt ra rb : BitVec 7) : SpuPlain (.spuShlqbi rt ra rb)
      rt 128 1 fun p _ => sU 128 ra 0 p * 2^(sU 32 rb 0 p % 8).toNat
  | shlqbii (rt ra i7 : BitVec 7) : SpuPlain (.spuShlqbii rt ra i7)
      rt 128 1 fun p _ => sU 128 ra 0 p * 2^((i7.toNat : Int) % 8).toNat
  | shlqby (rt ra rb : BitVec 7) : SpuPlain (.spuShlqby rt ra rb)
      rt 128 1 fun p _ => sU 128 ra 0 p * 2^(8 * (sU 32 rb 0 p % 32)).toNat
  | shlqbyi (rt ra i7 : BitVec 7) : SpuPlain (.spuShlqbyi rt ra i7)
      rt 128 1 fun p _ => sU 128 ra 0 p * 2^(8 * ((i7.toNat : Int) % 32)).toNat
  | shlqbybi (rt ra rb : BitVec 7) : SpuPlain (.spuShlqbybi rt ra rb)
      rt 128 1 fun p _ => sU 128 ra 0 p * 2^(8 * ((sU 32 rb 0 p / 8) % 32)).toNat
  | rotqbi (rt ra rb : BitVec 7) : SpuPlain (.spuRotqbi rt ra rb)
      rt 128 1 fun p _ => sU 128 ra 0 p * 2^(sU 32 rb 0 p % 8).toNat + sU 128 ra 0 p / 2^(128 - (sU 32 rb 0 p % 8).toNat)
  | rotqbii (rt ra i7 : BitVec 7) : SpuPlain (.spuRotqbii rt ra i7)
      rt 128 1 fun p _ => sU 128 ra 0 p * 2^((i7.toNat : Int) % 8).toNat + sU 128 ra 0 p / 2^(128 - ((i7.toNat : Int) %
      8).toNat)
  | rotqby (rt ra rb : BitVec 7) : SpuPlain (.spuRotqby rt ra rb)
      rt 128 1 fun p _ => sU 128 ra 0 p * 2^(8 * (sU 32 rb 0 p % 16)).toNat + sU 128 ra 0 p / 2^(128 - (8 * (sU 32 rb 0 p %
      16)).toNat)
  | rotqbyi (rt ra i7 : BitVec 7) : SpuPlain (.spuRotqbyi rt ra i7)
      rt 128 1 fun p _ => sU 128 ra 0 p * 2^(8 * ((i7.toNat : Int) % 16)).toNat + sU 128 ra 0 p / 2^(128 - (8 * ((i7.toNat
      : Int) % 16)).toNat)
  | rotqbybi (rt ra rb : BitVec 7) : SpuPlain (.spuRotqbybi rt ra rb)
      rt 128 1 fun p _ => sU 128 ra 0 p * 2^(8 * ((sU 32 rb 0 p / 8) % 16)).toNat + sU 128 ra 0 p / 2^(128 - (8 * ((sU 32
      rb 0 p / 8) % 16)).toNat)
  | rotqmbi (rt ra rb : BitVec 7) : SpuPlain (.spuRotqmbi rt ra rb)
      rt 128 1 fun p _ => sU 128 ra 0 p / 2^(-sU 32 rb 0 p % 8).toNat
  | rotqmbii (rt ra i7 : BitVec 7) : SpuPlain (.spuRotqmbii rt ra i7)
      rt 128 1 fun p _ => sU 128 ra 0 p / 2^(-(i7.toNat : Int) % 8).toNat
  | rotqmby (rt ra rb : BitVec 7) : SpuPlain (.spuRotqmby rt ra rb)
      rt 128 1 fun p _ => sU 128 ra 0 p / 2^(8 * (-sU 32 rb 0 p % 32)).toNat
  | rotqmbyi (rt ra i7 : BitVec 7) : SpuPlain (.spuRotqmbyi rt ra i7)
      rt 128 1 fun p _ => sU 128 ra 0 p / 2^(8 * (-(i7.toNat : Int) % 32)).toNat
  | rotqmbybi (rt ra rb : BitVec 7) : SpuPlain (.spuRotqmbybi rt ra rb)
      rt 128 1 fun p _ => sU 128 ra 0 p / 2^(8 * (-(sU 32 rb 0 p / 8) % 32)).toNat
  | ceqb (rt ra rb : BitVec 7) : SpuPlain (.spuCeqb rt ra rb)
      rt 8 16 fun p i => if sU 8 ra i p = sU 8 rb i p then 2^8 - 1 else 0
  | ceqbi (rt ra : BitVec 7) (i10 : BitVec 10) : SpuPlain (.spuCeqbi rt ra i10)
      rt 8 16 fun p i => if sS 8 ra i p = (i10.setWidth 8).toInt then 2^8 - 1 else 0
  | cgtb (rt ra rb : BitVec 7) : SpuPlain (.spuCgtb rt ra rb)
      rt 8 16 fun p i => if sS 8 rb i p < sS 8 ra i p then 2^8 - 1 else 0
  | cgtbi (rt ra : BitVec 7) (i10 : BitVec 10) : SpuPlain (.spuCgtbi rt ra i10)
      rt 8 16 fun p i => if (i10.setWidth 8).toInt < sS 8 ra i p then 2^8 - 1 else 0
  | clgtb (rt ra rb : BitVec 7) : SpuPlain (.spuClgtb rt ra rb)
      rt 8 16 fun p i => if sU 8 rb i p < sU 8 ra i p then 2^8 - 1 else 0
  | clgtbi (rt ra : BitVec 7) (i10 : BitVec 10) : SpuPlain (.spuClgtbi rt ra i10)
      rt 8 16 fun p i => if i10.toNat % 256 < sU 8 ra i p then 2^8 - 1 else 0
  | ceqh (rt ra rb : BitVec 7) : SpuPlain (.spuCeqh rt ra rb)
      rt 16 8 fun p i => if sU 16 ra i p = sU 16 rb i p then 2^16 - 1 else 0
  | ceqhi (rt ra : BitVec 7) (i10 : BitVec 10) : SpuPlain (.spuCeqhi rt ra i10)
      rt 16 8 fun p i => if sS 16 ra i p = i10.toInt then 2^16 - 1 else 0
  | cgth (rt ra rb : BitVec 7) : SpuPlain (.spuCgth rt ra rb)
      rt 16 8 fun p i => if sS 16 rb i p < sS 16 ra i p then 2^16 - 1 else 0
  | cgthi (rt ra : BitVec 7) (i10 : BitVec 10) : SpuPlain (.spuCgthi rt ra i10)
      rt 16 8 fun p i => if i10.toInt < sS 16 ra i p then 2^16 - 1 else 0
  | clgth (rt ra rb : BitVec 7) : SpuPlain (.spuClgth rt ra rb)
      rt 16 8 fun p i => if sU 16 rb i p < sU 16 ra i p then 2^16 - 1 else 0
  | clgthi (rt ra : BitVec 7) (i10 : BitVec 10) : SpuPlain (.spuClgthi rt ra i10)
      rt 16 8 fun p i => if i10.toInt % 2^16 < sU 16 ra i p then 2^16 - 1 else 0
  | ceq (rt ra rb : BitVec 7) : SpuPlain (.spuCeq rt ra rb)
      rt 32 4 fun p i => if sU 32 ra i p = sU 32 rb i p then 2^32 - 1 else 0
  | ceqi (rt ra : BitVec 7) (i10 : BitVec 10) : SpuPlain (.spuCeqi rt ra i10)
      rt 32 4 fun p i => if sS 32 ra i p = i10.toInt then 2^32 - 1 else 0
  | cgt (rt ra rb : BitVec 7) : SpuPlain (.spuCgt rt ra rb)
      rt 32 4 fun p i => if sS 32 rb i p < sS 32 ra i p then 2^32 - 1 else 0
  | cgti (rt ra : BitVec 7) (i10 : BitVec 10) : SpuPlain (.spuCgti rt ra i10)
      rt 32 4 fun p i => if i10.toInt < sS 32 ra i p then 2^32 - 1 else 0
  | clgt (rt ra rb : BitVec 7) : SpuPlain (.spuClgt rt ra rb)
      rt 32 4 fun p i => if sU 32 rb i p < sU 32 ra i p then 2^32 - 1 else 0
  | clgti (rt ra : BitVec 7) (i10 : BitVec 10) : SpuPlain (.spuClgti rt ra i10)
      rt 32 4 fun p i => if i10.toInt % 2^32 < sU 32 ra i p then 2^32 - 1 else 0
  | cbd (rt ra i7 : BitVec 7) : SpuPlain (.spuCbd rt ra i7)
      rt 8 16 fun p i => insertionByte 1 3 ((sU 32 ra 0 p).toNat + i7.toNat) i
  | cbx (rt ra rb : BitVec 7) : SpuPlain (.spuCbx rt ra rb)
      rt 8 16 fun p i => insertionByte 1 3 ((sU 32 ra 0 p).toNat + (sU 32 rb 0 p).toNat) i
  | chd (rt ra i7 : BitVec 7) : SpuPlain (.spuChd rt ra i7)
      rt 8 16 fun p i => insertionByte 2 2 ((sU 32 ra 0 p).toNat + i7.toNat) i
  | chx (rt ra rb : BitVec 7) : SpuPlain (.spuChx rt ra rb)
      rt 8 16 fun p i => insertionByte 2 2 ((sU 32 ra 0 p).toNat + (sU 32 rb 0 p).toNat) i
  | cwd (rt ra i7 : BitVec 7) : SpuPlain (.spuCwd rt ra i7)
      rt 8 16 fun p i => insertionByte 4 0 ((sU 32 ra 0 p).toNat + i7.toNat) i
  | cwx (rt ra rb : BitVec 7) : SpuPlain (.spuCwx rt ra rb)
      rt 8 16 fun p i => insertionByte 4 0 ((sU 32 ra 0 p).toNat + (sU 32 rb 0 p).toNat) i
  | cdd (rt ra i7 : BitVec 7) : SpuPlain (.spuCdd rt ra i7)
      rt 8 16 fun p i => insertionByte 8 0 ((sU 32 ra 0 p).toNat + i7.toNat) i
  | cdx (rt ra rb : BitVec 7) : SpuPlain (.spuCdx rt ra rb)
      rt 8 16 fun p i => insertionByte 8 0 ((sU 32 ra 0 p).toNat + (sU 32 rb 0 p).toNat) i
  | ilh (rt : BitVec 7) (i16 : BitVec 16) : SpuPlain (.spuIlh rt i16) rt 16 8 fun _ _ => i16.toNat
  | ilhu (rt : BitVec 7) (i16 : BitVec 16) : SpuPlain (.spuIlhu rt i16) rt 32 4 fun _ _ => i16.toNat * 2^16
  | il (rt : BitVec 7) (i16 : BitVec 16) : SpuPlain (.spuIl rt i16) rt 32 4 fun _ _ => i16.toInt
  | ila (rt : BitVec 7) (i18 : BitVec 18) : SpuPlain (.spuIla rt i18) rt 32 4 fun _ _ => i18.toNat
  | iohl (rt : BitVec 7) (i16 : BitVec 16) : SpuPlain (.spuIohl rt i16)
      rt 1 128 fun p i => if 16 ≤ i % 32 ∧ ibit i16 (i % 32 - 16) then 1 else sU 1 rt i p
  | fsmbi (rt : BitVec 7) (i16 : BitVec 16) : SpuPlain (.spuFsmbi rt i16) rt 8 16 fun _ i => if ibit i16 i then 255 else 0
  | fscrrd (rt : BitVec 7) : SpuPlain (.spuFscrrd rt)
      rt 1 128 fun p i => if ibit spuFpscrMask i && ibit p.fpscr i then 1 else 0
  | mfspr (rt sa : BitVec 7) : SpuPlain (.spuMfspr rt sa) rt 128 1 fun _ _ => 0
  | rchcnt (rt ca : BitVec 7) : SpuPlain (.spuRchcnt rt ca) rt 32 4 fun p i => if i = 0 then channelCount p ca.toNat else 0

/-- The SPU instructions that only go on (R1466 to R1469, R1558, R1559, R1572, R1576). -/
inductive SpuQuiet : Instr → Prop
  | hbr (ra : BitVec 7) (off : BitVec 9) : SpuQuiet (.spuHbr ra off)
  | hbrp (ra : BitVec 7) (off : BitVec 9) : SpuQuiet (.spuHbrp ra off)
  | hbra (i16 : BitVec 16) (off : BitVec 9) : SpuQuiet (.spuHbra i16 off)
  | hbrr (i16 : BitVec 16) (off : BitVec 9) : SpuQuiet (.spuHbrr i16 off)
  | nop : SpuQuiet (.spuNop)
  | lnop : SpuQuiet (.spuLnop)
  | dsync : SpuQuiet (.spuDsync)
  | mtspr (rt sa : BitVec 7) : SpuQuiet (.spuMtspr rt sa)

/-- The value of a word in the extended single range, in units of 2^-149: a denormal is zero, the largest exponent is an
ordinary one (48_spu_float R1490). -/
def extended (w : Word) : Int :=
  let x := w.toNat / 2^23 % 2^8
  let m : Nat := if x = 0 then 0 else (2^23 + w.toNat % 2^23) * 2^(x - 1)
  if ibit w 0 then -(m : Int) else m

/-- The single-precision instructions whose result is the exact value, the integer in units of 2^-149 divided by the factor,
truncated: destination, condition, factor, exact value (R1500 to R1505, R1520, R1522). -/
inductive SpuSingle : Instr → BitVec 7 → Prop → Int → (Spe → Nat → Int) → Prop
  | fa (rt ra rb : BitVec 7) : SpuSingle (.spuFa rt ra rb) rt True 1 fun p i => extended (sW ra i p) + extended (sW rb i p)
  | fs (rt ra rb : BitVec 7) : SpuSingle (.spuFs rt ra rb) rt True 1 fun p i => extended (sW ra i p) - extended (sW rb i p)
  | fm (rt ra rb : BitVec 7) : SpuSingle (.spuFm rt ra rb)
      rt True (2^149) fun p i => extended (sW ra i p) * extended (sW rb i p)
  | fma (rt ra rb rc : BitVec 7) : SpuSingle (.spuFma rt ra rb rc)
      rt True (2^149) fun p i => extended (sW ra i p) * extended (sW rb i p) + extended (sW rc i p) * 2^149
  | fnms (rt ra rb rc : BitVec 7) : SpuSingle (.spuFnms rt ra rb rc)
      rt True (2^149) fun p i => extended (sW rc i p) * 2^149 - extended (sW ra i p) * extended (sW rb i p)
  | fms (rt ra rb rc : BitVec 7) : SpuSingle (.spuFms rt ra rb rc)
      rt True (2^149) fun p i => extended (sW ra i p) * extended (sW rb i p) - extended (sW rc i p) * 2^149
  | csflt (rt ra : BitVec 7) (i8 : BitVec 8) : SpuSingle (.spuCsflt rt ra i8)
      rt (28 ≤ i8.toNat ∧ i8.toNat ≤ 155) (2^(155 - i8.toNat)) fun p i => sS 32 ra i p * 2^149
  | cuflt (rt ra : BitVec 7) (i8 : BitVec 8) : SpuSingle (.spuCuflt rt ra i8)
      rt (28 ≤ i8.toNat ∧ i8.toNat ≤ 155) (2^(155 - i8.toNat)) fun p i => sU 32 ra i p * 2^149

/-- The value of a double operand of the SPU, in units of 2^-1074: a denormal is zero (R1494). -/
def flushed (w : DWord) : Int := if w.toNat / 2^52 % 2^11 = 0 then 0 else scaled w

/-- The double-precision instructions: destination, source registers, whether the rounded value is negated, factor, exact value
(R1506 to R1512). -/
inductive SpuDouble : Instr → BitVec 7 → List (BitVec 7) → Bool → Int → (Spe → Nat → Int) → Prop
  | dfa (rt ra rb : BitVec 7) : SpuDouble (.spuDfa rt ra rb)
      rt [ra, rb] false 1 fun p i => flushed (sD ra i p) + flushed (sD rb i p)
  | dfs (rt ra rb : BitVec 7) : SpuDouble (.spuDfs rt ra rb)
      rt [ra, rb] false 1 fun p i => flushed (sD ra i p) - flushed (sD rb i p)
  | dfm (rt ra rb : BitVec 7) : SpuDouble (.spuDfm rt ra rb)
      rt [ra, rb] false (2^1074) fun p i => flushed (sD ra i p) * flushed (sD rb i p)
  | dfma (rt ra rb : BitVec 7) : SpuDouble (.spuDfma rt ra rb)
      rt [ra, rb, rt] false (2^1074) fun p i => flushed (sD ra i p) * flushed (sD rb i p) + flushed (sD rt i p) * 2^1074
  | dfms (rt ra rb : BitVec 7) : SpuDouble (.spuDfms rt ra rb)
      rt [ra, rb, rt] false (2^1074) fun p i => flushed (sD ra i p) * flushed (sD rb i p) - flushed (sD rt i p) * 2^1074
  | dfnma (rt ra rb : BitVec 7) : SpuDouble (.spuDfnma rt ra rb)
      rt [ra, rb, rt] true (2^1074) fun p i => flushed (sD ra i p) * flushed (sD rb i p) + flushed (sD rt i p) * 2^1074
  | dfnms (rt ra rb : BitVec 7) : SpuDouble (.spuDfnms rt ra rb)
      rt [ra, rb, rt] true (2^1074) fun p i => flushed (sD ra i p) * flushed (sD rb i p) - flushed (sD rt i p) * 2^1074

/-- The place of a double operand of the SPU in the order of the compares: a denormal is a zero (R1535). -/
def flushedKey (w : DWord) : Int := if w.toNat / 2^52 % 2^11 = 0 then 0 else imageKey 64 w.toNat

/-- The double-precision compares: relation of the two keys (R1535 to R1538). -/
inductive SpuDoubleCompare : Instr → BitVec 7 → BitVec 7 → BitVec 7 → (Int → Int → Bool) → Prop
  | dfceq (rt ra rb : BitVec 7) : SpuDoubleCompare (.spuDfceq rt ra rb) rt ra rb fun a b => decide (a = b)
  | dfcmeq (rt ra rb : BitVec 7) : SpuDoubleCompare (.spuDfcmeq rt ra rb) rt ra rb fun a b => decide (a.natAbs = b.natAbs)
  | dfcgt (rt ra rb : BitVec 7) : SpuDoubleCompare (.spuDfcgt rt ra rb) rt ra rb fun a b => decide (b < a)
  | dfcmgt (rt ra rb : BitVec 7) : SpuDoubleCompare (.spuDfcmgt rt ra rb) rt ra rb fun a b => decide (b.natAbs < a.natAbs)

/-- Whether a double stands in class `c` of the mask of `dftsv`: NaN, the infinities, the zeros, the denormals, the positive one of
each first (R1539). -/
def doubleClass (w : DWord) (c : Nat) : Bool :=
  match c with
  | 0 => isNan f64 w.toNat
  | 1 => decide (w = 0x7FF0000000000000)
  | 2 => decide (w = 0xFFF0000000000000)
  | 3 => decide (w = 0)
  | 4 => decide (w = 0x8000000000000000)
  | 5 => decide (0 < w.toNat ∧ w.toNat < 2^52)
  | _ => decide (2^63 < w.toNat ∧ w.toNat < 2^63 + 2^52)

/-- Every floating-point instruction of the SPU but `fscrrd`: destination, bits of FPSCR that it may change, whether only the
PowerXCell 8i has it (R1500 to R1539, R1541). -/
inductive SpuFloat : Instr → Option (BitVec 7) → QWord → Bool → Prop
  | fa (rt ra rb : BitVec 7) : SpuFloat (.spuFa rt ra rb) (some rt) spuFpscrMask false
  | fs (rt ra rb : BitVec 7) : SpuFloat (.spuFs rt ra rb) (some rt) spuFpscrMask false
  | fm (rt ra rb : BitVec 7) : SpuFloat (.spuFm rt ra rb) (some rt) spuFpscrMask false
  | fma (rt ra rb rc : BitVec 7) : SpuFloat (.spuFma rt ra rb rc) (some rt) spuFpscrMask false
  | fnms (rt ra rb rc : BitVec 7) : SpuFloat (.spuFnms rt ra rb rc) (some rt) spuFpscrMask false
  | fms (rt ra rb rc : BitVec 7) : SpuFloat (.spuFms rt ra rb rc) (some rt) spuFpscrMask false
  | dfa (rt ra rb : BitVec 7) : SpuFloat (.spuDfa rt ra rb) (some rt) spuFpscrMask false
  | dfs (rt ra rb : BitVec 7) : SpuFloat (.spuDfs rt ra rb) (some rt) spuFpscrMask false
  | dfm (rt ra rb : BitVec 7) : SpuFloat (.spuDfm rt ra rb) (some rt) spuFpscrMask false
  | dfma (rt ra rb : BitVec 7) : SpuFloat (.spuDfma rt ra rb) (some rt) spuFpscrMask false
  | dfms (rt ra rb : BitVec 7) : SpuFloat (.spuDfms rt ra rb) (some rt) spuFpscrMask false
  | dfnms (rt ra rb : BitVec 7) : SpuFloat (.spuDfnms rt ra rb) (some rt) spuFpscrMask false
  | dfnma (rt ra rb : BitVec 7) : SpuFloat (.spuDfnma rt ra rb) (some rt) spuFpscrMask false
  | frest (rt ra : BitVec 7) : SpuFloat (.spuFrest rt ra) (some rt) spuFpscrMask false
  | frsqest (rt ra : BitVec 7) : SpuFloat (.spuFrsqest rt ra) (some rt) spuFpscrMask false
  | frds (rt ra : BitVec 7) : SpuFloat (.spuFrds rt ra) (some rt) spuFpscrMask false
  | fesd (rt ra : BitVec 7) : SpuFloat (.spuFesd rt ra) (some rt) spuFpscrMask false
  | fi (rt ra rb : BitVec 7) : SpuFloat (.spuFi rt ra rb) (some rt) 0 false
  | csflt (rt ra : BitVec 7) (i8 : BitVec 8) : SpuFloat (.spuCsflt rt ra i8) (some rt) 0 false
  | cflts (rt ra : BitVec 7) (i8 : BitVec 8) : SpuFloat (.spuCflts rt ra i8) (some rt) 0 false
  | cuflt (rt ra : BitVec 7) (i8 : BitVec 8) : SpuFloat (.spuCuflt rt ra i8) (some rt) 0 false
  | cfltu (rt ra : BitVec 7) (i8 : BitVec 8) : SpuFloat (.spuCfltu rt ra i8) (some rt) 0 false
  | fceq (rt ra rb : BitVec 7) : SpuFloat (.spuFceq rt ra rb) (some rt) 0 false
  | fcmeq (rt ra rb : BitVec 7) : SpuFloat (.spuFcmeq rt ra rb) (some rt) 0 false
  | fcgt (rt ra rb : BitVec 7) : SpuFloat (.spuFcgt rt ra rb) (some rt) 0 false
  | fcmgt (rt ra rb : BitVec 7) : SpuFloat (.spuFcmgt rt ra rb) (some rt) 0 false
  | fscrwr (ra : BitVec 7) : SpuFloat (.spuFscrwr ra) none (-1) false
  | dfceq (rt ra rb : BitVec 7) : SpuFloat (.spuDfceq rt ra rb) (some rt) spuFpscrMask true
  | dfcmeq (rt ra rb : BitVec 7) : SpuFloat (.spuDfcmeq rt ra rb) (some rt) spuFpscrMask true
  | dfcgt (rt ra rb : BitVec 7) : SpuFloat (.spuDfcgt rt ra rb) (some rt) spuFpscrMask true
  | dfcmgt (rt ra rb : BitVec 7) : SpuFloat (.spuDfcmgt rt ra rb) (some rt) spuFpscrMask true
  | dftsv (rt ra i7 : BitVec 7) : SpuFloat (.spuDftsv rt ra i7) (some rt) 0 true

/-- The loads (false) and stores (true) of local storage: register, address before it is wrapped and aligned (R1223 to
R1230). -/
inductive SpuAccess : Instr → BitVec 7 → Bool → (Spe → Word) → Prop
  | lqd (rt ra : BitVec 7) (i10 : BitVec 10) : SpuAccess (.spuLqd rt ra i10)
      rt false fun p => sW ra 0 p + i10.signExtend 32 * 16
  | lqx (rt ra rb : BitVec 7) : SpuAccess (.spuLqx rt ra rb) rt false fun p => sW ra 0 p + sW rb 0 p
  | lqa (rt : BitVec 7) (i16 : BitVec 16) : SpuAccess (.spuLqa rt i16) rt false fun _ => i16.signExtend 32 * 4
  | lqr (rt : BitVec 7) (i16 : BitVec 16) : SpuAccess (.spuLqr rt i16) rt false fun p => p.pc + i16.signExtend 32 * 4
  | stqd (rt ra : BitVec 7) (i10 : BitVec 10) : SpuAccess (.spuStqd rt ra i10)
      rt true fun p => sW ra 0 p + i10.signExtend 32 * 16
  | stqx (rt ra rb : BitVec 7) : SpuAccess (.spuStqx rt ra rb) rt true fun p => sW ra 0 p + sW rb 0 p
  | stqa (rt : BitVec 7) (i16 : BitVec 16) : SpuAccess (.spuStqa rt i16) rt true fun _ => i16.signExtend 32 * 4
  | stqr (rt : BitVec 7) (i16 : BitVec 16) : SpuAccess (.spuStqr rt i16) rt true fun p => p.pc + i16.signExtend 32 * 4

/-- The address in local storage of the aligned quadword (46_spu_loadstore_const R1221). -/
def quadAddress (p : Spe) (ea : Word) : Nat := (ea &&& p.lslr).toNat / 16 * 16

/-- The branches: whether it is taken, the target before it is wrapped, the register that takes the link, the feature bits D
and E (R1441 to R1456). -/
inductive SpuBranch : Instr → (Spe → Bool) → (Spe → Word) → Option (BitVec 7) → Bool → Bool → Prop
  | br (i16 : BitVec 16) : SpuBranch (.spuBr i16) (fun _ => true) (fun p => p.pc + i16.signExtend 32 * 4) none false false
  | bra (i16 : BitVec 16) : SpuBranch (.spuBra i16) (fun _ => true) (fun _ => i16.signExtend 32 * 4) none false false
  | brsl (rt : BitVec 7) (i16 : BitVec 16) : SpuBranch (.spuBrsl rt i16)
      (fun _ => true) (fun p => p.pc + i16.signExtend 32 * 4) (some rt) false false
  | brasl (rt : BitVec 7) (i16 : BitVec 16) : SpuBranch (.spuBrasl rt i16)
      (fun _ => true) (fun _ => i16.signExtend 32 * 4) (some rt) false false
  | brnz (rt : BitVec 7) (i16 : BitVec 16) : SpuBranch (.spuBrnz rt i16)
      (fun p => decide (sW rt 0 p ≠ 0)) (fun p => p.pc + i16.signExtend 32 * 4) none false false
  | brz (rt : BitVec 7) (i16 : BitVec 16) : SpuBranch (.spuBrz rt i16)
      (fun p => decide (sW rt 0 p = 0)) (fun p => p.pc + i16.signExtend 32 * 4) none false false
  | brhnz (rt : BitVec 7) (i16 : BitVec 16) : SpuBranch (.spuBrhnz rt i16)
      (fun p => decide (sU 16 rt 1 p ≠ 0)) (fun p => p.pc + i16.signExtend 32 * 4) none false false
  | brhz (rt : BitVec 7) (i16 : BitVec 16) : SpuBranch (.spuBrhz rt i16)
      (fun p => decide (sU 16 rt 1 p = 0)) (fun p => p.pc + i16.signExtend 32 * 4) none false false
  | bi (ra : BitVec 7) (d e : Bool) : SpuBranch (.spuBi ra d e) (fun _ => true) (fun p => sW ra 0 p / 4 * 4) none d e
  | bisl (rt ra : BitVec 7) (d e : Bool) : SpuBranch (.spuBisl rt ra d e)
      (fun _ => true) (fun p => sW ra 0 p / 4 * 4) (some rt) d e
  | bisled (rt ra : BitVec 7) (d e : Bool) : SpuBranch (.spuBisled rt ra d e)
      (fun p => decide (p.cnt[0] ≠ 0)) (fun p => sW ra 0 p / 4 * 4) (some rt) d e
  | binz (rt ra : BitVec 7) (d e : Bool) : SpuBranch (.spuBinz rt ra d e)
      (fun p => decide (sW rt 0 p ≠ 0)) (fun p => sW ra 0 p / 4 * 4) none d e
  | biz (rt ra : BitVec 7) (d e : Bool) : SpuBranch (.spuBiz rt ra d e)
      (fun p => decide (sW rt 0 p = 0)) (fun p => sW ra 0 p / 4 * 4) none d e
  | bihnz (rt ra : BitVec 7) (d e : Bool) : SpuBranch (.spuBihnz rt ra d e)
      (fun p => decide (sU 16 rt 1 p ≠ 0)) (fun p => sW ra 0 p / 4 * 4) none d e
  | bihz (rt ra : BitVec 7) (d e : Bool) : SpuBranch (.spuBihz rt ra d e)
      (fun p => decide (sU 16 rt 1 p = 0)) (fun p => sW ra 0 p / 4 * 4) none d e

/-- The interrupt enable after a taken branch (48_spu_compare_branch R1449). -/
def enableAfter (p : Spe) (d e : Bool) : Bool := if e then true else if d then false else p.ie

/-- The conditional halts (R1401 to R1406). -/
inductive SpuHalt : Instr → (Spe → Prop) → Prop
  | heq (ra rb : BitVec 7) : SpuHalt (.spuHeq ra rb) fun p => sU 32 ra 0 p = sU 32 rb 0 p
  | heqi (ra : BitVec 7) (i10 : BitVec 10) : SpuHalt (.spuHeqi ra i10) fun p => sS 32 ra 0 p = i10.toInt
  | hgt (ra rb : BitVec 7) : SpuHalt (.spuHgt ra rb) fun p => sS 32 rb 0 p < sS 32 ra 0 p
  | hgti (ra : BitVec 7) (i10 : BitVec 10) : SpuHalt (.spuHgti ra i10) fun p => i10.toInt < sS 32 ra 0 p
  | hlgt (ra rb : BitVec 7) : SpuHalt (.spuHlgt ra rb) fun p => sU 32 rb 0 p < sU 32 ra 0 p
  | hlgti (ra : BitVec 7) (i10 : BitVec 10) : SpuHalt (.spuHlgti ra i10) fun p => i10.toInt % 2^32 < sU 32 ra 0 p

/-! ## Channels (11_state_spe R159 to R165, 49_spu_control_channel R1560 to R1565) -/

/-- `raise(e)` (49_spe_mailbox_signal_event R1761): the event of bit `b` is recorded, and channel 0 counts it if it is enabled. -/
def withEvent (p : Spe) (b : Nat) : Spe :=
  if ibit p.pend b then p
  else { p with pend := p.pend ||| (0x80000000#32 >>> b), cnt := if ibit p.emask b then p.cnt.set 0 1 else p.cnt }

/-- Channel 0 has count 1 if an enabled event is pending (R1763, R1765). -/
def recounted (p : Spe) : Spe := if p.pend &&& p.emask ≠ 0 then { p with cnt := p.cnt.set 0 1 } else p

/-- Bits of the status of class `c` are set; the class must have them masked. -/
def withStatus (p : Spe) (c : Fin 3) (bits : DWord) : Spe := { p with intStat := p.intStat.set c (p.intStat[c] ||| bits) }

/-- The channel reads that do not stall: channel, condition, value, effect (R1560, 11_state_spe R162 to R169,
49_spe_mailbox_signal_event R1736, R1750, R1762, R1764, 49_mfc_commands R1680 to R1687). -/
inductive ChannelRead : Nat → (Spe → Prop) → (Spe → Word) → (Spe → Spe) → Prop
  | eventStatus : ChannelRead 0 (fun p => p.cnt[0] ≠ 0) (fun p => p.pend &&& p.emask) fun p => { p with cnt := p.cnt.set 0 0 }
  | signal1 : ChannelRead 3 (fun p => p.cnt[3] ≠ 0) (fun p => p.sig1) fun p => { p with sig1 := 0, cnt := p.cnt.set 3 0 }
  | signal2 : ChannelRead 4 (fun p => p.cnt[4] ≠ 0) (fun p => p.sig2) fun p => { p with sig2 := 0, cnt := p.cnt.set 4 0 }
  | decrementer : ChannelRead 8 (fun _ => True) (fun p => p.sdec) id
  | eventMask : ChannelRead 11 (fun _ => True) (fun p => p.emask) id
  | tagMask : ChannelRead 12 (fun _ => True) (fun p => p.tagMask) id
  | machineStatus : ChannelRead 13 (fun _ => True) (fun p => if p.ie then 1 else 0) id
  | srr0 : ChannelRead 15 (fun p => p.srr0Old = none) (fun p => p.srr0) id
  | tagStatus : ChannelRead 24 (fun p => p.cnt[24] ≠ 0) (fun p => p.tagStat) fun p => { p with cnt := p.cnt.set 24 0 }
  | stallStatus : ChannelRead 25 (fun p => p.cnt[25] ≠ 0) (fun p => p.stallStat)
      fun p => { p with stallStat := 0, cnt := p.cnt.set 25 0 }
  | atomicStatus : ChannelRead 27 (fun p => p.cnt[27] ≠ 0) (fun p => p.atomStat)
      fun p => { p with atomStat := 0, cnt := p.cnt.set 27 0 }
  | inMbox : ChannelRead 29 (fun p => p.cnt[29] ≠ 0 ∧ p.intMask[2] &&& 0x10 = 0) (fun p => p.inMbox[0]) fun p =>
      let q := { p with
        inMbox := #v[p.inMbox[1], p.inMbox[2], p.inMbox[3], 0], cnt := p.cnt.set 29 (p.cnt[29] - 1) }
      if p.cnt[29] = 1 then withStatus q 2 0x10 else q

/-- The channel writes that do not stall: channel, condition, effect of the value (R1561, R1564, R1566,
49_spe_mailbox_signal_event R1731, R1733, R1763, R1765, 49_mfc_commands R1631, R1680, R1682, R1686). -/
inductive ChannelWrite : Nat → (Spe → Word → Prop) → (Spe → Word → Spe) → Prop
  | eventMask : ChannelWrite 1 (fun _ _ => True) fun p v => recounted { p with emask := v }
  | eventAck : ChannelWrite 2 (fun _ _ => True) fun p v =>
      recounted { p with sdecRun := p.sdecRun && !(ibit v 26 && !ibit p.emask 26), pend := p.pend &&& ~~~v }
  | decrementer : ChannelWrite 7 (fun _ _ => True) fun p v =>
      let q := { p with sdec := v, sdecRun := p.sdecRun || !p.dh }
      if p.sdec.msb = false ∧ v.msb = true then withEvent q 26 else q
  | multisource : ChannelWrite 9 (fun p _ => p.cnt[9] ≠ 0) fun p _ =>
      { p with cnt := p.cnt.set 9 0, snoopQ := p.snoopQ.map fun x => { x with ch := true } }
  | srr0 : ChannelWrite 14 (fun _ _ => True) fun p v => { p with srr0 := v, srr0Old := some p.srr0 }
  | lsa : ChannelWrite 16 (fun _ _ => True) fun p v => { p with mfcLsa := v }
  | eah : ChannelWrite 17 (fun _ _ => True) fun p v => { p with mfcEah := v }
  | eal : ChannelWrite 18 (fun _ _ => True) fun p v => { p with mfcEal := v }
  | size : ChannelWrite 19 (fun _ _ => True) fun p v => { p with mfcSize := v.setWidth 16 }
  | tag : ChannelWrite 20 (fun _ _ => True) fun p v => { p with mfcTag := v.setWidth 16 }
  | tagMask : ChannelWrite 22 (fun _ _ => True) fun p v => { p with tagMask := v }
  | tagUpdate : ChannelWrite 23 (fun p v => p.cnt[23] ≠ 0 ∨ v.toNat % 4 = 0 ∨ v.toNat % 4 = 3) fun p v =>
      { p with tagReq := if v.toNat % 4 = 3 then 0 else v.setWidth 2, cnt := (p.cnt.set 23 0).set 24 0 }
  | stallAck : ChannelWrite 26 (fun p v => ∃ c ∈ p.spuQ, c.stalled = true ∧ c.tag.toNat % 32 = v.toNat % 32) fun p v =>
      { p with spuQ := p.spuQ.map fun c => { c with stalled := c.stalled && decide (c.tag.toNat % 32 ≠ v.toNat % 32) } }
  | outMbox : ChannelWrite 28 (fun p _ => p.cnt[28] ≠ 0) fun p v => { p with outMbox := v, cnt := p.cnt.set 28 0 }
  | outIntrMbox : ChannelWrite 30 (fun p _ => p.cnt[30] ≠ 0 ∧ p.intMask[2] &&& 0x1 = 0) fun p v =>
      withStatus { p with outIntrMbox := v, cnt := p.cnt.set 30 0 } 2 0x1

/-- The channels that an SPU may read, and those that it may write (11_state_spe R159, R160). -/
def readChannels : List Nat := [0, 3, 4, 8, 11, 12, 13, 15, 24, 25, 27, 29]
def writeChannels : List Nat := [1, 2, 7, 9, 14, 16, 17, 18, 19, 20, 21, 22, 23, 26, 28, 30]

/-! ## MFC commands (49_mfc_commands sections 2 to 7) -/

/-- A command as it enters a queue. -/
def newCommand (word lsa : Word) (ea : DWord) (size tag : BitVec 16) (order slot : Nat) : MfcCmd :=
  { word := word, lsa := lsa, ea := ea, size := size, tag := tag, order := order, slot := slot, listDone := 0, elem := none,
    units := 0, stalled := false, dep := false }

/-- Entry number `k` is the lowest that no command of the queue has (log 21). -/
def lowestFree (q : List MfcCmd) (k : Nat) : Prop := (∀ c ∈ q, c.slot ≠ k) ∧ ∀ j, j < k → ∃ c ∈ q, c.slot = j

/-- The opcodes of the immediate atomic commands (R1641). -/
def immediateOps : List Nat := [0xD0, 0xB4, 0xB0]

/-- The command at a place of an MFC. -/
def commandAt (p : Spe) : MfcSel → Option MfcCmd
  | .spu k => p.spuQ[k]?
  | .proxy k => p.pxQ[k]?
  | .atomic => p.atomicCmd

/-- The moving MFC performs command `c` at place `x`. -/
structure Performs (s : State) (x : MfcSel) (c : MfcCmd) : Prop where
  agent : ∃ n, s.cur = .mfc n
  place : s.sel = x
  command : commandAt s.spe x = some c

/-- A place in the SPU queue, or in either queue; the tag is in its range (R1636, R1637). -/
def inSpuQueue (x : MfcSel) (c : MfcCmd) : Prop := (∃ k, x = .spu k) ∧ c.tag.toNat < 32
def inQueue (x : MfcSel) (c : MfcCmd) : Prop := x ≠ .atomic ∧ c.tag.toNat < 32
def inProxyQueue (x : MfcSel) (c : MfcCmd) : Prop := (∃ k, x = .proxy k) ∧ c.tag.toNat < 32

/-- The place holds another command. -/
def placeCommand (p : Spe) (x : MfcSel) (c : MfcCmd) : Spe :=
  match x with
  | .spu k => { p with spuQ := p.spuQ.set k c }
  | .proxy k => { p with pxQ := p.pxQ.set k c }
  | .atomic => { p with atomicCmd := some c }

/-- The command leaves its queue; an SPU queue that was full raises event Qv (R1643, 49_spe_mailbox_signal_event R1779). -/
def commandLeaves (p : Spe) (x : MfcSel) : Spe :=
  match x with
  | .spu k =>
    let q := { p with spuQ := p.spuQ.eraseIdx k, cnt := p.cnt.set 21 (p.cnt[21] + 1) }
    if p.cnt[21] = 0 then withEvent q 28 else q
  | .proxy k => { p with pxQ := p.pxQ.eraseIdx k }
  | .atomic => { p with atomicCmd := none }

/-- Command `i` only changes the moving SPE, which becomes `q`. -/
def BecomesSpe (i : Instr) (s : State) (q : Spe) : Prop :=
  ∃ t, Machine.exec i s = .next t ∧ OnlySpe s t ∧ t.spe = q

/-- The command completes: it leaves its queue, and no armed proxy query is there to be answered (R1643, R1688). -/
def CommandEnds (i : Instr) (s : State) (x : MfcSel) (q : Spe) : Prop :=
  s.spe.pxQueryType = 0 → BecomesSpe i s (commandLeaves q x)

/-- The start of the SPU by an `s` form (R1650, 49_spu_control_channel R1557). -/
def started (p : Spe) : Spe :=
  if ibit p.sr1 58 && !p.running then
    { p with
      runCntl := 1, running := true, pc := (p.npc &&& p.lslr) / 4 * 4, ie := ibit p.npc 31,
      status := 1, ibuf := [] }
  else { p with runCntl := 1 }

/-- The `put` and `get` forms: whether it stores to the effective address, whether it starts the SPU, whether its size must be 4
(R1645, R1646, R1648 to R1650, R1655, R1656). -/
inductive MfcTransfer : Instr → Bool → Bool → Bool → Prop
  | put (a b : BitVec 8) : MfcTransfer (.mfcPut a b) true false false
  | putb (a b : BitVec 8) : MfcTransfer (.mfcPutb a b) true false false
  | putf (a b : BitVec 8) : MfcTransfer (.mfcPutf a b) true false false
  | putr (a b : BitVec 8) : MfcTransfer (.mfcPutr a b) true false false
  | putrb (a b : BitVec 8) : MfcTransfer (.mfcPutrb a b) true false false
  | putrf (a b : BitVec 8) : MfcTransfer (.mfcPutrf a b) true false false
  | puts (a b : BitVec 8) : MfcTransfer (.mfcPuts a b) true true false
  | putbs (a b : BitVec 8) : MfcTransfer (.mfcPutbs a b) true true false
  | putfs (a b : BitVec 8) : MfcTransfer (.mfcPutfs a b) true true false
  | get (a b : BitVec 8) : MfcTransfer (.mfcGet a b) false false false
  | getb (a b : BitVec 8) : MfcTransfer (.mfcGetb a b) false false false
  | getf (a b : BitVec 8) : MfcTransfer (.mfcGetf a b) false false false
  | gets (a b : BitVec 8) : MfcTransfer (.mfcGets a b) false true false
  | getbs (a b : BitVec 8) : MfcTransfer (.mfcGetbs a b) false true false
  | getfs (a b : BitVec 8) : MfcTransfer (.mfcGetfs a b) false true false
  | sndsig (a b : BitVec 8) : MfcTransfer (.mfcSndsig a b) true false true
  | sndsigb (a b : BitVec 8) : MfcTransfer (.mfcSndsigb a b) true false true
  | sndsigf (a b : BitVec 8) : MfcTransfer (.mfcSndsigf a b) true false true

/-- The list forms: whether they store to the effective address (R1670). -/
inductive MfcList : Instr → Bool → Prop
  | putl (a b : BitVec 8) : MfcList (.mfcPutl a b) true
  | putlb (a b : BitVec 8) : MfcList (.mfcPutlb a b) true
  | putlf (a b : BitVec 8) : MfcList (.mfcPutlf a b) true
  | putrl (a b : BitVec 8) : MfcList (.mfcPutrl a b) true
  | putrlb (a b : BitVec 8) : MfcList (.mfcPutrlb a b) true
  | putrlf (a b : BitVec 8) : MfcList (.mfcPutrlf a b) true
  | getl (a b : BitVec 8) : MfcList (.mfcGetl a b) false
  | getlb (a b : BitVec 8) : MfcList (.mfcGetlb a b) false
  | getlf (a b : BitVec 8) : MfcList (.mfcGetlf a b) false

/-- The storage-control commands without an effect, and the synchronization commands, which have no parameters to check
(R1657, R1691). -/
inductive MfcHint : Instr → Bool → Prop
  | sdcrt (a b : BitVec 8) : MfcHint (.mfcSdcrt a b) true
  | sdcrtst (a b : BitVec 8) : MfcHint (.mfcSdcrtst a b) true
  | sdcrst (a b : BitVec 8) : MfcHint (.mfcSdcrst a b) true
  | sdcrf (a b : BitVec 8) : MfcHint (.mfcSdcrf a b) true
  | barrier (a b : BitVec 8) : MfcHint (.mfcBarrier a b) false
  | mfceieio (a b : BitVec 8) : MfcHint (.mfcMfceieio a b) false
  | mfcsync (a b : BitVec 8) : MfcHint (.mfcMfcsync a b) false

/-- A transfer of `n` bytes is of a valid size and aligned (R1633, R1634, R1651). -/
def validTransfer (n lsa ea : Nat) : Prop :=
  (n ∈ [1, 2, 4, 8] ∧ ea % n = 0 ∧ lsa % 16 = ea % 16) ∨ (n % 16 = 0 ∧ n ≤ 16384 ∧ ea % 16 = 0 ∧ lsa % 16 = 0)

/-- The size that a command names (R1633). -/
def transferSize (c : MfcCmd) : Nat := c.size.toNat % 2^15

/-- The number of units of `n` bytes (R1647). -/
def unitsOf (n : Nat) : Nat := if n = 0 then 0 else if n < 16 then 1 else n / 16

/-- Every unit below `n` is performed. -/
def allPerformed (units n : Nat) : Prop := ∀ k, k < n → units.testBit k = true

/-- The moving MFC is in real mode, does not compare LS addresses, and every memory that it uses is in canonical form. -/
structure DmaReady (s : State) : Prop where
  realMode : ibit s.spe.sr1 59 = false
  noCompare : s.spe.cell keyLsacr = 0
  memory : Memory.wf s.mem = true
  storage : Memory.wf s.spe.ls = true
  cells : swf 0 s.spe.cells = true

/-- The real address of an effective address in real mode (21_translation R518), an address in local storage (R1652), the
128-byte line of each. -/
def realOf (ea : Nat) : Nat := ea % 2^42
def lsOf (p : Spe) (lsa : Nat) : Nat := lsa &&& p.lslr.toNat
def lineOf (a : Nat) : Nat := a / 128 * 128

/-- A thread, and another SPE, whose reservation another agent's store to granule `g` ends (20_memory R421, R424). -/
def threadLoses (th : Thread) (g : Nat) : Thread := if th.reserve = some g then { th with reserve := none } else th
def speLoses (p : Spe) (g : Nat) : Spe := if p.llres = some g then withEvent { p with llres := none } 21 else p
/-- The storing SPE's own reservation. -/
def speDrops (p : Spe) (g : Nat) : Spe := if p.llres = some g then { p with llres := none } else p

/-- Command `i` stores `len` bytes of `src` at real address `ra` of main storage: no other byte changes, the reservations of the
granule are lost, the moving SPE becomes `q` but for MFC_DAR. -/
def StoresLine (i : Instr) (s : State) (ra len : Nat) (src : Nat → Byte) (q : Spe) : Prop :=
  ∃ t, Machine.exec i s = .next t ∧
    { t with mem := s.mem, threads := s.threads, spes := s.spes, freeCount := s.freeCount } = s ∧
    (∀ a, readByte t.mem a = if ra ≤ a ∧ a < ra + len then src (a - ra) else readByte s.mem a) ∧
    (∀ u : Fin 2, t.threads[u] = threadLoses s.threads[u] (ra / 128)) ∧
    (∀ m : Fin 8, m ≠ s.curN → t.spes[m] = speLoses s.spes[m] (ra / 128)) ∧
    { t.spe with cells := s.spe.cells } = q ∧ ∀ key, key ≠ keyDar → t.spe.cell key = s.spe.cell key

/-- Command `i` copies `len` bytes of main storage from real address `ra` to address `a0` of local storage: no other byte changes,
and the moving SPE becomes `q` but for MFC_DAR. -/
def FetchesLine (i : Instr) (s : State) (ra len a0 : Nat) (q : Spe) : Prop :=
  ∃ t, Machine.exec i s = .next t ∧ OnlySpe s t ∧
    (∀ a, readByte t.spe.ls a = if a0 ≤ a ∧ a < a0 + len then readByte s.mem (ra + (a - a0)) else readByte s.spe.ls a) ∧
    { t.spe with ls := s.spe.ls, cells := s.spe.cells } = q ∧ ∀ key, key ≠ keyDar → t.spe.cell key = s.spe.cell key

/-- Command `i` performs one of the `cnt` units left of command `c` at `x`, which moves `n` bytes between `lsa` and `ea`. -/
def MovesUnit (i : Instr) (s : State) (x : MfcSel) (c : MfcCmd) (put : Bool) (lsa ea n cnt : Nat) : Prop :=
  ∃ k, k < cnt ∧ c.units.testBit k = false ∧
    let ra := realOf (ea + 16 * k)
    let a0 := lsOf s.spe (lsa + 16 * k)
    let q := placeCommand s.spe x { c with units := c.units ||| 2^k }
    if put then StoresLine i s ra (min n 16) (fun j => readByte s.spe.ls (a0 + j)) (speDrops q (ra / 128))
    else FetchesLine i s ra (min n 16) a0 q

/-- A list element (R582): its size, its effective address with the upper half of the command's, its check (R1671). -/
def elementSize (e : DWord) : Nat := e.toNat / 2^32 % 2^15
def elementLow (e : DWord) : Nat := e.toNat % 2^32
def elementValid (e : DWord) : Prop :=
  elementSize e = 0 ∨ (elementSize e ∈ [1, 2, 4, 8] ∧ elementLow e % elementSize e = 0) ∨
  (elementSize e % 16 = 0 ∧ elementSize e ≤ 16384 ∧ elementLow e % 16 = 0)

/-- The running LS address of a list command's element (R1672). -/
def elementLsa (c : MfcCmd) (e : DWord) : Nat :=
  if elementSize e < 16 then c.lsa.toNat + elementLow e % 16 else c.lsa.toNat

/-- The units of an element up to the end of the 4 GB area of its list (R1674). -/
def elementUnits (e : DWord) : Nat := min (unitsOf (elementSize e)) ((2^32 - elementLow e + 15) / 16)

/-- The parameters of a list command are valid (R1635). -/
def validList (c : MfcCmd) : Prop := transferSize c % 8 = 0 ∧ transferSize c ≤ 16384 ∧ c.ea.toNat % 8 = 0

/-- The command error (2) or alignment error (1) of the command with index `k`: both queues stop (R1639). -/
def MfcError (i : Instr) (s : State) (k : Nat) (bit : DWord) : Prop :=
  s.spe.intMask[0] &&& bit = 0 →
    BecomesSpe i s (withStatus { s.spe with halted := true, cells := sput 0 s.spe.cells keyCer (BitVec.ofNat 64 k) } 0 bit)

/-- The index of the command at a place in MFC_CER and MFC_DSIPR: the number of its entry (61_spe_iic_interrupts R1937; 24 for the
atomic command: log 21). -/
def placeIndex (x : MfcSel) (c : MfcCmd) : Nat :=
  match x with
  | .spu _ => c.slot
  | .proxy _ => 16 + c.slot
  | .atomic => 24

/-- The synchronization commands; the forms with a barrier; those with a fence (R1648, R1691). -/
def syncOps : List Nat := [0xC0, 0xC8, 0xCC]
def barrierOps : List Nat := [0x21, 0x25, 0x29, 0x31, 0x35, 0x41, 0x45, 0x49, 0xA1]
def fenceOps : List Nat := [0x22, 0x26, 0x2A, 0x32, 0x36, 0x42, 0x46, 0x4A, 0xA2]

/-- The opcode of a command. -/
def opOf (c : MfcCmd) : Nat := c.word.toNat % 256

/-- The list commands (R1670). -/
def listOps : List Nat := [0x24, 0x25, 0x26, 0x34, 0x35, 0x36, 0x44, 0x45, 0x46]

/-- The number of 128-byte lines that `n` bytes from `ea` on reach (R1691). -/
def linesOf (ea n : Nat) : Nat := if n = 0 then 0 else (ea + n - 1) / 128 - ea / 128 + 1

/-- All the data of a command has moved: only its completion is left (R1630 (b), R1639). -/
def dataMoved (c : MfcCmd) : Prop :=
  if opOf c ∈ listOps then
    0 < c.listDone ∧ transferSize c ≤ c.listDone ∧
    ∀ e, c.elem = some e → allPerformed c.units (elementUnits e) ∧ elementLow e + elementSize e ≤ 2^32 ∧ ibit e 0 = false
  else c.units ≠ 0 ∧ (opOf c = 0xB8 ∨
    allPerformed c.units (if opOf c = 0x89 then linesOf c.ea.toNat (transferSize c) else unitsOf (transferSize c)))

/-- A command is not held up by an earlier command of its queue (R1692 (b) to (d)). -/
def notBlocked (q : List MfcCmd) (c : MfcCmd) : Prop :=
  ∀ d ∈ q, d.order < c.order → opOf d ∉ syncOps ∧ opOf c ∉ syncOps ∧
    (d.tag.toNat % 32 = c.tag.toNat % 32 → opOf d ∉ barrierOps ∧ opOf c ∉ fenceOps ∧ opOf c ∉ barrierOps ∧ opOf c ≠ 0xB8) ∧
    (opOf c = 0xB8 → opOf d ≠ 0xB8)

/-- The tag groups of the mask that have no command in the queue (R1682). -/
def groupDone (q : List MfcCmd) (g : Nat) : Prop := ∀ c ∈ q, c.tag.toNat % 32 ≠ g

/-! ## The whole machine -/

/-- The decoder of the instruction set of an instruction: the first 396 constructors of `Instr` are PPE instructions, the next 201
SPU instructions, the others MFC commands. -/
noncomputable def decodeAs (i : Instr) (w : Word) : Except DecodeReject Instr :=
  if i.ctorIdx < 396 then decodePpe w else if i.ctorIdx < 597 then decodeSpu w else decodeMfc w

/-- What only a supervisor or a hypervisor may change: of a thread, and of the registers that the threads share (10_state R54 to
R81, 44_ppe_system R920). -/
def supervisorView (th : Thread) :=
  ((th.msr, th.srr0, th.srr1, th.hsrr0, th.hsrr1, th.sprg0, th.sprg1, th.sprg2, th.sprg3, th.hsprg0, th.hsprg1),
   (th.dec, th.lpcrMer, th.lpcrRmi, th.lpcrHdice, th.dabr, th.dabrx, th.accr, th.slb))
def hypervisorView (p : PpeShared) :=
  ((p.hdec, p.sdr1, p.lpidr, p.rmor, p.hrmor, p.rmls, p.tl, p.lpes, p.tscr, p.ttr),
   (p.hid0, p.hid1, p.hid4, p.hid6, p.tlbRmt, p.te, p.th, p.run))

/-- The state with SPE `n` replaced. -/
def setSpe (s : State) (n : Fin 8) (p : Spe) : State := { s with spes := s.spes.set n p }

/-- What a tick leaves: the time base and HDEC, the decrementers of the threads and those of the SPEs that run count once, a
decrementer of an SPE that turns negative raises event Tm; nothing else changes but the schedule (62_platform R1990, R1995). -/
structure Ticked (s t : State) : Prop where
  shared : t.ppe = { s.ppe with tb := s.ppe.tb + 1, hdec := s.ppe.hdec - 1 }
  thread : ∀ u : Fin 2, t.threads[u] = { s.threads[u] with dec := s.threads[u].dec - 1 }
  spe : ∀ n : Fin 8, t.spes[n] =
    let p := s.spes[n]
    let q := { p with sdec := p.sdec - 1 }
    if p.sdecRun = false ∨ p.dh = true then p
    else if p.sdec.msb = false ∧ (p.sdec - 1).msb = true then withEvent q 26 else q
  others : { t with ppe := s.ppe, threads := s.threads, spes := s.spes, schedule := s.schedule } = s

/-- No cause of higher priority than the decrementers is there for thread `u` (60_exceptions R1806): no machine check, thermal, system
error, maintenance or external interrupt. -/
structure Undisturbed (s : State) (u : Fin 2) : Prop where
  running : ibit s.ppe.te u.val = true
  machineCheck : s.threads[u].mcheck = none
  thermal : ibit s.ppe.hid0 29 = false
  systemError : s.threads[u].sysErr = false
  maintenance : s.threads[u].maint = 0
  scan : s.threads[u].maintInstr = 0
  mediated : s.threads[u].lpcrMer = false

/-- The words of a few instructions of every family: the examples of the specification (40_ppe_branch R600, R601, 42_ppe_integer
R741, 44_ppe_system R922, R926, 45_ppe_vmx_1 R1046, 46_spu_loadstore_const R1223, R1228, 47_spu_integer R1261, R1263, R1279,
49_spu_control_channel R1560, 49_mfc_commands R1632), and `lwz 5,8(1)` and `fadd 1,2,3` written out from their fields. -/
noncomputable def sampleWords : List (Instr × Word) :=
  [(.ppeB 4 false true, 0x48000011), (.ppeBc 16 0 0x3FFE false false, 0x4200FFF8), (.ppeAddi 3 0 0xFFFF, 0x3860FFFF),
   (.ppeSc 1, 0x44000022), (.ppeMfspr 0 8, 0x7C0802A6), (.ppeLwz 5 1 8, 0x80A10008), (.ppeFadd 1 2 3 false, 0xFC22182A),
   (.ppeVspltisw 0 0, 0x1000038C), (.spuLqd 4 1 1, 0x34004084), (.spuStqx 3 4 5, 0x28814203), (.spuA 3 4 5, 0x18014203),
   (.spuAi 3 3 0x3FF, 0x1CFFC183), (.spuMpya 3 4 5 6, 0xC0614206), (.spuRdch 3 29, 0x01A00E83), (.mfcPut 0 0, 0x20),
   (.mfcGetl 1 2, 0x01020044), (.mfcGetllar 0 0, 0xD0)]

/-- The queue of a controller presents the interrupt of priority `p`: no generation-port interrupt is there, and no entry of a
numerically lower priority is valid (61_spe_iic_interrupts R1903). -/
def presents (c : Iic) (p : BitVec 4) : Prop :=
  c.igp = 0 ∧ (c.queue[p.toNat]'p.isLt).valid = true ∧ ∀ q : BitVec 4, q.toNat < p.toNat → (c.queue[q.toNat]'q.isLt).valid = false

end Sys2Proof.Safety
end

