-- ==== Sys2Proof/Certificates/Slice0/Obligations.lean ====
section
/-! DEFINITION. The statements for the provers. Each docstring names the rules of spec/ that the statement formalises, or
says that the statement is about the model's own choice. -/

open Sys2Proof Sys2Proof.Machine Sys2Proof.Safety


/-- The additions and subtractions that leave CA alone: encoding, value, OV and SO, CR0, frame (R741 to R744, R756). The carrying
additions and subtractions: encoding, value, CA, OV and SO, CR0, frame (R745 to R755). -/
def Obligations.AdditionsDeliverSumAndCarry : Prop :=
  (∀ i op xo fx, PlainSum i op xo fx → opcd i = op ∧ (∀ x, xo = some x → xo9 i = x) ∧
      ∀ s, Completes i s (fx s.thr).writes (Delivers (fx s.thr) s)) ∧
  ∀ i op xo fx, CarryingSum i op xo fx → opcd i = op ∧ (∀ x, xo = some x → xo9 i = x) ∧
      ∀ s, Completes i s (fx s.thr).writes (Delivers (fx s.thr) s)

/-- The products and quotients of defined result: value, OV and SO, CR0, frame. The word products and quotients: the low word of the
result, OV := 0 with OE, CR0 with Rc (its LT, GT and EQ only in 32-bit mode); nothing is said of the upper word. A divide by zero,
or of the most negative number by -1, completes without an interrupt: OV and SO are set with OE; nothing is said of the quotient, or
of LT, GT and EQ. -/
def Obligations.ProductsAndQuotients : Prop :=
  (∀ i ok fx, WholeProduct i ok fx → ∀ s, ok s.thr →
      ∃ x, fx s.thr x ∧ Completes i s x.writes (Delivers x s)) ∧
  (∀ i rt oe rec ok low, WordProduct i rt oe rec ok low → ∀ s, ok s.thr →
      Completes i s (productWrites rt oe rec) fun t =>
        low s.thr ((t.thr.getGpr rt).setWidth 32) ∧
        (oe = true → ibit t.thr.xer 33 = false ∧ ibit t.thr.xer 32 = ibit s.thr.xer 32) ∧
        (rec = true → ibit t.thr.cr 3 = ibit t.thr.xer 32 ∧ (ibit s.thr.msr 0 = false → Recorded t.thr (t.thr.getGpr rt)))) ∧
  ∀ i rt oe rec ok, UndefinedQuotient i rt oe rec ok → ∀ s, ok s.thr →
      Completes i s (productWrites rt oe rec) fun t =>
        (oe = true → ibit t.thr.xer 33 = true ∧ ibit t.thr.xer 32 = true) ∧
        (rec = true → ibit t.thr.cr 3 = ibit t.thr.xer 32)

/-- A compare sets its CR field to LT, GT, EQ of the two numbers, and SO; nothing else changes (R775 to R778). -/
def Obligations.ComparesSetTheirField : Prop :=
  ∀ i bf f, Comparison i bf f → ∀ s,
    Completes i s { cr := crFieldMask bf } fun t =>
      let k := 4 * bf.toNat
      ibit t.thr.cr k = decide ((f s.thr).1 < (f s.thr).2) ∧ ibit t.thr.cr (k + 1) = decide ((f s.thr).2 < (f s.thr).1) ∧
      ibit t.thr.cr (k + 2) = decide ((f s.thr).1 = (f s.thr).2) ∧ ibit t.thr.cr (k + 3) = ibit s.thr.xer 32

/-- Every bit of the result of a logical instruction, and CR0 of it. -/
def Obligations.LogicalResultsBitByBit : Prop :=
  ∀ i ra rec f, Logical i ra rec f → ∀ s,
    Completes i s (logicalWrites i ra rec) fun t =>
      (∀ k, k < 64 → ibit (t.thr.getGpr ra) k = f s.thr k) ∧ (rec = true → Recorded t.thr (t.thr.getGpr ra))

/-- Every bit of the result of a rotation under its mask, and CR0 of it. -/
def Obligations.RotationsUnderMask : Prop :=
  ∀ i ra rec rot mask ins, Rotation i ra rec rot mask ins → ∀ s,
    Completes i s { gpr := [ra], cr := if rec then cr0Mask else 0 } fun t =>
      (∀ k, k < 64 → ibit (t.thr.getGpr ra) k =
        if mask s.thr k then rot s.thr k else ins && ibit (s.thr.getGpr ra) k) ∧
      (rec = true → Recorded t.thr (t.thr.getGpr ra))

/-- The shifts and the counts of leading zeros: value, CA of the algebraic right shifts, CR0, frame. -/
def Obligations.ShiftsAndCarryOfShiftedOutOnes : Prop :=
  ∀ i fx, Shift i fx → ∀ s, Completes i s (fx s.thr).writes (Delivers (fx s.thr) s)

/-- The condition-register logical instructions and `mcrf`: the bit or field written, the rest of CR and everything else unchanged (R610
to R618). `mtcrf` copies the selected fields from the low word of the register; `mtocrf` of one field does the same; `mfocrf` of one
field delivers it in its place; with another selection `mtocrf` and `mfocrf` still complete (R932, R933, R935, U53). -/
def Obligations.ConditionRegisterFields : Prop :=
  ((∀ i bt f, CrLogical i bt f → ∀ s, Completes i s { cr := crBitMask bt } fun t => ibit t.thr.cr bt.toNat = f s.thr) ∧
    ∀ (bf bfa : BitVec 3) s, Completes (.ppeMcrf bf bfa) s { cr := crFieldMask bf } fun t =>
      ∀ j, j < 4 → ibit t.thr.cr (4 * bf.toNat + j) = ibit s.thr.cr (4 * bfa.toNat + j)) ∧
  ∀ (r : BitVec 5) (fxm : BitVec 8) s,
      let copied (t : State) : Prop := ∀ k, k < 32 →
        ibit t.thr.cr k = if ibit fxm (k / 4) then ibit (s.thr.getGpr r) (32 + k) else ibit s.thr.cr k
      Completes (.ppeMtcrf r fxm) s { cr := 0xFFFFFFFF } copied ∧
      Completes (.ppeMtocrf r fxm) s { cr := 0xFFFFFFFF } (fun t => (∃ f, f < 8 ∧ fxm = 128#8 >>> f) → copied t) ∧
      Completes (.ppeMfocrf r fxm) s { gpr := [r] } fun t => ∀ f, f < 8 → fxm = 128#8 >>> f →
        ∀ j, j < 4 → ibit (t.thr.getGpr r) (32 + 4 * f + j) = ibit s.thr.cr (4 * f + j)

/-- The branches in their valid forms: CTR counted down first, the target or the next address, LR from the old pc; nothing else changes
(R600 to R603). -/
def Obligations.BranchesGoToTheirTarget : Prop :=
  ∀ i taken addr lk counts, Branch i taken addr lk counts → ∀ s,
    ∃ t, Machine.exec i s = .next t ∧ OnlyThread s t ∧ Keeps { lr := lk, ctr := counts } s.thr t.thr ∧
      t.thr.pc = (if taken s.thr then branchTarget s.thr (addr s.thr) else following s.thr) ∧
      (lk = true → t.thr.lr = s.thr.pc + 4) ∧ (counts = true → t.thr.ctr = s.thr.ctr - 1)

/-- A trap whose condition holds takes the program interrupt with SRR1[46]; otherwise the instruction only goes on (R620 to R623,
60_exceptions R1828). -/
def Obligations.TrapsOnTheirCondition : Prop :=
  ∀ i cond, Trap i cond → ∀ s,
    (cond s.thr → Traps i s 0x700 0x20000) ∧ (¬cond s.thr → Completes i s {} fun _ => True)

/-- `sc` enters the handler at x'C00' with the address of the next instruction in SRR0; MSR[HV] is set with LEV[6] = 1 (R922) or
LPES = '00' (60_exceptions R1805, R1833; that LEV = 0 does not keep HV then is the model's reading, log 19). -/
def Obligations.SystemCallEntersHandler : Prop :=
  ∀ (lev : BitVec 7) s, ∃ t, Machine.exec (.ppeSc lev) s = .next t ∧
    Enters s.thr s t 0xC00 (s.thr.pc + 4) 0 (ibit lev 6 || lpesZero s)

/-- Every interrupt: the save pair, the vector, the MSR, and nothing else of the thread, by Tables 9-3 and 9-40 (R1801, R1802, R1804,
R1805): the saved image copies the MSR where `copiesMsr` says so and holds the information bits elsewhere; after the entry every MSR bit
that the table does not name, VXU and the reserved ones, is unchanged (the choice D89 of the specification, on which Table 9-40 is
silent). With the information that the machine gives, the saved bit 62 of an imprecise machine check is 0 (R1811), of thermal management
33 is 1 and 34:47 are 0 (R1880), of maintenance 34, 37, 39:44 and 47 are 0 (R1875). -/
def Obligations.InterruptEntrySavesAndVectors : Prop :=
  ∀ (s : State) (u : Fin 2) (k : Interrupt) (ret info : DWord),
    let th := s.threads[u]
    let th' := (s.interrupt u k ret info).threads[u]
    let hsrr := savesInHsrr s.ppe k
    let pair := if hsrr then (th'.hsrr0, th'.hsrr1) else (th'.srr0, th'.srr1)
    pair.1 = ret ∧
    (∀ b, b < 64 → copiesMsr k b = true → ibit info b = false → ibit pair.2 b = ibit th.msr b) ∧
    (∀ b, b < 64 → copiesMsr k b = false → ibit pair.2 b = ibit info b) ∧
    (k = .machineCheck false → info = 0 → ibit pair.2 62 = false) ∧
    (k = .thermal → info = info33 → ibit pair.2 33 = true ∧ ∀ b, 34 ≤ b → b ≤ 47 → ibit pair.2 b = false) ∧
    (k = .maintenance → (∃ causes, info = maintInfo causes) ∨ (∃ inputs : BitVec 2, info = setIbm info33 35 inputs) →
      ∀ b ∈ [34, 37, 39, 40, 41, 42, 43, 44, 47], ibit pair.2 b = false) ∧
    (∀ b, b < 64 → b ∉ [0, 3, 48, 49, 50, 51, 52, 53, 54, 55, 58, 59, 62] → ibit th'.msr b = ibit th.msr b) ∧
    (ibit th'.msr 0 = true ∧ ∀ b ∈ [48, 49, 50, 52, 53, 54, 55, 58, 59], ibit th'.msr b = false) ∧
    ibit th'.msr 3 = (ibit th.msr 3 || entersHypervisor s.ppe k) ∧
    ibit th'.msr 51 = (ibit th.msr 51 && decide (k ≠ .machineCheck false ∧ k ≠ .machineCheck true)) ∧
    ibit th'.msr 62 = (ibit th.msr 62 && hsrr) ∧
    (∀ v, VectorTable k v → th'.pc = v) ∧ (k = .systemReset → th'.pc = s.sresetVector u) ∧
    { th' with srr0 := th.srr0, srr1 := th.srr1, hsrr0 := th.hsrr0, hsrr1 := th.hsrr1, msr := th.msr, pc := th.pc } = th ∧
    (∀ v, v ≠ u → (s.interrupt u k ret info).threads[v] = s.threads[v]) ∧
    { s.interrupt u k ret info with threads := s.threads } = s ∧
    (hsrr = true → th'.srr0 = th.srr0 ∧ th'.srr1 = th.srr1) ∧
    (hsrr = false → th'.hsrr0 = th.hsrr0 ∧ th'.hsrr1 = th.hsrr1)

/-- `rfid` in supervisor state and `hrfid` in hypervisor state: MSR from the save pair without its information bits, with PR forcing EE,
IR and DR, HV and ME kept outside hypervisor state; the pc from the save pair, word-aligned (R923, R924). Where that leaves an
enabled floating-point exception pending, the program interrupt follows (60_exceptions R1806 F.1; log 24). -/
def Obligations.ReturnsFromInterrupt : Prop :=
  ∀ s (hyper : Bool), supervisorState s.thr → (hyper = true → ibit s.thr.msr 3 = true) →
    let i := if hyper then Instr.ppeHrfid else Instr.ppeRfid
    let image := if hyper then s.thr.hsrr1 else s.thr.srr1
    let ret := if hyper then s.thr.hsrr0 else s.thr.srr0
    ∃ t, LeavesOrFloatTraps i s t ∧ OnlyThread s t ∧ { t.thr with pc := s.thr.pc, msr := s.thr.msr } = s.thr ∧
      (∀ b ∈ [0, 38, 49, 50, 52, 53, 54, 55, 62], ibit t.thr.msr b = ibit image b) ∧
      (∀ b ∈ [48, 58, 59], ibit t.thr.msr b = (ibit image b || ibit image 49)) ∧
      (∀ b ∈ [3, 51], ibit t.thr.msr b = if ibit s.thr.msr 3 then ibit image b else ibit s.thr.msr b) ∧
      ibit t.thr.msr 47 = false ∧ ibit t.thr.msr 63 = false ∧
      t.thr.pc = branchTarget t.thr ret

/-- A privileged instruction in problem state, and `hrfid` outside hypervisor state, takes the program interrupt with SRR1[45] and does
nothing else; a TLB-management instruction takes that one in problem state, and the illegal-instruction one in a supervisor that is
no hypervisor (R920, 60_exceptions R1828, 21_translation R476, 90_conflicts C47). -/
def Obligations.PrivilegedInstructionsTrap : Prop :=
  (∀ i hyper, Privileged i hyper → ∀ s, lacksPrivilege s.thr hyper → Traps i s 0x700 0x40000) ∧
  ∀ i, TlbManagement i → ∀ s,
    (ibit s.thr.msr 49 = true → Traps i s 0x700 0x40000) ∧
    (ibit s.thr.msr 49 = false → ibit s.thr.msr 3 = false → Traps i s 0x700 0x80000)

/-- `mtmsrd` and `mtmsr` in supervisor state: with L = 1 only EE and RI are written; with L = 0 all but HV, ME, ILE and LE, PR forcing
EE, IR and DR; `mtmsr` writes bits 32:63 only (R928, R929); where that leaves an enabled floating-point exception pending, the program
interrupt follows (60_exceptions R1806 F.1; log 24). With L = 0 they act as `sync`: a pending machine check is taken before they are
executed (R928, 60_exceptions R1811). `mfmsr` in supervisor state, `mfcr`, and `mftb` of TB and of TBU: the
value, and the frame (R927, R931, R934). -/
def Obligations.MsrIsReadAndWritten : Prop :=
  (∀ (rs : BitVec 5) (l word : Bool) s, supervisorState s.thr → legalMsr s.thr.msr →
      let i := if word then Instr.ppeMtmsr rs l else Instr.ppeMtmsrd rs l
      let v := s.thr.getGpr rs
      (l = false → s.thr.mcheck.isSome = true → ibit s.thr.msr 51 = true → TakesMachineCheck i s) ∧
      ((l = false → s.thr.mcheck = none) → ∃ t, LeavesOrFloatTraps i s t ∧ OnlyThread s t ∧ { t.thr with pc := s.thr.pc, msr := s.thr.msr } = s.thr ∧
        t.thr.pc = following { s.thr with msr := t.thr.msr } ∧
        (l = true → ∀ b, b < 64 → ibit t.thr.msr b = if b = 48 ∨ b = 62 then ibit v b else ibit s.thr.msr b) ∧
        (l = false →
          (∀ b ∈ [49, 50, 52, 53, 54, 55, 62], ibit t.thr.msr b = ibit v b) ∧
          (∀ b ∈ [48, 58, 59], ibit t.thr.msr b = (ibit v b || ibit v 49)) ∧
          (∀ b ∈ [0, 38], word = false ∨ 32 ≤ b → ibit t.thr.msr b = ibit v b) ∧
          (∀ b, b < 32 → word = true → ibit t.thr.msr b = ibit s.thr.msr b) ∧
          (∀ b ∈ [3, 47, 51, 63], ibit t.thr.msr b = ibit s.thr.msr b)))) ∧
  ∀ (rt : BitVec 5) s,
      (supervisorState s.thr → Completes (.ppeMfmsr rt) s { gpr := [rt] } fun t => t.thr.getGpr rt = s.thr.msr) ∧
      Completes (.ppeMfcr rt) s { gpr := [rt] } (fun t => t.thr.getGpr rt = s.thr.cr.setWidth 64) ∧
      Completes (.ppeMftb rt 268) s { gpr := [rt] } (fun t => t.thr.getGpr rt = s.ppe.tb) ∧
      Completes (.ppeMftb rt 269) s { gpr := [rt] } (fun t => (t.thr.getGpr rt).toNat = s.ppe.tb.toNat / 2^32) ∧
      ∀ n : BitVec 10, n ≠ 268 → n ≠ 269 → Traps (.ppeMftb rt n) s 0x700 0x80000

/-- `mtspr` and then `mfspr` of a plain special-purpose register, in a state that may access it: the implemented bits come back; the
write changes no general register, no memory, no other register of the table (R925, R926, 10_state R80, R81). An access to a
special-purpose register without the privilege for it takes the privileged-instruction program interrupt, an access to a number that
is not implemented that or the illegal-instruction one, by bit 5 of the number (R925, R926, 60_exceptions R1836). HID6[LB] may not
change while a valid entry for a large page is held: such a write is refused by name (21_translation R455). `mtspr` to CTRL in
supervisor state writes RUN, notes the thread in TH, and in hypervisor state suspends the thread and asks for the other one, by the
bits of TE (10_state R69, R70, 62_platform R2001); to TBL and to TBU it writes that half of the time base (R1991); to TSRL it
changes the priority where Table 10-6 allows that, and nothing else (R71, R2009); `mfspr` of CTRL and of TSRL delivers their fields.
That HID0, HID1, HID4 and HID6 keep every bit, those without a name too, and that such a bit changes nothing else, is the model's
choice (log 29); so are the numbers of the address-range registers, SPR 952 to 957 and 976 to 981, and the places of the fields (log
8). -/
def Obligations.SpecialRegistersAreCheckedAndHold : Prop :=
  (∀ n level mask, PlainSpr n level mask → ∀ (rs rt : BitVec 5) s, mayAccess s.thr level →
      (n = 1017 → ibm (s.thr.getGpr rs) 16 4 = largeSizes s.ppe ∨ ¬holdsLarge s) →
      ∃ t, Machine.exec (.ppeMtspr rs (BitVec.ofNat 10 n)) s = .next t ∧
        t.mem = s.mem ∧ t.spes = s.spes ∧ t.plat = s.plat ∧ (∀ u, u ≠ s.curT → t.threads[u] = s.threads[u]) ∧
        t.thr.gpr = s.thr.gpr ∧ t.thr.fpr = s.thr.fpr ∧ t.thr.vr = s.thr.vr ∧ t.thr.cr = s.thr.cr ∧ t.thr.msr = s.thr.msr ∧
        t.thr.pc = following s.thr ∧
        (∀ n' level' mask', PlainSpr n' level' mask' → n' ≠ n → t.readSpr n' = s.readSpr n') ∧
        Completes (.ppeMfspr rt (BitVec.ofNat 10 n)) t { gpr := [rt] } fun v => v.thr.getGpr rt = s.thr.getGpr rs &&& mask) ∧
  ∀ (r : BitVec 5) s,
      (mayAccess s.thr 2 → ibm (s.thr.getGpr r) 16 4 ≠ largeSizes s.ppe → holdsLarge s →
        Machine.exec (.ppeMtspr r 1017) s = .refused .reservedValue) ∧
      (∀ n level mask, PlainSpr n level mask → ¬mayAccess s.thr level →
        Traps (.ppeMtspr r (BitVec.ofNat 10 n)) s 0x700 0x40000 ∧ Traps (.ppeMfspr r (BitVec.ofNat 10 n)) s 0x700 0x40000) ∧
      (∀ n : BitVec 10, sprWritePriv n.toNat = none →
        Traps (.ppeMtspr r n) s 0x700 (if ibit s.thr.msr 49 && decide (n.toNat / 16 % 2 = 1) then 0x40000 else 0x80000)) ∧
      (∀ n : BitVec 10, sprReadPriv n.toNat = none →
        Traps (.ppeMfspr r n) s 0x700 (if ibit s.thr.msr 49 && decide (n.toNat / 16 % 2 = 1) then 0x40000 else 0x80000)) ∧
      (ibit s.thr.msr 49 = true → Traps (.ppeMtspr r 152) s 0x700 0x40000) ∧
      (¬mayAccess s.thr 2 → Traps (.ppeMtspr r 284) s 0x700 0x40000 ∧ Traps (.ppeMtspr r 285) s 0x700 0x40000) ∧
      let v := s.thr.getGpr r
      let hyper := ibit s.thr.msr 3
      let stops : Prop := hyper = true ∧ ibit v (40 + s.curT.val) = false
      (supervisorState s.thr → ∃ t, Machine.exec (.ppeMtspr r 152) s = .next t ∧
        { t with ppe := s.ppe, threads := s.threads, freeCount := s.freeCount } = s ∧
        { t.ppe with te := s.ppe.te, th := s.ppe.th, run := s.ppe.run } = s.ppe ∧ t.ppe.run = ibit v 63 ∧
        (∀ u : Fin 2, (ibit t.ppe.te u.val = true ↔ ibit s.ppe.te u.val = true ∧ ¬(u = s.curT ∧ stops)) ∧
          ibit t.ppe.th u.val = (ibit s.ppe.th u.val || decide (u = s.curT))) ∧
        (∀ u : Fin 2, u ≠ s.curT → t.threads[u] = { s.threads[u] with
          resumeReq := s.threads[u].resumeReq || (hyper && ibit v (40 + u.val) && !ibit s.ppe.te u.val) }) ∧
        { t.thr with pc := s.thr.pc, srr0 := s.thr.srr0 } = s.thr ∧
        (¬(stops ∧ (ibit s.thr.msr 53 = true ∨ ibit s.thr.msr 54 = true)) → t.thr = { s.thr with pc := following s.thr })) ∧
      (hypervisorState s.thr →
        (∃ t, Machine.exec (.ppeMtspr r 284) s = .next t ∧ OnlyShared s t ∧ { t.ppe with tb := s.ppe.tb } = s.ppe ∧
          t.ppe.tb.toNat = s.ppe.tb.toNat / 2^32 * 2^32 + v.toNat % 2^32) ∧
        ∃ t, Machine.exec (.ppeMtspr r 285) s = .next t ∧ OnlyShared s t ∧ { t.ppe with tb := s.ppe.tb } = s.ppe ∧
          t.ppe.tb.toNat = v.toNat % 2^32 * 2^32 + s.ppe.tb.toNat % 2^32) ∧
      Completes (.ppeMtspr r 896) s { prio := true } (fun t =>
        (priorityAllowed s.ppe s.thr (ibm v 11 2) → t.thr.tsrlTp = ibm v 11 2) ∧
        (¬priorityAllowed s.ppe s.thr (ibm v 11 2) → t.thr.tsrlTp = s.thr.tsrlTp)) ∧
      Completes (.ppeMfspr r 896) s { gpr := [r] } (fun t => ibm (t.thr.getGpr r) 11 2 = s.thr.tsrlTp) ∧
      Completes (.ppeMfspr r 136) s { gpr := [r] } fun t => ∀ b, b < 64 → ibit (t.thr.getGpr r) b =
        (decide (b = 32 ∧ s.curT = 0 ∨ b = 33 ∧ s.curT = 1) || (decide (b = 40 ∨ b = 41) && ibit s.ppe.te (b - 40)) ||
          (decide (b = 48 ∨ b = 49) && ibit s.ppe.th (b - 48)) || (decide (b = 63) && s.ppe.run))

/-- `slbmte` writes the entry that RB selects, `slbmfee` and `slbmfev` read it back field by field, in supervisor state (R940 to R942,
21_translation R446; that VSID[0:14] are dropped and not refused follows R446 against R440, log 50). `slbie` invalidates the entries of
its ESID and class, `slbia` all of them; both only in supervisor state (R943, R944). -/
def Obligations.SegmentEntriesAreWrittenAndInvalidated : Prop :=
  (∀ (rs rb rt : BitVec 5) s, supervisorState s.thr →
      let v := s.thr.getGpr rs
      let w := s.thr.getGpr rb
      ∃ t, Machine.exec (.ppeSlbmte rs rb) s = .next t ∧ OnlyThread s t ∧
        { t.thr with pc := s.thr.pc, slb := s.thr.slb } = s.thr ∧ t.thr.pc = following s.thr ∧
        (∀ k : Fin 64, k.val ≠ w.toNat % 64 → t.thr.slb[k] = s.thr.slb[k]) ∧
        Completes (.ppeSlbmfee rt rb) t { gpr := [rt] } (fun u => ∀ b, b < 64 →
          ibit (u.thr.getGpr rt) b = (decide (b ≤ 36) && ibit w b)) ∧
        Completes (.ppeSlbmfev rt rb) t { gpr := [rt] } (fun u => ∀ b, b < 64 →
          ibit (u.thr.getGpr rt) b = (decide ((15 ≤ b ∧ b ≤ 56) ∨ b = 59) && ibit v b))) ∧
  ∀ s, supervisorState s.thr →
      (∀ rb : BitVec 5, ∃ t, Machine.exec (.ppeSlbie rb) s = .next t ∧ OnlyThread s t ∧
        { t.thr with pc := s.thr.pc, slb := s.thr.slb, erat := s.thr.erat } = s.thr ∧ t.thr.pc = following s.thr ∧
        (∀ x ∈ t.thr.erat, x ∈ s.thr.erat ∧ x.cls ≠ ibit (s.thr.getGpr rb) 36) ∧
        ∀ k : Fin 64, t.thr.slb[k] =
          if s.thr.slb[k].esid = ibm (s.thr.getGpr rb) 0 36 ∧ s.thr.slb[k].c = ibit (s.thr.getGpr rb) 36 then
            { s.thr.slb[k] with v := false } else s.thr.slb[k]) ∧
      ∃ t, Machine.exec .ppeSlbia s = .next t ∧ OnlyThread s t ∧
        { t.thr with pc := s.thr.pc, slb := s.thr.slb, erat := s.thr.erat } = s.thr ∧ t.thr.pc = following s.thr ∧
        t.thr.erat = [] ∧ ∀ k : Fin 64, t.thr.slb[k] = { s.thr.slb[k] with v := false }

/-- `tlbie`, and `tlbiel` with IS = '0-', in hypervisor state: of the PPE's TLB the entries whose kind, page size and partition agree and
whose VPN[38:79-p] is RB[22:63-p] become invalid; `tlbiel` with IS = '1-': those of the congruence class RB[44:51]; every other entry
and the rest of each stay. Of the ERATs of both threads nothing is left for a large page, else what differs in EA[47:51]. A `tlbie`
then waits in the SPEs of the partition. Nothing else changes. A reserved page size is refused by name (21_translation R445, R455,
R471, R472). `tlbsync` goes on when the SPEs have performed what waited for them; a step of an MFC performs the oldest (R480, R517;
that `tlbsync` lets all of it be performed is the model's choice, log 16). The model's choices of log 50: a page size is that
which LP selects (the table of R472 names LP itself), and a `tlbie` of a size that SMM_HID reserves invalidates nothing in that SPE
(R517 is silent). -/
def Obligations.TlbEntriesAreInvalidated : Prop :=
  (∀ s, hypervisorState s.thr → swf TlbEntry.empty s.ppe.tlb = true → ∀ (l : Bool) (r : BitVec 5),
    let rb := s.thr.getGpr r
    (∀ bits, pageSizeIs (largeSizes s.ppe) l (ibit rb 51) bits →
      TlbInvalidated (.ppeTlbie l r) s l rb (namesPage s.ppe l bits rb) true ∧
      (ibit rb 52 = false → TlbInvalidated (.ppeTlbiel l r) s l rb (namesPage s.ppe l bits rb) false)) ∧
    (ibit rb 52 = true → TlbInvalidated (.ppeTlbiel l r) s l rb (inClass s.ppe rb) false) ∧
    ((∀ bits, ¬pageSizeIs (largeSizes s.ppe) l (ibit rb 51) bits) →
      Machine.exec (.ppeTlbie l r) s = .refused .reservedValue ∧
      (ibit rb 52 = false → Machine.exec (.ppeTlbiel l r) s = .refused .reservedValue))) ∧
  (∀ s, hypervisorState s.thr → (∀ n : Fin 8, swf TlbEntry.empty s.spes[n].tlb = true) →
    ∃ t, Machine.exec .ppeTlbsync s = .next t ∧ { t with threads := s.threads, spes := s.spes } = s ∧
      (∀ u : Fin 2, t.threads[u] = if u = s.curT then { s.thr with pc := following s.thr } else s.threads[u]) ∧
      ∀ n : Fin 8, SmmInvalidated s.spes[n] t.spes[n] s.spes[n].snoops []) ∧
  ∀ s w rest, s.spe.mfcMoves = [.snoop] → s.spe.snoops = w :: rest → swf TlbEntry.empty s.spe.tlb = true →
    ∃ t, s.mfcStep = .next t ∧ OnlySpe s t ∧ SmmInvalidated s.spe t.spe [w] rest

/-- `sync` in every form, `eieio` and `isync` only go on to the next instruction (R930, R938, R939; that they have nothing to order
is the model's choice, log 6); but with a machine check pending `sync` with L = 0 (or 3) and `ptesync` take it (60_exceptions R1811,
20_memory R408). The touches always complete, and change no register; where HID4 or LPCR[TL] cancels the hint, or TH is none of the
forms of `dcbt`, they change nothing at all (R720, R721, 20_memory R432). The cache-block operations complete for an address that
may be read, change no register and no byte of memory, and `icbi` leaves no line of its address in the instruction cache (R723 to
R725). `dcbz` of a block in enabled cacheable storage clears its 128 bytes (R722). The places of the fields of HID4 are the model's
(log 8), and so is that LPCR[TL] = 1 cancels a touch also where the TLB holds the page (log 45), and that `dcbst`, `dcbf` and `icbi`
complete when the one byte at their address has no breakpoint match, whatever matches in the rest of the line (log 35). -/
def Obligations.BarriersAndCacheInstructions : Prop :=
  (∀ i, Barrier i → ∀ s, (∀ l, i = .ppeSync l → l ≠ 1 → s.thr.mcheck = none) → Completes i s {} fun _ => True) ∧
  (∀ l : BitVec 2, l ≠ 1 → ∀ s, s.thr.mcheck.isSome = true → ibit s.thr.msr 51 = true → TakesMachineCheck (.ppeSync l) s) ∧
  (∀ i, Touch i → ∀ s, ∃ t, Machine.exec i s = .next t ∧ t.thr.pc = following s.thr ∧
      Keeps {} s.thr { t.thr with reserve := s.thr.reserve, tlbHint := s.thr.tlbHint } ∧
      ((ibit s.ppe.hid4 15 || ibit s.ppe.hid4 16 || s.ppe.tl) = true → Completes i s {} fun _ => True)) ∧
    (∀ (th : BitVec 4) (ra rb : BitVec 5), ibit th 0 = true → th ≠ 0b1000 → th ≠ 0b1010 → ∀ s,
      Completes (.ppeDcbt th ra rb) s {} fun _ => True) ∧
    (∀ i ra rb, CacheBlockOp i ra rb → ∀ s p, Ordinary s (s.thr.truncEa (eaX ra rb s.thr)) 1 false p →
      ∃ t, Machine.exec i s = .next t ∧ Keeps {} s.thr t.thr ∧ t.thr.pc = following s.thr ∧ t.spes = s.spes ∧ t.plat = s.plat ∧
        (∀ a, readByte t.mem a = readByte s.mem a) ∧
        (∀ u, u ≠ s.curT → { t.threads[u] with reserve := s.threads[u].reserve } = s.threads[u]) ∧
        { t.ppe with icache := s.ppe.icache } = s.ppe ∧
        (i = .ppeIcbi ra rb → ∀ x ∈ t.ppe.icache, x ∈ s.ppe.icache ∧ x.1 ≠ p.ra / 128)) ∧
    (∀ (ra rb : BitVec 5) s p, Memory.wf s.mem = true → ibm s.ppe.hid4 8 4 ≠ (0 : BitVec 4) → inhibited s p = false →
      Ordinary s (s.thr.truncEa (eaX ra rb s.thr) &&& ~~~127#64) 128 true p →
      CompletesStore (.ppeDcbz ra rb) s p.ra 128 (fun _ => 0) {} fun _ => True)

/-- The forms that the manual calls invalid take the illegal-instruction program interrupt: `bcctr` with BO[2] = 0, a fixed-point load
with update whose RA is 0 or RT, a fixed-point store with update whose RA is 0, load string indexed whose RT is RA or RB (R603,
R653, R707). A load multiple or string whose range reaches RA (or the RB of `lswx`) later takes it there, with the registers before
that one loaded (R703, R704, R706, R707, D71). `attn` with HID0[en_attn] = 0 takes the illegal-instruction program interrupt, with 1 it is outside the specification
and refused by name (R950, U54; the place of en_attn is the model's choice, log 8). -/
def Obligations.InvalidFormsAreIllegal : Prop :=
  ((∀ (bo bi : BitVec 5) (bh : BitVec 2) (lk : Bool) s, ibit bo 2 = false → Traps (.ppeBcctr bo bi bh lk) s 0x700 0x80000) ∧
    (∀ i rt r ea len al val, FixedLoad i rt (some r) ea len al val → r = 0 ∨ r = rt → ∀ s, Traps i s 0x700 0x80000) ∧
    (∀ i rs r ea len rev, FixedStore i rs (some r) ea len rev → r = 0 → ∀ s, Traps i s 0x700 0x80000) ∧
    (∀ i frt ea sg, FloatLoad i frt (some 0) ea sg → ∀ s, ibit s.thr.msr 50 = true → Traps i s 0x700 0x80000) ∧
    (∀ i frs ea len, FloatStore i frs (some 0) ea len → ∀ s, ibit s.thr.msr 50 = true → Traps i s 0x700 0x80000) ∧
    (∀ i frs ea, SingleStore i frs (some 0) ea → ∀ s, ibit s.thr.msr 50 = true → Traps i s 0x700 0x80000) ∧
    (∀ (rt ra rb : BitVec 5) s, rt = ra ∨ rt = rb → Traps (.ppeLswx rt ra rb) s 0x700 0x80000) ∧
    (∀ (r ra : BitVec 5) (d : BitVec 16) s p, r.toNat ≤ ra.toNat →
      (eaD ra d s.thr).toNat % 4 = 0 → inhibited s p = false → unforced s (eaD ra d s.thr) (4 * (32 - r.toNat)) →
      let j := ra.toNat - r.toNat
      (∀ k, k < j → Ordinary s (s.thr.truncEa (eaD ra d s.thr + BitVec.ofNat 64 (4 * k))) 4 false { p with ra := p.ra + 4 * k }) →
      TrapsAfter (.ppeLmw r ra d) s { gpr := (List.range j).map fun k => BitVec.ofNat 5 (r.toNat + k) }
        (fun u => ∀ k, k < j → u.getGpr (BitVec.ofNat 5 (r.toNat + k)) = zeroExtended 4 s.mem (p.ra + 4 * k)) 0x700 0x80000) ∧
    ∀ (r ra x : BitVec 5) (indexed : Bool) s p j,
      let n := if indexed then s.thr.xer.toNat % 128 else if x = 0 then 32 else x.toNat
      let ea : DWord := (if ra = 0 then 0 else s.thr.getGpr ra) + (if indexed then s.thr.getGpr x else 0)
      let reg (i : Nat) : BitVec 5 := BitVec.ofNat 5 (r.toNat + i)
      let bad (q : BitVec 5) : Prop := q = ra ∨ (indexed = true ∧ q = x)
      j < (n + 3) / 4 → bad (reg j) → (∀ i, i < j → ¬bad (reg i)) → inhibited s p = false → unforced s ea (4 * j) →
      (∀ k, k < 4 * j → Ordinary s (s.thr.truncEa (ea + BitVec.ofNat 64 k)) 1 false { p with ra := p.ra + k }) →
      TrapsAfter (if indexed then .ppeLswx r ra x else .ppeLswi r ra x) s { gpr := (List.range j).map reg }
        (fun u => ∀ i, i < j → u.getGpr (reg i) = zeroExtended 4 s.mem (p.ra + 4 * i)) 0x700 0x80000) ∧
  ∀ s, (ibit s.ppe.hid0 31 = false → Traps .ppeAttn s 0x700 0x80000) ∧
      (ibit s.ppe.hid0 31 = true → Machine.exec .ppeAttn s = .refused .attnDebugger)

/-- A fixed-point load of an ordinary, aligned operand delivers the bytes of main storage, extended or reversed as the instruction says;
an update form also writes the address to RA; nothing else changes (R654 to R676, R693 to R695). -/
def Obligations.FixedPointLoadsDeliverMemory : Prop :=
  ∀ i rt upd ea len al val, FixedLoad i rt upd ea len al val → updateValid upd (some rt) → ∀ s p,
    Ordinary s (s.thr.truncEa (ea s.thr)) len false p → alignedFor al s p (ea s.thr) len →
    Completes i s { gpr := rt :: upd.toList } fun t =>
      t.thr.getGpr rt = val s.mem p.ra ∧ ∀ r, upd = some r → t.thr.getGpr r = ea s.thr

/-- A fixed-point store of an ordinary, aligned operand stores the low bytes of the register, reversed where the instruction says so,
and no other byte; an update form also writes the address to RA (R677 to R692, R696 to R698). -/
def Obligations.FixedPointStoresWriteTheirBytes : Prop :=
  ∀ i rs upd ea len rev, FixedStore i rs upd ea len rev → updateValid upd none → ∀ s p, Memory.wf s.mem = true →
    Ordinary s (s.thr.truncEa (ea s.thr)) len true p → alignedFor .fixed s p (ea s.thr) len →
    CompletesStore i s p.ra len (storedByte len rev (s.thr.getGpr rs).toNat) { gpr := upd.toList } fun t =>
      ∀ r, upd = some r → t.thr.getGpr r = ea s.thr

/-- `lmw` and `stmw` of words that lie one after another in main storage, word-aligned and cacheable (with HID4[force_ai] = 1 inside 32
bytes, as the strings: log 37): each register takes or gives its
word (R704, R705). Load and store string: byte `k` of the operand is byte `k mod 4` of the low word of the register `k / 4` after
the first, counted round from 31 to 0; a load clears the upper word and the bytes past the last (R706 to R709). -/
def Obligations.MultiplesAndStrings : Prop :=
  (∀ (r ra : BitVec 5) (d : BitVec 16) s p, (eaD ra d s.thr).toNat % 4 = 0 → inhibited s p = false →
      unforced s (eaD ra d s.thr) (4 * (32 - r.toNat)) →
      (ra.toNat < r.toNat →
        (∀ k, k < 32 - r.toNat →
          Ordinary s (s.thr.truncEa (eaD ra d s.thr + BitVec.ofNat 64 (4 * k))) 4 false { p with ra := p.ra + 4 * k }) →
        Completes (.ppeLmw r ra d) s { gpr := (List.range (32 - r.toNat)).map fun k => BitVec.ofNat 5 (r.toNat + k) } fun t =>
          ∀ k, k < 32 - r.toNat → t.thr.getGpr (BitVec.ofNat 5 (r.toNat + k)) = zeroExtended 4 s.mem (p.ra + 4 * k)) ∧
      (Memory.wf s.mem = true →
        (∀ k, k < 32 - r.toNat →
          Ordinary s (s.thr.truncEa (eaD ra d s.thr + BitVec.ofNat 64 (4 * k))) 4 true { p with ra := p.ra + 4 * k }) →
        CompletesStore (.ppeStmw r ra d) s p.ra (4 * (32 - r.toNat))
          (fun k => storedByte 4 false (s.thr.getGpr (BitVec.ofNat 5 (r.toNat + k / 4))).toNat (k % 4)) {} fun _ => True)) ∧
  ∀ (r ra x : BitVec 5) (indexed : Bool) s p,
      let n := if indexed then s.thr.xer.toNat % 128 else if x = 0 then 32 else x.toNat
      let ea : DWord := (if ra = 0 then 0 else s.thr.getGpr ra) + (if indexed then s.thr.getGpr x else 0)
      let reg (k : Nat) : BitVec 5 := BitVec.ofNat 5 (r.toNat + k / 4)
      inhibited s p = false → unforced s ea n →
      ((∀ k, k < n → reg k ≠ ra ∧ (indexed = true → reg k ≠ x)) → (indexed = true → r ≠ ra ∧ r ≠ x) →
        (∀ k, k < n → Ordinary s (s.thr.truncEa (ea + BitVec.ofNat 64 k)) 1 false { p with ra := p.ra + k }) →
        Completes (if indexed then .ppeLswx r ra x else .ppeLswi r ra x) s
          { gpr := (List.range ((n + 3) / 4)).map fun j => BitVec.ofNat 5 (r.toNat + j) } fun t =>
          ∀ k, k < (n + 3) / 4 * 4 → (t.thr.getGpr (reg k)).toNat / 256^(3 - k % 4) % 256 =
              (if k < n then (readByte s.mem (p.ra + k)).toNat else 0) ∧ (t.thr.getGpr (reg k)).toNat < 2^32) ∧
      (Memory.wf s.mem = true →
        (∀ k, k < n → Ordinary s (s.thr.truncEa (ea + BitVec.ofNat 64 k)) 1 true { p with ra := p.ra + k }) →
        CompletesStore (if indexed then .ppeStswx r ra x else .ppeStswi r ra x) s p.ra n
          (fun k => storedByte 4 false (s.thr.getGpr (reg k)).toNat (k % 4)) {} fun _ => True)

/-- `lwarx` and `ldarx` load their word or doubleword and hold the reservation of its 128-byte granule (R712, R713). `stwcx.` and
`stdcx.`: with the reservation on the granule the store is performed and CR0 is 0b001 || SO; with no reservation nothing is stored
and CR0 is 0b000 || SO; with the reservation on another granule the one or the other; the reservation is gone in every case (R714,
R715). A store of a thread into a 128-byte granule ends every reservation of another thread or SPE on the granule and no other
reservation of theirs; its own may go only if it is on the granule (20_memory R421, R424). -/
def Obligations.ReservationsDecideConditionalStores : Prop :=
  (∀ (rt ra rb : BitVec 5) (double : Bool) s p,
      let len := if double then 8 else 4
      Ordinary s (s.thr.truncEa (eaX ra rb s.thr)) len false p → alignedFor .strict s p (s.thr.truncEa (eaX ra rb s.thr)) len →
      ∃ t, Machine.exec (if double then .ppeLdarx rt ra rb else .ppeLwarx rt ra rb) s = .next t ∧ OnlyThread s t ∧
        Keeps { gpr := [rt] } s.thr { t.thr with reserve := s.thr.reserve } ∧ t.thr.pc = following s.thr ∧
        t.thr.reserve = some (p.ra / 128) ∧ t.thr.getGpr rt = zeroExtended len s.mem p.ra) ∧
  (∀ (rs ra rb : BitVec 5) (double : Bool) s p,
      let len := if double then 8 else 4
      let i := if double then Instr.ppeStdcxDot rs ra rb else Instr.ppeStwcxDot rs ra rb
      let cr0 (t : State) (stored : Bool) : Prop := ibit t.thr.cr 0 = false ∧ ibit t.thr.cr 1 = false ∧
        ibit t.thr.cr 2 = stored ∧ ibit t.thr.cr 3 = ibit s.thr.xer 32 ∧ t.thr.reserve = none
      Ordinary s (s.thr.truncEa (eaX ra rb s.thr)) len true p → alignedFor .strict s p (s.thr.truncEa (eaX ra rb s.thr)) len →
      (s.thr.reserve = some (p.ra / 128) → Memory.wf s.mem = true →
        CompletesStore i s p.ra len (storedByte len false (s.thr.getGpr rs).toNat) { cr := cr0Mask } fun t => cr0 t true) ∧
      (s.thr.reserve = none → Completes i s { cr := cr0Mask } fun t => cr0 t false) ∧
      (∀ g, s.thr.reserve = some g → g ≠ p.ra / 128 → Memory.wf s.mem = true →
        CompletesStore i s p.ra len (storedByte len false (s.thr.getGpr rs).toNat) { cr := cr0Mask } (fun t => cr0 t true) ∨
        ∃ t, Machine.exec i s = .next t ∧ OnlyThread s t ∧ Keeps { cr := cr0Mask } s.thr { t.thr with reserve := s.thr.reserve } ∧
          t.thr.pc = following s.thr ∧ cr0 t false)) ∧
  ∀ i rs upd ea len rev, FixedStore i rs upd ea len rev → updateValid upd none → ∀ s p u, s.cur = .ppe u →
      Ordinary s (s.thr.truncEa (ea s.thr)) len true p → alignedFor .fixed s p (ea s.thr) len →
      p.ra / 128 = (p.ra + len - 1) / 128 →
      ∃ t, Machine.exec i s = .next t ∧
        (∀ v : Fin 2, v ≠ u → t.threads[v].reserve =
          if s.threads[v].reserve = some (p.ra / 128) then none else s.threads[v].reserve) ∧
        (∀ n : Fin 8, t.spes[n].llres = if s.spes[n].llres = some (p.ra / 128) then none else s.spes[n].llres) ∧
        (s.threads[u].reserve ≠ some (p.ra / 128) → t.threads[u].reserve = s.threads[u].reserve)

/-- The floating-point arithmetic instructions with MSR[FP] = 1: FRT, the status bits of FPSCR and, with Rc = 1, CR1 are all that may
change, VX and FEX are the summaries, CR1 is their copy (but for single operands of double values, U50); then they end, or an
enabled exception takes the program interrupt (R841, R843). With VE = 0 the first operand that is a NaN, quieted, is the result (its
low 29 bits cleared for single format), FPRF says a NaN (R842, R843). VXSNAN is set for a signalling NaN; ZX, VXISI, VXIDI, VXZDZ,
VXIMZ and VXSQRT for the operands that R843 names; VXVC, VXSOFT and VXCVI stay; FX is set when an exception bit is. Where the exact
result is finite, OX is set when it overflows in the direction RN, UX when it is tiny and UE = 1 or the result is inexact, XX with
FI (R843; a divide: with NI = 0). -/
def Obligations.FloatArithmeticEnds : Prop :=
  (∀ i frt rec single ops cause, FloatArith i frt rec single ops cause → ∀ s, ibit s.thr.msr 50 = true →
    let held : Prop := single = true → (∃ frb, i = .ppeFrsp frt frb rec) ∨ ∀ o ∈ ops s.thr, fitsSingle o = true
    FloatEnds i s (floatWrites frt rec) fun u =>
      Summary u.fpscr ∧ (rec = true → held → copiesCr1 u) ∧
      (ibit s.thr.fpscr 24 = false → held →
        ∀ pre n post, ops s.thr = pre ++ n :: post → (∀ o ∈ pre, isNan f64 o.toNat = false) → isNan f64 n.toNat = true →
          u.getFpr frt = (n ||| 0x0008000000000000#64) &&& (if single then 0xFFFFFFFFE0000000#64 else 0xFFFFFFFFFFFFFFFF#64) ∧
          ibm u.fpscr 15 5 = 0b10001#5) ∧
      (held → ibit u.fpscr 7 = (ibit s.thr.fpscr 7 || (ops s.thr).any fun o => isSnan f64 o.toNat) ∧
        (∀ k ∈ [5, 8, 9, 10, 11, 12, 21, 22, 23], ibit u.fpscr k = (ibit s.thr.fpscr k || cause (ops s.thr) k)) ∧
        ibit u.fpscr 0 = (ibit s.thr.fpscr 0 || floatExceptions.any fun k => ibit u.fpscr k && !ibit s.thr.fpscr k))) ∧
  ∀ i frt single neg valid k x, RoundedOp i frt single neg valid k x → ∀ s, ibit s.thr.msr 50 = true → valid s.thr →
    ∃ w, FloatEnds i s w fun u =>
      ibit u.fpscr 3 = (ibit s.thr.fpscr 3 || overflows (ibm s.thr.fpscr 30 2) single (k s.thr) (x s.thr)) ∧
      ibit u.fpscr 4 = (ibit s.thr.fpscr 4 ||
        (tinyValue single (k s.thr) (x s.thr) && (ibit s.thr.fpscr 26 || ibit u.fpscr 14))) ∧
      ibit u.fpscr 6 = (ibit s.thr.fpscr 6 || ibit u.fpscr 14)

/-- IEEE rounding: add, subtract, multiply, multiply-add, divide, round to single and convert from integer, with finite operands (of the
target format), OE = UE = 0 (a divide: NI = 0 and a divisor that is not zero): a finite result is the value of the target format that
RN selects for the exact result, a tie to the even significand of that format, double or single; FI says inexact, FR that the magnitude grew, XX is sticky, FPRF gives
the sign class (R843, R845, R861, R862, R880, R885, 10_state R50). A square root of a finite operand that is not negative, with NI = 0,
likewise, without OX and UX (R863, R864; a root is never a tie). The estimates of a finite operand that is not zero, whose reciprocal is a normal number, and of a positive one,
are within one part in 256 and in 32; of zero, with ZE = 0, they are infinite with its sign, and ZX is set; of an infinity `fres` is
zero (R873, R874). -/
def Obligations.FloatResultsRoundOnce : Prop :=
  (∀ i frt single neg valid k x, RoundedOp i frt single neg valid k x → ∀ s, ibit s.thr.msr 50 = true → valid s.thr →
    ibit s.thr.fpscr 25 = false → ibit s.thr.fpscr 26 = false →
    ∃ w, FloatEnds i s w fun u => finiteDouble (u.getFpr frt) →
      let v := scaled (u.getFpr frt)
      let r := if neg then -v else v
      let y := r * k s.thr
      targets single r ∧ RoundsTo (ibm s.thr.fpscr 30 2) single (k s.thr) (x s.thr) r ∧
      ibit u.fpscr 14 = decide (y ≠ x s.thr) ∧ ibit u.fpscr 13 = decide ((x s.thr).natAbs < y.natAbs) ∧
      ibit u.fpscr 6 = (ibit s.thr.fpscr 6 || ibit u.fpscr 14) ∧
      ibit u.fpscr 16 = decide (v < 0) ∧ ibit u.fpscr 17 = decide (0 < v) ∧ ibit u.fpscr 18 = decide (v = 0) ∧
      ibit u.fpscr 19 = false) ∧
  (∀ i frt frb single, FloatRoot i frt frb single → ∀ s : State, ibit s.thr.msr 50 = true → ibit s.thr.fpscr 29 = false →
    (if single then isSingle (s.thr.getFpr frb) else finiteDouble (s.thr.getFpr frb)) → 0 ≤ scaled (s.thr.getFpr frb) →
    ∃ w, FloatEnds i s w fun u =>
      let r := scaled (u.getFpr frt)
      let x := scaled (s.thr.getFpr frb) * 2^1074
      finiteDouble (u.getFpr frt) ∧ targets single r ∧ RootRoundsTo (ibm s.thr.fpscr 30 2) single x r ∧
      ibit u.fpscr 14 = decide (r^2 ≠ x) ∧ ibit u.fpscr 13 = decide (x < r^2) ∧
      ibit u.fpscr 6 = (ibit s.thr.fpscr 6 || ibit u.fpscr 14) ∧
      ibit u.fpscr 16 = false ∧ ibit u.fpscr 17 = decide (0 < r) ∧ ibit u.fpscr 18 = decide (r = 0) ∧ ibit u.fpscr 19 = false ∧
      ibit u.fpscr 3 = ibit s.thr.fpscr 3 ∧ ibit u.fpscr 4 = ibit s.thr.fpscr 4) ∧
  ∀ (frt frb : BitVec 5) (rec : Bool) (s : State), ibit s.thr.msr 50 = true →
    let b := s.thr.getFpr frb
    let estimate (i : Instr) (P : Thread → Prop) : Prop := FloatEnds i s (floatWrites frt rec) P
    let infinite (u : Thread) : Prop := u.getFpr frt = ibm b 0 1 ++ 0x7FF#11 ++ 0#52 ∧ ibit u.fpscr 5 = true
    (isSingle b → 2^948 ≤ (scaled b).natAbs → (scaled b).natAbs ≤ 2^1200 → estimate (.ppeFres frt frb rec) fun u =>
      finiteDouble (u.getFpr frt) ∧ nearInverse 256 (scaled b) (scaled (u.getFpr frt))) ∧
    (finiteDouble b → 0 < scaled b → estimate (.ppeFrsqrte frt frb rec) fun u =>
      finiteDouble (u.getFpr frt) ∧ nearInverseRoot 32 (scaled b) (scaled (u.getFpr frt))) ∧
    (finiteDouble b → scaled b = 0 → ibit s.thr.fpscr 27 = false →
      estimate (.ppeFres frt frb rec) infinite ∧ estimate (.ppeFrsqrte frt frb rec) infinite) ∧
    (b.toNat % 2^63 = 0x7FF0000000000000 → estimate (.ppeFres frt frb rec) fun u => u.getFpr frt = ibm b 0 1 ++ 0#63)

/-- The conversions to integer: frame, and with VE = 0 the integer next to the operand in the direction of rounding, saturated to the
width; a NaN gives the most negative integer (R881 to R884). -/
def Obligations.FloatToIntegerSaturates : Prop :=
  ∀ i frt frb rec n toZero, FloatToInt i frt frb rec n toZero → ∀ s, ibit s.thr.msr 50 = true →
    FloatEnds i s (floatWrites frt rec) fun u =>
      Summary u.fpscr ∧ (rec = true → copiesCr1 u) ∧
      (ibit s.thr.fpscr 24 = false →
        let b := s.thr.getFpr frb
        let r : BitVec n := (u.getFpr frt).setWidth n
        (isNan f64 b.toNat = true → r = BitVec.ofInt n (-2^(n - 1)) ∧ ibit u.fpscr 23 = true) ∧
        (b = 0x7FF0000000000000 → r = BitVec.ofInt n (2^(n - 1) - 1)) ∧ (b = 0xFFF0000000000000 → r = BitVec.ofInt n (-2^(n - 1))) ∧
        (finiteDouble b → ∀ k, IntegerNear (if toZero then 1 else ibm s.thr.fpscr 30 2) (scaled b) k →
          r = BitVec.ofInt n (saturated n k) ∧ (saturated n k ≠ k → ibit u.fpscr 23 = true)))

/-- The moves deliver their image and leave FPSCR alone; `mffs` delivers FPSCR; `mcrfs` copies a field and clears its exception bits;
the other instructions write the bits of FPSCR they select, FEX and VX are recomputed (R850 to R853, R875, R892 to R897). `fcmpu`
and `fcmpo`: FL, FG, FE, FU of the two operands in the CR field and in FPCC; VXSNAN for a signalling NaN; VXVC of `fcmpo` for a
quiet one, and for a signalling one with VE = 0 (R888, R889). That `mtfsf` and `mtfsfi` without field 0 leave FX as it was although an
exception bit turns 1 is the model's choice, on which R894 and R895 are silent, and so is that `mtfsb1` of an exception bit sets FX also
where the bit is 1 already (R897 against R843 step 4; log 41). Bit 20 is left out: what the model does with it is in log 58. -/
def Obligations.FloatMovesComparesAndStatus : Prop :=
  ((∀ i frt rec v, FloatMove i frt rec v → ∀ s, ibit s.thr.msr 50 = true →
      Completes i s { fpr := [frt], cr := if rec then cr1Mask else 0 } fun t =>
        t.thr.getFpr frt = v s.thr ∧ (rec = true → copiesCr1 t.thr)) ∧
    (∀ (frt : BitVec 5) (rec : Bool) s, ibit s.thr.msr 50 = true →
      Completes (.ppeMffs frt rec) s { fpr := [frt], cr := if rec then cr1Mask else 0 } fun t =>
        (t.thr.getFpr frt).setWidth 32 = s.thr.fpscr ∧ (rec = true → copiesCr1 t.thr)) ∧
    (∀ (bf bfa : BitVec 3) s, ibit s.thr.msr 50 = true →
      FloatEnds (.ppeMcrfs bf bfa) s { cr := crFieldMask bf, fpscr := 0xFFFFFFFF } fun u =>
        Summary u.fpscr ∧ (∀ j, j < 4 → ibit u.cr (4 * bf.toNat + j) = ibit s.thr.fpscr (4 * bfa.toNat + j)) ∧
        ∀ b, b < 32 → b ≠ 1 → b ≠ 2 → ibit u.fpscr b =
          (ibit s.thr.fpscr b && !decide (b / 4 = bfa.toNat ∧ b ∈ [0, 3, 4, 5, 6, 7, 8, 9, 10, 11, 12, 21, 22, 23]))) ∧
    ∀ i rec f, FpscrWrite i rec f → ∀ s, ibit s.thr.msr 50 = true →
      FloatEnds i s { fpscr := 0xFFFFFFFF, cr := if rec then cr1Mask else 0 } fun u =>
        Summary u.fpscr ∧ (rec = true → copiesCr1 u) ∧
        ∀ b, b < 32 → b ∉ [1, 2, 20] → ibit u.fpscr b = f s.thr b) ∧
  ∀ (ordered : Bool) (bf : BitVec 3) (fra frb : BitVec 5) s, ibit s.thr.msr 50 = true →
      let a := (s.thr.getFpr fra).toNat
      let b := (s.thr.getFpr frb).toNat
      let un := isNan f64 a || isNan f64 b
      let sn := isSnan f64 a || isSnan f64 b
      let rel := [!un && decide (imageKey 64 a < imageKey 64 b), !un && decide (imageKey 64 b < imageKey 64 a),
        !un && decide (imageKey 64 a = imageKey 64 b), un]
      FloatEnds (if ordered then .ppeFcmpo bf fra frb else .ppeFcmpu bf fra frb) s { cr := crFieldMask bf, fpscr := floatStatus } fun u =>
        Summary u.fpscr ∧
        (∀ j, j < 4 → ibit u.cr (4 * bf.toNat + j) = rel.getD j false ∧ ibit u.fpscr (16 + j) = rel.getD j false) ∧
        ibit u.fpscr 7 = (ibit s.thr.fpscr 7 || sn) ∧
        ibit u.fpscr 12 = (ibit s.thr.fpscr 12 || (ordered && un && !(sn && ibit s.thr.fpscr 24))) ∧
        (∀ b ∈ [3, 4, 5, 6, 8, 9, 10, 11, 13, 14, 15, 21, 22, 23], ibit u.fpscr b = ibit s.thr.fpscr b)

/-- Floating-point loads and stores of ordinary, aligned operands with MSR[FP] = 1: a load in single format delivers the double of the
same value (of an infinity or a NaN the widened image), a load in double format the image; a store in single format of a value that
single format holds stores its word; update forms write the address to RA (R716 to R718, R726 to R739, U48). -/
def Obligations.FloatLoadsAndStores : Prop :=
  (∀ i frt upd ea single, FloatLoad i frt upd ea single → updateValid upd none → ∀ s p, ibit s.thr.msr 50 = true →
    let len := if single then 4 else 8
    Ordinary s (s.thr.truncEa (ea s.thr)) len false p → alignedFor .float s p (s.thr.truncEa (ea s.thr)) len →
    Completes i s { fpr := [frt], gpr := upd.toList } fun t =>
      let w := BitVec.ofNat 32 (readBytes s.mem p.ra 4)
      (∀ r, upd = some r → t.thr.getGpr r = ea s.thr) ∧
      (single = false → t.thr.getFpr frt = BitVec.ofNat 64 (readBytes s.mem p.ra 8)) ∧
      (single = true → finiteSingle w → finiteDouble (t.thr.getFpr frt) ∧ scaled (t.thr.getFpr frt) = scaledSingle w ∧
        ibit (t.thr.getFpr frt) 0 = ibit w 0) ∧
      (single = true → ¬finiteSingle w → t.thr.getFpr frt = ibm w 0 1 ++ 0x7FF#11 ++ ibm w 9 23 ++ 0#29)) ∧
  (∀ i frs upd ea len, FloatStore i frs upd ea len → updateValid upd none → ∀ s p, ibit s.thr.msr 50 = true → Memory.wf s.mem = true →
    Ordinary s (s.thr.truncEa (ea s.thr)) len true p → alignedFor .float s p (s.thr.truncEa (ea s.thr)) len →
    CompletesStore i s p.ra len (storedByte len false (s.thr.getFpr frs).toNat) { gpr := upd.toList } fun t =>
      ∀ r, upd = some r → t.thr.getGpr r = ea s.thr) ∧
  ∀ i frs upd ea, SingleStore i frs upd ea → updateValid upd none → ∀ s p w, ibit s.thr.msr 50 = true → Memory.wf s.mem = true →
    Ordinary s (s.thr.truncEa (ea s.thr)) 4 true p → alignedFor .float s p (s.thr.truncEa (ea s.thr)) 4 →
    (finiteDouble (s.thr.getFpr frs) ∧ finiteSingle w ∧ scaledSingle w = scaled (s.thr.getFpr frs) ∧
        ibit w 0 = ibit (s.thr.getFpr frs) 0 ∨
      ¬finiteDouble (s.thr.getFpr frs) ∧ w = ibm (s.thr.getFpr frs) 0 2 ++ ibm (s.thr.getFpr frs) 5 30) →
    CompletesStore i s p.ra 4 (storedByte 4 false w.toNat) { gpr := upd.toList } fun t =>
      ∀ r, upd = some r → t.thr.getGpr r = ea s.thr

/-- With MSR[FP] = 0 every floating-point instruction takes the floating-point unavailable interrupt, with MSR[VXU] = 0 every vector
instruction the VXU unavailable interrupt, with no other effect (60_exceptions R1829, R1835; 45_ppe_vmx_1 R1000). A fixed-point or
floating-point load or store, a load and reserve or a store conditional, whose operand lies in one 4 KB block: a breakpoint match
comes first, then (R1806) an alignment that is needed whatever the page, a real-mode violation, a missing segment, a missing page;
on a page, a store with C = 0 in the software-managed mode, the alignment of caching-inhibited storage (a store: with C = 1), a
protection violation, the alignment of a store with C = 0, before which a search of the page table may have set R in the second
doubleword of the entry it finds (R456). A breakpoint on the second word of a doubleword that the floating-point unit stores as two
leaves the first word stored or not (R352, U69). A data storage interrupt sets DSISR[9], [4], [1] by cause, a data segment interrupt
DSISR[10], both DSISR[6] for a store, and DAR; an alignment interrupt sets DAR and leaves DSISR; no other register and no byte changes
(R1820, R1821, R1822, R1823, R1827). -/
def Obligations.UnavailableUnitsTrap : Prop :=
  (∀ i, UsesFloat i → ∀ s, ibit s.thr.msr 50 = false → Traps i s 0x800 0) ∧
  (∀ i, UsesVectors i → ∀ s, ibit s.thr.msr 38 = false → Traps i s 0xF20 0) ∧
  ∀ i ea len store al, DataAccess i ea len store al → ∀ s, (al = .float → ibit s.thr.msr 50 = true) →
    let a := s.thr.truncEa (ea s.thr)
    let st : Word := if store then 0x02000000 else 0
    a.toNat % 4096 + len ≤ 4096 →
    (dabrMatch s.thr a len store = true → a.toNat % 32 + len ≤ 32 → ¬twoWords store al a len ∨ dabrMatch s.thr a 4 store = true →
      ∃ d : DWord, a.toNat ≤ d.toNat ∧ d.toNat < a.toNat + len ∧ d.toNat / 8 = s.thr.dabr.toNat / 8 ∧
        TakesData i s 0x300 (0x00400000 ||| st) d) ∧
    (∀ frs upd p, FloatStore i frs upd ea 8 → dabrMatch s.thr a len store = true → twoWords store al a len → Memory.wf s.mem = true →
      Ordinary s a 4 true p → alignedFor .float s p a 8 →
      TakesDataAfter i s 0x300 0x02400000 (a + 4) p.ra 4 (storedByte 8 false (s.thr.getFpr frs).toNat)) ∧
    (dabrMatch s.thr a len store = false →
      (misplaced al a len → TakesData i s 0x600 s.thr.dsisr a) ∧
      (¬misplaced al a len →
        (s.thr.erat = [] → ibit s.thr.msr 59 = false → ibit s.thr.msr 3 = false →
          ibit s.ppe.lpes 1 = false ∨ rmlsLimit s.ppe.rmls ≤ a.toNat → TakesData i s 0x300 (0x08000000 ||| st) a) ∧
        (s.thr.erat = [] → ibit s.thr.msr 59 = true →
          (noSegment s.thr a → TakesData i s 0x380 (0x00200000 ||| st) a) ∧
          (noPage s a → TakesData i s 0x300 (0x40000000 ||| st) a true)) ∧
        ∀ p, lookup s s.curT a (if store then .store else .load) = .page p s →
          let barred := inhibited s p = true ∧ ¬alignedFor al s p a len
          let unchanged := store = true ∧ p.c = false
          (unchanged → s.ppe.tl = true → TakesData i s 0x300 (0x40000000 ||| st) a) ∧
          (barred → ¬unchanged → TakesData i s 0x600 s.thr.dsisr a) ∧
          (permits s.thr.pr p store = false → ¬(unchanged ∧ s.ppe.tl = true) → alignedFor al s p a len ∨ (barred ∧ unchanged) →
            TakesData i s 0x300 (0x08000000 ||| st) a) ∧
          (permits s.thr.pr p store = true → barred → unchanged → s.ppe.tl = false →
            (Memory.wf s.mem = true →
              ∃ t, Machine.exec i s = .next t ∧ t.thr.pc = 0x600 ∧ t.thr.srr0 = s.thr.pc ∧ t.thr.dar = a ∧ t.thr.dsisr = s.thr.dsisr ∧
                t.thr.gpr = s.thr.gpr ∧ t.thr.fpr = s.thr.fpr ∧
                ∀ q, (∀ b d0 d1, s.pteOfPage s.curT p a = .found b d0 d1 → q < b + 8 ∨ b + 16 ≤ q) →
                  readByte t.mem q = readByte s.mem q) ∧
            (referenced s p a → TakesData i s 0x600 s.thr.dsisr a))))

/-- The vector instructions whose elements wrap: every element of the result; nothing else changes. `vsl` and `vsr` shift the whole
register when every byte of VRB gives the same count, and complete with a free result otherwise (R1079, R1080, U56); `mtvscr` writes
NJ and SAT (R1176); the data-stream instructions only go on (R1024 to R1029). -/
def Obligations.VectorElementsWrapAndShift : Prop :=
  (∀ i vrt len cnt f, VmxPlain i vrt len cnt f → ∀ s, ibit s.thr.msr 38 = true →
      Completes i s { vr := [vrt] } fun t => ∀ k, k < cnt → (element len (t.thr.getVr vrt) k : Int) = f s.thr k % 2^len) ∧
  (∀ (vrt vra vrb : BitVec 5) s, ibit s.thr.msr 38 = true →
      let n := (s.thr.getVr vrb).toNat % 8
      let same : Prop := ∀ k, k < 16 → element 8 (s.thr.getVr vrb) k % 8 = n
      Completes (.ppeVsl vrt vra vrb) s { vr := [vrt] }
        (fun t => same → (t.thr.getVr vrt).toNat = (s.thr.getVr vra).toNat * 2^n % 2^128) ∧
      Completes (.ppeVsr vrt vra vrb) s { vr := [vrt] }
        (fun t => same → (t.thr.getVr vrt).toNat = (s.thr.getVr vra).toNat / 2^n)) ∧
    (∀ (vrb : BitVec 5) s, ibit s.thr.msr 38 = true →
      Completes (.ppeMtvscr vrb) s { vscr := 0xFFFFFFFF } fun t => ∀ b, b < 32 →
        ibit t.thr.vscr b = (decide (b = 15 ∨ b = 31) && ibit (s.thr.getVr vrb) (96 + b))) ∧
    ∀ i, DataStream i → ∀ s, ibit s.thr.msr 38 = true → Completes i s {} fun _ => True

/-- The saturating vector instructions: every element is the exact value clamped to the bounds, and SAT is set if a clamp changed one,
else it stays (45_ppe_vmx_2 R1100). -/
def Obligations.VectorElementsSaturate : Prop :=
  ∀ i vrt len cnt sg f, VmxSaturating i vrt len cnt sg f → ∀ s, ibit s.thr.msr 38 = true →
    Completes i s { vr := [vrt], vscr := 1 } fun t =>
      (∀ k, k < cnt → (if sg then signedElement len (t.thr.getVr vrt) k else (element len (t.thr.getVr vrt) k : Int)) =
        max (satLow len sg) (min (satHigh len sg) (f s.thr k))) ∧
      ibit t.thr.vscr 31 = (ibit s.thr.vscr 31 ||
        (List.range cnt).any fun k => decide (f s.thr k < satLow len sg ∨ satHigh len sg < f s.thr k))

/-- The vector compares: an element of the result is all ones or zero; with Rc = 1 CR6 says all and none. The integer compares; the
floating-point ones in Java mode, a NaN comparing false; compare bounds (R1139 to R1152; the place of the graphics-mode bit: log 8). -/
def Obligations.VectorComparesAndCr6 : Prop :=
  let result (s : State) (i : Instr) (vrt : BitVec 5) (rec : Bool) (len cnt : Nat) (rel : Nat → Bool) : Prop :=
    Completes i s { vr := [vrt], cr := if rec then crFieldMask 6 else 0 } fun t =>
      (∀ k, k < cnt → element len (t.thr.getVr vrt) k = if rel k then 2^len - 1 else 0) ∧
      (rec = true → ibit t.thr.cr 24 = (List.range cnt).all rel ∧ ibit t.thr.cr 25 = false ∧
        ibit t.thr.cr 26 = (List.range cnt).all (fun k => !rel k) ∧ ibit t.thr.cr 27 = false)
  let java (s : State) : Prop := ibit s.ppe.hid1 13 = false ∧ ibit s.thr.vscr 15 = false
  let word (s : State) (r : BitVec 5) (k : Nat) : Nat := element 32 (s.thr.getVr r) k
  (∀ i vrt rec len cnt f, VmxCompare i vrt rec len cnt f → ∀ s, ibit s.thr.msr 38 = true → result s i vrt rec len cnt (f s.thr)) ∧
  (∀ i vrt vra vrb rec f, VmxOrder i vrt vra vrb rec f → ∀ s, ibit s.thr.msr 38 = true → java s →
    result s i vrt rec 32 4 fun k => !isNan f32 (word s vra k) && !isNan f32 (word s vrb k) &&
      f (imageKey 32 (word s vra k)) (imageKey 32 (word s vrb k))) ∧
  ∀ (vrt vra vrb : BitVec 5) (rec : Bool) s, ibit s.thr.msr 38 = true → java s →
    let out (k : Nat) : Bool × Bool :=
      let un := isNan f32 (word s vra k) || isNan f32 (word s vrb k)
      (un || decide (imageKey 32 (word s vrb k) < imageKey 32 (word s vra k)),
        un || decide (imageKey 32 (word s vra k) < -imageKey 32 (word s vrb k)))
    Completes (.ppeVcmpbfp vrt vra vrb rec) s { vr := [vrt], cr := if rec then crFieldMask 6 else 0 } fun t =>
      (∀ k, k < 4 → word t vrt k = (out k).1.toNat * 2^31 + (out k).2.toNat * 2^30) ∧
      (rec = true → ibit t.thr.cr 24 = false ∧ ibit t.thr.cr 25 = false ∧
        ibit t.thr.cr 26 = (List.range 4).all (fun k => !(out k).1 && !(out k).2) ∧ ibit t.thr.cr 27 = false)

/-- The floating-point vector instructions change no more than their destination, SAT for the conversions to integer and CR6 for the
compares; outside graphics mode the first NaN among the source elements, quieted, is the element of the result (R1180; the place of
the graphics-mode bit is the model's, log 8). What the results are for numbers, in Java mode, `VectorFloatRoundsOnce` says. -/
def Obligations.VectorFloatPropagatesNan : Prop :=
  ∀ i vrt regs vscr cr, VmxFloat i vrt regs vscr cr → ∀ s, ibit s.thr.msr 38 = true →
    Completes i s { vr := [vrt], vscr := vscr, cr := cr } fun t => ibit s.ppe.hid1 13 = false →
      ∀ k, k < 4 → ∀ pre r post, regs = pre ++ r :: post →
        (∀ q ∈ pre, isNan f32 (element 32 (s.thr.getVr q) k) = false) → isNan f32 (element 32 (s.thr.getVr r) k) = true →
        element 32 (t.thr.getVr vrt) k = element 32 (s.thr.getVr r) k ||| 0x00400000

/-- In Java mode add, subtract, multiply-add, negative multiply-subtract and the conversions from integer round the exact value of each
element once, to nearest: a finite result is the nearest single, a tie going to the even significand (R1180, R1200 to R1203, R1214, R1215). The maximum and the minimum of
two numbers, +0 above -0 (R1204, R1205); the value rounded to an integral one in each direction, with the sign of the operand (R1210 to
R1213); the conversions to integer, scaled, truncated and saturated, a NaN giving zero (R1216, R1217); the reciprocal and reciprocal
square-root estimates, within one part in 4096 (R1206, R1207). The place of the graphics-mode bit is the model's (log 8). -/
def Obligations.VectorFloatRoundsOnce : Prop :=
  ∀ (vrt vra vrb vrc : BitVec 5) s, ibit s.thr.msr 38 = true → ibit s.ppe.hid1 13 = false → ibit s.thr.vscr 15 = false →
    let w (r : BitVec 5) (k : Nat) (x : State) : Word := BitVec.ofNat 32 (element 32 (x.thr.getVr r) k)
    let v (r : BitVec 5) (k : Nat) : Int := scaledSingle (w r k s)
    let rounds (i : Instr) (srcs : List (BitVec 5)) (neg : Bool) (unit : Int) (x : Nat → Int) : Prop :=
      Completes i s { vr := [vrt] } fun t => ∀ k, k < 4 → (∀ r ∈ srcs, finiteSingle (w r k s)) → finiteSingle (w vrt k t) →
        RoundsTo 0 true unit (x k) (if neg then -scaledSingle (w vrt k t) else scaledSingle (w vrt k t))
    rounds (.ppeVaddfp vrt vra vrb) [vra, vrb] false 1 (fun k => v vra k + v vrb k) ∧
    rounds (.ppeVsubfp vrt vra vrb) [vra, vrb] false 1 (fun k => v vra k - v vrb k) ∧
    rounds (.ppeVmaddfp vrt vra vrb vrc) [vra, vrb, vrc] false (2^1074) (fun k => v vra k * v vrc k + v vrb k * 2^1074) ∧
    rounds (.ppeVnmsubfp vrt vra vrb vrc) [vra, vrb, vrc] true (2^1074) (fun k => v vra k * v vrc k - v vrb k * 2^1074) ∧
    (∀ uim : BitVec 5, rounds (.ppeVcfux vrt vrb uim) [] false (2^uim.toNat)
      (fun k => (element 32 (s.thr.getVr vrb) k : Int) * 2^1074)) ∧
    (∀ uim : BitVec 5, rounds (.ppeVcfsx vrt vrb uim) [] false (2^uim.toNat)
      (fun k => signedElement 32 (s.thr.getVr vrb) k * 2^1074)) ∧
    (let a (k : Nat) : Nat := element 32 (s.thr.getVr vra) k
     let b (k : Nat) : Nat := element 32 (s.thr.getVr vrb) k
     let picks (i : Instr) (f : Nat → Nat) : Prop := Completes i s { vr := [vrt] } fun t => ∀ k, k < 4 →
       isNan f32 (a k) = false → isNan f32 (b k) = false → element 32 (t.thr.getVr vrt) k = f k
     picks (.ppeVmaxfp vrt vra vrb) (fun k =>
       if imageKey 32 (b k) < imageKey 32 (a k) then a k else if imageKey 32 (a k) < imageKey 32 (b k) then b k else a k &&& b k) ∧
     picks (.ppeVminfp vrt vra vrb) fun k =>
       if imageKey 32 (a k) < imageKey 32 (b k) then a k else if imageKey 32 (b k) < imageKey 32 (a k) then b k else a k ||| b k) ∧
    (∀ x ∈ [(0#2, Instr.ppeVrfin vrt vrb), (1, .ppeVrfiz vrt vrb), (2, .ppeVrfip vrt vrb), (3, .ppeVrfim vrt vrb)],
      Completes x.2 s { vr := [vrt] } fun t => ∀ k, k < 4 →
        (finiteSingle (w vrb k s) → ∃ j, IntegerNear x.1 (v vrb k) j ∧ finiteSingle (w vrt k t) ∧
          scaledSingle (w vrt k t) = j * 2^1074 ∧ ibit (w vrt k t) 0 = ibit (w vrb k s) 0) ∧
        ((w vrb k s).toNat % 2^31 = 0x7F800000 → w vrt k t = w vrb k s)) ∧
    (∀ (uim : BitVec 5) (sg : Bool),
      let n (k : Nat) : Int := (v vrb k * 2^uim.toNat).tdiv (2^1074)
      let nan (k : Nat) : Bool := isNan f32 (element 32 (s.thr.getVr vrb) k)
      Completes (if sg then .ppeVctsxs vrt vrb uim else .ppeVctuxs vrt vrb uim) s { vr := [vrt], vscr := 1 } fun t =>
        (∀ k, k < 4 → (if sg then signedElement 32 (t.thr.getVr vrt) k else (element 32 (t.thr.getVr vrt) k : Int)) =
          if nan k then 0 else max (satLow 32 sg) (min (satHigh 32 sg) (n k))) ∧
        ibit t.thr.vscr 31 = (ibit s.thr.vscr 31 ||
          (List.range 4).any fun k => !nan k && decide (n k < satLow 32 sg ∨ satHigh 32 sg < n k))) ∧
    Completes (.ppeVrefp vrt vrb) s { vr := [vrt] } (fun t => ∀ k, k < 4 → finiteSingle (w vrb k s) →
      2^948 ≤ (v vrb k).natAbs → (v vrb k).natAbs ≤ 2^1200 →
      finiteSingle (w vrt k t) ∧ nearInverse 4096 (v vrb k) (scaledSingle (w vrt k t))) ∧
    Completes (.ppeVrsqrtefp vrt vrb) s { vr := [vrt] } fun t => ∀ k, k < 4 → finiteSingle (w vrb k s) → 0 < v vrb k →
      finiteSingle (w vrt k t) ∧ nearInverseRoot 4096 (v vrb k) (scaledSingle (w vrt k t))

/-- The vector loads and stores of ordinary operands move the bytes they say: a quadword, an element (the rest of the register is then
free), the bytes from the address to the end of its quadword left-justified, those below it right-justified with zeros elsewhere, or
nothing at all (R1003 to R1011, R1014 to R1022, 20_memory R355). On caching-inhibited storage the left and right forms take the alignment
interrupt (a store: where C = 1): 60_exceptions R1827 item 10, which the model puts before R1000 and R1002 (log 13); that DAR is then the
address of the first byte is the model's choice (log 13). -/
def Obligations.VectorLoadsAndStores : Prop :=
  (∀ i vrt ra rb v, VectorLoad i vrt ra rb v → ∀ s, ibit s.thr.msr 38 = true →
    let ea := s.thr.truncEa (eaX ra rb s.thr)
    (v = .right → ea.toNat % 16 = 0 → Completes i s { vr := [vrt] } fun t => t.thr.getVr vrt = 0) ∧
    ∀ p, 0 < v.len ea →
      (Ordinary s (v.base ea) (v.len ea) false p → alignedFor v.alignment s p (v.base ea) (v.len ea) →
        Completes i s { vr := [vrt] } fun t =>
          (∀ k, k < v.len ea → element 8 (t.thr.getVr vrt) (v.pos ea + k) = (readByte s.mem (p.ra + k)).toNat) ∧
          (v = .left ∨ v = .right → ∀ k, k < 16 → k < v.pos ea ∨ v.pos ea + v.len ea ≤ k → element 8 (t.thr.getVr vrt) k = 0)) ∧
      (v = .left ∨ v = .right → dabrMatch s.thr (v.base ea) (v.len ea) false = false →
        lookup s s.curT (v.base ea) .load = .page p s → inhibited s p = true →
        TakesData i s 0x600 s.thr.dsisr (v.base ea))) ∧
  ∀ i vrs ra rb v, VectorStore i vrs ra rb v → ∀ s, ibit s.thr.msr 38 = true →
    let ea := s.thr.truncEa (eaX ra rb s.thr)
    (v = .right → ea.toNat % 16 = 0 → Completes i s {} fun _ => True) ∧
    ∀ p, 0 < v.len ea →
      (Memory.wf s.mem = true → Ordinary s (v.base ea) (v.len ea) true p → alignedFor v.alignment s p (v.base ea) (v.len ea) →
        CompletesStore i s p.ra (v.len ea) (fun k => BitVec.ofNat 8 (element 8 (s.thr.getVr vrs) (v.pos ea + k))) {} fun _ => True) ∧
      (v = .left ∨ v = .right → dabrMatch s.thr (v.base ea) (v.len ea) true = false →
        lookup s s.curT (v.base ea) .store = .page p s → inhibited s p = true → p.c = true →
        TakesData i s 0x600 s.thr.dsisr (v.base ea))

/-- The SPU instructions that compute a register from registers: every element of the result; the instructions that only go on; `sync`
and `syncc`, which discard the prefetched instructions (R1570, R1571); nothing else changes. -/
def Obligations.SpuElementsWrap : Prop :=
  (∀ i rt len cnt f, SpuPlain i rt len cnt f → ∀ s,
    CompletesSpu i s (some rt) 0 fun t => ∀ k, k < cnt → (element len (t.spe.get rt) k : Int) = f s.spe k % 2^len) ∧
  (∀ i, SpuQuiet i → ∀ s, CompletesSpu i s none 0 fun _ => True) ∧
  ∀ (c : Bool) s, ∃ t, Machine.exec (if c then .spuSyncc else .spuSync) s = .next t ∧ OnlySpe s t ∧ t.spe.ibuf = [] ∧
    t.spe.srr0Old = (if c then none else s.spe.srr0Old) ∧ t.spe.pc = spuFollowing s.spe ∧
    { t.spe with pc := s.spe.pc, ibuf := s.spe.ibuf, srr0Old := s.spe.srr0Old } = s.spe

/-- Every floating-point instruction of the SPU completes and changes no more than its register and its flags; `fscrwr` writes the
defined bits of FPSCR, the single compares give masks, the conversions to integer truncate and saturate; an instruction that only
the PowerXCell 8i has is invalid on the Cell/B.E.: the SPU stops at its own address with SPU_Status[I] (30_encoding R564, D70; that
StopCode stays is the model's choice, log 15). `fesd` gives the value of its single, `frds` rounds its double once in the direction
of its slice, and a double below the normal numbers of single format, as it is before rounding (the model's choice: log 14), to zero
(R1525, R1526; that `fesd` sets NaN although R1495 says it changes no flag: log 48); `frest` and `frsqest` give the tokens of their
operands and set DBZ of a zero, and `fi` of an operand and its token a value within one part in 4096, or the largest magnitude for a
zero (R1515 to R1517, U61; that the two tokens of an operand differ: log 27); the double compares give masks, a NaN comparing false
(R1535 to R1538), and INV for a signalling one (for `dfceq` by R1535; for `dfcmeq`, `dfcgt` and `dfcmgt` that is the model's choice:
log 14, DEDUCED); `dftsv` tests the class (R1539). -/
def Obligations.SpuFloatFrames : Prop :=
  (∀ i rt m x, SpuFloat i rt m x → ∀ s, (x = true → s.cfg.chip = .powerXCell8i) → CompletesSpu i s rt m fun _ => True) ∧
  (∀ i rt m, SpuFloat i rt m true → ∀ s, s.cfg.chip ≠ .powerXCell8i → ibit (sget 0 s.spe.cells keySpuErrMask) 63 = false →
    ∃ t, Machine.exec i s = .next t ∧ OnlySpe s t ∧ t.spe = { s.spe with
      running := false, status := (s.spe.status &&& 0xFFFF0000) ||| 0x20,
      npc := s.spe.pc ||| (if s.spe.ie then 1 else 0) }) ∧
  (∀ (ra : BitVec 7) s, CompletesSpu (.spuFscrwr ra) s none (-1) fun t => t.spe.fpscr = s.spe.get ra &&& spuFpscrMask) ∧
  (∀ (rt ra rb : BitVec 7) s,
    let masks (i : Instr) (rel : Int → Int → Bool) : Prop := CompletesSpu i s (some rt) 0 fun t => ∀ k, k < 4 →
      sW rt k t.spe = if rel (extended (sW ra k s.spe)) (extended (sW rb k s.spe)) then 0xFFFFFFFF#32 else 0#32
    masks (.spuFceq rt ra rb) (fun a b => decide (a = b)) ∧ masks (.spuFcgt rt ra rb) (fun a b => decide (b < a)) ∧
    masks (.spuFcmeq rt ra rb) (fun a b => decide (a.natAbs = b.natAbs)) ∧
    masks (.spuFcmgt rt ra rb) (fun a b => decide (b.natAbs < a.natAbs))) ∧
  (∀ (rt ra : BitVec 7) (i8 : BitVec 8) s, 46 ≤ i8.toNat → i8.toNat ≤ 173 →
    let whole (k : Nat) : Int := (extended (sW ra k s.spe) * 2^(173 - i8.toNat)).tdiv (2^149)
    CompletesSpu (.spuCflts rt ra i8) s (some rt) 0 (fun t => ∀ k, k < 4 → sS 32 rt k t.spe = saturated 32 (whole k)) ∧
    CompletesSpu (.spuCfltu rt ra i8) s (some rt) 0 (fun t => ∀ k, k < 4 → sU 32 rt k t.spe = max 0 (min (2^32 - 1) (whole k)))) ∧
  (∀ (rt ra : BitVec 7) s,
    CompletesSpu (.spuFesd rt ra) s (some rt) spuFpscrMask (fun t => ∀ j, j < 2 →
      let a := sW ra (2 * j) s.spe
      let d := sD rt j t.spe
      (isNan f32 a.toNat = true → d = 0x7FF8000000000000 ∧ ibit t.spe.fpscr (54 + 32 * j) = true) ∧
      (a.toNat % 2^31 = 0x7F800000 → d = ibm a 0 1 ++ 0x7FF#11 ++ 0#52) ∧
      (finiteSingle a → finiteDouble d ∧ ibit d 0 = ibit a 0 ∧
        scaled d = if a.toNat / 2^23 % 2^8 = 0 then 0 else scaledSingle a)) ∧
    CompletesSpu (.spuFrds rt ra) s (some rt) spuFpscrMask (fun t => ∀ j, j < 2 →
      let d := sD ra j s.spe
      let a := sW rt (2 * j) t.spe
      sW rt (2 * j + 1) t.spe = 0 ∧
      (isNan f64 d.toNat = true → a = 0x7FC00000) ∧ (isNan f64 d.toNat = false → ibit a 0 = ibit d 0) ∧
      (isNan f64 d.toNat = false → 2^1202 ≤ (scaled d).natAbs → a.toNat % 2^31 = 0x7F800000) ∧
      (finiteDouble d → 2^1202 ≤ (scaled d).natAbs → ibit t.spe.fpscr (50 + 32 * j) = true) ∧
      (finiteDouble d → (scaled d).natAbs < 2^948 → a.toNat % 2^31 = 0) ∧
      (finiteDouble d → 2^948 ≤ (scaled d).natAbs → (scaled d).natAbs ≤ (2^24 - 1) * 2^1178 →
        finiteSingle a ∧ RoundsTo (ibm s.spe.fpscr (20 + 2 * j) 2) true 1 (scaled d) (scaledSingle a))) ∧
    CompletesSpu (.spuFrest rt ra) s (some rt) spuFpscrMask (fun t => ∀ k, k < 4 →
      sW rt k t.spe = Config.frestTok (sW ra k s.spe) ∧
      ibit t.spe.fpscr (116 + k) = (ibit s.spe.fpscr (116 + k) || decide (extended (sW ra k s.spe) = 0))) ∧
    CompletesSpu (.spuFrsqest rt ra) s (some rt) spuFpscrMask (fun t => ∀ k, k < 4 →
      sW rt k t.spe = rsqrtTok (sW ra k s.spe) ∧ sW rt k t.spe ≠ Config.frestTok (sW ra k s.spe) ∧
      ibit t.spe.fpscr (116 + k) = (ibit s.spe.fpscr (116 + k) || decide (extended (sW ra k s.spe) = 0))) ∧
    ∀ rb : BitVec 7, CompletesSpu (.spuFi rt ra rb) s (some rt) 0 fun t => ∀ k, k < 4 →
      let a := sW ra k s.spe
      let r := extended (sW rt k t.spe)
      (sW rb k s.spe = Config.frestTok a →
        (extended a = 0 → sW rt k t.spe = if ibit a 0 then 0xFFFFFFFF else 0x7FFFFFFF) ∧
        (extended a ≠ 0 → (extended a).natAbs ≤ 2^275 → (4096 * (r * extended a - 2^298)).natAbs ≤ 2^298)) ∧
      (sW rb k s.spe = rsqrtTok a →
        (extended a = 0 → sW rt k t.spe = 0x7FFFFFFF) ∧
        (extended a ≠ 0 → 0 < r ∧ 4095^2 * 2^447 ≤ 4096^2 * r^2 * (extended a).natAbs ∧
          4096^2 * r^2 * (extended a).natAbs ≤ 4097^2 * 2^447))) ∧
  (∀ i rt ra rb rel, SpuDoubleCompare i rt ra rb rel → ∀ s, s.cfg.chip = .powerXCell8i →
    CompletesSpu i s (some rt) spuFpscrMask fun t => ∀ j, j < 2 →
      let a := sD ra j s.spe
      let b := sD rb j s.spe
      sD rt j t.spe = (if isNan f64 a.toNat || isNan f64 b.toNat || !rel (flushedKey a) (flushedKey b) then 0
        else 0xFFFFFFFFFFFFFFFF) ∧
      ibit t.spe.fpscr (53 + 32 * j) = (ibit s.spe.fpscr (53 + 32 * j) || isSnan f64 a.toNat || isSnan f64 b.toNat)) ∧
  ∀ (rt ra i7 : BitVec 7) s, s.cfg.chip = .powerXCell8i → CompletesSpu (.spuDftsv rt ra i7) s (some rt) 0 fun t =>
    ∀ j, j < 2 → sD rt j t.spe =
      if (List.range 7).any fun c => ibit i7 c && doubleClass (sD ra j s.spe) c then 0xFFFFFFFFFFFFFFFF else 0

/-- Single precision of the SPU: every word of the result is the exact value truncated toward zero to the extended range, the largest
magnitude where it is too large, and +0 where it is zero or below the smallest (R1490, R1492, R1500 to R1505, R1520, R1522). -/
def Obligations.SpuSingleTruncates : Prop :=
  ∀ i rt valid k x, SpuSingle i rt valid k x → valid → ∀ s,
    CompletesSpu i s (some rt) spuFpscrMask fun t => ∀ j, j < 4 →
      let r := extended (sW rt j t.spe)
      (r = 0 → sW rt j t.spe = 0) ∧ (0 < r → 0 < x s.spe j) ∧ (r < 0 → x s.spe j < 0) ∧
      (r * k).natAbs ≤ (x s.spe j).natAbs ∧
      ∀ c : Word, (extended c * k).natAbs ≤ (x s.spe j).natAbs → (extended c * k).natAbs ≤ (r * k).natAbs

/-- Double precision of the SPU: with finite operands, a denormal counting as zero, a finite result is the exact value rounded once in
the direction of its slice, a tie of the nearest mode going to the even significand; FI (INX) is sticky (R1494, R1506 to R1512). -/
def Obligations.SpuDoubleRoundsOnce : Prop :=
  ∀ i rt regs neg k x, SpuDouble i rt regs neg k x → ∀ s,
    CompletesSpu i s (some rt) spuFpscrMask fun t => ∀ j, j < 2 → (∀ r ∈ regs, finiteDouble (sD r j s.spe)) →
      finiteDouble (sD rt j t.spe) →
        let r := if neg then -scaled (sD rt j t.spe) else scaled (sD rt j t.spe)
        RoundsTo (ibm s.spe.fpscr (20 + 2 * j) 2) false k (x s.spe j) r ∧
        ibit t.spe.fpscr (52 + 32 * j) = (ibit s.spe.fpscr (52 + 32 * j) || decide (r * k ≠ x s.spe j))

/-- The loads and stores of local storage move the aligned quadword at the address wrapped by LSLR, and no other byte (R1221 to R1230). -/
def Obligations.SpuLocalStorageQuadwords : Prop :=
  ∀ i rt st ea, SpuAccess i rt st ea → ∀ s,
    (st = false → CompletesSpu i s (some rt) 0 fun t => ∀ k, k < 16 →
      element 8 (t.spe.get rt) k = (readByte s.spe.ls (quadAddress s.spe (ea s.spe) + k)).toNat) ∧
    (st = true → Memory.wf s.spe.ls = true → ∃ t, Machine.exec i s = .next t ∧ OnlySpe s t ∧
      { t.spe with ls := s.spe.ls, pc := s.spe.pc } = s.spe ∧ t.spe.pc = spuFollowing s.spe ∧
      ∀ a, readByte t.spe.ls a =
        if quadAddress s.spe (ea s.spe) ≤ a ∧ a < quadAddress s.spe (ea s.spe) + 16 then
          BitVec.ofNat 8 (element 8 (s.spe.get rt) (a - quadAddress s.spe (ea s.spe)))
        else readByte s.spe.ls a)

/-- The branches of the SPU go to the target wrapped by LSLR or to the next instruction; a link is written in word 0 with zeros after
it, taken or not; the feature bits change IE of a taken branch only; both bits together are refused by name (R1440 to R1457, U58).
`iret` goes to SRR0. -/
def Obligations.SpuBranchesAndLinks : Prop :=
  (∀ i taken target link d e, SpuBranch i taken target link d e → ∀ s,
    (d && e) = false → ∃ t, Machine.exec i s = .next t ∧ OnlySpe s t ∧
      { t.spe with regs := s.spe.regs, pc := s.spe.pc, ie := s.spe.ie } = s.spe ∧
      t.spe.pc = (if taken s.spe then target s.spe &&& s.spe.lslr else spuFollowing s.spe) ∧
      t.spe.ie = (if taken s.spe then enableAfter s.spe d e else s.spe.ie) ∧
      (∀ r, link ≠ some r → t.spe.get r = s.spe.get r) ∧
      ∀ r, link = some r → sW r 0 t.spe = spuFollowing s.spe ∧ ∀ k, 0 < k → k < 4 → sW r k t.spe = 0) ∧
  (∀ i taken target link, SpuBranch i taken target link true true → ∀ s, Machine.exec i s = .refused .branchDisableAndEnable) ∧
  ∀ (ra : BitVec 7) (d e : Bool) s, (d && e) = false → ∃ t, Machine.exec (.spuIret ra d e) s = .next t ∧ OnlySpe s t ∧
    { t.spe with pc := s.spe.pc, ie := s.spe.ie } = s.spe ∧ t.spe.ie = enableAfter s.spe d e ∧
    (s.spe.srr0Old = none → t.spe.pc = s.spe.srr0 / 4 * 4 &&& s.spe.lslr)

/-- A halt whose condition does not hold only goes on; one whose condition holds, and every stop-and-signal, stops the SPU: SPU_Status
names the reason, SPU_NPC holds the next address with IE, and the class 2 interrupt status bit is set, which reaches the queue of
the thread that INT_Route names if it is enabled (R1401 to R1407, R1551 to R1553, 61_spe_iic_interrupts R1926, R1932; that a halt keeps
the StopCode is the model's reading, log 15). -/
def Obligations.SpuHaltsAndStops : Prop :=
  let stopped (p : Spe) (status : Word) (bit : DWord) : Spe := { p with
    running := false, status := status, npc := spuFollowing p ||| (if p.ie then 1 else 0), pc := spuFollowing p,
    intStat := p.intStat.set 2 (p.intStat[2] ||| bit) }
  let stops (i : Instr) (s : State) (status : Word) (bit : DWord) : Prop :=
    (s.spe.intMask[2] &&& bit = 0 → ∃ t, Machine.exec i s = .next t ∧ OnlySpe s t ∧ t.spe = stopped s.spe status bit) ∧
    ∀ (u : Fin 2) (prio : BitVec 4), s.spe.intMask[2] &&& bit ≠ 0 → s.spe.intStat[2] &&& s.spe.intMask[2] = 0 →
      s.spe.held[2] = none → ibm (sget 0 s.spe.cells keyIntRoute) 40 8 = (if u = 0 then 0x0E#8 else 0x0F#8) →
      ibm (sget 0 s.spe.cells keyIntRoute) 32 4 = prio → (s.plat.iic[u].queue[prio.toNat]'prio.isLt).valid = false →
      ∃ t, Machine.exec i s = .next t ∧ t.spe = stopped s.spe status bit ∧
        t.plat.iic = s.plat.iic.set u { s.plat.iic[u] with
          queue := s.plat.iic[u].queue.set prio.toNat { valid := true, cls := 2, srcNode := 0, src := speUnit s.curN } prio.isLt } ∧
        { t with spes := s.spes, plat := { t.plat with iic := s.plat.iic } } = s
  (∀ i cond, SpuHalt i cond → ∀ s, (¬cond s.spe → CompletesSpu i s none 0 fun _ => True) ∧
    (cond s.spe → stops i s ((s.spe.status &&& 0xFFFF0000) ||| 0x4) 0x4)) ∧
  (∀ (sig : BitVec 14) s, stops (.spuStop sig) s (sig.setWidth 32 <<< 16 ||| 0x2) 0x2) ∧
  ∀ (ra rb rc : BitVec 7) s, stops (.spuStopd ra rb rc) s 0x3FFF0002 0x2

/-- The channel reads and writes that do not stall have their value and their effect; one that stalls sets SPU_Status[W] and stays; one
of a channel that has no such side does nothing, and a read delivers 0 (R1560, R1561, R1564 to R1566). The model's choices: after two
writes of channel 14 without `syncc` the old value of SRR0 is the first written one (log 47), and a request of channel 9 tracks the
pending inbound writes to the local storage (log 30). -/
def Obligations.ChannelsReadWriteAndStall : Prop :=
  (∀ ch ok val eff, ChannelRead ch ok val eff → ∀ (rt : BitVec 7) s, ok s.spe →
    ∃ t, Machine.exec (.spuRdch rt (BitVec.ofNat 7 ch)) s = .next t ∧ OnlySpe s t ∧
      { t.spe with regs := s.spe.regs, pc := s.spe.pc, status := s.spe.status } = eff s.spe ∧
      t.spe.pc = spuFollowing s.spe ∧ t.spe.status = s.spe.status &&& ~~~8#32 ∧
      t.spe.get rt = val s.spe ++ 0#96 ∧ ∀ r, r ≠ rt → t.spe.get r = s.spe.get r) ∧
  (∀ ch ok eff, ChannelWrite ch ok eff → ∀ (rt : BitVec 7) s, ok s.spe (sW rt 0 s.spe) →
    BecomesSpe (.spuWrch rt (BitVec.ofNat 7 ch)) s
      { eff s.spe (sW rt 0 s.spe) with pc := spuFollowing s.spe, status := s.spe.status &&& ~~~8#32 }) ∧
  (∀ (rt : BitVec 7) s, (∀ c ∈ s.spe.spuQ, c.stalled = false ∨ c.tag.toNat % 32 ≠ (sW rt 0 s.spe).toNat % 32) →
    ∃ t, Machine.exec (.spuWrch rt 26) s = .next t ∧ OnlySpe s t ∧ { t.spe with stallStat := s.spe.stallStat } =
      { s.spe with pc := spuFollowing s.spe, status := s.spe.status &&& ~~~8#32 }) ∧
  (∀ (rt ca : BitVec 7) s, s.spe.cnt[ca.toNat]? = some 0 →
    (ca.toNat ∈ [0, 3, 4, 24, 25, 27, 29] →
      BecomesSpe (.spuRdch rt ca) s { s.spe with status := s.spe.status ||| 8 }) ∧
    (ca.toNat ∈ [9, 21, 28, 30] ∨ (ca = 23 ∧ ((sW rt 0 s.spe).toNat % 4 = 1 ∨ (sW rt 0 s.spe).toNat % 4 = 2)) →
      BecomesSpe (.spuWrch rt ca) s { s.spe with status := s.spe.status ||| 8 })) ∧
  ∀ (rt ca : BitVec 7) s,
    (ca.toNat ∉ readChannels → CompletesSpu (.spuRdch rt ca) s (some rt) 0 fun t => t.spe.get rt = 0) ∧
    (ca.toNat ∉ writeChannels → CompletesSpu (.spuWrch rt ca) s none 0 fun _ => True)

/-- A write of channel 21 enters the command of the parameter channels in the SPU queue, or an immediate atomic opcode as the atomic
command, which while one is pending is left for the MFC to report (R1631, R1637); with 16 commands in the queue it waits; a read of MFC_CMDStatus enters that of the proxy registers or reports why not; EAH is cleared, the queue and its count
change, nothing else (R1641, R1642; the number of the entry is the lowest free one: the model's choice, log 21). -/
def Obligations.CommandsEnterTheQueue : Prop :=
  (∀ (rt : BitVec 7) s, 16 ≤ s.spe.spuQ.length →
    BecomesSpe (.spuWrch rt 21) s { s.spe with status := s.spe.status ||| 8 }) ∧
  (∀ (rt : BitVec 7) s, s.spe.cnt[21] ≠ 0 → s.spe.spuQ.length < 16 →
    let p := s.spe
    let v := sW rt 0 p
    ∀ slot, lowestFree p.spuQ slot →
    let c := newCommand v p.mfcLsa (p.mfcEah ++ p.mfcEal) p.mfcSize p.mfcTag p.orderNext slot
    let q := { p with mfcEah := 0, orderNext := p.orderNext + 1, pc := spuFollowing p, status := p.status &&& ~~~8#32 }
    (v.toNat % 256 ∉ immediateOps →
      BecomesSpe (.spuWrch rt 21) s { q with spuQ := p.spuQ ++ [c], cnt := p.cnt.set 21 (p.cnt[21] - 1) }) ∧
    (v.toNat % 256 ∈ immediateOps → p.atomicCmd = none → BecomesSpe (.spuWrch rt 21) s { q with atomicCmd := some c }) ∧
    (v.toNat % 256 ∈ immediateOps → p.atomicCmd ≠ none →
      BecomesSpe (.spuWrch rt 21) s { q with atomicLate := p.atomicLate + 1 })) ∧
  ∀ s (n : Fin 8) slot, lowestFree s.spes[n].pxQ slot →
    let p := s.spes[n]
    let c := newCommand p.pxCmd p.pxLsa (p.pxEah ++ p.pxEal) (BitVec.ofNat 16 (p.pxSizeTag.toNat / 2^16))
      (BitVec.ofNat 16 p.pxSizeTag.toNat) p.orderNext slot
    let complete := p.pxSeen &&& 0b11101 = 0b11101
    let answer := (if complete then 0 else 1) + (if p.pxQ.length < 8 then 0 else 2)
    problemRead s n 0x3014 4 = .ok answer { s with spes := s.spes.set n (
      if answer = 0 then { p with pxSeen := 0, pxEah := 0, orderNext := p.orderNext + 1, pxQ := p.pxQ ++ [c] }
      else { p with pxSeen := 0 }) }

/-- A `put`, `get` or `sndsig` form with valid parameters performs one of its units, in any order, until all are performed; then it
leaves its queue, and an `s` form starts the SPU (whose status is then R alone: the model's reading, log 9). A unit moves its bytes
between the wrapped LS address and the effective address, and no others; a put to the line that the SPE has reserved ends the
reservation without event Lr (the model's choice, log 31) (R1633, R1634, R1643, R1645 to R1651, R1655, R1656, in real mode R518). -/
def Obligations.TransfersMoveTheirUnits : Prop :=
  ∀ i put start four, MfcTransfer i put start four → ∀ s x c, Performs s x c →
    (if start then inProxyQueue x c else inQueue x c) → (four = true → transferSize c = 4) →
    validTransfer (transferSize c) c.lsa.toNat (c.ea.toNat % 2^32) →
    let n := transferSize c
    (allPerformed c.units (unitsOf n) → CommandEnds i s x (if start then started s.spe else s.spe)) ∧
    (¬allPerformed c.units (unitsOf n) → DmaReady s → (∀ k, k < unitsOf n → region s (realOf (c.ea.toNat + 16 * k)) = .dram) →
      MovesUnit i s x c put c.lsa.toNat c.ea.toNat n (unitsOf n))

/-- A list command takes its elements from local storage in order, performs the units of each as a transfer does, moves its running LS
address past them, stalls with its tag's notification after an element that asks for it, and leaves the queue after the last one
(R1635, R1670 to R1675); a put to the line that the SPE has reserved ends the reservation without event Lr (the model's choice,
log 31). -/
def Obligations.ListsRunTheirElements : Prop :=
  ∀ i put, MfcList i put → ∀ s x c, Performs s x c → inSpuQueue x c → validList c → c.stalled = false →
    (c.elem = none → transferSize c ≤ c.listDone → CommandEnds i s x s.spe) ∧
    (c.elem = none → c.listDone < transferSize c →
      let e := BitVec.ofNat 64 (readBytes s.spe.ls (lsOf s.spe (c.ea.toNat % 2^32 + c.listDone)) 8)
      elementValid e → BecomesSpe i s (placeCommand s.spe x { c with
        listDone := c.listDone + 8, elem := some e, units := 0,
        lsa := if elementSize e = 0 then c.lsa else BitVec.ofNat 32 ((c.lsa.toNat + 15) / 16 * 16) })) ∧
    ∀ e, c.elem = some e →
      (allPerformed c.units (elementUnits e) → elementLow e + elementSize e ≤ 2^32 →
        let c' : MfcCmd := { c with
          elem := none, units := 0, stalled := ibit e 0,
          lsa := if elementSize e = 0 then c.lsa else BitVec.ofNat 32 (elementLsa c e + elementSize e) }
        let q := placeCommand s.spe x c'
        BecomesSpe i s (if ibit e 0 then
          let q' := { q with
            stallStat := s.spe.stallStat ||| (1#32 <<< (c.tag.toNat % 32)), cnt := s.spe.cnt.set 25 1 }
          if s.spe.cnt[25] = 0 then withEvent q' 30 else q'
        else q)) ∧
      let ea := c.ea.toNat / 2^32 * 2^32 + elementLow e
      (¬allPerformed c.units (elementUnits e) → elementValid e → DmaReady s →
        (∀ k, k < elementUnits e → region s (realOf (ea + 16 * k)) = .dram) →
        MovesUnit i s x c put (elementLsa c e) ea (elementSize e) (elementUnits e))

/-- The storage-control commands without an effect and the synchronization commands leave their queue; `sdcrz` clears one of its lines
of main storage, or leaves its queue when all are cleared (R1657, R1691). That `sdcrz` of the line that the SPE has reserved ends the reservation
without event Lr is the model's choice (log 31), and so are the parameter checks of these commands and that those without an effect do not translate their address (log 12). -/
def Obligations.StorageControlCommands : Prop :=
  (∀ i checked, MfcHint i checked → ∀ s x c, Performs s x c → inQueue x c →
    (checked = true → validTransfer (transferSize c) c.lsa.toNat (c.ea.toNat % 2^32)) → CommandEnds i s x s.spe) ∧
  ∀ (a b : BitVec 8) s x c, Performs s x c → inQueue x c →
    let n := transferSize c
    let first := c.ea.toNat / 128
    let lines := if n = 0 then 0 else (c.ea.toNat + n - 1) / 128 - first + 1
    validTransfer n c.lsa.toNat (c.ea.toNat % 2^32) →
    (allPerformed c.units lines → CommandEnds (.mfcSdcrz a b) s x s.spe) ∧
    (¬allPerformed c.units lines → DmaReady s → (∀ k, k < lines → region s (realOf (128 * (first + k))) = .dram) →
      ∃ k, k < lines ∧ c.units.testBit k = false ∧
        let ra := realOf (128 * (first + k))
        StoresLine (.mfcSdcrz a b) s ra 128 (fun _ => 0)
          (speDrops (placeCommand s.spe x { c with units := c.units ||| 2^k }) (ra / 128)))

/-- The atomic commands on a line of main storage that is not caching-inhibited: `getllar` loads it and takes the reservation, `putllc`
stores only with the reservation (without it every byte of main storage reads as before) and always ends it, `putlluc` stores; the status is delivered on channel 27. `putqlluc` stores and
then leaves the SPU queue (R1660 to R1664; the place of the boundary in MFC_RMAB is the model's, log 8). -/
def Obligations.AtomicLineCommands : Prop :=
  ∀ (a b : BitVec 8) s x c, Performs s x c → DmaReady s →
    let ra := lineOf (realOf c.ea.toNat)
    let a0 := lineOf (lsOf s.spe c.lsa.toNat)
    let m := (s.spe.cell keyRmab).toNat % 16
    let line (j : Nat) : Byte := readByte s.spe.ls (a0 + j)
    let ended (p : Spe) (status : Word) : Spe := { p with
      atomicCmd := none, atomStat := status, cnt := p.cnt.set 27 1 }
    m ≠ 0 → ra < 2^(m + 27) → region s ra = .dram →
    (x = .atomic →
      FetchesLine (.mfcGetllar a b) s ra 128 a0 (ended { s.spe with llres := some (ra / 128) } 4) ∧
      (s.spe.llres = some (ra / 128) → StoresLine (.mfcPutllc a b) s ra 128 line (ended { s.spe with llres := none } 0)) ∧
      (s.spe.llres ≠ some (ra / 128) → ∃ t, Machine.exec (.mfcPutllc a b) s = .next t ∧ OnlySpe s t ∧
        (∀ q, readByte t.mem q = readByte s.mem q) ∧ (∀ q, readByte t.spe.ls q = readByte s.spe.ls q) ∧
        { t.spe with cells := s.spe.cells } = ended { s.spe with llres := none } 1 ∧
        ∀ key, key ≠ keyDar → t.spe.cell key = s.spe.cell key) ∧
      StoresLine (.mfcPutlluc a b) s ra 128 line (ended (speDrops s.spe (ra / 128)) 2)) ∧
    (inSpuQueue x c →
      (c.units = 0 → StoresLine (.mfcPutqlluc a b) s ra 128 line
        (speDrops (placeCommand s.spe x { c with units := 1 }) (ra / 128))) ∧
      (c.units ≠ 0 → CommandEnds (.mfcPutqlluc a b) s x s.spe))

/-- A tag that is not below 32, a form in a queue that it may not stand in, and an immediate command in a queue are command errors; an
invalid size or alignment is an alignment error: both queues stop (R1633 to R1637, R1639; the index of the atomic command: log 21). An
immediate atomic command issued while one was pending is a command error that a step of the MFC reports (R1631, R1637). A segment fault
holds the command and is recorded with the address and, unless MFC_DSIPR is locked, the queue index (R1640, 21_translation R519,
61_spe_iic_interrupts R1937). -/
def Obligations.MfcErrorsAndExceptions : Prop :=
  (∀ s, s.spe.mfcMoves = [.lateAtomic] → s.spe.intMask[0] &&& 2 = 0 → ∃ t, s.mfcStep = .next t ∧ OnlySpe s t ∧
    t.spe = withStatus { s.spe with
      atomicLate := s.spe.atomicLate - 1, halted := true, cells := sput 0 s.spe.cells keyCer 24 } 0 2) ∧
  ∀ s x c, Performs s x c →
    (∀ i put start four, MfcTransfer i put start four →
      (x ≠ .atomic → ¬(if start then inProxyQueue x c else inQueue x c) → MfcError i s (placeIndex x c) 2) ∧
      ((if start then inProxyQueue x c else inQueue x c) →
        ((four = true ∧ transferSize c ≠ 4) ∨ ¬validTransfer (transferSize c) c.lsa.toNat (c.ea.toNat % 2^32)) →
        MfcError i s (placeIndex x c) 1)) ∧
    (∀ i put, MfcList i put →
      (x ≠ .atomic → ¬inSpuQueue x c → MfcError i s (placeIndex x c) 2) ∧
      (inSpuQueue x c → ¬validList c → MfcError i s (placeIndex x c) 1)) ∧
    (∀ a b : BitVec 8, x ≠ .atomic → ∀ i ∈ [Instr.mfcGetllar a b, .mfcPutllc a b, .mfcPutlluc a b],
      MfcError i s (placeIndex x c) 2) ∧
    ∀ a b : BitVec 8, inQueue x c → validTransfer (transferSize c) c.lsa.toNat (c.ea.toNat % 2^32) → transferSize c = 16 →
      c.units = 0 → ibit s.spe.sr1 59 = true → s.spe.cell keyLsacr = 0 → s.spe.smmBusy = false →
      (∀ k : Fin 8, (s.spe.slb[k].v = true → s.spe.slb[k].esid.toNat ≠ c.ea.toNat / 2^28)) → s.spe.intMask[1] &&& 1 = 0 →
      let cells := sput 0 s.spe.cells keyDar c.ea
      BecomesSpe (.mfcPut a b) s (withStatus { placeCommand s.spe x { c with dep := true } with
        smmBusy := true, dsiprLocked := true,
        cells := if s.spe.dsiprLocked then cells else sput 0 cells keyDsipr (BitVec.ofNat 64 (placeIndex x c)) } 1 1)

/-- A command moves only if it is not stalled, waits for no exception, and no earlier command of its queue holds it up by a barrier, a
fence or a synchronization command; while the MFC is suspended or halted by an error, only if all its data has moved, to complete, and
an immediate atomic command not at all (R1630, R1639, R1692, R1695). After MFC_CNTL[R] the oldest command that waited moves first, if
it may (R1640). A tag-status request is answered when the groups of its mask meet its condition: the status shows the groups of the
mask that have no command in the queue, channels 23 and 24 count 1, and event Tg is raised (R1682, 49_spe_mailbox_signal_event
R1781). -/
def Obligations.QueuesKeepOrderAndReportTags : Prop :=
  (∀ (p : Spe) x, MfcMove.command x ∈ p.mfcMoves → ∃ c, commandAt p x = some c ∧ c.dep = false ∧
      match x with
      | .spu _ => c.stalled = false ∧ notBlocked p.spuQ c ∧ (p.halted = true ∨ p.sc = true → dataMoved c)
      | .proxy _ => c.stalled = false ∧ notBlocked p.pxQ c ∧ (p.halted = true ∨ p.sc = true → dataMoved c)
      | .atomic => p.halted = false ∧ p.sc = false) ∧
  (∀ (p : Spe) o, p.resend = some o →
    (∃ y c, MfcMove.command y ∈ Spe.mfcMoves { p with resend := none } ∧ commandAt p y = some c ∧ c.order = o) →
    ∀ x, MfcMove.command x ∈ p.mfcMoves → ∃ c, commandAt p x = some c ∧ c.order = o) ∧
  ∀ s, s.spe.mfcMoves = [.tagUpdate] →
      (s.spe.tagReq = 0 ∨ (s.spe.tagReq = 1 ∧ ∃ g, g < 32 ∧ s.spe.tagMask.getLsbD g = true ∧ groupDone s.spe.spuQ g) ∨
        (s.spe.tagReq = 2 ∧ ∀ g, g < 32 → s.spe.tagMask.getLsbD g = true → groupDone s.spe.spuQ g)) ∧
      ∃ t stat, s.mfcStep = .next t ∧ OnlySpe s t ∧
        (∀ g, g < 32 → (stat.getLsbD g = true ↔ s.spe.tagMask.getLsbD g = true ∧ groupDone s.spe.spuQ g)) ∧
        t.spe = withEvent { s.spe with tagStat := stat, tagReq := 0, cnt := (s.spe.cnt.set 24 1).set 23 1 } 31

/-- The mailbox, signal and run-control registers of an SPE as the rest of the machine accesses them: a store to SPU_In_Mbox appends or
replaces the newest of four, a read of SPU_Out_Mbox or SPU_Out_Intr_Mbox that holds a value takes it, SPU_Mbox_Stat shows the counts,
a store to a signal register overwrites or ORs by SPU_Cfg, SPU_RunCntl starts and stops the SPU (49_spe_mailbox_signal_event R1732 to
R1737, R1751, 49_spu_control_channel R1557; that the status of a started SPU is R alone is the model's reading, log 9, and that a
stop request keeps StopCode is the model's choice, log 15). -/
def Obligations.MailboxesSignalsAndRunControl : Prop :=
  ∀ s (n : Fin 8) (v : Word),
    let p := s.spes[n]
    let k : Nat := p.cnt[29].toNat
    let store (off : Nat) (q : Spe) : Prop := problemWrite s n off 4 v.toNat = .ok () (setSpe s n q)
    (k < 4 → store 0x400C (
      let q := { p with inMbox := p.inMbox.setIfInBounds k v, cnt := p.cnt.set 29 (p.cnt[29] + 1) }
      if k = 0 then withEvent q 27 else q)) ∧
    (4 ≤ k → store 0x400C { p with inMbox := p.inMbox.set 3 v }) ∧
    (p.cnt[28] = 0 → problemRead s n 0x4004 4 =
      .ok p.outMbox.toNat (setSpe s n (withEvent { p with cnt := p.cnt.set 28 1 } 24))) ∧
    (p.cnt[30] = 0 → priv2Read s n 0x4000 =
      .ok p.outIntrMbox.toNat (setSpe s n (withEvent { p with cnt := p.cnt.set 30 1 } 25))) ∧
    (p.cnt[28].toNat ≤ 1 → k ≤ 4 → p.cnt[30].toNat ≤ 1 → problemRead s n 0x4014 4 =
      .ok ((1 - p.cnt[30].toNat) * 2^16 + (4 - k) * 2^8 + (1 - p.cnt[28].toNat)) s) ∧
    store 0x1400C (
      let q := { p with sig1 := if ibit p.cfg 63 then p.sig1 ||| v else v, cnt := p.cnt.set 3 1 }
      if p.cnt[3] = 0 then withEvent q 22 else q) ∧
    store 0x1C00C (
      let q := { p with sig2 := if ibit p.cfg 62 then p.sig2 ||| v else v, cnt := p.cnt.set 4 1 }
      if p.cnt[4] = 0 then withEvent q 23 else q) ∧
    (v.toNat % 4 = 1 → store 0x401C (started p)) ∧
    (v.toNat % 4 = 0 → store 0x401C (
      if p.running then
        { p with runCntl := 0, running := false, status := p.status &&& 0xFFFF0000, npc := p.pc ||| (if p.ie then 1 else 0) }
      else { p with runCntl := 0 }))

/-- The controller of a thread shows the valid interrupt of the numerically lowest priority in IIC_IPP, signals it if its priority is
below IIC_CPL, and a destructive read takes it and loads its priority into IIC_CPL; without a valid interrupt the read shows 0 and
changes nothing (61_spe_iic_interrupts R1903, R1906, R1908). -/
def Obligations.InterruptControllerPresentsHighest : Prop :=
  (∀ (c : Iic) (p : BitVec 4), presents c p →
    let e := c.queue[p.toNat]'p.isLt
    c.ipp.toNat = 2^31 + e.cls.toNat * 2^16 + (e.srcNode.toNat * 16 + e.src.toNat) * 2^8 + p.toNat * 2^4 ∧
    (c.signal = true ↔ 2 * p.toNat < c.cpl.toNat) ∧
    c.take = { c with cpl := BitVec.ofNat 5 (2 * p.toNat), queue := c.queue.set p.toNat IicEntry.empty p.isLt }) ∧
  ∀ c : Iic, c.igp = 0 → (∀ q : BitVec 4, (c.queue[q.toNat]'q.isLt).valid = false) →
    c.ipp = 0 ∧ c.signal = false ∧ c.take = c

/-- A tick moves the time base and every running decrementer by one and nothing else, and only with HID6[tb_enable] = 1: in the internal
mode with a rate that is not zero and the TBEN input high, in the external mode when that input rises; a signalled external interrupt, a
negative hypervisor decrementer and a negative decrementer interrupt a thread that enables them, in this order of priority
(62_platform R1990, R1995, 60_exceptions R1806, R1826, R1831, R1832; the places of the enables are the model's, log 8). Before them a
thread takes its imprecise machine check when it is due (R1811; when that is: log 19), the thermal management interrupt and, without it
and a system error, the maintenance interrupt of a matched instruction, which nothing masks, or of a trace signal (R1875, R1880). -/
def Obligations.TimeBaseAndItsInterrupts : Prop :=
  (∀ s rest, s.stopped = none →
    (s.schedule = .tick :: rest → ∃ t, step s = .next t ∧
      if ibit s.ppe.hid6 15 && !ibit (s.pcell offTbr) 55 && s.plat.tben && decide (ibm (s.pcell offTbr) 56 8 ≠ (0 : BitVec 8))
        then Ticked s t else t = { s with schedule := rest }) ∧
    ∀ high, s.schedule = .setTben high :: rest →
      let s' : State := { s with plat := { s.plat with tben := high } }
      ∃ t, step s = .next t ∧ if ibit s.ppe.hid6 15 && ibit (s.pcell offTbr) 55 && high && !s.plat.tben
        then Ticked s' t else t = { s' with schedule := rest }) ∧
  (∀ (s : State) (u : Fin 2), ibit s.ppe.te u.val = true →
    let th := s.threads[u]
    let hyper := ibit th.msr 48 || !ibit th.msr 3
    (th.mcheck = some 0 → ibit th.msr 51 = true → s.ppeStep u =
      .next ((s.modT u fun th => { th with mcheck := none }).interrupt u (.machineCheck false) th.pc 0)) ∧
    (th.mcheck = none → hyper = true → ibit s.ppe.hid0 29 = true → s.thermalSignal = true →
      s.ppeStep u = .next (s.interrupt u .thermal th.pc 0x40000000)) ∧
    (th.mcheck = none → ibit s.ppe.hid0 29 = false → th.sysErr = false →
      (th.maintInstr ≠ 0 → s.ppeStep u =
        .next ((s.modT u fun th => { th with maintInstr := 0 }).interrupt u .maintenance th.pc (maintInfo th.maintInstr))) ∧
      (th.maintInstr = 0 → th.maint ≠ 0 → hyper = true → s.ppeStep u =
        .next ((s.modT u fun th => { th with maint := 0 }).interrupt u .maintenance th.pc (setIbm info33 35 th.maint))))) ∧
  ∀ s (u : Fin 2), Undisturbed s u →
    let th := s.threads[u]
    let hyper := ibit th.msr 48 || !ibit th.msr 3
    let hdecTakes := hyper && th.lpcrHdice && s.ppe.hdec.msb
    (s.plat.iic[u].signal = true → ibit th.msr 48 = true → s.ppe.extrHsrr = false →
      s.ppeStep u = .next (s.interrupt u .external th.pc 0)) ∧
    (s.plat.iic[u].signal = false → hdecTakes = true →
      s.ppeStep u = .next (s.interrupt u .hypervisorDecrementer th.pc 0x40000000)) ∧
    (s.plat.iic[u].signal = false → hdecTakes = false → ibit th.msr 48 = true → th.dec.msb = true →
      s.ppeStep u = .next (s.interrupt u .decrementer th.pc 0))

/-- Decoding an encoded instruction gives it back, in the instruction set it belongs to, with every operand at every value (30_encoding;
that no bit of an encoding is dropped). -/
def Obligations.DecodingInvertsEncoding : Prop := ∀ i : Instr, decodeAs i (encode i) = .ok i

/-- A few words of every family, written out from the encodings of the specification, decode to the instructions they stand for. -/
def Obligations.SampleWordsDecode : Prop := ∀ x ∈ sampleWords, decodeAs x.1 x.2 = .ok x.1

/-- A step of a thread runs the instruction that its fetch delivers, after which a trace interrupt may follow (only with SE or BE); a
step of an SPU runs the instruction at its address within the local-storage size, with SPU_Status[W] clear until it stalls, after which single-step mode may stop it; a step of
an MFC with one command to move runs that command. A fetch from main storage with nothing prefetched or caching-inhibited, and a
caching-inhibited one from a local storage, read the four bytes there, big-endian (20_memory R361, R380, 11_state_spe R152, 60_exceptions R1834, 49_spu_control_channel
R1550, R1556, 49_mfc_commands R1630; the schedule of moves is the model's, log 1, and so is the place of SPU_PrivCntl[S], bit 63,
log 8). The fetch from a local storage finds the inbound writes that are due there (20_memory R389). -/
def Obligations.StepRunsDecodedInstruction : Prop :=
  (∀ s rest (u : Fin 2) p s1 w i, s.stopped = none → s.schedule = .run (.ppe u) :: rest → ibit s.ppe.te u.val = true →
    s.threads[u].mcheck = none →
    let s0 : State := { s with schedule := rest, cur := .ppe u }
    s0.systemInterrupt u = none → translateFetch s0 u s0.threads[u].pc = .ok p s1 → fetchWord s1 p = .ok w s1 →
    decodePpe w = .ok i →
    step s = match Machine.exec i s1 with
      | .next t => .next (traceAfter s1 u w t)
      | o => o) ∧
  (∀ (s t : State) (u : Fin 2) w, ibit t.threads[u].msr 53 = false → ibit t.threads[u].msr 54 = false → traceAfter s u w t = t) ∧
  (∀ s p, region s p.ra = .dram → (s.ppe.icache = [] ∨ p.i = true) → fetchWord s p = .ok (BitVec.ofNat 32 (readBytes s.mem p.ra 4)) s) ∧
  (∀ s p n off, region s p.ra = .ls n off → p.i = true →
    fetchWord s p = .ok (BitVec.ofNat 32 (readBytes (s.meetAlias n).spes[n].ls off 4)) (s.meetAlias n) ∧
    ((∀ x ∈ s.spes[n].snoopQ, x.due = false) → s.meetAlias n = s)) ∧
  (∀ s rest (n : Fin 8) i, s.stopped = none → s.schedule = .run (.spu n) :: rest → s.spes[n].running = true →
    (s.spes[n].ie = false ∨ s.spes[n].cnt[0] = 0) → s.spes[n].ibuf = [] →
    decodeSpu (BitVec.ofNat 32 (readBytes s.spes[n].ls (s.spes[n].pc &&& s.spes[n].lslr).toNat 4)) = .ok i →
    step s = match Machine.exec i (({ s with schedule := rest, cur := .spu n } : State).modSpe fun p => p.waiting false) with
      | .next t => t.afterSpu
      | o => o) ∧
  (∀ t : State, ibit t.spe.privCntl 63 = false → t.afterSpu = .next t) ∧
  ∀ s rest (n : Fin 8) x c i, s.stopped = none → s.schedule = .run (.mfc n) :: rest → s.spes[n].mfcMoves = [.command x] →
    s.spes[n].resend = none → commandAt s.spes[n] x = some c → decodeMfc c.word = .ok i →
    step s = Machine.exec i { s with schedule := rest, cur := .mfc n, sel := x }

/-- Every step keeps main storage and the local storages in canonical form, so that equal memories are equal data. -/
def Obligations.StepsKeepMemoriesCanonical : Prop :=
  ∀ s t, memoriesCanonical s → step s = .next t → memoriesCanonical t

/-- Every step keeps the MSR of both threads legal: its reserved bits read 0, and problem state has external interrupts and both
relocations on (10_state R54, 44_ppe_system R923, R928, 60_exceptions R1805). -/
def Obligations.StepsKeepMsrLegal : Prop := ∀ s t, legalMsrs s → step s = .next t → legalMsrs t

/-- After reset: thread 0 runs in hypervisor state with SRR1[42:44] = '101' and the highest priority, thread 1 is suspended, HID0 and
HID1 are zero, the SLBs, TLBs and ERATs are empty, RMOR is 0, every external interrupt is masked, the SPEs are stopped with empty
queues and the counts of R161; the invariants of the machine hold (10_state R84, 11_state_spe R190, 12_state_platform R325; the empty
main storage, TSCR and the reset vector are the model's: logs 4, 2 and 3). -/
def Obligations.ResetState : Prop :=
  let s := State.reset
  let th := s.threads[(0 : Fin 2)]
  memoriesCanonical s ∧ legalMsrs s ∧ s.mem = [] ∧
  (∀ b ∈ [0, 3], ibit th.msr b = true) ∧ (∀ b ∈ [48, 49, 50, 52, 53, 54, 55, 58, 59, 62], ibit th.msr b = false) ∧
  ibm th.srr1 42 3 = 0b101#3 ∧ th.tsrlTp = 3 ∧ th.pc = s.cfg.sysresetVector &&& 0x3FFFFFFFFFC ∧ s.ppe.te = 0b10 ∧
  s.ppe.hid0 = 0 ∧ s.ppe.hid1 = 0 ∧ s.ppe.rmor = 0 ∧ s.ppe.tscr = 0 ∧ s.ppe.tlb = [] ∧
  (∀ u : Fin 2, s.threads[u].erat = [] ∧ s.threads[u].reserve = none ∧ s.plat.iic[u].cpl = 0 ∧
    ∀ k : Fin 64, s.threads[u].slb[k].v = false) ∧
  (∀ n : Fin 8, s.spes[n].running = false ∧ s.spes[n].status = 0 ∧ s.spes[n].spuQ = [] ∧ s.spes[n].pxQ = [] ∧
    s.spes[n].cnt[21] = 16 ∧ s.spes[n].cnt[29] = 0 ∧ s.spes[n].cnt[28] = 1 ∧ s.spes[n].lslr = 0x3FFFF ∧ s.spes[n].tlb = [] ∧
    ∀ k : Fin 8, s.spes[n].slb[k].v = false) ∧
  ibm (s.pcell offEibAc0Ctl) 13 3 = 0b110#3

/-- No instruction that begins and ends in problem state changes what only a supervisor or a hypervisor may change: of either thread the
MSR, the save pairs, the SPRGs, the decrementer, the per-thread bits of LPCR, the breakpoints and the SLB; of the shared registers
HDEC, SDR1, LPIDR, RMOR, HRMOR, LPCR, TSCR, TTR, the HIDs, CTRL and the TLB replacement table (44_ppe_system R920, 10_state R80). -/
def Obligations.ProblemStateKeepsPrivilegedState : Prop :=
  ∀ (i : Instr) s t, ibit s.thr.msr 49 = true → Machine.exec i s = .next t → ibit t.thr.msr 49 = true →
    (∀ u : Fin 2, supervisorView t.threads[u] = supervisorView s.threads[u]) ∧ hypervisorView t.ppe = hypervisorView s.ppe
end

