-- ==== Sys2Proof/Laws/Bits.lean ====
section
/-! SUPPORT. Reading bits and elements after they are written. -/

namespace Sys2Proof.Machine

/-! ## Bits -/

theorem getLsbD_setIbm {n len : Nat} (w : BitVec n) (first : Nat) (v : BitVec len) (i : Nat) :
    (setIbm w first v).getLsbD i =
      if n - first - len ≤ i ∧ i < n - first - len + len ∧ i < n then v.getLsbD (i - (n - first - len)) else w.getLsbD i := by
  unfold setIbm
  simp only [BitVec.getLsbD_or, BitVec.getLsbD_and, BitVec.getLsbD_not, BitVec.getLsbD_shiftLeft, BitVec.getLsbD_setWidth,
    BitVec.getLsbD_allOnes]
  by_cases hn : i < n
  · by_cases h1 : n - first - len ≤ i
    · by_cases h2 : i < n - first - len + len
      · rw [if_pos ⟨h1, h2, hn⟩]
        have h3 : i - (n - first - len) < len := by omega
        have h4 : i - (n - first - len) < n := by omega
        simp [hn, h3, h4, Nat.not_lt.mpr h1]
      · rw [if_neg (by omega)]
        have h3 : ¬ i - (n - first - len) < len := by omega
        simp [hn, h3, BitVec.getLsbD_of_ge v _ (Nat.not_lt.mp h3)]
    · rw [if_neg (by omega)]
      simp [hn, Nat.not_le.mp h1]
  · rw [if_neg (by omega)]
    simp [hn, BitVec.getLsbD_of_ge w i (Nat.not_lt.mp hn)]

/-- Bit `k` after bit `j` is written. -/
theorem ibit_setIbit {n : Nat} (w : BitVec n) (j k : Nat) (b : Bool) (hj : j < n) (hk : k < n) :
    ibit (setIbit w j b) k = if j = k then b else ibit w k := by
  unfold ibit setIbit
  rw [getLsbD_setIbm]
  by_cases h : j = k
  · subst h
    rw [if_pos (by omega), if_pos rfl]
    simp [Nat.sub_right_comm]
  · rw [if_neg (by omega), if_neg h]

/-- A write of a bit shows only under a mask that has it. -/
theorem setIbit_outside {n : Nat} (w m : BitVec n) (j : Nat) (b : Bool) (h : ibit m j = true) :
    setIbit w j b &&& ~~~m = w &&& ~~~m := by
  apply BitVec.eq_of_getLsbD_eq
  intro i hi
  simp only [BitVec.getLsbD_and, BitVec.getLsbD_not, setIbit, getLsbD_setIbm]
  split
  · next h' =>
    have : i = n - 1 - j := by omega
    subst this
    unfold ibit at h
    simp [h]
  · rfl

/-! ## Elements -/

theorem catEls_lt (len : Nat) (f : Nat → BitVec len) (k : Nat) : catEls len f k < 2^(len * k) := by
  induction k with
  | zero => simp [catEls]
  | succ k ih =>
    rw [catEls, Nat.mul_succ, Nat.pow_add]
    have := (f k).isLt
    nlinarith [Nat.two_pow_pos len]

theorem catEls_div (len : Nat) (f : Nat → BitVec len) (k i : Nat) (h : i < k) :
    catEls len f k / 2^(len * (k - 1 - i)) % 2^len = (f i).toNat := by
  induction k with
  | zero => omega
  | succ k ih =>
    rw [catEls]
    by_cases hi : i = k
    · subst hi
      simp [Nat.mod_eq_of_lt (f i).isLt]
    · rw [show k + 1 - 1 - i = (k - 1 - i) + 1 by omega, Nat.mul_succ, Nat.add_comm (len * (k - 1 - i)), Nat.pow_add,
        ← Nat.div_div_eq_div_mul]
      rw [show (catEls len f k * 2^len + (f k).toNat) / 2^len = catEls len f k by
        rw [Nat.add_comm, Nat.add_mul_div_right _ _ (Nat.two_pow_pos len), Nat.div_eq_of_lt (f k).isLt, Nat.zero_add]]
      exact ih (by omega)

/-- Element `i` of a quadword built of elements. -/
theorem el_buildEls (len cnt : Nat) (f : Nat → BitVec len) (i : Nat) (hc : len * cnt = 128) (hi : i < cnt) :
    el len (buildEls len cnt f) i = f i := by
  apply BitVec.eq_of_toNat_eq
  unfold el ibm buildEls
  have hlt : catEls len f cnt < 2^128 := hc ▸ catEls_lt len f cnt
  rw [BitVec.extractLsb'_toNat, BitVec.toNat_ofNat, Nat.mod_eq_of_lt hlt, Nat.shiftRight_eq_div_pow]
  rw [show 128 - len * i - len = len * (cnt - 1 - i) by
    rw [← hc, Nat.mul_sub, Nat.mul_sub, Nat.mul_one]
    omega]
  exact catEls_div len f cnt i hi

theorem el_mapEls (len cnt : Nat) (f : BitVec len → BitVec len) (a : QWord) (i : Nat) (hc : len * cnt = 128) (hi : i < cnt) :
    el len (mapEls len cnt f a) i = f (el len a i) := el_buildEls len cnt _ i hc hi

theorem el_zipEls (len cnt : Nat) (f : BitVec len → BitVec len → BitVec len) (a b : QWord) (i : Nat) (hc : len * cnt = 128)
    (hi : i < cnt) : el len (zipEls len cnt f a b) i = f (el len a i) (el len b i) := el_buildEls len cnt _ i hc hi

theorem el_zip3Els (len cnt : Nat) (f : BitVec len → BitVec len → BitVec len → BitVec len) (a b c : QWord) (i : Nat)
    (hc : len * cnt = 128) (hi : i < cnt) :
    el len (zip3Els len cnt f a b c) i = f (el len a i) (el len b i) (el len c i) := el_buildEls len cnt _ i hc hi

end Sys2Proof.Machine
end

