-- ==== Sys2Proof/Laws/State.lean ====
section
/-! SUPPORT. The small lemmas of the record updates: what each shared update does to each field. -/

namespace Sys2Proof.Machine

section
variable (th : Thread) (r : BitVec 5) (v : DWord)

@[simp] theorem Thread.setGpr_pc : (th.setGpr r v).pc = th.pc := by dsimp only [Thread.setGpr]
@[simp] theorem Thread.setGpr_fpr : (th.setGpr r v).fpr = th.fpr := by dsimp only [Thread.setGpr]
@[simp] theorem Thread.setGpr_vr : (th.setGpr r v).vr = th.vr := by dsimp only [Thread.setGpr]
@[simp] theorem Thread.setGpr_lr : (th.setGpr r v).lr = th.lr := by dsimp only [Thread.setGpr]
@[simp] theorem Thread.setGpr_ctr : (th.setGpr r v).ctr = th.ctr := by dsimp only [Thread.setGpr]
@[simp] theorem Thread.setGpr_xer : (th.setGpr r v).xer = th.xer := by dsimp only [Thread.setGpr]
@[simp] theorem Thread.setGpr_cr : (th.setGpr r v).cr = th.cr := by dsimp only [Thread.setGpr]
@[simp] theorem Thread.setGpr_fpscr : (th.setGpr r v).fpscr = th.fpscr := by dsimp only [Thread.setGpr]
@[simp] theorem Thread.setGpr_vscr : (th.setGpr r v).vscr = th.vscr := by dsimp only [Thread.setGpr]
@[simp] theorem Thread.setGpr_vrsave : (th.setGpr r v).vrsave = th.vrsave := by dsimp only [Thread.setGpr]
@[simp] theorem Thread.setGpr_reserve : (th.setGpr r v).reserve = th.reserve := by dsimp only [Thread.setGpr]
@[simp] theorem Thread.setGpr_msr : (th.setGpr r v).msr = th.msr := by dsimp only [Thread.setGpr]
@[simp] theorem Thread.setGpr_srr0 : (th.setGpr r v).srr0 = th.srr0 := by dsimp only [Thread.setGpr]
@[simp] theorem Thread.setGpr_srr1 : (th.setGpr r v).srr1 = th.srr1 := by dsimp only [Thread.setGpr]
@[simp] theorem Thread.setGpr_hsrr0 : (th.setGpr r v).hsrr0 = th.hsrr0 := by dsimp only [Thread.setGpr]
@[simp] theorem Thread.setGpr_hsrr1 : (th.setGpr r v).hsrr1 = th.hsrr1 := by dsimp only [Thread.setGpr]
@[simp] theorem Thread.setGpr_dsisr : (th.setGpr r v).dsisr = th.dsisr := by dsimp only [Thread.setGpr]
@[simp] theorem Thread.setGpr_dar : (th.setGpr r v).dar = th.dar := by dsimp only [Thread.setGpr]
@[simp] theorem Thread.setGpr_sprg0 : (th.setGpr r v).sprg0 = th.sprg0 := by dsimp only [Thread.setGpr]
@[simp] theorem Thread.setGpr_sprg1 : (th.setGpr r v).sprg1 = th.sprg1 := by dsimp only [Thread.setGpr]
@[simp] theorem Thread.setGpr_sprg2 : (th.setGpr r v).sprg2 = th.sprg2 := by dsimp only [Thread.setGpr]
@[simp] theorem Thread.setGpr_sprg3 : (th.setGpr r v).sprg3 = th.sprg3 := by dsimp only [Thread.setGpr]
@[simp] theorem Thread.setGpr_hsprg0 : (th.setGpr r v).hsprg0 = th.hsprg0 := by dsimp only [Thread.setGpr]
@[simp] theorem Thread.setGpr_hsprg1 : (th.setGpr r v).hsprg1 = th.hsprg1 := by dsimp only [Thread.setGpr]
@[simp] theorem Thread.setGpr_dec : (th.setGpr r v).dec = th.dec := by dsimp only [Thread.setGpr]
@[simp] theorem Thread.setGpr_lpcrMer : (th.setGpr r v).lpcrMer = th.lpcrMer := by dsimp only [Thread.setGpr]
@[simp] theorem Thread.setGpr_lpcrRmi : (th.setGpr r v).lpcrRmi = th.lpcrRmi := by dsimp only [Thread.setGpr]
@[simp] theorem Thread.setGpr_lpcrHdice : (th.setGpr r v).lpcrHdice = th.lpcrHdice := by dsimp only [Thread.setGpr]
@[simp] theorem Thread.setGpr_dabr : (th.setGpr r v).dabr = th.dabr := by dsimp only [Thread.setGpr]
@[simp] theorem Thread.setGpr_dabrx : (th.setGpr r v).dabrx = th.dabrx := by dsimp only [Thread.setGpr]
@[simp] theorem Thread.setGpr_accr : (th.setGpr r v).accr = th.accr := by dsimp only [Thread.setGpr]
@[simp] theorem Thread.setGpr_tsrlTp : (th.setGpr r v).tsrlTp = th.tsrlTp := by dsimp only [Thread.setGpr]
@[simp] theorem Thread.setGpr_tlbHint : (th.setGpr r v).tlbHint = th.tlbHint := by dsimp only [Thread.setGpr]
@[simp] theorem Thread.setGpr_ranges : (th.setGpr r v).ranges = th.ranges := by dsimp only [Thread.setGpr]
@[simp] theorem Thread.setGpr_slb : (th.setGpr r v).slb = th.slb := by dsimp only [Thread.setGpr]
@[simp] theorem Thread.setGpr_erat : (th.setGpr r v).erat = th.erat := by dsimp only [Thread.setGpr]
@[simp] theorem Thread.setGpr_resumeReq : (th.setGpr r v).resumeReq = th.resumeReq := by dsimp only [Thread.setGpr]
@[simp] theorem Thread.setGpr_sysErr : (th.setGpr r v).sysErr = th.sysErr := by dsimp only [Thread.setGpr]
@[simp] theorem Thread.setGpr_mcheck : (th.setGpr r v).mcheck = th.mcheck := by dsimp only [Thread.setGpr]
@[simp] theorem Thread.setGpr_maint : (th.setGpr r v).maint = th.maint := by dsimp only [Thread.setGpr]
@[simp] theorem Thread.setGpr_maintInstr : (th.setGpr r v).maintInstr = th.maintInstr := by dsimp only [Thread.setGpr]

end

section
variable (th : Thread) (r : BitVec 5) (v : DWord)

@[simp] theorem Thread.setFpr_pc : (th.setFpr r v).pc = th.pc := by dsimp only [Thread.setFpr]
@[simp] theorem Thread.setFpr_gpr : (th.setFpr r v).gpr = th.gpr := by dsimp only [Thread.setFpr]
@[simp] theorem Thread.setFpr_vr : (th.setFpr r v).vr = th.vr := by dsimp only [Thread.setFpr]
@[simp] theorem Thread.setFpr_lr : (th.setFpr r v).lr = th.lr := by dsimp only [Thread.setFpr]
@[simp] theorem Thread.setFpr_ctr : (th.setFpr r v).ctr = th.ctr := by dsimp only [Thread.setFpr]
@[simp] theorem Thread.setFpr_xer : (th.setFpr r v).xer = th.xer := by dsimp only [Thread.setFpr]
@[simp] theorem Thread.setFpr_cr : (th.setFpr r v).cr = th.cr := by dsimp only [Thread.setFpr]
@[simp] theorem Thread.setFpr_fpscr : (th.setFpr r v).fpscr = th.fpscr := by dsimp only [Thread.setFpr]
@[simp] theorem Thread.setFpr_vscr : (th.setFpr r v).vscr = th.vscr := by dsimp only [Thread.setFpr]
@[simp] theorem Thread.setFpr_vrsave : (th.setFpr r v).vrsave = th.vrsave := by dsimp only [Thread.setFpr]
@[simp] theorem Thread.setFpr_reserve : (th.setFpr r v).reserve = th.reserve := by dsimp only [Thread.setFpr]
@[simp] theorem Thread.setFpr_msr : (th.setFpr r v).msr = th.msr := by dsimp only [Thread.setFpr]
@[simp] theorem Thread.setFpr_srr0 : (th.setFpr r v).srr0 = th.srr0 := by dsimp only [Thread.setFpr]
@[simp] theorem Thread.setFpr_srr1 : (th.setFpr r v).srr1 = th.srr1 := by dsimp only [Thread.setFpr]
@[simp] theorem Thread.setFpr_hsrr0 : (th.setFpr r v).hsrr0 = th.hsrr0 := by dsimp only [Thread.setFpr]
@[simp] theorem Thread.setFpr_hsrr1 : (th.setFpr r v).hsrr1 = th.hsrr1 := by dsimp only [Thread.setFpr]
@[simp] theorem Thread.setFpr_dsisr : (th.setFpr r v).dsisr = th.dsisr := by dsimp only [Thread.setFpr]
@[simp] theorem Thread.setFpr_dar : (th.setFpr r v).dar = th.dar := by dsimp only [Thread.setFpr]
@[simp] theorem Thread.setFpr_sprg0 : (th.setFpr r v).sprg0 = th.sprg0 := by dsimp only [Thread.setFpr]
@[simp] theorem Thread.setFpr_sprg1 : (th.setFpr r v).sprg1 = th.sprg1 := by dsimp only [Thread.setFpr]
@[simp] theorem Thread.setFpr_sprg2 : (th.setFpr r v).sprg2 = th.sprg2 := by dsimp only [Thread.setFpr]
@[simp] theorem Thread.setFpr_sprg3 : (th.setFpr r v).sprg3 = th.sprg3 := by dsimp only [Thread.setFpr]
@[simp] theorem Thread.setFpr_hsprg0 : (th.setFpr r v).hsprg0 = th.hsprg0 := by dsimp only [Thread.setFpr]
@[simp] theorem Thread.setFpr_hsprg1 : (th.setFpr r v).hsprg1 = th.hsprg1 := by dsimp only [Thread.setFpr]
@[simp] theorem Thread.setFpr_dec : (th.setFpr r v).dec = th.dec := by dsimp only [Thread.setFpr]
@[simp] theorem Thread.setFpr_lpcrMer : (th.setFpr r v).lpcrMer = th.lpcrMer := by dsimp only [Thread.setFpr]
@[simp] theorem Thread.setFpr_lpcrRmi : (th.setFpr r v).lpcrRmi = th.lpcrRmi := by dsimp only [Thread.setFpr]
@[simp] theorem Thread.setFpr_lpcrHdice : (th.setFpr r v).lpcrHdice = th.lpcrHdice := by dsimp only [Thread.setFpr]
@[simp] theorem Thread.setFpr_dabr : (th.setFpr r v).dabr = th.dabr := by dsimp only [Thread.setFpr]
@[simp] theorem Thread.setFpr_dabrx : (th.setFpr r v).dabrx = th.dabrx := by dsimp only [Thread.setFpr]
@[simp] theorem Thread.setFpr_accr : (th.setFpr r v).accr = th.accr := by dsimp only [Thread.setFpr]
@[simp] theorem Thread.setFpr_tsrlTp : (th.setFpr r v).tsrlTp = th.tsrlTp := by dsimp only [Thread.setFpr]
@[simp] theorem Thread.setFpr_tlbHint : (th.setFpr r v).tlbHint = th.tlbHint := by dsimp only [Thread.setFpr]
@[simp] theorem Thread.setFpr_ranges : (th.setFpr r v).ranges = th.ranges := by dsimp only [Thread.setFpr]
@[simp] theorem Thread.setFpr_slb : (th.setFpr r v).slb = th.slb := by dsimp only [Thread.setFpr]
@[simp] theorem Thread.setFpr_erat : (th.setFpr r v).erat = th.erat := by dsimp only [Thread.setFpr]
@[simp] theorem Thread.setFpr_resumeReq : (th.setFpr r v).resumeReq = th.resumeReq := by dsimp only [Thread.setFpr]
@[simp] theorem Thread.setFpr_sysErr : (th.setFpr r v).sysErr = th.sysErr := by dsimp only [Thread.setFpr]
@[simp] theorem Thread.setFpr_mcheck : (th.setFpr r v).mcheck = th.mcheck := by dsimp only [Thread.setFpr]
@[simp] theorem Thread.setFpr_maint : (th.setFpr r v).maint = th.maint := by dsimp only [Thread.setFpr]
@[simp] theorem Thread.setFpr_maintInstr : (th.setFpr r v).maintInstr = th.maintInstr := by dsimp only [Thread.setFpr]

end

section
variable (th : Thread) (r : BitVec 5) (v : QWord)

@[simp] theorem Thread.setVr_pc : (th.setVr r v).pc = th.pc := by dsimp only [Thread.setVr]
@[simp] theorem Thread.setVr_gpr : (th.setVr r v).gpr = th.gpr := by dsimp only [Thread.setVr]
@[simp] theorem Thread.setVr_fpr : (th.setVr r v).fpr = th.fpr := by dsimp only [Thread.setVr]
@[simp] theorem Thread.setVr_lr : (th.setVr r v).lr = th.lr := by dsimp only [Thread.setVr]
@[simp] theorem Thread.setVr_ctr : (th.setVr r v).ctr = th.ctr := by dsimp only [Thread.setVr]
@[simp] theorem Thread.setVr_xer : (th.setVr r v).xer = th.xer := by dsimp only [Thread.setVr]
@[simp] theorem Thread.setVr_cr : (th.setVr r v).cr = th.cr := by dsimp only [Thread.setVr]
@[simp] theorem Thread.setVr_fpscr : (th.setVr r v).fpscr = th.fpscr := by dsimp only [Thread.setVr]
@[simp] theorem Thread.setVr_vscr : (th.setVr r v).vscr = th.vscr := by dsimp only [Thread.setVr]
@[simp] theorem Thread.setVr_vrsave : (th.setVr r v).vrsave = th.vrsave := by dsimp only [Thread.setVr]
@[simp] theorem Thread.setVr_reserve : (th.setVr r v).reserve = th.reserve := by dsimp only [Thread.setVr]
@[simp] theorem Thread.setVr_msr : (th.setVr r v).msr = th.msr := by dsimp only [Thread.setVr]
@[simp] theorem Thread.setVr_srr0 : (th.setVr r v).srr0 = th.srr0 := by dsimp only [Thread.setVr]
@[simp] theorem Thread.setVr_srr1 : (th.setVr r v).srr1 = th.srr1 := by dsimp only [Thread.setVr]
@[simp] theorem Thread.setVr_hsrr0 : (th.setVr r v).hsrr0 = th.hsrr0 := by dsimp only [Thread.setVr]
@[simp] theorem Thread.setVr_hsrr1 : (th.setVr r v).hsrr1 = th.hsrr1 := by dsimp only [Thread.setVr]
@[simp] theorem Thread.setVr_dsisr : (th.setVr r v).dsisr = th.dsisr := by dsimp only [Thread.setVr]
@[simp] theorem Thread.setVr_dar : (th.setVr r v).dar = th.dar := by dsimp only [Thread.setVr]
@[simp] theorem Thread.setVr_sprg0 : (th.setVr r v).sprg0 = th.sprg0 := by dsimp only [Thread.setVr]
@[simp] theorem Thread.setVr_sprg1 : (th.setVr r v).sprg1 = th.sprg1 := by dsimp only [Thread.setVr]
@[simp] theorem Thread.setVr_sprg2 : (th.setVr r v).sprg2 = th.sprg2 := by dsimp only [Thread.setVr]
@[simp] theorem Thread.setVr_sprg3 : (th.setVr r v).sprg3 = th.sprg3 := by dsimp only [Thread.setVr]
@[simp] theorem Thread.setVr_hsprg0 : (th.setVr r v).hsprg0 = th.hsprg0 := by dsimp only [Thread.setVr]
@[simp] theorem Thread.setVr_hsprg1 : (th.setVr r v).hsprg1 = th.hsprg1 := by dsimp only [Thread.setVr]
@[simp] theorem Thread.setVr_dec : (th.setVr r v).dec = th.dec := by dsimp only [Thread.setVr]
@[simp] theorem Thread.setVr_lpcrMer : (th.setVr r v).lpcrMer = th.lpcrMer := by dsimp only [Thread.setVr]
@[simp] theorem Thread.setVr_lpcrRmi : (th.setVr r v).lpcrRmi = th.lpcrRmi := by dsimp only [Thread.setVr]
@[simp] theorem Thread.setVr_lpcrHdice : (th.setVr r v).lpcrHdice = th.lpcrHdice := by dsimp only [Thread.setVr]
@[simp] theorem Thread.setVr_dabr : (th.setVr r v).dabr = th.dabr := by dsimp only [Thread.setVr]
@[simp] theorem Thread.setVr_dabrx : (th.setVr r v).dabrx = th.dabrx := by dsimp only [Thread.setVr]
@[simp] theorem Thread.setVr_accr : (th.setVr r v).accr = th.accr := by dsimp only [Thread.setVr]
@[simp] theorem Thread.setVr_tsrlTp : (th.setVr r v).tsrlTp = th.tsrlTp := by dsimp only [Thread.setVr]
@[simp] theorem Thread.setVr_tlbHint : (th.setVr r v).tlbHint = th.tlbHint := by dsimp only [Thread.setVr]
@[simp] theorem Thread.setVr_ranges : (th.setVr r v).ranges = th.ranges := by dsimp only [Thread.setVr]
@[simp] theorem Thread.setVr_slb : (th.setVr r v).slb = th.slb := by dsimp only [Thread.setVr]
@[simp] theorem Thread.setVr_erat : (th.setVr r v).erat = th.erat := by dsimp only [Thread.setVr]
@[simp] theorem Thread.setVr_resumeReq : (th.setVr r v).resumeReq = th.resumeReq := by dsimp only [Thread.setVr]
@[simp] theorem Thread.setVr_sysErr : (th.setVr r v).sysErr = th.sysErr := by dsimp only [Thread.setVr]
@[simp] theorem Thread.setVr_mcheck : (th.setVr r v).mcheck = th.mcheck := by dsimp only [Thread.setVr]
@[simp] theorem Thread.setVr_maint : (th.setVr r v).maint = th.maint := by dsimp only [Thread.setVr]
@[simp] theorem Thread.setVr_maintInstr : (th.setVr r v).maintInstr = th.maintInstr := by dsimp only [Thread.setVr]

end

section
variable (th : Thread) (c : Bool)

@[simp] theorem Thread.setCa_pc : (th.setCa c).pc = th.pc := by dsimp only [Thread.setCa]
@[simp] theorem Thread.setCa_gpr : (th.setCa c).gpr = th.gpr := by dsimp only [Thread.setCa]
@[simp] theorem Thread.setCa_fpr : (th.setCa c).fpr = th.fpr := by dsimp only [Thread.setCa]
@[simp] theorem Thread.setCa_vr : (th.setCa c).vr = th.vr := by dsimp only [Thread.setCa]
@[simp] theorem Thread.setCa_lr : (th.setCa c).lr = th.lr := by dsimp only [Thread.setCa]
@[simp] theorem Thread.setCa_ctr : (th.setCa c).ctr = th.ctr := by dsimp only [Thread.setCa]
@[simp] theorem Thread.setCa_cr : (th.setCa c).cr = th.cr := by dsimp only [Thread.setCa]
@[simp] theorem Thread.setCa_fpscr : (th.setCa c).fpscr = th.fpscr := by dsimp only [Thread.setCa]
@[simp] theorem Thread.setCa_vscr : (th.setCa c).vscr = th.vscr := by dsimp only [Thread.setCa]
@[simp] theorem Thread.setCa_vrsave : (th.setCa c).vrsave = th.vrsave := by dsimp only [Thread.setCa]
@[simp] theorem Thread.setCa_reserve : (th.setCa c).reserve = th.reserve := by dsimp only [Thread.setCa]
@[simp] theorem Thread.setCa_msr : (th.setCa c).msr = th.msr := by dsimp only [Thread.setCa]
@[simp] theorem Thread.setCa_srr0 : (th.setCa c).srr0 = th.srr0 := by dsimp only [Thread.setCa]
@[simp] theorem Thread.setCa_srr1 : (th.setCa c).srr1 = th.srr1 := by dsimp only [Thread.setCa]
@[simp] theorem Thread.setCa_hsrr0 : (th.setCa c).hsrr0 = th.hsrr0 := by dsimp only [Thread.setCa]
@[simp] theorem Thread.setCa_hsrr1 : (th.setCa c).hsrr1 = th.hsrr1 := by dsimp only [Thread.setCa]
@[simp] theorem Thread.setCa_dsisr : (th.setCa c).dsisr = th.dsisr := by dsimp only [Thread.setCa]
@[simp] theorem Thread.setCa_dar : (th.setCa c).dar = th.dar := by dsimp only [Thread.setCa]
@[simp] theorem Thread.setCa_sprg0 : (th.setCa c).sprg0 = th.sprg0 := by dsimp only [Thread.setCa]
@[simp] theorem Thread.setCa_sprg1 : (th.setCa c).sprg1 = th.sprg1 := by dsimp only [Thread.setCa]
@[simp] theorem Thread.setCa_sprg2 : (th.setCa c).sprg2 = th.sprg2 := by dsimp only [Thread.setCa]
@[simp] theorem Thread.setCa_sprg3 : (th.setCa c).sprg3 = th.sprg3 := by dsimp only [Thread.setCa]
@[simp] theorem Thread.setCa_hsprg0 : (th.setCa c).hsprg0 = th.hsprg0 := by dsimp only [Thread.setCa]
@[simp] theorem Thread.setCa_hsprg1 : (th.setCa c).hsprg1 = th.hsprg1 := by dsimp only [Thread.setCa]
@[simp] theorem Thread.setCa_dec : (th.setCa c).dec = th.dec := by dsimp only [Thread.setCa]
@[simp] theorem Thread.setCa_lpcrMer : (th.setCa c).lpcrMer = th.lpcrMer := by dsimp only [Thread.setCa]
@[simp] theorem Thread.setCa_lpcrRmi : (th.setCa c).lpcrRmi = th.lpcrRmi := by dsimp only [Thread.setCa]
@[simp] theorem Thread.setCa_lpcrHdice : (th.setCa c).lpcrHdice = th.lpcrHdice := by dsimp only [Thread.setCa]
@[simp] theorem Thread.setCa_dabr : (th.setCa c).dabr = th.dabr := by dsimp only [Thread.setCa]
@[simp] theorem Thread.setCa_dabrx : (th.setCa c).dabrx = th.dabrx := by dsimp only [Thread.setCa]
@[simp] theorem Thread.setCa_accr : (th.setCa c).accr = th.accr := by dsimp only [Thread.setCa]
@[simp] theorem Thread.setCa_tsrlTp : (th.setCa c).tsrlTp = th.tsrlTp := by dsimp only [Thread.setCa]
@[simp] theorem Thread.setCa_tlbHint : (th.setCa c).tlbHint = th.tlbHint := by dsimp only [Thread.setCa]
@[simp] theorem Thread.setCa_ranges : (th.setCa c).ranges = th.ranges := by dsimp only [Thread.setCa]
@[simp] theorem Thread.setCa_slb : (th.setCa c).slb = th.slb := by dsimp only [Thread.setCa]
@[simp] theorem Thread.setCa_erat : (th.setCa c).erat = th.erat := by dsimp only [Thread.setCa]
@[simp] theorem Thread.setCa_resumeReq : (th.setCa c).resumeReq = th.resumeReq := by dsimp only [Thread.setCa]
@[simp] theorem Thread.setCa_sysErr : (th.setCa c).sysErr = th.sysErr := by dsimp only [Thread.setCa]
@[simp] theorem Thread.setCa_mcheck : (th.setCa c).mcheck = th.mcheck := by dsimp only [Thread.setCa]
@[simp] theorem Thread.setCa_maint : (th.setCa c).maint = th.maint := by dsimp only [Thread.setCa]
@[simp] theorem Thread.setCa_maintInstr : (th.setCa c).maintInstr = th.maintInstr := by dsimp only [Thread.setCa]

end

section
variable (th : Thread) (o : Bool)

@[simp] theorem Thread.setOv_pc : (th.setOv o).pc = th.pc := by dsimp only [Thread.setOv]
@[simp] theorem Thread.setOv_gpr : (th.setOv o).gpr = th.gpr := by dsimp only [Thread.setOv]
@[simp] theorem Thread.setOv_fpr : (th.setOv o).fpr = th.fpr := by dsimp only [Thread.setOv]
@[simp] theorem Thread.setOv_vr : (th.setOv o).vr = th.vr := by dsimp only [Thread.setOv]
@[simp] theorem Thread.setOv_lr : (th.setOv o).lr = th.lr := by dsimp only [Thread.setOv]
@[simp] theorem Thread.setOv_ctr : (th.setOv o).ctr = th.ctr := by dsimp only [Thread.setOv]
@[simp] theorem Thread.setOv_cr : (th.setOv o).cr = th.cr := by dsimp only [Thread.setOv]
@[simp] theorem Thread.setOv_fpscr : (th.setOv o).fpscr = th.fpscr := by dsimp only [Thread.setOv]
@[simp] theorem Thread.setOv_vscr : (th.setOv o).vscr = th.vscr := by dsimp only [Thread.setOv]
@[simp] theorem Thread.setOv_vrsave : (th.setOv o).vrsave = th.vrsave := by dsimp only [Thread.setOv]
@[simp] theorem Thread.setOv_reserve : (th.setOv o).reserve = th.reserve := by dsimp only [Thread.setOv]
@[simp] theorem Thread.setOv_msr : (th.setOv o).msr = th.msr := by dsimp only [Thread.setOv]
@[simp] theorem Thread.setOv_srr0 : (th.setOv o).srr0 = th.srr0 := by dsimp only [Thread.setOv]
@[simp] theorem Thread.setOv_srr1 : (th.setOv o).srr1 = th.srr1 := by dsimp only [Thread.setOv]
@[simp] theorem Thread.setOv_hsrr0 : (th.setOv o).hsrr0 = th.hsrr0 := by dsimp only [Thread.setOv]
@[simp] theorem Thread.setOv_hsrr1 : (th.setOv o).hsrr1 = th.hsrr1 := by dsimp only [Thread.setOv]
@[simp] theorem Thread.setOv_dsisr : (th.setOv o).dsisr = th.dsisr := by dsimp only [Thread.setOv]
@[simp] theorem Thread.setOv_dar : (th.setOv o).dar = th.dar := by dsimp only [Thread.setOv]
@[simp] theorem Thread.setOv_sprg0 : (th.setOv o).sprg0 = th.sprg0 := by dsimp only [Thread.setOv]
@[simp] theorem Thread.setOv_sprg1 : (th.setOv o).sprg1 = th.sprg1 := by dsimp only [Thread.setOv]
@[simp] theorem Thread.setOv_sprg2 : (th.setOv o).sprg2 = th.sprg2 := by dsimp only [Thread.setOv]
@[simp] theorem Thread.setOv_sprg3 : (th.setOv o).sprg3 = th.sprg3 := by dsimp only [Thread.setOv]
@[simp] theorem Thread.setOv_hsprg0 : (th.setOv o).hsprg0 = th.hsprg0 := by dsimp only [Thread.setOv]
@[simp] theorem Thread.setOv_hsprg1 : (th.setOv o).hsprg1 = th.hsprg1 := by dsimp only [Thread.setOv]
@[simp] theorem Thread.setOv_dec : (th.setOv o).dec = th.dec := by dsimp only [Thread.setOv]
@[simp] theorem Thread.setOv_lpcrMer : (th.setOv o).lpcrMer = th.lpcrMer := by dsimp only [Thread.setOv]
@[simp] theorem Thread.setOv_lpcrRmi : (th.setOv o).lpcrRmi = th.lpcrRmi := by dsimp only [Thread.setOv]
@[simp] theorem Thread.setOv_lpcrHdice : (th.setOv o).lpcrHdice = th.lpcrHdice := by dsimp only [Thread.setOv]
@[simp] theorem Thread.setOv_dabr : (th.setOv o).dabr = th.dabr := by dsimp only [Thread.setOv]
@[simp] theorem Thread.setOv_dabrx : (th.setOv o).dabrx = th.dabrx := by dsimp only [Thread.setOv]
@[simp] theorem Thread.setOv_accr : (th.setOv o).accr = th.accr := by dsimp only [Thread.setOv]
@[simp] theorem Thread.setOv_tsrlTp : (th.setOv o).tsrlTp = th.tsrlTp := by dsimp only [Thread.setOv]
@[simp] theorem Thread.setOv_tlbHint : (th.setOv o).tlbHint = th.tlbHint := by dsimp only [Thread.setOv]
@[simp] theorem Thread.setOv_ranges : (th.setOv o).ranges = th.ranges := by dsimp only [Thread.setOv]
@[simp] theorem Thread.setOv_slb : (th.setOv o).slb = th.slb := by dsimp only [Thread.setOv]
@[simp] theorem Thread.setOv_erat : (th.setOv o).erat = th.erat := by dsimp only [Thread.setOv]
@[simp] theorem Thread.setOv_resumeReq : (th.setOv o).resumeReq = th.resumeReq := by dsimp only [Thread.setOv]
@[simp] theorem Thread.setOv_sysErr : (th.setOv o).sysErr = th.sysErr := by dsimp only [Thread.setOv]
@[simp] theorem Thread.setOv_mcheck : (th.setOv o).mcheck = th.mcheck := by dsimp only [Thread.setOv]
@[simp] theorem Thread.setOv_maint : (th.setOv o).maint = th.maint := by dsimp only [Thread.setOv]
@[simp] theorem Thread.setOv_maintInstr : (th.setOv o).maintInstr = th.maintInstr := by dsimp only [Thread.setOv]

end

section
variable (th : Thread) (k : BitVec 3) (v : BitVec 4)

@[simp] theorem Thread.setCrField_pc : (th.setCrField k v).pc = th.pc := by dsimp only [Thread.setCrField]
@[simp] theorem Thread.setCrField_gpr : (th.setCrField k v).gpr = th.gpr := by dsimp only [Thread.setCrField]
@[simp] theorem Thread.setCrField_fpr : (th.setCrField k v).fpr = th.fpr := by dsimp only [Thread.setCrField]
@[simp] theorem Thread.setCrField_vr : (th.setCrField k v).vr = th.vr := by dsimp only [Thread.setCrField]
@[simp] theorem Thread.setCrField_lr : (th.setCrField k v).lr = th.lr := by dsimp only [Thread.setCrField]
@[simp] theorem Thread.setCrField_ctr : (th.setCrField k v).ctr = th.ctr := by dsimp only [Thread.setCrField]
@[simp] theorem Thread.setCrField_xer : (th.setCrField k v).xer = th.xer := by dsimp only [Thread.setCrField]
@[simp] theorem Thread.setCrField_fpscr : (th.setCrField k v).fpscr = th.fpscr := by dsimp only [Thread.setCrField]
@[simp] theorem Thread.setCrField_vscr : (th.setCrField k v).vscr = th.vscr := by dsimp only [Thread.setCrField]
@[simp] theorem Thread.setCrField_vrsave : (th.setCrField k v).vrsave = th.vrsave := by dsimp only [Thread.setCrField]
@[simp] theorem Thread.setCrField_reserve : (th.setCrField k v).reserve = th.reserve := by dsimp only [Thread.setCrField]
@[simp] theorem Thread.setCrField_msr : (th.setCrField k v).msr = th.msr := by dsimp only [Thread.setCrField]
@[simp] theorem Thread.setCrField_srr0 : (th.setCrField k v).srr0 = th.srr0 := by dsimp only [Thread.setCrField]
@[simp] theorem Thread.setCrField_srr1 : (th.setCrField k v).srr1 = th.srr1 := by dsimp only [Thread.setCrField]
@[simp] theorem Thread.setCrField_hsrr0 : (th.setCrField k v).hsrr0 = th.hsrr0 := by dsimp only [Thread.setCrField]
@[simp] theorem Thread.setCrField_hsrr1 : (th.setCrField k v).hsrr1 = th.hsrr1 := by dsimp only [Thread.setCrField]
@[simp] theorem Thread.setCrField_dsisr : (th.setCrField k v).dsisr = th.dsisr := by dsimp only [Thread.setCrField]
@[simp] theorem Thread.setCrField_dar : (th.setCrField k v).dar = th.dar := by dsimp only [Thread.setCrField]
@[simp] theorem Thread.setCrField_sprg0 : (th.setCrField k v).sprg0 = th.sprg0 := by dsimp only [Thread.setCrField]
@[simp] theorem Thread.setCrField_sprg1 : (th.setCrField k v).sprg1 = th.sprg1 := by dsimp only [Thread.setCrField]
@[simp] theorem Thread.setCrField_sprg2 : (th.setCrField k v).sprg2 = th.sprg2 := by dsimp only [Thread.setCrField]
@[simp] theorem Thread.setCrField_sprg3 : (th.setCrField k v).sprg3 = th.sprg3 := by dsimp only [Thread.setCrField]
@[simp] theorem Thread.setCrField_hsprg0 : (th.setCrField k v).hsprg0 = th.hsprg0 := by dsimp only [Thread.setCrField]
@[simp] theorem Thread.setCrField_hsprg1 : (th.setCrField k v).hsprg1 = th.hsprg1 := by dsimp only [Thread.setCrField]
@[simp] theorem Thread.setCrField_dec : (th.setCrField k v).dec = th.dec := by dsimp only [Thread.setCrField]
@[simp] theorem Thread.setCrField_lpcrMer : (th.setCrField k v).lpcrMer = th.lpcrMer := by dsimp only [Thread.setCrField]
@[simp] theorem Thread.setCrField_lpcrRmi : (th.setCrField k v).lpcrRmi = th.lpcrRmi := by dsimp only [Thread.setCrField]
@[simp] theorem Thread.setCrField_lpcrHdice : (th.setCrField k v).lpcrHdice = th.lpcrHdice := by dsimp only [Thread.setCrField]
@[simp] theorem Thread.setCrField_dabr : (th.setCrField k v).dabr = th.dabr := by dsimp only [Thread.setCrField]
@[simp] theorem Thread.setCrField_dabrx : (th.setCrField k v).dabrx = th.dabrx := by dsimp only [Thread.setCrField]
@[simp] theorem Thread.setCrField_accr : (th.setCrField k v).accr = th.accr := by dsimp only [Thread.setCrField]
@[simp] theorem Thread.setCrField_tsrlTp : (th.setCrField k v).tsrlTp = th.tsrlTp := by dsimp only [Thread.setCrField]
@[simp] theorem Thread.setCrField_tlbHint : (th.setCrField k v).tlbHint = th.tlbHint := by dsimp only [Thread.setCrField]
@[simp] theorem Thread.setCrField_ranges : (th.setCrField k v).ranges = th.ranges := by dsimp only [Thread.setCrField]
@[simp] theorem Thread.setCrField_slb : (th.setCrField k v).slb = th.slb := by dsimp only [Thread.setCrField]
@[simp] theorem Thread.setCrField_erat : (th.setCrField k v).erat = th.erat := by dsimp only [Thread.setCrField]
@[simp] theorem Thread.setCrField_resumeReq : (th.setCrField k v).resumeReq = th.resumeReq := by dsimp only [Thread.setCrField]
@[simp] theorem Thread.setCrField_sysErr : (th.setCrField k v).sysErr = th.sysErr := by dsimp only [Thread.setCrField]
@[simp] theorem Thread.setCrField_mcheck : (th.setCrField k v).mcheck = th.mcheck := by dsimp only [Thread.setCrField]
@[simp] theorem Thread.setCrField_maint : (th.setCrField k v).maint = th.maint := by dsimp only [Thread.setCrField]
@[simp] theorem Thread.setCrField_maintInstr : (th.setCrField k v).maintInstr = th.maintInstr := by dsimp only [Thread.setCrField]

end

section
variable (th : Thread) (k : BitVec 5) (b : Bool)

@[simp] theorem Thread.setCrBit_pc : (th.setCrBit k b).pc = th.pc := by dsimp only [Thread.setCrBit]
@[simp] theorem Thread.setCrBit_gpr : (th.setCrBit k b).gpr = th.gpr := by dsimp only [Thread.setCrBit]
@[simp] theorem Thread.setCrBit_fpr : (th.setCrBit k b).fpr = th.fpr := by dsimp only [Thread.setCrBit]
@[simp] theorem Thread.setCrBit_vr : (th.setCrBit k b).vr = th.vr := by dsimp only [Thread.setCrBit]
@[simp] theorem Thread.setCrBit_lr : (th.setCrBit k b).lr = th.lr := by dsimp only [Thread.setCrBit]
@[simp] theorem Thread.setCrBit_ctr : (th.setCrBit k b).ctr = th.ctr := by dsimp only [Thread.setCrBit]
@[simp] theorem Thread.setCrBit_xer : (th.setCrBit k b).xer = th.xer := by dsimp only [Thread.setCrBit]
@[simp] theorem Thread.setCrBit_fpscr : (th.setCrBit k b).fpscr = th.fpscr := by dsimp only [Thread.setCrBit]
@[simp] theorem Thread.setCrBit_vscr : (th.setCrBit k b).vscr = th.vscr := by dsimp only [Thread.setCrBit]
@[simp] theorem Thread.setCrBit_vrsave : (th.setCrBit k b).vrsave = th.vrsave := by dsimp only [Thread.setCrBit]
@[simp] theorem Thread.setCrBit_reserve : (th.setCrBit k b).reserve = th.reserve := by dsimp only [Thread.setCrBit]
@[simp] theorem Thread.setCrBit_msr : (th.setCrBit k b).msr = th.msr := by dsimp only [Thread.setCrBit]
@[simp] theorem Thread.setCrBit_srr0 : (th.setCrBit k b).srr0 = th.srr0 := by dsimp only [Thread.setCrBit]
@[simp] theorem Thread.setCrBit_srr1 : (th.setCrBit k b).srr1 = th.srr1 := by dsimp only [Thread.setCrBit]
@[simp] theorem Thread.setCrBit_hsrr0 : (th.setCrBit k b).hsrr0 = th.hsrr0 := by dsimp only [Thread.setCrBit]
@[simp] theorem Thread.setCrBit_hsrr1 : (th.setCrBit k b).hsrr1 = th.hsrr1 := by dsimp only [Thread.setCrBit]
@[simp] theorem Thread.setCrBit_dsisr : (th.setCrBit k b).dsisr = th.dsisr := by dsimp only [Thread.setCrBit]
@[simp] theorem Thread.setCrBit_dar : (th.setCrBit k b).dar = th.dar := by dsimp only [Thread.setCrBit]
@[simp] theorem Thread.setCrBit_sprg0 : (th.setCrBit k b).sprg0 = th.sprg0 := by dsimp only [Thread.setCrBit]
@[simp] theorem Thread.setCrBit_sprg1 : (th.setCrBit k b).sprg1 = th.sprg1 := by dsimp only [Thread.setCrBit]
@[simp] theorem Thread.setCrBit_sprg2 : (th.setCrBit k b).sprg2 = th.sprg2 := by dsimp only [Thread.setCrBit]
@[simp] theorem Thread.setCrBit_sprg3 : (th.setCrBit k b).sprg3 = th.sprg3 := by dsimp only [Thread.setCrBit]
@[simp] theorem Thread.setCrBit_hsprg0 : (th.setCrBit k b).hsprg0 = th.hsprg0 := by dsimp only [Thread.setCrBit]
@[simp] theorem Thread.setCrBit_hsprg1 : (th.setCrBit k b).hsprg1 = th.hsprg1 := by dsimp only [Thread.setCrBit]
@[simp] theorem Thread.setCrBit_dec : (th.setCrBit k b).dec = th.dec := by dsimp only [Thread.setCrBit]
@[simp] theorem Thread.setCrBit_lpcrMer : (th.setCrBit k b).lpcrMer = th.lpcrMer := by dsimp only [Thread.setCrBit]
@[simp] theorem Thread.setCrBit_lpcrRmi : (th.setCrBit k b).lpcrRmi = th.lpcrRmi := by dsimp only [Thread.setCrBit]
@[simp] theorem Thread.setCrBit_lpcrHdice : (th.setCrBit k b).lpcrHdice = th.lpcrHdice := by dsimp only [Thread.setCrBit]
@[simp] theorem Thread.setCrBit_dabr : (th.setCrBit k b).dabr = th.dabr := by dsimp only [Thread.setCrBit]
@[simp] theorem Thread.setCrBit_dabrx : (th.setCrBit k b).dabrx = th.dabrx := by dsimp only [Thread.setCrBit]
@[simp] theorem Thread.setCrBit_accr : (th.setCrBit k b).accr = th.accr := by dsimp only [Thread.setCrBit]
@[simp] theorem Thread.setCrBit_tsrlTp : (th.setCrBit k b).tsrlTp = th.tsrlTp := by dsimp only [Thread.setCrBit]
@[simp] theorem Thread.setCrBit_tlbHint : (th.setCrBit k b).tlbHint = th.tlbHint := by dsimp only [Thread.setCrBit]
@[simp] theorem Thread.setCrBit_ranges : (th.setCrBit k b).ranges = th.ranges := by dsimp only [Thread.setCrBit]
@[simp] theorem Thread.setCrBit_slb : (th.setCrBit k b).slb = th.slb := by dsimp only [Thread.setCrBit]
@[simp] theorem Thread.setCrBit_erat : (th.setCrBit k b).erat = th.erat := by dsimp only [Thread.setCrBit]
@[simp] theorem Thread.setCrBit_resumeReq : (th.setCrBit k b).resumeReq = th.resumeReq := by dsimp only [Thread.setCrBit]
@[simp] theorem Thread.setCrBit_sysErr : (th.setCrBit k b).sysErr = th.sysErr := by dsimp only [Thread.setCrBit]
@[simp] theorem Thread.setCrBit_mcheck : (th.setCrBit k b).mcheck = th.mcheck := by dsimp only [Thread.setCrBit]
@[simp] theorem Thread.setCrBit_maint : (th.setCrBit k b).maint = th.maint := by dsimp only [Thread.setCrBit]
@[simp] theorem Thread.setCrBit_maintInstr : (th.setCrBit k b).maintInstr = th.maintInstr := by dsimp only [Thread.setCrBit]

end

section
variable (th : Thread)

@[simp] theorem Thread.advance_gpr : (th.advance).gpr = th.gpr := by dsimp only [Thread.advance]
@[simp] theorem Thread.advance_fpr : (th.advance).fpr = th.fpr := by dsimp only [Thread.advance]
@[simp] theorem Thread.advance_vr : (th.advance).vr = th.vr := by dsimp only [Thread.advance]
@[simp] theorem Thread.advance_lr : (th.advance).lr = th.lr := by dsimp only [Thread.advance]
@[simp] theorem Thread.advance_ctr : (th.advance).ctr = th.ctr := by dsimp only [Thread.advance]
@[simp] theorem Thread.advance_xer : (th.advance).xer = th.xer := by dsimp only [Thread.advance]
@[simp] theorem Thread.advance_cr : (th.advance).cr = th.cr := by dsimp only [Thread.advance]
@[simp] theorem Thread.advance_fpscr : (th.advance).fpscr = th.fpscr := by dsimp only [Thread.advance]
@[simp] theorem Thread.advance_vscr : (th.advance).vscr = th.vscr := by dsimp only [Thread.advance]
@[simp] theorem Thread.advance_vrsave : (th.advance).vrsave = th.vrsave := by dsimp only [Thread.advance]
@[simp] theorem Thread.advance_reserve : (th.advance).reserve = th.reserve := by dsimp only [Thread.advance]
@[simp] theorem Thread.advance_msr : (th.advance).msr = th.msr := by dsimp only [Thread.advance]
@[simp] theorem Thread.advance_srr0 : (th.advance).srr0 = th.srr0 := by dsimp only [Thread.advance]
@[simp] theorem Thread.advance_srr1 : (th.advance).srr1 = th.srr1 := by dsimp only [Thread.advance]
@[simp] theorem Thread.advance_hsrr0 : (th.advance).hsrr0 = th.hsrr0 := by dsimp only [Thread.advance]
@[simp] theorem Thread.advance_hsrr1 : (th.advance).hsrr1 = th.hsrr1 := by dsimp only [Thread.advance]
@[simp] theorem Thread.advance_dsisr : (th.advance).dsisr = th.dsisr := by dsimp only [Thread.advance]
@[simp] theorem Thread.advance_dar : (th.advance).dar = th.dar := by dsimp only [Thread.advance]
@[simp] theorem Thread.advance_sprg0 : (th.advance).sprg0 = th.sprg0 := by dsimp only [Thread.advance]
@[simp] theorem Thread.advance_sprg1 : (th.advance).sprg1 = th.sprg1 := by dsimp only [Thread.advance]
@[simp] theorem Thread.advance_sprg2 : (th.advance).sprg2 = th.sprg2 := by dsimp only [Thread.advance]
@[simp] theorem Thread.advance_sprg3 : (th.advance).sprg3 = th.sprg3 := by dsimp only [Thread.advance]
@[simp] theorem Thread.advance_hsprg0 : (th.advance).hsprg0 = th.hsprg0 := by dsimp only [Thread.advance]
@[simp] theorem Thread.advance_hsprg1 : (th.advance).hsprg1 = th.hsprg1 := by dsimp only [Thread.advance]
@[simp] theorem Thread.advance_dec : (th.advance).dec = th.dec := by dsimp only [Thread.advance]
@[simp] theorem Thread.advance_lpcrMer : (th.advance).lpcrMer = th.lpcrMer := by dsimp only [Thread.advance]
@[simp] theorem Thread.advance_lpcrRmi : (th.advance).lpcrRmi = th.lpcrRmi := by dsimp only [Thread.advance]
@[simp] theorem Thread.advance_lpcrHdice : (th.advance).lpcrHdice = th.lpcrHdice := by dsimp only [Thread.advance]
@[simp] theorem Thread.advance_dabr : (th.advance).dabr = th.dabr := by dsimp only [Thread.advance]
@[simp] theorem Thread.advance_dabrx : (th.advance).dabrx = th.dabrx := by dsimp only [Thread.advance]
@[simp] theorem Thread.advance_accr : (th.advance).accr = th.accr := by dsimp only [Thread.advance]
@[simp] theorem Thread.advance_tsrlTp : (th.advance).tsrlTp = th.tsrlTp := by dsimp only [Thread.advance]
@[simp] theorem Thread.advance_tlbHint : (th.advance).tlbHint = th.tlbHint := by dsimp only [Thread.advance]
@[simp] theorem Thread.advance_ranges : (th.advance).ranges = th.ranges := by dsimp only [Thread.advance]
@[simp] theorem Thread.advance_slb : (th.advance).slb = th.slb := by dsimp only [Thread.advance]
@[simp] theorem Thread.advance_erat : (th.advance).erat = th.erat := by dsimp only [Thread.advance]
@[simp] theorem Thread.advance_resumeReq : (th.advance).resumeReq = th.resumeReq := by dsimp only [Thread.advance]
@[simp] theorem Thread.advance_sysErr : (th.advance).sysErr = th.sysErr := by dsimp only [Thread.advance]
@[simp] theorem Thread.advance_mcheck : (th.advance).mcheck = th.mcheck := by dsimp only [Thread.advance]
@[simp] theorem Thread.advance_maint : (th.advance).maint = th.maint := by dsimp only [Thread.advance]
@[simp] theorem Thread.advance_maintInstr : (th.advance).maintInstr = th.maintInstr := by dsimp only [Thread.advance]

end

section
variable (p : Spe) (r : BitVec 7) (v : QWord)

@[simp] theorem Spe.set_pc : (p.set r v).pc = p.pc := by dsimp only [Spe.set]
@[simp] theorem Spe.set_fpscr : (p.set r v).fpscr = p.fpscr := by dsimp only [Spe.set]
@[simp] theorem Spe.set_srr0 : (p.set r v).srr0 = p.srr0 := by dsimp only [Spe.set]
@[simp] theorem Spe.set_srr0Old : (p.set r v).srr0Old = p.srr0Old := by dsimp only [Spe.set]
@[simp] theorem Spe.set_ie : (p.set r v).ie = p.ie := by dsimp only [Spe.set]
@[simp] theorem Spe.set_running : (p.set r v).running = p.running := by dsimp only [Spe.set]
@[simp] theorem Spe.set_ls : (p.set r v).ls = p.ls := by dsimp only [Spe.set]
@[simp] theorem Spe.set_lslr : (p.set r v).lslr = p.lslr := by dsimp only [Spe.set]
@[simp] theorem Spe.set_ibuf : (p.set r v).ibuf = p.ibuf := by dsimp only [Spe.set]
@[simp] theorem Spe.set_cnt : (p.set r v).cnt = p.cnt := by dsimp only [Spe.set]
@[simp] theorem Spe.set_pend : (p.set r v).pend = p.pend := by dsimp only [Spe.set]
@[simp] theorem Spe.set_emask : (p.set r v).emask = p.emask := by dsimp only [Spe.set]
@[simp] theorem Spe.set_sdec : (p.set r v).sdec = p.sdec := by dsimp only [Spe.set]
@[simp] theorem Spe.set_sdecRun : (p.set r v).sdecRun = p.sdecRun := by dsimp only [Spe.set]
@[simp] theorem Spe.set_sig1 : (p.set r v).sig1 = p.sig1 := by dsimp only [Spe.set]
@[simp] theorem Spe.set_sig2 : (p.set r v).sig2 = p.sig2 := by dsimp only [Spe.set]
@[simp] theorem Spe.set_outMbox : (p.set r v).outMbox = p.outMbox := by dsimp only [Spe.set]
@[simp] theorem Spe.set_outIntrMbox : (p.set r v).outIntrMbox = p.outIntrMbox := by dsimp only [Spe.set]
@[simp] theorem Spe.set_inMbox : (p.set r v).inMbox = p.inMbox := by dsimp only [Spe.set]
@[simp] theorem Spe.set_mfcLsa : (p.set r v).mfcLsa = p.mfcLsa := by dsimp only [Spe.set]
@[simp] theorem Spe.set_mfcEah : (p.set r v).mfcEah = p.mfcEah := by dsimp only [Spe.set]
@[simp] theorem Spe.set_mfcEal : (p.set r v).mfcEal = p.mfcEal := by dsimp only [Spe.set]
@[simp] theorem Spe.set_mfcSize : (p.set r v).mfcSize = p.mfcSize := by dsimp only [Spe.set]
@[simp] theorem Spe.set_mfcTag : (p.set r v).mfcTag = p.mfcTag := by dsimp only [Spe.set]
@[simp] theorem Spe.set_pxLsa : (p.set r v).pxLsa = p.pxLsa := by dsimp only [Spe.set]
@[simp] theorem Spe.set_pxEah : (p.set r v).pxEah = p.pxEah := by dsimp only [Spe.set]
@[simp] theorem Spe.set_pxEal : (p.set r v).pxEal = p.pxEal := by dsimp only [Spe.set]
@[simp] theorem Spe.set_pxSizeTag : (p.set r v).pxSizeTag = p.pxSizeTag := by dsimp only [Spe.set]
@[simp] theorem Spe.set_pxCmd : (p.set r v).pxCmd = p.pxCmd := by dsimp only [Spe.set]
@[simp] theorem Spe.set_pxSeen : (p.set r v).pxSeen = p.pxSeen := by dsimp only [Spe.set]
@[simp] theorem Spe.set_spuQ : (p.set r v).spuQ = p.spuQ := by dsimp only [Spe.set]
@[simp] theorem Spe.set_pxQ : (p.set r v).pxQ = p.pxQ := by dsimp only [Spe.set]
@[simp] theorem Spe.set_atomicCmd : (p.set r v).atomicCmd = p.atomicCmd := by dsimp only [Spe.set]
@[simp] theorem Spe.set_orderNext : (p.set r v).orderNext = p.orderNext := by dsimp only [Spe.set]
@[simp] theorem Spe.set_snoops : (p.set r v).snoops = p.snoops := by dsimp only [Spe.set]
@[simp] theorem Spe.set_snoopQ : (p.set r v).snoopQ = p.snoopQ := by dsimp only [Spe.set]
@[simp] theorem Spe.set_resend : (p.set r v).resend = p.resend := by dsimp only [Spe.set]
@[simp] theorem Spe.set_atomicLate : (p.set r v).atomicLate = p.atomicLate := by dsimp only [Spe.set]
@[simp] theorem Spe.set_tagMask : (p.set r v).tagMask = p.tagMask := by dsimp only [Spe.set]
@[simp] theorem Spe.set_tagReq : (p.set r v).tagReq = p.tagReq := by dsimp only [Spe.set]
@[simp] theorem Spe.set_tagStat : (p.set r v).tagStat = p.tagStat := by dsimp only [Spe.set]
@[simp] theorem Spe.set_stallStat : (p.set r v).stallStat = p.stallStat := by dsimp only [Spe.set]
@[simp] theorem Spe.set_atomStat : (p.set r v).atomStat = p.atomStat := by dsimp only [Spe.set]
@[simp] theorem Spe.set_pxQueryMask : (p.set r v).pxQueryMask = p.pxQueryMask := by dsimp only [Spe.set]
@[simp] theorem Spe.set_pxQueryType : (p.set r v).pxQueryType = p.pxQueryType := by dsimp only [Spe.set]
@[simp] theorem Spe.set_llres : (p.set r v).llres = p.llres := by dsimp only [Spe.set]
@[simp] theorem Spe.set_msSync : (p.set r v).msSync = p.msSync := by dsimp only [Spe.set]
@[simp] theorem Spe.set_runCntl : (p.set r v).runCntl = p.runCntl := by dsimp only [Spe.set]
@[simp] theorem Spe.set_status : (p.set r v).status = p.status := by dsimp only [Spe.set]
@[simp] theorem Spe.set_npc : (p.set r v).npc = p.npc := by dsimp only [Spe.set]
@[simp] theorem Spe.set_privCntl : (p.set r v).privCntl = p.privCntl := by dsimp only [Spe.set]
@[simp] theorem Spe.set_chnlIndex : (p.set r v).chnlIndex = p.chnlIndex := by dsimp only [Spe.set]
@[simp] theorem Spe.set_chnlWalk : (p.set r v).chnlWalk = p.chnlWalk := by dsimp only [Spe.set]
@[simp] theorem Spe.set_cfg : (p.set r v).cfg = p.cfg := by dsimp only [Spe.set]
@[simp] theorem Spe.set_sc : (p.set r v).sc = p.sc := by dsimp only [Spe.set]
@[simp] theorem Spe.set_sm : (p.set r v).sm = p.sm := by dsimp only [Spe.set]
@[simp] theorem Spe.set_dh : (p.set r v).dh = p.dh := by dsimp only [Spe.set]
@[simp] theorem Spe.set_purged : (p.set r v).purged = p.purged := by dsimp only [Spe.set]
@[simp] theorem Spe.set_halted : (p.set r v).halted = p.halted := by dsimp only [Spe.set]
@[simp] theorem Spe.set_smmBusy : (p.set r v).smmBusy = p.smmBusy := by dsimp only [Spe.set]
@[simp] theorem Spe.set_dsiprLocked : (p.set r v).dsiprLocked = p.dsiprLocked := by dsimp only [Spe.set]
@[simp] theorem Spe.set_sr1 : (p.set r v).sr1 = p.sr1 := by dsimp only [Spe.set]
@[simp] theorem Spe.set_intMask : (p.set r v).intMask = p.intMask := by dsimp only [Spe.set]
@[simp] theorem Spe.set_intStat : (p.set r v).intStat = p.intStat := by dsimp only [Spe.set]
@[simp] theorem Spe.set_held : (p.set r v).held = p.held := by dsimp only [Spe.set]
@[simp] theorem Spe.set_slb : (p.set r v).slb = p.slb := by dsimp only [Spe.set]
@[simp] theorem Spe.set_slbIndex : (p.set r v).slbIndex = p.slbIndex := by dsimp only [Spe.set]
@[simp] theorem Spe.set_tlb : (p.set r v).tlb = p.tlb := by dsimp only [Spe.set]
@[simp] theorem Spe.set_tlbIndex : (p.set r v).tlbIndex = p.tlbIndex := by dsimp only [Spe.set]
@[simp] theorem Spe.set_tlbRpn : (p.set r v).tlbRpn = p.tlbRpn := by dsimp only [Spe.set]
@[simp] theorem Spe.set_tlbHint : (p.set r v).tlbHint = p.tlbHint := by dsimp only [Spe.set]
@[simp] theorem Spe.set_cells : (p.set r v).cells = p.cells := by dsimp only [Spe.set]

end

section
variable (p : Spe)

@[simp] theorem Spe.advance_regs : (p.advance).regs = p.regs := by dsimp only [Spe.advance]
@[simp] theorem Spe.advance_fpscr : (p.advance).fpscr = p.fpscr := by dsimp only [Spe.advance]
@[simp] theorem Spe.advance_srr0 : (p.advance).srr0 = p.srr0 := by dsimp only [Spe.advance]
@[simp] theorem Spe.advance_srr0Old : (p.advance).srr0Old = p.srr0Old := by dsimp only [Spe.advance]
@[simp] theorem Spe.advance_ie : (p.advance).ie = p.ie := by dsimp only [Spe.advance]
@[simp] theorem Spe.advance_running : (p.advance).running = p.running := by dsimp only [Spe.advance]
@[simp] theorem Spe.advance_ls : (p.advance).ls = p.ls := by dsimp only [Spe.advance]
@[simp] theorem Spe.advance_lslr : (p.advance).lslr = p.lslr := by dsimp only [Spe.advance]
@[simp] theorem Spe.advance_ibuf : (p.advance).ibuf = p.ibuf := by dsimp only [Spe.advance]
@[simp] theorem Spe.advance_cnt : (p.advance).cnt = p.cnt := by dsimp only [Spe.advance]
@[simp] theorem Spe.advance_pend : (p.advance).pend = p.pend := by dsimp only [Spe.advance]
@[simp] theorem Spe.advance_emask : (p.advance).emask = p.emask := by dsimp only [Spe.advance]
@[simp] theorem Spe.advance_sdec : (p.advance).sdec = p.sdec := by dsimp only [Spe.advance]
@[simp] theorem Spe.advance_sdecRun : (p.advance).sdecRun = p.sdecRun := by dsimp only [Spe.advance]
@[simp] theorem Spe.advance_sig1 : (p.advance).sig1 = p.sig1 := by dsimp only [Spe.advance]
@[simp] theorem Spe.advance_sig2 : (p.advance).sig2 = p.sig2 := by dsimp only [Spe.advance]
@[simp] theorem Spe.advance_outMbox : (p.advance).outMbox = p.outMbox := by dsimp only [Spe.advance]
@[simp] theorem Spe.advance_outIntrMbox : (p.advance).outIntrMbox = p.outIntrMbox := by dsimp only [Spe.advance]
@[simp] theorem Spe.advance_inMbox : (p.advance).inMbox = p.inMbox := by dsimp only [Spe.advance]
@[simp] theorem Spe.advance_mfcLsa : (p.advance).mfcLsa = p.mfcLsa := by dsimp only [Spe.advance]
@[simp] theorem Spe.advance_mfcEah : (p.advance).mfcEah = p.mfcEah := by dsimp only [Spe.advance]
@[simp] theorem Spe.advance_mfcEal : (p.advance).mfcEal = p.mfcEal := by dsimp only [Spe.advance]
@[simp] theorem Spe.advance_mfcSize : (p.advance).mfcSize = p.mfcSize := by dsimp only [Spe.advance]
@[simp] theorem Spe.advance_mfcTag : (p.advance).mfcTag = p.mfcTag := by dsimp only [Spe.advance]
@[simp] theorem Spe.advance_pxLsa : (p.advance).pxLsa = p.pxLsa := by dsimp only [Spe.advance]
@[simp] theorem Spe.advance_pxEah : (p.advance).pxEah = p.pxEah := by dsimp only [Spe.advance]
@[simp] theorem Spe.advance_pxEal : (p.advance).pxEal = p.pxEal := by dsimp only [Spe.advance]
@[simp] theorem Spe.advance_pxSizeTag : (p.advance).pxSizeTag = p.pxSizeTag := by dsimp only [Spe.advance]
@[simp] theorem Spe.advance_pxCmd : (p.advance).pxCmd = p.pxCmd := by dsimp only [Spe.advance]
@[simp] theorem Spe.advance_pxSeen : (p.advance).pxSeen = p.pxSeen := by dsimp only [Spe.advance]
@[simp] theorem Spe.advance_spuQ : (p.advance).spuQ = p.spuQ := by dsimp only [Spe.advance]
@[simp] theorem Spe.advance_pxQ : (p.advance).pxQ = p.pxQ := by dsimp only [Spe.advance]
@[simp] theorem Spe.advance_atomicCmd : (p.advance).atomicCmd = p.atomicCmd := by dsimp only [Spe.advance]
@[simp] theorem Spe.advance_orderNext : (p.advance).orderNext = p.orderNext := by dsimp only [Spe.advance]
@[simp] theorem Spe.advance_snoops : (p.advance).snoops = p.snoops := by dsimp only [Spe.advance]
@[simp] theorem Spe.advance_snoopQ : (p.advance).snoopQ = p.snoopQ := by dsimp only [Spe.advance]
@[simp] theorem Spe.advance_resend : (p.advance).resend = p.resend := by dsimp only [Spe.advance]
@[simp] theorem Spe.advance_atomicLate : (p.advance).atomicLate = p.atomicLate := by dsimp only [Spe.advance]
@[simp] theorem Spe.advance_tagMask : (p.advance).tagMask = p.tagMask := by dsimp only [Spe.advance]
@[simp] theorem Spe.advance_tagReq : (p.advance).tagReq = p.tagReq := by dsimp only [Spe.advance]
@[simp] theorem Spe.advance_tagStat : (p.advance).tagStat = p.tagStat := by dsimp only [Spe.advance]
@[simp] theorem Spe.advance_stallStat : (p.advance).stallStat = p.stallStat := by dsimp only [Spe.advance]
@[simp] theorem Spe.advance_atomStat : (p.advance).atomStat = p.atomStat := by dsimp only [Spe.advance]
@[simp] theorem Spe.advance_pxQueryMask : (p.advance).pxQueryMask = p.pxQueryMask := by dsimp only [Spe.advance]
@[simp] theorem Spe.advance_pxQueryType : (p.advance).pxQueryType = p.pxQueryType := by dsimp only [Spe.advance]
@[simp] theorem Spe.advance_llres : (p.advance).llres = p.llres := by dsimp only [Spe.advance]
@[simp] theorem Spe.advance_msSync : (p.advance).msSync = p.msSync := by dsimp only [Spe.advance]
@[simp] theorem Spe.advance_runCntl : (p.advance).runCntl = p.runCntl := by dsimp only [Spe.advance]
@[simp] theorem Spe.advance_status : (p.advance).status = p.status := by dsimp only [Spe.advance]
@[simp] theorem Spe.advance_npc : (p.advance).npc = p.npc := by dsimp only [Spe.advance]
@[simp] theorem Spe.advance_privCntl : (p.advance).privCntl = p.privCntl := by dsimp only [Spe.advance]
@[simp] theorem Spe.advance_chnlIndex : (p.advance).chnlIndex = p.chnlIndex := by dsimp only [Spe.advance]
@[simp] theorem Spe.advance_chnlWalk : (p.advance).chnlWalk = p.chnlWalk := by dsimp only [Spe.advance]
@[simp] theorem Spe.advance_cfg : (p.advance).cfg = p.cfg := by dsimp only [Spe.advance]
@[simp] theorem Spe.advance_sc : (p.advance).sc = p.sc := by dsimp only [Spe.advance]
@[simp] theorem Spe.advance_sm : (p.advance).sm = p.sm := by dsimp only [Spe.advance]
@[simp] theorem Spe.advance_dh : (p.advance).dh = p.dh := by dsimp only [Spe.advance]
@[simp] theorem Spe.advance_purged : (p.advance).purged = p.purged := by dsimp only [Spe.advance]
@[simp] theorem Spe.advance_halted : (p.advance).halted = p.halted := by dsimp only [Spe.advance]
@[simp] theorem Spe.advance_smmBusy : (p.advance).smmBusy = p.smmBusy := by dsimp only [Spe.advance]
@[simp] theorem Spe.advance_dsiprLocked : (p.advance).dsiprLocked = p.dsiprLocked := by dsimp only [Spe.advance]
@[simp] theorem Spe.advance_sr1 : (p.advance).sr1 = p.sr1 := by dsimp only [Spe.advance]
@[simp] theorem Spe.advance_intMask : (p.advance).intMask = p.intMask := by dsimp only [Spe.advance]
@[simp] theorem Spe.advance_intStat : (p.advance).intStat = p.intStat := by dsimp only [Spe.advance]
@[simp] theorem Spe.advance_held : (p.advance).held = p.held := by dsimp only [Spe.advance]
@[simp] theorem Spe.advance_slb : (p.advance).slb = p.slb := by dsimp only [Spe.advance]
@[simp] theorem Spe.advance_slbIndex : (p.advance).slbIndex = p.slbIndex := by dsimp only [Spe.advance]
@[simp] theorem Spe.advance_tlb : (p.advance).tlb = p.tlb := by dsimp only [Spe.advance]
@[simp] theorem Spe.advance_tlbIndex : (p.advance).tlbIndex = p.tlbIndex := by dsimp only [Spe.advance]
@[simp] theorem Spe.advance_tlbRpn : (p.advance).tlbRpn = p.tlbRpn := by dsimp only [Spe.advance]
@[simp] theorem Spe.advance_tlbHint : (p.advance).tlbHint = p.tlbHint := by dsimp only [Spe.advance]
@[simp] theorem Spe.advance_cells : (p.advance).cells = p.cells := by dsimp only [Spe.advance]

end

section
variable (p : Spe) (ch : Fin 32) (v : Word)

@[simp] theorem Spe.setCnt_regs : (p.setCnt ch v).regs = p.regs := by dsimp only [Spe.setCnt]
@[simp] theorem Spe.setCnt_pc : (p.setCnt ch v).pc = p.pc := by dsimp only [Spe.setCnt]
@[simp] theorem Spe.setCnt_fpscr : (p.setCnt ch v).fpscr = p.fpscr := by dsimp only [Spe.setCnt]
@[simp] theorem Spe.setCnt_srr0 : (p.setCnt ch v).srr0 = p.srr0 := by dsimp only [Spe.setCnt]
@[simp] theorem Spe.setCnt_srr0Old : (p.setCnt ch v).srr0Old = p.srr0Old := by dsimp only [Spe.setCnt]
@[simp] theorem Spe.setCnt_ie : (p.setCnt ch v).ie = p.ie := by dsimp only [Spe.setCnt]
@[simp] theorem Spe.setCnt_running : (p.setCnt ch v).running = p.running := by dsimp only [Spe.setCnt]
@[simp] theorem Spe.setCnt_ls : (p.setCnt ch v).ls = p.ls := by dsimp only [Spe.setCnt]
@[simp] theorem Spe.setCnt_lslr : (p.setCnt ch v).lslr = p.lslr := by dsimp only [Spe.setCnt]
@[simp] theorem Spe.setCnt_ibuf : (p.setCnt ch v).ibuf = p.ibuf := by dsimp only [Spe.setCnt]
@[simp] theorem Spe.setCnt_pend : (p.setCnt ch v).pend = p.pend := by dsimp only [Spe.setCnt]
@[simp] theorem Spe.setCnt_emask : (p.setCnt ch v).emask = p.emask := by dsimp only [Spe.setCnt]
@[simp] theorem Spe.setCnt_sdec : (p.setCnt ch v).sdec = p.sdec := by dsimp only [Spe.setCnt]
@[simp] theorem Spe.setCnt_sdecRun : (p.setCnt ch v).sdecRun = p.sdecRun := by dsimp only [Spe.setCnt]
@[simp] theorem Spe.setCnt_sig1 : (p.setCnt ch v).sig1 = p.sig1 := by dsimp only [Spe.setCnt]
@[simp] theorem Spe.setCnt_sig2 : (p.setCnt ch v).sig2 = p.sig2 := by dsimp only [Spe.setCnt]
@[simp] theorem Spe.setCnt_outMbox : (p.setCnt ch v).outMbox = p.outMbox := by dsimp only [Spe.setCnt]
@[simp] theorem Spe.setCnt_outIntrMbox : (p.setCnt ch v).outIntrMbox = p.outIntrMbox := by dsimp only [Spe.setCnt]
@[simp] theorem Spe.setCnt_inMbox : (p.setCnt ch v).inMbox = p.inMbox := by dsimp only [Spe.setCnt]
@[simp] theorem Spe.setCnt_mfcLsa : (p.setCnt ch v).mfcLsa = p.mfcLsa := by dsimp only [Spe.setCnt]
@[simp] theorem Spe.setCnt_mfcEah : (p.setCnt ch v).mfcEah = p.mfcEah := by dsimp only [Spe.setCnt]
@[simp] theorem Spe.setCnt_mfcEal : (p.setCnt ch v).mfcEal = p.mfcEal := by dsimp only [Spe.setCnt]
@[simp] theorem Spe.setCnt_mfcSize : (p.setCnt ch v).mfcSize = p.mfcSize := by dsimp only [Spe.setCnt]
@[simp] theorem Spe.setCnt_mfcTag : (p.setCnt ch v).mfcTag = p.mfcTag := by dsimp only [Spe.setCnt]
@[simp] theorem Spe.setCnt_pxLsa : (p.setCnt ch v).pxLsa = p.pxLsa := by dsimp only [Spe.setCnt]
@[simp] theorem Spe.setCnt_pxEah : (p.setCnt ch v).pxEah = p.pxEah := by dsimp only [Spe.setCnt]
@[simp] theorem Spe.setCnt_pxEal : (p.setCnt ch v).pxEal = p.pxEal := by dsimp only [Spe.setCnt]
@[simp] theorem Spe.setCnt_pxSizeTag : (p.setCnt ch v).pxSizeTag = p.pxSizeTag := by dsimp only [Spe.setCnt]
@[simp] theorem Spe.setCnt_pxCmd : (p.setCnt ch v).pxCmd = p.pxCmd := by dsimp only [Spe.setCnt]
@[simp] theorem Spe.setCnt_pxSeen : (p.setCnt ch v).pxSeen = p.pxSeen := by dsimp only [Spe.setCnt]
@[simp] theorem Spe.setCnt_spuQ : (p.setCnt ch v).spuQ = p.spuQ := by dsimp only [Spe.setCnt]
@[simp] theorem Spe.setCnt_pxQ : (p.setCnt ch v).pxQ = p.pxQ := by dsimp only [Spe.setCnt]
@[simp] theorem Spe.setCnt_atomicCmd : (p.setCnt ch v).atomicCmd = p.atomicCmd := by dsimp only [Spe.setCnt]
@[simp] theorem Spe.setCnt_orderNext : (p.setCnt ch v).orderNext = p.orderNext := by dsimp only [Spe.setCnt]
@[simp] theorem Spe.setCnt_snoops : (p.setCnt ch v).snoops = p.snoops := by dsimp only [Spe.setCnt]
@[simp] theorem Spe.setCnt_snoopQ : (p.setCnt ch v).snoopQ = p.snoopQ := by dsimp only [Spe.setCnt]
@[simp] theorem Spe.setCnt_resend : (p.setCnt ch v).resend = p.resend := by dsimp only [Spe.setCnt]
@[simp] theorem Spe.setCnt_atomicLate : (p.setCnt ch v).atomicLate = p.atomicLate := by dsimp only [Spe.setCnt]
@[simp] theorem Spe.setCnt_tagMask : (p.setCnt ch v).tagMask = p.tagMask := by dsimp only [Spe.setCnt]
@[simp] theorem Spe.setCnt_tagReq : (p.setCnt ch v).tagReq = p.tagReq := by dsimp only [Spe.setCnt]
@[simp] theorem Spe.setCnt_tagStat : (p.setCnt ch v).tagStat = p.tagStat := by dsimp only [Spe.setCnt]
@[simp] theorem Spe.setCnt_stallStat : (p.setCnt ch v).stallStat = p.stallStat := by dsimp only [Spe.setCnt]
@[simp] theorem Spe.setCnt_atomStat : (p.setCnt ch v).atomStat = p.atomStat := by dsimp only [Spe.setCnt]
@[simp] theorem Spe.setCnt_pxQueryMask : (p.setCnt ch v).pxQueryMask = p.pxQueryMask := by dsimp only [Spe.setCnt]
@[simp] theorem Spe.setCnt_pxQueryType : (p.setCnt ch v).pxQueryType = p.pxQueryType := by dsimp only [Spe.setCnt]
@[simp] theorem Spe.setCnt_llres : (p.setCnt ch v).llres = p.llres := by dsimp only [Spe.setCnt]
@[simp] theorem Spe.setCnt_msSync : (p.setCnt ch v).msSync = p.msSync := by dsimp only [Spe.setCnt]
@[simp] theorem Spe.setCnt_runCntl : (p.setCnt ch v).runCntl = p.runCntl := by dsimp only [Spe.setCnt]
@[simp] theorem Spe.setCnt_status : (p.setCnt ch v).status = p.status := by dsimp only [Spe.setCnt]
@[simp] theorem Spe.setCnt_npc : (p.setCnt ch v).npc = p.npc := by dsimp only [Spe.setCnt]
@[simp] theorem Spe.setCnt_privCntl : (p.setCnt ch v).privCntl = p.privCntl := by dsimp only [Spe.setCnt]
@[simp] theorem Spe.setCnt_chnlIndex : (p.setCnt ch v).chnlIndex = p.chnlIndex := by dsimp only [Spe.setCnt]
@[simp] theorem Spe.setCnt_chnlWalk : (p.setCnt ch v).chnlWalk = p.chnlWalk := by dsimp only [Spe.setCnt]
@[simp] theorem Spe.setCnt_cfg : (p.setCnt ch v).cfg = p.cfg := by dsimp only [Spe.setCnt]
@[simp] theorem Spe.setCnt_sc : (p.setCnt ch v).sc = p.sc := by dsimp only [Spe.setCnt]
@[simp] theorem Spe.setCnt_sm : (p.setCnt ch v).sm = p.sm := by dsimp only [Spe.setCnt]
@[simp] theorem Spe.setCnt_dh : (p.setCnt ch v).dh = p.dh := by dsimp only [Spe.setCnt]
@[simp] theorem Spe.setCnt_purged : (p.setCnt ch v).purged = p.purged := by dsimp only [Spe.setCnt]
@[simp] theorem Spe.setCnt_halted : (p.setCnt ch v).halted = p.halted := by dsimp only [Spe.setCnt]
@[simp] theorem Spe.setCnt_smmBusy : (p.setCnt ch v).smmBusy = p.smmBusy := by dsimp only [Spe.setCnt]
@[simp] theorem Spe.setCnt_dsiprLocked : (p.setCnt ch v).dsiprLocked = p.dsiprLocked := by dsimp only [Spe.setCnt]
@[simp] theorem Spe.setCnt_sr1 : (p.setCnt ch v).sr1 = p.sr1 := by dsimp only [Spe.setCnt]
@[simp] theorem Spe.setCnt_intMask : (p.setCnt ch v).intMask = p.intMask := by dsimp only [Spe.setCnt]
@[simp] theorem Spe.setCnt_intStat : (p.setCnt ch v).intStat = p.intStat := by dsimp only [Spe.setCnt]
@[simp] theorem Spe.setCnt_held : (p.setCnt ch v).held = p.held := by dsimp only [Spe.setCnt]
@[simp] theorem Spe.setCnt_slb : (p.setCnt ch v).slb = p.slb := by dsimp only [Spe.setCnt]
@[simp] theorem Spe.setCnt_slbIndex : (p.setCnt ch v).slbIndex = p.slbIndex := by dsimp only [Spe.setCnt]
@[simp] theorem Spe.setCnt_tlb : (p.setCnt ch v).tlb = p.tlb := by dsimp only [Spe.setCnt]
@[simp] theorem Spe.setCnt_tlbIndex : (p.setCnt ch v).tlbIndex = p.tlbIndex := by dsimp only [Spe.setCnt]
@[simp] theorem Spe.setCnt_tlbRpn : (p.setCnt ch v).tlbRpn = p.tlbRpn := by dsimp only [Spe.setCnt]
@[simp] theorem Spe.setCnt_tlbHint : (p.setCnt ch v).tlbHint = p.tlbHint := by dsimp only [Spe.setCnt]
@[simp] theorem Spe.setCnt_cells : (p.setCnt ch v).cells = p.cells := by dsimp only [Spe.setCnt]

end

section
variable (p : Spe) (a : Nat) (v : QWord)

@[simp] theorem Spe.setLsQuad_regs : (p.setLsQuad a v).regs = p.regs := by dsimp only [Spe.setLsQuad]
@[simp] theorem Spe.setLsQuad_pc : (p.setLsQuad a v).pc = p.pc := by dsimp only [Spe.setLsQuad]
@[simp] theorem Spe.setLsQuad_fpscr : (p.setLsQuad a v).fpscr = p.fpscr := by dsimp only [Spe.setLsQuad]
@[simp] theorem Spe.setLsQuad_srr0 : (p.setLsQuad a v).srr0 = p.srr0 := by dsimp only [Spe.setLsQuad]
@[simp] theorem Spe.setLsQuad_srr0Old : (p.setLsQuad a v).srr0Old = p.srr0Old := by dsimp only [Spe.setLsQuad]
@[simp] theorem Spe.setLsQuad_ie : (p.setLsQuad a v).ie = p.ie := by dsimp only [Spe.setLsQuad]
@[simp] theorem Spe.setLsQuad_running : (p.setLsQuad a v).running = p.running := by dsimp only [Spe.setLsQuad]
@[simp] theorem Spe.setLsQuad_lslr : (p.setLsQuad a v).lslr = p.lslr := by dsimp only [Spe.setLsQuad]
@[simp] theorem Spe.setLsQuad_ibuf : (p.setLsQuad a v).ibuf = p.ibuf := by dsimp only [Spe.setLsQuad]
@[simp] theorem Spe.setLsQuad_cnt : (p.setLsQuad a v).cnt = p.cnt := by dsimp only [Spe.setLsQuad]
@[simp] theorem Spe.setLsQuad_pend : (p.setLsQuad a v).pend = p.pend := by dsimp only [Spe.setLsQuad]
@[simp] theorem Spe.setLsQuad_emask : (p.setLsQuad a v).emask = p.emask := by dsimp only [Spe.setLsQuad]
@[simp] theorem Spe.setLsQuad_sdec : (p.setLsQuad a v).sdec = p.sdec := by dsimp only [Spe.setLsQuad]
@[simp] theorem Spe.setLsQuad_sdecRun : (p.setLsQuad a v).sdecRun = p.sdecRun := by dsimp only [Spe.setLsQuad]
@[simp] theorem Spe.setLsQuad_sig1 : (p.setLsQuad a v).sig1 = p.sig1 := by dsimp only [Spe.setLsQuad]
@[simp] theorem Spe.setLsQuad_sig2 : (p.setLsQuad a v).sig2 = p.sig2 := by dsimp only [Spe.setLsQuad]
@[simp] theorem Spe.setLsQuad_outMbox : (p.setLsQuad a v).outMbox = p.outMbox := by dsimp only [Spe.setLsQuad]
@[simp] theorem Spe.setLsQuad_outIntrMbox : (p.setLsQuad a v).outIntrMbox = p.outIntrMbox := by dsimp only [Spe.setLsQuad]
@[simp] theorem Spe.setLsQuad_inMbox : (p.setLsQuad a v).inMbox = p.inMbox := by dsimp only [Spe.setLsQuad]
@[simp] theorem Spe.setLsQuad_mfcLsa : (p.setLsQuad a v).mfcLsa = p.mfcLsa := by dsimp only [Spe.setLsQuad]
@[simp] theorem Spe.setLsQuad_mfcEah : (p.setLsQuad a v).mfcEah = p.mfcEah := by dsimp only [Spe.setLsQuad]
@[simp] theorem Spe.setLsQuad_mfcEal : (p.setLsQuad a v).mfcEal = p.mfcEal := by dsimp only [Spe.setLsQuad]
@[simp] theorem Spe.setLsQuad_mfcSize : (p.setLsQuad a v).mfcSize = p.mfcSize := by dsimp only [Spe.setLsQuad]
@[simp] theorem Spe.setLsQuad_mfcTag : (p.setLsQuad a v).mfcTag = p.mfcTag := by dsimp only [Spe.setLsQuad]
@[simp] theorem Spe.setLsQuad_pxLsa : (p.setLsQuad a v).pxLsa = p.pxLsa := by dsimp only [Spe.setLsQuad]
@[simp] theorem Spe.setLsQuad_pxEah : (p.setLsQuad a v).pxEah = p.pxEah := by dsimp only [Spe.setLsQuad]
@[simp] theorem Spe.setLsQuad_pxEal : (p.setLsQuad a v).pxEal = p.pxEal := by dsimp only [Spe.setLsQuad]
@[simp] theorem Spe.setLsQuad_pxSizeTag : (p.setLsQuad a v).pxSizeTag = p.pxSizeTag := by dsimp only [Spe.setLsQuad]
@[simp] theorem Spe.setLsQuad_pxCmd : (p.setLsQuad a v).pxCmd = p.pxCmd := by dsimp only [Spe.setLsQuad]
@[simp] theorem Spe.setLsQuad_pxSeen : (p.setLsQuad a v).pxSeen = p.pxSeen := by dsimp only [Spe.setLsQuad]
@[simp] theorem Spe.setLsQuad_spuQ : (p.setLsQuad a v).spuQ = p.spuQ := by dsimp only [Spe.setLsQuad]
@[simp] theorem Spe.setLsQuad_pxQ : (p.setLsQuad a v).pxQ = p.pxQ := by dsimp only [Spe.setLsQuad]
@[simp] theorem Spe.setLsQuad_atomicCmd : (p.setLsQuad a v).atomicCmd = p.atomicCmd := by dsimp only [Spe.setLsQuad]
@[simp] theorem Spe.setLsQuad_orderNext : (p.setLsQuad a v).orderNext = p.orderNext := by dsimp only [Spe.setLsQuad]
@[simp] theorem Spe.setLsQuad_snoops : (p.setLsQuad a v).snoops = p.snoops := by dsimp only [Spe.setLsQuad]
@[simp] theorem Spe.setLsQuad_snoopQ : (p.setLsQuad a v).snoopQ = p.snoopQ := by dsimp only [Spe.setLsQuad]
@[simp] theorem Spe.setLsQuad_resend : (p.setLsQuad a v).resend = p.resend := by dsimp only [Spe.setLsQuad]
@[simp] theorem Spe.setLsQuad_atomicLate : (p.setLsQuad a v).atomicLate = p.atomicLate := by dsimp only [Spe.setLsQuad]
@[simp] theorem Spe.setLsQuad_tagMask : (p.setLsQuad a v).tagMask = p.tagMask := by dsimp only [Spe.setLsQuad]
@[simp] theorem Spe.setLsQuad_tagReq : (p.setLsQuad a v).tagReq = p.tagReq := by dsimp only [Spe.setLsQuad]
@[simp] theorem Spe.setLsQuad_tagStat : (p.setLsQuad a v).tagStat = p.tagStat := by dsimp only [Spe.setLsQuad]
@[simp] theorem Spe.setLsQuad_stallStat : (p.setLsQuad a v).stallStat = p.stallStat := by dsimp only [Spe.setLsQuad]
@[simp] theorem Spe.setLsQuad_atomStat : (p.setLsQuad a v).atomStat = p.atomStat := by dsimp only [Spe.setLsQuad]
@[simp] theorem Spe.setLsQuad_pxQueryMask : (p.setLsQuad a v).pxQueryMask = p.pxQueryMask := by dsimp only [Spe.setLsQuad]
@[simp] theorem Spe.setLsQuad_pxQueryType : (p.setLsQuad a v).pxQueryType = p.pxQueryType := by dsimp only [Spe.setLsQuad]
@[simp] theorem Spe.setLsQuad_llres : (p.setLsQuad a v).llres = p.llres := by dsimp only [Spe.setLsQuad]
@[simp] theorem Spe.setLsQuad_msSync : (p.setLsQuad a v).msSync = p.msSync := by dsimp only [Spe.setLsQuad]
@[simp] theorem Spe.setLsQuad_runCntl : (p.setLsQuad a v).runCntl = p.runCntl := by dsimp only [Spe.setLsQuad]
@[simp] theorem Spe.setLsQuad_status : (p.setLsQuad a v).status = p.status := by dsimp only [Spe.setLsQuad]
@[simp] theorem Spe.setLsQuad_npc : (p.setLsQuad a v).npc = p.npc := by dsimp only [Spe.setLsQuad]
@[simp] theorem Spe.setLsQuad_privCntl : (p.setLsQuad a v).privCntl = p.privCntl := by dsimp only [Spe.setLsQuad]
@[simp] theorem Spe.setLsQuad_chnlIndex : (p.setLsQuad a v).chnlIndex = p.chnlIndex := by dsimp only [Spe.setLsQuad]
@[simp] theorem Spe.setLsQuad_chnlWalk : (p.setLsQuad a v).chnlWalk = p.chnlWalk := by dsimp only [Spe.setLsQuad]
@[simp] theorem Spe.setLsQuad_cfg : (p.setLsQuad a v).cfg = p.cfg := by dsimp only [Spe.setLsQuad]
@[simp] theorem Spe.setLsQuad_sc : (p.setLsQuad a v).sc = p.sc := by dsimp only [Spe.setLsQuad]
@[simp] theorem Spe.setLsQuad_sm : (p.setLsQuad a v).sm = p.sm := by dsimp only [Spe.setLsQuad]
@[simp] theorem Spe.setLsQuad_dh : (p.setLsQuad a v).dh = p.dh := by dsimp only [Spe.setLsQuad]
@[simp] theorem Spe.setLsQuad_purged : (p.setLsQuad a v).purged = p.purged := by dsimp only [Spe.setLsQuad]
@[simp] theorem Spe.setLsQuad_halted : (p.setLsQuad a v).halted = p.halted := by dsimp only [Spe.setLsQuad]
@[simp] theorem Spe.setLsQuad_smmBusy : (p.setLsQuad a v).smmBusy = p.smmBusy := by dsimp only [Spe.setLsQuad]
@[simp] theorem Spe.setLsQuad_dsiprLocked : (p.setLsQuad a v).dsiprLocked = p.dsiprLocked := by dsimp only [Spe.setLsQuad]
@[simp] theorem Spe.setLsQuad_sr1 : (p.setLsQuad a v).sr1 = p.sr1 := by dsimp only [Spe.setLsQuad]
@[simp] theorem Spe.setLsQuad_intMask : (p.setLsQuad a v).intMask = p.intMask := by dsimp only [Spe.setLsQuad]
@[simp] theorem Spe.setLsQuad_intStat : (p.setLsQuad a v).intStat = p.intStat := by dsimp only [Spe.setLsQuad]
@[simp] theorem Spe.setLsQuad_held : (p.setLsQuad a v).held = p.held := by dsimp only [Spe.setLsQuad]
@[simp] theorem Spe.setLsQuad_slb : (p.setLsQuad a v).slb = p.slb := by dsimp only [Spe.setLsQuad]
@[simp] theorem Spe.setLsQuad_slbIndex : (p.setLsQuad a v).slbIndex = p.slbIndex := by dsimp only [Spe.setLsQuad]
@[simp] theorem Spe.setLsQuad_tlb : (p.setLsQuad a v).tlb = p.tlb := by dsimp only [Spe.setLsQuad]
@[simp] theorem Spe.setLsQuad_tlbIndex : (p.setLsQuad a v).tlbIndex = p.tlbIndex := by dsimp only [Spe.setLsQuad]
@[simp] theorem Spe.setLsQuad_tlbRpn : (p.setLsQuad a v).tlbRpn = p.tlbRpn := by dsimp only [Spe.setLsQuad]
@[simp] theorem Spe.setLsQuad_tlbHint : (p.setLsQuad a v).tlbHint = p.tlbHint := by dsimp only [Spe.setLsQuad]
@[simp] theorem Spe.setLsQuad_cells : (p.setLsQuad a v).cells = p.cells := by dsimp only [Spe.setLsQuad]

end

section
variable (p : Spe) (k : Nat) (v : DWord)

@[simp] theorem Spe.setCell_regs : (p.setCell k v).regs = p.regs := by dsimp only [Spe.setCell]
@[simp] theorem Spe.setCell_pc : (p.setCell k v).pc = p.pc := by dsimp only [Spe.setCell]
@[simp] theorem Spe.setCell_fpscr : (p.setCell k v).fpscr = p.fpscr := by dsimp only [Spe.setCell]
@[simp] theorem Spe.setCell_srr0 : (p.setCell k v).srr0 = p.srr0 := by dsimp only [Spe.setCell]
@[simp] theorem Spe.setCell_srr0Old : (p.setCell k v).srr0Old = p.srr0Old := by dsimp only [Spe.setCell]
@[simp] theorem Spe.setCell_ie : (p.setCell k v).ie = p.ie := by dsimp only [Spe.setCell]
@[simp] theorem Spe.setCell_running : (p.setCell k v).running = p.running := by dsimp only [Spe.setCell]
@[simp] theorem Spe.setCell_ls : (p.setCell k v).ls = p.ls := by dsimp only [Spe.setCell]
@[simp] theorem Spe.setCell_lslr : (p.setCell k v).lslr = p.lslr := by dsimp only [Spe.setCell]
@[simp] theorem Spe.setCell_ibuf : (p.setCell k v).ibuf = p.ibuf := by dsimp only [Spe.setCell]
@[simp] theorem Spe.setCell_cnt : (p.setCell k v).cnt = p.cnt := by dsimp only [Spe.setCell]
@[simp] theorem Spe.setCell_pend : (p.setCell k v).pend = p.pend := by dsimp only [Spe.setCell]
@[simp] theorem Spe.setCell_emask : (p.setCell k v).emask = p.emask := by dsimp only [Spe.setCell]
@[simp] theorem Spe.setCell_sdec : (p.setCell k v).sdec = p.sdec := by dsimp only [Spe.setCell]
@[simp] theorem Spe.setCell_sdecRun : (p.setCell k v).sdecRun = p.sdecRun := by dsimp only [Spe.setCell]
@[simp] theorem Spe.setCell_sig1 : (p.setCell k v).sig1 = p.sig1 := by dsimp only [Spe.setCell]
@[simp] theorem Spe.setCell_sig2 : (p.setCell k v).sig2 = p.sig2 := by dsimp only [Spe.setCell]
@[simp] theorem Spe.setCell_outMbox : (p.setCell k v).outMbox = p.outMbox := by dsimp only [Spe.setCell]
@[simp] theorem Spe.setCell_outIntrMbox : (p.setCell k v).outIntrMbox = p.outIntrMbox := by dsimp only [Spe.setCell]
@[simp] theorem Spe.setCell_inMbox : (p.setCell k v).inMbox = p.inMbox := by dsimp only [Spe.setCell]
@[simp] theorem Spe.setCell_mfcLsa : (p.setCell k v).mfcLsa = p.mfcLsa := by dsimp only [Spe.setCell]
@[simp] theorem Spe.setCell_mfcEah : (p.setCell k v).mfcEah = p.mfcEah := by dsimp only [Spe.setCell]
@[simp] theorem Spe.setCell_mfcEal : (p.setCell k v).mfcEal = p.mfcEal := by dsimp only [Spe.setCell]
@[simp] theorem Spe.setCell_mfcSize : (p.setCell k v).mfcSize = p.mfcSize := by dsimp only [Spe.setCell]
@[simp] theorem Spe.setCell_mfcTag : (p.setCell k v).mfcTag = p.mfcTag := by dsimp only [Spe.setCell]
@[simp] theorem Spe.setCell_pxLsa : (p.setCell k v).pxLsa = p.pxLsa := by dsimp only [Spe.setCell]
@[simp] theorem Spe.setCell_pxEah : (p.setCell k v).pxEah = p.pxEah := by dsimp only [Spe.setCell]
@[simp] theorem Spe.setCell_pxEal : (p.setCell k v).pxEal = p.pxEal := by dsimp only [Spe.setCell]
@[simp] theorem Spe.setCell_pxSizeTag : (p.setCell k v).pxSizeTag = p.pxSizeTag := by dsimp only [Spe.setCell]
@[simp] theorem Spe.setCell_pxCmd : (p.setCell k v).pxCmd = p.pxCmd := by dsimp only [Spe.setCell]
@[simp] theorem Spe.setCell_pxSeen : (p.setCell k v).pxSeen = p.pxSeen := by dsimp only [Spe.setCell]
@[simp] theorem Spe.setCell_spuQ : (p.setCell k v).spuQ = p.spuQ := by dsimp only [Spe.setCell]
@[simp] theorem Spe.setCell_pxQ : (p.setCell k v).pxQ = p.pxQ := by dsimp only [Spe.setCell]
@[simp] theorem Spe.setCell_atomicCmd : (p.setCell k v).atomicCmd = p.atomicCmd := by dsimp only [Spe.setCell]
@[simp] theorem Spe.setCell_orderNext : (p.setCell k v).orderNext = p.orderNext := by dsimp only [Spe.setCell]
@[simp] theorem Spe.setCell_snoops : (p.setCell k v).snoops = p.snoops := by dsimp only [Spe.setCell]
@[simp] theorem Spe.setCell_snoopQ : (p.setCell k v).snoopQ = p.snoopQ := by dsimp only [Spe.setCell]
@[simp] theorem Spe.setCell_resend : (p.setCell k v).resend = p.resend := by dsimp only [Spe.setCell]
@[simp] theorem Spe.setCell_atomicLate : (p.setCell k v).atomicLate = p.atomicLate := by dsimp only [Spe.setCell]
@[simp] theorem Spe.setCell_tagMask : (p.setCell k v).tagMask = p.tagMask := by dsimp only [Spe.setCell]
@[simp] theorem Spe.setCell_tagReq : (p.setCell k v).tagReq = p.tagReq := by dsimp only [Spe.setCell]
@[simp] theorem Spe.setCell_tagStat : (p.setCell k v).tagStat = p.tagStat := by dsimp only [Spe.setCell]
@[simp] theorem Spe.setCell_stallStat : (p.setCell k v).stallStat = p.stallStat := by dsimp only [Spe.setCell]
@[simp] theorem Spe.setCell_atomStat : (p.setCell k v).atomStat = p.atomStat := by dsimp only [Spe.setCell]
@[simp] theorem Spe.setCell_pxQueryMask : (p.setCell k v).pxQueryMask = p.pxQueryMask := by dsimp only [Spe.setCell]
@[simp] theorem Spe.setCell_pxQueryType : (p.setCell k v).pxQueryType = p.pxQueryType := by dsimp only [Spe.setCell]
@[simp] theorem Spe.setCell_llres : (p.setCell k v).llres = p.llres := by dsimp only [Spe.setCell]
@[simp] theorem Spe.setCell_msSync : (p.setCell k v).msSync = p.msSync := by dsimp only [Spe.setCell]
@[simp] theorem Spe.setCell_runCntl : (p.setCell k v).runCntl = p.runCntl := by dsimp only [Spe.setCell]
@[simp] theorem Spe.setCell_status : (p.setCell k v).status = p.status := by dsimp only [Spe.setCell]
@[simp] theorem Spe.setCell_npc : (p.setCell k v).npc = p.npc := by dsimp only [Spe.setCell]
@[simp] theorem Spe.setCell_privCntl : (p.setCell k v).privCntl = p.privCntl := by dsimp only [Spe.setCell]
@[simp] theorem Spe.setCell_chnlIndex : (p.setCell k v).chnlIndex = p.chnlIndex := by dsimp only [Spe.setCell]
@[simp] theorem Spe.setCell_chnlWalk : (p.setCell k v).chnlWalk = p.chnlWalk := by dsimp only [Spe.setCell]
@[simp] theorem Spe.setCell_cfg : (p.setCell k v).cfg = p.cfg := by dsimp only [Spe.setCell]
@[simp] theorem Spe.setCell_sc : (p.setCell k v).sc = p.sc := by dsimp only [Spe.setCell]
@[simp] theorem Spe.setCell_sm : (p.setCell k v).sm = p.sm := by dsimp only [Spe.setCell]
@[simp] theorem Spe.setCell_dh : (p.setCell k v).dh = p.dh := by dsimp only [Spe.setCell]
@[simp] theorem Spe.setCell_purged : (p.setCell k v).purged = p.purged := by dsimp only [Spe.setCell]
@[simp] theorem Spe.setCell_halted : (p.setCell k v).halted = p.halted := by dsimp only [Spe.setCell]
@[simp] theorem Spe.setCell_smmBusy : (p.setCell k v).smmBusy = p.smmBusy := by dsimp only [Spe.setCell]
@[simp] theorem Spe.setCell_dsiprLocked : (p.setCell k v).dsiprLocked = p.dsiprLocked := by dsimp only [Spe.setCell]
@[simp] theorem Spe.setCell_sr1 : (p.setCell k v).sr1 = p.sr1 := by dsimp only [Spe.setCell]
@[simp] theorem Spe.setCell_intMask : (p.setCell k v).intMask = p.intMask := by dsimp only [Spe.setCell]
@[simp] theorem Spe.setCell_intStat : (p.setCell k v).intStat = p.intStat := by dsimp only [Spe.setCell]
@[simp] theorem Spe.setCell_held : (p.setCell k v).held = p.held := by dsimp only [Spe.setCell]
@[simp] theorem Spe.setCell_slb : (p.setCell k v).slb = p.slb := by dsimp only [Spe.setCell]
@[simp] theorem Spe.setCell_slbIndex : (p.setCell k v).slbIndex = p.slbIndex := by dsimp only [Spe.setCell]
@[simp] theorem Spe.setCell_tlb : (p.setCell k v).tlb = p.tlb := by dsimp only [Spe.setCell]
@[simp] theorem Spe.setCell_tlbIndex : (p.setCell k v).tlbIndex = p.tlbIndex := by dsimp only [Spe.setCell]
@[simp] theorem Spe.setCell_tlbRpn : (p.setCell k v).tlbRpn = p.tlbRpn := by dsimp only [Spe.setCell]
@[simp] theorem Spe.setCell_tlbHint : (p.setCell k v).tlbHint = p.tlbHint := by dsimp only [Spe.setCell]

end

section
variable (p : Spe) (w : Bool)

@[simp] theorem Spe.waiting_regs : (p.waiting w).regs = p.regs := by dsimp only [Spe.waiting]
@[simp] theorem Spe.waiting_pc : (p.waiting w).pc = p.pc := by dsimp only [Spe.waiting]
@[simp] theorem Spe.waiting_fpscr : (p.waiting w).fpscr = p.fpscr := by dsimp only [Spe.waiting]
@[simp] theorem Spe.waiting_srr0 : (p.waiting w).srr0 = p.srr0 := by dsimp only [Spe.waiting]
@[simp] theorem Spe.waiting_srr0Old : (p.waiting w).srr0Old = p.srr0Old := by dsimp only [Spe.waiting]
@[simp] theorem Spe.waiting_ie : (p.waiting w).ie = p.ie := by dsimp only [Spe.waiting]
@[simp] theorem Spe.waiting_running : (p.waiting w).running = p.running := by dsimp only [Spe.waiting]
@[simp] theorem Spe.waiting_ls : (p.waiting w).ls = p.ls := by dsimp only [Spe.waiting]
@[simp] theorem Spe.waiting_lslr : (p.waiting w).lslr = p.lslr := by dsimp only [Spe.waiting]
@[simp] theorem Spe.waiting_ibuf : (p.waiting w).ibuf = p.ibuf := by dsimp only [Spe.waiting]
@[simp] theorem Spe.waiting_cnt : (p.waiting w).cnt = p.cnt := by dsimp only [Spe.waiting]
@[simp] theorem Spe.waiting_pend : (p.waiting w).pend = p.pend := by dsimp only [Spe.waiting]
@[simp] theorem Spe.waiting_emask : (p.waiting w).emask = p.emask := by dsimp only [Spe.waiting]
@[simp] theorem Spe.waiting_sdec : (p.waiting w).sdec = p.sdec := by dsimp only [Spe.waiting]
@[simp] theorem Spe.waiting_sdecRun : (p.waiting w).sdecRun = p.sdecRun := by dsimp only [Spe.waiting]
@[simp] theorem Spe.waiting_sig1 : (p.waiting w).sig1 = p.sig1 := by dsimp only [Spe.waiting]
@[simp] theorem Spe.waiting_sig2 : (p.waiting w).sig2 = p.sig2 := by dsimp only [Spe.waiting]
@[simp] theorem Spe.waiting_outMbox : (p.waiting w).outMbox = p.outMbox := by dsimp only [Spe.waiting]
@[simp] theorem Spe.waiting_outIntrMbox : (p.waiting w).outIntrMbox = p.outIntrMbox := by dsimp only [Spe.waiting]
@[simp] theorem Spe.waiting_inMbox : (p.waiting w).inMbox = p.inMbox := by dsimp only [Spe.waiting]
@[simp] theorem Spe.waiting_mfcLsa : (p.waiting w).mfcLsa = p.mfcLsa := by dsimp only [Spe.waiting]
@[simp] theorem Spe.waiting_mfcEah : (p.waiting w).mfcEah = p.mfcEah := by dsimp only [Spe.waiting]
@[simp] theorem Spe.waiting_mfcEal : (p.waiting w).mfcEal = p.mfcEal := by dsimp only [Spe.waiting]
@[simp] theorem Spe.waiting_mfcSize : (p.waiting w).mfcSize = p.mfcSize := by dsimp only [Spe.waiting]
@[simp] theorem Spe.waiting_mfcTag : (p.waiting w).mfcTag = p.mfcTag := by dsimp only [Spe.waiting]
@[simp] theorem Spe.waiting_pxLsa : (p.waiting w).pxLsa = p.pxLsa := by dsimp only [Spe.waiting]
@[simp] theorem Spe.waiting_pxEah : (p.waiting w).pxEah = p.pxEah := by dsimp only [Spe.waiting]
@[simp] theorem Spe.waiting_pxEal : (p.waiting w).pxEal = p.pxEal := by dsimp only [Spe.waiting]
@[simp] theorem Spe.waiting_pxSizeTag : (p.waiting w).pxSizeTag = p.pxSizeTag := by dsimp only [Spe.waiting]
@[simp] theorem Spe.waiting_pxCmd : (p.waiting w).pxCmd = p.pxCmd := by dsimp only [Spe.waiting]
@[simp] theorem Spe.waiting_pxSeen : (p.waiting w).pxSeen = p.pxSeen := by dsimp only [Spe.waiting]
@[simp] theorem Spe.waiting_spuQ : (p.waiting w).spuQ = p.spuQ := by dsimp only [Spe.waiting]
@[simp] theorem Spe.waiting_pxQ : (p.waiting w).pxQ = p.pxQ := by dsimp only [Spe.waiting]
@[simp] theorem Spe.waiting_atomicCmd : (p.waiting w).atomicCmd = p.atomicCmd := by dsimp only [Spe.waiting]
@[simp] theorem Spe.waiting_orderNext : (p.waiting w).orderNext = p.orderNext := by dsimp only [Spe.waiting]
@[simp] theorem Spe.waiting_snoops : (p.waiting w).snoops = p.snoops := by dsimp only [Spe.waiting]
@[simp] theorem Spe.waiting_snoopQ : (p.waiting w).snoopQ = p.snoopQ := by dsimp only [Spe.waiting]
@[simp] theorem Spe.waiting_resend : (p.waiting w).resend = p.resend := by dsimp only [Spe.waiting]
@[simp] theorem Spe.waiting_atomicLate : (p.waiting w).atomicLate = p.atomicLate := by dsimp only [Spe.waiting]
@[simp] theorem Spe.waiting_tagMask : (p.waiting w).tagMask = p.tagMask := by dsimp only [Spe.waiting]
@[simp] theorem Spe.waiting_tagReq : (p.waiting w).tagReq = p.tagReq := by dsimp only [Spe.waiting]
@[simp] theorem Spe.waiting_tagStat : (p.waiting w).tagStat = p.tagStat := by dsimp only [Spe.waiting]
@[simp] theorem Spe.waiting_stallStat : (p.waiting w).stallStat = p.stallStat := by dsimp only [Spe.waiting]
@[simp] theorem Spe.waiting_atomStat : (p.waiting w).atomStat = p.atomStat := by dsimp only [Spe.waiting]
@[simp] theorem Spe.waiting_pxQueryMask : (p.waiting w).pxQueryMask = p.pxQueryMask := by dsimp only [Spe.waiting]
@[simp] theorem Spe.waiting_pxQueryType : (p.waiting w).pxQueryType = p.pxQueryType := by dsimp only [Spe.waiting]
@[simp] theorem Spe.waiting_llres : (p.waiting w).llres = p.llres := by dsimp only [Spe.waiting]
@[simp] theorem Spe.waiting_msSync : (p.waiting w).msSync = p.msSync := by dsimp only [Spe.waiting]
@[simp] theorem Spe.waiting_runCntl : (p.waiting w).runCntl = p.runCntl := by dsimp only [Spe.waiting]
@[simp] theorem Spe.waiting_npc : (p.waiting w).npc = p.npc := by dsimp only [Spe.waiting]
@[simp] theorem Spe.waiting_privCntl : (p.waiting w).privCntl = p.privCntl := by dsimp only [Spe.waiting]
@[simp] theorem Spe.waiting_chnlIndex : (p.waiting w).chnlIndex = p.chnlIndex := by dsimp only [Spe.waiting]
@[simp] theorem Spe.waiting_chnlWalk : (p.waiting w).chnlWalk = p.chnlWalk := by dsimp only [Spe.waiting]
@[simp] theorem Spe.waiting_cfg : (p.waiting w).cfg = p.cfg := by dsimp only [Spe.waiting]
@[simp] theorem Spe.waiting_sc : (p.waiting w).sc = p.sc := by dsimp only [Spe.waiting]
@[simp] theorem Spe.waiting_sm : (p.waiting w).sm = p.sm := by dsimp only [Spe.waiting]
@[simp] theorem Spe.waiting_dh : (p.waiting w).dh = p.dh := by dsimp only [Spe.waiting]
@[simp] theorem Spe.waiting_purged : (p.waiting w).purged = p.purged := by dsimp only [Spe.waiting]
@[simp] theorem Spe.waiting_halted : (p.waiting w).halted = p.halted := by dsimp only [Spe.waiting]
@[simp] theorem Spe.waiting_smmBusy : (p.waiting w).smmBusy = p.smmBusy := by dsimp only [Spe.waiting]
@[simp] theorem Spe.waiting_dsiprLocked : (p.waiting w).dsiprLocked = p.dsiprLocked := by dsimp only [Spe.waiting]
@[simp] theorem Spe.waiting_sr1 : (p.waiting w).sr1 = p.sr1 := by dsimp only [Spe.waiting]
@[simp] theorem Spe.waiting_intMask : (p.waiting w).intMask = p.intMask := by dsimp only [Spe.waiting]
@[simp] theorem Spe.waiting_intStat : (p.waiting w).intStat = p.intStat := by dsimp only [Spe.waiting]
@[simp] theorem Spe.waiting_held : (p.waiting w).held = p.held := by dsimp only [Spe.waiting]
@[simp] theorem Spe.waiting_slb : (p.waiting w).slb = p.slb := by dsimp only [Spe.waiting]
@[simp] theorem Spe.waiting_slbIndex : (p.waiting w).slbIndex = p.slbIndex := by dsimp only [Spe.waiting]
@[simp] theorem Spe.waiting_tlb : (p.waiting w).tlb = p.tlb := by dsimp only [Spe.waiting]
@[simp] theorem Spe.waiting_tlbIndex : (p.waiting w).tlbIndex = p.tlbIndex := by dsimp only [Spe.waiting]
@[simp] theorem Spe.waiting_tlbRpn : (p.waiting w).tlbRpn = p.tlbRpn := by dsimp only [Spe.waiting]
@[simp] theorem Spe.waiting_tlbHint : (p.waiting w).tlbHint = p.tlbHint := by dsimp only [Spe.waiting]
@[simp] theorem Spe.waiting_cells : (p.waiting w).cells = p.cells := by dsimp only [Spe.waiting]

end

section
variable (s : State) (u : Fin 2) (f : Thread → Thread)

@[simp] theorem State.modT_ppe : (s.modT u f).ppe = s.ppe := by dsimp only [State.modT]
@[simp] theorem State.modT_spes : (s.modT u f).spes = s.spes := by dsimp only [State.modT]
@[simp] theorem State.modT_plat : (s.modT u f).plat = s.plat := by dsimp only [State.modT]
@[simp] theorem State.modT_mem : (s.modT u f).mem = s.mem := by dsimp only [State.modT]
@[simp] theorem State.modT_cfg : (s.modT u f).cfg = s.cfg := by dsimp only [State.modT]
@[simp] theorem State.modT_cur : (s.modT u f).cur = s.cur := by dsimp only [State.modT]
@[simp] theorem State.modT_sel : (s.modT u f).sel = s.sel := by dsimp only [State.modT]
@[simp] theorem State.modT_stopped : (s.modT u f).stopped = s.stopped := by dsimp only [State.modT]
@[simp] theorem State.modT_schedule : (s.modT u f).schedule = s.schedule := by dsimp only [State.modT]
@[simp] theorem State.modT_freeCount : (s.modT u f).freeCount = s.freeCount := by dsimp only [State.modT]

end

section
variable (s : State) (f : Thread → Thread)

@[simp] theorem State.modThr_ppe : (s.modThr f).ppe = s.ppe := by dsimp only [State.modThr,State.modT]
@[simp] theorem State.modThr_spes : (s.modThr f).spes = s.spes := by dsimp only [State.modThr,State.modT]
@[simp] theorem State.modThr_plat : (s.modThr f).plat = s.plat := by dsimp only [State.modThr,State.modT]
@[simp] theorem State.modThr_mem : (s.modThr f).mem = s.mem := by dsimp only [State.modThr,State.modT]
@[simp] theorem State.modThr_cfg : (s.modThr f).cfg = s.cfg := by dsimp only [State.modThr,State.modT]
@[simp] theorem State.modThr_cur : (s.modThr f).cur = s.cur := by dsimp only [State.modThr,State.modT]
@[simp] theorem State.modThr_sel : (s.modThr f).sel = s.sel := by dsimp only [State.modThr,State.modT]
@[simp] theorem State.modThr_stopped : (s.modThr f).stopped = s.stopped := by dsimp only [State.modThr,State.modT]
@[simp] theorem State.modThr_schedule : (s.modThr f).schedule = s.schedule := by dsimp only [State.modThr,State.modT]
@[simp] theorem State.modThr_freeCount : (s.modThr f).freeCount = s.freeCount := by dsimp only [State.modThr,State.modT]

end

section
variable (s : State) (n : Fin 8) (f : Spe → Spe)

@[simp] theorem State.modN_threads : (s.modN n f).threads = s.threads := by dsimp only [State.modN]
@[simp] theorem State.modN_ppe : (s.modN n f).ppe = s.ppe := by dsimp only [State.modN]
@[simp] theorem State.modN_plat : (s.modN n f).plat = s.plat := by dsimp only [State.modN]
@[simp] theorem State.modN_mem : (s.modN n f).mem = s.mem := by dsimp only [State.modN]
@[simp] theorem State.modN_cfg : (s.modN n f).cfg = s.cfg := by dsimp only [State.modN]
@[simp] theorem State.modN_cur : (s.modN n f).cur = s.cur := by dsimp only [State.modN]
@[simp] theorem State.modN_sel : (s.modN n f).sel = s.sel := by dsimp only [State.modN]
@[simp] theorem State.modN_stopped : (s.modN n f).stopped = s.stopped := by dsimp only [State.modN]
@[simp] theorem State.modN_schedule : (s.modN n f).schedule = s.schedule := by dsimp only [State.modN]
@[simp] theorem State.modN_freeCount : (s.modN n f).freeCount = s.freeCount := by dsimp only [State.modN]

end

section
variable (s : State) (f : Spe → Spe)

@[simp] theorem State.modSpe_threads : (s.modSpe f).threads = s.threads := by dsimp only [State.modSpe,State.modN]
@[simp] theorem State.modSpe_ppe : (s.modSpe f).ppe = s.ppe := by dsimp only [State.modSpe,State.modN]
@[simp] theorem State.modSpe_plat : (s.modSpe f).plat = s.plat := by dsimp only [State.modSpe,State.modN]
@[simp] theorem State.modSpe_mem : (s.modSpe f).mem = s.mem := by dsimp only [State.modSpe,State.modN]
@[simp] theorem State.modSpe_cfg : (s.modSpe f).cfg = s.cfg := by dsimp only [State.modSpe,State.modN]
@[simp] theorem State.modSpe_cur : (s.modSpe f).cur = s.cur := by dsimp only [State.modSpe,State.modN]
@[simp] theorem State.modSpe_sel : (s.modSpe f).sel = s.sel := by dsimp only [State.modSpe,State.modN]
@[simp] theorem State.modSpe_stopped : (s.modSpe f).stopped = s.stopped := by dsimp only [State.modSpe,State.modN]
@[simp] theorem State.modSpe_schedule : (s.modSpe f).schedule = s.schedule := by dsimp only [State.modSpe,State.modN]
@[simp] theorem State.modSpe_freeCount : (s.modSpe f).freeCount = s.freeCount := by dsimp only [State.modSpe,State.modN]

end

section
variable (s : State) (k : Nat)

@[simp] theorem State.drew_threads : (s.drew k).threads = s.threads := by dsimp only [State.drew]
@[simp] theorem State.drew_ppe : (s.drew k).ppe = s.ppe := by dsimp only [State.drew]
@[simp] theorem State.drew_spes : (s.drew k).spes = s.spes := by dsimp only [State.drew]
@[simp] theorem State.drew_plat : (s.drew k).plat = s.plat := by dsimp only [State.drew]
@[simp] theorem State.drew_mem : (s.drew k).mem = s.mem := by dsimp only [State.drew]
@[simp] theorem State.drew_cfg : (s.drew k).cfg = s.cfg := by dsimp only [State.drew]
@[simp] theorem State.drew_cur : (s.drew k).cur = s.cur := by dsimp only [State.drew]
@[simp] theorem State.drew_sel : (s.drew k).sel = s.sel := by dsimp only [State.drew]
@[simp] theorem State.drew_stopped : (s.drew k).stopped = s.stopped := by dsimp only [State.drew]
@[simp] theorem State.drew_schedule : (s.drew k).schedule = s.schedule := by dsimp only [State.drew]

end

end Sys2Proof.Machine
end

