-- ==== Sys2Proof/Laws/Registers.lean ====
section
/-! SUPPORT. Reading a register after a write, the moving thread or SPE after an update, and what the other ones keep. -/

namespace Sys2Proof.Machine

/-! ## Registers of a thread -/

section
variable (th : Thread) (r q : BitVec 5)

theorem Thread.getGpr_setGpr (v : DWord) : (th.setGpr r v).getGpr q = if r = q then v else th.getGpr q := by
  simp only [Thread.getGpr, Thread.setGpr, Vector.getElem_set, BitVec.toNat_inj]

@[simp] theorem Thread.getGpr_setGpr_same (v : DWord) : (th.setGpr r v).getGpr r = v := by
  simp [Thread.getGpr_setGpr]

@[simp] theorem Thread.getGpr_setFpr (v : DWord) : (th.setFpr r v).getGpr q = th.getGpr q := rfl
@[simp] theorem Thread.getGpr_setVr (v : QWord) : (th.setVr r v).getGpr q = th.getGpr q := rfl
@[simp] theorem Thread.getGpr_setCa (c : Bool) : (th.setCa c).getGpr q = th.getGpr q := rfl
@[simp] theorem Thread.getGpr_setOv (c : Bool) : (th.setOv c).getGpr q = th.getGpr q := rfl
@[simp] theorem Thread.getGpr_setCrField (k : BitVec 3) (v : BitVec 4) : (th.setCrField k v).getGpr q = th.getGpr q := rfl
@[simp] theorem Thread.getGpr_setCrBit (k : BitVec 5) (b : Bool) : (th.setCrBit k b).getGpr q = th.getGpr q := rfl
@[simp] theorem Thread.getGpr_advance : th.advance.getGpr q = th.getGpr q := rfl

theorem Thread.getFpr_setFpr (v : DWord) : (th.setFpr r v).getFpr q = if r = q then v else th.getFpr q := by
  simp only [Thread.getFpr, Thread.setFpr, Vector.getElem_set, BitVec.toNat_inj]

@[simp] theorem Thread.getFpr_setFpr_same (v : DWord) : (th.setFpr r v).getFpr r = v := by
  simp [Thread.getFpr_setFpr]

@[simp] theorem Thread.getFpr_setGpr (v : DWord) : (th.setGpr r v).getFpr q = th.getFpr q := rfl
@[simp] theorem Thread.getFpr_advance : th.advance.getFpr q = th.getFpr q := rfl

theorem Thread.getVr_setVr (v : QWord) : (th.setVr r v).getVr q = if r = q then v else th.getVr q := by
  simp only [Thread.getVr, Thread.setVr, Vector.getElem_set, BitVec.toNat_inj]

@[simp] theorem Thread.getVr_setVr_same (v : QWord) : (th.setVr r v).getVr r = v := by
  simp [Thread.getVr_setVr]

@[simp] theorem Thread.getVr_advance : th.advance.getVr q = th.getVr q := rfl

end

/-! ## Registers of an SPE -/

section
variable (p : Spe) (r q : BitVec 7)

theorem Spe.get_set (v : QWord) : (p.set r v).get q = if r = q then v else p.get q := by
  simp only [Spe.get, Spe.set, Vector.getElem_set, BitVec.toNat_inj]

@[simp] theorem Spe.get_set_same (v : QWord) : (p.set r v).get r = v := by
  simp [Spe.get_set]

@[simp] theorem Spe.get_advance : p.advance.get q = p.get q := rfl

end

/-! ## Whose registers change -/

section
variable (s : State)

@[simp] theorem State.curT_modT (u : Fin 2) (f : Thread → Thread) : (s.modT u f).curT = s.curT := rfl
@[simp] theorem State.curT_modThr (f : Thread → Thread) : (s.modThr f).curT = s.curT := rfl
@[simp] theorem State.curT_drew (k : Nat) : (s.drew k).curT = s.curT := rfl
@[simp] theorem State.thr_drew (k : Nat) : (s.drew k).thr = s.thr := rfl

theorem State.threads_modT (u v : Fin 2) (f : Thread → Thread) :
    (s.modT u f).threads[v] = if u = v then f s.threads[u] else s.threads[v] := by
  simp only [State.modT, Fin.getElem_fin, Vector.getElem_set, Fin.val_inj]

@[simp] theorem State.thr_modThr (f : Thread → Thread) : (s.modThr f).thr = f s.thr :=
  (State.threads_modT s s.curT s.curT f).trans (if_pos rfl)

theorem State.threads_modThr_other (f : Thread → Thread) (v : Fin 2) (h : v ≠ s.curT) :
    (s.modThr f).threads[v] = s.threads[v] := by
  rw [State.modThr, State.threads_modT, if_neg (Ne.symm h)]

@[simp] theorem State.curN_modN (n : Fin 8) (f : Spe → Spe) : (s.modN n f).curN = s.curN := rfl
@[simp] theorem State.curN_modSpe (f : Spe → Spe) : (s.modSpe f).curN = s.curN := rfl
@[simp] theorem State.curN_drew (k : Nat) : (s.drew k).curN = s.curN := rfl
@[simp] theorem State.spe_drew (k : Nat) : (s.drew k).spe = s.spe := rfl

theorem State.spes_modN (n m : Fin 8) (f : Spe → Spe) :
    (s.modN n f).spes[m] = if n = m then f s.spes[n] else s.spes[m] := by
  simp only [State.modN, Fin.getElem_fin, Vector.getElem_set, Fin.val_inj]

@[simp] theorem State.spe_modSpe (f : Spe → Spe) : (s.modSpe f).spe = f s.spe :=
  (State.spes_modN s s.curN s.curN f).trans (if_pos rfl)

theorem State.spes_modSpe_other (f : Spe → Spe) (m : Fin 8) (h : m ≠ s.curN) :
    (s.modSpe f).spes[m] = s.spes[m] := by
  rw [State.modSpe, State.spes_modN, if_neg (Ne.symm h)]

end

/-! ## What the shared ends of an instruction do -/

/-- `ppeNext` always answers a next state: the registers as `f` gives them, at the next address. -/
theorem ppeNext_eq (s : State) (f : Thread → Thread) :
    ∃ t, ppeNext s f = .next t ∧ t.thr = (f s.thr).advance ∧ (∀ v, v ≠ s.curT → t.threads[v] = s.threads[v]) ∧
      { t with threads := s.threads } = s :=
  ⟨_, rfl, by simp, fun v h => State.threads_modThr_other s _ v h, rfl⟩

/-- `spuNext` always answers a next state. -/
theorem spuNext_eq (s : State) (f : Spe → Spe) :
    ∃ t, spuNext s f = .next t ∧ t.spe = (f s.spe).advance ∧ (∀ n, n ≠ s.curN → t.spes[n] = s.spes[n]) ∧
      { t with spes := s.spes } = s :=
  ⟨_, rfl, by simp, fun n h => State.spes_modSpe_other s _ n h, rfl⟩

/-- `vmxNext` is `ppeNext` with the vector unit available, and the VXU unavailable interrupt without it. -/
theorem vmxNext_cases (s : State) (f : Thread → Thread) :
    (ibit s.thr.msr 38 = true ∧ vmxNext s f = ppeNext s f) ∨ (ibit s.thr.msr 38 = false ∧ vmxNext s f = s.vxuUnavailable) := by
  unfold vmxNext
  cases ibit s.thr.msr 38 <;> simp

/-- What `Res.done` answers. -/
@[simp] theorem Res.done_ok {α : Type} (v : α) (s : State) (f : α → State → Out State) : (Res.ok v s).done f = f v s := rfl
@[simp] theorem Res.done_stop {α : Type} (o : Out State) (f : α → State → Out State) : (Res.stop o).done f = o := rfl
@[simp] theorem Res.bind_ok {α β : Type} (v : α) (s : State) (f : α → State → Res β) : (Res.ok v s).bind f = f v s := rfl
@[simp] theorem Res.bind_stop {α β : Type} (o : Out State) (f : α → State → Res β) : (Res.stop o).bind f = .stop o := rfl

/-- An interrupt changes nothing but the registers of the thread that takes it. -/
theorem State.interrupt_frame (s : State) (t : Fin 2) (k : Interrupt) (ret info : DWord) :
    { s.interrupt t k ret info with threads := s.threads } = s := rfl

theorem State.interrupt_other (s : State) (t v : Fin 2) (k : Interrupt) (ret info : DWord) (h : v ≠ t) :
    (s.interrupt t k ret info).threads[v] = s.threads[v] := by
  rw [State.interrupt, State.threads_modT, if_neg (Ne.symm h)]

end Sys2Proof.Machine
end

