-- ==== Sys2Proof/Laws/FixedPoint.lean ====
section
/-! SUPPORT. The fixed-point instructions: what the form that most of them share does to the registers, in the terms of Safety.lean. -/

namespace Sys2Proof.Laws

open Sys2Proof.Machine Sys2Proof.Safety

/-- The next address of a thread. -/
theorem following_advance (th : Thread) : th.advance.pc = following th := by
  unfold Thread.advance following
  simp only
  split
  · rfl
  · apply BitVec.eq_of_toNat_eq
    rw [BitVec.toNat_and]
    simp only [BitVec.toNat_setWidth]
    rw [show (0xFFFFFFFF#64).toNat = 2^32-1 from rfl, Nat.and_two_pow_sub_one_eq_mod]
    omega

/-- An instruction that draws `k` free values, changes registers within `w` and goes on, completes. -/
theorem completes_of_ppeNext {i : Instr} {s : State} {w : Writes} {P : State → Prop} (k : Nat) (f : Thread → Thread)
    (he : Machine.exec i s = ppeNext (s.drew k) f)
    (hk : Keeps w s.thr (f s.thr)) (hm : (f s.thr).msr = s.thr.msr) (hpc : (f s.thr).pc = s.thr.pc)
    (hP : ∀ t : State, t.thr = (f s.thr).advance → P t) : Completes i s w P := by
  refine ⟨(s.drew k).modThr fun th => (f th).advance, by rw [he]; rfl, ?_, ?_, ?_, ?_⟩
  · refine ⟨rfl, ?_, fun _ => rfl, fun _ _ => rfl⟩
    intro u hu
    exact (State.threads_modThr_other (s.drew k) _ u hu)
  · rw [State.thr_modThr]
    obtain ⟨h1, h2, h3, h4, h5, h6, h7, h8, h9, h10, h11⟩ := hk
    refine ⟨h1, h2, h3, h4, h5, h6, h7, h8, h9, h10, ?_⟩
    simpa [Thread.advance] using h11
  · rw [State.thr_modThr, following_advance]
    simp [following, hm, hpc]
  · apply hP; rw [State.thr_modThr]; rfl

/-- The bits of a CR field that is written. -/
theorem ibit_setIbm4 (w : Word) (v : BitVec 4) (k : BitVec 3) (j : Nat) (hj : j < 4) :
    ibit (setIbm w (4 * k.toNat) v) (4 * k.toNat + j) = ibit v j := by
  have := k.isLt
  unfold ibit
  rw [getLsbD_setIbm, if_pos (by omega)]
  congr 1; omega

/-- The other fields of CR keep their bits. -/
theorem setCr_out (w : Word) (v : BitVec 4) (k : BitVec 3) :
    setIbm w (4 * k.toNat) v &&& ~~~(crFieldMask k) = w &&& ~~~(crFieldMask k) := by
  have := k.isLt
  apply BitVec.eq_of_getLsbD_eq
  intro i hi
  simp only [BitVec.getLsbD_and, BitVec.getLsbD_not, getLsbD_setIbm, crFieldMask]
  split
  · next h' =>
    have hm : (0xF0000000#32 >>> (4 * k.toNat)).getLsbD i = true := by
      rw [BitVec.getLsbD_ushiftRight]
      have : 4 * k.toNat + i = 28 ∨ 4 * k.toNat + i = 29 ∨ 4 * k.toNat + i = 30 ∨ 4 * k.toNat + i = 31 := by omega
      rcases this with h | h | h | h <;> rw [h] <;> rfl
    simp only [hm, Bool.not_true, Bool.and_false]
  · rfl

/-- The four bits of a CR field. -/
theorem nibble_bits (a b c d : Bool) : ibit (nibble a b c d) 0 = a ∧ ibit (nibble a b c d) 1 = b ∧ ibit (nibble a b c d) 2 = c ∧ ibit (nibble a b c d) 3 = d := by
  cases a <;> cases b <;> cases c <;> cases d <;> decide

/-- The signed value in the low `m` bits. -/
theorem signed_eq (m : Nat) (hm : 0 < m) (x : DWord) : signedLow m x = signedPart m x := by
  unfold signedLow signedPart
  rw [BitVec.toInt_eq_toNat_cond]
  simp only [BitVec.toNat_setWidth]
  obtain ⟨n, rfl⟩ : ∃ n, m = n + 1 := ⟨m - 1, by omega⟩
  have h2 : (2 : Nat)^(n + 1) = 2 * 2^n := by rw [Nat.pow_succ]; omega
  have h3 : (2 : Int)^(n + 1) = 2 * 2^n := by rw [pow_succ]; omega
  have h4 : ((2^n : Nat) : Int) = (2 : Int)^n := by push_cast; rfl
  have h5 : ((x.toNat % (2 * 2^n) : Nat) : Int) = (x.toNat : Int) % (2 * (2 : Int)^n) := by push_cast; rfl
  simp only [Nat.add_sub_cancel, h2, h3, ← h5]
  push_cast [h4]
  split <;> split <;> omega

/-- The width of the mode. -/
theorem width_pos (th : Thread) : 0 < th.width := by unfold Thread.width; split <;> omega

/-- A record form records. -/
theorem recorded (th : Thread) (r : DWord) : Recorded (th.recordCr0 r) r := by
  have hw : (th.recordCr0 r).width = th.width := rfl
  have hx : (th.recordCr0 r).xer = th.xer := rfl
  have hc : (th.recordCr0 r).cr = setIbm th.cr (4 * (0#3).toNat) (compareBits (signedLow th.width r) 0 th.so) := rfl
  have nb := nibble_bits (signedLow th.width r < 0) (0 < signedLow th.width r) (signedLow th.width r = 0) th.so
  constructor <;> rw [hc]
  · refine (ibit_setIbm4 _ _ 0#3 0 (by omega)).trans ?_
    rw [hw, ← signed_eq _ (width_pos th)]
    exact nb.1
  · refine (ibit_setIbm4 _ _ 0#3 1 (by omega)).trans ?_
    rw [hw, ← signed_eq _ (width_pos th)]
    exact nb.2.1
  · refine (ibit_setIbm4 _ _ 0#3 2 (by omega)).trans ?_
    rw [hw, ← signed_eq _ (width_pos th)]
    exact nb.2.2.1
  · refine (ibit_setIbm4 _ _ 0#3 3 (by omega)).trans ?_
    rw [hx]
    exact nb.2.2.2

/-- The general form: a value, and CA, OV and SO, CR0 where the instruction sets them. -/
def arith (rt : BitVec 5) (r : DWord) (ca ov : Option Bool) (rec : Bool) (th : Thread) : Thread :=
  let t1 := th.setGpr rt r
  let t2 := match ca with | some c => t1.setCa c | none => t1
  let t3 := match ov with | some o => t2.setOv o | none => t2
  t3.recordIf rec r

/-- Moving on keeps what is recorded. -/
theorem recorded_advance (th : Thread) (r : DWord) (h : Recorded th r) : Recorded th.advance r := by
  obtain ⟨a, b, c, d⟩ := h
  exact ⟨a, b, c, d⟩

/-- The general form changes its destination, CA, OV, SO and CR0. -/
theorem arith_keeps (x : ArithFx) (th : Thread) : Keeps x.writes th (arith x.dst x.val x.ca x.ov x.cr0 th) := by
  obtain ⟨dst, val, ca, ov, rec⟩ := x
  have hg : (arith dst val ca ov rec th).gpr = (th.setGpr dst val).gpr := by
    cases ca <;> cases ov <;> cases rec <;> rfl
  refine ⟨?_, ?_, ?_, ?_, ?_, ?_, ?_, ?_, ?_, ?_, ?_⟩
  · intro r hr
    have hr : r ≠ dst := by simpa [ArithFx.writes] using hr
    have : (arith dst val ca ov rec th).getGpr r = (th.setGpr dst val).getGpr r := by
      unfold Thread.getGpr; rw [hg]
    rw [this, Thread.getGpr_setGpr, if_neg (Ne.symm hr)]
  · intro r _; cases ca <;> cases ov <;> cases rec <;> rfl
  · intro r _; cases ca <;> cases ov <;> cases rec <;> rfl
  · have hca : ∀ (x : DWord) c, setIbit x 34 c &&& ~~~caMask = x &&& ~~~caMask := fun x c => setIbit_outside x _ 34 c (by decide)
    have hov : ∀ (x : DWord) c d, setIbit (setIbit x 33 c) 32 d &&& ~~~ovMask = x &&& ~~~ovMask := fun x c d => by
      rw [setIbit_outside _ _ 32 d (by decide), setIbit_outside _ _ 33 c (by decide)]
    have hcaov : ∀ (x : DWord) b c d, setIbit (setIbit (setIbit x 34 b) 33 c) 32 d &&& ~~~(caMask ||| ovMask) = x &&& ~~~(caMask ||| ovMask) := fun x b c d => by
      rw [setIbit_outside _ _ 32 d (by decide), setIbit_outside _ _ 33 c (by decide), setIbit_outside _ _ 34 b (by decide)]
    cases ca <;> cases ov <;> cases rec <;>
      simp [arith, ArithFx.writes, Thread.recordIf, Thread.recordCr0, Thread.setCa, Thread.setOv, hca, hov, hcaov]
  · cases rec
    · cases ca <;> cases ov <;> rfl
    · have : (arith dst val ca ov true th).cr = setIbm th.cr (4 * (0#3).toNat) (compareBits (signedLow th.width val) 0 (ibit (arith dst val ca ov true th).xer 32)) := by
        cases ca <;> cases ov <;> rfl
      rw [this]
      exact setCr_out _ _ 0#3
  · cases ca <;> cases ov <;> cases rec <;> rfl
  · cases ca <;> cases ov <;> cases rec <;> rfl
  · intro _; cases ca <;> cases ov <;> cases rec <;> rfl
  · intro _; cases ca <;> cases ov <;> cases rec <;> rfl
  · intro _; cases ca <;> cases ov <;> cases rec <;> rfl
  · cases ca <;> cases ov <;> cases rec <;> rfl

/-- The general form delivers its value and its flags. -/
theorem arith_delivers (x : ArithFx) (s t : State) (h : t.thr = (arith x.dst x.val x.ca x.ov x.cr0 s.thr).advance) : Delivers x s t := by
  obtain ⟨dst, val, ca, ov, rec⟩ := x
  refine ⟨?_, ?_, ?_, ?_⟩
  · rw [h]; 
    have hg : (arith dst val ca ov rec s.thr).gpr = (s.thr.setGpr dst val).gpr := by
      cases ca <;> cases ov <;> cases rec <;> rfl
    show (arith dst val ca ov rec s.thr).getGpr dst = val
    unfold Thread.getGpr; simp only [hg]
    exact Thread.getGpr_setGpr_same _ _ _
  · intro c hc
    simp only at hc; subst hc
    rw [h]
    cases ov <;> cases rec <;> simp [arith, Thread.recordIf, Thread.recordCr0, Thread.setCa, Thread.setOv, Thread.advance, ibit_setIbit]
  · intro o ho
    simp only at ho; subst ho
    rw [h]
    cases ca <;> cases rec <;> simp [arith, Thread.recordIf, Thread.recordCr0, Thread.setCa, Thread.setOv, Thread.advance, ibit_setIbit, Thread.so]
  · intro hr
    simp only at hr; subst hr
    rw [h]
    apply recorded_advance
    exact recorded _ _

/-- An instruction of the general form completes with its effect. -/
theorem completes_arith {i : Instr} {s : State} (x : ArithFx) (f : Thread → Thread)
    (he : Machine.exec i s = ppeNext s f) (hf : f s.thr = arith x.dst x.val x.ca x.ov x.cr0 s.thr) : Completes i s x.writes (Delivers x s) := by
  have hm : (arith x.dst x.val x.ca x.ov x.cr0 s.thr).msr = s.thr.msr := by
    obtain ⟨dst, val, ca, ov, rec⟩ := x
    cases ca <;> cases ov <;> cases rec <;> rfl
  have hp : (arith x.dst x.val x.ca x.ov x.cr0 s.thr).pc = s.thr.pc := by
    obtain ⟨dst, val, ca, ov, rec⟩ := x
    cases ca <;> cases ov <;> cases rec <;> rfl
  refine completes_of_ppeNext 0 f (by rw [he]; rfl) (by rw [hf]; exact arith_keeps x s.thr) (by rw [hf]; exact hm) (by rw [hf]; exact hp) ?_
  intro t ht; rw [hf] at ht; exact arith_delivers x s t ht

/-- Overflow: the exact sum is out of range if and only if the carries into and out of the sign bit differ. -/
theorem overflow_eq (th : Thread) (x y : DWord) (c : Bool) : overflowOut th.width x y c = overflow th.width x y c := by
  unfold overflowOut overflow carry
  have hw := width_pos th
  rw [signed_eq _ hw, signed_eq _ hw]
  unfold signedPart
  unfold Thread.width
  have key : ∀ M H a b c : Nat, M = 2 * H → 0 < H → a < M → b < M → c ≤ 1 → ∀ (A B : Int),
     A = (if a < H then (a:Int) else a - M) → B = (if b < H then (b:Int) else b - M) →
     ((A + B + c < -(H:Int) ∨ (H:Int) ≤ A + B + c) ↔ ¬ ((H ≤ a % H + b % H + c) ↔ (M ≤ a + b + c))) := by
    intro M H a b c hM hH ha hb hc A B hA hB
    have h1 : a % H = if a < H then a else a - H := by
      split
      · exact Nat.mod_eq_of_lt ‹_›
      · rw [Nat.mod_eq_sub_mod (by omega), Nat.mod_eq_of_lt (by omega)]
    have h2 : b % H = if b < H then b else b - H := by
      split
      · exact Nat.mod_eq_of_lt ‹_›
      · rw [Nat.mod_eq_sub_mod (by omega), Nat.mod_eq_of_lt (by omega)]
    rw [h1, h2, hA, hB]
    split <;> split <;> omega
  have hc : c.toNat ≤ 1 := by cases c <;> decide
  split
  · have := key (2^64) (2^63) (x.toNat % 2^64) (y.toNat % 2^64) c.toNat (by norm_num) (by norm_num) (Nat.mod_lt _ (by norm_num)) (Nat.mod_lt _ (by norm_num)) hc _ _ rfl rfl
    simp only [Nat.mod_mod_of_dvd _ (show 2^63 ∣ 2^64 by norm_num)] at this
    push_cast at this
    rw [Bool.eq_iff_iff]
    simp only [Nat.add_one_sub_one, Bool.or_eq_true, decide_eq_true_eq, bne_iff_ne, ne_eq, decide_eq_decide]
    exact this
  · have := key (2^32) (2^31) (x.toNat % 2^32) (y.toNat % 2^32) c.toNat (by norm_num) (by norm_num) (Nat.mod_lt _ (by norm_num)) (Nat.mod_lt _ (by norm_num)) hc _ _ rfl rfl
    simp only [Nat.mod_mod_of_dvd _ (show 2^31 ∣ 2^32 by norm_num)] at this
    push_cast at this
    rw [Bool.eq_iff_iff]
    simp only [Nat.add_one_sub_one, Bool.or_eq_true, decide_eq_true_eq, bne_iff_ne, ne_eq, decide_eq_decide]
    exact this

/-- The additions are of the general form. -/
theorem addForm_eq (rt : BitVec 5) (x y : DWord) (c setCa oe rec : Bool) (th : Thread) :
    addForm rt x y c setCa oe rec th =
      arith (sumFx rt x y c setCa oe rec th).dst (sumFx rt x y c setCa oe rec th).val (sumFx rt x y c setCa oe rec th).ca
        (sumFx rt x y c setCa oe rec th).ov (sumFx rt x y c setCa oe rec th).cr0 th := by
  unfold addForm arith sumFx
  have ho := overflow_eq th x y c
  have hv : x + y + BitVec.ofNat 64 c.toNat = x + y + (c.toNat : DWord) := rfl
  cases setCa <;> cases oe <;> simp [ho, carryOut, carry]

end Sys2Proof.Laws
end

