-- ==== Sys2Proof/Laws/Memory.lean ====
section
/-! SUPPORT. Sparse storage: reading after writing, and every write keeps the canonical form. -/

namespace Sys2Proof.Machine

section
variable {α : Type} [DecidableEq α] (d : α)

/-- A key below all keys of a canonical list reads as the default. -/
theorem sget_below (l : List (Nat × α)) : ∀ (b k : Nat), swfFrom d b l = true → k < b → sget d l k = d := by
  cases l with
  | nil => intros; rfl
  | cons x rest =>
    obtain ⟨j, v⟩ := x
    intro b k h hk
    simp only [swfFrom, Bool.and_eq_true, decide_eq_true_eq] at h
    have hne : j ≠ k := by omega
    have hlt : k < j := by omega
    simp [sget, hne, hlt]

/-- Weakening of the bound. -/
theorem swfFrom_mono (l : List (Nat × α)) (b c : Nat) (h : swfFrom d b l = true) (hc : c ≤ b) : swfFrom d c l = true := by
  cases l with
  | nil => rfl
  | cons x rest =>
    obtain ⟨j, v⟩ := x
    simp only [swfFrom, Bool.and_eq_true, decide_eq_true_eq] at h ⊢
    exact ⟨⟨by omega, h.1.2⟩, h.2⟩

/-- Reading after storing, in a canonical list. -/
theorem sget_sput (l : List (Nat × α)) (k : Nat) (v : α) (q : Nat) :
    ∀ b, swfFrom d b l = true → sget d (sput d l k v) q = if q = k then v else sget d l q := by
  induction l with
  | nil =>
    intro b _
    by_cases hv : v = d
    · subst hv; simp [sput, sget]
    · by_cases hq : q = k
      · subst hq; simp [sput, sget, hv]
      · simp [sput, sget, hv, hq, Ne.symm hq]
  | cons x rest ih =>
    obtain ⟨j, u⟩ := x
    intro b h
    have h' := h
    simp only [swfFrom, Bool.and_eq_true, decide_eq_true_eq] at h'
    have hr := h'.2
    rcases Nat.lt_trichotomy k j with hkj | hkj | hkj
    · by_cases hv : v = d
      · subst hv
        simp only [sput, hkj, if_true]
        split
        · next hq => subst hq; simp [sget, hkj, Nat.ne_of_gt hkj]
        · rfl
      · simp only [sput, hkj, if_true, hv, if_false]
        by_cases hq : q = k
        · subst hq; simp [sget]
        · simp only [sget, Ne.symm hq, if_false, hq]
          split
          · next hlt => simp [Nat.ne_of_gt (Nat.lt_trans hlt hkj), Nat.lt_trans hlt hkj]
          · rfl
    · subst hkj
      by_cases hv : v = d
      · subst hv
        simp only [sput, Nat.lt_irrefl, if_false, if_true]
        by_cases hq : q = k
        · subst hq; simpa using sget_below v rest (q + 1) q hr (by omega)
        · simp only [sget, Ne.symm hq, if_false, hq]
          split
          · next hlt => exact sget_below v rest (k + 1) q hr (by omega)
          · rfl
      · simp only [sput, Nat.lt_irrefl, if_false, if_true, hv]
        by_cases hq : q = k
        · subst hq; simp [sget]
        · simp [sget, Ne.symm hq, hq]
    · simp only [sput, Nat.not_lt.mpr (Nat.le_of_lt hkj), if_false, Nat.ne_of_gt hkj]
      by_cases hq : q = j
      · subst hq; simp [sget, Nat.ne_of_lt hkj]
      · simp only [sget, Ne.symm hq, if_false]
        rw [ih (j + 1) hr]
        split
        · next hlt => simp [Nat.ne_of_lt (Nat.lt_trans hlt hkj)]
        · rfl

/-- A store keeps the canonical form. -/
theorem swfFrom_sput (l : List (Nat × α)) (k : Nat) (v : α) :
    ∀ b, swfFrom d b l = true → b ≤ k → swfFrom d b (sput d l k v) = true := by
  induction l with
  | nil =>
    intro b _ hb
    by_cases hv : v = d <;> simp [sput, swfFrom, hv, hb]
  | cons x rest ih =>
    obtain ⟨j, u⟩ := x
    intro b h hb
    have h' := h
    simp only [swfFrom, Bool.and_eq_true, decide_eq_true_eq] at h'
    rcases Nat.lt_trichotomy k j with hkj | hkj | hkj
    · by_cases hv : v = d
      · simp only [sput, hkj, if_true, hv]; exact h
      · simp only [sput, hkj, if_true, hv, if_false, swfFrom, Bool.and_eq_true, decide_eq_true_eq]
        exact ⟨⟨hb, by simp⟩, ⟨by omega, h'.1.2⟩, h'.2⟩
    · subst hkj
      by_cases hv : v = d
      · simp only [sput, Nat.lt_irrefl, if_false, if_true, hv]
        exact swfFrom_mono d rest (k + 1) b h'.2 (by omega)
      · simp only [sput, Nat.lt_irrefl, if_false, if_true, hv, swfFrom, Bool.and_eq_true, decide_eq_true_eq]
        exact ⟨⟨hb, by simp⟩, h'.2⟩
    · simp only [sput, Nat.not_lt.mpr (Nat.le_of_lt hkj), if_false, Nat.ne_of_gt hkj, swfFrom, Bool.and_eq_true, decide_eq_true_eq]
      exact ⟨h'.1, ih (j + 1) h'.2 hkj⟩

/-- A store keeps the canonical form. -/
theorem swf_sput (l : List (Nat × α)) (k : Nat) (v : α) (h : swf d l = true) : swf d (sput d l k v) = true :=
  swfFrom_sput d l k v 0 h (Nat.zero_le k)

end

/-! ## Bytes -/

/-- The empty memory is canonical. -/
theorem Memory.wf_nil : Memory.wf [] = true := rfl

/-- A byte store keeps the canonical form. -/
theorem Memory.wf_writeByte (m : List Host.Cell) (a : Nat) (b : Byte) (h : Memory.wf m = true) : Memory.wf (writeByte m a b) = true :=
  swf_sput unwritten m a b h

/-- Every store of bytes keeps the canonical form. -/
theorem Memory.wf_writeBytes (m : List Host.Cell) (a v k : Nat) (h : Memory.wf m = true) :
    Memory.wf (writeBytes m a v k) = true := by
  induction k generalizing v with
  | zero => exact h
  | succ k ih => exact Memory.wf_writeByte _ _ _ (ih _)

/-- Reading a byte after a byte store. -/
theorem readByte_writeByte (m : List Host.Cell) (a q : Nat) (b : Byte) (h : Memory.wf m = true) :
    readByte (writeByte m a b) q = if q = a then b else readByte m q :=
  sget_sput unwritten m a b q 0 h

/-- Reading a byte after a store of `k` bytes: byte `q - a` of the big-endian value, or the byte as before. -/
theorem readByte_writeBytes (m : List Host.Cell) (a v k q : Nat) (h : Memory.wf m = true) :
    readByte (writeBytes m a v k) q =
      if a ≤ q ∧ q < a + k then BitVec.ofNat 8 (v / 256^(a + k - 1 - q)) else readByte m q := by
  induction k generalizing v with
  | zero =>
    rw [if_neg (by omega)]
    rfl
  | succ k ih =>
    rw [writeBytes, readByte_writeByte _ _ _ _ (Memory.wf_writeBytes m a _ k h), ih]
    by_cases hq : q = a + k
    · subst hq
      rw [if_pos rfl, if_pos (by omega)]
      simp
    · rw [if_neg hq]
      by_cases hin : a ≤ q ∧ q < a + k
      · rw [if_pos hin, if_pos (by omega), Nat.div_div_eq_div_mul, ← Nat.pow_succ']
        congr 3
        omega
      · rw [if_neg hin, if_neg (by omega)]

/-- A store of bytes leaves every byte outside it alone. -/
theorem readByte_writeBytes_other (m : List Host.Cell) (a v k q : Nat) (h : Memory.wf m = true) (hq : q < a ∨ a + k ≤ q) :
    readByte (writeBytes m a v k) q = readByte m q := by
  rw [readByte_writeBytes m a v k q h, if_neg (by omega)]

/-- Reading back what was stored. -/
theorem readBytes_writeBytes (m : List Host.Cell) (a v k : Nat) (h : Memory.wf m = true) :
    readBytes (writeBytes m a v k) a k = v % 256^k := by
  have key : ∀ n, n ≤ k → readBytes (writeBytes m a v k) a n = v / 256^(k - n) % 256^n := by
    intro n
    induction n with
    | zero => intro _; simp [readBytes, Nat.mod_one]
    | succ n ih =>
      intro hn
      rw [readBytes, ih (by omega), readByte_writeBytes m a v k (a + n) h, if_pos (by omega)]
      rw [show a + k - 1 - (a + n) = k - (n + 1) by omega, BitVec.toNat_ofNat]
      rw [show k - n = k - (n + 1) + 1 by omega, Nat.pow_succ, ← Nat.div_div_eq_div_mul]
      rw [Nat.pow_succ 256 n, Nat.mul_comm (256^n) 256, Nat.mod_mul]
      ring
  simpa using key k (Nat.le_refl k)

/-- The memories after a store into main storage. -/
@[simp] theorem State.mem_noteStore (s : State) (b : Option Agent) (g : Nat) : (s.noteStore b g).mem = s.mem := rfl

@[simp] theorem State.mem_noteStores (s : State) (b : Option Agent) (a k : Nat) : (s.noteStores b a k).mem = s.mem := by
  simp only [State.noteStores]
  split <;> rfl

theorem State.mem_storeMem (s : State) (b : Option Agent) (a k v : Nat) :
    (s.storeMem b a k v).mem = writeBytes s.mem a v k := by simp [State.storeMem]

/-- A store into main storage keeps its canonical form. -/
theorem State.wf_storeMem (s : State) (b : Option Agent) (a k v : Nat) (h : Memory.wf s.mem = true) :
    Memory.wf (s.storeMem b a k v).mem = true := by
  rw [State.mem_storeMem]
  exact Memory.wf_writeBytes s.mem a v k h

/-- A quadword store into local storage keeps its canonical form. -/
theorem Spe.wf_setLsQuad (p : Spe) (a : Nat) (v : QWord) (h : Memory.wf p.ls = true) :
    Memory.wf (p.setLsQuad a v).ls = true := by
  simp only [Spe.setLsQuad]
  exact Memory.wf_writeBytes p.ls a v.toNat 16 h

/-- Main storage and the local storages are canonical after reset. -/
theorem State.wf_reset : Memory.wf State.reset.mem = true ∧ Memory.wf Spe.reset.ls = true := ⟨rfl, rfl⟩

end Sys2Proof.Machine
end

