-- ==== Sys2Proof/Laws/Inbound.lean ====
section
/-! SUPPORT. The pending inbound writes: what the shared operations of Machine/Inbound.lean can change, that they keep every memory in
canonical form, and that they do nothing when no write is pending. -/

namespace Sys2Proof.Machine

open Sys2Proof.Safety

/-! ## What an operation may change -/

/-- The data of an inbound write changes main storage, the local storages, the reservations, and the lists of pending writes; the
schedule, the shared registers of the PPE, the controllers and every other register of the platform stay. -/
structure InboundOnly (s t : State) : Prop where
  others : { t with mem := s.mem, threads := s.threads, spes := s.spes, plat := s.plat } = s
  platform : { t.plat with ioWrites := s.plat.ioWrites } = s.plat
  canonical : memoriesCanonical s → memoriesCanonical t

theorem InboundOnly.refl (s : State) : InboundOnly s s := ⟨rfl, rfl, id⟩

theorem InboundOnly.trans {s t u : State} (h : InboundOnly s t) (k : InboundOnly t u) : InboundOnly s u := by
  refine ⟨?_, ?_, fun c => k.canonical (h.canonical c)⟩
  · obtain ⟨h1, -, -⟩ := h
    obtain ⟨k1, -, -⟩ := k
    rw [← h1, ← k1]
  · obtain ⟨-, h2, -⟩ := h
    obtain ⟨-, k2, -⟩ := k
    rw [← h2, ← k2]

theorem InboundOnly.foldl {α : Type} {f : State → α → State} (hf : ∀ s x, InboundOnly s (f s x)) (l : List α) :
    ∀ s, InboundOnly s (l.foldl f s) := by
  induction l with
  | nil => exact fun s => .refl s
  | cons x rest ih => exact fun s => (hf s x).trans (ih _)

/-- An update of one SPE that keeps its local storage canonical. -/
theorem InboundOnly.modN (s : State) (n : Fin 8) (f : Spe → Spe)
    (hf : Memory.wf s.spes[n].ls = true → Memory.wf (f s.spes[n]).ls = true) : InboundOnly s (s.modN n f) := by
  refine ⟨rfl, rfl, fun ⟨hm, hl⟩ => ⟨hm, fun m => ?_⟩⟩
  rw [State.spes_modN]
  split
  · next h => subst h; exact hf (hl _)
  · exact hl m

/-! ## The operations -/

theorem State.noteStore_inboundOnly (s : State) (g : Nat) : InboundOnly s (s.noteStore none g) := by
  refine ⟨rfl, rfl, fun ⟨hm, hl⟩ => ⟨hm, fun n => ?_⟩⟩
  have hs : (s.noteStore none g).spes[n] = s.spes[n].loseLine g := by simp [State.noteStore, Agent.isSpe]
  rw [hs]
  have hk : ∀ (p : Spe) b, (p.raiseEvent b).ls = p.ls := by
    intro p b; unfold Spe.raiseEvent; dsimp only; split
    · rfl
    · split <;> rfl
  unfold Spe.loseLine
  split
  · rw [hk]; exact hl n
  · exact hl n

/-- The data of one access is written. -/
theorem State.putInbound_only (s : State) (target : Option (Fin 8)) (part : Nat × List Byte) :
    InboundOnly s (s.putInbound target part) := by
  unfold State.putInbound
  cases target with
  | none =>
    have h0 : InboundOnly s { s with mem := writeBytes s.mem part.1 (natOfBytes part.2) part.2.length } :=
      ⟨rfl, rfl, fun ⟨hm, hl⟩ => ⟨Memory.wf_writeBytes _ _ _ _ hm, hl⟩⟩
    have h1 := h0.trans (State.noteStore_inboundOnly _ (part.1 / 128))
    simp only [State.storeMem, State.noteStores]
    split
    · exact h1
    · exact h1.trans (State.noteStore_inboundOnly _ _)
  | some n => exact .modN s n _ fun h => Memory.wf_writeBytes _ _ _ _ h

/-- A pending write is changed. -/
theorem State.modInbound_only (s : State) (x : Inbound) (f : IoWrite → IoWrite) : InboundOnly s (s.modInbound x f) := by
  unfold State.modInbound
  cases x.target with
  | none => exact ⟨rfl, rfl, id⟩
  | some n => exact .modN s n _ id

/-- The writes that come before one are marked as due. -/
theorem State.noteDue_only (s : State) (y : Inbound) : InboundOnly s (s.noteDue y) := by
  refine ⟨rfl, rfl, fun ⟨hm, hl⟩ => ⟨hm, fun n => ?_⟩⟩
  have : (s.noteDue y).spes[n].ls = s.spes[n].ls := by simp [State.noteDue]
  rw [this]; exact hl n

theorem State.inboundPart_only (s : State) (y : Inbound) (k : Nat) : InboundOnly s (s.inboundPart y k) := by
  unfold State.inboundPart
  split
  · exact .refl s
  · exact ((State.noteDue_only s y).trans (State.putInbound_only _ _ _)).trans (State.modInbound_only _ _ _)

theorem State.inboundWhole_only (s : State) (y : Inbound) : InboundOnly s (s.inboundWhole y) :=
  ((State.noteDue_only s y).trans (.foldl (fun s part => State.putInbound_only s y.target part) _ _)).trans
    (State.modInbound_only _ _ _)

/-- Whatever pending writes take effect. -/
theorem State.performInbound_only (s : State) (f : Inbound → Bool) : InboundOnly s (s.performInbound f) :=
  .foldl State.inboundWhole_only _ s

theorem State.meetAlias_only (s : State) (n : Fin 8) : InboundOnly s (s.meetAlias n) := State.performInbound_only s _

theorem State.ioData_only (s : State) (seq part : Nat) : InboundOnly s (s.ioData seq part) := by
  unfold State.ioData
  split
  · exact .refl s
  · split
    · exact .refl s
    · exact State.inboundPart_only _ _ _

/-! ## Nothing is pending -/

/-- No inbound write is pending. -/
def State.settled (s : State) : Prop := s.plat.ioWrites = [] ∧ ∀ n : Fin 8, s.spes[n].snoopQ = []

theorem State.inbound_settled {s : State} (h : s.settled) : s.inbound = [] := by
  have h2 : ((List.finRange 8).flatMap fun n => s.spes[n].snoopQ.map (Inbound.mk (some n))) = [] := by
    rw [List.flatMap_eq_nil_iff]
    intro n _
    rw [h.2 n]; rfl
  unfold State.inbound
  rw [h.1, h2]; rfl

/-- With nothing pending nothing takes effect. -/
theorem State.performInbound_settled {s : State} (h : s.settled) (f : Inbound → Bool) : s.performInbound f = s := by
  unfold State.performInbound
  rw [State.inbound_settled h]; rfl

theorem State.meetAlias_settled {s : State} (h : s.settled) (n : Fin 8) : s.meetAlias n = s := State.performInbound_settled h _

end Sys2Proof.Machine
end

