-- ==== Sys2Proof/Laws/PerInstr.lean ====
section
/-! SUPPORT. Families of statements about every instruction as syntax, one lemma for each constructor.

`EncodingFits`: the value that an instruction's fields and fixed bits add up to fits in its 32-bit word, so that `encode` cuts
nothing off. -/

namespace Sys2Proof.Laws

/-- The fields and fixed bits of the instruction's word are less than 2^32. -/
def EncodingFits.Statement (i : Instr) : Prop := encodeNat i < 2^32

theorem EncodingFits.ppeB (li : BitVec 24) (aa : Bool) (lk : Bool) : EncodingFits.Statement (.ppeB li aa lk) := by
  have h0 := li.isLt
  have h1 := aa.toNat_lt
  have h2 := lk.toNat_lt
  show 0x48000000 + li.toNat * 2^2 + aa.toNat * 2^1 + lk.toNat * 2^0 < 2^32
  omega

theorem EncodingFits.ppeBc (bo : BitVec 5) (bi : BitVec 5) (bd : BitVec 14) (aa : Bool) (lk : Bool) :
    EncodingFits.Statement (.ppeBc bo bi bd aa lk) := by
  have h0 := bo.isLt
  have h1 := bi.isLt
  have h2 := bd.isLt
  have h3 := aa.toNat_lt
  have h4 := lk.toNat_lt
  show 0x40000000 + bo.toNat * 2^21 + bi.toNat * 2^16 + bd.toNat * 2^2 + aa.toNat * 2^1 + lk.toNat * 2^0 < 2^32
  omega

theorem EncodingFits.ppeBclr (bo : BitVec 5) (bi : BitVec 5) (bh : BitVec 2) (lk : Bool) :
    EncodingFits.Statement (.ppeBclr bo bi bh lk) := by
  have h0 := bo.isLt
  have h1 := bi.isLt
  have h2 := bh.isLt
  have h3 := lk.toNat_lt
  show 0x4C000020 + bo.toNat * 2^21 + bi.toNat * 2^16 + bh.toNat * 2^11 + lk.toNat * 2^0 < 2^32
  omega

theorem EncodingFits.ppeBcctr (bo : BitVec 5) (bi : BitVec 5) (bh : BitVec 2) (lk : Bool) :
    EncodingFits.Statement (.ppeBcctr bo bi bh lk) := by
  have h0 := bo.isLt
  have h1 := bi.isLt
  have h2 := bh.isLt
  have h3 := lk.toNat_lt
  show 0x4C000420 + bo.toNat * 2^21 + bi.toNat * 2^16 + bh.toNat * 2^11 + lk.toNat * 2^0 < 2^32
  omega

theorem EncodingFits.ppeSc (lev : BitVec 7) : EncodingFits.Statement (.ppeSc lev) := by
  have h := lev.isLt
  show 0x44000002 + lev.toNat * 2^5 < 2^32
  omega

theorem EncodingFits.ppeRfid : EncodingFits.Statement (.ppeRfid) := by
  show 0x4C000024 < 2^32
  decide

theorem EncodingFits.ppeHrfid : EncodingFits.Statement (.ppeHrfid) := by
  show 0x4C000224 < 2^32
  decide

theorem EncodingFits.ppeIsync : EncodingFits.Statement (.ppeIsync) := by
  show 0x4C00012C < 2^32
  decide

theorem EncodingFits.ppeCrand (bt : BitVec 5) (ba : BitVec 5) (bb : BitVec 5) : EncodingFits.Statement (.ppeCrand bt ba bb) := by
  have h0 := bt.isLt
  have h1 := ba.isLt
  have h2 := bb.isLt
  show 0x4C000202 + bt.toNat * 2^21 + ba.toNat * 2^16 + bb.toNat * 2^11 < 2^32
  omega

theorem EncodingFits.ppeCror (bt : BitVec 5) (ba : BitVec 5) (bb : BitVec 5) : EncodingFits.Statement (.ppeCror bt ba bb) := by
  have h0 := bt.isLt
  have h1 := ba.isLt
  have h2 := bb.isLt
  show 0x4C000382 + bt.toNat * 2^21 + ba.toNat * 2^16 + bb.toNat * 2^11 < 2^32
  omega

theorem EncodingFits.ppeCrxor (bt : BitVec 5) (ba : BitVec 5) (bb : BitVec 5) : EncodingFits.Statement (.ppeCrxor bt ba bb) := by
  have h0 := bt.isLt
  have h1 := ba.isLt
  have h2 := bb.isLt
  show 0x4C000182 + bt.toNat * 2^21 + ba.toNat * 2^16 + bb.toNat * 2^11 < 2^32
  omega

theorem EncodingFits.ppeCrnand (bt : BitVec 5) (ba : BitVec 5) (bb : BitVec 5) :
    EncodingFits.Statement (.ppeCrnand bt ba bb) := by
  have h0 := bt.isLt
  have h1 := ba.isLt
  have h2 := bb.isLt
  show 0x4C0001C2 + bt.toNat * 2^21 + ba.toNat * 2^16 + bb.toNat * 2^11 < 2^32
  omega

theorem EncodingFits.ppeCrnor (bt : BitVec 5) (ba : BitVec 5) (bb : BitVec 5) : EncodingFits.Statement (.ppeCrnor bt ba bb) := by
  have h0 := bt.isLt
  have h1 := ba.isLt
  have h2 := bb.isLt
  show 0x4C000042 + bt.toNat * 2^21 + ba.toNat * 2^16 + bb.toNat * 2^11 < 2^32
  omega

theorem EncodingFits.ppeCreqv (bt : BitVec 5) (ba : BitVec 5) (bb : BitVec 5) : EncodingFits.Statement (.ppeCreqv bt ba bb) := by
  have h0 := bt.isLt
  have h1 := ba.isLt
  have h2 := bb.isLt
  show 0x4C000242 + bt.toNat * 2^21 + ba.toNat * 2^16 + bb.toNat * 2^11 < 2^32
  omega

theorem EncodingFits.ppeCrandc (bt : BitVec 5) (ba : BitVec 5) (bb : BitVec 5) :
    EncodingFits.Statement (.ppeCrandc bt ba bb) := by
  have h0 := bt.isLt
  have h1 := ba.isLt
  have h2 := bb.isLt
  show 0x4C000102 + bt.toNat * 2^21 + ba.toNat * 2^16 + bb.toNat * 2^11 < 2^32
  omega

theorem EncodingFits.ppeCrorc (bt : BitVec 5) (ba : BitVec 5) (bb : BitVec 5) : EncodingFits.Statement (.ppeCrorc bt ba bb) := by
  have h0 := bt.isLt
  have h1 := ba.isLt
  have h2 := bb.isLt
  show 0x4C000342 + bt.toNat * 2^21 + ba.toNat * 2^16 + bb.toNat * 2^11 < 2^32
  omega

theorem EncodingFits.ppeMcrf (bf : BitVec 3) (bfa : BitVec 3) : EncodingFits.Statement (.ppeMcrf bf bfa) := by
  have h0 := bf.isLt
  have h1 := bfa.isLt
  show 0x4C000000 + bf.toNat * 2^23 + bfa.toNat * 2^18 < 2^32
  omega

theorem EncodingFits.ppeTw (trapOn : BitVec 5) (ra : BitVec 5) (rb : BitVec 5) :
    EncodingFits.Statement (.ppeTw trapOn ra rb) := by
  have h0 := trapOn.isLt
  have h1 := ra.isLt
  have h2 := rb.isLt
  show 0x7C000008 + trapOn.toNat * 2^21 + ra.toNat * 2^16 + rb.toNat * 2^11 < 2^32
  omega

theorem EncodingFits.ppeTd (trapOn : BitVec 5) (ra : BitVec 5) (rb : BitVec 5) :
    EncodingFits.Statement (.ppeTd trapOn ra rb) := by
  have h0 := trapOn.isLt
  have h1 := ra.isLt
  have h2 := rb.isLt
  show 0x7C000088 + trapOn.toNat * 2^21 + ra.toNat * 2^16 + rb.toNat * 2^11 < 2^32
  omega

theorem EncodingFits.ppeTwi (trapOn : BitVec 5) (ra : BitVec 5) (si : BitVec 16) :
    EncodingFits.Statement (.ppeTwi trapOn ra si) := by
  have h0 := trapOn.isLt
  have h1 := ra.isLt
  have h2 := si.isLt
  show 0xC000000 + trapOn.toNat * 2^21 + ra.toNat * 2^16 + si.toNat * 2^0 < 2^32
  omega

theorem EncodingFits.ppeTdi (trapOn : BitVec 5) (ra : BitVec 5) (si : BitVec 16) :
    EncodingFits.Statement (.ppeTdi trapOn ra si) := by
  have h0 := trapOn.isLt
  have h1 := ra.isLt
  have h2 := si.isLt
  show 0x8000000 + trapOn.toNat * 2^21 + ra.toNat * 2^16 + si.toNat * 2^0 < 2^32
  omega

theorem EncodingFits.ppeMtspr (rs : BitVec 5) (spr : BitVec 10) : EncodingFits.Statement (.ppeMtspr rs spr) := by
  have h0 := rs.isLt
  have h1 := spr.isLt
  show 0x7C0003A6 + rs.toNat * 2^21 + (spr.toNat % 32 * 2^16 + spr.toNat / 32 * 2^11) < 2^32
  omega

theorem EncodingFits.ppeMfspr (rt : BitVec 5) (spr : BitVec 10) : EncodingFits.Statement (.ppeMfspr rt spr) := by
  have h0 := rt.isLt
  have h1 := spr.isLt
  show 0x7C0002A6 + rt.toNat * 2^21 + (spr.toNat % 32 * 2^16 + spr.toNat / 32 * 2^11) < 2^32
  omega

theorem EncodingFits.ppeMftb (rt : BitVec 5) (tbr : BitVec 10) : EncodingFits.Statement (.ppeMftb rt tbr) := by
  have h0 := rt.isLt
  have h1 := tbr.isLt
  show 0x7C0002E6 + rt.toNat * 2^21 + (tbr.toNat % 32 * 2^16 + tbr.toNat / 32 * 2^11) < 2^32
  omega

theorem EncodingFits.ppeMtmsr (rs : BitVec 5) (l : Bool) : EncodingFits.Statement (.ppeMtmsr rs l) := by
  have h0 := rs.isLt
  have h1 := l.toNat_lt
  show 0x7C000124 + rs.toNat * 2^21 + l.toNat * 2^16 < 2^32
  omega

theorem EncodingFits.ppeMtmsrd (rs : BitVec 5) (l : Bool) : EncodingFits.Statement (.ppeMtmsrd rs l) := by
  have h0 := rs.isLt
  have h1 := l.toNat_lt
  show 0x7C000164 + rs.toNat * 2^21 + l.toNat * 2^16 < 2^32
  omega

theorem EncodingFits.ppeMfmsr (rt : BitVec 5) : EncodingFits.Statement (.ppeMfmsr rt) := by
  have h := rt.isLt
  show 0x7C0000A6 + rt.toNat * 2^21 < 2^32
  omega

theorem EncodingFits.ppeMtcrf (rs : BitVec 5) (fxm : BitVec 8) : EncodingFits.Statement (.ppeMtcrf rs fxm) := by
  have h0 := rs.isLt
  have h1 := fxm.isLt
  show 0x7C000120 + rs.toNat * 2^21 + fxm.toNat * 2^12 < 2^32
  omega

theorem EncodingFits.ppeMtocrf (rs : BitVec 5) (fxm : BitVec 8) : EncodingFits.Statement (.ppeMtocrf rs fxm) := by
  have h0 := rs.isLt
  have h1 := fxm.isLt
  show 0x7C100120 + rs.toNat * 2^21 + fxm.toNat * 2^12 < 2^32
  omega

theorem EncodingFits.ppeMfcr (rt : BitVec 5) : EncodingFits.Statement (.ppeMfcr rt) := by
  have h := rt.isLt
  show 0x7C000026 + rt.toNat * 2^21 < 2^32
  omega

theorem EncodingFits.ppeMfocrf (rt : BitVec 5) (fxm : BitVec 8) : EncodingFits.Statement (.ppeMfocrf rt fxm) := by
  have h0 := rt.isLt
  have h1 := fxm.isLt
  show 0x7C100026 + rt.toNat * 2^21 + fxm.toNat * 2^12 < 2^32
  omega

theorem EncodingFits.ppeSync (l : BitVec 2) : EncodingFits.Statement (.ppeSync l) := by
  have h := l.isLt
  show 0x7C0004AC + l.toNat * 2^21 < 2^32
  omega

theorem EncodingFits.ppeEieio : EncodingFits.Statement (.ppeEieio) := by
  show 0x7C0006AC < 2^32
  decide

theorem EncodingFits.ppeSlbmte (rs : BitVec 5) (rb : BitVec 5) : EncodingFits.Statement (.ppeSlbmte rs rb) := by
  have h0 := rs.isLt
  have h1 := rb.isLt
  show 0x7C000324 + rs.toNat * 2^21 + rb.toNat * 2^11 < 2^32
  omega

theorem EncodingFits.ppeSlbmfee (rt : BitVec 5) (rb : BitVec 5) : EncodingFits.Statement (.ppeSlbmfee rt rb) := by
  have h0 := rt.isLt
  have h1 := rb.isLt
  show 0x7C000726 + rt.toNat * 2^21 + rb.toNat * 2^11 < 2^32
  omega

theorem EncodingFits.ppeSlbmfev (rt : BitVec 5) (rb : BitVec 5) : EncodingFits.Statement (.ppeSlbmfev rt rb) := by
  have h0 := rt.isLt
  have h1 := rb.isLt
  show 0x7C0006A6 + rt.toNat * 2^21 + rb.toNat * 2^11 < 2^32
  omega

theorem EncodingFits.ppeSlbie (rb : BitVec 5) : EncodingFits.Statement (.ppeSlbie rb) := by
  have h := rb.isLt
  show 0x7C000364 + rb.toNat * 2^11 < 2^32
  omega

theorem EncodingFits.ppeSlbia : EncodingFits.Statement (.ppeSlbia) := by
  show 0x7C0003E4 < 2^32
  decide

theorem EncodingFits.ppeTlbie (l : Bool) (rb : BitVec 5) : EncodingFits.Statement (.ppeTlbie l rb) := by
  have h0 := l.toNat_lt
  have h1 := rb.isLt
  show 0x7C000264 + l.toNat * 2^21 + rb.toNat * 2^11 < 2^32
  omega

theorem EncodingFits.ppeTlbiel (l : Bool) (rb : BitVec 5) : EncodingFits.Statement (.ppeTlbiel l rb) := by
  have h0 := l.toNat_lt
  have h1 := rb.isLt
  show 0x7C000224 + l.toNat * 2^21 + rb.toNat * 2^11 < 2^32
  omega

theorem EncodingFits.ppeTlbsync : EncodingFits.Statement (.ppeTlbsync) := by
  show 0x7C00046C < 2^32
  decide

theorem EncodingFits.ppeAttn : EncodingFits.Statement (.ppeAttn) := by
  show 0x200 < 2^32
  decide

theorem EncodingFits.ppeLbz (rt : BitVec 5) (ra : BitVec 5) (d : BitVec 16) : EncodingFits.Statement (.ppeLbz rt ra d) := by
  have h0 := rt.isLt
  have h1 := ra.isLt
  have h2 := d.isLt
  show 0x88000000 + rt.toNat * 2^21 + ra.toNat * 2^16 + d.toNat * 2^0 < 2^32
  omega

theorem EncodingFits.ppeLbzu (rt : BitVec 5) (ra : BitVec 5) (d : BitVec 16) : EncodingFits.Statement (.ppeLbzu rt ra d) := by
  have h0 := rt.isLt
  have h1 := ra.isLt
  have h2 := d.isLt
  show 0x8C000000 + rt.toNat * 2^21 + ra.toNat * 2^16 + d.toNat * 2^0 < 2^32
  omega

theorem EncodingFits.ppeLhz (rt : BitVec 5) (ra : BitVec 5) (d : BitVec 16) : EncodingFits.Statement (.ppeLhz rt ra d) := by
  have h0 := rt.isLt
  have h1 := ra.isLt
  have h2 := d.isLt
  show 0xA0000000 + rt.toNat * 2^21 + ra.toNat * 2^16 + d.toNat * 2^0 < 2^32
  omega

theorem EncodingFits.ppeLhzu (rt : BitVec 5) (ra : BitVec 5) (d : BitVec 16) : EncodingFits.Statement (.ppeLhzu rt ra d) := by
  have h0 := rt.isLt
  have h1 := ra.isLt
  have h2 := d.isLt
  show 0xA4000000 + rt.toNat * 2^21 + ra.toNat * 2^16 + d.toNat * 2^0 < 2^32
  omega

theorem EncodingFits.ppeLha (rt : BitVec 5) (ra : BitVec 5) (d : BitVec 16) : EncodingFits.Statement (.ppeLha rt ra d) := by
  have h0 := rt.isLt
  have h1 := ra.isLt
  have h2 := d.isLt
  show 0xA8000000 + rt.toNat * 2^21 + ra.toNat * 2^16 + d.toNat * 2^0 < 2^32
  omega

theorem EncodingFits.ppeLhau (rt : BitVec 5) (ra : BitVec 5) (d : BitVec 16) : EncodingFits.Statement (.ppeLhau rt ra d) := by
  have h0 := rt.isLt
  have h1 := ra.isLt
  have h2 := d.isLt
  show 0xAC000000 + rt.toNat * 2^21 + ra.toNat * 2^16 + d.toNat * 2^0 < 2^32
  omega

theorem EncodingFits.ppeLwz (rt : BitVec 5) (ra : BitVec 5) (d : BitVec 16) : EncodingFits.Statement (.ppeLwz rt ra d) := by
  have h0 := rt.isLt
  have h1 := ra.isLt
  have h2 := d.isLt
  show 0x80000000 + rt.toNat * 2^21 + ra.toNat * 2^16 + d.toNat * 2^0 < 2^32
  omega

theorem EncodingFits.ppeLwzu (rt : BitVec 5) (ra : BitVec 5) (d : BitVec 16) : EncodingFits.Statement (.ppeLwzu rt ra d) := by
  have h0 := rt.isLt
  have h1 := ra.isLt
  have h2 := d.isLt
  show 0x84000000 + rt.toNat * 2^21 + ra.toNat * 2^16 + d.toNat * 2^0 < 2^32
  omega

theorem EncodingFits.ppeLmw (rt : BitVec 5) (ra : BitVec 5) (d : BitVec 16) : EncodingFits.Statement (.ppeLmw rt ra d) := by
  have h0 := rt.isLt
  have h1 := ra.isLt
  have h2 := d.isLt
  show 0xB8000000 + rt.toNat * 2^21 + ra.toNat * 2^16 + d.toNat * 2^0 < 2^32
  omega

theorem EncodingFits.ppeStb (rs : BitVec 5) (ra : BitVec 5) (d : BitVec 16) : EncodingFits.Statement (.ppeStb rs ra d) := by
  have h0 := rs.isLt
  have h1 := ra.isLt
  have h2 := d.isLt
  show 0x98000000 + rs.toNat * 2^21 + ra.toNat * 2^16 + d.toNat * 2^0 < 2^32
  omega

theorem EncodingFits.ppeStbu (rs : BitVec 5) (ra : BitVec 5) (d : BitVec 16) : EncodingFits.Statement (.ppeStbu rs ra d) := by
  have h0 := rs.isLt
  have h1 := ra.isLt
  have h2 := d.isLt
  show 0x9C000000 + rs.toNat * 2^21 + ra.toNat * 2^16 + d.toNat * 2^0 < 2^32
  omega

theorem EncodingFits.ppeSth (rs : BitVec 5) (ra : BitVec 5) (d : BitVec 16) : EncodingFits.Statement (.ppeSth rs ra d) := by
  have h0 := rs.isLt
  have h1 := ra.isLt
  have h2 := d.isLt
  show 0xB0000000 + rs.toNat * 2^21 + ra.toNat * 2^16 + d.toNat * 2^0 < 2^32
  omega

theorem EncodingFits.ppeSthu (rs : BitVec 5) (ra : BitVec 5) (d : BitVec 16) : EncodingFits.Statement (.ppeSthu rs ra d) := by
  have h0 := rs.isLt
  have h1 := ra.isLt
  have h2 := d.isLt
  show 0xB4000000 + rs.toNat * 2^21 + ra.toNat * 2^16 + d.toNat * 2^0 < 2^32
  omega

theorem EncodingFits.ppeStw (rs : BitVec 5) (ra : BitVec 5) (d : BitVec 16) : EncodingFits.Statement (.ppeStw rs ra d) := by
  have h0 := rs.isLt
  have h1 := ra.isLt
  have h2 := d.isLt
  show 0x90000000 + rs.toNat * 2^21 + ra.toNat * 2^16 + d.toNat * 2^0 < 2^32
  omega

theorem EncodingFits.ppeStwu (rs : BitVec 5) (ra : BitVec 5) (d : BitVec 16) : EncodingFits.Statement (.ppeStwu rs ra d) := by
  have h0 := rs.isLt
  have h1 := ra.isLt
  have h2 := d.isLt
  show 0x94000000 + rs.toNat * 2^21 + ra.toNat * 2^16 + d.toNat * 2^0 < 2^32
  omega

theorem EncodingFits.ppeStmw (rs : BitVec 5) (ra : BitVec 5) (d : BitVec 16) : EncodingFits.Statement (.ppeStmw rs ra d) := by
  have h0 := rs.isLt
  have h1 := ra.isLt
  have h2 := d.isLt
  show 0xBC000000 + rs.toNat * 2^21 + ra.toNat * 2^16 + d.toNat * 2^0 < 2^32
  omega

theorem EncodingFits.ppeLfs (frt : BitVec 5) (ra : BitVec 5) (d : BitVec 16) : EncodingFits.Statement (.ppeLfs frt ra d) := by
  have h0 := frt.isLt
  have h1 := ra.isLt
  have h2 := d.isLt
  show 0xC0000000 + frt.toNat * 2^21 + ra.toNat * 2^16 + d.toNat * 2^0 < 2^32
  omega

theorem EncodingFits.ppeLfsu (frt : BitVec 5) (ra : BitVec 5) (d : BitVec 16) : EncodingFits.Statement (.ppeLfsu frt ra d) := by
  have h0 := frt.isLt
  have h1 := ra.isLt
  have h2 := d.isLt
  show 0xC4000000 + frt.toNat * 2^21 + ra.toNat * 2^16 + d.toNat * 2^0 < 2^32
  omega

theorem EncodingFits.ppeLfd (frt : BitVec 5) (ra : BitVec 5) (d : BitVec 16) : EncodingFits.Statement (.ppeLfd frt ra d) := by
  have h0 := frt.isLt
  have h1 := ra.isLt
  have h2 := d.isLt
  show 0xC8000000 + frt.toNat * 2^21 + ra.toNat * 2^16 + d.toNat * 2^0 < 2^32
  omega

theorem EncodingFits.ppeLfdu (frt : BitVec 5) (ra : BitVec 5) (d : BitVec 16) : EncodingFits.Statement (.ppeLfdu frt ra d) := by
  have h0 := frt.isLt
  have h1 := ra.isLt
  have h2 := d.isLt
  show 0xCC000000 + frt.toNat * 2^21 + ra.toNat * 2^16 + d.toNat * 2^0 < 2^32
  omega

theorem EncodingFits.ppeStfs (frs : BitVec 5) (ra : BitVec 5) (d : BitVec 16) : EncodingFits.Statement (.ppeStfs frs ra d) := by
  have h0 := frs.isLt
  have h1 := ra.isLt
  have h2 := d.isLt
  show 0xD0000000 + frs.toNat * 2^21 + ra.toNat * 2^16 + d.toNat * 2^0 < 2^32
  omega

theorem EncodingFits.ppeStfsu (frs : BitVec 5) (ra : BitVec 5) (d : BitVec 16) : EncodingFits.Statement (.ppeStfsu frs ra d) := by
  have h0 := frs.isLt
  have h1 := ra.isLt
  have h2 := d.isLt
  show 0xD4000000 + frs.toNat * 2^21 + ra.toNat * 2^16 + d.toNat * 2^0 < 2^32
  omega

theorem EncodingFits.ppeStfd (frs : BitVec 5) (ra : BitVec 5) (d : BitVec 16) : EncodingFits.Statement (.ppeStfd frs ra d) := by
  have h0 := frs.isLt
  have h1 := ra.isLt
  have h2 := d.isLt
  show 0xD8000000 + frs.toNat * 2^21 + ra.toNat * 2^16 + d.toNat * 2^0 < 2^32
  omega

theorem EncodingFits.ppeStfdu (frs : BitVec 5) (ra : BitVec 5) (d : BitVec 16) : EncodingFits.Statement (.ppeStfdu frs ra d) := by
  have h0 := frs.isLt
  have h1 := ra.isLt
  have h2 := d.isLt
  show 0xDC000000 + frs.toNat * 2^21 + ra.toNat * 2^16 + d.toNat * 2^0 < 2^32
  omega

theorem EncodingFits.ppeLd (rt : BitVec 5) (ra : BitVec 5) (ds : BitVec 14) : EncodingFits.Statement (.ppeLd rt ra ds) := by
  have h0 := rt.isLt
  have h1 := ra.isLt
  have h2 := ds.isLt
  show 0xE8000000 + rt.toNat * 2^21 + ra.toNat * 2^16 + ds.toNat * 2^2 < 2^32
  omega

theorem EncodingFits.ppeLdu (rt : BitVec 5) (ra : BitVec 5) (ds : BitVec 14) : EncodingFits.Statement (.ppeLdu rt ra ds) := by
  have h0 := rt.isLt
  have h1 := ra.isLt
  have h2 := ds.isLt
  show 0xE8000001 + rt.toNat * 2^21 + ra.toNat * 2^16 + ds.toNat * 2^2 < 2^32
  omega

theorem EncodingFits.ppeLwa (rt : BitVec 5) (ra : BitVec 5) (ds : BitVec 14) : EncodingFits.Statement (.ppeLwa rt ra ds) := by
  have h0 := rt.isLt
  have h1 := ra.isLt
  have h2 := ds.isLt
  show 0xE8000002 + rt.toNat * 2^21 + ra.toNat * 2^16 + ds.toNat * 2^2 < 2^32
  omega

theorem EncodingFits.ppeStd (rs : BitVec 5) (ra : BitVec 5) (ds : BitVec 14) : EncodingFits.Statement (.ppeStd rs ra ds) := by
  have h0 := rs.isLt
  have h1 := ra.isLt
  have h2 := ds.isLt
  show 0xF8000000 + rs.toNat * 2^21 + ra.toNat * 2^16 + ds.toNat * 2^2 < 2^32
  omega

theorem EncodingFits.ppeStdu (rs : BitVec 5) (ra : BitVec 5) (ds : BitVec 14) : EncodingFits.Statement (.ppeStdu rs ra ds) := by
  have h0 := rs.isLt
  have h1 := ra.isLt
  have h2 := ds.isLt
  show 0xF8000001 + rs.toNat * 2^21 + ra.toNat * 2^16 + ds.toNat * 2^2 < 2^32
  omega

theorem EncodingFits.ppeLbzx (rt : BitVec 5) (ra : BitVec 5) (rb : BitVec 5) : EncodingFits.Statement (.ppeLbzx rt ra rb) := by
  have h0 := rt.isLt
  have h1 := ra.isLt
  have h2 := rb.isLt
  show 0x7C0000AE + rt.toNat * 2^21 + ra.toNat * 2^16 + rb.toNat * 2^11 < 2^32
  omega

theorem EncodingFits.ppeLbzux (rt : BitVec 5) (ra : BitVec 5) (rb : BitVec 5) : EncodingFits.Statement (.ppeLbzux rt ra rb) := by
  have h0 := rt.isLt
  have h1 := ra.isLt
  have h2 := rb.isLt
  show 0x7C0000EE + rt.toNat * 2^21 + ra.toNat * 2^16 + rb.toNat * 2^11 < 2^32
  omega

theorem EncodingFits.ppeLhzx (rt : BitVec 5) (ra : BitVec 5) (rb : BitVec 5) : EncodingFits.Statement (.ppeLhzx rt ra rb) := by
  have h0 := rt.isLt
  have h1 := ra.isLt
  have h2 := rb.isLt
  show 0x7C00022E + rt.toNat * 2^21 + ra.toNat * 2^16 + rb.toNat * 2^11 < 2^32
  omega

theorem EncodingFits.ppeLhzux (rt : BitVec 5) (ra : BitVec 5) (rb : BitVec 5) : EncodingFits.Statement (.ppeLhzux rt ra rb) := by
  have h0 := rt.isLt
  have h1 := ra.isLt
  have h2 := rb.isLt
  show 0x7C00026E + rt.toNat * 2^21 + ra.toNat * 2^16 + rb.toNat * 2^11 < 2^32
  omega

theorem EncodingFits.ppeLhax (rt : BitVec 5) (ra : BitVec 5) (rb : BitVec 5) : EncodingFits.Statement (.ppeLhax rt ra rb) := by
  have h0 := rt.isLt
  have h1 := ra.isLt
  have h2 := rb.isLt
  show 0x7C0002AE + rt.toNat * 2^21 + ra.toNat * 2^16 + rb.toNat * 2^11 < 2^32
  omega

theorem EncodingFits.ppeLhaux (rt : BitVec 5) (ra : BitVec 5) (rb : BitVec 5) : EncodingFits.Statement (.ppeLhaux rt ra rb) := by
  have h0 := rt.isLt
  have h1 := ra.isLt
  have h2 := rb.isLt
  show 0x7C0002EE + rt.toNat * 2^21 + ra.toNat * 2^16 + rb.toNat * 2^11 < 2^32
  omega

theorem EncodingFits.ppeLwzx (rt : BitVec 5) (ra : BitVec 5) (rb : BitVec 5) : EncodingFits.Statement (.ppeLwzx rt ra rb) := by
  have h0 := rt.isLt
  have h1 := ra.isLt
  have h2 := rb.isLt
  show 0x7C00002E + rt.toNat * 2^21 + ra.toNat * 2^16 + rb.toNat * 2^11 < 2^32
  omega

theorem EncodingFits.ppeLwzux (rt : BitVec 5) (ra : BitVec 5) (rb : BitVec 5) : EncodingFits.Statement (.ppeLwzux rt ra rb) := by
  have h0 := rt.isLt
  have h1 := ra.isLt
  have h2 := rb.isLt
  show 0x7C00006E + rt.toNat * 2^21 + ra.toNat * 2^16 + rb.toNat * 2^11 < 2^32
  omega

theorem EncodingFits.ppeLwax (rt : BitVec 5) (ra : BitVec 5) (rb : BitVec 5) : EncodingFits.Statement (.ppeLwax rt ra rb) := by
  have h0 := rt.isLt
  have h1 := ra.isLt
  have h2 := rb.isLt
  show 0x7C0002AA + rt.toNat * 2^21 + ra.toNat * 2^16 + rb.toNat * 2^11 < 2^32
  omega

theorem EncodingFits.ppeLwaux (rt : BitVec 5) (ra : BitVec 5) (rb : BitVec 5) : EncodingFits.Statement (.ppeLwaux rt ra rb) := by
  have h0 := rt.isLt
  have h1 := ra.isLt
  have h2 := rb.isLt
  show 0x7C0002EA + rt.toNat * 2^21 + ra.toNat * 2^16 + rb.toNat * 2^11 < 2^32
  omega

theorem EncodingFits.ppeLdx (rt : BitVec 5) (ra : BitVec 5) (rb : BitVec 5) : EncodingFits.Statement (.ppeLdx rt ra rb) := by
  have h0 := rt.isLt
  have h1 := ra.isLt
  have h2 := rb.isLt
  show 0x7C00002A + rt.toNat * 2^21 + ra.toNat * 2^16 + rb.toNat * 2^11 < 2^32
  omega

theorem EncodingFits.ppeLdux (rt : BitVec 5) (ra : BitVec 5) (rb : BitVec 5) : EncodingFits.Statement (.ppeLdux rt ra rb) := by
  have h0 := rt.isLt
  have h1 := ra.isLt
  have h2 := rb.isLt
  show 0x7C00006A + rt.toNat * 2^21 + ra.toNat * 2^16 + rb.toNat * 2^11 < 2^32
  omega

theorem EncodingFits.ppeLhbrx (rt : BitVec 5) (ra : BitVec 5) (rb : BitVec 5) : EncodingFits.Statement (.ppeLhbrx rt ra rb) := by
  have h0 := rt.isLt
  have h1 := ra.isLt
  have h2 := rb.isLt
  show 0x7C00062C + rt.toNat * 2^21 + ra.toNat * 2^16 + rb.toNat * 2^11 < 2^32
  omega

theorem EncodingFits.ppeLwbrx (rt : BitVec 5) (ra : BitVec 5) (rb : BitVec 5) : EncodingFits.Statement (.ppeLwbrx rt ra rb) := by
  have h0 := rt.isLt
  have h1 := ra.isLt
  have h2 := rb.isLt
  show 0x7C00042C + rt.toNat * 2^21 + ra.toNat * 2^16 + rb.toNat * 2^11 < 2^32
  omega

theorem EncodingFits.ppeLswx (rt : BitVec 5) (ra : BitVec 5) (rb : BitVec 5) : EncodingFits.Statement (.ppeLswx rt ra rb) := by
  have h0 := rt.isLt
  have h1 := ra.isLt
  have h2 := rb.isLt
  show 0x7C00042A + rt.toNat * 2^21 + ra.toNat * 2^16 + rb.toNat * 2^11 < 2^32
  omega

theorem EncodingFits.ppeLwarx (rt : BitVec 5) (ra : BitVec 5) (rb : BitVec 5) : EncodingFits.Statement (.ppeLwarx rt ra rb) := by
  have h0 := rt.isLt
  have h1 := ra.isLt
  have h2 := rb.isLt
  show 0x7C000028 + rt.toNat * 2^21 + ra.toNat * 2^16 + rb.toNat * 2^11 < 2^32
  omega

theorem EncodingFits.ppeLdarx (rt : BitVec 5) (ra : BitVec 5) (rb : BitVec 5) : EncodingFits.Statement (.ppeLdarx rt ra rb) := by
  have h0 := rt.isLt
  have h1 := ra.isLt
  have h2 := rb.isLt
  show 0x7C0000A8 + rt.toNat * 2^21 + ra.toNat * 2^16 + rb.toNat * 2^11 < 2^32
  omega

theorem EncodingFits.ppeLdbrx (rt : BitVec 5) (ra : BitVec 5) (rb : BitVec 5) : EncodingFits.Statement (.ppeLdbrx rt ra rb) := by
  have h0 := rt.isLt
  have h1 := ra.isLt
  have h2 := rb.isLt
  show 0x7C000428 + rt.toNat * 2^21 + ra.toNat * 2^16 + rb.toNat * 2^11 < 2^32
  omega

theorem EncodingFits.ppeStbx (rs : BitVec 5) (ra : BitVec 5) (rb : BitVec 5) : EncodingFits.Statement (.ppeStbx rs ra rb) := by
  have h0 := rs.isLt
  have h1 := ra.isLt
  have h2 := rb.isLt
  show 0x7C0001AE + rs.toNat * 2^21 + ra.toNat * 2^16 + rb.toNat * 2^11 < 2^32
  omega

theorem EncodingFits.ppeStbux (rs : BitVec 5) (ra : BitVec 5) (rb : BitVec 5) : EncodingFits.Statement (.ppeStbux rs ra rb) := by
  have h0 := rs.isLt
  have h1 := ra.isLt
  have h2 := rb.isLt
  show 0x7C0001EE + rs.toNat * 2^21 + ra.toNat * 2^16 + rb.toNat * 2^11 < 2^32
  omega

theorem EncodingFits.ppeSthx (rs : BitVec 5) (ra : BitVec 5) (rb : BitVec 5) : EncodingFits.Statement (.ppeSthx rs ra rb) := by
  have h0 := rs.isLt
  have h1 := ra.isLt
  have h2 := rb.isLt
  show 0x7C00032E + rs.toNat * 2^21 + ra.toNat * 2^16 + rb.toNat * 2^11 < 2^32
  omega

theorem EncodingFits.ppeSthux (rs : BitVec 5) (ra : BitVec 5) (rb : BitVec 5) : EncodingFits.Statement (.ppeSthux rs ra rb) := by
  have h0 := rs.isLt
  have h1 := ra.isLt
  have h2 := rb.isLt
  show 0x7C00036E + rs.toNat * 2^21 + ra.toNat * 2^16 + rb.toNat * 2^11 < 2^32
  omega

theorem EncodingFits.ppeStwx (rs : BitVec 5) (ra : BitVec 5) (rb : BitVec 5) : EncodingFits.Statement (.ppeStwx rs ra rb) := by
  have h0 := rs.isLt
  have h1 := ra.isLt
  have h2 := rb.isLt
  show 0x7C00012E + rs.toNat * 2^21 + ra.toNat * 2^16 + rb.toNat * 2^11 < 2^32
  omega

theorem EncodingFits.ppeStwux (rs : BitVec 5) (ra : BitVec 5) (rb : BitVec 5) : EncodingFits.Statement (.ppeStwux rs ra rb) := by
  have h0 := rs.isLt
  have h1 := ra.isLt
  have h2 := rb.isLt
  show 0x7C00016E + rs.toNat * 2^21 + ra.toNat * 2^16 + rb.toNat * 2^11 < 2^32
  omega

theorem EncodingFits.ppeStdx (rs : BitVec 5) (ra : BitVec 5) (rb : BitVec 5) : EncodingFits.Statement (.ppeStdx rs ra rb) := by
  have h0 := rs.isLt
  have h1 := ra.isLt
  have h2 := rb.isLt
  show 0x7C00012A + rs.toNat * 2^21 + ra.toNat * 2^16 + rb.toNat * 2^11 < 2^32
  omega

theorem EncodingFits.ppeStdux (rs : BitVec 5) (ra : BitVec 5) (rb : BitVec 5) : EncodingFits.Statement (.ppeStdux rs ra rb) := by
  have h0 := rs.isLt
  have h1 := ra.isLt
  have h2 := rb.isLt
  show 0x7C00016A + rs.toNat * 2^21 + ra.toNat * 2^16 + rb.toNat * 2^11 < 2^32
  omega

theorem EncodingFits.ppeSthbrx (rs : BitVec 5) (ra : BitVec 5) (rb : BitVec 5) :
    EncodingFits.Statement (.ppeSthbrx rs ra rb) := by
  have h0 := rs.isLt
  have h1 := ra.isLt
  have h2 := rb.isLt
  show 0x7C00072C + rs.toNat * 2^21 + ra.toNat * 2^16 + rb.toNat * 2^11 < 2^32
  omega

theorem EncodingFits.ppeStwbrx (rs : BitVec 5) (ra : BitVec 5) (rb : BitVec 5) :
    EncodingFits.Statement (.ppeStwbrx rs ra rb) := by
  have h0 := rs.isLt
  have h1 := ra.isLt
  have h2 := rb.isLt
  show 0x7C00052C + rs.toNat * 2^21 + ra.toNat * 2^16 + rb.toNat * 2^11 < 2^32
  omega

theorem EncodingFits.ppeStswx (rs : BitVec 5) (ra : BitVec 5) (rb : BitVec 5) : EncodingFits.Statement (.ppeStswx rs ra rb) := by
  have h0 := rs.isLt
  have h1 := ra.isLt
  have h2 := rb.isLt
  show 0x7C00052A + rs.toNat * 2^21 + ra.toNat * 2^16 + rb.toNat * 2^11 < 2^32
  omega

theorem EncodingFits.ppeStdbrx (rs : BitVec 5) (ra : BitVec 5) (rb : BitVec 5) :
    EncodingFits.Statement (.ppeStdbrx rs ra rb) := by
  have h0 := rs.isLt
  have h1 := ra.isLt
  have h2 := rb.isLt
  show 0x7C000528 + rs.toNat * 2^21 + ra.toNat * 2^16 + rb.toNat * 2^11 < 2^32
  omega

theorem EncodingFits.ppeLswi (rt : BitVec 5) (ra : BitVec 5) (nb : BitVec 5) : EncodingFits.Statement (.ppeLswi rt ra nb) := by
  have h0 := rt.isLt
  have h1 := ra.isLt
  have h2 := nb.isLt
  show 0x7C0004AA + rt.toNat * 2^21 + ra.toNat * 2^16 + nb.toNat * 2^11 < 2^32
  omega

theorem EncodingFits.ppeStswi (rs : BitVec 5) (ra : BitVec 5) (nb : BitVec 5) : EncodingFits.Statement (.ppeStswi rs ra nb) := by
  have h0 := rs.isLt
  have h1 := ra.isLt
  have h2 := nb.isLt
  show 0x7C0005AA + rs.toNat * 2^21 + ra.toNat * 2^16 + nb.toNat * 2^11 < 2^32
  omega

theorem EncodingFits.ppeStwcxDot (rs : BitVec 5) (ra : BitVec 5) (rb : BitVec 5) :
    EncodingFits.Statement (.ppeStwcxDot rs ra rb) := by
  have h0 := rs.isLt
  have h1 := ra.isLt
  have h2 := rb.isLt
  show 0x7C00012D + rs.toNat * 2^21 + ra.toNat * 2^16 + rb.toNat * 2^11 < 2^32
  omega

theorem EncodingFits.ppeStdcxDot (rs : BitVec 5) (ra : BitVec 5) (rb : BitVec 5) :
    EncodingFits.Statement (.ppeStdcxDot rs ra rb) := by
  have h0 := rs.isLt
  have h1 := ra.isLt
  have h2 := rb.isLt
  show 0x7C0001AD + rs.toNat * 2^21 + ra.toNat * 2^16 + rb.toNat * 2^11 < 2^32
  omega

theorem EncodingFits.ppeDcbt (th : BitVec 4) (ra : BitVec 5) (rb : BitVec 5) : EncodingFits.Statement (.ppeDcbt th ra rb) := by
  have h0 := th.isLt
  have h1 := ra.isLt
  have h2 := rb.isLt
  show 0x7C00022C + th.toNat * 2^21 + ra.toNat * 2^16 + rb.toNat * 2^11 < 2^32
  omega

theorem EncodingFits.ppeDcbtst (ra : BitVec 5) (rb : BitVec 5) : EncodingFits.Statement (.ppeDcbtst ra rb) := by
  have h0 := ra.isLt
  have h1 := rb.isLt
  show 0x7C0001EC + ra.toNat * 2^16 + rb.toNat * 2^11 < 2^32
  omega

theorem EncodingFits.ppeDcbz (ra : BitVec 5) (rb : BitVec 5) : EncodingFits.Statement (.ppeDcbz ra rb) := by
  have h0 := ra.isLt
  have h1 := rb.isLt
  show 0x7C0007EC + ra.toNat * 2^16 + rb.toNat * 2^11 < 2^32
  omega

theorem EncodingFits.ppeDcbst (ra : BitVec 5) (rb : BitVec 5) : EncodingFits.Statement (.ppeDcbst ra rb) := by
  have h0 := ra.isLt
  have h1 := rb.isLt
  show 0x7C00006C + ra.toNat * 2^16 + rb.toNat * 2^11 < 2^32
  omega

theorem EncodingFits.ppeDcbf (ra : BitVec 5) (rb : BitVec 5) : EncodingFits.Statement (.ppeDcbf ra rb) := by
  have h0 := ra.isLt
  have h1 := rb.isLt
  show 0x7C0000AC + ra.toNat * 2^16 + rb.toNat * 2^11 < 2^32
  omega

theorem EncodingFits.ppeIcbi (ra : BitVec 5) (rb : BitVec 5) : EncodingFits.Statement (.ppeIcbi ra rb) := by
  have h0 := ra.isLt
  have h1 := rb.isLt
  show 0x7C0007AC + ra.toNat * 2^16 + rb.toNat * 2^11 < 2^32
  omega

theorem EncodingFits.ppeLfsx (frt : BitVec 5) (ra : BitVec 5) (rb : BitVec 5) : EncodingFits.Statement (.ppeLfsx frt ra rb) := by
  have h0 := frt.isLt
  have h1 := ra.isLt
  have h2 := rb.isLt
  show 0x7C00042E + frt.toNat * 2^21 + ra.toNat * 2^16 + rb.toNat * 2^11 < 2^32
  omega

theorem EncodingFits.ppeLfsux (frt : BitVec 5) (ra : BitVec 5) (rb : BitVec 5) :
    EncodingFits.Statement (.ppeLfsux frt ra rb) := by
  have h0 := frt.isLt
  have h1 := ra.isLt
  have h2 := rb.isLt
  show 0x7C00046E + frt.toNat * 2^21 + ra.toNat * 2^16 + rb.toNat * 2^11 < 2^32
  omega

theorem EncodingFits.ppeLfdx (frt : BitVec 5) (ra : BitVec 5) (rb : BitVec 5) : EncodingFits.Statement (.ppeLfdx frt ra rb) := by
  have h0 := frt.isLt
  have h1 := ra.isLt
  have h2 := rb.isLt
  show 0x7C0004AE + frt.toNat * 2^21 + ra.toNat * 2^16 + rb.toNat * 2^11 < 2^32
  omega

theorem EncodingFits.ppeLfdux (frt : BitVec 5) (ra : BitVec 5) (rb : BitVec 5) :
    EncodingFits.Statement (.ppeLfdux frt ra rb) := by
  have h0 := frt.isLt
  have h1 := ra.isLt
  have h2 := rb.isLt
  show 0x7C0004EE + frt.toNat * 2^21 + ra.toNat * 2^16 + rb.toNat * 2^11 < 2^32
  omega

theorem EncodingFits.ppeStfsx (frs : BitVec 5) (ra : BitVec 5) (rb : BitVec 5) :
    EncodingFits.Statement (.ppeStfsx frs ra rb) := by
  have h0 := frs.isLt
  have h1 := ra.isLt
  have h2 := rb.isLt
  show 0x7C00052E + frs.toNat * 2^21 + ra.toNat * 2^16 + rb.toNat * 2^11 < 2^32
  omega

theorem EncodingFits.ppeStfsux (frs : BitVec 5) (ra : BitVec 5) (rb : BitVec 5) :
    EncodingFits.Statement (.ppeStfsux frs ra rb) := by
  have h0 := frs.isLt
  have h1 := ra.isLt
  have h2 := rb.isLt
  show 0x7C00056E + frs.toNat * 2^21 + ra.toNat * 2^16 + rb.toNat * 2^11 < 2^32
  omega

theorem EncodingFits.ppeStfdx (frs : BitVec 5) (ra : BitVec 5) (rb : BitVec 5) :
    EncodingFits.Statement (.ppeStfdx frs ra rb) := by
  have h0 := frs.isLt
  have h1 := ra.isLt
  have h2 := rb.isLt
  show 0x7C0005AE + frs.toNat * 2^21 + ra.toNat * 2^16 + rb.toNat * 2^11 < 2^32
  omega

theorem EncodingFits.ppeStfdux (frs : BitVec 5) (ra : BitVec 5) (rb : BitVec 5) :
    EncodingFits.Statement (.ppeStfdux frs ra rb) := by
  have h0 := frs.isLt
  have h1 := ra.isLt
  have h2 := rb.isLt
  show 0x7C0005EE + frs.toNat * 2^21 + ra.toNat * 2^16 + rb.toNat * 2^11 < 2^32
  omega

theorem EncodingFits.ppeStfiwx (frs : BitVec 5) (ra : BitVec 5) (rb : BitVec 5) :
    EncodingFits.Statement (.ppeStfiwx frs ra rb) := by
  have h0 := frs.isLt
  have h1 := ra.isLt
  have h2 := rb.isLt
  show 0x7C0007AE + frs.toNat * 2^21 + ra.toNat * 2^16 + rb.toNat * 2^11 < 2^32
  omega

theorem EncodingFits.ppeAddi (rt : BitVec 5) (ra : BitVec 5) (si : BitVec 16) : EncodingFits.Statement (.ppeAddi rt ra si) := by
  have h0 := rt.isLt
  have h1 := ra.isLt
  have h2 := si.isLt
  show 0x38000000 + rt.toNat * 2^21 + ra.toNat * 2^16 + si.toNat * 2^0 < 2^32
  omega

theorem EncodingFits.ppeAddis (rt : BitVec 5) (ra : BitVec 5) (si : BitVec 16) : EncodingFits.Statement (.ppeAddis rt ra si) := by
  have h0 := rt.isLt
  have h1 := ra.isLt
  have h2 := si.isLt
  show 0x3C000000 + rt.toNat * 2^21 + ra.toNat * 2^16 + si.toNat * 2^0 < 2^32
  omega

theorem EncodingFits.ppeAddic (rt : BitVec 5) (ra : BitVec 5) (si : BitVec 16) : EncodingFits.Statement (.ppeAddic rt ra si) := by
  have h0 := rt.isLt
  have h1 := ra.isLt
  have h2 := si.isLt
  show 0x30000000 + rt.toNat * 2^21 + ra.toNat * 2^16 + si.toNat * 2^0 < 2^32
  omega

theorem EncodingFits.ppeAddicDot (rt : BitVec 5) (ra : BitVec 5) (si : BitVec 16) :
    EncodingFits.Statement (.ppeAddicDot rt ra si) := by
  have h0 := rt.isLt
  have h1 := ra.isLt
  have h2 := si.isLt
  show 0x34000000 + rt.toNat * 2^21 + ra.toNat * 2^16 + si.toNat * 2^0 < 2^32
  omega

theorem EncodingFits.ppeSubfic (rt : BitVec 5) (ra : BitVec 5) (si : BitVec 16) :
    EncodingFits.Statement (.ppeSubfic rt ra si) := by
  have h0 := rt.isLt
  have h1 := ra.isLt
  have h2 := si.isLt
  show 0x20000000 + rt.toNat * 2^21 + ra.toNat * 2^16 + si.toNat * 2^0 < 2^32
  omega

theorem EncodingFits.ppeMulli (rt : BitVec 5) (ra : BitVec 5) (si : BitVec 16) : EncodingFits.Statement (.ppeMulli rt ra si) := by
  have h0 := rt.isLt
  have h1 := ra.isLt
  have h2 := si.isLt
  show 0x1C000000 + rt.toNat * 2^21 + ra.toNat * 2^16 + si.toNat * 2^0 < 2^32
  omega

theorem EncodingFits.ppeOri (rs : BitVec 5) (ra : BitVec 5) (ui : BitVec 16) : EncodingFits.Statement (.ppeOri rs ra ui) := by
  have h0 := rs.isLt
  have h1 := ra.isLt
  have h2 := ui.isLt
  show 0x60000000 + rs.toNat * 2^21 + ra.toNat * 2^16 + ui.toNat * 2^0 < 2^32
  omega

theorem EncodingFits.ppeOris (rs : BitVec 5) (ra : BitVec 5) (ui : BitVec 16) : EncodingFits.Statement (.ppeOris rs ra ui) := by
  have h0 := rs.isLt
  have h1 := ra.isLt
  have h2 := ui.isLt
  show 0x64000000 + rs.toNat * 2^21 + ra.toNat * 2^16 + ui.toNat * 2^0 < 2^32
  omega

theorem EncodingFits.ppeXori (rs : BitVec 5) (ra : BitVec 5) (ui : BitVec 16) : EncodingFits.Statement (.ppeXori rs ra ui) := by
  have h0 := rs.isLt
  have h1 := ra.isLt
  have h2 := ui.isLt
  show 0x68000000 + rs.toNat * 2^21 + ra.toNat * 2^16 + ui.toNat * 2^0 < 2^32
  omega

theorem EncodingFits.ppeXoris (rs : BitVec 5) (ra : BitVec 5) (ui : BitVec 16) : EncodingFits.Statement (.ppeXoris rs ra ui) := by
  have h0 := rs.isLt
  have h1 := ra.isLt
  have h2 := ui.isLt
  show 0x6C000000 + rs.toNat * 2^21 + ra.toNat * 2^16 + ui.toNat * 2^0 < 2^32
  omega

theorem EncodingFits.ppeAndiDot (rs : BitVec 5) (ra : BitVec 5) (ui : BitVec 16) :
    EncodingFits.Statement (.ppeAndiDot rs ra ui) := by
  have h0 := rs.isLt
  have h1 := ra.isLt
  have h2 := ui.isLt
  show 0x70000000 + rs.toNat * 2^21 + ra.toNat * 2^16 + ui.toNat * 2^0 < 2^32
  omega

theorem EncodingFits.ppeAndisDot (rs : BitVec 5) (ra : BitVec 5) (ui : BitVec 16) :
    EncodingFits.Statement (.ppeAndisDot rs ra ui) := by
  have h0 := rs.isLt
  have h1 := ra.isLt
  have h2 := ui.isLt
  show 0x74000000 + rs.toNat * 2^21 + ra.toNat * 2^16 + ui.toNat * 2^0 < 2^32
  omega

theorem EncodingFits.ppeCmpi (bf : BitVec 3) (l : Bool) (ra : BitVec 5) (si : BitVec 16) :
    EncodingFits.Statement (.ppeCmpi bf l ra si) := by
  have h0 := bf.isLt
  have h1 := l.toNat_lt
  have h2 := ra.isLt
  have h3 := si.isLt
  show 0x2C000000 + bf.toNat * 2^23 + l.toNat * 2^21 + ra.toNat * 2^16 + si.toNat * 2^0 < 2^32
  omega

theorem EncodingFits.ppeCmpli (bf : BitVec 3) (l : Bool) (ra : BitVec 5) (ui : BitVec 16) :
    EncodingFits.Statement (.ppeCmpli bf l ra ui) := by
  have h0 := bf.isLt
  have h1 := l.toNat_lt
  have h2 := ra.isLt
  have h3 := ui.isLt
  show 0x28000000 + bf.toNat * 2^23 + l.toNat * 2^21 + ra.toNat * 2^16 + ui.toNat * 2^0 < 2^32
  omega

theorem EncodingFits.ppeAdd (rt : BitVec 5) (ra : BitVec 5) (rb : BitVec 5) (oe : Bool) (rec : Bool) :
    EncodingFits.Statement (.ppeAdd rt ra rb oe rec) := by
  have h0 := rt.isLt
  have h1 := ra.isLt
  have h2 := rb.isLt
  have h3 := oe.toNat_lt
  have h4 := rec.toNat_lt
  show 0x7C000214 + rt.toNat * 2^21 + ra.toNat * 2^16 + rb.toNat * 2^11 + oe.toNat * 2^10 + rec.toNat * 2^0 < 2^32
  omega

theorem EncodingFits.ppeAddc (rt : BitVec 5) (ra : BitVec 5) (rb : BitVec 5) (oe : Bool) (rec : Bool) :
    EncodingFits.Statement (.ppeAddc rt ra rb oe rec) := by
  have h0 := rt.isLt
  have h1 := ra.isLt
  have h2 := rb.isLt
  have h3 := oe.toNat_lt
  have h4 := rec.toNat_lt
  show 0x7C000014 + rt.toNat * 2^21 + ra.toNat * 2^16 + rb.toNat * 2^11 + oe.toNat * 2^10 + rec.toNat * 2^0 < 2^32
  omega

theorem EncodingFits.ppeAdde (rt : BitVec 5) (ra : BitVec 5) (rb : BitVec 5) (oe : Bool) (rec : Bool) :
    EncodingFits.Statement (.ppeAdde rt ra rb oe rec) := by
  have h0 := rt.isLt
  have h1 := ra.isLt
  have h2 := rb.isLt
  have h3 := oe.toNat_lt
  have h4 := rec.toNat_lt
  show 0x7C000114 + rt.toNat * 2^21 + ra.toNat * 2^16 + rb.toNat * 2^11 + oe.toNat * 2^10 + rec.toNat * 2^0 < 2^32
  omega

theorem EncodingFits.ppeSubf (rt : BitVec 5) (ra : BitVec 5) (rb : BitVec 5) (oe : Bool) (rec : Bool) :
    EncodingFits.Statement (.ppeSubf rt ra rb oe rec) := by
  have h0 := rt.isLt
  have h1 := ra.isLt
  have h2 := rb.isLt
  have h3 := oe.toNat_lt
  have h4 := rec.toNat_lt
  show 0x7C000050 + rt.toNat * 2^21 + ra.toNat * 2^16 + rb.toNat * 2^11 + oe.toNat * 2^10 + rec.toNat * 2^0 < 2^32
  omega

theorem EncodingFits.ppeSubfc (rt : BitVec 5) (ra : BitVec 5) (rb : BitVec 5) (oe : Bool) (rec : Bool) :
    EncodingFits.Statement (.ppeSubfc rt ra rb oe rec) := by
  have h0 := rt.isLt
  have h1 := ra.isLt
  have h2 := rb.isLt
  have h3 := oe.toNat_lt
  have h4 := rec.toNat_lt
  show 0x7C000010 + rt.toNat * 2^21 + ra.toNat * 2^16 + rb.toNat * 2^11 + oe.toNat * 2^10 + rec.toNat * 2^0 < 2^32
  omega

theorem EncodingFits.ppeSubfe (rt : BitVec 5) (ra : BitVec 5) (rb : BitVec 5) (oe : Bool) (rec : Bool) :
    EncodingFits.Statement (.ppeSubfe rt ra rb oe rec) := by
  have h0 := rt.isLt
  have h1 := ra.isLt
  have h2 := rb.isLt
  have h3 := oe.toNat_lt
  have h4 := rec.toNat_lt
  show 0x7C000110 + rt.toNat * 2^21 + ra.toNat * 2^16 + rb.toNat * 2^11 + oe.toNat * 2^10 + rec.toNat * 2^0 < 2^32
  omega

theorem EncodingFits.ppeMullw (rt : BitVec 5) (ra : BitVec 5) (rb : BitVec 5) (oe : Bool) (rec : Bool) :
    EncodingFits.Statement (.ppeMullw rt ra rb oe rec) := by
  have h0 := rt.isLt
  have h1 := ra.isLt
  have h2 := rb.isLt
  have h3 := oe.toNat_lt
  have h4 := rec.toNat_lt
  show 0x7C0001D6 + rt.toNat * 2^21 + ra.toNat * 2^16 + rb.toNat * 2^11 + oe.toNat * 2^10 + rec.toNat * 2^0 < 2^32
  omega

theorem EncodingFits.ppeMulld (rt : BitVec 5) (ra : BitVec 5) (rb : BitVec 5) (oe : Bool) (rec : Bool) :
    EncodingFits.Statement (.ppeMulld rt ra rb oe rec) := by
  have h0 := rt.isLt
  have h1 := ra.isLt
  have h2 := rb.isLt
  have h3 := oe.toNat_lt
  have h4 := rec.toNat_lt
  show 0x7C0001D2 + rt.toNat * 2^21 + ra.toNat * 2^16 + rb.toNat * 2^11 + oe.toNat * 2^10 + rec.toNat * 2^0 < 2^32
  omega

theorem EncodingFits.ppeDivw (rt : BitVec 5) (ra : BitVec 5) (rb : BitVec 5) (oe : Bool) (rec : Bool) :
    EncodingFits.Statement (.ppeDivw rt ra rb oe rec) := by
  have h0 := rt.isLt
  have h1 := ra.isLt
  have h2 := rb.isLt
  have h3 := oe.toNat_lt
  have h4 := rec.toNat_lt
  show 0x7C0003D6 + rt.toNat * 2^21 + ra.toNat * 2^16 + rb.toNat * 2^11 + oe.toNat * 2^10 + rec.toNat * 2^0 < 2^32
  omega

theorem EncodingFits.ppeDivwu (rt : BitVec 5) (ra : BitVec 5) (rb : BitVec 5) (oe : Bool) (rec : Bool) :
    EncodingFits.Statement (.ppeDivwu rt ra rb oe rec) := by
  have h0 := rt.isLt
  have h1 := ra.isLt
  have h2 := rb.isLt
  have h3 := oe.toNat_lt
  have h4 := rec.toNat_lt
  show 0x7C000396 + rt.toNat * 2^21 + ra.toNat * 2^16 + rb.toNat * 2^11 + oe.toNat * 2^10 + rec.toNat * 2^0 < 2^32
  omega

theorem EncodingFits.ppeDivd (rt : BitVec 5) (ra : BitVec 5) (rb : BitVec 5) (oe : Bool) (rec : Bool) :
    EncodingFits.Statement (.ppeDivd rt ra rb oe rec) := by
  have h0 := rt.isLt
  have h1 := ra.isLt
  have h2 := rb.isLt
  have h3 := oe.toNat_lt
  have h4 := rec.toNat_lt
  show 0x7C0003D2 + rt.toNat * 2^21 + ra.toNat * 2^16 + rb.toNat * 2^11 + oe.toNat * 2^10 + rec.toNat * 2^0 < 2^32
  omega

theorem EncodingFits.ppeDivdu (rt : BitVec 5) (ra : BitVec 5) (rb : BitVec 5) (oe : Bool) (rec : Bool) :
    EncodingFits.Statement (.ppeDivdu rt ra rb oe rec) := by
  have h0 := rt.isLt
  have h1 := ra.isLt
  have h2 := rb.isLt
  have h3 := oe.toNat_lt
  have h4 := rec.toNat_lt
  show 0x7C000392 + rt.toNat * 2^21 + ra.toNat * 2^16 + rb.toNat * 2^11 + oe.toNat * 2^10 + rec.toNat * 2^0 < 2^32
  omega

theorem EncodingFits.ppeAddme (rt : BitVec 5) (ra : BitVec 5) (oe : Bool) (rec : Bool) :
    EncodingFits.Statement (.ppeAddme rt ra oe rec) := by
  have h0 := rt.isLt
  have h1 := ra.isLt
  have h2 := oe.toNat_lt
  have h3 := rec.toNat_lt
  show 0x7C0001D4 + rt.toNat * 2^21 + ra.toNat * 2^16 + oe.toNat * 2^10 + rec.toNat * 2^0 < 2^32
  omega

theorem EncodingFits.ppeAddze (rt : BitVec 5) (ra : BitVec 5) (oe : Bool) (rec : Bool) :
    EncodingFits.Statement (.ppeAddze rt ra oe rec) := by
  have h0 := rt.isLt
  have h1 := ra.isLt
  have h2 := oe.toNat_lt
  have h3 := rec.toNat_lt
  show 0x7C000194 + rt.toNat * 2^21 + ra.toNat * 2^16 + oe.toNat * 2^10 + rec.toNat * 2^0 < 2^32
  omega

theorem EncodingFits.ppeSubfme (rt : BitVec 5) (ra : BitVec 5) (oe : Bool) (rec : Bool) :
    EncodingFits.Statement (.ppeSubfme rt ra oe rec) := by
  have h0 := rt.isLt
  have h1 := ra.isLt
  have h2 := oe.toNat_lt
  have h3 := rec.toNat_lt
  show 0x7C0001D0 + rt.toNat * 2^21 + ra.toNat * 2^16 + oe.toNat * 2^10 + rec.toNat * 2^0 < 2^32
  omega

theorem EncodingFits.ppeSubfze (rt : BitVec 5) (ra : BitVec 5) (oe : Bool) (rec : Bool) :
    EncodingFits.Statement (.ppeSubfze rt ra oe rec) := by
  have h0 := rt.isLt
  have h1 := ra.isLt
  have h2 := oe.toNat_lt
  have h3 := rec.toNat_lt
  show 0x7C000190 + rt.toNat * 2^21 + ra.toNat * 2^16 + oe.toNat * 2^10 + rec.toNat * 2^0 < 2^32
  omega

theorem EncodingFits.ppeNeg (rt : BitVec 5) (ra : BitVec 5) (oe : Bool) (rec : Bool) :
    EncodingFits.Statement (.ppeNeg rt ra oe rec) := by
  have h0 := rt.isLt
  have h1 := ra.isLt
  have h2 := oe.toNat_lt
  have h3 := rec.toNat_lt
  show 0x7C0000D0 + rt.toNat * 2^21 + ra.toNat * 2^16 + oe.toNat * 2^10 + rec.toNat * 2^0 < 2^32
  omega

theorem EncodingFits.ppeMulhw (rt : BitVec 5) (ra : BitVec 5) (rb : BitVec 5) (rec : Bool) :
    EncodingFits.Statement (.ppeMulhw rt ra rb rec) := by
  have h0 := rt.isLt
  have h1 := ra.isLt
  have h2 := rb.isLt
  have h3 := rec.toNat_lt
  show 0x7C000096 + rt.toNat * 2^21 + ra.toNat * 2^16 + rb.toNat * 2^11 + rec.toNat * 2^0 < 2^32
  omega

theorem EncodingFits.ppeMulhwu (rt : BitVec 5) (ra : BitVec 5) (rb : BitVec 5) (rec : Bool) :
    EncodingFits.Statement (.ppeMulhwu rt ra rb rec) := by
  have h0 := rt.isLt
  have h1 := ra.isLt
  have h2 := rb.isLt
  have h3 := rec.toNat_lt
  show 0x7C000016 + rt.toNat * 2^21 + ra.toNat * 2^16 + rb.toNat * 2^11 + rec.toNat * 2^0 < 2^32
  omega

theorem EncodingFits.ppeMulhd (rt : BitVec 5) (ra : BitVec 5) (rb : BitVec 5) (rec : Bool) :
    EncodingFits.Statement (.ppeMulhd rt ra rb rec) := by
  have h0 := rt.isLt
  have h1 := ra.isLt
  have h2 := rb.isLt
  have h3 := rec.toNat_lt
  show 0x7C000092 + rt.toNat * 2^21 + ra.toNat * 2^16 + rb.toNat * 2^11 + rec.toNat * 2^0 < 2^32
  omega

theorem EncodingFits.ppeMulhdu (rt : BitVec 5) (ra : BitVec 5) (rb : BitVec 5) (rec : Bool) :
    EncodingFits.Statement (.ppeMulhdu rt ra rb rec) := by
  have h0 := rt.isLt
  have h1 := ra.isLt
  have h2 := rb.isLt
  have h3 := rec.toNat_lt
  show 0x7C000012 + rt.toNat * 2^21 + ra.toNat * 2^16 + rb.toNat * 2^11 + rec.toNat * 2^0 < 2^32
  omega

theorem EncodingFits.ppeCmp (bf : BitVec 3) (l : Bool) (ra : BitVec 5) (rb : BitVec 5) :
    EncodingFits.Statement (.ppeCmp bf l ra rb) := by
  have h0 := bf.isLt
  have h1 := l.toNat_lt
  have h2 := ra.isLt
  have h3 := rb.isLt
  show 0x7C000000 + bf.toNat * 2^23 + l.toNat * 2^21 + ra.toNat * 2^16 + rb.toNat * 2^11 < 2^32
  omega

theorem EncodingFits.ppeCmpl (bf : BitVec 3) (l : Bool) (ra : BitVec 5) (rb : BitVec 5) :
    EncodingFits.Statement (.ppeCmpl bf l ra rb) := by
  have h0 := bf.isLt
  have h1 := l.toNat_lt
  have h2 := ra.isLt
  have h3 := rb.isLt
  show 0x7C000040 + bf.toNat * 2^23 + l.toNat * 2^21 + ra.toNat * 2^16 + rb.toNat * 2^11 < 2^32
  omega

theorem EncodingFits.ppeAnd (rs : BitVec 5) (ra : BitVec 5) (rb : BitVec 5) (rec : Bool) :
    EncodingFits.Statement (.ppeAnd rs ra rb rec) := by
  have h0 := rs.isLt
  have h1 := ra.isLt
  have h2 := rb.isLt
  have h3 := rec.toNat_lt
  show 0x7C000038 + rs.toNat * 2^21 + ra.toNat * 2^16 + rb.toNat * 2^11 + rec.toNat * 2^0 < 2^32
  omega

theorem EncodingFits.ppeAndc (rs : BitVec 5) (ra : BitVec 5) (rb : BitVec 5) (rec : Bool) :
    EncodingFits.Statement (.ppeAndc rs ra rb rec) := by
  have h0 := rs.isLt
  have h1 := ra.isLt
  have h2 := rb.isLt
  have h3 := rec.toNat_lt
  show 0x7C000078 + rs.toNat * 2^21 + ra.toNat * 2^16 + rb.toNat * 2^11 + rec.toNat * 2^0 < 2^32
  omega

theorem EncodingFits.ppeOr (rs : BitVec 5) (ra : BitVec 5) (rb : BitVec 5) (rec : Bool) :
    EncodingFits.Statement (.ppeOr rs ra rb rec) := by
  have h0 := rs.isLt
  have h1 := ra.isLt
  have h2 := rb.isLt
  have h3 := rec.toNat_lt
  show 0x7C000378 + rs.toNat * 2^21 + ra.toNat * 2^16 + rb.toNat * 2^11 + rec.toNat * 2^0 < 2^32
  omega

theorem EncodingFits.ppeOrc (rs : BitVec 5) (ra : BitVec 5) (rb : BitVec 5) (rec : Bool) :
    EncodingFits.Statement (.ppeOrc rs ra rb rec) := by
  have h0 := rs.isLt
  have h1 := ra.isLt
  have h2 := rb.isLt
  have h3 := rec.toNat_lt
  show 0x7C000338 + rs.toNat * 2^21 + ra.toNat * 2^16 + rb.toNat * 2^11 + rec.toNat * 2^0 < 2^32
  omega

theorem EncodingFits.ppeXor (rs : BitVec 5) (ra : BitVec 5) (rb : BitVec 5) (rec : Bool) :
    EncodingFits.Statement (.ppeXor rs ra rb rec) := by
  have h0 := rs.isLt
  have h1 := ra.isLt
  have h2 := rb.isLt
  have h3 := rec.toNat_lt
  show 0x7C000278 + rs.toNat * 2^21 + ra.toNat * 2^16 + rb.toNat * 2^11 + rec.toNat * 2^0 < 2^32
  omega

theorem EncodingFits.ppeNand (rs : BitVec 5) (ra : BitVec 5) (rb : BitVec 5) (rec : Bool) :
    EncodingFits.Statement (.ppeNand rs ra rb rec) := by
  have h0 := rs.isLt
  have h1 := ra.isLt
  have h2 := rb.isLt
  have h3 := rec.toNat_lt
  show 0x7C0003B8 + rs.toNat * 2^21 + ra.toNat * 2^16 + rb.toNat * 2^11 + rec.toNat * 2^0 < 2^32
  omega

theorem EncodingFits.ppeNor (rs : BitVec 5) (ra : BitVec 5) (rb : BitVec 5) (rec : Bool) :
    EncodingFits.Statement (.ppeNor rs ra rb rec) := by
  have h0 := rs.isLt
  have h1 := ra.isLt
  have h2 := rb.isLt
  have h3 := rec.toNat_lt
  show 0x7C0000F8 + rs.toNat * 2^21 + ra.toNat * 2^16 + rb.toNat * 2^11 + rec.toNat * 2^0 < 2^32
  omega

theorem EncodingFits.ppeEqv (rs : BitVec 5) (ra : BitVec 5) (rb : BitVec 5) (rec : Bool) :
    EncodingFits.Statement (.ppeEqv rs ra rb rec) := by
  have h0 := rs.isLt
  have h1 := ra.isLt
  have h2 := rb.isLt
  have h3 := rec.toNat_lt
  show 0x7C000238 + rs.toNat * 2^21 + ra.toNat * 2^16 + rb.toNat * 2^11 + rec.toNat * 2^0 < 2^32
  omega

theorem EncodingFits.ppeSlw (rs : BitVec 5) (ra : BitVec 5) (rb : BitVec 5) (rec : Bool) :
    EncodingFits.Statement (.ppeSlw rs ra rb rec) := by
  have h0 := rs.isLt
  have h1 := ra.isLt
  have h2 := rb.isLt
  have h3 := rec.toNat_lt
  show 0x7C000030 + rs.toNat * 2^21 + ra.toNat * 2^16 + rb.toNat * 2^11 + rec.toNat * 2^0 < 2^32
  omega

theorem EncodingFits.ppeSrw (rs : BitVec 5) (ra : BitVec 5) (rb : BitVec 5) (rec : Bool) :
    EncodingFits.Statement (.ppeSrw rs ra rb rec) := by
  have h0 := rs.isLt
  have h1 := ra.isLt
  have h2 := rb.isLt
  have h3 := rec.toNat_lt
  show 0x7C000430 + rs.toNat * 2^21 + ra.toNat * 2^16 + rb.toNat * 2^11 + rec.toNat * 2^0 < 2^32
  omega

theorem EncodingFits.ppeSraw (rs : BitVec 5) (ra : BitVec 5) (rb : BitVec 5) (rec : Bool) :
    EncodingFits.Statement (.ppeSraw rs ra rb rec) := by
  have h0 := rs.isLt
  have h1 := ra.isLt
  have h2 := rb.isLt
  have h3 := rec.toNat_lt
  show 0x7C000630 + rs.toNat * 2^21 + ra.toNat * 2^16 + rb.toNat * 2^11 + rec.toNat * 2^0 < 2^32
  omega

theorem EncodingFits.ppeSld (rs : BitVec 5) (ra : BitVec 5) (rb : BitVec 5) (rec : Bool) :
    EncodingFits.Statement (.ppeSld rs ra rb rec) := by
  have h0 := rs.isLt
  have h1 := ra.isLt
  have h2 := rb.isLt
  have h3 := rec.toNat_lt
  show 0x7C000036 + rs.toNat * 2^21 + ra.toNat * 2^16 + rb.toNat * 2^11 + rec.toNat * 2^0 < 2^32
  omega

theorem EncodingFits.ppeSrd (rs : BitVec 5) (ra : BitVec 5) (rb : BitVec 5) (rec : Bool) :
    EncodingFits.Statement (.ppeSrd rs ra rb rec) := by
  have h0 := rs.isLt
  have h1 := ra.isLt
  have h2 := rb.isLt
  have h3 := rec.toNat_lt
  show 0x7C000436 + rs.toNat * 2^21 + ra.toNat * 2^16 + rb.toNat * 2^11 + rec.toNat * 2^0 < 2^32
  omega

theorem EncodingFits.ppeSrad (rs : BitVec 5) (ra : BitVec 5) (rb : BitVec 5) (rec : Bool) :
    EncodingFits.Statement (.ppeSrad rs ra rb rec) := by
  have h0 := rs.isLt
  have h1 := ra.isLt
  have h2 := rb.isLt
  have h3 := rec.toNat_lt
  show 0x7C000634 + rs.toNat * 2^21 + ra.toNat * 2^16 + rb.toNat * 2^11 + rec.toNat * 2^0 < 2^32
  omega

theorem EncodingFits.ppeExtsb (rs : BitVec 5) (ra : BitVec 5) (rec : Bool) : EncodingFits.Statement (.ppeExtsb rs ra rec) := by
  have h0 := rs.isLt
  have h1 := ra.isLt
  have h2 := rec.toNat_lt
  show 0x7C000774 + rs.toNat * 2^21 + ra.toNat * 2^16 + rec.toNat * 2^0 < 2^32
  omega

theorem EncodingFits.ppeExtsh (rs : BitVec 5) (ra : BitVec 5) (rec : Bool) : EncodingFits.Statement (.ppeExtsh rs ra rec) := by
  have h0 := rs.isLt
  have h1 := ra.isLt
  have h2 := rec.toNat_lt
  show 0x7C000734 + rs.toNat * 2^21 + ra.toNat * 2^16 + rec.toNat * 2^0 < 2^32
  omega

theorem EncodingFits.ppeExtsw (rs : BitVec 5) (ra : BitVec 5) (rec : Bool) : EncodingFits.Statement (.ppeExtsw rs ra rec) := by
  have h0 := rs.isLt
  have h1 := ra.isLt
  have h2 := rec.toNat_lt
  show 0x7C0007B4 + rs.toNat * 2^21 + ra.toNat * 2^16 + rec.toNat * 2^0 < 2^32
  omega

theorem EncodingFits.ppeCntlzw (rs : BitVec 5) (ra : BitVec 5) (rec : Bool) : EncodingFits.Statement (.ppeCntlzw rs ra rec) := by
  have h0 := rs.isLt
  have h1 := ra.isLt
  have h2 := rec.toNat_lt
  show 0x7C000034 + rs.toNat * 2^21 + ra.toNat * 2^16 + rec.toNat * 2^0 < 2^32
  omega

theorem EncodingFits.ppeCntlzd (rs : BitVec 5) (ra : BitVec 5) (rec : Bool) : EncodingFits.Statement (.ppeCntlzd rs ra rec) := by
  have h0 := rs.isLt
  have h1 := ra.isLt
  have h2 := rec.toNat_lt
  show 0x7C000074 + rs.toNat * 2^21 + ra.toNat * 2^16 + rec.toNat * 2^0 < 2^32
  omega

theorem EncodingFits.ppeSrawi (rs : BitVec 5) (ra : BitVec 5) (sh : BitVec 5) (rec : Bool) :
    EncodingFits.Statement (.ppeSrawi rs ra sh rec) := by
  have h0 := rs.isLt
  have h1 := ra.isLt
  have h2 := sh.isLt
  have h3 := rec.toNat_lt
  show 0x7C000670 + rs.toNat * 2^21 + ra.toNat * 2^16 + sh.toNat * 2^11 + rec.toNat * 2^0 < 2^32
  omega

theorem EncodingFits.ppeSradi (rs : BitVec 5) (ra : BitVec 5) (sh : BitVec 6) (rec : Bool) :
    EncodingFits.Statement (.ppeSradi rs ra sh rec) := by
  have h0 := rs.isLt
  have h1 := ra.isLt
  have h2 := sh.isLt
  have h3 := rec.toNat_lt
  show 0x7C000674 + rs.toNat * 2^21 + ra.toNat * 2^16 + (sh.toNat % 32 * 2^11 + sh.toNat / 32 * 2) + rec.toNat * 2^0 < 2^32
  omega

theorem EncodingFits.ppeRlwimi (rs : BitVec 5) (ra : BitVec 5) (sh : BitVec 5) (mb : BitVec 5) (me : BitVec 5) (rec : Bool) :
    EncodingFits.Statement (.ppeRlwimi rs ra sh mb me rec) := by
  have h0 := rs.isLt
  have h1 := ra.isLt
  have h2 := sh.isLt
  have h3 := mb.isLt
  have h4 := me.isLt
  have h5 := rec.toNat_lt
  show 0x50000000 + rs.toNat * 2^21 + ra.toNat * 2^16 + sh.toNat * 2^11 + mb.toNat * 2^6 + me.toNat * 2^1 + rec.toNat * 2^0 < 2^32
  omega

theorem EncodingFits.ppeRlwinm (rs : BitVec 5) (ra : BitVec 5) (sh : BitVec 5) (mb : BitVec 5) (me : BitVec 5) (rec : Bool) :
    EncodingFits.Statement (.ppeRlwinm rs ra sh mb me rec) := by
  have h0 := rs.isLt
  have h1 := ra.isLt
  have h2 := sh.isLt
  have h3 := mb.isLt
  have h4 := me.isLt
  have h5 := rec.toNat_lt
  show 0x54000000 + rs.toNat * 2^21 + ra.toNat * 2^16 + sh.toNat * 2^11 + mb.toNat * 2^6 + me.toNat * 2^1 + rec.toNat * 2^0 < 2^32
  omega

theorem EncodingFits.ppeRlwnm (rs : BitVec 5) (ra : BitVec 5) (rb : BitVec 5) (mb : BitVec 5) (me : BitVec 5) (rec : Bool) :
    EncodingFits.Statement (.ppeRlwnm rs ra rb mb me rec) := by
  have h0 := rs.isLt
  have h1 := ra.isLt
  have h2 := rb.isLt
  have h3 := mb.isLt
  have h4 := me.isLt
  have h5 := rec.toNat_lt
  show 0x5C000000 + rs.toNat * 2^21 + ra.toNat * 2^16 + rb.toNat * 2^11 + mb.toNat * 2^6 + me.toNat * 2^1 + rec.toNat * 2^0 < 2^32
  omega

theorem EncodingFits.ppeRldicl (rs : BitVec 5) (ra : BitVec 5) (sh : BitVec 6) (mb : BitVec 6) (rec : Bool) :
    EncodingFits.Statement (.ppeRldicl rs ra sh mb rec) := by
  have h0 := rs.isLt
  have h1 := ra.isLt
  have h2 := sh.isLt
  have h3 := mb.isLt
  have h4 := rec.toNat_lt
  show 0x78000000 + rs.toNat * 2^21 + ra.toNat * 2^16 + (sh.toNat % 32 * 2^11 + sh.toNat / 32 * 2) + (mb.toNat % 32 * 2^6 + mb.toNat / 32 * 2^5) + rec.toNat * 2^0 < 2^32
  omega

theorem EncodingFits.ppeRldicr (rs : BitVec 5) (ra : BitVec 5) (sh : BitVec 6) (me : BitVec 6) (rec : Bool) :
    EncodingFits.Statement (.ppeRldicr rs ra sh me rec) := by
  have h0 := rs.isLt
  have h1 := ra.isLt
  have h2 := sh.isLt
  have h3 := me.isLt
  have h4 := rec.toNat_lt
  show 0x78000004 + rs.toNat * 2^21 + ra.toNat * 2^16 + (sh.toNat % 32 * 2^11 + sh.toNat / 32 * 2) + (me.toNat % 32 * 2^6 + me.toNat / 32 * 2^5) + rec.toNat * 2^0 < 2^32
  omega

theorem EncodingFits.ppeRldic (rs : BitVec 5) (ra : BitVec 5) (sh : BitVec 6) (mb : BitVec 6) (rec : Bool) :
    EncodingFits.Statement (.ppeRldic rs ra sh mb rec) := by
  have h0 := rs.isLt
  have h1 := ra.isLt
  have h2 := sh.isLt
  have h3 := mb.isLt
  have h4 := rec.toNat_lt
  show 0x78000008 + rs.toNat * 2^21 + ra.toNat * 2^16 + (sh.toNat % 32 * 2^11 + sh.toNat / 32 * 2) + (mb.toNat % 32 * 2^6 + mb.toNat / 32 * 2^5) + rec.toNat * 2^0 < 2^32
  omega

theorem EncodingFits.ppeRldimi (rs : BitVec 5) (ra : BitVec 5) (sh : BitVec 6) (mb : BitVec 6) (rec : Bool) :
    EncodingFits.Statement (.ppeRldimi rs ra sh mb rec) := by
  have h0 := rs.isLt
  have h1 := ra.isLt
  have h2 := sh.isLt
  have h3 := mb.isLt
  have h4 := rec.toNat_lt
  show 0x7800000C + rs.toNat * 2^21 + ra.toNat * 2^16 + (sh.toNat % 32 * 2^11 + sh.toNat / 32 * 2) + (mb.toNat % 32 * 2^6 + mb.toNat / 32 * 2^5) + rec.toNat * 2^0 < 2^32
  omega

theorem EncodingFits.ppeRldcl (rs : BitVec 5) (ra : BitVec 5) (rb : BitVec 5) (mb : BitVec 6) (rec : Bool) :
    EncodingFits.Statement (.ppeRldcl rs ra rb mb rec) := by
  have h0 := rs.isLt
  have h1 := ra.isLt
  have h2 := rb.isLt
  have h3 := mb.isLt
  have h4 := rec.toNat_lt
  show 0x78000010 + rs.toNat * 2^21 + ra.toNat * 2^16 + rb.toNat * 2^11 + (mb.toNat % 32 * 2^6 + mb.toNat / 32 * 2^5) + rec.toNat * 2^0 < 2^32
  omega

theorem EncodingFits.ppeRldcr (rs : BitVec 5) (ra : BitVec 5) (rb : BitVec 5) (me : BitVec 6) (rec : Bool) :
    EncodingFits.Statement (.ppeRldcr rs ra rb me rec) := by
  have h0 := rs.isLt
  have h1 := ra.isLt
  have h2 := rb.isLt
  have h3 := me.isLt
  have h4 := rec.toNat_lt
  show 0x78000012 + rs.toNat * 2^21 + ra.toNat * 2^16 + rb.toNat * 2^11 + (me.toNat % 32 * 2^6 + me.toNat / 32 * 2^5) + rec.toNat * 2^0 < 2^32
  omega

theorem EncodingFits.ppeFadd (frt : BitVec 5) (fra : BitVec 5) (frb : BitVec 5) (rec : Bool) :
    EncodingFits.Statement (.ppeFadd frt fra frb rec) := by
  have h0 := frt.isLt
  have h1 := fra.isLt
  have h2 := frb.isLt
  have h3 := rec.toNat_lt
  show 0xFC00002A + frt.toNat * 2^21 + fra.toNat * 2^16 + frb.toNat * 2^11 + rec.toNat * 2^0 < 2^32
  omega

theorem EncodingFits.ppeFadds (frt : BitVec 5) (fra : BitVec 5) (frb : BitVec 5) (rec : Bool) :
    EncodingFits.Statement (.ppeFadds frt fra frb rec) := by
  have h0 := frt.isLt
  have h1 := fra.isLt
  have h2 := frb.isLt
  have h3 := rec.toNat_lt
  show 0xEC00002A + frt.toNat * 2^21 + fra.toNat * 2^16 + frb.toNat * 2^11 + rec.toNat * 2^0 < 2^32
  omega

theorem EncodingFits.ppeFsub (frt : BitVec 5) (fra : BitVec 5) (frb : BitVec 5) (rec : Bool) :
    EncodingFits.Statement (.ppeFsub frt fra frb rec) := by
  have h0 := frt.isLt
  have h1 := fra.isLt
  have h2 := frb.isLt
  have h3 := rec.toNat_lt
  show 0xFC000028 + frt.toNat * 2^21 + fra.toNat * 2^16 + frb.toNat * 2^11 + rec.toNat * 2^0 < 2^32
  omega

theorem EncodingFits.ppeFsubs (frt : BitVec 5) (fra : BitVec 5) (frb : BitVec 5) (rec : Bool) :
    EncodingFits.Statement (.ppeFsubs frt fra frb rec) := by
  have h0 := frt.isLt
  have h1 := fra.isLt
  have h2 := frb.isLt
  have h3 := rec.toNat_lt
  show 0xEC000028 + frt.toNat * 2^21 + fra.toNat * 2^16 + frb.toNat * 2^11 + rec.toNat * 2^0 < 2^32
  omega

theorem EncodingFits.ppeFdiv (frt : BitVec 5) (fra : BitVec 5) (frb : BitVec 5) (rec : Bool) :
    EncodingFits.Statement (.ppeFdiv frt fra frb rec) := by
  have h0 := frt.isLt
  have h1 := fra.isLt
  have h2 := frb.isLt
  have h3 := rec.toNat_lt
  show 0xFC000024 + frt.toNat * 2^21 + fra.toNat * 2^16 + frb.toNat * 2^11 + rec.toNat * 2^0 < 2^32
  omega

theorem EncodingFits.ppeFdivs (frt : BitVec 5) (fra : BitVec 5) (frb : BitVec 5) (rec : Bool) :
    EncodingFits.Statement (.ppeFdivs frt fra frb rec) := by
  have h0 := frt.isLt
  have h1 := fra.isLt
  have h2 := frb.isLt
  have h3 := rec.toNat_lt
  show 0xEC000024 + frt.toNat * 2^21 + fra.toNat * 2^16 + frb.toNat * 2^11 + rec.toNat * 2^0 < 2^32
  omega

theorem EncodingFits.ppeFmul (frt : BitVec 5) (fra : BitVec 5) (frc : BitVec 5) (rec : Bool) :
    EncodingFits.Statement (.ppeFmul frt fra frc rec) := by
  have h0 := frt.isLt
  have h1 := fra.isLt
  have h2 := frc.isLt
  have h3 := rec.toNat_lt
  show 0xFC000032 + frt.toNat * 2^21 + fra.toNat * 2^16 + frc.toNat * 2^6 + rec.toNat * 2^0 < 2^32
  omega

theorem EncodingFits.ppeFmuls (frt : BitVec 5) (fra : BitVec 5) (frc : BitVec 5) (rec : Bool) :
    EncodingFits.Statement (.ppeFmuls frt fra frc rec) := by
  have h0 := frt.isLt
  have h1 := fra.isLt
  have h2 := frc.isLt
  have h3 := rec.toNat_lt
  show 0xEC000032 + frt.toNat * 2^21 + fra.toNat * 2^16 + frc.toNat * 2^6 + rec.toNat * 2^0 < 2^32
  omega

theorem EncodingFits.ppeFsqrt (frt : BitVec 5) (frb : BitVec 5) (rec : Bool) :
    EncodingFits.Statement (.ppeFsqrt frt frb rec) := by
  have h0 := frt.isLt
  have h1 := frb.isLt
  have h2 := rec.toNat_lt
  show 0xFC00002C + frt.toNat * 2^21 + frb.toNat * 2^11 + rec.toNat * 2^0 < 2^32
  omega

theorem EncodingFits.ppeFsqrts (frt : BitVec 5) (frb : BitVec 5) (rec : Bool) :
    EncodingFits.Statement (.ppeFsqrts frt frb rec) := by
  have h0 := frt.isLt
  have h1 := frb.isLt
  have h2 := rec.toNat_lt
  show 0xEC00002C + frt.toNat * 2^21 + frb.toNat * 2^11 + rec.toNat * 2^0 < 2^32
  omega

theorem EncodingFits.ppeFres (frt : BitVec 5) (frb : BitVec 5) (rec : Bool) : EncodingFits.Statement (.ppeFres frt frb rec) := by
  have h0 := frt.isLt
  have h1 := frb.isLt
  have h2 := rec.toNat_lt
  show 0xEC000030 + frt.toNat * 2^21 + frb.toNat * 2^11 + rec.toNat * 2^0 < 2^32
  omega

theorem EncodingFits.ppeFrsqrte (frt : BitVec 5) (frb : BitVec 5) (rec : Bool) :
    EncodingFits.Statement (.ppeFrsqrte frt frb rec) := by
  have h0 := frt.isLt
  have h1 := frb.isLt
  have h2 := rec.toNat_lt
  show 0xFC000034 + frt.toNat * 2^21 + frb.toNat * 2^11 + rec.toNat * 2^0 < 2^32
  omega

theorem EncodingFits.ppeFsel (frt : BitVec 5) (fra : BitVec 5) (frb : BitVec 5) (frc : BitVec 5) (rec : Bool) :
    EncodingFits.Statement (.ppeFsel frt fra frb frc rec) := by
  have h0 := frt.isLt
  have h1 := fra.isLt
  have h2 := frb.isLt
  have h3 := frc.isLt
  have h4 := rec.toNat_lt
  show 0xFC00002E + frt.toNat * 2^21 + fra.toNat * 2^16 + frb.toNat * 2^11 + frc.toNat * 2^6 + rec.toNat * 2^0 < 2^32
  omega

theorem EncodingFits.ppeFmadd (frt : BitVec 5) (fra : BitVec 5) (frb : BitVec 5) (frc : BitVec 5) (rec : Bool) :
    EncodingFits.Statement (.ppeFmadd frt fra frb frc rec) := by
  have h0 := frt.isLt
  have h1 := fra.isLt
  have h2 := frb.isLt
  have h3 := frc.isLt
  have h4 := rec.toNat_lt
  show 0xFC00003A + frt.toNat * 2^21 + fra.toNat * 2^16 + frb.toNat * 2^11 + frc.toNat * 2^6 + rec.toNat * 2^0 < 2^32
  omega

theorem EncodingFits.ppeFmadds (frt : BitVec 5) (fra : BitVec 5) (frb : BitVec 5) (frc : BitVec 5) (rec : Bool) :
    EncodingFits.Statement (.ppeFmadds frt fra frb frc rec) := by
  have h0 := frt.isLt
  have h1 := fra.isLt
  have h2 := frb.isLt
  have h3 := frc.isLt
  have h4 := rec.toNat_lt
  show 0xEC00003A + frt.toNat * 2^21 + fra.toNat * 2^16 + frb.toNat * 2^11 + frc.toNat * 2^6 + rec.toNat * 2^0 < 2^32
  omega

theorem EncodingFits.ppeFmsub (frt : BitVec 5) (fra : BitVec 5) (frb : BitVec 5) (frc : BitVec 5) (rec : Bool) :
    EncodingFits.Statement (.ppeFmsub frt fra frb frc rec) := by
  have h0 := frt.isLt
  have h1 := fra.isLt
  have h2 := frb.isLt
  have h3 := frc.isLt
  have h4 := rec.toNat_lt
  show 0xFC000038 + frt.toNat * 2^21 + fra.toNat * 2^16 + frb.toNat * 2^11 + frc.toNat * 2^6 + rec.toNat * 2^0 < 2^32
  omega

theorem EncodingFits.ppeFmsubs (frt : BitVec 5) (fra : BitVec 5) (frb : BitVec 5) (frc : BitVec 5) (rec : Bool) :
    EncodingFits.Statement (.ppeFmsubs frt fra frb frc rec) := by
  have h0 := frt.isLt
  have h1 := fra.isLt
  have h2 := frb.isLt
  have h3 := frc.isLt
  have h4 := rec.toNat_lt
  show 0xEC000038 + frt.toNat * 2^21 + fra.toNat * 2^16 + frb.toNat * 2^11 + frc.toNat * 2^6 + rec.toNat * 2^0 < 2^32
  omega

theorem EncodingFits.ppeFnmadd (frt : BitVec 5) (fra : BitVec 5) (frb : BitVec 5) (frc : BitVec 5) (rec : Bool) :
    EncodingFits.Statement (.ppeFnmadd frt fra frb frc rec) := by
  have h0 := frt.isLt
  have h1 := fra.isLt
  have h2 := frb.isLt
  have h3 := frc.isLt
  have h4 := rec.toNat_lt
  show 0xFC00003E + frt.toNat * 2^21 + fra.toNat * 2^16 + frb.toNat * 2^11 + frc.toNat * 2^6 + rec.toNat * 2^0 < 2^32
  omega

theorem EncodingFits.ppeFnmadds (frt : BitVec 5) (fra : BitVec 5) (frb : BitVec 5) (frc : BitVec 5) (rec : Bool) :
    EncodingFits.Statement (.ppeFnmadds frt fra frb frc rec) := by
  have h0 := frt.isLt
  have h1 := fra.isLt
  have h2 := frb.isLt
  have h3 := frc.isLt
  have h4 := rec.toNat_lt
  show 0xEC00003E + frt.toNat * 2^21 + fra.toNat * 2^16 + frb.toNat * 2^11 + frc.toNat * 2^6 + rec.toNat * 2^0 < 2^32
  omega

theorem EncodingFits.ppeFnmsub (frt : BitVec 5) (fra : BitVec 5) (frb : BitVec 5) (frc : BitVec 5) (rec : Bool) :
    EncodingFits.Statement (.ppeFnmsub frt fra frb frc rec) := by
  have h0 := frt.isLt
  have h1 := fra.isLt
  have h2 := frb.isLt
  have h3 := frc.isLt
  have h4 := rec.toNat_lt
  show 0xFC00003C + frt.toNat * 2^21 + fra.toNat * 2^16 + frb.toNat * 2^11 + frc.toNat * 2^6 + rec.toNat * 2^0 < 2^32
  omega

theorem EncodingFits.ppeFnmsubs (frt : BitVec 5) (fra : BitVec 5) (frb : BitVec 5) (frc : BitVec 5) (rec : Bool) :
    EncodingFits.Statement (.ppeFnmsubs frt fra frb frc rec) := by
  have h0 := frt.isLt
  have h1 := fra.isLt
  have h2 := frb.isLt
  have h3 := frc.isLt
  have h4 := rec.toNat_lt
  show 0xEC00003C + frt.toNat * 2^21 + fra.toNat * 2^16 + frb.toNat * 2^11 + frc.toNat * 2^6 + rec.toNat * 2^0 < 2^32
  omega

theorem EncodingFits.ppeFmr (frt : BitVec 5) (frb : BitVec 5) (rec : Bool) : EncodingFits.Statement (.ppeFmr frt frb rec) := by
  have h0 := frt.isLt
  have h1 := frb.isLt
  have h2 := rec.toNat_lt
  show 0xFC000090 + frt.toNat * 2^21 + frb.toNat * 2^11 + rec.toNat * 2^0 < 2^32
  omega

theorem EncodingFits.ppeFneg (frt : BitVec 5) (frb : BitVec 5) (rec : Bool) : EncodingFits.Statement (.ppeFneg frt frb rec) := by
  have h0 := frt.isLt
  have h1 := frb.isLt
  have h2 := rec.toNat_lt
  show 0xFC000050 + frt.toNat * 2^21 + frb.toNat * 2^11 + rec.toNat * 2^0 < 2^32
  omega

theorem EncodingFits.ppeFabs (frt : BitVec 5) (frb : BitVec 5) (rec : Bool) : EncodingFits.Statement (.ppeFabs frt frb rec) := by
  have h0 := frt.isLt
  have h1 := frb.isLt
  have h2 := rec.toNat_lt
  show 0xFC000210 + frt.toNat * 2^21 + frb.toNat * 2^11 + rec.toNat * 2^0 < 2^32
  omega

theorem EncodingFits.ppeFnabs (frt : BitVec 5) (frb : BitVec 5) (rec : Bool) :
    EncodingFits.Statement (.ppeFnabs frt frb rec) := by
  have h0 := frt.isLt
  have h1 := frb.isLt
  have h2 := rec.toNat_lt
  show 0xFC000110 + frt.toNat * 2^21 + frb.toNat * 2^11 + rec.toNat * 2^0 < 2^32
  omega

theorem EncodingFits.ppeFrsp (frt : BitVec 5) (frb : BitVec 5) (rec : Bool) : EncodingFits.Statement (.ppeFrsp frt frb rec) := by
  have h0 := frt.isLt
  have h1 := frb.isLt
  have h2 := rec.toNat_lt
  show 0xFC000018 + frt.toNat * 2^21 + frb.toNat * 2^11 + rec.toNat * 2^0 < 2^32
  omega

theorem EncodingFits.ppeFctid (frt : BitVec 5) (frb : BitVec 5) (rec : Bool) :
    EncodingFits.Statement (.ppeFctid frt frb rec) := by
  have h0 := frt.isLt
  have h1 := frb.isLt
  have h2 := rec.toNat_lt
  show 0xFC00065C + frt.toNat * 2^21 + frb.toNat * 2^11 + rec.toNat * 2^0 < 2^32
  omega

theorem EncodingFits.ppeFctidz (frt : BitVec 5) (frb : BitVec 5) (rec : Bool) :
    EncodingFits.Statement (.ppeFctidz frt frb rec) := by
  have h0 := frt.isLt
  have h1 := frb.isLt
  have h2 := rec.toNat_lt
  show 0xFC00065E + frt.toNat * 2^21 + frb.toNat * 2^11 + rec.toNat * 2^0 < 2^32
  omega

theorem EncodingFits.ppeFctiw (frt : BitVec 5) (frb : BitVec 5) (rec : Bool) :
    EncodingFits.Statement (.ppeFctiw frt frb rec) := by
  have h0 := frt.isLt
  have h1 := frb.isLt
  have h2 := rec.toNat_lt
  show 0xFC00001C + frt.toNat * 2^21 + frb.toNat * 2^11 + rec.toNat * 2^0 < 2^32
  omega

theorem EncodingFits.ppeFctiwz (frt : BitVec 5) (frb : BitVec 5) (rec : Bool) :
    EncodingFits.Statement (.ppeFctiwz frt frb rec) := by
  have h0 := frt.isLt
  have h1 := frb.isLt
  have h2 := rec.toNat_lt
  show 0xFC00001E + frt.toNat * 2^21 + frb.toNat * 2^11 + rec.toNat * 2^0 < 2^32
  omega

theorem EncodingFits.ppeFcfid (frt : BitVec 5) (frb : BitVec 5) (rec : Bool) :
    EncodingFits.Statement (.ppeFcfid frt frb rec) := by
  have h0 := frt.isLt
  have h1 := frb.isLt
  have h2 := rec.toNat_lt
  show 0xFC00069C + frt.toNat * 2^21 + frb.toNat * 2^11 + rec.toNat * 2^0 < 2^32
  omega

theorem EncodingFits.ppeFcmpu (bf : BitVec 3) (fra : BitVec 5) (frb : BitVec 5) :
    EncodingFits.Statement (.ppeFcmpu bf fra frb) := by
  have h0 := bf.isLt
  have h1 := fra.isLt
  have h2 := frb.isLt
  show 0xFC000000 + bf.toNat * 2^23 + fra.toNat * 2^16 + frb.toNat * 2^11 < 2^32
  omega

theorem EncodingFits.ppeFcmpo (bf : BitVec 3) (fra : BitVec 5) (frb : BitVec 5) :
    EncodingFits.Statement (.ppeFcmpo bf fra frb) := by
  have h0 := bf.isLt
  have h1 := fra.isLt
  have h2 := frb.isLt
  show 0xFC000040 + bf.toNat * 2^23 + fra.toNat * 2^16 + frb.toNat * 2^11 < 2^32
  omega

theorem EncodingFits.ppeMffs (frt : BitVec 5) (rec : Bool) : EncodingFits.Statement (.ppeMffs frt rec) := by
  have h0 := frt.isLt
  have h1 := rec.toNat_lt
  show 0xFC00048E + frt.toNat * 2^21 + rec.toNat * 2^0 < 2^32
  omega

theorem EncodingFits.ppeMcrfs (bf : BitVec 3) (bfa : BitVec 3) : EncodingFits.Statement (.ppeMcrfs bf bfa) := by
  have h0 := bf.isLt
  have h1 := bfa.isLt
  show 0xFC000080 + bf.toNat * 2^23 + bfa.toNat * 2^18 < 2^32
  omega

theorem EncodingFits.ppeMtfsfi (bf : BitVec 3) (u : BitVec 4) (rec : Bool) : EncodingFits.Statement (.ppeMtfsfi bf u rec) := by
  have h0 := bf.isLt
  have h1 := u.isLt
  have h2 := rec.toNat_lt
  show 0xFC00010C + bf.toNat * 2^23 + u.toNat * 2^12 + rec.toNat * 2^0 < 2^32
  omega

theorem EncodingFits.ppeMtfsf (flm : BitVec 8) (frb : BitVec 5) (rec : Bool) :
    EncodingFits.Statement (.ppeMtfsf flm frb rec) := by
  have h0 := flm.isLt
  have h1 := frb.isLt
  have h2 := rec.toNat_lt
  show 0xFC00058E + flm.toNat * 2^17 + frb.toNat * 2^11 + rec.toNat * 2^0 < 2^32
  omega

theorem EncodingFits.ppeMtfsb0 (bt : BitVec 5) (rec : Bool) : EncodingFits.Statement (.ppeMtfsb0 bt rec) := by
  have h0 := bt.isLt
  have h1 := rec.toNat_lt
  show 0xFC00008C + bt.toNat * 2^21 + rec.toNat * 2^0 < 2^32
  omega

theorem EncodingFits.ppeMtfsb1 (bt : BitVec 5) (rec : Bool) : EncodingFits.Statement (.ppeMtfsb1 bt rec) := by
  have h0 := bt.isLt
  have h1 := rec.toNat_lt
  show 0xFC00004C + bt.toNat * 2^21 + rec.toNat * 2^0 < 2^32
  omega

theorem EncodingFits.ppeLvsl (vrt : BitVec 5) (ra : BitVec 5) (rb : BitVec 5) : EncodingFits.Statement (.ppeLvsl vrt ra rb) := by
  have h0 := vrt.isLt
  have h1 := ra.isLt
  have h2 := rb.isLt
  show 0x7C00000C + vrt.toNat * 2^21 + ra.toNat * 2^16 + rb.toNat * 2^11 < 2^32
  omega

theorem EncodingFits.ppeLvsr (vrt : BitVec 5) (ra : BitVec 5) (rb : BitVec 5) : EncodingFits.Statement (.ppeLvsr vrt ra rb) := by
  have h0 := vrt.isLt
  have h1 := ra.isLt
  have h2 := rb.isLt
  show 0x7C00004C + vrt.toNat * 2^21 + ra.toNat * 2^16 + rb.toNat * 2^11 < 2^32
  omega

theorem EncodingFits.ppeLvebx (vrt : BitVec 5) (ra : BitVec 5) (rb : BitVec 5) :
    EncodingFits.Statement (.ppeLvebx vrt ra rb) := by
  have h0 := vrt.isLt
  have h1 := ra.isLt
  have h2 := rb.isLt
  show 0x7C00000E + vrt.toNat * 2^21 + ra.toNat * 2^16 + rb.toNat * 2^11 < 2^32
  omega

theorem EncodingFits.ppeLvehx (vrt : BitVec 5) (ra : BitVec 5) (rb : BitVec 5) :
    EncodingFits.Statement (.ppeLvehx vrt ra rb) := by
  have h0 := vrt.isLt
  have h1 := ra.isLt
  have h2 := rb.isLt
  show 0x7C00004E + vrt.toNat * 2^21 + ra.toNat * 2^16 + rb.toNat * 2^11 < 2^32
  omega

theorem EncodingFits.ppeLvewx (vrt : BitVec 5) (ra : BitVec 5) (rb : BitVec 5) :
    EncodingFits.Statement (.ppeLvewx vrt ra rb) := by
  have h0 := vrt.isLt
  have h1 := ra.isLt
  have h2 := rb.isLt
  show 0x7C00008E + vrt.toNat * 2^21 + ra.toNat * 2^16 + rb.toNat * 2^11 < 2^32
  omega

theorem EncodingFits.ppeLvx (vrt : BitVec 5) (ra : BitVec 5) (rb : BitVec 5) : EncodingFits.Statement (.ppeLvx vrt ra rb) := by
  have h0 := vrt.isLt
  have h1 := ra.isLt
  have h2 := rb.isLt
  show 0x7C0000CE + vrt.toNat * 2^21 + ra.toNat * 2^16 + rb.toNat * 2^11 < 2^32
  omega

theorem EncodingFits.ppeLvxl (vrt : BitVec 5) (ra : BitVec 5) (rb : BitVec 5) : EncodingFits.Statement (.ppeLvxl vrt ra rb) := by
  have h0 := vrt.isLt
  have h1 := ra.isLt
  have h2 := rb.isLt
  show 0x7C0002CE + vrt.toNat * 2^21 + ra.toNat * 2^16 + rb.toNat * 2^11 < 2^32
  omega

theorem EncodingFits.ppeLvlx (vrt : BitVec 5) (ra : BitVec 5) (rb : BitVec 5) : EncodingFits.Statement (.ppeLvlx vrt ra rb) := by
  have h0 := vrt.isLt
  have h1 := ra.isLt
  have h2 := rb.isLt
  show 0x7C00040E + vrt.toNat * 2^21 + ra.toNat * 2^16 + rb.toNat * 2^11 < 2^32
  omega

theorem EncodingFits.ppeLvrx (vrt : BitVec 5) (ra : BitVec 5) (rb : BitVec 5) : EncodingFits.Statement (.ppeLvrx vrt ra rb) := by
  have h0 := vrt.isLt
  have h1 := ra.isLt
  have h2 := rb.isLt
  show 0x7C00044E + vrt.toNat * 2^21 + ra.toNat * 2^16 + rb.toNat * 2^11 < 2^32
  omega

theorem EncodingFits.ppeLvlxl (vrt : BitVec 5) (ra : BitVec 5) (rb : BitVec 5) :
    EncodingFits.Statement (.ppeLvlxl vrt ra rb) := by
  have h0 := vrt.isLt
  have h1 := ra.isLt
  have h2 := rb.isLt
  show 0x7C00060E + vrt.toNat * 2^21 + ra.toNat * 2^16 + rb.toNat * 2^11 < 2^32
  omega

theorem EncodingFits.ppeLvrxl (vrt : BitVec 5) (ra : BitVec 5) (rb : BitVec 5) :
    EncodingFits.Statement (.ppeLvrxl vrt ra rb) := by
  have h0 := vrt.isLt
  have h1 := ra.isLt
  have h2 := rb.isLt
  show 0x7C00064E + vrt.toNat * 2^21 + ra.toNat * 2^16 + rb.toNat * 2^11 < 2^32
  omega

theorem EncodingFits.ppeStvebx (vrs : BitVec 5) (ra : BitVec 5) (rb : BitVec 5) :
    EncodingFits.Statement (.ppeStvebx vrs ra rb) := by
  have h0 := vrs.isLt
  have h1 := ra.isLt
  have h2 := rb.isLt
  show 0x7C00010E + vrs.toNat * 2^21 + ra.toNat * 2^16 + rb.toNat * 2^11 < 2^32
  omega

theorem EncodingFits.ppeStvehx (vrs : BitVec 5) (ra : BitVec 5) (rb : BitVec 5) :
    EncodingFits.Statement (.ppeStvehx vrs ra rb) := by
  have h0 := vrs.isLt
  have h1 := ra.isLt
  have h2 := rb.isLt
  show 0x7C00014E + vrs.toNat * 2^21 + ra.toNat * 2^16 + rb.toNat * 2^11 < 2^32
  omega

theorem EncodingFits.ppeStvewx (vrs : BitVec 5) (ra : BitVec 5) (rb : BitVec 5) :
    EncodingFits.Statement (.ppeStvewx vrs ra rb) := by
  have h0 := vrs.isLt
  have h1 := ra.isLt
  have h2 := rb.isLt
  show 0x7C00018E + vrs.toNat * 2^21 + ra.toNat * 2^16 + rb.toNat * 2^11 < 2^32
  omega

theorem EncodingFits.ppeStvx (vrs : BitVec 5) (ra : BitVec 5) (rb : BitVec 5) : EncodingFits.Statement (.ppeStvx vrs ra rb) := by
  have h0 := vrs.isLt
  have h1 := ra.isLt
  have h2 := rb.isLt
  show 0x7C0001CE + vrs.toNat * 2^21 + ra.toNat * 2^16 + rb.toNat * 2^11 < 2^32
  omega

theorem EncodingFits.ppeStvxl (vrs : BitVec 5) (ra : BitVec 5) (rb : BitVec 5) :
    EncodingFits.Statement (.ppeStvxl vrs ra rb) := by
  have h0 := vrs.isLt
  have h1 := ra.isLt
  have h2 := rb.isLt
  show 0x7C0003CE + vrs.toNat * 2^21 + ra.toNat * 2^16 + rb.toNat * 2^11 < 2^32
  omega

theorem EncodingFits.ppeStvlx (vrs : BitVec 5) (ra : BitVec 5) (rb : BitVec 5) :
    EncodingFits.Statement (.ppeStvlx vrs ra rb) := by
  have h0 := vrs.isLt
  have h1 := ra.isLt
  have h2 := rb.isLt
  show 0x7C00050E + vrs.toNat * 2^21 + ra.toNat * 2^16 + rb.toNat * 2^11 < 2^32
  omega

theorem EncodingFits.ppeStvrx (vrs : BitVec 5) (ra : BitVec 5) (rb : BitVec 5) :
    EncodingFits.Statement (.ppeStvrx vrs ra rb) := by
  have h0 := vrs.isLt
  have h1 := ra.isLt
  have h2 := rb.isLt
  show 0x7C00054E + vrs.toNat * 2^21 + ra.toNat * 2^16 + rb.toNat * 2^11 < 2^32
  omega

theorem EncodingFits.ppeStvlxl (vrs : BitVec 5) (ra : BitVec 5) (rb : BitVec 5) :
    EncodingFits.Statement (.ppeStvlxl vrs ra rb) := by
  have h0 := vrs.isLt
  have h1 := ra.isLt
  have h2 := rb.isLt
  show 0x7C00070E + vrs.toNat * 2^21 + ra.toNat * 2^16 + rb.toNat * 2^11 < 2^32
  omega

theorem EncodingFits.ppeStvrxl (vrs : BitVec 5) (ra : BitVec 5) (rb : BitVec 5) :
    EncodingFits.Statement (.ppeStvrxl vrs ra rb) := by
  have h0 := vrs.isLt
  have h1 := ra.isLt
  have h2 := rb.isLt
  show 0x7C00074E + vrs.toNat * 2^21 + ra.toNat * 2^16 + rb.toNat * 2^11 < 2^32
  omega

theorem EncodingFits.ppeDst (strm : BitVec 2) (ra : BitVec 5) (rb : BitVec 5) : EncodingFits.Statement (.ppeDst strm ra rb) := by
  have h0 := strm.isLt
  have h1 := ra.isLt
  have h2 := rb.isLt
  show 0x7C0002AC + strm.toNat * 2^21 + ra.toNat * 2^16 + rb.toNat * 2^11 < 2^32
  omega

theorem EncodingFits.ppeDstt (strm : BitVec 2) (ra : BitVec 5) (rb : BitVec 5) :
    EncodingFits.Statement (.ppeDstt strm ra rb) := by
  have h0 := strm.isLt
  have h1 := ra.isLt
  have h2 := rb.isLt
  show 0x7E0002AC + strm.toNat * 2^21 + ra.toNat * 2^16 + rb.toNat * 2^11 < 2^32
  omega

theorem EncodingFits.ppeDstst (strm : BitVec 2) (ra : BitVec 5) (rb : BitVec 5) :
    EncodingFits.Statement (.ppeDstst strm ra rb) := by
  have h0 := strm.isLt
  have h1 := ra.isLt
  have h2 := rb.isLt
  show 0x7C0002EC + strm.toNat * 2^21 + ra.toNat * 2^16 + rb.toNat * 2^11 < 2^32
  omega

theorem EncodingFits.ppeDststt (strm : BitVec 2) (ra : BitVec 5) (rb : BitVec 5) :
    EncodingFits.Statement (.ppeDststt strm ra rb) := by
  have h0 := strm.isLt
  have h1 := ra.isLt
  have h2 := rb.isLt
  show 0x7E0002EC + strm.toNat * 2^21 + ra.toNat * 2^16 + rb.toNat * 2^11 < 2^32
  omega

theorem EncodingFits.ppeDss (strm : BitVec 2) : EncodingFits.Statement (.ppeDss strm) := by
  have h := strm.isLt
  show 0x7C00066C + strm.toNat * 2^21 < 2^32
  omega

theorem EncodingFits.ppeDssall : EncodingFits.Statement (.ppeDssall) := by
  show 0x7E00066C < 2^32
  decide

theorem EncodingFits.ppeVperm (vrt : BitVec 5) (vra : BitVec 5) (vrb : BitVec 5) (vrc : BitVec 5) :
    EncodingFits.Statement (.ppeVperm vrt vra vrb vrc) := by
  have h0 := vrt.isLt
  have h1 := vra.isLt
  have h2 := vrb.isLt
  have h3 := vrc.isLt
  show 0x1000002B + vrt.toNat * 2^21 + vra.toNat * 2^16 + vrb.toNat * 2^11 + vrc.toNat * 2^6 < 2^32
  omega

theorem EncodingFits.ppeVsel (vrt : BitVec 5) (vra : BitVec 5) (vrb : BitVec 5) (vrc : BitVec 5) :
    EncodingFits.Statement (.ppeVsel vrt vra vrb vrc) := by
  have h0 := vrt.isLt
  have h1 := vra.isLt
  have h2 := vrb.isLt
  have h3 := vrc.isLt
  show 0x1000002A + vrt.toNat * 2^21 + vra.toNat * 2^16 + vrb.toNat * 2^11 + vrc.toNat * 2^6 < 2^32
  omega

theorem EncodingFits.ppeVsldoi (vrt : BitVec 5) (vra : BitVec 5) (vrb : BitVec 5) (shb : BitVec 4) :
    EncodingFits.Statement (.ppeVsldoi vrt vra vrb shb) := by
  have h0 := vrt.isLt
  have h1 := vra.isLt
  have h2 := vrb.isLt
  have h3 := shb.isLt
  show 0x1000002C + vrt.toNat * 2^21 + vra.toNat * 2^16 + vrb.toNat * 2^11 + shb.toNat * 2^6 < 2^32
  omega

theorem EncodingFits.ppeVslo (vrt : BitVec 5) (vra : BitVec 5) (vrb : BitVec 5) :
    EncodingFits.Statement (.ppeVslo vrt vra vrb) := by
  have h0 := vrt.isLt
  have h1 := vra.isLt
  have h2 := vrb.isLt
  show 0x1000040C + vrt.toNat * 2^21 + vra.toNat * 2^16 + vrb.toNat * 2^11 < 2^32
  omega

theorem EncodingFits.ppeVsro (vrt : BitVec 5) (vra : BitVec 5) (vrb : BitVec 5) :
    EncodingFits.Statement (.ppeVsro vrt vra vrb) := by
  have h0 := vrt.isLt
  have h1 := vra.isLt
  have h2 := vrb.isLt
  show 0x1000044C + vrt.toNat * 2^21 + vra.toNat * 2^16 + vrb.toNat * 2^11 < 2^32
  omega

theorem EncodingFits.ppeVmrghb (vrt : BitVec 5) (vra : BitVec 5) (vrb : BitVec 5) :
    EncodingFits.Statement (.ppeVmrghb vrt vra vrb) := by
  have h0 := vrt.isLt
  have h1 := vra.isLt
  have h2 := vrb.isLt
  show 0x1000000C + vrt.toNat * 2^21 + vra.toNat * 2^16 + vrb.toNat * 2^11 < 2^32
  omega

theorem EncodingFits.ppeVmrghh (vrt : BitVec 5) (vra : BitVec 5) (vrb : BitVec 5) :
    EncodingFits.Statement (.ppeVmrghh vrt vra vrb) := by
  have h0 := vrt.isLt
  have h1 := vra.isLt
  have h2 := vrb.isLt
  show 0x1000004C + vrt.toNat * 2^21 + vra.toNat * 2^16 + vrb.toNat * 2^11 < 2^32
  omega

theorem EncodingFits.ppeVmrghw (vrt : BitVec 5) (vra : BitVec 5) (vrb : BitVec 5) :
    EncodingFits.Statement (.ppeVmrghw vrt vra vrb) := by
  have h0 := vrt.isLt
  have h1 := vra.isLt
  have h2 := vrb.isLt
  show 0x1000008C + vrt.toNat * 2^21 + vra.toNat * 2^16 + vrb.toNat * 2^11 < 2^32
  omega

theorem EncodingFits.ppeVmrglb (vrt : BitVec 5) (vra : BitVec 5) (vrb : BitVec 5) :
    EncodingFits.Statement (.ppeVmrglb vrt vra vrb) := by
  have h0 := vrt.isLt
  have h1 := vra.isLt
  have h2 := vrb.isLt
  show 0x1000010C + vrt.toNat * 2^21 + vra.toNat * 2^16 + vrb.toNat * 2^11 < 2^32
  omega

theorem EncodingFits.ppeVmrglh (vrt : BitVec 5) (vra : BitVec 5) (vrb : BitVec 5) :
    EncodingFits.Statement (.ppeVmrglh vrt vra vrb) := by
  have h0 := vrt.isLt
  have h1 := vra.isLt
  have h2 := vrb.isLt
  show 0x1000014C + vrt.toNat * 2^21 + vra.toNat * 2^16 + vrb.toNat * 2^11 < 2^32
  omega

theorem EncodingFits.ppeVmrglw (vrt : BitVec 5) (vra : BitVec 5) (vrb : BitVec 5) :
    EncodingFits.Statement (.ppeVmrglw vrt vra vrb) := by
  have h0 := vrt.isLt
  have h1 := vra.isLt
  have h2 := vrb.isLt
  show 0x1000018C + vrt.toNat * 2^21 + vra.toNat * 2^16 + vrb.toNat * 2^11 < 2^32
  omega

theorem EncodingFits.ppeVspltb (vrt : BitVec 5) (vrb : BitVec 5) (uim : BitVec 5) :
    EncodingFits.Statement (.ppeVspltb vrt vrb uim) := by
  have h0 := vrt.isLt
  have h1 := vrb.isLt
  have h2 := uim.isLt
  show 0x1000020C + vrt.toNat * 2^21 + vrb.toNat * 2^11 + uim.toNat * 2^16 < 2^32
  omega

theorem EncodingFits.ppeVsplth (vrt : BitVec 5) (vrb : BitVec 5) (uim : BitVec 5) :
    EncodingFits.Statement (.ppeVsplth vrt vrb uim) := by
  have h0 := vrt.isLt
  have h1 := vrb.isLt
  have h2 := uim.isLt
  show 0x1000024C + vrt.toNat * 2^21 + vrb.toNat * 2^11 + uim.toNat * 2^16 < 2^32
  omega

theorem EncodingFits.ppeVspltw (vrt : BitVec 5) (vrb : BitVec 5) (uim : BitVec 5) :
    EncodingFits.Statement (.ppeVspltw vrt vrb uim) := by
  have h0 := vrt.isLt
  have h1 := vrb.isLt
  have h2 := uim.isLt
  show 0x1000028C + vrt.toNat * 2^21 + vrb.toNat * 2^11 + uim.toNat * 2^16 < 2^32
  omega

theorem EncodingFits.ppeVspltisb (vrt : BitVec 5) (simm : BitVec 5) : EncodingFits.Statement (.ppeVspltisb vrt simm) := by
  have h0 := vrt.isLt
  have h1 := simm.isLt
  show 0x1000030C + vrt.toNat * 2^21 + simm.toNat * 2^16 < 2^32
  omega

theorem EncodingFits.ppeVspltish (vrt : BitVec 5) (simm : BitVec 5) : EncodingFits.Statement (.ppeVspltish vrt simm) := by
  have h0 := vrt.isLt
  have h1 := simm.isLt
  show 0x1000034C + vrt.toNat * 2^21 + simm.toNat * 2^16 < 2^32
  omega

theorem EncodingFits.ppeVspltisw (vrt : BitVec 5) (simm : BitVec 5) : EncodingFits.Statement (.ppeVspltisw vrt simm) := by
  have h0 := vrt.isLt
  have h1 := simm.isLt
  show 0x1000038C + vrt.toNat * 2^21 + simm.toNat * 2^16 < 2^32
  omega

theorem EncodingFits.ppeVpkuhum (vrt : BitVec 5) (vra : BitVec 5) (vrb : BitVec 5) :
    EncodingFits.Statement (.ppeVpkuhum vrt vra vrb) := by
  have h0 := vrt.isLt
  have h1 := vra.isLt
  have h2 := vrb.isLt
  show 0x1000000E + vrt.toNat * 2^21 + vra.toNat * 2^16 + vrb.toNat * 2^11 < 2^32
  omega

theorem EncodingFits.ppeVpkuwum (vrt : BitVec 5) (vra : BitVec 5) (vrb : BitVec 5) :
    EncodingFits.Statement (.ppeVpkuwum vrt vra vrb) := by
  have h0 := vrt.isLt
  have h1 := vra.isLt
  have h2 := vrb.isLt
  show 0x1000004E + vrt.toNat * 2^21 + vra.toNat * 2^16 + vrb.toNat * 2^11 < 2^32
  omega

theorem EncodingFits.ppeVpkuhus (vrt : BitVec 5) (vra : BitVec 5) (vrb : BitVec 5) :
    EncodingFits.Statement (.ppeVpkuhus vrt vra vrb) := by
  have h0 := vrt.isLt
  have h1 := vra.isLt
  have h2 := vrb.isLt
  show 0x1000008E + vrt.toNat * 2^21 + vra.toNat * 2^16 + vrb.toNat * 2^11 < 2^32
  omega

theorem EncodingFits.ppeVpkuwus (vrt : BitVec 5) (vra : BitVec 5) (vrb : BitVec 5) :
    EncodingFits.Statement (.ppeVpkuwus vrt vra vrb) := by
  have h0 := vrt.isLt
  have h1 := vra.isLt
  have h2 := vrb.isLt
  show 0x100000CE + vrt.toNat * 2^21 + vra.toNat * 2^16 + vrb.toNat * 2^11 < 2^32
  omega

theorem EncodingFits.ppeVpkshus (vrt : BitVec 5) (vra : BitVec 5) (vrb : BitVec 5) :
    EncodingFits.Statement (.ppeVpkshus vrt vra vrb) := by
  have h0 := vrt.isLt
  have h1 := vra.isLt
  have h2 := vrb.isLt
  show 0x1000010E + vrt.toNat * 2^21 + vra.toNat * 2^16 + vrb.toNat * 2^11 < 2^32
  omega

theorem EncodingFits.ppeVpkswus (vrt : BitVec 5) (vra : BitVec 5) (vrb : BitVec 5) :
    EncodingFits.Statement (.ppeVpkswus vrt vra vrb) := by
  have h0 := vrt.isLt
  have h1 := vra.isLt
  have h2 := vrb.isLt
  show 0x1000014E + vrt.toNat * 2^21 + vra.toNat * 2^16 + vrb.toNat * 2^11 < 2^32
  omega

theorem EncodingFits.ppeVpkshss (vrt : BitVec 5) (vra : BitVec 5) (vrb : BitVec 5) :
    EncodingFits.Statement (.ppeVpkshss vrt vra vrb) := by
  have h0 := vrt.isLt
  have h1 := vra.isLt
  have h2 := vrb.isLt
  show 0x1000018E + vrt.toNat * 2^21 + vra.toNat * 2^16 + vrb.toNat * 2^11 < 2^32
  omega

theorem EncodingFits.ppeVpkswss (vrt : BitVec 5) (vra : BitVec 5) (vrb : BitVec 5) :
    EncodingFits.Statement (.ppeVpkswss vrt vra vrb) := by
  have h0 := vrt.isLt
  have h1 := vra.isLt
  have h2 := vrb.isLt
  show 0x100001CE + vrt.toNat * 2^21 + vra.toNat * 2^16 + vrb.toNat * 2^11 < 2^32
  omega

theorem EncodingFits.ppeVpkpx (vrt : BitVec 5) (vra : BitVec 5) (vrb : BitVec 5) :
    EncodingFits.Statement (.ppeVpkpx vrt vra vrb) := by
  have h0 := vrt.isLt
  have h1 := vra.isLt
  have h2 := vrb.isLt
  show 0x1000030E + vrt.toNat * 2^21 + vra.toNat * 2^16 + vrb.toNat * 2^11 < 2^32
  omega

theorem EncodingFits.ppeVupkhsb (vrt : BitVec 5) (vrb : BitVec 5) : EncodingFits.Statement (.ppeVupkhsb vrt vrb) := by
  have h0 := vrt.isLt
  have h1 := vrb.isLt
  show 0x1000020E + vrt.toNat * 2^21 + vrb.toNat * 2^11 < 2^32
  omega

theorem EncodingFits.ppeVupkhsh (vrt : BitVec 5) (vrb : BitVec 5) : EncodingFits.Statement (.ppeVupkhsh vrt vrb) := by
  have h0 := vrt.isLt
  have h1 := vrb.isLt
  show 0x1000024E + vrt.toNat * 2^21 + vrb.toNat * 2^11 < 2^32
  omega

theorem EncodingFits.ppeVupklsb (vrt : BitVec 5) (vrb : BitVec 5) : EncodingFits.Statement (.ppeVupklsb vrt vrb) := by
  have h0 := vrt.isLt
  have h1 := vrb.isLt
  show 0x1000028E + vrt.toNat * 2^21 + vrb.toNat * 2^11 < 2^32
  omega

theorem EncodingFits.ppeVupklsh (vrt : BitVec 5) (vrb : BitVec 5) : EncodingFits.Statement (.ppeVupklsh vrt vrb) := by
  have h0 := vrt.isLt
  have h1 := vrb.isLt
  show 0x100002CE + vrt.toNat * 2^21 + vrb.toNat * 2^11 < 2^32
  omega

theorem EncodingFits.ppeVupkhpx (vrt : BitVec 5) (vrb : BitVec 5) : EncodingFits.Statement (.ppeVupkhpx vrt vrb) := by
  have h0 := vrt.isLt
  have h1 := vrb.isLt
  show 0x1000034E + vrt.toNat * 2^21 + vrb.toNat * 2^11 < 2^32
  omega

theorem EncodingFits.ppeVupklpx (vrt : BitVec 5) (vrb : BitVec 5) : EncodingFits.Statement (.ppeVupklpx vrt vrb) := by
  have h0 := vrt.isLt
  have h1 := vrb.isLt
  show 0x100003CE + vrt.toNat * 2^21 + vrb.toNat * 2^11 < 2^32
  omega

theorem EncodingFits.ppeVand (vrt : BitVec 5) (vra : BitVec 5) (vrb : BitVec 5) :
    EncodingFits.Statement (.ppeVand vrt vra vrb) := by
  have h0 := vrt.isLt
  have h1 := vra.isLt
  have h2 := vrb.isLt
  show 0x10000404 + vrt.toNat * 2^21 + vra.toNat * 2^16 + vrb.toNat * 2^11 < 2^32
  omega

theorem EncodingFits.ppeVandc (vrt : BitVec 5) (vra : BitVec 5) (vrb : BitVec 5) :
    EncodingFits.Statement (.ppeVandc vrt vra vrb) := by
  have h0 := vrt.isLt
  have h1 := vra.isLt
  have h2 := vrb.isLt
  show 0x10000444 + vrt.toNat * 2^21 + vra.toNat * 2^16 + vrb.toNat * 2^11 < 2^32
  omega

theorem EncodingFits.ppeVor (vrt : BitVec 5) (vra : BitVec 5) (vrb : BitVec 5) :
    EncodingFits.Statement (.ppeVor vrt vra vrb) := by
  have h0 := vrt.isLt
  have h1 := vra.isLt
  have h2 := vrb.isLt
  show 0x10000484 + vrt.toNat * 2^21 + vra.toNat * 2^16 + vrb.toNat * 2^11 < 2^32
  omega

theorem EncodingFits.ppeVxor (vrt : BitVec 5) (vra : BitVec 5) (vrb : BitVec 5) :
    EncodingFits.Statement (.ppeVxor vrt vra vrb) := by
  have h0 := vrt.isLt
  have h1 := vra.isLt
  have h2 := vrb.isLt
  show 0x100004C4 + vrt.toNat * 2^21 + vra.toNat * 2^16 + vrb.toNat * 2^11 < 2^32
  omega

theorem EncodingFits.ppeVnor (vrt : BitVec 5) (vra : BitVec 5) (vrb : BitVec 5) :
    EncodingFits.Statement (.ppeVnor vrt vra vrb) := by
  have h0 := vrt.isLt
  have h1 := vra.isLt
  have h2 := vrb.isLt
  show 0x10000504 + vrt.toNat * 2^21 + vra.toNat * 2^16 + vrb.toNat * 2^11 < 2^32
  omega

theorem EncodingFits.ppeVrlb (vrt : BitVec 5) (vra : BitVec 5) (vrb : BitVec 5) :
    EncodingFits.Statement (.ppeVrlb vrt vra vrb) := by
  have h0 := vrt.isLt
  have h1 := vra.isLt
  have h2 := vrb.isLt
  show 0x10000004 + vrt.toNat * 2^21 + vra.toNat * 2^16 + vrb.toNat * 2^11 < 2^32
  omega

theorem EncodingFits.ppeVrlh (vrt : BitVec 5) (vra : BitVec 5) (vrb : BitVec 5) :
    EncodingFits.Statement (.ppeVrlh vrt vra vrb) := by
  have h0 := vrt.isLt
  have h1 := vra.isLt
  have h2 := vrb.isLt
  show 0x10000044 + vrt.toNat * 2^21 + vra.toNat * 2^16 + vrb.toNat * 2^11 < 2^32
  omega

theorem EncodingFits.ppeVrlw (vrt : BitVec 5) (vra : BitVec 5) (vrb : BitVec 5) :
    EncodingFits.Statement (.ppeVrlw vrt vra vrb) := by
  have h0 := vrt.isLt
  have h1 := vra.isLt
  have h2 := vrb.isLt
  show 0x10000084 + vrt.toNat * 2^21 + vra.toNat * 2^16 + vrb.toNat * 2^11 < 2^32
  omega

theorem EncodingFits.ppeVslb (vrt : BitVec 5) (vra : BitVec 5) (vrb : BitVec 5) :
    EncodingFits.Statement (.ppeVslb vrt vra vrb) := by
  have h0 := vrt.isLt
  have h1 := vra.isLt
  have h2 := vrb.isLt
  show 0x10000104 + vrt.toNat * 2^21 + vra.toNat * 2^16 + vrb.toNat * 2^11 < 2^32
  omega

theorem EncodingFits.ppeVslh (vrt : BitVec 5) (vra : BitVec 5) (vrb : BitVec 5) :
    EncodingFits.Statement (.ppeVslh vrt vra vrb) := by
  have h0 := vrt.isLt
  have h1 := vra.isLt
  have h2 := vrb.isLt
  show 0x10000144 + vrt.toNat * 2^21 + vra.toNat * 2^16 + vrb.toNat * 2^11 < 2^32
  omega

theorem EncodingFits.ppeVslw (vrt : BitVec 5) (vra : BitVec 5) (vrb : BitVec 5) :
    EncodingFits.Statement (.ppeVslw vrt vra vrb) := by
  have h0 := vrt.isLt
  have h1 := vra.isLt
  have h2 := vrb.isLt
  show 0x10000184 + vrt.toNat * 2^21 + vra.toNat * 2^16 + vrb.toNat * 2^11 < 2^32
  omega

theorem EncodingFits.ppeVsrb (vrt : BitVec 5) (vra : BitVec 5) (vrb : BitVec 5) :
    EncodingFits.Statement (.ppeVsrb vrt vra vrb) := by
  have h0 := vrt.isLt
  have h1 := vra.isLt
  have h2 := vrb.isLt
  show 0x10000204 + vrt.toNat * 2^21 + vra.toNat * 2^16 + vrb.toNat * 2^11 < 2^32
  omega

theorem EncodingFits.ppeVsrh (vrt : BitVec 5) (vra : BitVec 5) (vrb : BitVec 5) :
    EncodingFits.Statement (.ppeVsrh vrt vra vrb) := by
  have h0 := vrt.isLt
  have h1 := vra.isLt
  have h2 := vrb.isLt
  show 0x10000244 + vrt.toNat * 2^21 + vra.toNat * 2^16 + vrb.toNat * 2^11 < 2^32
  omega

theorem EncodingFits.ppeVsrw (vrt : BitVec 5) (vra : BitVec 5) (vrb : BitVec 5) :
    EncodingFits.Statement (.ppeVsrw vrt vra vrb) := by
  have h0 := vrt.isLt
  have h1 := vra.isLt
  have h2 := vrb.isLt
  show 0x10000284 + vrt.toNat * 2^21 + vra.toNat * 2^16 + vrb.toNat * 2^11 < 2^32
  omega

theorem EncodingFits.ppeVsrab (vrt : BitVec 5) (vra : BitVec 5) (vrb : BitVec 5) :
    EncodingFits.Statement (.ppeVsrab vrt vra vrb) := by
  have h0 := vrt.isLt
  have h1 := vra.isLt
  have h2 := vrb.isLt
  show 0x10000304 + vrt.toNat * 2^21 + vra.toNat * 2^16 + vrb.toNat * 2^11 < 2^32
  omega

theorem EncodingFits.ppeVsrah (vrt : BitVec 5) (vra : BitVec 5) (vrb : BitVec 5) :
    EncodingFits.Statement (.ppeVsrah vrt vra vrb) := by
  have h0 := vrt.isLt
  have h1 := vra.isLt
  have h2 := vrb.isLt
  show 0x10000344 + vrt.toNat * 2^21 + vra.toNat * 2^16 + vrb.toNat * 2^11 < 2^32
  omega

theorem EncodingFits.ppeVsraw (vrt : BitVec 5) (vra : BitVec 5) (vrb : BitVec 5) :
    EncodingFits.Statement (.ppeVsraw vrt vra vrb) := by
  have h0 := vrt.isLt
  have h1 := vra.isLt
  have h2 := vrb.isLt
  show 0x10000384 + vrt.toNat * 2^21 + vra.toNat * 2^16 + vrb.toNat * 2^11 < 2^32
  omega

theorem EncodingFits.ppeVsl (vrt : BitVec 5) (vra : BitVec 5) (vrb : BitVec 5) :
    EncodingFits.Statement (.ppeVsl vrt vra vrb) := by
  have h0 := vrt.isLt
  have h1 := vra.isLt
  have h2 := vrb.isLt
  show 0x100001C4 + vrt.toNat * 2^21 + vra.toNat * 2^16 + vrb.toNat * 2^11 < 2^32
  omega

theorem EncodingFits.ppeVsr (vrt : BitVec 5) (vra : BitVec 5) (vrb : BitVec 5) :
    EncodingFits.Statement (.ppeVsr vrt vra vrb) := by
  have h0 := vrt.isLt
  have h1 := vra.isLt
  have h2 := vrb.isLt
  show 0x100002C4 + vrt.toNat * 2^21 + vra.toNat * 2^16 + vrb.toNat * 2^11 < 2^32
  omega

theorem EncodingFits.ppeVaddubm (vrt : BitVec 5) (vra : BitVec 5) (vrb : BitVec 5) :
    EncodingFits.Statement (.ppeVaddubm vrt vra vrb) := by
  have h0 := vrt.isLt
  have h1 := vra.isLt
  have h2 := vrb.isLt
  show 0x10000000 + vrt.toNat * 2^21 + vra.toNat * 2^16 + vrb.toNat * 2^11 < 2^32
  omega

theorem EncodingFits.ppeVadduhm (vrt : BitVec 5) (vra : BitVec 5) (vrb : BitVec 5) :
    EncodingFits.Statement (.ppeVadduhm vrt vra vrb) := by
  have h0 := vrt.isLt
  have h1 := vra.isLt
  have h2 := vrb.isLt
  show 0x10000040 + vrt.toNat * 2^21 + vra.toNat * 2^16 + vrb.toNat * 2^11 < 2^32
  omega

theorem EncodingFits.ppeVadduwm (vrt : BitVec 5) (vra : BitVec 5) (vrb : BitVec 5) :
    EncodingFits.Statement (.ppeVadduwm vrt vra vrb) := by
  have h0 := vrt.isLt
  have h1 := vra.isLt
  have h2 := vrb.isLt
  show 0x10000080 + vrt.toNat * 2^21 + vra.toNat * 2^16 + vrb.toNat * 2^11 < 2^32
  omega

theorem EncodingFits.ppeVaddcuw (vrt : BitVec 5) (vra : BitVec 5) (vrb : BitVec 5) :
    EncodingFits.Statement (.ppeVaddcuw vrt vra vrb) := by
  have h0 := vrt.isLt
  have h1 := vra.isLt
  have h2 := vrb.isLt
  show 0x10000180 + vrt.toNat * 2^21 + vra.toNat * 2^16 + vrb.toNat * 2^11 < 2^32
  omega

theorem EncodingFits.ppeVaddubs (vrt : BitVec 5) (vra : BitVec 5) (vrb : BitVec 5) :
    EncodingFits.Statement (.ppeVaddubs vrt vra vrb) := by
  have h0 := vrt.isLt
  have h1 := vra.isLt
  have h2 := vrb.isLt
  show 0x10000200 + vrt.toNat * 2^21 + vra.toNat * 2^16 + vrb.toNat * 2^11 < 2^32
  omega

theorem EncodingFits.ppeVadduhs (vrt : BitVec 5) (vra : BitVec 5) (vrb : BitVec 5) :
    EncodingFits.Statement (.ppeVadduhs vrt vra vrb) := by
  have h0 := vrt.isLt
  have h1 := vra.isLt
  have h2 := vrb.isLt
  show 0x10000240 + vrt.toNat * 2^21 + vra.toNat * 2^16 + vrb.toNat * 2^11 < 2^32
  omega

theorem EncodingFits.ppeVadduws (vrt : BitVec 5) (vra : BitVec 5) (vrb : BitVec 5) :
    EncodingFits.Statement (.ppeVadduws vrt vra vrb) := by
  have h0 := vrt.isLt
  have h1 := vra.isLt
  have h2 := vrb.isLt
  show 0x10000280 + vrt.toNat * 2^21 + vra.toNat * 2^16 + vrb.toNat * 2^11 < 2^32
  omega

theorem EncodingFits.ppeVaddsbs (vrt : BitVec 5) (vra : BitVec 5) (vrb : BitVec 5) :
    EncodingFits.Statement (.ppeVaddsbs vrt vra vrb) := by
  have h0 := vrt.isLt
  have h1 := vra.isLt
  have h2 := vrb.isLt
  show 0x10000300 + vrt.toNat * 2^21 + vra.toNat * 2^16 + vrb.toNat * 2^11 < 2^32
  omega

theorem EncodingFits.ppeVaddshs (vrt : BitVec 5) (vra : BitVec 5) (vrb : BitVec 5) :
    EncodingFits.Statement (.ppeVaddshs vrt vra vrb) := by
  have h0 := vrt.isLt
  have h1 := vra.isLt
  have h2 := vrb.isLt
  show 0x10000340 + vrt.toNat * 2^21 + vra.toNat * 2^16 + vrb.toNat * 2^11 < 2^32
  omega

theorem EncodingFits.ppeVaddsws (vrt : BitVec 5) (vra : BitVec 5) (vrb : BitVec 5) :
    EncodingFits.Statement (.ppeVaddsws vrt vra vrb) := by
  have h0 := vrt.isLt
  have h1 := vra.isLt
  have h2 := vrb.isLt
  show 0x10000380 + vrt.toNat * 2^21 + vra.toNat * 2^16 + vrb.toNat * 2^11 < 2^32
  omega

theorem EncodingFits.ppeVsububm (vrt : BitVec 5) (vra : BitVec 5) (vrb : BitVec 5) :
    EncodingFits.Statement (.ppeVsububm vrt vra vrb) := by
  have h0 := vrt.isLt
  have h1 := vra.isLt
  have h2 := vrb.isLt
  show 0x10000400 + vrt.toNat * 2^21 + vra.toNat * 2^16 + vrb.toNat * 2^11 < 2^32
  omega

theorem EncodingFits.ppeVsubuhm (vrt : BitVec 5) (vra : BitVec 5) (vrb : BitVec 5) :
    EncodingFits.Statement (.ppeVsubuhm vrt vra vrb) := by
  have h0 := vrt.isLt
  have h1 := vra.isLt
  have h2 := vrb.isLt
  show 0x10000440 + vrt.toNat * 2^21 + vra.toNat * 2^16 + vrb.toNat * 2^11 < 2^32
  omega

theorem EncodingFits.ppeVsubuwm (vrt : BitVec 5) (vra : BitVec 5) (vrb : BitVec 5) :
    EncodingFits.Statement (.ppeVsubuwm vrt vra vrb) := by
  have h0 := vrt.isLt
  have h1 := vra.isLt
  have h2 := vrb.isLt
  show 0x10000480 + vrt.toNat * 2^21 + vra.toNat * 2^16 + vrb.toNat * 2^11 < 2^32
  omega

theorem EncodingFits.ppeVsubcuw (vrt : BitVec 5) (vra : BitVec 5) (vrb : BitVec 5) :
    EncodingFits.Statement (.ppeVsubcuw vrt vra vrb) := by
  have h0 := vrt.isLt
  have h1 := vra.isLt
  have h2 := vrb.isLt
  show 0x10000580 + vrt.toNat * 2^21 + vra.toNat * 2^16 + vrb.toNat * 2^11 < 2^32
  omega

theorem EncodingFits.ppeVsububs (vrt : BitVec 5) (vra : BitVec 5) (vrb : BitVec 5) :
    EncodingFits.Statement (.ppeVsububs vrt vra vrb) := by
  have h0 := vrt.isLt
  have h1 := vra.isLt
  have h2 := vrb.isLt
  show 0x10000600 + vrt.toNat * 2^21 + vra.toNat * 2^16 + vrb.toNat * 2^11 < 2^32
  omega

theorem EncodingFits.ppeVsubuhs (vrt : BitVec 5) (vra : BitVec 5) (vrb : BitVec 5) :
    EncodingFits.Statement (.ppeVsubuhs vrt vra vrb) := by
  have h0 := vrt.isLt
  have h1 := vra.isLt
  have h2 := vrb.isLt
  show 0x10000640 + vrt.toNat * 2^21 + vra.toNat * 2^16 + vrb.toNat * 2^11 < 2^32
  omega

theorem EncodingFits.ppeVsubuws (vrt : BitVec 5) (vra : BitVec 5) (vrb : BitVec 5) :
    EncodingFits.Statement (.ppeVsubuws vrt vra vrb) := by
  have h0 := vrt.isLt
  have h1 := vra.isLt
  have h2 := vrb.isLt
  show 0x10000680 + vrt.toNat * 2^21 + vra.toNat * 2^16 + vrb.toNat * 2^11 < 2^32
  omega

theorem EncodingFits.ppeVsubsbs (vrt : BitVec 5) (vra : BitVec 5) (vrb : BitVec 5) :
    EncodingFits.Statement (.ppeVsubsbs vrt vra vrb) := by
  have h0 := vrt.isLt
  have h1 := vra.isLt
  have h2 := vrb.isLt
  show 0x10000700 + vrt.toNat * 2^21 + vra.toNat * 2^16 + vrb.toNat * 2^11 < 2^32
  omega

theorem EncodingFits.ppeVsubshs (vrt : BitVec 5) (vra : BitVec 5) (vrb : BitVec 5) :
    EncodingFits.Statement (.ppeVsubshs vrt vra vrb) := by
  have h0 := vrt.isLt
  have h1 := vra.isLt
  have h2 := vrb.isLt
  show 0x10000740 + vrt.toNat * 2^21 + vra.toNat * 2^16 + vrb.toNat * 2^11 < 2^32
  omega

theorem EncodingFits.ppeVsubsws (vrt : BitVec 5) (vra : BitVec 5) (vrb : BitVec 5) :
    EncodingFits.Statement (.ppeVsubsws vrt vra vrb) := by
  have h0 := vrt.isLt
  have h1 := vra.isLt
  have h2 := vrb.isLt
  show 0x10000780 + vrt.toNat * 2^21 + vra.toNat * 2^16 + vrb.toNat * 2^11 < 2^32
  omega

theorem EncodingFits.ppeVavgub (vrt : BitVec 5) (vra : BitVec 5) (vrb : BitVec 5) :
    EncodingFits.Statement (.ppeVavgub vrt vra vrb) := by
  have h0 := vrt.isLt
  have h1 := vra.isLt
  have h2 := vrb.isLt
  show 0x10000402 + vrt.toNat * 2^21 + vra.toNat * 2^16 + vrb.toNat * 2^11 < 2^32
  omega

theorem EncodingFits.ppeVavguh (vrt : BitVec 5) (vra : BitVec 5) (vrb : BitVec 5) :
    EncodingFits.Statement (.ppeVavguh vrt vra vrb) := by
  have h0 := vrt.isLt
  have h1 := vra.isLt
  have h2 := vrb.isLt
  show 0x10000442 + vrt.toNat * 2^21 + vra.toNat * 2^16 + vrb.toNat * 2^11 < 2^32
  omega

theorem EncodingFits.ppeVavguw (vrt : BitVec 5) (vra : BitVec 5) (vrb : BitVec 5) :
    EncodingFits.Statement (.ppeVavguw vrt vra vrb) := by
  have h0 := vrt.isLt
  have h1 := vra.isLt
  have h2 := vrb.isLt
  show 0x10000482 + vrt.toNat * 2^21 + vra.toNat * 2^16 + vrb.toNat * 2^11 < 2^32
  omega

theorem EncodingFits.ppeVavgsb (vrt : BitVec 5) (vra : BitVec 5) (vrb : BitVec 5) :
    EncodingFits.Statement (.ppeVavgsb vrt vra vrb) := by
  have h0 := vrt.isLt
  have h1 := vra.isLt
  have h2 := vrb.isLt
  show 0x10000502 + vrt.toNat * 2^21 + vra.toNat * 2^16 + vrb.toNat * 2^11 < 2^32
  omega

theorem EncodingFits.ppeVavgsh (vrt : BitVec 5) (vra : BitVec 5) (vrb : BitVec 5) :
    EncodingFits.Statement (.ppeVavgsh vrt vra vrb) := by
  have h0 := vrt.isLt
  have h1 := vra.isLt
  have h2 := vrb.isLt
  show 0x10000542 + vrt.toNat * 2^21 + vra.toNat * 2^16 + vrb.toNat * 2^11 < 2^32
  omega

theorem EncodingFits.ppeVavgsw (vrt : BitVec 5) (vra : BitVec 5) (vrb : BitVec 5) :
    EncodingFits.Statement (.ppeVavgsw vrt vra vrb) := by
  have h0 := vrt.isLt
  have h1 := vra.isLt
  have h2 := vrb.isLt
  show 0x10000582 + vrt.toNat * 2^21 + vra.toNat * 2^16 + vrb.toNat * 2^11 < 2^32
  omega

theorem EncodingFits.ppeVmaxub (vrt : BitVec 5) (vra : BitVec 5) (vrb : BitVec 5) :
    EncodingFits.Statement (.ppeVmaxub vrt vra vrb) := by
  have h0 := vrt.isLt
  have h1 := vra.isLt
  have h2 := vrb.isLt
  show 0x10000002 + vrt.toNat * 2^21 + vra.toNat * 2^16 + vrb.toNat * 2^11 < 2^32
  omega

theorem EncodingFits.ppeVmaxuh (vrt : BitVec 5) (vra : BitVec 5) (vrb : BitVec 5) :
    EncodingFits.Statement (.ppeVmaxuh vrt vra vrb) := by
  have h0 := vrt.isLt
  have h1 := vra.isLt
  have h2 := vrb.isLt
  show 0x10000042 + vrt.toNat * 2^21 + vra.toNat * 2^16 + vrb.toNat * 2^11 < 2^32
  omega

theorem EncodingFits.ppeVmaxuw (vrt : BitVec 5) (vra : BitVec 5) (vrb : BitVec 5) :
    EncodingFits.Statement (.ppeVmaxuw vrt vra vrb) := by
  have h0 := vrt.isLt
  have h1 := vra.isLt
  have h2 := vrb.isLt
  show 0x10000082 + vrt.toNat * 2^21 + vra.toNat * 2^16 + vrb.toNat * 2^11 < 2^32
  omega

theorem EncodingFits.ppeVmaxsb (vrt : BitVec 5) (vra : BitVec 5) (vrb : BitVec 5) :
    EncodingFits.Statement (.ppeVmaxsb vrt vra vrb) := by
  have h0 := vrt.isLt
  have h1 := vra.isLt
  have h2 := vrb.isLt
  show 0x10000102 + vrt.toNat * 2^21 + vra.toNat * 2^16 + vrb.toNat * 2^11 < 2^32
  omega

theorem EncodingFits.ppeVmaxsh (vrt : BitVec 5) (vra : BitVec 5) (vrb : BitVec 5) :
    EncodingFits.Statement (.ppeVmaxsh vrt vra vrb) := by
  have h0 := vrt.isLt
  have h1 := vra.isLt
  have h2 := vrb.isLt
  show 0x10000142 + vrt.toNat * 2^21 + vra.toNat * 2^16 + vrb.toNat * 2^11 < 2^32
  omega

theorem EncodingFits.ppeVmaxsw (vrt : BitVec 5) (vra : BitVec 5) (vrb : BitVec 5) :
    EncodingFits.Statement (.ppeVmaxsw vrt vra vrb) := by
  have h0 := vrt.isLt
  have h1 := vra.isLt
  have h2 := vrb.isLt
  show 0x10000182 + vrt.toNat * 2^21 + vra.toNat * 2^16 + vrb.toNat * 2^11 < 2^32
  omega

theorem EncodingFits.ppeVminub (vrt : BitVec 5) (vra : BitVec 5) (vrb : BitVec 5) :
    EncodingFits.Statement (.ppeVminub vrt vra vrb) := by
  have h0 := vrt.isLt
  have h1 := vra.isLt
  have h2 := vrb.isLt
  show 0x10000202 + vrt.toNat * 2^21 + vra.toNat * 2^16 + vrb.toNat * 2^11 < 2^32
  omega

theorem EncodingFits.ppeVminuh (vrt : BitVec 5) (vra : BitVec 5) (vrb : BitVec 5) :
    EncodingFits.Statement (.ppeVminuh vrt vra vrb) := by
  have h0 := vrt.isLt
  have h1 := vra.isLt
  have h2 := vrb.isLt
  show 0x10000242 + vrt.toNat * 2^21 + vra.toNat * 2^16 + vrb.toNat * 2^11 < 2^32
  omega

theorem EncodingFits.ppeVminuw (vrt : BitVec 5) (vra : BitVec 5) (vrb : BitVec 5) :
    EncodingFits.Statement (.ppeVminuw vrt vra vrb) := by
  have h0 := vrt.isLt
  have h1 := vra.isLt
  have h2 := vrb.isLt
  show 0x10000282 + vrt.toNat * 2^21 + vra.toNat * 2^16 + vrb.toNat * 2^11 < 2^32
  omega

theorem EncodingFits.ppeVminsb (vrt : BitVec 5) (vra : BitVec 5) (vrb : BitVec 5) :
    EncodingFits.Statement (.ppeVminsb vrt vra vrb) := by
  have h0 := vrt.isLt
  have h1 := vra.isLt
  have h2 := vrb.isLt
  show 0x10000302 + vrt.toNat * 2^21 + vra.toNat * 2^16 + vrb.toNat * 2^11 < 2^32
  omega

theorem EncodingFits.ppeVminsh (vrt : BitVec 5) (vra : BitVec 5) (vrb : BitVec 5) :
    EncodingFits.Statement (.ppeVminsh vrt vra vrb) := by
  have h0 := vrt.isLt
  have h1 := vra.isLt
  have h2 := vrb.isLt
  show 0x10000342 + vrt.toNat * 2^21 + vra.toNat * 2^16 + vrb.toNat * 2^11 < 2^32
  omega

theorem EncodingFits.ppeVminsw (vrt : BitVec 5) (vra : BitVec 5) (vrb : BitVec 5) :
    EncodingFits.Statement (.ppeVminsw vrt vra vrb) := by
  have h0 := vrt.isLt
  have h1 := vra.isLt
  have h2 := vrb.isLt
  show 0x10000382 + vrt.toNat * 2^21 + vra.toNat * 2^16 + vrb.toNat * 2^11 < 2^32
  omega

theorem EncodingFits.ppeVcmpequb (vrt : BitVec 5) (vra : BitVec 5) (vrb : BitVec 5) (rec : Bool) :
    EncodingFits.Statement (.ppeVcmpequb vrt vra vrb rec) := by
  have h0 := vrt.isLt
  have h1 := vra.isLt
  have h2 := vrb.isLt
  have h3 := rec.toNat_lt
  show 0x10000006 + vrt.toNat * 2^21 + vra.toNat * 2^16 + vrb.toNat * 2^11 + rec.toNat * 2^10 < 2^32
  omega

theorem EncodingFits.ppeVcmpequh (vrt : BitVec 5) (vra : BitVec 5) (vrb : BitVec 5) (rec : Bool) :
    EncodingFits.Statement (.ppeVcmpequh vrt vra vrb rec) := by
  have h0 := vrt.isLt
  have h1 := vra.isLt
  have h2 := vrb.isLt
  have h3 := rec.toNat_lt
  show 0x10000046 + vrt.toNat * 2^21 + vra.toNat * 2^16 + vrb.toNat * 2^11 + rec.toNat * 2^10 < 2^32
  omega

theorem EncodingFits.ppeVcmpequw (vrt : BitVec 5) (vra : BitVec 5) (vrb : BitVec 5) (rec : Bool) :
    EncodingFits.Statement (.ppeVcmpequw vrt vra vrb rec) := by
  have h0 := vrt.isLt
  have h1 := vra.isLt
  have h2 := vrb.isLt
  have h3 := rec.toNat_lt
  show 0x10000086 + vrt.toNat * 2^21 + vra.toNat * 2^16 + vrb.toNat * 2^11 + rec.toNat * 2^10 < 2^32
  omega

theorem EncodingFits.ppeVcmpeqfp (vrt : BitVec 5) (vra : BitVec 5) (vrb : BitVec 5) (rec : Bool) :
    EncodingFits.Statement (.ppeVcmpeqfp vrt vra vrb rec) := by
  have h0 := vrt.isLt
  have h1 := vra.isLt
  have h2 := vrb.isLt
  have h3 := rec.toNat_lt
  show 0x100000C6 + vrt.toNat * 2^21 + vra.toNat * 2^16 + vrb.toNat * 2^11 + rec.toNat * 2^10 < 2^32
  omega

theorem EncodingFits.ppeVcmpgefp (vrt : BitVec 5) (vra : BitVec 5) (vrb : BitVec 5) (rec : Bool) :
    EncodingFits.Statement (.ppeVcmpgefp vrt vra vrb rec) := by
  have h0 := vrt.isLt
  have h1 := vra.isLt
  have h2 := vrb.isLt
  have h3 := rec.toNat_lt
  show 0x100001C6 + vrt.toNat * 2^21 + vra.toNat * 2^16 + vrb.toNat * 2^11 + rec.toNat * 2^10 < 2^32
  omega

theorem EncodingFits.ppeVcmpgtub (vrt : BitVec 5) (vra : BitVec 5) (vrb : BitVec 5) (rec : Bool) :
    EncodingFits.Statement (.ppeVcmpgtub vrt vra vrb rec) := by
  have h0 := vrt.isLt
  have h1 := vra.isLt
  have h2 := vrb.isLt
  have h3 := rec.toNat_lt
  show 0x10000206 + vrt.toNat * 2^21 + vra.toNat * 2^16 + vrb.toNat * 2^11 + rec.toNat * 2^10 < 2^32
  omega

theorem EncodingFits.ppeVcmpgtuh (vrt : BitVec 5) (vra : BitVec 5) (vrb : BitVec 5) (rec : Bool) :
    EncodingFits.Statement (.ppeVcmpgtuh vrt vra vrb rec) := by
  have h0 := vrt.isLt
  have h1 := vra.isLt
  have h2 := vrb.isLt
  have h3 := rec.toNat_lt
  show 0x10000246 + vrt.toNat * 2^21 + vra.toNat * 2^16 + vrb.toNat * 2^11 + rec.toNat * 2^10 < 2^32
  omega

theorem EncodingFits.ppeVcmpgtuw (vrt : BitVec 5) (vra : BitVec 5) (vrb : BitVec 5) (rec : Bool) :
    EncodingFits.Statement (.ppeVcmpgtuw vrt vra vrb rec) := by
  have h0 := vrt.isLt
  have h1 := vra.isLt
  have h2 := vrb.isLt
  have h3 := rec.toNat_lt
  show 0x10000286 + vrt.toNat * 2^21 + vra.toNat * 2^16 + vrb.toNat * 2^11 + rec.toNat * 2^10 < 2^32
  omega

theorem EncodingFits.ppeVcmpgtfp (vrt : BitVec 5) (vra : BitVec 5) (vrb : BitVec 5) (rec : Bool) :
    EncodingFits.Statement (.ppeVcmpgtfp vrt vra vrb rec) := by
  have h0 := vrt.isLt
  have h1 := vra.isLt
  have h2 := vrb.isLt
  have h3 := rec.toNat_lt
  show 0x100002C6 + vrt.toNat * 2^21 + vra.toNat * 2^16 + vrb.toNat * 2^11 + rec.toNat * 2^10 < 2^32
  omega

theorem EncodingFits.ppeVcmpgtsb (vrt : BitVec 5) (vra : BitVec 5) (vrb : BitVec 5) (rec : Bool) :
    EncodingFits.Statement (.ppeVcmpgtsb vrt vra vrb rec) := by
  have h0 := vrt.isLt
  have h1 := vra.isLt
  have h2 := vrb.isLt
  have h3 := rec.toNat_lt
  show 0x10000306 + vrt.toNat * 2^21 + vra.toNat * 2^16 + vrb.toNat * 2^11 + rec.toNat * 2^10 < 2^32
  omega

theorem EncodingFits.ppeVcmpgtsh (vrt : BitVec 5) (vra : BitVec 5) (vrb : BitVec 5) (rec : Bool) :
    EncodingFits.Statement (.ppeVcmpgtsh vrt vra vrb rec) := by
  have h0 := vrt.isLt
  have h1 := vra.isLt
  have h2 := vrb.isLt
  have h3 := rec.toNat_lt
  show 0x10000346 + vrt.toNat * 2^21 + vra.toNat * 2^16 + vrb.toNat * 2^11 + rec.toNat * 2^10 < 2^32
  omega

theorem EncodingFits.ppeVcmpgtsw (vrt : BitVec 5) (vra : BitVec 5) (vrb : BitVec 5) (rec : Bool) :
    EncodingFits.Statement (.ppeVcmpgtsw vrt vra vrb rec) := by
  have h0 := vrt.isLt
  have h1 := vra.isLt
  have h2 := vrb.isLt
  have h3 := rec.toNat_lt
  show 0x10000386 + vrt.toNat * 2^21 + vra.toNat * 2^16 + vrb.toNat * 2^11 + rec.toNat * 2^10 < 2^32
  omega

theorem EncodingFits.ppeVcmpbfp (vrt : BitVec 5) (vra : BitVec 5) (vrb : BitVec 5) (rec : Bool) :
    EncodingFits.Statement (.ppeVcmpbfp vrt vra vrb rec) := by
  have h0 := vrt.isLt
  have h1 := vra.isLt
  have h2 := vrb.isLt
  have h3 := rec.toNat_lt
  show 0x100003C6 + vrt.toNat * 2^21 + vra.toNat * 2^16 + vrb.toNat * 2^11 + rec.toNat * 2^10 < 2^32
  omega

theorem EncodingFits.ppeVmuleub (vrt : BitVec 5) (vra : BitVec 5) (vrb : BitVec 5) :
    EncodingFits.Statement (.ppeVmuleub vrt vra vrb) := by
  have h0 := vrt.isLt
  have h1 := vra.isLt
  have h2 := vrb.isLt
  show 0x10000208 + vrt.toNat * 2^21 + vra.toNat * 2^16 + vrb.toNat * 2^11 < 2^32
  omega

theorem EncodingFits.ppeVmuleuh (vrt : BitVec 5) (vra : BitVec 5) (vrb : BitVec 5) :
    EncodingFits.Statement (.ppeVmuleuh vrt vra vrb) := by
  have h0 := vrt.isLt
  have h1 := vra.isLt
  have h2 := vrb.isLt
  show 0x10000248 + vrt.toNat * 2^21 + vra.toNat * 2^16 + vrb.toNat * 2^11 < 2^32
  omega

theorem EncodingFits.ppeVmulesb (vrt : BitVec 5) (vra : BitVec 5) (vrb : BitVec 5) :
    EncodingFits.Statement (.ppeVmulesb vrt vra vrb) := by
  have h0 := vrt.isLt
  have h1 := vra.isLt
  have h2 := vrb.isLt
  show 0x10000308 + vrt.toNat * 2^21 + vra.toNat * 2^16 + vrb.toNat * 2^11 < 2^32
  omega

theorem EncodingFits.ppeVmulesh (vrt : BitVec 5) (vra : BitVec 5) (vrb : BitVec 5) :
    EncodingFits.Statement (.ppeVmulesh vrt vra vrb) := by
  have h0 := vrt.isLt
  have h1 := vra.isLt
  have h2 := vrb.isLt
  show 0x10000348 + vrt.toNat * 2^21 + vra.toNat * 2^16 + vrb.toNat * 2^11 < 2^32
  omega

theorem EncodingFits.ppeVmuloub (vrt : BitVec 5) (vra : BitVec 5) (vrb : BitVec 5) :
    EncodingFits.Statement (.ppeVmuloub vrt vra vrb) := by
  have h0 := vrt.isLt
  have h1 := vra.isLt
  have h2 := vrb.isLt
  show 0x10000008 + vrt.toNat * 2^21 + vra.toNat * 2^16 + vrb.toNat * 2^11 < 2^32
  omega

theorem EncodingFits.ppeVmulouh (vrt : BitVec 5) (vra : BitVec 5) (vrb : BitVec 5) :
    EncodingFits.Statement (.ppeVmulouh vrt vra vrb) := by
  have h0 := vrt.isLt
  have h1 := vra.isLt
  have h2 := vrb.isLt
  show 0x10000048 + vrt.toNat * 2^21 + vra.toNat * 2^16 + vrb.toNat * 2^11 < 2^32
  omega

theorem EncodingFits.ppeVmulosb (vrt : BitVec 5) (vra : BitVec 5) (vrb : BitVec 5) :
    EncodingFits.Statement (.ppeVmulosb vrt vra vrb) := by
  have h0 := vrt.isLt
  have h1 := vra.isLt
  have h2 := vrb.isLt
  show 0x10000108 + vrt.toNat * 2^21 + vra.toNat * 2^16 + vrb.toNat * 2^11 < 2^32
  omega

theorem EncodingFits.ppeVmulosh (vrt : BitVec 5) (vra : BitVec 5) (vrb : BitVec 5) :
    EncodingFits.Statement (.ppeVmulosh vrt vra vrb) := by
  have h0 := vrt.isLt
  have h1 := vra.isLt
  have h2 := vrb.isLt
  show 0x10000148 + vrt.toNat * 2^21 + vra.toNat * 2^16 + vrb.toNat * 2^11 < 2^32
  omega

theorem EncodingFits.ppeVmhaddshs (vrt : BitVec 5) (vra : BitVec 5) (vrb : BitVec 5) (vrc : BitVec 5) :
    EncodingFits.Statement (.ppeVmhaddshs vrt vra vrb vrc) := by
  have h0 := vrt.isLt
  have h1 := vra.isLt
  have h2 := vrb.isLt
  have h3 := vrc.isLt
  show 0x10000020 + vrt.toNat * 2^21 + vra.toNat * 2^16 + vrb.toNat * 2^11 + vrc.toNat * 2^6 < 2^32
  omega

theorem EncodingFits.ppeVmhraddshs (vrt : BitVec 5) (vra : BitVec 5) (vrb : BitVec 5) (vrc : BitVec 5) :
    EncodingFits.Statement (.ppeVmhraddshs vrt vra vrb vrc) := by
  have h0 := vrt.isLt
  have h1 := vra.isLt
  have h2 := vrb.isLt
  have h3 := vrc.isLt
  show 0x10000021 + vrt.toNat * 2^21 + vra.toNat * 2^16 + vrb.toNat * 2^11 + vrc.toNat * 2^6 < 2^32
  omega

theorem EncodingFits.ppeVmladduhm (vrt : BitVec 5) (vra : BitVec 5) (vrb : BitVec 5) (vrc : BitVec 5) :
    EncodingFits.Statement (.ppeVmladduhm vrt vra vrb vrc) := by
  have h0 := vrt.isLt
  have h1 := vra.isLt
  have h2 := vrb.isLt
  have h3 := vrc.isLt
  show 0x10000022 + vrt.toNat * 2^21 + vra.toNat * 2^16 + vrb.toNat * 2^11 + vrc.toNat * 2^6 < 2^32
  omega

theorem EncodingFits.ppeVmsumubm (vrt : BitVec 5) (vra : BitVec 5) (vrb : BitVec 5) (vrc : BitVec 5) :
    EncodingFits.Statement (.ppeVmsumubm vrt vra vrb vrc) := by
  have h0 := vrt.isLt
  have h1 := vra.isLt
  have h2 := vrb.isLt
  have h3 := vrc.isLt
  show 0x10000024 + vrt.toNat * 2^21 + vra.toNat * 2^16 + vrb.toNat * 2^11 + vrc.toNat * 2^6 < 2^32
  omega

theorem EncodingFits.ppeVmsummbm (vrt : BitVec 5) (vra : BitVec 5) (vrb : BitVec 5) (vrc : BitVec 5) :
    EncodingFits.Statement (.ppeVmsummbm vrt vra vrb vrc) := by
  have h0 := vrt.isLt
  have h1 := vra.isLt
  have h2 := vrb.isLt
  have h3 := vrc.isLt
  show 0x10000025 + vrt.toNat * 2^21 + vra.toNat * 2^16 + vrb.toNat * 2^11 + vrc.toNat * 2^6 < 2^32
  omega

theorem EncodingFits.ppeVmsumuhm (vrt : BitVec 5) (vra : BitVec 5) (vrb : BitVec 5) (vrc : BitVec 5) :
    EncodingFits.Statement (.ppeVmsumuhm vrt vra vrb vrc) := by
  have h0 := vrt.isLt
  have h1 := vra.isLt
  have h2 := vrb.isLt
  have h3 := vrc.isLt
  show 0x10000026 + vrt.toNat * 2^21 + vra.toNat * 2^16 + vrb.toNat * 2^11 + vrc.toNat * 2^6 < 2^32
  omega

theorem EncodingFits.ppeVmsumuhs (vrt : BitVec 5) (vra : BitVec 5) (vrb : BitVec 5) (vrc : BitVec 5) :
    EncodingFits.Statement (.ppeVmsumuhs vrt vra vrb vrc) := by
  have h0 := vrt.isLt
  have h1 := vra.isLt
  have h2 := vrb.isLt
  have h3 := vrc.isLt
  show 0x10000027 + vrt.toNat * 2^21 + vra.toNat * 2^16 + vrb.toNat * 2^11 + vrc.toNat * 2^6 < 2^32
  omega

theorem EncodingFits.ppeVmsumshm (vrt : BitVec 5) (vra : BitVec 5) (vrb : BitVec 5) (vrc : BitVec 5) :
    EncodingFits.Statement (.ppeVmsumshm vrt vra vrb vrc) := by
  have h0 := vrt.isLt
  have h1 := vra.isLt
  have h2 := vrb.isLt
  have h3 := vrc.isLt
  show 0x10000028 + vrt.toNat * 2^21 + vra.toNat * 2^16 + vrb.toNat * 2^11 + vrc.toNat * 2^6 < 2^32
  omega

theorem EncodingFits.ppeVmsumshs (vrt : BitVec 5) (vra : BitVec 5) (vrb : BitVec 5) (vrc : BitVec 5) :
    EncodingFits.Statement (.ppeVmsumshs vrt vra vrb vrc) := by
  have h0 := vrt.isLt
  have h1 := vra.isLt
  have h2 := vrb.isLt
  have h3 := vrc.isLt
  show 0x10000029 + vrt.toNat * 2^21 + vra.toNat * 2^16 + vrb.toNat * 2^11 + vrc.toNat * 2^6 < 2^32
  omega

theorem EncodingFits.ppeVsum4ubs (vrt : BitVec 5) (vra : BitVec 5) (vrb : BitVec 5) :
    EncodingFits.Statement (.ppeVsum4ubs vrt vra vrb) := by
  have h0 := vrt.isLt
  have h1 := vra.isLt
  have h2 := vrb.isLt
  show 0x10000608 + vrt.toNat * 2^21 + vra.toNat * 2^16 + vrb.toNat * 2^11 < 2^32
  omega

theorem EncodingFits.ppeVsum4sbs (vrt : BitVec 5) (vra : BitVec 5) (vrb : BitVec 5) :
    EncodingFits.Statement (.ppeVsum4sbs vrt vra vrb) := by
  have h0 := vrt.isLt
  have h1 := vra.isLt
  have h2 := vrb.isLt
  show 0x10000708 + vrt.toNat * 2^21 + vra.toNat * 2^16 + vrb.toNat * 2^11 < 2^32
  omega

theorem EncodingFits.ppeVsum4shs (vrt : BitVec 5) (vra : BitVec 5) (vrb : BitVec 5) :
    EncodingFits.Statement (.ppeVsum4shs vrt vra vrb) := by
  have h0 := vrt.isLt
  have h1 := vra.isLt
  have h2 := vrb.isLt
  show 0x10000648 + vrt.toNat * 2^21 + vra.toNat * 2^16 + vrb.toNat * 2^11 < 2^32
  omega

theorem EncodingFits.ppeVsum2sws (vrt : BitVec 5) (vra : BitVec 5) (vrb : BitVec 5) :
    EncodingFits.Statement (.ppeVsum2sws vrt vra vrb) := by
  have h0 := vrt.isLt
  have h1 := vra.isLt
  have h2 := vrb.isLt
  show 0x10000688 + vrt.toNat * 2^21 + vra.toNat * 2^16 + vrb.toNat * 2^11 < 2^32
  omega

theorem EncodingFits.ppeVsumsws (vrt : BitVec 5) (vra : BitVec 5) (vrb : BitVec 5) :
    EncodingFits.Statement (.ppeVsumsws vrt vra vrb) := by
  have h0 := vrt.isLt
  have h1 := vra.isLt
  have h2 := vrb.isLt
  show 0x10000788 + vrt.toNat * 2^21 + vra.toNat * 2^16 + vrb.toNat * 2^11 < 2^32
  omega

theorem EncodingFits.ppeMfvscr (vrt : BitVec 5) : EncodingFits.Statement (.ppeMfvscr vrt) := by
  have h := vrt.isLt
  show 0x10000604 + vrt.toNat * 2^21 < 2^32
  omega

theorem EncodingFits.ppeMtvscr (vrb : BitVec 5) : EncodingFits.Statement (.ppeMtvscr vrb) := by
  have h := vrb.isLt
  show 0x10000644 + vrb.toNat * 2^11 < 2^32
  omega

theorem EncodingFits.ppeVaddfp (vrt : BitVec 5) (vra : BitVec 5) (vrb : BitVec 5) :
    EncodingFits.Statement (.ppeVaddfp vrt vra vrb) := by
  have h0 := vrt.isLt
  have h1 := vra.isLt
  have h2 := vrb.isLt
  show 0x1000000A + vrt.toNat * 2^21 + vra.toNat * 2^16 + vrb.toNat * 2^11 < 2^32
  omega

theorem EncodingFits.ppeVsubfp (vrt : BitVec 5) (vra : BitVec 5) (vrb : BitVec 5) :
    EncodingFits.Statement (.ppeVsubfp vrt vra vrb) := by
  have h0 := vrt.isLt
  have h1 := vra.isLt
  have h2 := vrb.isLt
  show 0x1000004A + vrt.toNat * 2^21 + vra.toNat * 2^16 + vrb.toNat * 2^11 < 2^32
  omega

theorem EncodingFits.ppeVmaddfp (vrt : BitVec 5) (vra : BitVec 5) (vrb : BitVec 5) (vrc : BitVec 5) :
    EncodingFits.Statement (.ppeVmaddfp vrt vra vrb vrc) := by
  have h0 := vrt.isLt
  have h1 := vra.isLt
  have h2 := vrb.isLt
  have h3 := vrc.isLt
  show 0x1000002E + vrt.toNat * 2^21 + vra.toNat * 2^16 + vrb.toNat * 2^11 + vrc.toNat * 2^6 < 2^32
  omega

theorem EncodingFits.ppeVnmsubfp (vrt : BitVec 5) (vra : BitVec 5) (vrb : BitVec 5) (vrc : BitVec 5) :
    EncodingFits.Statement (.ppeVnmsubfp vrt vra vrb vrc) := by
  have h0 := vrt.isLt
  have h1 := vra.isLt
  have h2 := vrb.isLt
  have h3 := vrc.isLt
  show 0x1000002F + vrt.toNat * 2^21 + vra.toNat * 2^16 + vrb.toNat * 2^11 + vrc.toNat * 2^6 < 2^32
  omega

theorem EncodingFits.ppeVmaxfp (vrt : BitVec 5) (vra : BitVec 5) (vrb : BitVec 5) :
    EncodingFits.Statement (.ppeVmaxfp vrt vra vrb) := by
  have h0 := vrt.isLt
  have h1 := vra.isLt
  have h2 := vrb.isLt
  show 0x1000040A + vrt.toNat * 2^21 + vra.toNat * 2^16 + vrb.toNat * 2^11 < 2^32
  omega

theorem EncodingFits.ppeVminfp (vrt : BitVec 5) (vra : BitVec 5) (vrb : BitVec 5) :
    EncodingFits.Statement (.ppeVminfp vrt vra vrb) := by
  have h0 := vrt.isLt
  have h1 := vra.isLt
  have h2 := vrb.isLt
  show 0x1000044A + vrt.toNat * 2^21 + vra.toNat * 2^16 + vrb.toNat * 2^11 < 2^32
  omega

theorem EncodingFits.ppeVrefp (vrt : BitVec 5) (vrb : BitVec 5) : EncodingFits.Statement (.ppeVrefp vrt vrb) := by
  have h0 := vrt.isLt
  have h1 := vrb.isLt
  show 0x1000010A + vrt.toNat * 2^21 + vrb.toNat * 2^11 < 2^32
  omega

theorem EncodingFits.ppeVrsqrtefp (vrt : BitVec 5) (vrb : BitVec 5) : EncodingFits.Statement (.ppeVrsqrtefp vrt vrb) := by
  have h0 := vrt.isLt
  have h1 := vrb.isLt
  show 0x1000014A + vrt.toNat * 2^21 + vrb.toNat * 2^11 < 2^32
  omega

theorem EncodingFits.ppeVlogefp (vrt : BitVec 5) (vrb : BitVec 5) : EncodingFits.Statement (.ppeVlogefp vrt vrb) := by
  have h0 := vrt.isLt
  have h1 := vrb.isLt
  show 0x100001CA + vrt.toNat * 2^21 + vrb.toNat * 2^11 < 2^32
  omega

theorem EncodingFits.ppeVexptefp (vrt : BitVec 5) (vrb : BitVec 5) : EncodingFits.Statement (.ppeVexptefp vrt vrb) := by
  have h0 := vrt.isLt
  have h1 := vrb.isLt
  show 0x1000018A + vrt.toNat * 2^21 + vrb.toNat * 2^11 < 2^32
  omega

theorem EncodingFits.ppeVrfin (vrt : BitVec 5) (vrb : BitVec 5) : EncodingFits.Statement (.ppeVrfin vrt vrb) := by
  have h0 := vrt.isLt
  have h1 := vrb.isLt
  show 0x1000020A + vrt.toNat * 2^21 + vrb.toNat * 2^11 < 2^32
  omega

theorem EncodingFits.ppeVrfiz (vrt : BitVec 5) (vrb : BitVec 5) : EncodingFits.Statement (.ppeVrfiz vrt vrb) := by
  have h0 := vrt.isLt
  have h1 := vrb.isLt
  show 0x1000024A + vrt.toNat * 2^21 + vrb.toNat * 2^11 < 2^32
  omega

theorem EncodingFits.ppeVrfip (vrt : BitVec 5) (vrb : BitVec 5) : EncodingFits.Statement (.ppeVrfip vrt vrb) := by
  have h0 := vrt.isLt
  have h1 := vrb.isLt
  show 0x1000028A + vrt.toNat * 2^21 + vrb.toNat * 2^11 < 2^32
  omega

theorem EncodingFits.ppeVrfim (vrt : BitVec 5) (vrb : BitVec 5) : EncodingFits.Statement (.ppeVrfim vrt vrb) := by
  have h0 := vrt.isLt
  have h1 := vrb.isLt
  show 0x100002CA + vrt.toNat * 2^21 + vrb.toNat * 2^11 < 2^32
  omega

theorem EncodingFits.ppeVcfux (vrt : BitVec 5) (vrb : BitVec 5) (uim : BitVec 5) :
    EncodingFits.Statement (.ppeVcfux vrt vrb uim) := by
  have h0 := vrt.isLt
  have h1 := vrb.isLt
  have h2 := uim.isLt
  show 0x1000030A + vrt.toNat * 2^21 + vrb.toNat * 2^11 + uim.toNat * 2^16 < 2^32
  omega

theorem EncodingFits.ppeVcfsx (vrt : BitVec 5) (vrb : BitVec 5) (uim : BitVec 5) :
    EncodingFits.Statement (.ppeVcfsx vrt vrb uim) := by
  have h0 := vrt.isLt
  have h1 := vrb.isLt
  have h2 := uim.isLt
  show 0x1000034A + vrt.toNat * 2^21 + vrb.toNat * 2^11 + uim.toNat * 2^16 < 2^32
  omega

theorem EncodingFits.ppeVctuxs (vrt : BitVec 5) (vrb : BitVec 5) (uim : BitVec 5) :
    EncodingFits.Statement (.ppeVctuxs vrt vrb uim) := by
  have h0 := vrt.isLt
  have h1 := vrb.isLt
  have h2 := uim.isLt
  show 0x1000038A + vrt.toNat * 2^21 + vrb.toNat * 2^11 + uim.toNat * 2^16 < 2^32
  omega

theorem EncodingFits.ppeVctsxs (vrt : BitVec 5) (vrb : BitVec 5) (uim : BitVec 5) :
    EncodingFits.Statement (.ppeVctsxs vrt vrb uim) := by
  have h0 := vrt.isLt
  have h1 := vrb.isLt
  have h2 := uim.isLt
  show 0x100003CA + vrt.toNat * 2^21 + vrb.toNat * 2^11 + uim.toNat * 2^16 < 2^32
  omega

theorem EncodingFits.spuLqd (rt : BitVec 7) (ra : BitVec 7) (i10 : BitVec 10) : EncodingFits.Statement (.spuLqd rt ra i10) := by
  have h0 := rt.isLt
  have h1 := ra.isLt
  have h2 := i10.isLt
  show 0x34000000 + rt.toNat * 2^0 + ra.toNat * 2^7 + i10.toNat * 2^14 < 2^32
  omega

theorem EncodingFits.spuLqx (rt : BitVec 7) (ra : BitVec 7) (rb : BitVec 7) : EncodingFits.Statement (.spuLqx rt ra rb) := by
  have h0 := rt.isLt
  have h1 := ra.isLt
  have h2 := rb.isLt
  show 0x38800000 + rt.toNat * 2^0 + ra.toNat * 2^7 + rb.toNat * 2^14 < 2^32
  omega

theorem EncodingFits.spuLqa (rt : BitVec 7) (i16 : BitVec 16) : EncodingFits.Statement (.spuLqa rt i16) := by
  have h0 := rt.isLt
  have h1 := i16.isLt
  show 0x30800000 + rt.toNat * 2^0 + i16.toNat * 2^7 < 2^32
  omega

theorem EncodingFits.spuLqr (rt : BitVec 7) (i16 : BitVec 16) : EncodingFits.Statement (.spuLqr rt i16) := by
  have h0 := rt.isLt
  have h1 := i16.isLt
  show 0x33800000 + rt.toNat * 2^0 + i16.toNat * 2^7 < 2^32
  omega

theorem EncodingFits.spuStqd (rt : BitVec 7) (ra : BitVec 7) (i10 : BitVec 10) : EncodingFits.Statement (.spuStqd rt ra i10) := by
  have h0 := rt.isLt
  have h1 := ra.isLt
  have h2 := i10.isLt
  show 0x24000000 + rt.toNat * 2^0 + ra.toNat * 2^7 + i10.toNat * 2^14 < 2^32
  omega

theorem EncodingFits.spuStqx (rt : BitVec 7) (ra : BitVec 7) (rb : BitVec 7) : EncodingFits.Statement (.spuStqx rt ra rb) := by
  have h0 := rt.isLt
  have h1 := ra.isLt
  have h2 := rb.isLt
  show 0x28800000 + rt.toNat * 2^0 + ra.toNat * 2^7 + rb.toNat * 2^14 < 2^32
  omega

theorem EncodingFits.spuStqa (rt : BitVec 7) (i16 : BitVec 16) : EncodingFits.Statement (.spuStqa rt i16) := by
  have h0 := rt.isLt
  have h1 := i16.isLt
  show 0x20800000 + rt.toNat * 2^0 + i16.toNat * 2^7 < 2^32
  omega

theorem EncodingFits.spuStqr (rt : BitVec 7) (i16 : BitVec 16) : EncodingFits.Statement (.spuStqr rt i16) := by
  have h0 := rt.isLt
  have h1 := i16.isLt
  show 0x23800000 + rt.toNat * 2^0 + i16.toNat * 2^7 < 2^32
  omega

theorem EncodingFits.spuCbd (rt : BitVec 7) (ra : BitVec 7) (i7 : BitVec 7) : EncodingFits.Statement (.spuCbd rt ra i7) := by
  have h0 := rt.isLt
  have h1 := ra.isLt
  have h2 := i7.isLt
  show 0x3E800000 + rt.toNat * 2^0 + ra.toNat * 2^7 + i7.toNat * 2^14 < 2^32
  omega

theorem EncodingFits.spuCbx (rt : BitVec 7) (ra : BitVec 7) (rb : BitVec 7) : EncodingFits.Statement (.spuCbx rt ra rb) := by
  have h0 := rt.isLt
  have h1 := ra.isLt
  have h2 := rb.isLt
  show 0x3A800000 + rt.toNat * 2^0 + ra.toNat * 2^7 + rb.toNat * 2^14 < 2^32
  omega

theorem EncodingFits.spuChd (rt : BitVec 7) (ra : BitVec 7) (i7 : BitVec 7) : EncodingFits.Statement (.spuChd rt ra i7) := by
  have h0 := rt.isLt
  have h1 := ra.isLt
  have h2 := i7.isLt
  show 0x3EA00000 + rt.toNat * 2^0 + ra.toNat * 2^7 + i7.toNat * 2^14 < 2^32
  omega

theorem EncodingFits.spuChx (rt : BitVec 7) (ra : BitVec 7) (rb : BitVec 7) : EncodingFits.Statement (.spuChx rt ra rb) := by
  have h0 := rt.isLt
  have h1 := ra.isLt
  have h2 := rb.isLt
  show 0x3AA00000 + rt.toNat * 2^0 + ra.toNat * 2^7 + rb.toNat * 2^14 < 2^32
  omega

theorem EncodingFits.spuCwd (rt : BitVec 7) (ra : BitVec 7) (i7 : BitVec 7) : EncodingFits.Statement (.spuCwd rt ra i7) := by
  have h0 := rt.isLt
  have h1 := ra.isLt
  have h2 := i7.isLt
  show 0x3EC00000 + rt.toNat * 2^0 + ra.toNat * 2^7 + i7.toNat * 2^14 < 2^32
  omega

theorem EncodingFits.spuCwx (rt : BitVec 7) (ra : BitVec 7) (rb : BitVec 7) : EncodingFits.Statement (.spuCwx rt ra rb) := by
  have h0 := rt.isLt
  have h1 := ra.isLt
  have h2 := rb.isLt
  show 0x3AC00000 + rt.toNat * 2^0 + ra.toNat * 2^7 + rb.toNat * 2^14 < 2^32
  omega

theorem EncodingFits.spuCdd (rt : BitVec 7) (ra : BitVec 7) (i7 : BitVec 7) : EncodingFits.Statement (.spuCdd rt ra i7) := by
  have h0 := rt.isLt
  have h1 := ra.isLt
  have h2 := i7.isLt
  show 0x3EE00000 + rt.toNat * 2^0 + ra.toNat * 2^7 + i7.toNat * 2^14 < 2^32
  omega

theorem EncodingFits.spuCdx (rt : BitVec 7) (ra : BitVec 7) (rb : BitVec 7) : EncodingFits.Statement (.spuCdx rt ra rb) := by
  have h0 := rt.isLt
  have h1 := ra.isLt
  have h2 := rb.isLt
  show 0x3AE00000 + rt.toNat * 2^0 + ra.toNat * 2^7 + rb.toNat * 2^14 < 2^32
  omega

theorem EncodingFits.spuIlh (rt : BitVec 7) (i16 : BitVec 16) : EncodingFits.Statement (.spuIlh rt i16) := by
  have h0 := rt.isLt
  have h1 := i16.isLt
  show 0x41800000 + rt.toNat * 2^0 + i16.toNat * 2^7 < 2^32
  omega

theorem EncodingFits.spuIlhu (rt : BitVec 7) (i16 : BitVec 16) : EncodingFits.Statement (.spuIlhu rt i16) := by
  have h0 := rt.isLt
  have h1 := i16.isLt
  show 0x41000000 + rt.toNat * 2^0 + i16.toNat * 2^7 < 2^32
  omega

theorem EncodingFits.spuIl (rt : BitVec 7) (i16 : BitVec 16) : EncodingFits.Statement (.spuIl rt i16) := by
  have h0 := rt.isLt
  have h1 := i16.isLt
  show 0x40800000 + rt.toNat * 2^0 + i16.toNat * 2^7 < 2^32
  omega

theorem EncodingFits.spuIla (rt : BitVec 7) (i18 : BitVec 18) : EncodingFits.Statement (.spuIla rt i18) := by
  have h0 := rt.isLt
  have h1 := i18.isLt
  show 0x42000000 + rt.toNat * 2^0 + i18.toNat * 2^7 < 2^32
  omega

theorem EncodingFits.spuIohl (rt : BitVec 7) (i16 : BitVec 16) : EncodingFits.Statement (.spuIohl rt i16) := by
  have h0 := rt.isLt
  have h1 := i16.isLt
  show 0x60800000 + rt.toNat * 2^0 + i16.toNat * 2^7 < 2^32
  omega

theorem EncodingFits.spuFsmbi (rt : BitVec 7) (i16 : BitVec 16) : EncodingFits.Statement (.spuFsmbi rt i16) := by
  have h0 := rt.isLt
  have h1 := i16.isLt
  show 0x32800000 + rt.toNat * 2^0 + i16.toNat * 2^7 < 2^32
  omega

theorem EncodingFits.spuAh (rt : BitVec 7) (ra : BitVec 7) (rb : BitVec 7) : EncodingFits.Statement (.spuAh rt ra rb) := by
  have h0 := rt.isLt
  have h1 := ra.isLt
  have h2 := rb.isLt
  show 0x19000000 + rt.toNat * 2^0 + ra.toNat * 2^7 + rb.toNat * 2^14 < 2^32
  omega

theorem EncodingFits.spuAhi (rt : BitVec 7) (ra : BitVec 7) (i10 : BitVec 10) : EncodingFits.Statement (.spuAhi rt ra i10) := by
  have h0 := rt.isLt
  have h1 := ra.isLt
  have h2 := i10.isLt
  show 0x1D000000 + rt.toNat * 2^0 + ra.toNat * 2^7 + i10.toNat * 2^14 < 2^32
  omega

theorem EncodingFits.spuA (rt : BitVec 7) (ra : BitVec 7) (rb : BitVec 7) : EncodingFits.Statement (.spuA rt ra rb) := by
  have h0 := rt.isLt
  have h1 := ra.isLt
  have h2 := rb.isLt
  show 0x18000000 + rt.toNat * 2^0 + ra.toNat * 2^7 + rb.toNat * 2^14 < 2^32
  omega

theorem EncodingFits.spuAi (rt : BitVec 7) (ra : BitVec 7) (i10 : BitVec 10) : EncodingFits.Statement (.spuAi rt ra i10) := by
  have h0 := rt.isLt
  have h1 := ra.isLt
  have h2 := i10.isLt
  show 0x1C000000 + rt.toNat * 2^0 + ra.toNat * 2^7 + i10.toNat * 2^14 < 2^32
  omega

theorem EncodingFits.spuSfh (rt : BitVec 7) (ra : BitVec 7) (rb : BitVec 7) : EncodingFits.Statement (.spuSfh rt ra rb) := by
  have h0 := rt.isLt
  have h1 := ra.isLt
  have h2 := rb.isLt
  show 0x9000000 + rt.toNat * 2^0 + ra.toNat * 2^7 + rb.toNat * 2^14 < 2^32
  omega

theorem EncodingFits.spuSfhi (rt : BitVec 7) (ra : BitVec 7) (i10 : BitVec 10) : EncodingFits.Statement (.spuSfhi rt ra i10) := by
  have h0 := rt.isLt
  have h1 := ra.isLt
  have h2 := i10.isLt
  show 0xD000000 + rt.toNat * 2^0 + ra.toNat * 2^7 + i10.toNat * 2^14 < 2^32
  omega

theorem EncodingFits.spuSf (rt : BitVec 7) (ra : BitVec 7) (rb : BitVec 7) : EncodingFits.Statement (.spuSf rt ra rb) := by
  have h0 := rt.isLt
  have h1 := ra.isLt
  have h2 := rb.isLt
  show 0x8000000 + rt.toNat * 2^0 + ra.toNat * 2^7 + rb.toNat * 2^14 < 2^32
  omega

theorem EncodingFits.spuSfi (rt : BitVec 7) (ra : BitVec 7) (i10 : BitVec 10) : EncodingFits.Statement (.spuSfi rt ra i10) := by
  have h0 := rt.isLt
  have h1 := ra.isLt
  have h2 := i10.isLt
  show 0xC000000 + rt.toNat * 2^0 + ra.toNat * 2^7 + i10.toNat * 2^14 < 2^32
  omega

theorem EncodingFits.spuAddx (rt : BitVec 7) (ra : BitVec 7) (rb : BitVec 7) : EncodingFits.Statement (.spuAddx rt ra rb) := by
  have h0 := rt.isLt
  have h1 := ra.isLt
  have h2 := rb.isLt
  show 0x68000000 + rt.toNat * 2^0 + ra.toNat * 2^7 + rb.toNat * 2^14 < 2^32
  omega

theorem EncodingFits.spuCg (rt : BitVec 7) (ra : BitVec 7) (rb : BitVec 7) : EncodingFits.Statement (.spuCg rt ra rb) := by
  have h0 := rt.isLt
  have h1 := ra.isLt
  have h2 := rb.isLt
  show 0x18400000 + rt.toNat * 2^0 + ra.toNat * 2^7 + rb.toNat * 2^14 < 2^32
  omega

theorem EncodingFits.spuCgx (rt : BitVec 7) (ra : BitVec 7) (rb : BitVec 7) : EncodingFits.Statement (.spuCgx rt ra rb) := by
  have h0 := rt.isLt
  have h1 := ra.isLt
  have h2 := rb.isLt
  show 0x68400000 + rt.toNat * 2^0 + ra.toNat * 2^7 + rb.toNat * 2^14 < 2^32
  omega

theorem EncodingFits.spuSfx (rt : BitVec 7) (ra : BitVec 7) (rb : BitVec 7) : EncodingFits.Statement (.spuSfx rt ra rb) := by
  have h0 := rt.isLt
  have h1 := ra.isLt
  have h2 := rb.isLt
  show 0x68200000 + rt.toNat * 2^0 + ra.toNat * 2^7 + rb.toNat * 2^14 < 2^32
  omega

theorem EncodingFits.spuBg (rt : BitVec 7) (ra : BitVec 7) (rb : BitVec 7) : EncodingFits.Statement (.spuBg rt ra rb) := by
  have h0 := rt.isLt
  have h1 := ra.isLt
  have h2 := rb.isLt
  show 0x8400000 + rt.toNat * 2^0 + ra.toNat * 2^7 + rb.toNat * 2^14 < 2^32
  omega

theorem EncodingFits.spuBgx (rt : BitVec 7) (ra : BitVec 7) (rb : BitVec 7) : EncodingFits.Statement (.spuBgx rt ra rb) := by
  have h0 := rt.isLt
  have h1 := ra.isLt
  have h2 := rb.isLt
  show 0x68600000 + rt.toNat * 2^0 + ra.toNat * 2^7 + rb.toNat * 2^14 < 2^32
  omega

theorem EncodingFits.spuMpy (rt : BitVec 7) (ra : BitVec 7) (rb : BitVec 7) : EncodingFits.Statement (.spuMpy rt ra rb) := by
  have h0 := rt.isLt
  have h1 := ra.isLt
  have h2 := rb.isLt
  show 0x78800000 + rt.toNat * 2^0 + ra.toNat * 2^7 + rb.toNat * 2^14 < 2^32
  omega

theorem EncodingFits.spuMpyu (rt : BitVec 7) (ra : BitVec 7) (rb : BitVec 7) : EncodingFits.Statement (.spuMpyu rt ra rb) := by
  have h0 := rt.isLt
  have h1 := ra.isLt
  have h2 := rb.isLt
  show 0x79800000 + rt.toNat * 2^0 + ra.toNat * 2^7 + rb.toNat * 2^14 < 2^32
  omega

theorem EncodingFits.spuMpyi (rt : BitVec 7) (ra : BitVec 7) (i10 : BitVec 10) : EncodingFits.Statement (.spuMpyi rt ra i10) := by
  have h0 := rt.isLt
  have h1 := ra.isLt
  have h2 := i10.isLt
  show 0x74000000 + rt.toNat * 2^0 + ra.toNat * 2^7 + i10.toNat * 2^14 < 2^32
  omega

theorem EncodingFits.spuMpyui (rt : BitVec 7) (ra : BitVec 7) (i10 : BitVec 10) :
    EncodingFits.Statement (.spuMpyui rt ra i10) := by
  have h0 := rt.isLt
  have h1 := ra.isLt
  have h2 := i10.isLt
  show 0x75000000 + rt.toNat * 2^0 + ra.toNat * 2^7 + i10.toNat * 2^14 < 2^32
  omega

theorem EncodingFits.spuMpya (rt : BitVec 7) (ra : BitVec 7) (rb : BitVec 7) (rc : BitVec 7) :
    EncodingFits.Statement (.spuMpya rt ra rb rc) := by
  have h0 := rt.isLt
  have h1 := ra.isLt
  have h2 := rb.isLt
  have h3 := rc.isLt
  show 0xC0000000 + rt.toNat * 2^21 + ra.toNat * 2^7 + rb.toNat * 2^14 + rc.toNat * 2^0 < 2^32
  omega

theorem EncodingFits.spuMpyh (rt : BitVec 7) (ra : BitVec 7) (rb : BitVec 7) : EncodingFits.Statement (.spuMpyh rt ra rb) := by
  have h0 := rt.isLt
  have h1 := ra.isLt
  have h2 := rb.isLt
  show 0x78A00000 + rt.toNat * 2^0 + ra.toNat * 2^7 + rb.toNat * 2^14 < 2^32
  omega

theorem EncodingFits.spuMpys (rt : BitVec 7) (ra : BitVec 7) (rb : BitVec 7) : EncodingFits.Statement (.spuMpys rt ra rb) := by
  have h0 := rt.isLt
  have h1 := ra.isLt
  have h2 := rb.isLt
  show 0x78E00000 + rt.toNat * 2^0 + ra.toNat * 2^7 + rb.toNat * 2^14 < 2^32
  omega

theorem EncodingFits.spuMpyhh (rt : BitVec 7) (ra : BitVec 7) (rb : BitVec 7) : EncodingFits.Statement (.spuMpyhh rt ra rb) := by
  have h0 := rt.isLt
  have h1 := ra.isLt
  have h2 := rb.isLt
  show 0x78C00000 + rt.toNat * 2^0 + ra.toNat * 2^7 + rb.toNat * 2^14 < 2^32
  omega

theorem EncodingFits.spuMpyhha (rt : BitVec 7) (ra : BitVec 7) (rb : BitVec 7) :
    EncodingFits.Statement (.spuMpyhha rt ra rb) := by
  have h0 := rt.isLt
  have h1 := ra.isLt
  have h2 := rb.isLt
  show 0x68C00000 + rt.toNat * 2^0 + ra.toNat * 2^7 + rb.toNat * 2^14 < 2^32
  omega

theorem EncodingFits.spuMpyhhu (rt : BitVec 7) (ra : BitVec 7) (rb : BitVec 7) :
    EncodingFits.Statement (.spuMpyhhu rt ra rb) := by
  have h0 := rt.isLt
  have h1 := ra.isLt
  have h2 := rb.isLt
  show 0x79C00000 + rt.toNat * 2^0 + ra.toNat * 2^7 + rb.toNat * 2^14 < 2^32
  omega

theorem EncodingFits.spuMpyhhau (rt : BitVec 7) (ra : BitVec 7) (rb : BitVec 7) :
    EncodingFits.Statement (.spuMpyhhau rt ra rb) := by
  have h0 := rt.isLt
  have h1 := ra.isLt
  have h2 := rb.isLt
  show 0x69C00000 + rt.toNat * 2^0 + ra.toNat * 2^7 + rb.toNat * 2^14 < 2^32
  omega

theorem EncodingFits.spuClz (rt : BitVec 7) (ra : BitVec 7) : EncodingFits.Statement (.spuClz rt ra) := by
  have h0 := rt.isLt
  have h1 := ra.isLt
  show 0x54A00000 + rt.toNat * 2^0 + ra.toNat * 2^7 < 2^32
  omega

theorem EncodingFits.spuCntb (rt : BitVec 7) (ra : BitVec 7) : EncodingFits.Statement (.spuCntb rt ra) := by
  have h0 := rt.isLt
  have h1 := ra.isLt
  show 0x56800000 + rt.toNat * 2^0 + ra.toNat * 2^7 < 2^32
  omega

theorem EncodingFits.spuFsmb (rt : BitVec 7) (ra : BitVec 7) : EncodingFits.Statement (.spuFsmb rt ra) := by
  have h0 := rt.isLt
  have h1 := ra.isLt
  show 0x36C00000 + rt.toNat * 2^0 + ra.toNat * 2^7 < 2^32
  omega

theorem EncodingFits.spuFsmh (rt : BitVec 7) (ra : BitVec 7) : EncodingFits.Statement (.spuFsmh rt ra) := by
  have h0 := rt.isLt
  have h1 := ra.isLt
  show 0x36A00000 + rt.toNat * 2^0 + ra.toNat * 2^7 < 2^32
  omega

theorem EncodingFits.spuFsm (rt : BitVec 7) (ra : BitVec 7) : EncodingFits.Statement (.spuFsm rt ra) := by
  have h0 := rt.isLt
  have h1 := ra.isLt
  show 0x36800000 + rt.toNat * 2^0 + ra.toNat * 2^7 < 2^32
  omega

theorem EncodingFits.spuGbb (rt : BitVec 7) (ra : BitVec 7) : EncodingFits.Statement (.spuGbb rt ra) := by
  have h0 := rt.isLt
  have h1 := ra.isLt
  show 0x36400000 + rt.toNat * 2^0 + ra.toNat * 2^7 < 2^32
  omega

theorem EncodingFits.spuGbh (rt : BitVec 7) (ra : BitVec 7) : EncodingFits.Statement (.spuGbh rt ra) := by
  have h0 := rt.isLt
  have h1 := ra.isLt
  show 0x36200000 + rt.toNat * 2^0 + ra.toNat * 2^7 < 2^32
  omega

theorem EncodingFits.spuGb (rt : BitVec 7) (ra : BitVec 7) : EncodingFits.Statement (.spuGb rt ra) := by
  have h0 := rt.isLt
  have h1 := ra.isLt
  show 0x36000000 + rt.toNat * 2^0 + ra.toNat * 2^7 < 2^32
  omega

theorem EncodingFits.spuAvgb (rt : BitVec 7) (ra : BitVec 7) (rb : BitVec 7) : EncodingFits.Statement (.spuAvgb rt ra rb) := by
  have h0 := rt.isLt
  have h1 := ra.isLt
  have h2 := rb.isLt
  show 0x1A600000 + rt.toNat * 2^0 + ra.toNat * 2^7 + rb.toNat * 2^14 < 2^32
  omega

theorem EncodingFits.spuAbsdb (rt : BitVec 7) (ra : BitVec 7) (rb : BitVec 7) : EncodingFits.Statement (.spuAbsdb rt ra rb) := by
  have h0 := rt.isLt
  have h1 := ra.isLt
  have h2 := rb.isLt
  show 0xA600000 + rt.toNat * 2^0 + ra.toNat * 2^7 + rb.toNat * 2^14 < 2^32
  omega

theorem EncodingFits.spuSumb (rt : BitVec 7) (ra : BitVec 7) (rb : BitVec 7) : EncodingFits.Statement (.spuSumb rt ra rb) := by
  have h0 := rt.isLt
  have h1 := ra.isLt
  have h2 := rb.isLt
  show 0x4A600000 + rt.toNat * 2^0 + ra.toNat * 2^7 + rb.toNat * 2^14 < 2^32
  omega

theorem EncodingFits.spuXsbh (rt : BitVec 7) (ra : BitVec 7) : EncodingFits.Statement (.spuXsbh rt ra) := by
  have h0 := rt.isLt
  have h1 := ra.isLt
  show 0x56C00000 + rt.toNat * 2^0 + ra.toNat * 2^7 < 2^32
  omega

theorem EncodingFits.spuXshw (rt : BitVec 7) (ra : BitVec 7) : EncodingFits.Statement (.spuXshw rt ra) := by
  have h0 := rt.isLt
  have h1 := ra.isLt
  show 0x55C00000 + rt.toNat * 2^0 + ra.toNat * 2^7 < 2^32
  omega

theorem EncodingFits.spuXswd (rt : BitVec 7) (ra : BitVec 7) : EncodingFits.Statement (.spuXswd rt ra) := by
  have h0 := rt.isLt
  have h1 := ra.isLt
  show 0x54C00000 + rt.toNat * 2^0 + ra.toNat * 2^7 < 2^32
  omega

theorem EncodingFits.spuAnd (rt : BitVec 7) (ra : BitVec 7) (rb : BitVec 7) : EncodingFits.Statement (.spuAnd rt ra rb) := by
  have h0 := rt.isLt
  have h1 := ra.isLt
  have h2 := rb.isLt
  show 0x18200000 + rt.toNat * 2^0 + ra.toNat * 2^7 + rb.toNat * 2^14 < 2^32
  omega

theorem EncodingFits.spuAndc (rt : BitVec 7) (ra : BitVec 7) (rb : BitVec 7) : EncodingFits.Statement (.spuAndc rt ra rb) := by
  have h0 := rt.isLt
  have h1 := ra.isLt
  have h2 := rb.isLt
  show 0x58200000 + rt.toNat * 2^0 + ra.toNat * 2^7 + rb.toNat * 2^14 < 2^32
  omega

theorem EncodingFits.spuAndbi (rt : BitVec 7) (ra : BitVec 7) (i10 : BitVec 10) :
    EncodingFits.Statement (.spuAndbi rt ra i10) := by
  have h0 := rt.isLt
  have h1 := ra.isLt
  have h2 := i10.isLt
  show 0x16000000 + rt.toNat * 2^0 + ra.toNat * 2^7 + i10.toNat * 2^14 < 2^32
  omega

theorem EncodingFits.spuAndhi (rt : BitVec 7) (ra : BitVec 7) (i10 : BitVec 10) :
    EncodingFits.Statement (.spuAndhi rt ra i10) := by
  have h0 := rt.isLt
  have h1 := ra.isLt
  have h2 := i10.isLt
  show 0x15000000 + rt.toNat * 2^0 + ra.toNat * 2^7 + i10.toNat * 2^14 < 2^32
  omega

theorem EncodingFits.spuAndi (rt : BitVec 7) (ra : BitVec 7) (i10 : BitVec 10) : EncodingFits.Statement (.spuAndi rt ra i10) := by
  have h0 := rt.isLt
  have h1 := ra.isLt
  have h2 := i10.isLt
  show 0x14000000 + rt.toNat * 2^0 + ra.toNat * 2^7 + i10.toNat * 2^14 < 2^32
  omega

theorem EncodingFits.spuOr (rt : BitVec 7) (ra : BitVec 7) (rb : BitVec 7) : EncodingFits.Statement (.spuOr rt ra rb) := by
  have h0 := rt.isLt
  have h1 := ra.isLt
  have h2 := rb.isLt
  show 0x8200000 + rt.toNat * 2^0 + ra.toNat * 2^7 + rb.toNat * 2^14 < 2^32
  omega

theorem EncodingFits.spuOrc (rt : BitVec 7) (ra : BitVec 7) (rb : BitVec 7) : EncodingFits.Statement (.spuOrc rt ra rb) := by
  have h0 := rt.isLt
  have h1 := ra.isLt
  have h2 := rb.isLt
  show 0x59200000 + rt.toNat * 2^0 + ra.toNat * 2^7 + rb.toNat * 2^14 < 2^32
  omega

theorem EncodingFits.spuOrbi (rt : BitVec 7) (ra : BitVec 7) (i10 : BitVec 10) : EncodingFits.Statement (.spuOrbi rt ra i10) := by
  have h0 := rt.isLt
  have h1 := ra.isLt
  have h2 := i10.isLt
  show 0x6000000 + rt.toNat * 2^0 + ra.toNat * 2^7 + i10.toNat * 2^14 < 2^32
  omega

theorem EncodingFits.spuOrhi (rt : BitVec 7) (ra : BitVec 7) (i10 : BitVec 10) : EncodingFits.Statement (.spuOrhi rt ra i10) := by
  have h0 := rt.isLt
  have h1 := ra.isLt
  have h2 := i10.isLt
  show 0x5000000 + rt.toNat * 2^0 + ra.toNat * 2^7 + i10.toNat * 2^14 < 2^32
  omega

theorem EncodingFits.spuOri (rt : BitVec 7) (ra : BitVec 7) (i10 : BitVec 10) : EncodingFits.Statement (.spuOri rt ra i10) := by
  have h0 := rt.isLt
  have h1 := ra.isLt
  have h2 := i10.isLt
  show 0x4000000 + rt.toNat * 2^0 + ra.toNat * 2^7 + i10.toNat * 2^14 < 2^32
  omega

theorem EncodingFits.spuOrx (rt : BitVec 7) (ra : BitVec 7) : EncodingFits.Statement (.spuOrx rt ra) := by
  have h0 := rt.isLt
  have h1 := ra.isLt
  show 0x3E000000 + rt.toNat * 2^0 + ra.toNat * 2^7 < 2^32
  omega

theorem EncodingFits.spuXor (rt : BitVec 7) (ra : BitVec 7) (rb : BitVec 7) : EncodingFits.Statement (.spuXor rt ra rb) := by
  have h0 := rt.isLt
  have h1 := ra.isLt
  have h2 := rb.isLt
  show 0x48200000 + rt.toNat * 2^0 + ra.toNat * 2^7 + rb.toNat * 2^14 < 2^32
  omega

theorem EncodingFits.spuXorbi (rt : BitVec 7) (ra : BitVec 7) (i10 : BitVec 10) :
    EncodingFits.Statement (.spuXorbi rt ra i10) := by
  have h0 := rt.isLt
  have h1 := ra.isLt
  have h2 := i10.isLt
  show 0x46000000 + rt.toNat * 2^0 + ra.toNat * 2^7 + i10.toNat * 2^14 < 2^32
  omega

theorem EncodingFits.spuXorhi (rt : BitVec 7) (ra : BitVec 7) (i10 : BitVec 10) :
    EncodingFits.Statement (.spuXorhi rt ra i10) := by
  have h0 := rt.isLt
  have h1 := ra.isLt
  have h2 := i10.isLt
  show 0x45000000 + rt.toNat * 2^0 + ra.toNat * 2^7 + i10.toNat * 2^14 < 2^32
  omega

theorem EncodingFits.spuXori (rt : BitVec 7) (ra : BitVec 7) (i10 : BitVec 10) : EncodingFits.Statement (.spuXori rt ra i10) := by
  have h0 := rt.isLt
  have h1 := ra.isLt
  have h2 := i10.isLt
  show 0x44000000 + rt.toNat * 2^0 + ra.toNat * 2^7 + i10.toNat * 2^14 < 2^32
  omega

theorem EncodingFits.spuNand (rt : BitVec 7) (ra : BitVec 7) (rb : BitVec 7) : EncodingFits.Statement (.spuNand rt ra rb) := by
  have h0 := rt.isLt
  have h1 := ra.isLt
  have h2 := rb.isLt
  show 0x19200000 + rt.toNat * 2^0 + ra.toNat * 2^7 + rb.toNat * 2^14 < 2^32
  omega

theorem EncodingFits.spuNor (rt : BitVec 7) (ra : BitVec 7) (rb : BitVec 7) : EncodingFits.Statement (.spuNor rt ra rb) := by
  have h0 := rt.isLt
  have h1 := ra.isLt
  have h2 := rb.isLt
  show 0x9200000 + rt.toNat * 2^0 + ra.toNat * 2^7 + rb.toNat * 2^14 < 2^32
  omega

theorem EncodingFits.spuEqv (rt : BitVec 7) (ra : BitVec 7) (rb : BitVec 7) : EncodingFits.Statement (.spuEqv rt ra rb) := by
  have h0 := rt.isLt
  have h1 := ra.isLt
  have h2 := rb.isLt
  show 0x49200000 + rt.toNat * 2^0 + ra.toNat * 2^7 + rb.toNat * 2^14 < 2^32
  omega

theorem EncodingFits.spuSelb (rt : BitVec 7) (ra : BitVec 7) (rb : BitVec 7) (rc : BitVec 7) :
    EncodingFits.Statement (.spuSelb rt ra rb rc) := by
  have h0 := rt.isLt
  have h1 := ra.isLt
  have h2 := rb.isLt
  have h3 := rc.isLt
  show 0x80000000 + rt.toNat * 2^21 + ra.toNat * 2^7 + rb.toNat * 2^14 + rc.toNat * 2^0 < 2^32
  omega

theorem EncodingFits.spuShufb (rt : BitVec 7) (ra : BitVec 7) (rb : BitVec 7) (rc : BitVec 7) :
    EncodingFits.Statement (.spuShufb rt ra rb rc) := by
  have h0 := rt.isLt
  have h1 := ra.isLt
  have h2 := rb.isLt
  have h3 := rc.isLt
  show 0xB0000000 + rt.toNat * 2^21 + ra.toNat * 2^7 + rb.toNat * 2^14 + rc.toNat * 2^0 < 2^32
  omega

theorem EncodingFits.spuShlh (rt : BitVec 7) (ra : BitVec 7) (rb : BitVec 7) : EncodingFits.Statement (.spuShlh rt ra rb) := by
  have h0 := rt.isLt
  have h1 := ra.isLt
  have h2 := rb.isLt
  show 0xBE00000 + rt.toNat * 2^0 + ra.toNat * 2^7 + rb.toNat * 2^14 < 2^32
  omega

theorem EncodingFits.spuShlhi (rt : BitVec 7) (ra : BitVec 7) (i7 : BitVec 7) : EncodingFits.Statement (.spuShlhi rt ra i7) := by
  have h0 := rt.isLt
  have h1 := ra.isLt
  have h2 := i7.isLt
  show 0xFE00000 + rt.toNat * 2^0 + ra.toNat * 2^7 + i7.toNat * 2^14 < 2^32
  omega

theorem EncodingFits.spuShl (rt : BitVec 7) (ra : BitVec 7) (rb : BitVec 7) : EncodingFits.Statement (.spuShl rt ra rb) := by
  have h0 := rt.isLt
  have h1 := ra.isLt
  have h2 := rb.isLt
  show 0xB600000 + rt.toNat * 2^0 + ra.toNat * 2^7 + rb.toNat * 2^14 < 2^32
  omega

theorem EncodingFits.spuShli (rt : BitVec 7) (ra : BitVec 7) (i7 : BitVec 7) : EncodingFits.Statement (.spuShli rt ra i7) := by
  have h0 := rt.isLt
  have h1 := ra.isLt
  have h2 := i7.isLt
  show 0xF600000 + rt.toNat * 2^0 + ra.toNat * 2^7 + i7.toNat * 2^14 < 2^32
  omega

theorem EncodingFits.spuShlqbi (rt : BitVec 7) (ra : BitVec 7) (rb : BitVec 7) :
    EncodingFits.Statement (.spuShlqbi rt ra rb) := by
  have h0 := rt.isLt
  have h1 := ra.isLt
  have h2 := rb.isLt
  show 0x3B600000 + rt.toNat * 2^0 + ra.toNat * 2^7 + rb.toNat * 2^14 < 2^32
  omega

theorem EncodingFits.spuShlqbii (rt : BitVec 7) (ra : BitVec 7) (i7 : BitVec 7) :
    EncodingFits.Statement (.spuShlqbii rt ra i7) := by
  have h0 := rt.isLt
  have h1 := ra.isLt
  have h2 := i7.isLt
  show 0x3F600000 + rt.toNat * 2^0 + ra.toNat * 2^7 + i7.toNat * 2^14 < 2^32
  omega

theorem EncodingFits.spuShlqby (rt : BitVec 7) (ra : BitVec 7) (rb : BitVec 7) :
    EncodingFits.Statement (.spuShlqby rt ra rb) := by
  have h0 := rt.isLt
  have h1 := ra.isLt
  have h2 := rb.isLt
  show 0x3BE00000 + rt.toNat * 2^0 + ra.toNat * 2^7 + rb.toNat * 2^14 < 2^32
  omega

theorem EncodingFits.spuShlqbyi (rt : BitVec 7) (ra : BitVec 7) (i7 : BitVec 7) :
    EncodingFits.Statement (.spuShlqbyi rt ra i7) := by
  have h0 := rt.isLt
  have h1 := ra.isLt
  have h2 := i7.isLt
  show 0x3FE00000 + rt.toNat * 2^0 + ra.toNat * 2^7 + i7.toNat * 2^14 < 2^32
  omega

theorem EncodingFits.spuShlqbybi (rt : BitVec 7) (ra : BitVec 7) (rb : BitVec 7) :
    EncodingFits.Statement (.spuShlqbybi rt ra rb) := by
  have h0 := rt.isLt
  have h1 := ra.isLt
  have h2 := rb.isLt
  show 0x39E00000 + rt.toNat * 2^0 + ra.toNat * 2^7 + rb.toNat * 2^14 < 2^32
  omega

theorem EncodingFits.spuRoth (rt : BitVec 7) (ra : BitVec 7) (rb : BitVec 7) : EncodingFits.Statement (.spuRoth rt ra rb) := by
  have h0 := rt.isLt
  have h1 := ra.isLt
  have h2 := rb.isLt
  show 0xB800000 + rt.toNat * 2^0 + ra.toNat * 2^7 + rb.toNat * 2^14 < 2^32
  omega

theorem EncodingFits.spuRothi (rt : BitVec 7) (ra : BitVec 7) (i7 : BitVec 7) : EncodingFits.Statement (.spuRothi rt ra i7) := by
  have h0 := rt.isLt
  have h1 := ra.isLt
  have h2 := i7.isLt
  show 0xF800000 + rt.toNat * 2^0 + ra.toNat * 2^7 + i7.toNat * 2^14 < 2^32
  omega

theorem EncodingFits.spuRot (rt : BitVec 7) (ra : BitVec 7) (rb : BitVec 7) : EncodingFits.Statement (.spuRot rt ra rb) := by
  have h0 := rt.isLt
  have h1 := ra.isLt
  have h2 := rb.isLt
  show 0xB000000 + rt.toNat * 2^0 + ra.toNat * 2^7 + rb.toNat * 2^14 < 2^32
  omega

theorem EncodingFits.spuRoti (rt : BitVec 7) (ra : BitVec 7) (i7 : BitVec 7) : EncodingFits.Statement (.spuRoti rt ra i7) := by
  have h0 := rt.isLt
  have h1 := ra.isLt
  have h2 := i7.isLt
  show 0xF000000 + rt.toNat * 2^0 + ra.toNat * 2^7 + i7.toNat * 2^14 < 2^32
  omega

theorem EncodingFits.spuRotqby (rt : BitVec 7) (ra : BitVec 7) (rb : BitVec 7) :
    EncodingFits.Statement (.spuRotqby rt ra rb) := by
  have h0 := rt.isLt
  have h1 := ra.isLt
  have h2 := rb.isLt
  show 0x3B800000 + rt.toNat * 2^0 + ra.toNat * 2^7 + rb.toNat * 2^14 < 2^32
  omega

theorem EncodingFits.spuRotqbyi (rt : BitVec 7) (ra : BitVec 7) (i7 : BitVec 7) :
    EncodingFits.Statement (.spuRotqbyi rt ra i7) := by
  have h0 := rt.isLt
  have h1 := ra.isLt
  have h2 := i7.isLt
  show 0x3F800000 + rt.toNat * 2^0 + ra.toNat * 2^7 + i7.toNat * 2^14 < 2^32
  omega

theorem EncodingFits.spuRotqbybi (rt : BitVec 7) (ra : BitVec 7) (rb : BitVec 7) :
    EncodingFits.Statement (.spuRotqbybi rt ra rb) := by
  have h0 := rt.isLt
  have h1 := ra.isLt
  have h2 := rb.isLt
  show 0x39800000 + rt.toNat * 2^0 + ra.toNat * 2^7 + rb.toNat * 2^14 < 2^32
  omega

theorem EncodingFits.spuRotqbi (rt : BitVec 7) (ra : BitVec 7) (rb : BitVec 7) :
    EncodingFits.Statement (.spuRotqbi rt ra rb) := by
  have h0 := rt.isLt
  have h1 := ra.isLt
  have h2 := rb.isLt
  show 0x3B000000 + rt.toNat * 2^0 + ra.toNat * 2^7 + rb.toNat * 2^14 < 2^32
  omega

theorem EncodingFits.spuRotqbii (rt : BitVec 7) (ra : BitVec 7) (i7 : BitVec 7) :
    EncodingFits.Statement (.spuRotqbii rt ra i7) := by
  have h0 := rt.isLt
  have h1 := ra.isLt
  have h2 := i7.isLt
  show 0x3F000000 + rt.toNat * 2^0 + ra.toNat * 2^7 + i7.toNat * 2^14 < 2^32
  omega

theorem EncodingFits.spuRothm (rt : BitVec 7) (ra : BitVec 7) (rb : BitVec 7) : EncodingFits.Statement (.spuRothm rt ra rb) := by
  have h0 := rt.isLt
  have h1 := ra.isLt
  have h2 := rb.isLt
  show 0xBA00000 + rt.toNat * 2^0 + ra.toNat * 2^7 + rb.toNat * 2^14 < 2^32
  omega

theorem EncodingFits.spuRothmi (rt : BitVec 7) (ra : BitVec 7) (i7 : BitVec 7) :
    EncodingFits.Statement (.spuRothmi rt ra i7) := by
  have h0 := rt.isLt
  have h1 := ra.isLt
  have h2 := i7.isLt
  show 0xFA00000 + rt.toNat * 2^0 + ra.toNat * 2^7 + i7.toNat * 2^14 < 2^32
  omega

theorem EncodingFits.spuRotm (rt : BitVec 7) (ra : BitVec 7) (rb : BitVec 7) : EncodingFits.Statement (.spuRotm rt ra rb) := by
  have h0 := rt.isLt
  have h1 := ra.isLt
  have h2 := rb.isLt
  show 0xB200000 + rt.toNat * 2^0 + ra.toNat * 2^7 + rb.toNat * 2^14 < 2^32
  omega

theorem EncodingFits.spuRotmi (rt : BitVec 7) (ra : BitVec 7) (i7 : BitVec 7) : EncodingFits.Statement (.spuRotmi rt ra i7) := by
  have h0 := rt.isLt
  have h1 := ra.isLt
  have h2 := i7.isLt
  show 0xF200000 + rt.toNat * 2^0 + ra.toNat * 2^7 + i7.toNat * 2^14 < 2^32
  omega

theorem EncodingFits.spuRotqmby (rt : BitVec 7) (ra : BitVec 7) (rb : BitVec 7) :
    EncodingFits.Statement (.spuRotqmby rt ra rb) := by
  have h0 := rt.isLt
  have h1 := ra.isLt
  have h2 := rb.isLt
  show 0x3BA00000 + rt.toNat * 2^0 + ra.toNat * 2^7 + rb.toNat * 2^14 < 2^32
  omega

theorem EncodingFits.spuRotqmbyi (rt : BitVec 7) (ra : BitVec 7) (i7 : BitVec 7) :
    EncodingFits.Statement (.spuRotqmbyi rt ra i7) := by
  have h0 := rt.isLt
  have h1 := ra.isLt
  have h2 := i7.isLt
  show 0x3FA00000 + rt.toNat * 2^0 + ra.toNat * 2^7 + i7.toNat * 2^14 < 2^32
  omega

theorem EncodingFits.spuRotqmbybi (rt : BitVec 7) (ra : BitVec 7) (rb : BitVec 7) :
    EncodingFits.Statement (.spuRotqmbybi rt ra rb) := by
  have h0 := rt.isLt
  have h1 := ra.isLt
  have h2 := rb.isLt
  show 0x39A00000 + rt.toNat * 2^0 + ra.toNat * 2^7 + rb.toNat * 2^14 < 2^32
  omega

theorem EncodingFits.spuRotqmbi (rt : BitVec 7) (ra : BitVec 7) (rb : BitVec 7) :
    EncodingFits.Statement (.spuRotqmbi rt ra rb) := by
  have h0 := rt.isLt
  have h1 := ra.isLt
  have h2 := rb.isLt
  show 0x3B200000 + rt.toNat * 2^0 + ra.toNat * 2^7 + rb.toNat * 2^14 < 2^32
  omega

theorem EncodingFits.spuRotqmbii (rt : BitVec 7) (ra : BitVec 7) (i7 : BitVec 7) :
    EncodingFits.Statement (.spuRotqmbii rt ra i7) := by
  have h0 := rt.isLt
  have h1 := ra.isLt
  have h2 := i7.isLt
  show 0x3F200000 + rt.toNat * 2^0 + ra.toNat * 2^7 + i7.toNat * 2^14 < 2^32
  omega

theorem EncodingFits.spuRotmah (rt : BitVec 7) (ra : BitVec 7) (rb : BitVec 7) :
    EncodingFits.Statement (.spuRotmah rt ra rb) := by
  have h0 := rt.isLt
  have h1 := ra.isLt
  have h2 := rb.isLt
  show 0xBC00000 + rt.toNat * 2^0 + ra.toNat * 2^7 + rb.toNat * 2^14 < 2^32
  omega

theorem EncodingFits.spuRotmahi (rt : BitVec 7) (ra : BitVec 7) (i7 : BitVec 7) :
    EncodingFits.Statement (.spuRotmahi rt ra i7) := by
  have h0 := rt.isLt
  have h1 := ra.isLt
  have h2 := i7.isLt
  show 0xFC00000 + rt.toNat * 2^0 + ra.toNat * 2^7 + i7.toNat * 2^14 < 2^32
  omega

theorem EncodingFits.spuRotma (rt : BitVec 7) (ra : BitVec 7) (rb : BitVec 7) : EncodingFits.Statement (.spuRotma rt ra rb) := by
  have h0 := rt.isLt
  have h1 := ra.isLt
  have h2 := rb.isLt
  show 0xB400000 + rt.toNat * 2^0 + ra.toNat * 2^7 + rb.toNat * 2^14 < 2^32
  omega

theorem EncodingFits.spuRotmai (rt : BitVec 7) (ra : BitVec 7) (i7 : BitVec 7) :
    EncodingFits.Statement (.spuRotmai rt ra i7) := by
  have h0 := rt.isLt
  have h1 := ra.isLt
  have h2 := i7.isLt
  show 0xF400000 + rt.toNat * 2^0 + ra.toNat * 2^7 + i7.toNat * 2^14 < 2^32
  omega

theorem EncodingFits.spuHeq (ra : BitVec 7) (rb : BitVec 7) : EncodingFits.Statement (.spuHeq ra rb) := by
  have h0 := ra.isLt
  have h1 := rb.isLt
  show 0x7B000000 + ra.toNat * 2^7 + rb.toNat * 2^14 < 2^32
  omega

theorem EncodingFits.spuHeqi (ra : BitVec 7) (i10 : BitVec 10) : EncodingFits.Statement (.spuHeqi ra i10) := by
  have h0 := ra.isLt
  have h1 := i10.isLt
  show 0x7F000000 + ra.toNat * 2^7 + i10.toNat * 2^14 < 2^32
  omega

theorem EncodingFits.spuHgt (ra : BitVec 7) (rb : BitVec 7) : EncodingFits.Statement (.spuHgt ra rb) := by
  have h0 := ra.isLt
  have h1 := rb.isLt
  show 0x4B000000 + ra.toNat * 2^7 + rb.toNat * 2^14 < 2^32
  omega

theorem EncodingFits.spuHgti (ra : BitVec 7) (i10 : BitVec 10) : EncodingFits.Statement (.spuHgti ra i10) := by
  have h0 := ra.isLt
  have h1 := i10.isLt
  show 0x4F000000 + ra.toNat * 2^7 + i10.toNat * 2^14 < 2^32
  omega

theorem EncodingFits.spuHlgt (ra : BitVec 7) (rb : BitVec 7) : EncodingFits.Statement (.spuHlgt ra rb) := by
  have h0 := ra.isLt
  have h1 := rb.isLt
  show 0x5B000000 + ra.toNat * 2^7 + rb.toNat * 2^14 < 2^32
  omega

theorem EncodingFits.spuHlgti (ra : BitVec 7) (i10 : BitVec 10) : EncodingFits.Statement (.spuHlgti ra i10) := by
  have h0 := ra.isLt
  have h1 := i10.isLt
  show 0x5F000000 + ra.toNat * 2^7 + i10.toNat * 2^14 < 2^32
  omega

theorem EncodingFits.spuCeqb (rt : BitVec 7) (ra : BitVec 7) (rb : BitVec 7) : EncodingFits.Statement (.spuCeqb rt ra rb) := by
  have h0 := rt.isLt
  have h1 := ra.isLt
  have h2 := rb.isLt
  show 0x7A000000 + rt.toNat * 2^0 + ra.toNat * 2^7 + rb.toNat * 2^14 < 2^32
  omega

theorem EncodingFits.spuCeqbi (rt : BitVec 7) (ra : BitVec 7) (i10 : BitVec 10) :
    EncodingFits.Statement (.spuCeqbi rt ra i10) := by
  have h0 := rt.isLt
  have h1 := ra.isLt
  have h2 := i10.isLt
  show 0x7E000000 + rt.toNat * 2^0 + ra.toNat * 2^7 + i10.toNat * 2^14 < 2^32
  omega

theorem EncodingFits.spuCeqh (rt : BitVec 7) (ra : BitVec 7) (rb : BitVec 7) : EncodingFits.Statement (.spuCeqh rt ra rb) := by
  have h0 := rt.isLt
  have h1 := ra.isLt
  have h2 := rb.isLt
  show 0x79000000 + rt.toNat * 2^0 + ra.toNat * 2^7 + rb.toNat * 2^14 < 2^32
  omega

theorem EncodingFits.spuCeqhi (rt : BitVec 7) (ra : BitVec 7) (i10 : BitVec 10) :
    EncodingFits.Statement (.spuCeqhi rt ra i10) := by
  have h0 := rt.isLt
  have h1 := ra.isLt
  have h2 := i10.isLt
  show 0x7D000000 + rt.toNat * 2^0 + ra.toNat * 2^7 + i10.toNat * 2^14 < 2^32
  omega

theorem EncodingFits.spuCeq (rt : BitVec 7) (ra : BitVec 7) (rb : BitVec 7) : EncodingFits.Statement (.spuCeq rt ra rb) := by
  have h0 := rt.isLt
  have h1 := ra.isLt
  have h2 := rb.isLt
  show 0x78000000 + rt.toNat * 2^0 + ra.toNat * 2^7 + rb.toNat * 2^14 < 2^32
  omega

theorem EncodingFits.spuCeqi (rt : BitVec 7) (ra : BitVec 7) (i10 : BitVec 10) : EncodingFits.Statement (.spuCeqi rt ra i10) := by
  have h0 := rt.isLt
  have h1 := ra.isLt
  have h2 := i10.isLt
  show 0x7C000000 + rt.toNat * 2^0 + ra.toNat * 2^7 + i10.toNat * 2^14 < 2^32
  omega

theorem EncodingFits.spuCgtb (rt : BitVec 7) (ra : BitVec 7) (rb : BitVec 7) : EncodingFits.Statement (.spuCgtb rt ra rb) := by
  have h0 := rt.isLt
  have h1 := ra.isLt
  have h2 := rb.isLt
  show 0x4A000000 + rt.toNat * 2^0 + ra.toNat * 2^7 + rb.toNat * 2^14 < 2^32
  omega

theorem EncodingFits.spuCgtbi (rt : BitVec 7) (ra : BitVec 7) (i10 : BitVec 10) :
    EncodingFits.Statement (.spuCgtbi rt ra i10) := by
  have h0 := rt.isLt
  have h1 := ra.isLt
  have h2 := i10.isLt
  show 0x4E000000 + rt.toNat * 2^0 + ra.toNat * 2^7 + i10.toNat * 2^14 < 2^32
  omega

theorem EncodingFits.spuCgth (rt : BitVec 7) (ra : BitVec 7) (rb : BitVec 7) : EncodingFits.Statement (.spuCgth rt ra rb) := by
  have h0 := rt.isLt
  have h1 := ra.isLt
  have h2 := rb.isLt
  show 0x49000000 + rt.toNat * 2^0 + ra.toNat * 2^7 + rb.toNat * 2^14 < 2^32
  omega

theorem EncodingFits.spuCgthi (rt : BitVec 7) (ra : BitVec 7) (i10 : BitVec 10) :
    EncodingFits.Statement (.spuCgthi rt ra i10) := by
  have h0 := rt.isLt
  have h1 := ra.isLt
  have h2 := i10.isLt
  show 0x4D000000 + rt.toNat * 2^0 + ra.toNat * 2^7 + i10.toNat * 2^14 < 2^32
  omega

theorem EncodingFits.spuCgt (rt : BitVec 7) (ra : BitVec 7) (rb : BitVec 7) : EncodingFits.Statement (.spuCgt rt ra rb) := by
  have h0 := rt.isLt
  have h1 := ra.isLt
  have h2 := rb.isLt
  show 0x48000000 + rt.toNat * 2^0 + ra.toNat * 2^7 + rb.toNat * 2^14 < 2^32
  omega

theorem EncodingFits.spuCgti (rt : BitVec 7) (ra : BitVec 7) (i10 : BitVec 10) : EncodingFits.Statement (.spuCgti rt ra i10) := by
  have h0 := rt.isLt
  have h1 := ra.isLt
  have h2 := i10.isLt
  show 0x4C000000 + rt.toNat * 2^0 + ra.toNat * 2^7 + i10.toNat * 2^14 < 2^32
  omega

theorem EncodingFits.spuClgtb (rt : BitVec 7) (ra : BitVec 7) (rb : BitVec 7) : EncodingFits.Statement (.spuClgtb rt ra rb) := by
  have h0 := rt.isLt
  have h1 := ra.isLt
  have h2 := rb.isLt
  show 0x5A000000 + rt.toNat * 2^0 + ra.toNat * 2^7 + rb.toNat * 2^14 < 2^32
  omega

theorem EncodingFits.spuClgtbi (rt : BitVec 7) (ra : BitVec 7) (i10 : BitVec 10) :
    EncodingFits.Statement (.spuClgtbi rt ra i10) := by
  have h0 := rt.isLt
  have h1 := ra.isLt
  have h2 := i10.isLt
  show 0x5E000000 + rt.toNat * 2^0 + ra.toNat * 2^7 + i10.toNat * 2^14 < 2^32
  omega

theorem EncodingFits.spuClgth (rt : BitVec 7) (ra : BitVec 7) (rb : BitVec 7) : EncodingFits.Statement (.spuClgth rt ra rb) := by
  have h0 := rt.isLt
  have h1 := ra.isLt
  have h2 := rb.isLt
  show 0x59000000 + rt.toNat * 2^0 + ra.toNat * 2^7 + rb.toNat * 2^14 < 2^32
  omega

theorem EncodingFits.spuClgthi (rt : BitVec 7) (ra : BitVec 7) (i10 : BitVec 10) :
    EncodingFits.Statement (.spuClgthi rt ra i10) := by
  have h0 := rt.isLt
  have h1 := ra.isLt
  have h2 := i10.isLt
  show 0x5D000000 + rt.toNat * 2^0 + ra.toNat * 2^7 + i10.toNat * 2^14 < 2^32
  omega

theorem EncodingFits.spuClgt (rt : BitVec 7) (ra : BitVec 7) (rb : BitVec 7) : EncodingFits.Statement (.spuClgt rt ra rb) := by
  have h0 := rt.isLt
  have h1 := ra.isLt
  have h2 := rb.isLt
  show 0x58000000 + rt.toNat * 2^0 + ra.toNat * 2^7 + rb.toNat * 2^14 < 2^32
  omega

theorem EncodingFits.spuClgti (rt : BitVec 7) (ra : BitVec 7) (i10 : BitVec 10) :
    EncodingFits.Statement (.spuClgti rt ra i10) := by
  have h0 := rt.isLt
  have h1 := ra.isLt
  have h2 := i10.isLt
  show 0x5C000000 + rt.toNat * 2^0 + ra.toNat * 2^7 + i10.toNat * 2^14 < 2^32
  omega

theorem EncodingFits.spuBr (i16 : BitVec 16) : EncodingFits.Statement (.spuBr i16) := by
  have h := i16.isLt
  show 0x32000000 + i16.toNat * 2^7 < 2^32
  omega

theorem EncodingFits.spuBra (i16 : BitVec 16) : EncodingFits.Statement (.spuBra i16) := by
  have h := i16.isLt
  show 0x30000000 + i16.toNat * 2^7 < 2^32
  omega

theorem EncodingFits.spuBrsl (rt : BitVec 7) (i16 : BitVec 16) : EncodingFits.Statement (.spuBrsl rt i16) := by
  have h0 := rt.isLt
  have h1 := i16.isLt
  show 0x33000000 + rt.toNat * 2^0 + i16.toNat * 2^7 < 2^32
  omega

theorem EncodingFits.spuBrasl (rt : BitVec 7) (i16 : BitVec 16) : EncodingFits.Statement (.spuBrasl rt i16) := by
  have h0 := rt.isLt
  have h1 := i16.isLt
  show 0x31000000 + rt.toNat * 2^0 + i16.toNat * 2^7 < 2^32
  omega

theorem EncodingFits.spuBi (ra : BitVec 7) (d : Bool) (e : Bool) : EncodingFits.Statement (.spuBi ra d e) := by
  have h0 := ra.isLt
  have h1 := d.toNat_lt
  have h2 := e.toNat_lt
  show 0x35000000 + ra.toNat * 2^7 + d.toNat * 2^19 + e.toNat * 2^18 < 2^32
  omega

theorem EncodingFits.spuIret (ra : BitVec 7) (d : Bool) (e : Bool) : EncodingFits.Statement (.spuIret ra d e) := by
  have h0 := ra.isLt
  have h1 := d.toNat_lt
  have h2 := e.toNat_lt
  show 0x35400000 + ra.toNat * 2^7 + d.toNat * 2^19 + e.toNat * 2^18 < 2^32
  omega

theorem EncodingFits.spuBisled (rt : BitVec 7) (ra : BitVec 7) (d : Bool) (e : Bool) :
    EncodingFits.Statement (.spuBisled rt ra d e) := by
  have h0 := rt.isLt
  have h1 := ra.isLt
  have h2 := d.toNat_lt
  have h3 := e.toNat_lt
  show 0x35600000 + rt.toNat * 2^0 + ra.toNat * 2^7 + d.toNat * 2^19 + e.toNat * 2^18 < 2^32
  omega

theorem EncodingFits.spuBisl (rt : BitVec 7) (ra : BitVec 7) (d : Bool) (e : Bool) :
    EncodingFits.Statement (.spuBisl rt ra d e) := by
  have h0 := rt.isLt
  have h1 := ra.isLt
  have h2 := d.toNat_lt
  have h3 := e.toNat_lt
  show 0x35200000 + rt.toNat * 2^0 + ra.toNat * 2^7 + d.toNat * 2^19 + e.toNat * 2^18 < 2^32
  omega

theorem EncodingFits.spuBrnz (rt : BitVec 7) (i16 : BitVec 16) : EncodingFits.Statement (.spuBrnz rt i16) := by
  have h0 := rt.isLt
  have h1 := i16.isLt
  show 0x21000000 + rt.toNat * 2^0 + i16.toNat * 2^7 < 2^32
  omega

theorem EncodingFits.spuBrz (rt : BitVec 7) (i16 : BitVec 16) : EncodingFits.Statement (.spuBrz rt i16) := by
  have h0 := rt.isLt
  have h1 := i16.isLt
  show 0x20000000 + rt.toNat * 2^0 + i16.toNat * 2^7 < 2^32
  omega

theorem EncodingFits.spuBrhnz (rt : BitVec 7) (i16 : BitVec 16) : EncodingFits.Statement (.spuBrhnz rt i16) := by
  have h0 := rt.isLt
  have h1 := i16.isLt
  show 0x23000000 + rt.toNat * 2^0 + i16.toNat * 2^7 < 2^32
  omega

theorem EncodingFits.spuBrhz (rt : BitVec 7) (i16 : BitVec 16) : EncodingFits.Statement (.spuBrhz rt i16) := by
  have h0 := rt.isLt
  have h1 := i16.isLt
  show 0x22000000 + rt.toNat * 2^0 + i16.toNat * 2^7 < 2^32
  omega

theorem EncodingFits.spuBiz (rt : BitVec 7) (ra : BitVec 7) (d : Bool) (e : Bool) :
    EncodingFits.Statement (.spuBiz rt ra d e) := by
  have h0 := rt.isLt
  have h1 := ra.isLt
  have h2 := d.toNat_lt
  have h3 := e.toNat_lt
  show 0x25000000 + rt.toNat * 2^0 + ra.toNat * 2^7 + d.toNat * 2^19 + e.toNat * 2^18 < 2^32
  omega

theorem EncodingFits.spuBinz (rt : BitVec 7) (ra : BitVec 7) (d : Bool) (e : Bool) :
    EncodingFits.Statement (.spuBinz rt ra d e) := by
  have h0 := rt.isLt
  have h1 := ra.isLt
  have h2 := d.toNat_lt
  have h3 := e.toNat_lt
  show 0x25200000 + rt.toNat * 2^0 + ra.toNat * 2^7 + d.toNat * 2^19 + e.toNat * 2^18 < 2^32
  omega

theorem EncodingFits.spuBihz (rt : BitVec 7) (ra : BitVec 7) (d : Bool) (e : Bool) :
    EncodingFits.Statement (.spuBihz rt ra d e) := by
  have h0 := rt.isLt
  have h1 := ra.isLt
  have h2 := d.toNat_lt
  have h3 := e.toNat_lt
  show 0x25400000 + rt.toNat * 2^0 + ra.toNat * 2^7 + d.toNat * 2^19 + e.toNat * 2^18 < 2^32
  omega

theorem EncodingFits.spuBihnz (rt : BitVec 7) (ra : BitVec 7) (d : Bool) (e : Bool) :
    EncodingFits.Statement (.spuBihnz rt ra d e) := by
  have h0 := rt.isLt
  have h1 := ra.isLt
  have h2 := d.toNat_lt
  have h3 := e.toNat_lt
  show 0x25600000 + rt.toNat * 2^0 + ra.toNat * 2^7 + d.toNat * 2^19 + e.toNat * 2^18 < 2^32
  omega

theorem EncodingFits.spuHbr (ra : BitVec 7) (off : BitVec 9) : EncodingFits.Statement (.spuHbr ra off) := by
  have h0 := ra.isLt
  have h1 := off.isLt
  show 0x35800000 + ra.toNat * 2^7 + (off.toNat % 128 + off.toNat / 128 * 2^14) < 2^32
  omega

theorem EncodingFits.spuHbrp (ra : BitVec 7) (off : BitVec 9) : EncodingFits.Statement (.spuHbrp ra off) := by
  have h0 := ra.isLt
  have h1 := off.isLt
  show 0x35900000 + ra.toNat * 2^7 + (off.toNat % 128 + off.toNat / 128 * 2^14) < 2^32
  omega

theorem EncodingFits.spuHbra (i16 : BitVec 16) (off : BitVec 9) : EncodingFits.Statement (.spuHbra i16 off) := by
  have h0 := i16.isLt
  have h1 := off.isLt
  show 0x10000000 + i16.toNat * 2^7 + (off.toNat % 128 + off.toNat / 128 * 2^23) < 2^32
  omega

theorem EncodingFits.spuHbrr (i16 : BitVec 16) (off : BitVec 9) : EncodingFits.Statement (.spuHbrr i16 off) := by
  have h0 := i16.isLt
  have h1 := off.isLt
  show 0x12000000 + i16.toNat * 2^7 + (off.toNat % 128 + off.toNat / 128 * 2^23) < 2^32
  omega

theorem EncodingFits.spuFa (rt : BitVec 7) (ra : BitVec 7) (rb : BitVec 7) : EncodingFits.Statement (.spuFa rt ra rb) := by
  have h0 := rt.isLt
  have h1 := ra.isLt
  have h2 := rb.isLt
  show 0x58800000 + rt.toNat * 2^0 + ra.toNat * 2^7 + rb.toNat * 2^14 < 2^32
  omega

theorem EncodingFits.spuDfa (rt : BitVec 7) (ra : BitVec 7) (rb : BitVec 7) : EncodingFits.Statement (.spuDfa rt ra rb) := by
  have h0 := rt.isLt
  have h1 := ra.isLt
  have h2 := rb.isLt
  show 0x59800000 + rt.toNat * 2^0 + ra.toNat * 2^7 + rb.toNat * 2^14 < 2^32
  omega

theorem EncodingFits.spuFs (rt : BitVec 7) (ra : BitVec 7) (rb : BitVec 7) : EncodingFits.Statement (.spuFs rt ra rb) := by
  have h0 := rt.isLt
  have h1 := ra.isLt
  have h2 := rb.isLt
  show 0x58A00000 + rt.toNat * 2^0 + ra.toNat * 2^7 + rb.toNat * 2^14 < 2^32
  omega

theorem EncodingFits.spuDfs (rt : BitVec 7) (ra : BitVec 7) (rb : BitVec 7) : EncodingFits.Statement (.spuDfs rt ra rb) := by
  have h0 := rt.isLt
  have h1 := ra.isLt
  have h2 := rb.isLt
  show 0x59A00000 + rt.toNat * 2^0 + ra.toNat * 2^7 + rb.toNat * 2^14 < 2^32
  omega

theorem EncodingFits.spuFm (rt : BitVec 7) (ra : BitVec 7) (rb : BitVec 7) : EncodingFits.Statement (.spuFm rt ra rb) := by
  have h0 := rt.isLt
  have h1 := ra.isLt
  have h2 := rb.isLt
  show 0x58C00000 + rt.toNat * 2^0 + ra.toNat * 2^7 + rb.toNat * 2^14 < 2^32
  omega

theorem EncodingFits.spuDfm (rt : BitVec 7) (ra : BitVec 7) (rb : BitVec 7) : EncodingFits.Statement (.spuDfm rt ra rb) := by
  have h0 := rt.isLt
  have h1 := ra.isLt
  have h2 := rb.isLt
  show 0x59C00000 + rt.toNat * 2^0 + ra.toNat * 2^7 + rb.toNat * 2^14 < 2^32
  omega

theorem EncodingFits.spuFma (rt : BitVec 7) (ra : BitVec 7) (rb : BitVec 7) (rc : BitVec 7) :
    EncodingFits.Statement (.spuFma rt ra rb rc) := by
  have h0 := rt.isLt
  have h1 := ra.isLt
  have h2 := rb.isLt
  have h3 := rc.isLt
  show 0xE0000000 + rt.toNat * 2^21 + ra.toNat * 2^7 + rb.toNat * 2^14 + rc.toNat * 2^0 < 2^32
  omega

theorem EncodingFits.spuDfma (rt : BitVec 7) (ra : BitVec 7) (rb : BitVec 7) : EncodingFits.Statement (.spuDfma rt ra rb) := by
  have h0 := rt.isLt
  have h1 := ra.isLt
  have h2 := rb.isLt
  show 0x6B800000 + rt.toNat * 2^0 + ra.toNat * 2^7 + rb.toNat * 2^14 < 2^32
  omega

theorem EncodingFits.spuFnms (rt : BitVec 7) (ra : BitVec 7) (rb : BitVec 7) (rc : BitVec 7) :
    EncodingFits.Statement (.spuFnms rt ra rb rc) := by
  have h0 := rt.isLt
  have h1 := ra.isLt
  have h2 := rb.isLt
  have h3 := rc.isLt
  show 0xD0000000 + rt.toNat * 2^21 + ra.toNat * 2^7 + rb.toNat * 2^14 + rc.toNat * 2^0 < 2^32
  omega

theorem EncodingFits.spuDfnms (rt : BitVec 7) (ra : BitVec 7) (rb : BitVec 7) : EncodingFits.Statement (.spuDfnms rt ra rb) := by
  have h0 := rt.isLt
  have h1 := ra.isLt
  have h2 := rb.isLt
  show 0x6BC00000 + rt.toNat * 2^0 + ra.toNat * 2^7 + rb.toNat * 2^14 < 2^32
  omega

theorem EncodingFits.spuFms (rt : BitVec 7) (ra : BitVec 7) (rb : BitVec 7) (rc : BitVec 7) :
    EncodingFits.Statement (.spuFms rt ra rb rc) := by
  have h0 := rt.isLt
  have h1 := ra.isLt
  have h2 := rb.isLt
  have h3 := rc.isLt
  show 0xF0000000 + rt.toNat * 2^21 + ra.toNat * 2^7 + rb.toNat * 2^14 + rc.toNat * 2^0 < 2^32
  omega

theorem EncodingFits.spuDfms (rt : BitVec 7) (ra : BitVec 7) (rb : BitVec 7) : EncodingFits.Statement (.spuDfms rt ra rb) := by
  have h0 := rt.isLt
  have h1 := ra.isLt
  have h2 := rb.isLt
  show 0x6BA00000 + rt.toNat * 2^0 + ra.toNat * 2^7 + rb.toNat * 2^14 < 2^32
  omega

theorem EncodingFits.spuDfnma (rt : BitVec 7) (ra : BitVec 7) (rb : BitVec 7) : EncodingFits.Statement (.spuDfnma rt ra rb) := by
  have h0 := rt.isLt
  have h1 := ra.isLt
  have h2 := rb.isLt
  show 0x6BE00000 + rt.toNat * 2^0 + ra.toNat * 2^7 + rb.toNat * 2^14 < 2^32
  omega

theorem EncodingFits.spuFrest (rt : BitVec 7) (ra : BitVec 7) : EncodingFits.Statement (.spuFrest rt ra) := by
  have h0 := rt.isLt
  have h1 := ra.isLt
  show 0x37000000 + rt.toNat * 2^0 + ra.toNat * 2^7 < 2^32
  omega

theorem EncodingFits.spuFrsqest (rt : BitVec 7) (ra : BitVec 7) : EncodingFits.Statement (.spuFrsqest rt ra) := by
  have h0 := rt.isLt
  have h1 := ra.isLt
  show 0x37200000 + rt.toNat * 2^0 + ra.toNat * 2^7 < 2^32
  omega

theorem EncodingFits.spuFi (rt : BitVec 7) (ra : BitVec 7) (rb : BitVec 7) : EncodingFits.Statement (.spuFi rt ra rb) := by
  have h0 := rt.isLt
  have h1 := ra.isLt
  have h2 := rb.isLt
  show 0x7A800000 + rt.toNat * 2^0 + ra.toNat * 2^7 + rb.toNat * 2^14 < 2^32
  omega

theorem EncodingFits.spuCsflt (rt : BitVec 7) (ra : BitVec 7) (i8 : BitVec 8) : EncodingFits.Statement (.spuCsflt rt ra i8) := by
  have h0 := rt.isLt
  have h1 := ra.isLt
  have h2 := i8.isLt
  show 0x76800000 + rt.toNat * 2^0 + ra.toNat * 2^7 + i8.toNat * 2^14 < 2^32
  omega

theorem EncodingFits.spuCflts (rt : BitVec 7) (ra : BitVec 7) (i8 : BitVec 8) : EncodingFits.Statement (.spuCflts rt ra i8) := by
  have h0 := rt.isLt
  have h1 := ra.isLt
  have h2 := i8.isLt
  show 0x76000000 + rt.toNat * 2^0 + ra.toNat * 2^7 + i8.toNat * 2^14 < 2^32
  omega

theorem EncodingFits.spuCuflt (rt : BitVec 7) (ra : BitVec 7) (i8 : BitVec 8) : EncodingFits.Statement (.spuCuflt rt ra i8) := by
  have h0 := rt.isLt
  have h1 := ra.isLt
  have h2 := i8.isLt
  show 0x76C00000 + rt.toNat * 2^0 + ra.toNat * 2^7 + i8.toNat * 2^14 < 2^32
  omega

theorem EncodingFits.spuCfltu (rt : BitVec 7) (ra : BitVec 7) (i8 : BitVec 8) : EncodingFits.Statement (.spuCfltu rt ra i8) := by
  have h0 := rt.isLt
  have h1 := ra.isLt
  have h2 := i8.isLt
  show 0x76400000 + rt.toNat * 2^0 + ra.toNat * 2^7 + i8.toNat * 2^14 < 2^32
  omega

theorem EncodingFits.spuFrds (rt : BitVec 7) (ra : BitVec 7) : EncodingFits.Statement (.spuFrds rt ra) := by
  have h0 := rt.isLt
  have h1 := ra.isLt
  show 0x77200000 + rt.toNat * 2^0 + ra.toNat * 2^7 < 2^32
  omega

theorem EncodingFits.spuFesd (rt : BitVec 7) (ra : BitVec 7) : EncodingFits.Statement (.spuFesd rt ra) := by
  have h0 := rt.isLt
  have h1 := ra.isLt
  show 0x77000000 + rt.toNat * 2^0 + ra.toNat * 2^7 < 2^32
  omega

theorem EncodingFits.spuDfceq (rt : BitVec 7) (ra : BitVec 7) (rb : BitVec 7) : EncodingFits.Statement (.spuDfceq rt ra rb) := by
  have h0 := rt.isLt
  have h1 := ra.isLt
  have h2 := rb.isLt
  show 0x78600000 + rt.toNat * 2^0 + ra.toNat * 2^7 + rb.toNat * 2^14 < 2^32
  omega

theorem EncodingFits.spuDfcmeq (rt : BitVec 7) (ra : BitVec 7) (rb : BitVec 7) :
    EncodingFits.Statement (.spuDfcmeq rt ra rb) := by
  have h0 := rt.isLt
  have h1 := ra.isLt
  have h2 := rb.isLt
  show 0x79600000 + rt.toNat * 2^0 + ra.toNat * 2^7 + rb.toNat * 2^14 < 2^32
  omega

theorem EncodingFits.spuDfcgt (rt : BitVec 7) (ra : BitVec 7) (rb : BitVec 7) : EncodingFits.Statement (.spuDfcgt rt ra rb) := by
  have h0 := rt.isLt
  have h1 := ra.isLt
  have h2 := rb.isLt
  show 0x58600000 + rt.toNat * 2^0 + ra.toNat * 2^7 + rb.toNat * 2^14 < 2^32
  omega

theorem EncodingFits.spuDfcmgt (rt : BitVec 7) (ra : BitVec 7) (rb : BitVec 7) :
    EncodingFits.Statement (.spuDfcmgt rt ra rb) := by
  have h0 := rt.isLt
  have h1 := ra.isLt
  have h2 := rb.isLt
  show 0x59600000 + rt.toNat * 2^0 + ra.toNat * 2^7 + rb.toNat * 2^14 < 2^32
  omega

theorem EncodingFits.spuDftsv (rt : BitVec 7) (ra : BitVec 7) (i7 : BitVec 7) : EncodingFits.Statement (.spuDftsv rt ra i7) := by
  have h0 := rt.isLt
  have h1 := ra.isLt
  have h2 := i7.isLt
  show 0x77E00000 + rt.toNat * 2^0 + ra.toNat * 2^7 + i7.toNat * 2^14 < 2^32
  omega

theorem EncodingFits.spuFceq (rt : BitVec 7) (ra : BitVec 7) (rb : BitVec 7) : EncodingFits.Statement (.spuFceq rt ra rb) := by
  have h0 := rt.isLt
  have h1 := ra.isLt
  have h2 := rb.isLt
  show 0x78400000 + rt.toNat * 2^0 + ra.toNat * 2^7 + rb.toNat * 2^14 < 2^32
  omega

theorem EncodingFits.spuFcmeq (rt : BitVec 7) (ra : BitVec 7) (rb : BitVec 7) : EncodingFits.Statement (.spuFcmeq rt ra rb) := by
  have h0 := rt.isLt
  have h1 := ra.isLt
  have h2 := rb.isLt
  show 0x79400000 + rt.toNat * 2^0 + ra.toNat * 2^7 + rb.toNat * 2^14 < 2^32
  omega

theorem EncodingFits.spuFcgt (rt : BitVec 7) (ra : BitVec 7) (rb : BitVec 7) : EncodingFits.Statement (.spuFcgt rt ra rb) := by
  have h0 := rt.isLt
  have h1 := ra.isLt
  have h2 := rb.isLt
  show 0x58400000 + rt.toNat * 2^0 + ra.toNat * 2^7 + rb.toNat * 2^14 < 2^32
  omega

theorem EncodingFits.spuFcmgt (rt : BitVec 7) (ra : BitVec 7) (rb : BitVec 7) : EncodingFits.Statement (.spuFcmgt rt ra rb) := by
  have h0 := rt.isLt
  have h1 := ra.isLt
  have h2 := rb.isLt
  show 0x59400000 + rt.toNat * 2^0 + ra.toNat * 2^7 + rb.toNat * 2^14 < 2^32
  omega

theorem EncodingFits.spuFscrwr (ra : BitVec 7) : EncodingFits.Statement (.spuFscrwr ra) := by
  have h := ra.isLt
  show 0x77400000 + ra.toNat * 2^7 < 2^32
  omega

theorem EncodingFits.spuFscrrd (rt : BitVec 7) : EncodingFits.Statement (.spuFscrrd rt) := by
  have h := rt.isLt
  show 0x73000000 + rt.toNat * 2^0 < 2^32
  omega

theorem EncodingFits.spuStop (sig : BitVec 14) : EncodingFits.Statement (.spuStop sig) := by
  have h := sig.isLt
  show 0x0 + sig.toNat * 2^0 < 2^32
  omega

theorem EncodingFits.spuStopd (ra : BitVec 7) (rb : BitVec 7) (rc : BitVec 7) : EncodingFits.Statement (.spuStopd ra rb rc) := by
  have h0 := ra.isLt
  have h1 := rb.isLt
  have h2 := rc.isLt
  show 0x28000000 + ra.toNat * 2^7 + rb.toNat * 2^14 + rc.toNat * 2^0 < 2^32
  omega

theorem EncodingFits.spuLnop : EncodingFits.Statement (.spuLnop) := by
  show 0x200000 < 2^32
  decide

theorem EncodingFits.spuNop : EncodingFits.Statement (.spuNop) := by
  show 0x40200000 < 2^32
  decide

theorem EncodingFits.spuSync : EncodingFits.Statement (.spuSync) := by
  show 0x400000 < 2^32
  decide

theorem EncodingFits.spuSyncc : EncodingFits.Statement (.spuSyncc) := by
  show 0x500000 < 2^32
  decide

theorem EncodingFits.spuDsync : EncodingFits.Statement (.spuDsync) := by
  show 0x600000 < 2^32
  decide

theorem EncodingFits.spuMfspr (rt : BitVec 7) (sa : BitVec 7) : EncodingFits.Statement (.spuMfspr rt sa) := by
  have h0 := rt.isLt
  have h1 := sa.isLt
  show 0x1800000 + rt.toNat * 2^0 + sa.toNat * 2^7 < 2^32
  omega

theorem EncodingFits.spuMtspr (rt : BitVec 7) (sa : BitVec 7) : EncodingFits.Statement (.spuMtspr rt sa) := by
  have h0 := rt.isLt
  have h1 := sa.isLt
  show 0x21800000 + rt.toNat * 2^0 + sa.toNat * 2^7 < 2^32
  omega

theorem EncodingFits.spuRdch (rt : BitVec 7) (ca : BitVec 7) : EncodingFits.Statement (.spuRdch rt ca) := by
  have h0 := rt.isLt
  have h1 := ca.isLt
  show 0x1A00000 + rt.toNat * 2^0 + ca.toNat * 2^7 < 2^32
  omega

theorem EncodingFits.spuRchcnt (rt : BitVec 7) (ca : BitVec 7) : EncodingFits.Statement (.spuRchcnt rt ca) := by
  have h0 := rt.isLt
  have h1 := ca.isLt
  show 0x1E00000 + rt.toNat * 2^0 + ca.toNat * 2^7 < 2^32
  omega

theorem EncodingFits.spuWrch (rt : BitVec 7) (ca : BitVec 7) : EncodingFits.Statement (.spuWrch rt ca) := by
  have h0 := rt.isLt
  have h1 := ca.isLt
  show 0x21A00000 + rt.toNat * 2^0 + ca.toNat * 2^7 < 2^32
  omega

theorem EncodingFits.mfcPut (tclass : BitVec 8) (rclass : BitVec 8) : EncodingFits.Statement (.mfcPut tclass rclass) := by
  have h0 := tclass.isLt
  have h1 := rclass.isLt
  show 0x20 + tclass.toNat * 2^24 + rclass.toNat * 2^16 < 2^32
  omega

theorem EncodingFits.mfcPutb (tclass : BitVec 8) (rclass : BitVec 8) : EncodingFits.Statement (.mfcPutb tclass rclass) := by
  have h0 := tclass.isLt
  have h1 := rclass.isLt
  show 0x21 + tclass.toNat * 2^24 + rclass.toNat * 2^16 < 2^32
  omega

theorem EncodingFits.mfcPutf (tclass : BitVec 8) (rclass : BitVec 8) : EncodingFits.Statement (.mfcPutf tclass rclass) := by
  have h0 := tclass.isLt
  have h1 := rclass.isLt
  show 0x22 + tclass.toNat * 2^24 + rclass.toNat * 2^16 < 2^32
  omega

theorem EncodingFits.mfcPutl (tclass : BitVec 8) (rclass : BitVec 8) : EncodingFits.Statement (.mfcPutl tclass rclass) := by
  have h0 := tclass.isLt
  have h1 := rclass.isLt
  show 0x24 + tclass.toNat * 2^24 + rclass.toNat * 2^16 < 2^32
  omega

theorem EncodingFits.mfcPutlb (tclass : BitVec 8) (rclass : BitVec 8) : EncodingFits.Statement (.mfcPutlb tclass rclass) := by
  have h0 := tclass.isLt
  have h1 := rclass.isLt
  show 0x25 + tclass.toNat * 2^24 + rclass.toNat * 2^16 < 2^32
  omega

theorem EncodingFits.mfcPutlf (tclass : BitVec 8) (rclass : BitVec 8) : EncodingFits.Statement (.mfcPutlf tclass rclass) := by
  have h0 := tclass.isLt
  have h1 := rclass.isLt
  show 0x26 + tclass.toNat * 2^24 + rclass.toNat * 2^16 < 2^32
  omega

theorem EncodingFits.mfcPuts (tclass : BitVec 8) (rclass : BitVec 8) : EncodingFits.Statement (.mfcPuts tclass rclass) := by
  have h0 := tclass.isLt
  have h1 := rclass.isLt
  show 0x28 + tclass.toNat * 2^24 + rclass.toNat * 2^16 < 2^32
  omega

theorem EncodingFits.mfcPutbs (tclass : BitVec 8) (rclass : BitVec 8) : EncodingFits.Statement (.mfcPutbs tclass rclass) := by
  have h0 := tclass.isLt
  have h1 := rclass.isLt
  show 0x29 + tclass.toNat * 2^24 + rclass.toNat * 2^16 < 2^32
  omega

theorem EncodingFits.mfcPutfs (tclass : BitVec 8) (rclass : BitVec 8) : EncodingFits.Statement (.mfcPutfs tclass rclass) := by
  have h0 := tclass.isLt
  have h1 := rclass.isLt
  show 0x2A + tclass.toNat * 2^24 + rclass.toNat * 2^16 < 2^32
  omega

theorem EncodingFits.mfcPutr (tclass : BitVec 8) (rclass : BitVec 8) : EncodingFits.Statement (.mfcPutr tclass rclass) := by
  have h0 := tclass.isLt
  have h1 := rclass.isLt
  show 0x30 + tclass.toNat * 2^24 + rclass.toNat * 2^16 < 2^32
  omega

theorem EncodingFits.mfcPutrb (tclass : BitVec 8) (rclass : BitVec 8) : EncodingFits.Statement (.mfcPutrb tclass rclass) := by
  have h0 := tclass.isLt
  have h1 := rclass.isLt
  show 0x31 + tclass.toNat * 2^24 + rclass.toNat * 2^16 < 2^32
  omega

theorem EncodingFits.mfcPutrf (tclass : BitVec 8) (rclass : BitVec 8) : EncodingFits.Statement (.mfcPutrf tclass rclass) := by
  have h0 := tclass.isLt
  have h1 := rclass.isLt
  show 0x32 + tclass.toNat * 2^24 + rclass.toNat * 2^16 < 2^32
  omega

theorem EncodingFits.mfcPutrl (tclass : BitVec 8) (rclass : BitVec 8) : EncodingFits.Statement (.mfcPutrl tclass rclass) := by
  have h0 := tclass.isLt
  have h1 := rclass.isLt
  show 0x34 + tclass.toNat * 2^24 + rclass.toNat * 2^16 < 2^32
  omega

theorem EncodingFits.mfcPutrlb (tclass : BitVec 8) (rclass : BitVec 8) : EncodingFits.Statement (.mfcPutrlb tclass rclass) := by
  have h0 := tclass.isLt
  have h1 := rclass.isLt
  show 0x35 + tclass.toNat * 2^24 + rclass.toNat * 2^16 < 2^32
  omega

theorem EncodingFits.mfcPutrlf (tclass : BitVec 8) (rclass : BitVec 8) : EncodingFits.Statement (.mfcPutrlf tclass rclass) := by
  have h0 := tclass.isLt
  have h1 := rclass.isLt
  show 0x36 + tclass.toNat * 2^24 + rclass.toNat * 2^16 < 2^32
  omega

theorem EncodingFits.mfcGet (tclass : BitVec 8) (rclass : BitVec 8) : EncodingFits.Statement (.mfcGet tclass rclass) := by
  have h0 := tclass.isLt
  have h1 := rclass.isLt
  show 0x40 + tclass.toNat * 2^24 + rclass.toNat * 2^16 < 2^32
  omega

theorem EncodingFits.mfcGetb (tclass : BitVec 8) (rclass : BitVec 8) : EncodingFits.Statement (.mfcGetb tclass rclass) := by
  have h0 := tclass.isLt
  have h1 := rclass.isLt
  show 0x41 + tclass.toNat * 2^24 + rclass.toNat * 2^16 < 2^32
  omega

theorem EncodingFits.mfcGetf (tclass : BitVec 8) (rclass : BitVec 8) : EncodingFits.Statement (.mfcGetf tclass rclass) := by
  have h0 := tclass.isLt
  have h1 := rclass.isLt
  show 0x42 + tclass.toNat * 2^24 + rclass.toNat * 2^16 < 2^32
  omega

theorem EncodingFits.mfcGetl (tclass : BitVec 8) (rclass : BitVec 8) : EncodingFits.Statement (.mfcGetl tclass rclass) := by
  have h0 := tclass.isLt
  have h1 := rclass.isLt
  show 0x44 + tclass.toNat * 2^24 + rclass.toNat * 2^16 < 2^32
  omega

theorem EncodingFits.mfcGetlb (tclass : BitVec 8) (rclass : BitVec 8) : EncodingFits.Statement (.mfcGetlb tclass rclass) := by
  have h0 := tclass.isLt
  have h1 := rclass.isLt
  show 0x45 + tclass.toNat * 2^24 + rclass.toNat * 2^16 < 2^32
  omega

theorem EncodingFits.mfcGetlf (tclass : BitVec 8) (rclass : BitVec 8) : EncodingFits.Statement (.mfcGetlf tclass rclass) := by
  have h0 := tclass.isLt
  have h1 := rclass.isLt
  show 0x46 + tclass.toNat * 2^24 + rclass.toNat * 2^16 < 2^32
  omega

theorem EncodingFits.mfcGets (tclass : BitVec 8) (rclass : BitVec 8) : EncodingFits.Statement (.mfcGets tclass rclass) := by
  have h0 := tclass.isLt
  have h1 := rclass.isLt
  show 0x48 + tclass.toNat * 2^24 + rclass.toNat * 2^16 < 2^32
  omega

theorem EncodingFits.mfcGetbs (tclass : BitVec 8) (rclass : BitVec 8) : EncodingFits.Statement (.mfcGetbs tclass rclass) := by
  have h0 := tclass.isLt
  have h1 := rclass.isLt
  show 0x49 + tclass.toNat * 2^24 + rclass.toNat * 2^16 < 2^32
  omega

theorem EncodingFits.mfcGetfs (tclass : BitVec 8) (rclass : BitVec 8) : EncodingFits.Statement (.mfcGetfs tclass rclass) := by
  have h0 := tclass.isLt
  have h1 := rclass.isLt
  show 0x4A + tclass.toNat * 2^24 + rclass.toNat * 2^16 < 2^32
  omega

theorem EncodingFits.mfcSdcrt (tclass : BitVec 8) (rclass : BitVec 8) : EncodingFits.Statement (.mfcSdcrt tclass rclass) := by
  have h0 := tclass.isLt
  have h1 := rclass.isLt
  show 0x80 + tclass.toNat * 2^24 + rclass.toNat * 2^16 < 2^32
  omega

theorem EncodingFits.mfcSdcrtst (tclass : BitVec 8) (rclass : BitVec 8) : EncodingFits.Statement (.mfcSdcrtst tclass rclass) := by
  have h0 := tclass.isLt
  have h1 := rclass.isLt
  show 0x81 + tclass.toNat * 2^24 + rclass.toNat * 2^16 < 2^32
  omega

theorem EncodingFits.mfcSdcrz (tclass : BitVec 8) (rclass : BitVec 8) : EncodingFits.Statement (.mfcSdcrz tclass rclass) := by
  have h0 := tclass.isLt
  have h1 := rclass.isLt
  show 0x89 + tclass.toNat * 2^24 + rclass.toNat * 2^16 < 2^32
  omega

theorem EncodingFits.mfcSdcrst (tclass : BitVec 8) (rclass : BitVec 8) : EncodingFits.Statement (.mfcSdcrst tclass rclass) := by
  have h0 := tclass.isLt
  have h1 := rclass.isLt
  show 0x8D + tclass.toNat * 2^24 + rclass.toNat * 2^16 < 2^32
  omega

theorem EncodingFits.mfcSdcrf (tclass : BitVec 8) (rclass : BitVec 8) : EncodingFits.Statement (.mfcSdcrf tclass rclass) := by
  have h0 := tclass.isLt
  have h1 := rclass.isLt
  show 0x8F + tclass.toNat * 2^24 + rclass.toNat * 2^16 < 2^32
  omega

theorem EncodingFits.mfcSndsig (tclass : BitVec 8) (rclass : BitVec 8) : EncodingFits.Statement (.mfcSndsig tclass rclass) := by
  have h0 := tclass.isLt
  have h1 := rclass.isLt
  show 0xA0 + tclass.toNat * 2^24 + rclass.toNat * 2^16 < 2^32
  omega

theorem EncodingFits.mfcSndsigb (tclass : BitVec 8) (rclass : BitVec 8) : EncodingFits.Statement (.mfcSndsigb tclass rclass) := by
  have h0 := tclass.isLt
  have h1 := rclass.isLt
  show 0xA1 + tclass.toNat * 2^24 + rclass.toNat * 2^16 < 2^32
  omega

theorem EncodingFits.mfcSndsigf (tclass : BitVec 8) (rclass : BitVec 8) : EncodingFits.Statement (.mfcSndsigf tclass rclass) := by
  have h0 := tclass.isLt
  have h1 := rclass.isLt
  show 0xA2 + tclass.toNat * 2^24 + rclass.toNat * 2^16 < 2^32
  omega

theorem EncodingFits.mfcPutlluc (tclass : BitVec 8) (rclass : BitVec 8) : EncodingFits.Statement (.mfcPutlluc tclass rclass) := by
  have h0 := tclass.isLt
  have h1 := rclass.isLt
  show 0xB0 + tclass.toNat * 2^24 + rclass.toNat * 2^16 < 2^32
  omega

theorem EncodingFits.mfcPutllc (tclass : BitVec 8) (rclass : BitVec 8) : EncodingFits.Statement (.mfcPutllc tclass rclass) := by
  have h0 := tclass.isLt
  have h1 := rclass.isLt
  show 0xB4 + tclass.toNat * 2^24 + rclass.toNat * 2^16 < 2^32
  omega

theorem EncodingFits.mfcPutqlluc (tclass : BitVec 8) (rclass : BitVec 8) :
    EncodingFits.Statement (.mfcPutqlluc tclass rclass) := by
  have h0 := tclass.isLt
  have h1 := rclass.isLt
  show 0xB8 + tclass.toNat * 2^24 + rclass.toNat * 2^16 < 2^32
  omega

theorem EncodingFits.mfcBarrier (tclass : BitVec 8) (rclass : BitVec 8) : EncodingFits.Statement (.mfcBarrier tclass rclass) := by
  have h0 := tclass.isLt
  have h1 := rclass.isLt
  show 0xC0 + tclass.toNat * 2^24 + rclass.toNat * 2^16 < 2^32
  omega

theorem EncodingFits.mfcMfceieio (tclass : BitVec 8) (rclass : BitVec 8) :
    EncodingFits.Statement (.mfcMfceieio tclass rclass) := by
  have h0 := tclass.isLt
  have h1 := rclass.isLt
  show 0xC8 + tclass.toNat * 2^24 + rclass.toNat * 2^16 < 2^32
  omega

theorem EncodingFits.mfcMfcsync (tclass : BitVec 8) (rclass : BitVec 8) : EncodingFits.Statement (.mfcMfcsync tclass rclass) := by
  have h0 := tclass.isLt
  have h1 := rclass.isLt
  show 0xCC + tclass.toNat * 2^24 + rclass.toNat * 2^16 < 2^32
  omega

theorem EncodingFits.mfcGetllar (tclass : BitVec 8) (rclass : BitVec 8) : EncodingFits.Statement (.mfcGetllar tclass rclass) := by
  have h0 := tclass.isLt
  have h1 := rclass.isLt
  show 0xD0 + tclass.toNat * 2^24 + rclass.toNat * 2^16 < 2^32
  omega

end Sys2Proof.Laws
end

