-- ==== Sys2Proof/Laws/Storage.lean ====
section
/-! SUPPORT. What a storage access of the PPE does when its operand is ordinary (`Ordinary` of Safety.lean): one lemma for a piece,
one for a whole load, one for a whole store; and the alignment rules that such an operand meets. -/

namespace Sys2Proof.Machine

open Sys2Proof.Safety

/-- `k` bytes of a memory are a number of `k` bytes. -/
theorem readBytes_lt (m : List Host.Cell) (a k : Nat) : readBytes m a k < 256^k := by
  induction k with
  | zero => simp [readBytes]
  | succ k ih =>
    have hb := (readByte m (a + k)).isLt
    rw [readBytes, Nat.pow_succ]
    omega

/-- A translated piece of an ordinary operand. -/
def pieceOf (s : State) (ea : DWord) (p : Page) : Piece := ⟨⟨p.ra, inhibited s p, p.g || s.ppe.forceG⟩, ea, p⟩

/-- One piece of an ordinary operand that meets the alignment rules translates to the page, and nothing changes. -/
theorem dataPage_ordinary {s : State} {op ea : DWord} {len : Nat} {store : Bool} {al : Align} {p : Page}
    (h : Ordinary s ea len store p) (hb : al.before = false) (ha : al.after p (inhibited s p) = false) :
    dataPage s op ea len store al = .ok (pieceOf s ea p) s := by
  have hi : (p.i || s.ppe.forceCi) = inhibited s p := rfl
  unfold dataPage
  simp only [h.noBreak, Bool.false_eq_true, if_false, hb, h.found, hi, ha, Bool.false_and, h.allowed, Bool.not_true]
  cases store with
  | false => simp [pieceOf]
  | true => simp [h.changed rfl, pieceOf]

/-- A store to a page whose C bit is set records nothing. -/
theorem State.recordChange_set {s : State} {x : Piece} (h : x.page.c = true) : s.recordChange x = .ok () s := by
  unfold State.recordChange State.setChange
  cases x.page.slot <;> simp [h]

/-- The same as an operand of one piece. -/
theorem dataPiece_ordinary {s : State} {op ea : DWord} {len : Nat} {store : Bool} {al : Align} {p : Page}
    (h : Ordinary s ea len store p) (hb : al.before = false) (ha : al.after p (inhibited s p) = false) :
    dataPiece s op ea len store al = .ok ⟨p.ra, inhibited s p, p.g || s.ppe.forceG⟩ s := by
  unfold dataPiece
  rw [dataPage_ordinary h hb ha]
  cases store with
  | false => rfl
  | true => simp [Res.bind, State.recordChange_set (x := pieceOf s ea p) (h.changed rfl)]; rfl

/-- An operand inside a 4 KB block that no breakpoint matches is one piece. -/
theorem pieces_one {th : Thread} {store : Bool} {ea : DWord} {len : Nat} {cut : Nat} (h : (th.truncEa ea).toNat % 4096 + len ≤ 4096)
    (hb : dabrMatch th (th.truncEa ea) len store = false) : pieces th store ea len cut = [(th.truncEa ea, len)] := by
  unfold pieces
  simp only [hb, Bool.false_eq_true, if_false]
  rw [if_neg (by omega)]

/-- One ordinary piece is translated as a whole. -/
theorem prepare_ordinary {s : State} {op ea : DWord} {len : Nat} {store : Bool} {al : Align} {p : Page}
    (h : Ordinary s ea len store p) (hb : al.before = false) (ha : al.after p (inhibited s p) = false) :
    prepare op store al [(ea, len)] s = .all [pieceOf s ea p] s := by
  simp [prepare, prepareFrom, dataPage_ordinary h hb ha]

/-- The length of an access matters only beside the registers. -/
theorem regionAt_cases (s : State) (ra len : Nat) : regionAt s ra len = region s ra ∨
    (region s ra = .unassigned ∧ regionAt s ra len = .mmio (ra - s.cfg.mmioBase)) := by
  cases h : region s ra with
  | unassigned =>
    simp only [regionAt, h]
    split
    · exact .inr ⟨trivial, rfl⟩
    · exact .inl rfl
  | _ => simp [regionAt, h]

theorem regionAt_dram {s : State} {ra : Nat} (len : Nat) (h : region s ra = .dram) : regionAt s ra len = .dram := by
  simp [regionAt, h]

/-- A load of an ordinary operand finishes with the big-endian number of its bytes. -/
theorem loadThen_ordinary {w : Nat} {s : State} {ea : DWord} {len : Nat} {al : Align} {p : Page} (conv : Nat → BitVec w)
    (put : BitVec w → State → State) (h : Ordinary s (s.thr.truncEa ea) len false p) (hb : al.before = false) (ha : al.after p (inhibited s p) = false) :
    loadThen s ea len al conv put = .next (put (conv (readBytes s.mem p.ra len)) s) := by
  have hv := Nat.mod_eq_of_lt (readBytes_lt s.mem p.ra len)
  unfold loadThen
  simp only [pieces_one h.inBlock h.noBreak, prepare_ordinary h hb ha, List.map_cons, List.map_nil, loadAll, realLoad, pieceOf, regionAt_dram _ h.dram,
    List.headD_cons, State.loadMem]
  simp [hv]

/-- A store of an ordinary operand stores the low bytes of the value and finishes. -/
theorem storeThen_ordinary {s : State} {ea : DWord} {len : Nat} {al : Align} {p : Page} (v : Nat) (f : State → State) {cut : Nat}
    (h : Ordinary s (s.thr.truncEa ea) len true p) (hb : al.before = false) (ha : al.after p (inhibited s p) = false) :
    storeThen s ea len al v f cut = .next (f (s.storeMem (some s.cur) p.ra len (v % 256^len))) := by
  have hc : s.recordChange (pieceOf s (s.thr.truncEa ea) p) = .ok () s := State.recordChange_set (h.changed rfl)
  unfold storeThen storeParts
  simp only [pieces_one h.inBlock h.noBreak, splitBytes, List.map_cons, List.map_nil, List.zip_cons_cons, List.zip_nil_right,
    prepare_ordinary h hb ha, storeAll, hc, Res.bind, realStore]
  simp [pieceOf, regionAt_dram _ h.dram]

/-! ## The alignment rules of an ordinary operand -/

theorem alignFixed_ok {s : State} {p : Page} {ea : DWord} {len : Nat} (h : alignedFor .fixed s p ea len) :
    (alignFixed s ea len).before = false ∧ (alignFixed s ea len).after p (inhibited s p) = false := by
  refine ⟨rfl, ?_⟩
  simp only [alignedFor] at h
  simp only [alignFixed, crosses]
  split <;> rename_i hi
  · rw [if_pos hi] at h; simpa using h
  · rw [if_neg hi] at h
    cases hf : s.ppe.forceAi with
    | false => rfl
    | true => have := h hf; simp; omega

theorem alignAlgebraic_ok {s : State} {p : Page} {ea : DWord} {len : Nat} (h : alignedFor .cached s p ea len) :
    (alignAlgebraic s ea len).before = false ∧ (alignAlgebraic s ea len).after p (inhibited s p) = false := by
  refine ⟨rfl, ?_⟩
  simp only [alignedFor] at h
  simp only [alignAlgebraic, crosses, h.1, Bool.false_or]
  cases hf : s.ppe.forceAi with
  | false => rfl
  | true => have := h.2 hf; simp; omega

theorem alignStrict_ok {s : State} {p : Page} {ea : DWord} {len : Nat} (h : alignedFor .strict s p ea len) :
    (alignStrict ea len).before = false ∧ (alignStrict ea len).after p (inhibited s p) = false := by
  simp only [alignedFor] at h
  exact ⟨by simp [alignStrict, h.2], h.1⟩

/-! ## What a store does besides its bytes -/

/-- A thread keeps everything, or loses its reservation on the granule. -/
theorem State.threads_noteStore (s : State) (b : Option Agent) (g : Nat) (u : Fin 2) :
    (s.noteStore b g).threads[u] = s.threads[u] ∨ (s.noteStore b g).threads[u] = s.threads[u].loseReserve g := by
  match u with
  | 0 =>
    show (if _ then s.threads[(0 : Fin 2)] else s.threads[(0 : Fin 2)].loseReserve g) = _ ∨
      (if _ then s.threads[(0 : Fin 2)] else s.threads[(0 : Fin 2)].loseReserve g) = _
    split
    · exact .inl rfl
    · exact .inr rfl
  | 1 =>
    show (if _ then s.threads[(1 : Fin 2)] else s.threads[(1 : Fin 2)].loseReserve g) = _ ∨
      (if _ then s.threads[(1 : Fin 2)] else s.threads[(1 : Fin 2)].loseReserve g) = _
    split
    · exact .inl rfl
    · exact .inr rfl

/-- A thread that did not store loses its reservation on the granule. -/
theorem State.threads_noteStore_other (s : State) (b : Option Agent) (g : Nat) (u : Fin 2) (h : b ≠ some (.ppe u)) :
    (s.noteStore b g).threads[u] = s.threads[u].loseReserve g := by
  match u with
  | 0 =>
    show (if (decide (b = some (.ppe 0)) && _) && _ then s.threads[(0 : Fin 2)] else s.threads[(0 : Fin 2)].loseReserve g) = _
    rw [if_neg (by simp [h])]
  | 1 =>
    show (if (decide (b = some (.ppe 1)) && _) && _ then s.threads[(1 : Fin 2)] else s.threads[(1 : Fin 2)].loseReserve g) = _
    rw [if_neg (by simp [h])]

/-- What a store does to an SPE: the storing SPE's own reservation goes silently, another SPE's with its event. -/
theorem State.spes_noteStore (s : State) (b : Option Agent) (g : Nat) (n : Fin 8) :
    (s.noteStore b g).spes[n] = if Agent.isSpe b n then s.spes[n].dropLine g else s.spes[n].loseLine g := by
  simp [State.noteStore]

/-- A fetch of a line into the instruction cache changes nothing else. -/
theorem State.icacheFill_only (s : State) (t : Fin 2) (ea : DWord) :
    ∃ l, s.icacheFill t ea = { s with ppe := { s.ppe with icache := l } } := by
  have put (k : Nat) : ∃ l, s.icachePut k = { s with ppe := { s.ppe with icache := l } } := by
    unfold State.icachePut
    split
    · exact ⟨_, rfl⟩
    · exact ⟨s.ppe.icache, rfl⟩
  simp only [State.icacheFill]
  split
  · exact ⟨s.ppe.icache, rfl⟩
  · split
    · split
      · exact put _
      · exact ⟨s.ppe.icache, rfl⟩
    · exact ⟨s.ppe.icache, rfl⟩

/-- A store in one 128-byte granule: the bytes, and the reservations. -/
theorem State.storeMem_one (s : State) (b : Option Agent) (a k v : Nat) (h : (a + k - 1) / 128 = a / 128) :
    s.storeMem b a k v = ({ s with mem := writeBytes s.mem a v k }).noteStore b (a / 128) := by
  simp [State.storeMem, State.noteStores, h]

end Sys2Proof.Machine
end

