-- ==== Sys2Proof/Laws/Spe.lean ====
section
/-! SUPPORT. The SPEs: an interrupt cause of a masked class, the translation of an MFC access in real mode, the completion of a
command. -/

namespace Sys2Proof.Machine

open Sys2Proof.Safety

/-- A cause that its mask hides only sets its status bit: no packet is sent. -/
theorem State.raiseInt_masked (s : State) (n : Fin 8) (c : Fin 3) (bits : DWord) (h : s.spes[n].intMask[c] &&& bits = 0) :
    s.raiseInt n c bits = .ok () (s.modN n fun p => withStatus p c bits) := by
  have hm : ∀ x m b : DWord, m &&& b = 0 → ((x ||| b) &&& m) = x &&& m := by
    intro x m b hb
    have : b &&& m = 0 := by rw [BitVec.and_comm]; exact hb
    rw [BitVec.and_comm, BitVec.and_or_distrib_left, BitVec.and_comm m x, BitVec.and_comm m b, this]
    exact BitVec.or_zero
  unfold State.raiseInt State.changeInt
  have hp : (s.modN n fun p => withStatus p c bits).spes[n].intPend c = s.spes[n].intPend c := by
    simp only [State.spes_modN, if_true, Spe.intPend, withStatus]
    simp only [Vector.getElem_set_self, Fin.getElem_fin] at *
    rw [hm _ _ _ h]
  show (if (s.modN n fun p => withStatus p c bits).spes[n].intPend c && (false || !s.spes[n].intPend c) then _ else _) = _
  rw [hp]
  cases s.spes[n].intPend c <;> simp [withStatus]

/-- In real mode an access that is not atomic goes to the low 42 bits of its address. -/
theorem smmTranslate_real (s : State) (n : Fin 8) (ea : DWord) (store : Bool) (r : Nat) (h : ibit s.spes[n].sr1 59 = false) :
    smmTranslate s n ea store false r = .real (ea.toNat % 2^42) s := by
  unfold smmTranslate
  simp only [h, Bool.not_false, if_true, Bool.false_and, Bool.false_eq_true, if_false]

/-- An atomic access in real mode too, where the line is not caching-inhibited. -/
theorem smmTranslate_atomic (s : State) (n : Fin 8) (ea : DWord) (store : Bool) (r : Nat) (h : ibit s.spes[n].sr1 59 = false)
    (hi : s.spes[n].realI (ea.toNat % 2^42) = false) :
    smmTranslate s n ea store true r = .real (ea.toNat % 2^42) s := by
  unfold smmTranslate
  simp only [h, hi, Bool.not_false, if_true, Bool.and_false, Bool.false_eq_true, if_false]

/-- Without an address compare the access goes on. -/
theorem lsCompare_off (s : State) (readsLs : Bool) (f : State → Out State) (h : s.spe.cell keyLsacr = 0) :
    lsCompare s readsLs f = f s := by
  unfold lsCompare; simp [h]

/-- An unarmed proxy query answers nothing. -/
theorem State.checkQuery_unarmed (s : State) (n : Fin 8) (h : s.spes[n].pxQueryType = 0) : s.checkQuery n = .ok () s := by
  have hq : ∀ d m : Word, queryHolds (0 : BitVec 2) d m = false := fun _ _ => rfl
  unfold State.checkQuery
  simp only [h, hq, Bool.false_eq_true, if_false]

/-- An event, in the terms of Safety.lean. -/
theorem Spe.raiseEvent_eq (p : Spe) (b : Nat) (hb : b < 32) : p.raiseEvent b = withEvent p b := by
  have hs : setIbit p.pend b true = p.pend ||| (0x80000000#32 >>> b) := by
    apply BitVec.eq_of_getLsbD_eq
    intro i hi
    simp only [setIbit, setIbm, BitVec.getLsbD_or, BitVec.getLsbD_and, BitVec.getLsbD_not, BitVec.getLsbD_shiftLeft,
      BitVec.getLsbD_ushiftRight, BitVec.getLsbD_setWidth, BitVec.getLsbD_ofBool, BitVec.getLsbD_allOnes]
    have h1 : (0x80000000#32).getLsbD (b + i) = decide (i = 31 - b) := by
      rw [show (0x80000000#32) = BitVec.twoPow 32 31 from rfl, BitVec.getLsbD_twoPow]
      by_cases h : i = 31 - b
      · simp [h]; omega
      · simp [h]; omega
    rw [h1]
    by_cases h : i = 31 - b
    · subst h
      have : ¬ (31 - b < 32 - b - 1) := by omega
      simp [this, hi, show 31 - b - (32 - b - 1) = 0 by omega]
    · by_cases hl : i < 31 - b
      · have h2 : i < 32 - b - 1 := by omega
        simp [h, h2, hi]
      · have h2 : ¬ i < 32 - b - 1 := by omega
        have h3 : ¬ (i - (32 - b - 1) = 0) := by omega
        simp [h, h2, hi, h3]
  unfold Spe.raiseEvent withEvent
  rw [hs]
  split
  · rfl
  · simp only
    split <;> rfl

end Sys2Proof.Machine
end

