-- ==== Sys2Proof/Tests/Slice0.lean ====
section
/-! SUPPORT. The model's own tests: an ill-formed term for every check of WellFormed, words written out from the encodings of
spec/, for every statement concrete states and operands that meet its hypotheses together (at the ends of their ranges), and
small steps whose results are those of spec/97_test_vectors_ppe.md and 98_test_vectors_spe.md or computed by hand from the rules named. -/

namespace Sys2Proof.Tests

open Sys2Proof Sys2Proof.Machine Sys2Proof.Safety

/- The tests are checked one after another: side by side their checks need too much memory. -/
set_option Elab.async false

/-! ## Small states -/

/-- The machine after reset with some general registers of thread 0. -/
def regs (l : List (BitVec 5 × DWord)) : State := State.reset.modT 0 fun th => l.foldl (fun th x => th.setGpr x.1 x.2) th

/-- The machine after reset with another MSR of thread 0. -/
def inMode (m : DWord) : State := State.reset.modT 0 fun th => { th with msr := m }

/-- Hypervisor state with the floating-point and the vector unit on; problem state; supervisor state. -/
def unitsOn : DWord := 0x9000000002003000
def problemMsr : DWord := 0x800000000200F032
def supervisorMsr : DWord := 0x8000000000001000

/-- A thread. -/
def thread (l : List (BitVec 5 × DWord)) : Thread := l.foldl (fun th x => th.setGpr x.1 x.2) (Thread.reset 0x100 0 true)

/-! ## Well-formedness: every check refuses an ill-formed term (30_encoding R552) -/

theorem test_load_update_base_0 : Instr.wf (.ppeLwzu 3 0 4) = false := by decide
theorem test_load_update_base_target : Instr.wf (.ppeLdux 3 3 4) = false := by decide
theorem test_load_update_valid : Instr.wf (.ppeLwzu 3 4 4) = true := by decide
theorem test_store_update_base_0 : Instr.wf (.ppeStwu 3 0 4) = false := by decide
theorem test_float_update_base_0 : Instr.wf (.ppeLfsu 3 0 4) = false := by decide
theorem test_multiple_base_loaded : Instr.wf (.ppeLmw 29 30 0) = false := by decide
theorem test_string_base_loaded : Instr.wf (.ppeLswi 31 0 5) = false := by decide
theorem test_string_base_outside : Instr.wf (.ppeLswi 31 1 5) = true := by decide
theorem test_string_count_0_is_32 : Instr.wf (.ppeLswi 3 10 0) = false := by decide
theorem test_string_index_target : Instr.wf (.ppeLswx 3 4 3) = false := by decide
theorem test_bcctr_counts : Instr.wf (.ppeBcctr 16 0 0 false) = false := by decide
theorem test_branch_both_features : Instr.wf (.spuBisl 0 4 true true) = false := by decide

/-! ## Words of the encodings (40_ppe_branch R600, R601, R602, R620, 42_ppe_integer R741, R775, 44_ppe_system R922, R926, R930,
R938, 45_ppe_vmx_1 R1046, 46 to 49 for the SPU, 49_mfc_commands R1632) -/

theorem test_word_b : decodePpe 0x48000010 = .ok (.ppeB 4 false false) := by rfl
theorem test_word_bdnz : decodePpe 0x4200FFF8 = .ok (.ppeBc 16 0 0x3FFE false false) := by rfl
theorem test_word_beq : decodePpe 0x41820008 = .ok (.ppeBc 12 2 2 false false) := by rfl
theorem test_word_blr : decodePpe 0x4E800020 = .ok (.ppeBclr 20 0 0 false) := by rfl
theorem test_word_trap : decodePpe 0x7FE00008 = .ok (.ppeTw 31 0 0) := by rfl
theorem test_word_li : decodePpe 0x3860FFFF = .ok (.ppeAddi 3 0 0xFFFF) := by rfl
theorem test_word_cmpwi : decodePpe 0x2C030000 = .ok (.ppeCmpi 0 false 3 0) := by rfl
theorem test_word_sc : decodePpe 0x44000022 = .ok (.ppeSc 1) := by rfl
theorem test_word_mflr : decodePpe 0x7C0802A6 = .ok (.ppeMfspr 0 8) := by rfl
theorem test_word_sync : decodePpe 0x7C0004AC = .ok (.ppeSync 0) := by rfl
theorem test_word_isync : decodePpe 0x4C00012C = .ok .ppeIsync := by rfl
theorem test_word_lwz : decodePpe 0x80A10008 = .ok (.ppeLwz 5 1 8) := by rfl
theorem test_word_fadd : decodePpe 0xFC22182A = .ok (.ppeFadd 1 2 3 false) := by rfl
theorem test_word_vspltisw : decodePpe 0x1000038C = .ok (.ppeVspltisw 0 0) := by rfl
theorem test_word_lqd : decodeSpu 0x34004084 = .ok (.spuLqd 4 1 1) := by rfl
theorem test_word_stqx : decodeSpu 0x28814203 = .ok (.spuStqx 3 4 5) := by rfl
theorem test_word_spu_a : decodeSpu 0x18014203 = .ok (.spuA 3 4 5) := by rfl
theorem test_word_spu_ai : decodeSpu 0x1CFFC183 = .ok (.spuAi 3 3 0x3FF) := by rfl
theorem test_word_mpya : decodeSpu 0xC0614206 = .ok (.spuMpya 3 4 5 6) := by rfl
theorem test_word_rdch : decodeSpu 0x01A00E83 = .ok (.spuRdch 3 29) := by rfl
theorem test_word_wrch : decodeSpu 0x21A00E03 = .ok (.spuWrch 3 28) := by rfl
theorem test_word_mfc_put : decodeMfc 0x20 = .ok (.mfcPut 0 0) := by rfl
theorem test_word_mfc_getl : decodeMfc 0x01020044 = .ok (.mfcGetl 1 2) := by rfl
theorem test_word_mfc_getllar : decodeMfc 0xD0 = .ok (.mfcGetllar 0 0) := by rfl
/-- A word of no row is rejected. -/
theorem test_word_none : ∃ e, decodePpe 0 = .error e := ⟨_, rfl⟩

/-! ## Witnesses: fixed point and branches -/

theorem witness_additions : ∃ fx, PlainSum (.ppeAddi 3 0 0xFFFF) 14 none fx := ⟨_, .addi 3 0 0xFFFF⟩
theorem witness_carrying_additions : ∃ fx, CarryingSum (.ppeAdde 3 3 4 true true) 31 (some 138) fx := ⟨_, .adde 3 3 4 true true⟩
theorem witness_products : ∃ ok fx, WholeProduct (.ppeMulhd 3 4 5 true) ok fx ∧ ok (thread []) :=
  ⟨_, _, .mulhd 3 4 5 true, trivial⟩
/-- The most negative dividend over 1, and the next one over -1. -/
theorem witness_quotients : ∃ ok fx, WholeProduct (.ppeDivd 3 4 5 true true) ok fx ∧ ok (thread [(4, 1 <<< 63), (5, 1)]) ∧
    ok (thread [(4, 0x8000000000000001), (5, -1)]) :=
  ⟨_, _, .divd 3 4 5 true true, by decide, by decide⟩
theorem witness_quotients_unsigned : ∃ ok fx, WholeProduct (.ppeDivdu 3 4 5 false true) ok fx ∧ ok (thread [(5, 1)]) :=
  ⟨_, _, .divdu 3 4 5 false true, by decide⟩
theorem witness_word_products : ∃ ok low, WordProduct (.ppeMulhw 3 4 5 true) 3 false true ok low ∧ ok (thread []) :=
  ⟨_, _, .mulhw 3 4 5 true, trivial⟩
theorem witness_word_quotients : ∃ ok low, WordProduct (.ppeDivw 3 4 5 true true) 3 true true ok low ∧
    ok (thread [(4, 0x80000000), (5, 1)]) ∧ ok (thread [(4, 0x80000001), (5, 0xFFFFFFFF)]) :=
  ⟨_, _, .divw 3 4 5 true true, by decide, by decide⟩
theorem witness_undefined_quotients : ∃ ok, UndefinedQuotient (.ppeDivd 3 4 5 true true) 3 true true ok ∧
    ok (thread [(4, 7)]) ∧ ok (thread [(4, 1 <<< 63), (5, -1)]) :=
  ⟨_, .divd 3 4 5 true true, by decide, by decide⟩
theorem witness_undefined_word_quotients : ∃ ok, UndefinedQuotient (.ppeDivw 3 4 5 false true) 3 false true ok ∧
    ok (thread [(5, 0x100000000)]) ∧ ok (thread [(4, 0x80000000), (5, 0xFFFFFFFF)]) :=
  ⟨_, .divw 3 4 5 false true, by decide, by decide⟩
theorem witness_compares : ∃ f, Comparison (.ppeCmp 7 false 3 3) 7 f := ⟨_, .cmp 7 false 3 3⟩
theorem witness_logical : ∃ f, Logical (.ppeOr 1 1 1 false) 1 false f := ⟨_, .or 1 1 1 false⟩
theorem witness_rotations : ∃ rot mask, Rotation (.ppeRlwimi 3 3 31 31 0 true) 3 true rot mask true :=
  ⟨_, _, .rlwimi 3 3 31 31 0 true⟩
theorem witness_shifts : ∃ fx, Shift (.ppeSraw 3 3 3 true) fx := ⟨_, .sraw 3 3 3 true⟩
theorem witness_cr_logical : ∃ f, CrLogical (.ppeCrxor 31 31 31) 31 f := ⟨_, .crxor 31 31 31⟩
/-- The first and the last field. -/
theorem witness_one_field : (∃ f, f < 8 ∧ (128#8 : BitVec 8) = 128#8 >>> f) ∧ ∃ f, f < 8 ∧ (1#8 : BitVec 8) = 128#8 >>> f :=
  ⟨⟨0, by decide⟩, ⟨7, by decide⟩⟩
theorem witness_branches : (∃ taken addr, Branch (.ppeBc 16 0 0x3FFE false true) taken addr true true) ∧
    ∃ taken addr, Branch (.ppeBcctr 4 31 0 true) taken addr true false :=
  ⟨⟨_, _, .bc 16 0 0x3FFE false true⟩, ⟨_, _, .bcctr 4 31 0 true rfl⟩⟩
theorem witness_traps : ∃ cond, Trap (.ppeTwi 16 3 0) cond ∧ cond (thread [(3, 0xFFFFFFFF)]) ∧ ¬cond (thread [(3, 0)]) :=
  ⟨_, .twi 16 3 0, by unfold trapHolds; decide, by unfold trapHolds; decide⟩

/-! ## Witnesses: interrupts and system -/

theorem witness_vectors : VectorTable (.machineCheck true) 0x200 ∧ VectorTable .thermal 0x1800 := ⟨.machineCheck true, .thermal⟩
theorem witness_hsrr : savesInHsrr State.reset.ppe .thermal = true ∧ savesInHsrr State.reset.ppe .external = false := by decide
/-- The bits of the saved image at the edges of what copies the MSR, and the information of a maintenance interrupt. -/
theorem witness_saved_bits : copiesMsr .thermal 32 = true ∧ copiesMsr .thermal 47 = false ∧ copiesMsr .maintenance 38 = true ∧
    copiesMsr .maintenance 39 = false ∧ copiesMsr (.machineCheck false) 62 = false ∧ copiesMsr (.machineCheck true) 62 = true ∧
    (∃ c, maintInfo c = 0x60000) ∧ ibit (0 : DWord) 63 = false :=
  ⟨by decide, by decide, by decide, by decide, by decide, by decide, ⟨3, by decide⟩, by decide⟩
/-- Thread 0 with a machine check that is due; with a thermal signal that it enables; with a maintenance interrupt of each form. -/
theorem witness_debug_interrupts :
    (let s := State.reset.modT 0 fun th => { th with mcheck := some 0 }
     ibit s.ppe.te (0 : Fin 2).val = true ∧ s.threads[(0 : Fin 2)].mcheck = some 0 ∧ ibit s.threads[(0 : Fin 2)].msr 51 = true) ∧
    (let s := inMode 0x8000000000009000
     let s := { s with ppe := { s.ppe with hid0 := 0x400000000 } }
     let s := (s.setPcell offTsIsr (1 <<< 63)).setPcell offTsImr (1 <<< 63)
     ibit s.threads[(0 : Fin 2)].msr 48 = true ∧ ibit s.ppe.hid0 29 = true ∧ s.thermalSignal = true) ∧
    (let s := State.reset.modT 0 fun th => { th with maintInstr := 8, maint := 1 }
     s.threads[(0 : Fin 2)].mcheck = none ∧ ibit s.ppe.hid0 29 = false ∧ s.threads[(0 : Fin 2)].sysErr = false ∧
       s.threads[(0 : Fin 2)].maintInstr ≠ 0 ∧ s.threads[(0 : Fin 2)].maint ≠ 0) := by decide +kernel
/-- Supervisor state without and with MSR[HV]; problem state. -/
theorem witness_modes : supervisorState State.reset.thr ∧ ibit State.reset.thr.msr 3 = true ∧
    supervisorState (inMode supervisorMsr).thr ∧ legalMsr (inMode supervisorMsr).thr.msr ∧
    legalMsr (inMode problemMsr).thr.msr ∧ ibit (inMode problemMsr).thr.msr 49 = true := by
  unfold supervisorState legalMsr; decide
theorem witness_privileged : Privileged .ppeRfid false ∧ lacksPrivilege (inMode problemMsr).thr false ∧
    Privileged .ppeHrfid true ∧ lacksPrivilege (inMode supervisorMsr).thr true :=
  ⟨.rfid, .inl rfl, .hrfid, .inr ⟨rfl, rfl⟩⟩
theorem witness_tlb_privilege : TlbManagement .ppeTlbsync ∧ ibit (inMode problemMsr).thr.msr 49 = true ∧
    ibit (inMode supervisorMsr).thr.msr 49 = false ∧ ibit (inMode supervisorMsr).thr.msr 3 = false := ⟨.tlbsync, by decide⟩
/-- No enabled floating-point exception is pending; one is. -/
theorem witness_pending : enabledFloatPending State.reset.thr = false ∧
    enabledFloatPending { State.reset.thr with msr := unitsOn ||| 0x800, fpscr := 0x40000000 } = true := by decide
theorem witness_msr : supervisorState State.reset.thr ∧ legalMsr State.reset.thr.msr := by
  unfold supervisorState legalMsr; decide
theorem witness_spr : PlainSpr 1 0 0xE000007F ∧ mayAccess (inMode problemMsr).thr 0 ∧
    PlainSpr 275 1 0xFFFFFFFFFFFFFFFF ∧ mayAccess (inMode supervisorMsr).thr 1 ∧ ¬mayAccess (inMode problemMsr).thr 1 ∧
    PlainSpr 1017 2 0xFFFFFFFFFFFFFFFF ∧ mayAccess State.reset.thr 2 ∧ ¬mayAccess (inMode supervisorMsr).thr 2 := by
  refine ⟨.xer, ?_, .sprg3, ?_, ?_, .hid6, ?_, ?_⟩ <;> (unfold mayAccess; decide)
/-- LPCR and the last address-range registers; priorities that a thread may and may not take; `mtspr` to CTRL that stops its thread. -/
theorem witness_special_writes : PlainSpr 318 2 0x3C000C0F ∧ PlainSpr 979 1 0xFFFFFFFFFFFFF003 ∧ PlainSpr 981 1 0x7 ∧
    priorityAllowed State.reset.ppe State.reset.thr 1 ∧ ¬priorityAllowed State.reset.ppe State.reset.thr 0 ∧
    ¬priorityAllowed State.reset.ppe (inMode problemMsr).thr 2 ∧ hypervisorState State.reset.thr ∧
    ¬(ibit State.reset.thr.msr 53 = true ∨ ibit State.reset.thr.msr 54 = true) ∧
    ibit ((regs []).thr.getGpr 3) (40 + (0 : Fin 2).val) = false := by
  refine ⟨.lpcr, .rangeBase 979 (by decide), .rangeClass 981 (by decide), ?_⟩
  unfold priorityAllowed hypervisorState
  decide
theorem witness_spr_none : sprWritePriv 0 = none ∧ sprWritePriv 1023 = none ∧ sprReadPriv 0 = none ∧ sprReadPriv 1022 = none := by decide
/-- A valid TLB entry for a large page (of the VPN, when `small` of a 4 KB page). -/
def tlbEntry (small : Bool) (vpn : BitVec 68) : TlbEntry := { TlbEntry.empty with v := true, l := !small, vpn := vpn }
def withTlb (l : List (Nat × TlbEntry)) (s : State) : State := { s with ppe := { s.ppe with tlb := l } }
/-- No large page is held, the sizes stay; one is held and they change. -/
theorem witness_large_pages : ¬holdsLarge State.reset ∧
    ibm ((regs []).thr.getGpr 3) 16 4 = largeSizes State.reset.ppe ∧
    (let s := withTlb [(0, tlbEntry false 0)] (regs [(3, 0x900000000000)])
     mayAccess s.thr 2 ∧ ibm (s.thr.getGpr 3) 16 4 ≠ largeSizes s.ppe ∧ holdsLarge s) := by
  refine ⟨?_, by decide, by unfold mayAccess; decide, by decide, .inl ⟨_, .head _, rfl, rfl⟩⟩
  have none (u : Fin 2) : State.reset.threads[u].erat = [] ∧ ∀ k : Fin 64, State.reset.threads[u].slb[k].v = false := by
    revert u; decide
  rintro (⟨x, hx, _⟩ | ⟨u, ⟨k, hk, _⟩ | ⟨x, hx, _⟩⟩)
  · nomatch hx
  · exact absurd (((none u).2 k).symm.trans hk) (by decide)
  · rw [(none u).1] at hx
    nomatch hx
/-- 4 KB pages; the large pages of both selectors; a reserved selector; both forms of `tlbiel`. -/
theorem witness_tlbie : hypervisorState State.reset.thr ∧ swf TlbEntry.empty State.reset.ppe.tlb = true ∧
    pageSizeIs (largeSizes State.reset.ppe) false false 12 ∧ pageSizeIs (largeSizes State.reset.ppe) true true 24 ∧
    pageSizeIs 0b1000 true false 16 ∧ (∀ bits, ¬pageSizeIs 0b0011 true true bits) ∧
    ibit (State.reset.thr.getGpr 3) 52 = false ∧ ibit ((regs [(3, 0x800)]).thr.getGpr 3) 52 = true := by
  refine ⟨by unfold hypervisorState; decide, by decide, by unfold pageSizeIs; decide, by unfold pageSizeIs; decide,
    by unfold pageSizeIs; decide, ?_, by decide, by decide⟩
  intro bits h
  have h' : (3, bits) ∈ [(0, 24), (1, 20), (2, 16)] := h
  simp at h'
/-- An entry of either kind at the lowest bit that is compared, one that RB does not name, one in the class of RB; an ERAT entry that
stays; an SPE of the partition. -/
theorem witness_tlb_entries :
    namesPage State.reset.ppe false 12 0x1000 (tlbEntry true 1) ∧ namesPage State.reset.ppe true 24 0x1000000 (tlbEntry false 0x1000) ∧
    ¬namesPage State.reset.ppe false 12 0x1000 (tlbEntry true 0) ∧ inClass State.reset.ppe 0x1000 (tlbEntry true 1) ∧
    ¬inClass State.reset.ppe 0x2000 (tlbEntry true 1) ∧
    (false = false ∧ ∃ b, 47 ≤ b ∧ b ≤ 51 ∧ ibit (0x1000 : DWord) b ≠ ibit (0 : DWord) b) ∧
    takesInvalidation State.reset.ppe { Spe.reset with sr1 := 2 } ∧ ¬takesInvalidation State.reset.ppe Spe.reset := by
  refine ⟨?_, ?_, ?_, ⟨12, by unfold pageSizeIs; decide, by decide⟩, ?_, ⟨rfl, 51, by decide⟩, ?_, ?_⟩
  · refine ⟨rfl, rfl, by unfold pageSizeIs; decide, rfl, fun b h1 h2 => ?_⟩
    have h (c : Fin 30) : ibit ((tlbEntry true 1).vpn ++ 0#12) (38 + c) = ibit (0x1000 : DWord) (38 + c - 16) := by
      revert c; decide
    simpa [show 38 + (b - 38) = b by omega] using h ⟨b - 38, by omega⟩
  · refine ⟨rfl, rfl, by unfold pageSizeIs; decide, rfl, fun b h1 h2 => ?_⟩
    have h (c : Fin 18) : ibit ((tlbEntry false 0x1000).vpn ++ 0#12) (38 + c) = ibit (0x1000000 : DWord) (38 + c - 16) := by
      revert c; decide
    simpa [show 38 + (b - 38) = b by omega] using h ⟨b - 38, by omega⟩
  · intro h
    exact absurd (h.2.2.2.2 67 (by decide) (by decide)) (by decide)
  · rintro ⟨bits, hb, h⟩
    have hb' : bits = 12 := hb
    subst hb'
    exact absurd (h 2 (by decide)) (by decide)
  · unfold takesInvalidation; decide
  · unfold takesInvalidation; decide
/-- A broadcast `tlbie` waits in SPE 0, whose entry it names. -/
theorem witness_snoop :
    let w : Snoop := ⟨0, false, 0x1000⟩
    let s := { State.reset.modN 0 fun p => { p with snoops := [w], tlb := [(4, tlbEntry true 0)] } with cur := .mfc 0 }
    hypervisorState s.thr ∧ (∀ n : Fin 8, swf TlbEntry.empty s.spes[n].tlb = true) ∧ s.spe.mfcMoves = [.snoop] ∧ s.spe.snoops = w :: [] ∧
      swf TlbEntry.empty s.spe.tlb = true ∧ namesSmmEntry s.spe w 4 (s.spe.tlbAt 4) ∧ ¬namesSmmEntry s.spe w 0 (s.spe.tlbAt 4) := by
  refine ⟨by unfold hypervisorState; decide, by decide, by rfl, rfl, by decide, ⟨12, by unfold pageSizeIs; decide, rfl,
    by unfold pageSizeIs; decide, by decide⟩, ?_⟩
  rintro ⟨bits, hb, _, _, h⟩
  have hb' : bits = 12 := hb
  subst hb'
  exact absurd h (by decide)


/-! ## Witnesses: storage (the thread is in real mode after reset) -/

/-- The page of a real address for a thread in real mode, for a load and for a store. -/
def realPg (s : State) (store : Bool) (ra : Nat) : Page := realPage s s.thr (if store then .store else .load) ra

/-- Caching-inhibited storage (LPCR[RMI]); HID4 with its data-cache ways on; canonical main storage. -/
def inhibitedState (l : List (BitVec 5 × DWord)) : State := (regs l).modT 0 fun th => { th with lpcrRmi := true }
def withHid4 (v : DWord) (s : State) : State := { s with ppe := { s.ppe with hid4 := v } }
def withReserve (g : Option Nat) (s : State) : State := s.modT 0 fun th => { th with reserve := g }
def withUnits (s : State) : State := s.modT 0 fun th => { th with msr := unitsOn }

/-- The last word of main storage. -/
theorem witness_fixed_loads : ∃ ea val, FixedLoad (.ppeLwzu 5 1 8) 5 (some 1) ea 4 .fixed val ∧ updateValid (some 1) (some 5) ∧
    let s := regs [(1, 0x7FFFFFFF4)]
    let p := realPg s false 0x7FFFFFFFC
    Ordinary s (s.thr.truncEa (ea s.thr)) 4 false p ∧ alignedFor .fixed s p (ea s.thr) 4 := by
  refine ⟨_, _, .lwzu 5 1 8, ?_, ?_, ?_⟩
  · intro r h; cases h; decide
  · constructor <;> first | decide | rfl
  · unfold alignedFor; decide
/-- An aligned load of caching-inhibited storage, at the end of a block. -/
theorem witness_inhibited_loads : ∃ ea val, FixedLoad (.ppeLd 5 1 0) 5 none ea 8 .fixed val ∧ updateValid none (some 5) ∧
    let s := inhibitedState [(1, 0xFF8)]
    let p := realPg s false 0xFF8
    inhibited s p = true ∧ Ordinary s (s.thr.truncEa (ea s.thr)) 8 false p ∧ alignedFor .fixed s p (ea s.thr) 8 := by
  refine ⟨_, _, .ld 5 1 0, ?_, rfl, ?_, ?_⟩
  · intro r h; cases h
  · constructor <;> first | decide | rfl
  · unfold alignedFor; decide
theorem witness_algebraic_loads : ∃ ea val, FixedLoad (.ppeLwaux 5 1 2) 5 (some 1) ea 4 .cached val ∧
    updateValid (some 1) (some 5) ∧
    let s := regs [(1, 0xFFC)]
    let p := realPg s false 0xFFC
    Ordinary s (s.thr.truncEa (ea s.thr)) 4 false p ∧ alignedFor .cached s p (ea s.thr) 4 := by
  refine ⟨_, _, .lwaux 5 1 2, ?_, ?_, ?_⟩
  · intro r h; cases h; decide
  · constructor <;> first | decide | rfl
  · unfold alignedFor; decide
theorem witness_fixed_stores : ∃ ea, FixedStore (.ppeStdu 5 1 0x3FFF) 5 (some 1) ea 8 false ∧ updateValid (some 1) none ∧
    let s := regs [(1, 0x1000)]
    let p := realPg s true 0xFFC
    Memory.wf s.mem = true ∧ s.cur = .ppe 0 ∧
      let s' := regs [(1, 0xFFC)]
      let p' := realPg s' true 0xFF8
      Ordinary s' (s'.thr.truncEa (ea s'.thr)) 8 true p' ∧ alignedFor .fixed s' p' (ea s'.thr) 8 ∧
      p'.ra / 128 = (p'.ra + 8 - 1) / 128 ∧ p.c = true := by
  refine ⟨_, .stdu 5 1 0x3FFF, ?_, rfl, rfl, ?_, ?_, rfl, rfl⟩
  · intro r h; cases h; decide
  · constructor <;> first | decide | rfl
  · unfold alignedFor; decide
/-- The last register, and two registers at the end of a block. -/
theorem witness_multiples :
    (let s := regs [(1, 0x1FFC)]
     (eaD 1 0 s.thr).toNat % 4 = 0 ∧ inhibited s (realPg s false 0x1FFC) = false ∧
       unforced s (eaD 1 0 s.thr) (4 * (32 - (31#5).toNat)) ∧ (1#5).toNat < (31#5).toNat ∧
       ∀ k, k < 32 - 31 → Ordinary s (s.thr.truncEa (eaD 1 0 s.thr + BitVec.ofNat 64 (4 * k))) 4 false
         { realPg s false 0x1FFC with ra := 0x1FFC + 4 * k }) ∧
    (let s := regs [(1, 0x1FF8)]
     Memory.wf s.mem = true ∧ unforced s (eaD 1 0 s.thr) (4 * (32 - (30#5).toNat)) ∧ ∀ k, k < 32 - 30 → Ordinary s (s.thr.truncEa (eaD 1 0 s.thr + BitVec.ofNat 64 (4 * k))) 4 true
       { realPg s true 0x1FF8 with ra := 0x1FF8 + 4 * k }) := by
  refine ⟨⟨by decide, by decide, fun _ => by decide, by decide, ?_⟩, by decide, fun _ => by decide, ?_⟩
  · intro k hk
    have h : k = 0 := by omega
    subst h
    constructor <;> first | decide | rfl
  · intro k hk
    have h : k = 0 ∨ k = 1 := by omega
    rcases h with h | h <;> subst h <;> (constructor <;> first | decide | rfl)
/-- A string of five bytes from register 31 round to register 0, to and from base register 1; the empty string. -/
theorem witness_strings :
    (let s := regs [(1, 0x1001)]
     inhibited s (realPg s false 0x1001) = false ∧ unforced s 0x1001 5 ∧ Memory.wf s.mem = true ∧
       (∀ k, k < 5 → BitVec.ofNat 5 (31 + k / 4) ≠ 1#5) ∧
       (∀ k, k < 5 → Ordinary s (s.thr.truncEa ((0x1001 : DWord) + BitVec.ofNat 64 k)) 1 false
         { realPg s false 0x1001 with ra := 0x1001 + k }) ∧
       ∀ k, k < 5 → Ordinary s (s.thr.truncEa ((0x1001 : DWord) + BitVec.ofNat 64 k)) 1 true
         { realPg s true 0x1001 with ra := 0x1001 + k }) ∧
    State.reset.thr.xer.toNat % 128 = 0 ∧ (3#5 ≠ 4#5 ∧ 3#5 ≠ 5#5) := by
  refine ⟨⟨by decide, fun _ => by decide, by decide, by decide, ?_, ?_⟩, by decide, by decide⟩
  all_goals
    intro k hk
    have h : k = 0 ∨ k = 1 ∨ k = 2 ∨ k = 3 ∨ k = 4 := by omega
    rcases h with h | h | h | h | h <;> subst h <;> (constructor <;> first | decide | rfl)
/-- A load multiple from register 31 on to base register 31, and one from 29 to 30; a string from register 31 that reaches its base
register 0 after one register, and one that reaches it at once. -/
theorem witness_collisions :
    (31#5).toNat - (31#5).toNat = 0 ∧
    (let s := regs [(30, 0x1FFC)]
     (29#5).toNat ≤ (30#5).toNat ∧ (eaD 30 0 s.thr).toNat % 4 = 0 ∧ inhibited s (realPg s false 0x1FFC) = false ∧
       unforced s (eaD 30 0 s.thr) (4 * (32 - (29#5).toNat)) ∧
       ∀ k, k < 30 - 29 → Ordinary s (s.thr.truncEa (eaD 30 0 s.thr + BitVec.ofNat 64 (4 * k))) 4 false
         { realPg s false 0x1FFC with ra := 0x1FFC + 4 * k }) ∧
    (let s := regs [(5, 0x1FFC)]
     inhibited s (realPg s false 0x1FFC) = false ∧ unforced s 0x1FFC (4 * 1) ∧ 1 < (5 + 3) / 4 ∧
       BitVec.ofNat 5 ((31#5).toNat + 1) = 0#5 ∧ BitVec.ofNat 5 ((31#5).toNat + 0) ≠ 0#5 ∧
       ∀ k, k < 4 * 1 → Ordinary s (s.thr.truncEa ((0x1FFC : DWord) + BitVec.ofNat 64 k)) 1 false
         { realPg s false 0x1FFC with ra := 0x1FFC + k }) := by
  refine ⟨by decide, ⟨by decide, by decide, by decide, ?_, ?_⟩, by decide, fun _ => by decide, by decide, by decide, by decide, ?_⟩
  · intro h; exact absurd h (by decide)
  · intro k hk
    have h : k = 0 := by omega
    subst h
    constructor <;> first | decide | rfl
  · intro k hk
    have h : k = 0 ∨ k = 1 ∨ k = 2 ∨ k = 3 := by omega
    rcases h with h | h | h | h <;> subst h <;> (constructor <;> first | decide | rfl)
/-- Reserved, on this granule and on another one, and not reserved. -/
theorem witness_reservations :
    (let s := withReserve (some 31) (regs [(4, 0xFF8)])
     let p := realPg s true 0xFF8
     Ordinary s (s.thr.truncEa (eaX 4 3 s.thr)) 8 true p ∧ alignedFor .strict s p (s.thr.truncEa (eaX 4 3 s.thr)) 8 ∧
       s.thr.reserve = some (p.ra / 128) ∧ Memory.wf s.mem = true) ∧
    (let s := withReserve none (regs [(4, 0xFFC)])
     let p := realPg s false 0xFFC
     Ordinary s (s.thr.truncEa (eaX 4 3 s.thr)) 4 false p ∧ alignedFor .strict s p (s.thr.truncEa (eaX 4 3 s.thr)) 4 ∧
       s.thr.reserve = none) ∧
    (let s := withReserve (some 32) (regs [(4, 0xFFC)])
     let p := realPg s true 0xFFC
     Ordinary s (s.thr.truncEa (eaX 4 3 s.thr)) 4 true p ∧ alignedFor .strict s p (s.thr.truncEa (eaX 4 3 s.thr)) 4 ∧
       s.thr.reserve = some 32 ∧ 32 ≠ p.ra / 128 ∧ Memory.wf s.mem = true) := by
  refine ⟨⟨?_, ?_, by decide, by decide⟩, ⟨?_, ?_, by decide⟩, ?_, ?_, by decide, by decide, by decide⟩
  all_goals first
    | (unfold alignedFor; decide)
    | (constructor <;> first | decide | rfl)
theorem witness_barriers : Barrier (.ppeSync 2) ∧ (2 : BitVec 2) ≠ 1 ∧ State.reset.thr.mcheck = none ∧ Touch (.ppeDcbt 8 0 3) ∧
    (let s := withHid4 0x0001000000000000 State.reset
     (ibit s.ppe.hid4 15 || ibit s.ppe.hid4 16 || s.ppe.tl) = true) := ⟨.sync 2, by decide, rfl, .dcbt 8 0 3, by decide⟩
/-- A machine check pending for `sync`, and for a move to the MSR; a form of `dcbt` that is ignored. -/
theorem witness_sync_takes_machine_check :
    (let s := State.reset.modT 0 fun th => { th with mcheck := some 0 }
     s.thr.mcheck.isSome = true ∧ ibit s.thr.msr 51 = true ∧ ibit s.thr.msr 49 = false) ∧
    ibit (0b1111 : BitVec 4) 0 = true ∧ (0b1111 : BitVec 4) ≠ 0b1000 ∧ (0b1111 : BitVec 4) ≠ 0b1010 := by decide
theorem witness_cache_blocks : CacheBlockOp (.ppeIcbi 0 3) 0 3 ∧
    (let s := regs [(3, 0xFFF)]
     Ordinary s (s.thr.truncEa (eaX 0 3 s.thr)) 1 false (realPg s false 0xFFF)) ∧
    (let s := withHid4 0x0010000000000000 (regs [(3, 0xFFF)])
     let p := realPg s true 0xF80
     Memory.wf s.mem = true ∧ ibm s.ppe.hid4 8 4 ≠ (0 : BitVec 4) ∧ inhibited s p = false ∧
       Ordinary s (s.thr.truncEa (eaX 0 3 s.thr) &&& ~~~127#64) 128 true p) := by
  refine ⟨.icbi 0 3, ?_, by decide, by decide, by decide, ?_⟩
  all_goals constructor <;> first | decide | rfl
/-- An invalid form of every kind; `attn` disabled and enabled. -/
theorem witness_invalid_forms : ibit (16#5) 2 = false ∧ (∃ ea val, FixedLoad (.ppeLwzu 3 3 4) 3 (some 3) ea 4 .fixed val) ∧
    (∃ ea, FixedStore (.ppeStwu 3 0 4) 3 (some 0) ea 4 false) ∧ (∃ ea, FloatLoad (.ppeLfsu 3 0 4) 3 (some 0) ea true) ∧
    (∃ ea, FloatStore (.ppeStfdu 3 0 4) 3 (some 0) ea 8) ∧ (∃ ea, SingleStore (.ppeStfsu 3 0 4) 3 (some 0) ea) ∧
    ibit (inMode unitsOn).thr.msr 50 = true ∧ ibit State.reset.ppe.hid0 31 = false ∧ ibit (0x100000000 : DWord) 31 = true :=
  ⟨by decide, ⟨_, _, .lwzu 3 3 4⟩, ⟨_, .stwu 3 0 4⟩, ⟨_, .lfsu 3 0 4⟩, ⟨_, .stfdu 3 0 4⟩, ⟨_, .stfsu 3 0 4⟩, by decide, by decide,
    by decide⟩

/-! ## Witnesses: floating point and vectors -/

/-- The machine after reset with both units on and some floating-point registers of thread 0. -/
def fregs (l : List (BitVec 5 × DWord)) : State :=
  (inMode unitsOn).modT 0 fun th => l.foldl (fun th x => th.setFpr x.1 x.2) th

/-- Operands with a signalling NaN second, the first not a NaN; the enables are off. -/
theorem witness_float_arithmetic : ∃ ops cause, FloatArith (.ppeFadds 1 2 3 true) 1 true true ops cause ∧
    let s := fregs [(3, 0x7FF0000020000000)]
    ibit s.thr.msr 50 = true ∧ ibit s.thr.fpscr 24 = false ∧ ops s.thr = [0, 0x7FF0000020000000] :=
  ⟨_, _, .fadds 1 2 3 true, by decide, by decide, rfl⟩
/-- Operands for each of the bits ZX, VXISI, VXIDI, VXZDZ, VXIMZ, VXSQRT; a product of them that has two. -/
theorem witness_float_causes :
    let inf : DWord := 0x7FF0000000000000
    quotientCause [1, 0x8000000000000000] 5 = true ∧ sumCause true [inf, inf] 8 = true ∧ quotientCause [inf, inf] 9 = true ∧
      quotientCause [0, 0] 10 = true ∧ productCause [0, inf] 11 = true ∧ rootCause [0x8000000000000001] 22 = true ∧
      fusedCause false [inf, 0xFFF0000000000000, 1] 8 = true ∧ fusedCause false [inf, inf, 1] 8 = false := by decide +kernel
/-- A sum that overflows, toward zero only at the next power of two; the smallest denormal, which is tiny. -/
theorem witness_float_overflow : overflows 0 false 1 (2^2098 - 2^2044) = true ∧ overflows 0 false 1 (2^2098 - 2^2044 - 1) = false ∧
    overflows 1 false 1 (2^2098 - 1) = false ∧ overflows 2 true 1 (2^1202) = true ∧ tinyValue true 1 (2^948 - 1) = true ∧
    tinyValue false 1 0 = false := by decide +kernel
theorem witness_float_operands : fitsSingle 0 = true ∧ fitsSingle 0x7FF0000020000000 = true ∧
    [(0 : DWord), 0x7FF0000020000000] = [0] ++ 0x7FF0000020000000 :: [] ∧ isNan f64 (0 : DWord).toNat = false ∧
    isNan f64 (0x7FF0000020000000 : DWord).toNat = true := ⟨rfl, rfl, rfl, by decide +kernel, by decide +kernel⟩
/-- The largest double and the smallest denormal. -/
theorem witness_rounded : ∃ valid k x, RoundedOp (.ppeFnmsub 1 2 3 4 true) 1 false true valid k x ∧
    let s := fregs [(2, 0x7FEFFFFFFFFFFFFF), (3, 1), (4, 0x8000000000000001)]
    ibit s.thr.msr 50 = true ∧ valid s.thr ∧ ibit s.thr.fpscr 25 = false ∧ ibit s.thr.fpscr 26 = false := by
  have h := RoundedOp.fnmsub 1 2 3 4 true
  refine ⟨_, _, _, h, by decide, ?_, by decide, by decide⟩
  unfold finiteDouble
  decide +kernel
/-- The largest single as a double. -/
theorem witness_rounded_single : ∃ valid k x, RoundedOp (.ppeFsubs 1 2 3 false) 1 true false valid k x ∧
    valid (fregs [(2, 0x47EFFFFFE0000000)]).thr := by
  refine ⟨_, _, _, .fsubs 1 2 3 false, ⟨by unfold finiteDouble; decide +kernel, 0x7F7FFFFF, by unfold finiteSingle; decide, by decide +kernel⟩,
    by unfold finiteDouble; decide +kernel, 0, by unfold finiteSingle; decide, by decide +kernel⟩
/-- A divide by the smallest denormal; a divide of the largest single by itself. -/
theorem witness_rounded_divide : (∃ valid k x, RoundedOp (.ppeFdiv 1 2 3 false) 1 false false valid k x ∧
      valid (fregs [(2, 0x7FEFFFFFFFFFFFFF), (3, 1)]).thr) ∧
    ∃ valid k x, RoundedOp (.ppeFdivs 1 2 2 false) 1 true false valid k x ∧ valid (fregs [(2, 0x47EFFFFFE0000000)]).thr := by
  refine ⟨⟨_, _, _, .fdiv 1 2 3 false, by unfold finiteDouble; decide +kernel⟩, _, _, _, .fdivs 1 2 2 false, ?_, ?_, by decide +kernel⟩
  all_goals exact ⟨by unfold finiteDouble; decide +kernel, 0x7F7FFFFF, by unfold finiteSingle; decide, by decide +kernel⟩
/-- The square roots of the largest numbers, and of zero. -/
theorem witness_roots : FloatRoot (.ppeFsqrt 1 2 false) 1 2 false ∧ FloatRoot (.ppeFsqrts 1 2 true) 1 2 true ∧
    (let s := fregs [(2, 0x47EFFFFFE0000000), (3, 0x7FEFFFFFFFFFFFFF)]
     ibit s.thr.fpscr 29 = false ∧ isSingle (s.thr.getFpr 2) ∧ 0 ≤ scaled (s.thr.getFpr 2) ∧
       finiteDouble (s.thr.getFpr 3) ∧ 0 ≤ scaled (s.thr.getFpr 3) ∧ 0 ≤ scaled (s.thr.getFpr 4)) :=
  ⟨.fsqrt 1 2 false, .fsqrts 1 2 true, by decide, ⟨by unfold finiteDouble; decide +kernel, 0x7F7FFFFF, by unfold finiteSingle; decide,
    by decide +kernel⟩, by decide +kernel, by unfold finiteDouble; decide +kernel, by decide +kernel, by decide +kernel⟩
/-- The ends of the range of the reciprocal estimate, the smallest operand of the root, a zero and an infinity. -/
theorem witness_estimates : (isSingle 0x3810000000000000 ∧ 2^948 ≤ (scaled 0x3810000000000000).natAbs) ∧
    (isSingle 0x47D0000000000000 ∧ (scaled 0x47D0000000000000).natAbs ≤ 2^1200) ∧ (finiteDouble 1 ∧ 0 < scaled 1) ∧
    (finiteDouble 0x8000000000000000 ∧ scaled 0x8000000000000000 = 0 ∧ ibit (fregs []).thr.fpscr 27 = false) ∧
    (0xFFF0000000000000 : DWord).toNat % 2^63 = 0x7FF0000000000000 := by
  refine ⟨⟨⟨?_, 0x00800000, ?_, ?_⟩, ?_⟩, ⟨⟨?_, 0x7E800000, ?_, ?_⟩, ?_⟩, ⟨?_, ?_⟩, ⟨?_, ?_, ?_⟩, ?_⟩ <;>
    first | decide +kernel | (unfold finiteDouble; decide +kernel) | (unfold finiteSingle; decide)
theorem witness_to_integer : FloatToInt (.ppeFctiw 1 2 true) 1 2 true 32 false ∧ ibit (inMode unitsOn).thr.msr 50 = true ∧
    ibit (inMode unitsOn).thr.fpscr 24 = false ∧ isNan f64 (0xFFFFFFFFFFFFFFFF : DWord).toNat = true ∧
    finiteDouble 0x7FEFFFFFFFFFFFFF ∧ IntegerNear 0 (2^1073) 0 := by
  refine ⟨.fctiw 1 2 true, by decide, by decide, by decide, ?_, ?_⟩
  · unfold finiteDouble; decide
  · exact ⟨by decide +kernel, fun _ => by decide⟩
theorem witness_float_moves : (∃ v, FloatMove (.ppeFsel 1 2 3 4 true) 1 true v) ∧ (∃ f, FpscrWrite (.ppeMtfsb1 31 true) true f) ∧
    ibit (inMode unitsOn).thr.msr 50 = true := ⟨⟨_, .fsel 1 2 3 4 true⟩, ⟨_, .mtfsb1 31 true⟩, by decide⟩
theorem witness_float_loads : ∃ ea, FloatLoad (.ppeLfsu 1 4 4) 1 (some 4) ea true ∧ updateValid (some 4) none ∧
    let s := withUnits (regs [(4, 0xFF8)])
    let p := realPg s false 0xFFC
    ibit s.thr.msr 50 = true ∧ Ordinary s (s.thr.truncEa (ea s.thr)) 4 false p ∧
      alignedFor .float s p (s.thr.truncEa (ea s.thr)) 4 := by
  refine ⟨_, .lfsu 1 4 4, ?_, by decide, ?_, ?_⟩
  · intro r h; cases h; decide
  · constructor <;> first | decide | rfl
  · unfold alignedFor; decide
/-- The images of a loaded word: the largest single, and an infinity. -/
theorem witness_loaded_words : finiteSingle 0x7F7FFFFF ∧ ¬finiteSingle 0x7F800000 := by unfold finiteSingle; decide
theorem witness_float_stores : (∃ ea, FloatStore (.ppeStfdu 1 4 0xFFF8) 1 (some 4) ea 8 ∧ updateValid (some 4) none ∧
    let s := withUnits (regs [(4, 0x1000)])
    let p := realPg s true 0xFF8
    ibit s.thr.msr 50 = true ∧ Memory.wf s.mem = true ∧ Ordinary s (s.thr.truncEa (ea s.thr)) 8 true p ∧
      alignedFor .float s p (s.thr.truncEa (ea s.thr)) 8) ∧
    ∃ ea, SingleStore (.ppeStfs 1 4 0) 1 none ea ∧
      let s := withUnits (regs [(4, 0xFFC)])
      let p := realPg s true 0xFFC
      Ordinary s (s.thr.truncEa (ea s.thr)) 4 true p ∧ alignedFor .float s p (s.thr.truncEa (ea s.thr)) 4 ∧
        finiteDouble (s.thr.getFpr 1) ∧ finiteSingle 0 ∧ scaledSingle 0 = scaled (s.thr.getFpr 1) ∧
        ibit (0 : Word) 0 = ibit (s.thr.getFpr 1) 0 := by
  refine ⟨⟨_, .stfdu 1 4 0xFFF8, ?_, by decide, by decide, ?_, ?_⟩, _, .stfs 1 4 0, ?_, ?_, ?_, ?_, by decide +kernel, by decide⟩
  · intro r h; cases h; decide
  · constructor <;> first | decide | rfl
  · unfold alignedFor; decide
  · constructor <;> first | decide | rfl
  · unfold alignedFor; decide
  · unfold finiteDouble; decide
  · unfold finiteSingle; decide
/-- An infinity and its word. -/
theorem witness_stored_infinity : ¬finiteDouble 0xFFF0000000000000 ∧
    (0xFF800000 : Word) = ibm (0xFFF0000000000000 : DWord) 0 2 ++ ibm (0xFFF0000000000000 : DWord) 5 30 := by
  unfold finiteDouble; decide
theorem witness_unavailable : UsesFloat (.ppeMffs 0 true) ∧ ibit State.reset.thr.msr 50 = false ∧ UsesVectors (.ppeDssall) ∧
    ibit State.reset.thr.msr 38 = false := ⟨.mffs 0 true, by decide, .stream _ .dssall, by decide⟩
/-! Data accesses that cannot be performed (O29): one witness for each clause, at a boundary where it has one. -/

/-- Translation on; one segment of key `ks`; the page of x'2000' in the TLB with a second doubleword of its own; TL. -/
def paged (tl ks : Bool) (pte1 : DWord) (l : List (BitVec 5 × DWord)) : State :=
  let s := (regs l).modT 0 fun th =>
    { th with msr := supervisorMsr ||| 0x10, slb := th.slb.set 0 { SlbEntry.empty with v := true, ks := ks } }
  { s with ppe := { s.ppe with tl := tl, tlb := [(8, { tlbEntry true 2 with pte1 := pte1 })] } }
/-- The page that `paged` holds. -/
def pagedPg (s : State) (ks : Bool) (pte1 ea : DWord) : Page :=
  pageOf { tlbEntry true 2 with pte1 := pte1 } { SlbEntry.empty with v := true, ks := ks } ea 12 3 (some 8) none

theorem witness_data_access : DataAccess (.ppeLd 5 1 0) (eaDs 1 0) 8 false .fixed ∧ DataAccess (.ppeStd 5 1 0) (eaDs 1 0) 8 true .fixed ∧
    DataAccess (.ppeLfd 5 1 0) (eaD 1 0) 8 false .float ∧ ibit (withUnits (regs [(1, 0xFF6)])).thr.msr 50 = true := by
  refine ⟨.load (.ld 5 1 0) ?_, .store (.std 5 1 0) ?_, .floatLoad (.lfd 5 1 0) ?_, by decide⟩ <;> (intro r h; cases h)
/-- The last doubleword of a block. -/
theorem witness_data_breakpoint :
    let s := (regs [(1, 0xFF8)]).modT 0 fun th => { th with dabr := 0xFFA, dabrx := 4 }
    let a := s.thr.truncEa (eaDs 1 0 s.thr)
    dabrMatch s.thr a 8 true = true ∧ a.toNat % 32 + 8 ≤ 32 ∧ a.toNat % 4096 + 8 ≤ 4096 ∧ ¬twoWords true .fixed a 8 := by
  unfold twoWords; decide
/-- A doubleword of the floating-point unit in two words: the breakpoint on the first, and on the second. -/
theorem witness_data_two_words :
    (let s := (withUnits (regs [(1, 0xFE4)])).modT 0 fun th => { th with dabr := 0xFE2, dabrx := 4 }
     let a := s.thr.truncEa (eaD 1 0 s.thr)
     twoWords true .float a 8 ∧ dabrMatch s.thr a 8 true = true ∧ dabrMatch s.thr a 4 true = true) ∧
    (let s := (withUnits (regs [(1, 0xFE4)])).modT 0 fun th => { th with dabr := 0xFEA, dabrx := 4 }
     let a := s.thr.truncEa (eaD 1 0 s.thr)
     twoWords true .float a 8 ∧ dabrMatch s.thr a 8 true = true ∧ Memory.wf s.mem = true ∧
       Ordinary s a 4 true (realPg s true 0xFE4) ∧ alignedFor .float s (realPg s true 0xFE4) a 8 ∧
       FloatStore (.ppeStfd 5 1 0) 5 none (eaD 1 0) 8) := by
  refine ⟨?_, ?_, by decide, by decide, ⟨by decide, rfl, by decide, by decide, by decide, rfl⟩, ?_, .stfd 5 1 0⟩
  · unfold twoWords; decide
  · unfold twoWords; decide
  · unfold alignedFor; decide
theorem witness_data_misplaced :
    (let s := withUnits (regs [(1, 0xFF6)])
     let a := s.thr.truncEa (eaD 1 0 s.thr)
     dabrMatch s.thr a 8 false = false ∧ misplaced .float a 8) ∧
    (let s := regs [(4, 0xFFA)]
     let a := s.thr.truncEa (eaX 0 4 s.thr)
     dabrMatch s.thr a 4 true = false ∧ misplaced .strict a 4) := by unfold misplaced; decide
/-- LPES = '00', and the first address past the limit of RMLS. -/
theorem witness_data_real_violation :
    (let s := (regs [(1, 0xFF8)]).modT 0 fun th => { th with msr := supervisorMsr }
     s.thr.erat = [] ∧ ibit s.thr.msr 59 = false ∧ ibit s.thr.msr 3 = false ∧ ibit s.ppe.lpes 1 = false) ∧
    (let s := (regs [(1, 0x100000)]).modT 0 fun th => { th with msr := supervisorMsr }
     let s : State := { s with ppe := { s.ppe with lpes := 1, rmls := 11 } }
     rmlsLimit s.ppe.rmls ≤ (s.thr.truncEa (eaDs 1 0 s.thr)).toNat ∧ ¬misplaced .fixed (s.thr.truncEa (eaDs 1 0 s.thr)) 8) := by
  unfold misplaced; decide
/-- Outside the one segment, and in it on a page that the TLB does not hold. -/
theorem witness_data_untranslated :
    (let s := paged true false 0 [(1, 0x10000000)]
     s.thr.erat = [] ∧ ibit s.thr.msr 59 = true ∧ noSegment s.thr (s.thr.truncEa (eaDs 1 0 s.thr))) ∧
    (let s := paged true false 0 [(1, 0x1FF8)]
     noPage s (s.thr.truncEa (eaDs 1 0 s.thr))) :=
  ⟨by unfold noSegment; decide, ⟨{ SlbEntry.empty with v := true }, 12, by decide, by decide, by decide, .inl rfl⟩⟩
/-- A store with C = 0 in the software-managed mode; a misaligned load of caching-inhibited storage. -/
theorem witness_data_unchanged :
    (let s := paged true false 0x3002 [(1, 0x2FF8)]
     let a := s.thr.truncEa (eaDs 1 0 s.thr)
     let p := pagedPg s false 0x3002 a
     lookup s s.curT a .store = .page p s ∧ p.c = false ∧ s.ppe.tl = true) ∧
    (let s := paged true false 0x3022 [(1, 0x2FF4)]
     let a := s.thr.truncEa (eaDs 1 0 s.thr)
     let p := pagedPg s false 0x3022 a
     lookup s s.curT a .load = .page p s ∧ inhibited s p = true ∧ ¬alignedFor .fixed s p a 8) := by
  refine ⟨⟨rfl, by decide, by decide⟩, rfl, by decide, ?_⟩
  unfold alignedFor; decide
/-- Nothing to search for is no entry with R = 0. -/
theorem referenced_unlisted {s : State} {p : Page} {a : DWord}
    (h : (match s.pteOfPage s.curT p a with | .found .. => false | _ => true) = true) : referenced s p a := by
  intro b d0 d1 e
  rw [e] at h
  cases h
/-- Protection: a load with key 1 and PP = '00', a misaligned store with C = 0 to caching-inhibited read-only storage; and a misaligned
store with C = 0 that is allowed. -/
theorem witness_data_protected :
    (let s := paged true true 0x3000 [(1, 0x2000)]
     let a := s.thr.truncEa (eaDs 1 0 s.thr)
     let p := pagedPg s true 0x3000 a
     lookup s s.curT a .load = .page p s ∧ permits s.thr.pr p false = false ∧ alignedFor .fixed s p a 8) ∧
    (let s := paged false false 0x3023 [(1, 0x2004)]
     let a := s.thr.truncEa (eaDs 1 0 s.thr)
     let p := pagedPg s false 0x3023 a
     lookup s s.curT a .store = .page p s ∧ permits s.thr.pr p true = false ∧ s.ppe.tl = false ∧ inhibited s p = true ∧
       ¬alignedFor .fixed s p a 8 ∧ p.c = false) ∧
    (let s := paged false false 0x3022 [(1, 0x2004)]
     let a := s.thr.truncEa (eaDs 1 0 s.thr)
     let p := pagedPg s false 0x3022 a
     lookup s s.curT a .store = .page p s ∧ permits s.thr.pr p true = true ∧ inhibited s p = true ∧ ¬alignedFor .fixed s p a 8 ∧
       p.c = false ∧ s.ppe.tl = false ∧ Memory.wf s.mem = true ∧ referenced s p a) := by
  refine ⟨⟨rfl, by decide, ?_⟩, ⟨rfl, by decide, by decide, by decide, ?_, by decide⟩,
    rfl, by decide, by decide, ?_, by decide, by decide, by decide, ?_⟩
  rotate_right
  · exact referenced_unlisted (by decide +kernel)
  all_goals (unfold alignedFor; decide)
/-- Left and right accesses of the vector unit to caching-inhibited storage. -/
theorem witness_vector_inhibited :
    let s := withUnits (inhibitedState [(4, 0xFFF)])
    let ea := s.thr.truncEa (eaX 0 4 s.thr)
    VectorLoad (.ppeLvlx 1 0 4) 1 0 4 .left ∧ VectorStore (.ppeStvrx 1 0 4) 1 0 4 .right ∧ ibit s.thr.msr 38 = true ∧
      (VectorPart.left.len ea = 1 ∧ dabrMatch s.thr (VectorPart.left.base ea) 1 false = false ∧
        lookup s s.curT (VectorPart.left.base ea) .load = .page (realPg s false 0xFFF) s ∧ inhibited s (realPg s false 0xFFF) = true) ∧
      VectorPart.right.len ea = 15 ∧ dabrMatch s.thr (VectorPart.right.base ea) 15 true = false ∧
        lookup s s.curT (VectorPart.right.base ea) .store = .page (realPg s true 0xFF0) s ∧ inhibited s (realPg s true 0xFF0) = true ∧
        (realPg s true 0xFF0).c = true :=
  ⟨.lvlx 1 0 4, .stvrx 1 0 4, by decide, ⟨by decide, by decide, rfl, by decide⟩, by decide, by decide, rfl, by decide, by decide⟩
theorem witness_vectors_wrap : (∃ f, VmxPlain (.ppeVperm 1 2 3 1) 1 8 16 f) ∧ ibit (inMode unitsOn).thr.msr 38 = true ∧
    (∀ k, k < 16 → element 8 ((inMode unitsOn).thr.getVr 3) k % 8 = ((inMode unitsOn).thr.getVr 3).toNat % 8) ∧
    DataStream (.ppeDst 3 0 31) := ⟨⟨_, .vperm 1 2 3 1⟩, by decide, by decide, .dst 3 0 31⟩
theorem witness_vectors_saturate : ∃ f, VmxSaturating (.ppeVsum2sws 1 1 1) 1 32 4 true f := ⟨_, .vsum2sws 1 1 1⟩
theorem witness_vectors_compare : (∃ f, VmxCompare (.ppeVcmpgtsb 1 1 2 true) 1 true 8 16 f) ∧
    (∃ f, VmxOrder (.ppeVcmpgefp 1 1 2 true) 1 1 2 true f) ∧ ibit (inMode unitsOn).ppe.hid1 13 = false ∧
    ibit (inMode unitsOn).thr.vscr 15 = false := ⟨⟨_, .vcmpgtsb 1 1 2 true⟩, ⟨_, .ge 1 1 2 true⟩, by decide, by decide⟩
/-- The machine after reset with the units on and some vector registers of thread 0. -/
def vregs (l : List (BitVec 5 × QWord)) : State :=
  (inMode unitsOn).modT 0 fun th => l.foldl (fun th x => th.setVr x.1 x.2) th
theorem witness_vector_nan : VmxFloat (.ppeVmaddfp 1 2 3 4) 1 [2, 3, 4] 0 0 ∧
    let s := vregs [(3, 0x7F8000010000000000000000FFFFFFFF)]
    ibit s.thr.msr 38 = true ∧ ibit s.ppe.hid1 13 = false ∧ [(2 : BitVec 5), 3, 4] = [2] ++ 3 :: [4] ∧
      (∀ q ∈ [(2 : BitVec 5)], isNan f32 (element 32 (s.thr.getVr q) 0) = false ∧ isNan f32 (element 32 (s.thr.getVr q) 3) = false) ∧
      isNan f32 (element 32 (s.thr.getVr 3) 0) = true ∧ isNan f32 (element 32 (s.thr.getVr 3) 3) = true :=
  ⟨.vmaddfp 1 2 3 4, by decide⟩
theorem witness_vector_rounds : let s := vregs [(2, 0x7F7FFFFF000000010000000000000000)]
    ibit s.thr.msr 38 = true ∧ ibit s.ppe.hid1 13 = false ∧ ibit s.thr.vscr 15 = false ∧
      ∀ k, k < 4 → finiteSingle (BitVec.ofNat 32 (element 32 (s.thr.getVr 2) k)) := by unfold finiteSingle; decide
/-- Numbers of either sign and an infinity; an operand of the reciprocal estimate and of the root. -/
theorem witness_vector_numbers : isNan f32 (element 32 0x800000007F8000000000000000000000 0) = false ∧
    (element 32 0x800000007F8000000000000000000000 1) % 2^31 = 0x7F800000 ∧
    (finiteSingle 0x00800000 ∧ 2^948 ≤ (scaledSingle 0x00800000).natAbs ∧ (scaledSingle 0x00800000).natAbs ≤ 2^1200) ∧
    (finiteSingle 1 ∧ 0 < scaledSingle 1) := by unfold finiteSingle; decide +kernel
/-- A quadword, the last byte of a block, one byte to the end of its quadword, fifteen below an address, none at all. -/
theorem witness_vector_accesses :
    VectorLoad (.ppeLvx 1 0 4) 1 0 4 .quad ∧ VectorLoad (.ppeLvebx 1 0 4) 1 0 4 (.element 1) ∧
    VectorLoad (.ppeLvlx 1 0 4) 1 0 4 .left ∧ VectorStore (.ppeStvrx 1 0 4) 1 0 4 .right ∧
    (let s := withUnits (regs [(4, 0xFFF)])
     let ea := s.thr.truncEa (eaX 0 4 s.thr)
     ibit s.thr.msr 38 = true ∧ Memory.wf s.mem = true ∧
       (0 < VectorPart.quad.len ea ∧ Ordinary s (VectorPart.quad.base ea) (VectorPart.quad.len ea) false (realPg s false 0xFF0)) ∧
       ((VectorPart.element 1).len ea = 1 ∧
         Ordinary s ((VectorPart.element 1).base ea) 1 false (realPg s false 0xFFF)) ∧
       (VectorPart.left.len ea = 1 ∧ Ordinary s (VectorPart.left.base ea) 1 false (realPg s false 0xFFF) ∧
         alignedFor .vectorPart s (realPg s false 0xFFF) (VectorPart.left.base ea) 1) ∧
       VectorPart.right.len ea = 15 ∧ Ordinary s (VectorPart.right.base ea) 15 true (realPg s true 0xFF0) ∧
         alignedFor .vectorPart s (realPg s true 0xFF0) (VectorPart.right.base ea) 15) ∧
    (let s := withUnits (regs [(4, 0x1000)])
     (s.thr.truncEa (eaX 0 4 s.thr)).toNat % 16 = 0) := by
  refine ⟨.lvx 1 0 4, .lvebx 1 0 4, .lvlx 1 0 4, .stvrx 1 0 4, ⟨by decide, by decide, ⟨by decide, ?_⟩, ⟨by decide, ?_⟩,
    ⟨by decide, ?_, ?_⟩, by decide, ?_, ?_⟩, by decide⟩
  all_goals first
    | (unfold alignedFor; decide)
    | (constructor <;> first | decide | rfl)

/-! ## Witnesses: the SPU -/

/-- The machine after reset, SPU 0 moving, with a change to it. -/
def spu (f : Spe → Spe) : State := { State.reset.modN 0 f with cur := .spu 0 }

theorem witness_spu_plain : (∃ f, SpuPlain (.spuRotqmbybi 3 3 3) 3 128 1 f) ∧ SpuQuiet (.spuMtspr 1 2) :=
  ⟨⟨_, .rotqmbybi 3 3 3⟩, .mtspr 1 2⟩
/-- Both processors. -/
theorem witness_spu_float : SpuFloat (.spuDftsv 3 4 127) (some 3) 0 true ∧ (spu id).cfg.chip = .powerXCell8i ∧
    let s : State := { spu id with cfg := { ChipConfig.standard with chip := .cellBe } }
    s.cfg.chip ≠ .powerXCell8i ∧ ibit (sget 0 s.spe.cells keySpuErrMask) 63 = false := ⟨.dftsv 3 4 127, by decide⟩
/-- The scale factors at the ends of their ranges. -/
theorem witness_spu_scales : (∃ valid k x, SpuSingle (.spuCsflt 3 4 28) 3 valid k x ∧ valid) ∧
    (∃ valid k x, SpuSingle (.spuCuflt 3 4 155) 3 valid k x ∧ valid) ∧ (∃ k x, SpuSingle (.spuFa 3 4 5) 3 True k x) ∧
    46 ≤ (46#8).toNat ∧ (173#8).toNat ≤ 173 :=
  ⟨⟨_, _, _, .csflt 3 4 28, by decide⟩, ⟨_, _, _, .cuflt 3 4 155, by decide⟩, ⟨_, _, .fa 3 4 5⟩, by decide⟩
theorem witness_spu_double : ∃ k x, SpuDouble (.spuDfma 3 4 5) 3 [4, 5, 3] false k x ∧
    let s := spu fun p => p.set 4 0x7FEFFFFFFFFFFFFF0000000000000001
    ∀ r ∈ [(4 : BitVec 7), 5, 3], finiteDouble (sD r 0 s.spe) ∧ finiteDouble (sD r 1 s.spe) := by
  have h := SpuDouble.dfma 3 4 5
  refine ⟨_, _, h, ?_⟩
  unfold finiteDouble
  decide +kernel
/-- The operands of the double compares, and of `dftsv`, on the PowerXCell 8i. -/
theorem witness_spu_double_compares : (∃ rel, SpuDoubleCompare (.spuDfcmgt 3 4 5) 3 4 5 rel) ∧ (spu id).cfg.chip = .powerXCell8i :=
  ⟨⟨_, .dfcmgt 3 4 5⟩, rfl⟩
/-- Operands of `fesd` and `frds`: a NaN, an infinity, a number; too large, too small, the smallest and the largest that round to a number. -/
theorem witness_spu_formats : isNan f32 (0x7FFFFFFF : Word).toNat = true ∧ (0xFF800000 : Word).toNat % 2^31 = 0x7F800000 ∧
    finiteSingle 0x7F7FFFFF ∧ isNan f64 (0x7FF8000000000000 : DWord).toNat = true ∧
    (finiteDouble 0x47F0000000000000 ∧ isNan f64 (0x47F0000000000000 : DWord).toNat = false ∧
      2^1202 ≤ (scaled 0x47F0000000000000).natAbs) ∧
    (finiteDouble 0x380FFFFFFFFFFFFF ∧ (scaled 0x380FFFFFFFFFFFFF).natAbs < 2^948) ∧
    (finiteDouble 0x3810000000000000 ∧ 2^948 ≤ (scaled 0x3810000000000000).natAbs) ∧
    (finiteDouble 0x47EFFFFFE0000000 ∧ (scaled 0x47EFFFFFE0000000).natAbs ≤ (2^24 - 1) * 2^1178) := by
  unfold finiteDouble finiteSingle
  decide +kernel
/-- `fi` of an operand and either of its tokens: a number at the end of the range, a zero. -/
theorem witness_interpolation :
    (∀ a : Word, let s := spu fun p => (p.set 4 (a ++ 0#96)).set 5 (Config.frestTok a ++ 0#96)
      sW 4 0 s.spe = a ∧ sW 5 0 s.spe = Config.frestTok a) ∧
    (∀ a : Word, let s := spu fun p => (p.set 4 (a ++ 0#96)).set 5 (rsqrtTok a ++ 0#96)
      sW 4 0 s.spe = a ∧ sW 5 0 s.spe = rsqrtTok a) ∧
    extended 0x007FFFFF = 0 ∧ extended 0x7E800000 ≠ 0 ∧ (extended 0x7E800000).natAbs ≤ 2^275 := by
  have first (a : Word) : BitVec.ofNat 32 (element 32 (a ++ 0#96) 0) = a := by
    apply BitVec.eq_of_toNat_eq
    have e : (a ++ 0#96).toNat = a.toNat * 2^96 := by rw [BitVec.toNat_append, Nat.shiftLeft_eq]; exact Nat.or_zero _
    have := a.isLt
    simp only [element, e, BitVec.toNat_ofNat]
    omega
  refine ⟨fun a => ⟨first a, first _⟩, fun a => ⟨first a, first _⟩, by decide +kernel, by decide +kernel, by decide +kernel⟩
theorem witness_local_storage : (∃ ea, SpuAccess (.spuLqd 3 4 0x200) 3 false ea) ∧ (∃ ea, SpuAccess (.spuStqa 3 0xFFFF) 3 true ea) ∧
    Memory.wf (spu id).spe.ls = true := ⟨⟨_, .lqd 3 4 0x200⟩, ⟨_, .stqa 3 0xFFFF⟩, by decide⟩
/-- Taken and not taken, with and without link and feature bits. -/
theorem witness_spu_branches : (∃ taken target, SpuBranch (.spuBisled 3 4 true false) taken target (some 3) true false ∧
      taken (spu fun p => { p with cnt := p.cnt.set 0 1 }).spe = true ∧ taken (spu id).spe = false) ∧
    (∃ taken target, SpuBranch (.spuBi 4 true true) taken target none true true) ∧ (spu id).spe.srr0Old = none :=
  ⟨⟨_, _, .bisled 3 4 true false, by decide, by decide⟩, ⟨_, _, .bi 4 true true⟩, by decide⟩
/-- A halt that stops and one that does not; the interrupt masked, and routed to each thread at the lowest priority. -/
theorem witness_halts : (∃ cond, SpuHalt (.spuHlgti 4 0x3FF) cond ∧ ¬cond (spu fun p => p.set 4 (0xFFFFFFFF#32 ++ 0#96)).spe ∧
      ¬cond (spu id).spe) ∧ (∃ cond, SpuHalt (.spuHeq 3 3) cond ∧ cond (spu id).spe) ∧ (spu id).spe.intMask[2] &&& 4 = 0 ∧
    (let s := spu fun p => { p with intMask := #v[0, 0, 6], cells := [(keyIntRoute, 0xF00E0000)] }
     s.spe.intMask[2] &&& 4 ≠ 0 ∧ s.spe.intMask[2] &&& 2 ≠ 0 ∧ s.spe.intStat[2] &&& s.spe.intMask[2] = 0 ∧ s.spe.held[2] = none ∧
       ibm (sget 0 s.spe.cells keyIntRoute) 40 8 = 0x0E#8 ∧ ibm (sget 0 s.spe.cells keyIntRoute) 32 4 = 15#4 ∧
       s.plat.iic[(0 : Fin 2)].queue[15].valid = false) ∧
    (let s := spu fun p => { p with intMask := #v[0, 0, 4], cells := [(keyIntRoute, 0x0F0000)] }
     ibm (sget 0 s.spe.cells keyIntRoute) 40 8 = 0x0F#8 ∧ ibm (sget 0 s.spe.cells keyIntRoute) 32 4 = 0#4) := by
  refine ⟨⟨_, .hlgti 4 0x3FF, ?_, ?_⟩, ⟨_, .heq 3 3, rfl⟩, by decide, by decide, by decide⟩ <;> decide
/-- A read of every channel with a condition. -/
theorem witness_channel_reads : (∃ ok val eff, ChannelRead 0 ok val eff ∧ ok (spu fun p => { p with cnt := p.cnt.set 0 1 }).spe) ∧
    (∃ ok val eff, ChannelRead 3 ok val eff ∧ ok (spu fun p => { p with cnt := p.cnt.set 3 1 }).spe) ∧
    (∃ ok val eff, ChannelRead 15 ok val eff ∧ ok (spu id).spe) ∧
    (∃ ok val eff, ChannelRead 24 ok val eff ∧ ok (spu fun p => { p with cnt := p.cnt.set 24 1 }).spe) ∧
    (∃ ok val eff, ChannelRead 27 ok val eff ∧ ok (spu fun p => { p with cnt := p.cnt.set 27 1 }).spe) ∧
    (∃ ok val eff, ChannelRead 29 ok val eff ∧ ok (spu fun p => { p with cnt := p.cnt.set 29 1 }).spe ∧
      ok (spu fun p => { p with cnt := p.cnt.set 29 4 }).spe) :=
  ⟨⟨_, _, _, .eventStatus, by decide⟩, ⟨_, _, _, .signal1, by decide⟩, ⟨_, _, _, .srr0, by decide⟩, ⟨_, _, _, .tagStatus, by decide⟩,
    ⟨_, _, _, .atomicStatus, by decide⟩, ⟨_, _, _, .inMbox, by decide, by decide⟩⟩
/-- A queued command: its opcode, its tag. -/
def queued (op : Nat) (tag : BitVec 16) : MfcCmd := newCommand (BitVec.ofNat 32 op) 0 0 0 tag 0 0
/-- A write of every channel with a condition. -/
theorem witness_channel_writes : (∃ ok eff, ChannelWrite 9 ok eff ∧ ok (spu id).spe 0) ∧
    (∃ ok eff, ChannelWrite 23 ok eff ∧ ok (spu id).spe 2 ∧ ok (spu fun p => { p with cnt := p.cnt.set 23 0 }).spe 0) ∧
    (∃ ok eff, ChannelWrite 26 ok eff ∧
      ok (spu fun p => { p with spuQ := [{ queued 0x44 31 with stalled := true }] }).spe 31) ∧
    (∃ ok eff, ChannelWrite 28 ok eff ∧ ok (spu id).spe 0) ∧ (∃ ok eff, ChannelWrite 30 ok eff ∧ ok (spu id).spe 0) ∧
    (∀ c ∈ (spu id).spe.spuQ, c.stalled = false ∨ c.tag.toNat % 32 ≠ 0) :=
  ⟨⟨_, _, .multisource, by decide⟩, ⟨_, _, .tagUpdate, by decide, by decide⟩,
    ⟨_, _, .stallAck, ⟨{ queued 0x44 31 with stalled := true }, by decide⟩⟩, ⟨_, _, .outMbox, by decide⟩,
    ⟨_, _, .outIntrMbox, by decide⟩, by decide⟩
/-- Channels that stall, and numbers without a channel. -/
theorem witness_channel_stalls : (spu id).spe.cnt[(29 : BitVec 7).toNat]? = some 0 ∧ (29 : BitVec 7).toNat ∈ [0, 3, 4, 24, 25, 27, 29] ∧
    (let s := spu fun p => { p.set 5 (2#32 ++ 0#96) with cnt := (p.cnt.set 23 0).set 30 0 }
     s.spe.cnt[(30 : BitVec 7).toNat]? = some 0 ∧ s.spe.cnt[(23 : BitVec 7).toNat]? = some 0 ∧ (sW 5 0 s.spe).toNat % 4 = 2) ∧
    (127 : BitVec 7).toNat ∉ readChannels ∧ (31 : BitVec 7).toNat ∉ writeChannels := by decide

/-! ## Witnesses: the MFC -/

/-- MFC 0 moving, in real mode, with a command in its SPU queue, its proxy queue, or as the atomic command. -/
def mfc (x : MfcSel) (c : MfcCmd) : State :=
  { State.reset.modN 0 fun p =>
      match x with
      | .spu _ => { p with spuQ := [c] }
      | .proxy _ => { p with pxQ := [c] }
      | .atomic => { p with atomicCmd := some c } with
    cur := .mfc 0, sel := x }
theorem witness_issue : (spu id).spe.cnt[21] ≠ 0 ∧ (spu id).spe.spuQ.length < 16 ∧
    (sW 3 0 (spu id).spe).toNat % 256 ∉ immediateOps ∧
    (let s := spu fun p => p.set 3 (0xD0#32 ++ 0#96)
     (sW 3 0 s.spe).toNat % 256 ∈ immediateOps ∧ s.spe.atomicCmd = none) ∧
    (spu fun p => { p with atomicCmd := some (queued 0xD0 0) }).spe.atomicCmd ≠ none ∧
    16 ≤ (spu fun p => { p with spuQ := List.replicate 16 (queued 0x20 0) }).spe.spuQ.length := by decide
/-- The lowest free entry number of an empty queue, of one whose first entry is free, of one of two commands. -/
theorem witness_lowest_free : lowestFree (spu id).spe.spuQ 0 ∧ lowestFree [{ queued 0x20 0 with slot := 1 }] 0 ∧
    lowestFree [{ queued 0x20 0 with slot := 1 }, queued 0x20 0] 2 := by
  refine ⟨⟨by decide, fun j h => absurd h (by omega)⟩, ⟨by decide, fun j h => absurd h (by omega)⟩, by decide, ?_⟩
  intro j h
  have : j = 0 ∨ j = 1 := by omega
  rcases this with h | h <;> subst h <;> decide
/-- A command that performs a unit, and one that has performed all of its units. -/
def putCmd (units : Nat) : MfcCmd := { newCommand 0x20 0x3FFF0 0x1000 32 31 0 0 with units := units }
theorem ready (x : MfcSel) (c : MfcCmd) : DmaReady (mfc x c) := by
  cases x <;> exact ⟨(by decide : ibit (0 : DWord) 59 = false), rfl, rfl, rfl, rfl⟩
theorem performs (c : MfcCmd) : Performs (mfc (.spu 0) c) (.spu 0) c ∧ Performs (mfc (.proxy 0) c) (.proxy 0) c ∧
    Performs (mfc .atomic c) .atomic c := ⟨⟨⟨0, rfl⟩, rfl, rfl⟩, ⟨⟨0, rfl⟩, rfl, rfl⟩, ⟨⟨0, rfl⟩, rfl, rfl⟩⟩
theorem witness_transfers : MfcTransfer (.mfcPut 0 0) true false false ∧ Performs (mfc (.spu 0) (putCmd 1)) (.spu 0) (putCmd 1) ∧
    inQueue (.spu 0) (putCmd 1) ∧ validTransfer (transferSize (putCmd 1)) (putCmd 1).lsa.toNat ((putCmd 1).ea.toNat % 2^32) ∧
    ¬allPerformed (putCmd 1).units (unitsOf (transferSize (putCmd 1))) ∧ DmaReady (mfc (.spu 0) (putCmd 1)) ∧
    (∀ k, k < unitsOf (transferSize (putCmd 1)) →
      region (mfc (.spu 0) (putCmd 1)) (realOf ((putCmd 1).ea.toNat + 16 * k)) = .dram) ∧
    allPerformed (putCmd 3).units (unitsOf (transferSize (putCmd 3))) := by
  refine ⟨.put 0 0, (performs _).1, ?_, ?_, ?_, ready _ _, ?_, ?_⟩
  · unfold inQueue; decide
  · unfold validTransfer; decide
  · unfold allPerformed; decide
  · intro k hk
    have h : k = 0 ∨ k = 1 := by
      have : unitsOf (transferSize (putCmd 1)) = 2 := by decide
      omega
    rcases h with h | h <;> subst h <;> decide
  · intro k hk
    have h : k = 0 ∨ k = 1 := by
      have : unitsOf (transferSize (putCmd 3)) = 2 := by decide
      omega
    rcases h with h | h <;> subst h <;> decide
/-- A start form in the proxy queue; a transfer of one byte and the largest one. -/
theorem witness_transfer_sizes : MfcTransfer (.mfcGets 0 0) false true false ∧ inProxyQueue (.proxy 0) (putCmd 0) ∧
    MfcTransfer (.mfcSndsig 0 0) true false true ∧ validTransfer 4 0x1C 0x1000C ∧ validTransfer 1 0x3FFFF 0xF ∧
    validTransfer 16384 0 0 ∧ validTransfer 0 0 0 := by
  refine ⟨.gets 0 0, ⟨⟨0, rfl⟩, by decide⟩, .sndsig 0 0, ?_⟩
  unfold validTransfer
  decide
/-- A list command: no element taken, an element in transfer, at its end. -/
def listCmd (done : Nat) (e : Option DWord) : MfcCmd := { newCommand 0x24 0 0x100 8 0 0 0 with listDone := done, elem := e }
theorem witness_lists : MfcList (.mfcPutl 0 0) true ∧ inSpuQueue (.spu 0) (listCmd 0 none) ∧ validList (listCmd 0 none) ∧
    (listCmd 0 none).stalled = false ∧ (listCmd 0 none).elem = none ∧ (listCmd 0 none).listDone < transferSize (listCmd 0 none) ∧
    elementValid (BitVec.ofNat 64 (readBytes (mfc (.spu 0) (listCmd 0 none)).spe.ls
      (lsOf (mfc (.spu 0) (listCmd 0 none)).spe ((listCmd 0 none).ea.toNat % 2^32 + (listCmd 0 none).listDone)) 8)) ∧
    transferSize (listCmd 8 none) ≤ (listCmd 8 none).listDone := by
  refine ⟨.putl 0 0, ⟨⟨0, rfl⟩, by decide⟩, ?_, by decide, by decide, by decide, .inl (by decide), by decide⟩
  unfold validList
  decide
/-- An element with a stall flag whose single unit is performed, and one at the end of its 4 GB area whose unit is not. -/
theorem witness_list_elements :
    (let e : DWord := 0x80000010FFFFFFF0
     ibit e 0 = true ∧ elementValid e ∧ elementUnits e = 1 ∧ elementLow e + elementSize e ≤ 2^32 ∧
       allPerformed { listCmd 8 (some e) with units := 1 }.units (elementUnits e) ∧
       ¬allPerformed (listCmd 8 (some e)).units (elementUnits e) ∧
       region (mfc (.spu 0) (listCmd 8 (some e))) (realOf (0xFFFFFFF0 + 16 * 0)) = .dram) := by
  refine ⟨by decide, ?_, by decide, by decide, ?_, ?_, by decide⟩
  · exact .inr (.inr (by decide))
  · intro k hk
    have h : k = 0 := by
      have : elementUnits 0x80000010FFFFFFF0 = 1 := by decide
      omega
    subst h
    decide
  · intro h
    exact absurd (h 0 (by decide)) (by decide)
theorem witness_storage_control : MfcHint (.mfcSdcrt 0 0) true ∧ MfcHint (.mfcMfcsync 0 0) false ∧
    (let c := { newCommand 0x89 0 0x1000 128 0 0 0 with units := 0 }
     Performs (mfc (.spu 0) c) (.spu 0) c ∧ inQueue (.spu 0) c ∧ validTransfer (transferSize c) c.lsa.toNat (c.ea.toNat % 2^32) ∧
       ¬allPerformed c.units 1 ∧ DmaReady (mfc (.spu 0) c) ∧ region (mfc (.spu 0) c) (realOf (128 * 32)) = .dram) := by
  refine ⟨.sdcrt 0 0, .mfcsync 0 0, (performs _).1, ?_, ?_, ?_, ready _ _, by decide⟩
  · unfold inQueue; decide
  · unfold validTransfer; decide
  · unfold allPerformed; decide
/-- The highest line below the boundary of the real-mode address region. -/
theorem witness_atomic :
    (let c := newCommand 0xD0 0x3FF80 0xFFFFF80 0 0 0 0
     let s := { (mfc .atomic c).modN 0 fun p => { p with cells := [(keyRmab, 1)] } with cur := .mfc 0 }
     Performs s .atomic c ∧ DmaReady s ∧ (s.spe.cell keyRmab).toNat % 16 = 1 ∧ lineOf (realOf c.ea.toNat) < 2^(1 + 27) ∧
       region s (lineOf (realOf c.ea.toNat)) = .dram ∧ s.spe.llres ≠ some (lineOf (realOf c.ea.toNat) / 128)) ∧
    inSpuQueue (.spu 0) (newCommand 0xB8 0x3FF80 0xFFFFF80 0 31 0 0) := by
  refine ⟨⟨⟨⟨0, rfl⟩, rfl, rfl⟩, ?_, by decide, by decide, by decide, by decide⟩, ⟨0, rfl⟩, by decide⟩
  constructor <;> rfl
/-- A tag out of range, a start form in the SPU queue, a bad alignment, a bad list, and a segment fault. -/
theorem witness_mfc_errors : ¬inQueue (.spu 0) (queued 0x20 32) ∧ ¬inProxyQueue (.spu 0) (queued 0x28 0) ∧
    ¬validTransfer 2 0 1 ∧ ¬validList (newCommand 0x24 0 4 8 0 0 0) ∧ ¬inSpuQueue (.proxy 0) (queued 0x24 0) ∧
    (mfc (.spu 0) (queued 0x20 32)).spe.intMask[0] &&& 2 = 0 ∧
    (let c := newCommand 0x20 0 0x1000 16 31 0 7
     let s := { (mfc (.spu 0) c).modN 0 fun p => { p with sr1 := 0x10 } with cur := .mfc 0 }
     Performs s (.spu 0) c ∧ inQueue (.spu 0) c ∧ validTransfer (transferSize c) c.lsa.toNat (c.ea.toNat % 2^32) ∧
       transferSize c = 16 ∧ ibit s.spe.sr1 59 = true ∧ s.spe.cell keyLsacr = 0 ∧ s.spe.smmBusy = false ∧
       (∀ k : Fin 8, s.spe.slb[k].v = true → s.spe.slb[k].esid.toNat ≠ c.ea.toNat / 2^28) ∧ s.spe.intMask[1] &&& 1 = 0) := by
  refine ⟨?_, ?_, ?_, ?_, ?_, by decide, ⟨⟨0, rfl⟩, rfl, rfl⟩, ?_, ?_, by decide, by decide, by decide, by decide, by decide, by decide⟩
  · unfold inQueue; decide
  · rintro ⟨⟨k, h⟩, _⟩; cases h
  · unfold validTransfer; decide
  · unfold validList; decide
  · rintro ⟨⟨k, h⟩, _⟩; cases h
  · unfold inQueue; decide
  · unfold validTransfer; decide
/-- An atomic command that came too late, with the interrupt masked. -/
theorem witness_late_atomic : let s := { spu (fun p => { p with atomicLate := 1 }) with cur := .mfc 0 }
    s.spe.mfcMoves = [.lateAtomic] ∧ s.spe.intMask[0] &&& 2 = 0 := by decide
/-- A halted MFC completes a transfer whose units are performed; the oldest command that waited, which may move, goes first. -/
theorem witness_halted_and_resent :
    (let p := (spu fun p => { p with halted := true, spuQ := [{ queued 0x20 0 with size := 16, units := 1 }] }).spe
     MfcMove.command (.spu 0) ∈ p.mfcMoves ∧ p.halted = true) ∧
    (let p := (spu fun p => { p with resend := some 1, spuQ := [queued 0x20 0, { queued 0x20 1 with order := 1 }] }).spe
     p.resend = some 1 ∧ MfcMove.command (.spu 1) ∈ Spe.mfcMoves { p with resend := none } ∧
       commandAt p (.spu 1) = some { queued 0x20 1 with order := 1 } ∧ MfcMove.command (.spu 1) ∈ p.mfcMoves) := by decide
/-- A tag-status request that is met by an empty queue. -/
theorem witness_tag_update : (spu fun p => { p with tagReq := 2, tagMask := 0xFFFFFFFF, cnt := p.cnt.set 23 0 }).spe.mfcMoves =
    [.tagUpdate] := by rfl
theorem witness_mfc_moves : MfcMove.command (.spu 0) ∈ (mfc (.spu 0) (queued 0x20 0)).spe.mfcMoves := by decide

/-! ## Witnesses: the platform and the step -/

/-- The inbound mailbox with a free place and full; the mailboxes holding a value; run and stop. -/
theorem witness_mailboxes : Spe.reset.cnt[29].toNat < 4 ∧ (Spe.reset.cnt.set 29 4)[29].toNat = 4 ∧ (Spe.reset.cnt.set 28 0)[28] = 0 ∧
    (Spe.reset.cnt.set 30 0)[30] = 0 ∧ Spe.reset.cnt[28].toNat ≤ 1 ∧ Spe.reset.cnt[30].toNat ≤ 1 ∧ (5 : Word).toNat % 4 = 1 ∧
    (4 : Word).toNat % 4 = 0 := by decide
theorem witness_presents : presents { Iic.reset with queue := Iic.reset.queue.set 15 { valid := true, cls := 2, srcNode := 0, src := 14 } } 15 ∧
    Iic.reset.igp = 0 ∧ ∀ q : BitVec 4, (Iic.reset.queue[q.toNat]'q.isLt).valid = false := by
  unfold presents
  decide
/-- A tick in the internal mode, none in the external mode, none while the time base is off; TBEN rises in the external mode. -/
theorem witness_tick :
    let on (tbr : DWord) : State := { State.reset with
      schedule := [.tick], ppe := { State.reset.ppe with hid6 := 0x1000000000000 },
      plat := { State.reset.plat with cells := [(offTbr, tbr)] } }
    let moves (s : State) : Bool := ibit s.ppe.hid6 15 && !ibit (s.pcell offTbr) 55 && s.plat.tben &&
      decide (ibm (s.pcell offTbr) 56 8 ≠ (0 : BitVec 8))
    let s : State := { on 0x100 with schedule := [.setTben true], plat := { (on 0x100).plat with tben := false } }
    (∀ v, (on v).stopped = none ∧ (on v).schedule = .tick :: []) ∧
      moves (on 1) = true ∧ moves (on 0x101) = false ∧ moves (on 0) = false ∧
      s.stopped = none ∧ s.schedule = .setTben true :: [] ∧
      (ibit s.ppe.hid6 15 && ibit (s.pcell offTbr) 55 && true && !s.plat.tben) = true :=
  ⟨fun _ => ⟨rfl, rfl⟩, by rfl, by rfl, by rfl, rfl, rfl, by rfl⟩
/-- External, hypervisor decrementer and decrementer interrupts that a thread takes. -/
theorem witness_interrupts :
    (let s := inMode 0x8000000000009000
     Undisturbed { s with ppe := { s.ppe with te := 3 } } 0 ∧ ibit s.threads[(0 : Fin 2)].msr 48 = true ∧ s.ppe.extrHsrr = false ∧
       s.plat.iic[(0 : Fin 2)].signal = false) ∧
    (let c : Iic := { Iic.reset with queue := Iic.reset.queue.set 0 { valid := true, cls := 2, srcNode := 0, src := 0 }, cpl := 1 }
     c.signal = true) ∧ (0x80000000 : Word).msb = true := by
  refine ⟨⟨?_, by decide, by decide, by decide⟩, by decide, by decide⟩
  constructor <;> rfl
/-- A placed PPE instruction is what thread 0 fetches next. -/
theorem witness_ppe_step : let s := State.reset.withFetchWord 32 0x3860FFFF
    ∃ rest p w i, s.stopped = none ∧ s.schedule = .run (.ppe 0) :: rest ∧ ibit s.ppe.te (0 : Fin 2).val = true ∧
      s.threads[(0 : Fin 2)].mcheck = none ∧
      let s0 : State := { s with schedule := rest, cur := .ppe 0 }
      s0.systemInterrupt 0 = none ∧ translateFetch s0 0 s0.threads[(0 : Fin 2)].pc = .ok p s0 ∧ fetchWord s0 p = .ok w s0 ∧
        decodePpe w = .ok i ∧ region s0 p.ra = .dram ∧ s0.ppe.icache = [] :=
  ⟨[], ⟨0x100, false, true⟩, 0x3860FFFF, .ppeAddi 3 0 0xFFFF, rfl, rfl, rfl, rfl, rfl, rfl, rfl, rfl, rfl, rfl⟩
/-- A caching-inhibited fetch from the last word of the local storage of SPE 7. -/
theorem witness_ls_fetch : let s := State.reset.modN 7 fun p => { p with sr1 := 1 }
    (∃ base, region s base = .ls 7 0x3FFFC ∧ (⟨base, true, true⟩ : Phys).i = true) ∧ ∀ x ∈ s.spes[(7 : Fin 8)].snoopQ, x.due = false :=
  ⟨⟨State.reset.cfg.mmioBase + 0x3BFFFC, by decide, rfl⟩, by decide⟩
/-- An access that begins beside SPU_Sig_Notify_1 and reaches it finds a register (49_spe_mailbox_signal_event R1754); one that does not
reach it finds none. -/
theorem test_access_reaches_register : let base := State.reset.cfg.mmioBase + 0x54000
    regionAt State.reset base 16 = .mmio 0x54000 ∧ regionAt State.reset (base + 8) 8 = .mmio 0x54008 ∧
      regionAt State.reset (base + 8) 4 = .unassigned := by decide +kernel
/-- A caching-inhibited fetch from the last word of main storage. -/
theorem witness_inhibited_fetch : let p : Phys := ⟨State.reset.cfg.memBytes - 4, true, false⟩
    region State.reset p.ra = .dram ∧ p.i = true := by decide +kernel
/-- A word of local storage that is no channel instruction, at the address of one that stalled, runs in single-step mode with
SPU_Status[W] clear, so that the step may be honoured. -/
theorem test_stalled_word_replaced : (let s := State.reset.withFetchWord 32 0x18014203
    let s := s.modN 0 fun p => { p with status := 0x9 }
    match step s with
    | .next t => ibit t.spe.status 28
    | _ => true) = false := by decide +kernel
/-- A placed SPU instruction is what SPU 0 fetches next. -/
theorem witness_spu_step : let s := State.reset.withFetchWord 32 0x18014203
    ∃ rest i, s.stopped = none ∧ s.schedule = .run (.spu 0) :: rest ∧ s.spes[(0 : Fin 8)].running = true ∧
      s.spes[(0 : Fin 8)].ie = false ∧ s.spes[(0 : Fin 8)].ibuf = [] ∧
      decodeSpu (BitVec.ofNat 32 (readBytes s.spes[(0 : Fin 8)].ls (s.spes[(0 : Fin 8)].pc &&& s.spes[(0 : Fin 8)].lslr).toNat 4)) =
        .ok i :=
  ⟨[], .spuA 3 4 5, rfl, rfl, rfl, rfl, rfl, rfl⟩
/-- A placed MFC command is what MFC 0 performs next. -/
theorem witness_mfc_step : let s := State.reset.withFetchWord 32 0x20
    ∃ rest x c i, s.stopped = none ∧ s.schedule = .run (.mfc 0) :: rest ∧ s.spes[(0 : Fin 8)].mfcMoves = [.command x] ∧
      s.spes[(0 : Fin 8)].resend = none ∧ commandAt s.spes[(0 : Fin 8)] x = some c ∧ decodeMfc c.word = .ok i :=
  ⟨[], .spu 0, queued 0x20 0, .mfcPut 0 0, rfl, rfl, rfl, rfl, rfl, rfl⟩
/-- The invariants hold after reset, from where a step is taken. -/
theorem witness_invariants : memoriesCanonical State.reset ∧ legalMsrs State.reset ∧ ∃ t, step State.reset = .next t := by
  refine ⟨⟨by decide, by decide⟩, ?_, ?_⟩
  · unfold legalMsrs legalMsr; decide
  · exact ⟨_, rfl⟩
/-- An instruction that begins and ends in problem state. -/
theorem witness_problem_state : ibit (inMode problemMsr).thr.msr 49 = true ∧
    ∃ t, Machine.exec (.ppeAddi 3 0 1) (inMode problemMsr) = .next t ∧ ibit t.thr.msr 49 = true := ⟨by decide, _, rfl, by decide⟩

/-- The last line of a storage-control command performed, and not. -/
theorem witness_lines_performed : allPerformed 1 1 ∧ ¬allPerformed 0 1 := by
  unfold allPerformed; decide
/-- The reserved line, for `putllc`; `putqlluc` before and after its store. -/
theorem witness_atomic_reserved :
    (let s := { (mfc .atomic (newCommand 0xB4 0x3FF80 0xFFFFF80 0 0 0 0)).modN 0 fun p =>
        { p with llres := some (0xFFFFF80 / 128) } with cur := .mfc 0 }
     s.spe.llres = some (lineOf (realOf 0xFFFFF80) / 128)) ∧
    (newCommand 0xB8 0 0 0 0 0 0).units = 0 ∧ { newCommand 0xB8 0 0 0 0 0 0 with units := 1 }.units ≠ 0 := by decide +kernel
/-- A thread that is not traced, an SPU that is not in single-step mode. -/
theorem witness_no_trace : ibit State.reset.threads[0].msr 53 = false ∧ ibit State.reset.threads[0].msr 54 = false ∧
    ibit State.reset.spe.privCntl 63 = false := by decide +kernel

/-! ## Rows of 97_test_vectors_ppe.md: the word, the registers and the storage before, what the row says of the state after -/

/-- Thread 0 in hypervisor state with both units on and LPES = '01' performs the word: what `chk` says of the next state. -/
noncomputable def onPpe (w : Word) (f : Thread → Thread) (mem : List Host.Cell) (hid1 : DWord) (chk : State → Bool) : Bool :=
  let s := State.reset.modT 0 fun th => f { th with msr := unitsOn }
  match decodePpe w with
  | .ok i =>
    match Machine.exec i { s with mem := mem, ppe := { s.ppe with lpes := 1, hid1 := hid1 } } with
    | .next t => chk t
    | _ => false
  | .error _ => false

/-- 60_exceptions R1827 item 10, with RMI and RMSC making the storage caching-inhibited; the row is this file's. -/
theorem test_lvlx_inhibited : onPpe 0x7C20240E (fun th => { th.setGpr 4 0xFFF with lpcrRmi := true }) [] 0
    (fun t => decide (t.thr.pc = 0x600 ∧ t.thr.dar = 0xFFF)) = true := by decide +kernel
theorem test_bl_link : onPpe 0x48000011 (fun th => { th with pc := 0x1000 }) [] 0
    (fun t => decide (t.thr.lr = 0x1004) && decide (t.thr.pc = 0x1010)) = true := by decide +kernel
theorem test_bdnz_32_bit_mode : onPpe 0x4200FFF8 (fun th => { th with msr := 0x1000000002003000, pc := 0x1018, ctr := 0x0000000100000001 }) [] 0
    (fun t => decide (t.thr.ctr = 0x0000000100000000) && decide (t.thr.pc = 0x101C)) = true := by decide +kernel
theorem test_bclrl_old_link_is_target : onPpe 0x4E800021 (fun th => { th with pc := 0x1000, lr := 0x2004 }) [] 0
    (fun t => decide (t.thr.lr = 0x1004) && decide (t.thr.pc = 0x2004)) = true := by decide +kernel
theorem test_bcctr_counting_form_traps : onPpe 0x4E000420 (fun th => { th with pc := 0x1000, ctr := 5 }) [] 0
    (fun t => decide (t.thr.srr0 = 0x1000) && decide (t.thr.pc = 0x700) && decide (t.thr.pc = 0x700 ∧ (t.thr.srr1 >>> 19) &&& 1 = 1)) = true := by decide +kernel
theorem test_crandc : onPpe 0x4C011102 (fun th => { th with pc := 0x1000, cr := 0x50000000 }) [] 0
    (fun t => decide (t.thr.cr = 0xD0000000)) = true := by decide +kernel
theorem test_mcrf : onPpe 0x4C1C0000 (fun th => { th with pc := 0x1000, cr := 0x20000008 }) [] 0
    (fun t => decide (t.thr.cr = 0x80000008)) = true := by decide +kernel
theorem test_tw_low_words : onPpe 0x7C832008 (fun th => { (th.setGpr 3 0x0000000100000005).setGpr 4 5 with pc := 0x1000 }) [] 0
    (fun t => decide (t.thr.pc = 0x700 ∧ (t.thr.srr1 >>> 17) &&& 1 = 1)) = true := by decide +kernel
theorem test_tdi_sign_extended : onPpe 0x0823FFFF (fun th => { th.setGpr 3 0xFFFFFFFFFFFFFFFF with pc := 0x1000 }) [] 0
    (fun t => decide (t.thr.pc = 0x1004)) = true := by decide +kernel
theorem test_lha : onPpe 0xA8640002 (fun th => (th.setGpr 4 0x2000).setGpr 6 4) (writeBytes [] 0x2000 0x80FFFE7D123456789ABCDEF0FFFFFFFE 16) 0
    (fun t => decide (t.thr.gpr[3] = 0xFFFFFFFFFFFFFE7D)) = true := by decide +kernel
theorem test_lwz_base_0 : onPpe 0x80602004 (fun th => ((th.setGpr 4 0x2000).setGpr 6 4).setGpr 0 0x9999) (writeBytes [] 0x2000 0x80FFFE7D123456789ABCDEF0FFFFFFFE 16) 0
    (fun t => decide (t.thr.gpr[3] = 0x0000000012345678)) = true := by decide +kernel
theorem test_lwzu_base_target_traps : onPpe 0x84840008 (fun th => (th.setGpr 4 0x2000).setGpr 6 4) (writeBytes [] 0x2000 0x80FFFE7D123456789ABCDEF0FFFFFFFE 16) 0
    (fun t => decide (t.thr.pc = 0x700 ∧ (t.thr.srr1 >>> 19) &&& 1 = 1)) = true := by decide +kernel
theorem test_ldbrx : onPpe 0x7C602428 (fun th => (th.setGpr 4 0x2000).setGpr 6 4) (writeBytes [] 0x2000 0x80FFFE7D123456789ABCDEF0FFFFFFFE 16) 0
    (fun t => decide (t.thr.gpr[3] = 0x785634127DFEFF80)) = true := by decide +kernel
theorem test_lmw_base_in_range : onPpe 0xBBDF0000 (fun th => (th.setGpr 1 0x2000).setGpr 31 0x2000) (writeBytes [] 0x2000 0x0000000100000002800000034142434445464748 20) 0
    (fun t => decide (t.thr.gpr[30] = 1) && decide (t.thr.pc = 0x700 ∧ (t.thr.srr1 >>> 19) &&& 1 = 1)) = true := by decide +kernel
theorem test_lswi_wraps : onPpe 0x7FE144AA (fun th => th.setGpr 1 0x200C) (writeBytes [] 0x2000 0x0000000100000002800000034142434445464748 20) 0
    (fun t => decide (t.thr.gpr[31] = 0x0000000041424344) && decide (t.thr.gpr[0] = 0x0000000045464748)) = true := by decide +kernel
theorem test_stmw : onPpe 0xBFC10008 (fun th => ((th.setGpr 1 0x2000).setGpr 30 0xAAAAAAAA11111111).setGpr 31 0x22222222) (writeBytes [] 0x2000 0x0000000100000002800000034142434445464748 20) 0
    (fun t => decide (readBytes t.mem 0x2008 8 = 0x1111111122222222)) = true := by decide +kernel
theorem test_stwbrx : onPpe 0x7CA4352C (fun th => ((th.setGpr 4 0x2000).setGpr 6 4).setGpr 5 0x1122334455667788) [] 0
    (fun t => decide (readBytes t.mem 0x2004 4 = 0x88776655)) = true := by decide +kernel
theorem test_lfs_denormal : onPpe 0xC0230000 (fun th => th.setGpr 3 0x2000) (writeBytes [] 0x2000 0x00000001 4) 0
    (fun t => decide (t.thr.fpr[1] = 0x36A0000000000000)) = true := by decide +kernel
theorem test_stfs_denormal : onPpe 0xD0230000 (fun th => (th.setGpr 3 0x2000).setFpr 1 0x36A0000000000000) [] 0
    (fun t => decide (readBytes t.mem 0x2000 4 = 0x00000001)) = true := by decide +kernel
theorem test_addo_overflow : onPpe 0x7CA32615 (fun th => { (th.setGpr 3 0x7FFFFFFFFFFFFFFF).setGpr 4 1 with xer := 0 }) [] 0
    (fun t => decide (t.thr.gpr[5] = 0x8000000000000000) && decide ((t.thr.cr >>> 28) &&& 15 = 9) && decide ((t.thr.xer >>> 31) &&& 1 = 1) && decide ((t.thr.xer >>> 30) &&& 1 = 1)) = true := by decide +kernel
theorem test_subfe_borrow : onPpe 0x7CA32110 (fun th => { (th.setGpr 3 0).setGpr 4 0 with xer := 0x0 }) [] 0
    (fun t => decide (t.thr.gpr[5] = 0xFFFFFFFFFFFFFFFF) && decide ((t.thr.xer >>> 29) &&& 1 = 0)) = true := by decide +kernel
theorem test_subfme : onPpe 0x7CA301D0 (fun th => { th.setGpr 3 0 with xer := 0x0 }) [] 0
    (fun t => decide (t.thr.gpr[5] = 0xFFFFFFFFFFFFFFFE) && decide ((t.thr.xer >>> 29) &&& 1 = 1)) = true := by decide +kernel
theorem test_nego_32_bit_mode : onPpe 0x7CA304D0 (fun th => { th.setGpr 3 0x0000000080000000 with msr := 0x1000000002003000 }) [] 0
    (fun t => decide (t.thr.gpr[5] = 0xFFFFFFFF80000000) && decide ((t.thr.xer >>> 31) &&& 1 = 1) && decide ((t.thr.xer >>> 30) &&& 1 = 1)) = true := by decide +kernel
theorem test_mullwo : onPpe 0x7CA325D6 (fun th => (th.setGpr 3 0x0000000000010000).setGpr 4 0x0000000000010000) [] 0
    (fun t => decide (t.thr.gpr[5] = 0x0000000100000000) && decide ((t.thr.xer >>> 31) &&& 1 = 1) && decide ((t.thr.xer >>> 30) &&& 1 = 1)) = true := by decide +kernel
theorem test_divd : onPpe 0x7CA323D2 (fun th => (th.setGpr 3 0xFFFFFFFFFFFFFFF9).setGpr 4 0xFFFFFFFFFFFFFFFE) [] 0
    (fun t => decide (t.thr.gpr[5] = 3)) = true := by decide +kernel
theorem test_cmpl : onPpe 0x7D032040 (fun th => (th.setGpr 3 0x00000000FFFFFFFF).setGpr 4 1) [] 0
    (fun t => decide ((t.thr.cr >>> 20) &&& 15 = 4)) = true := by decide +kernel
theorem test_andis_32_bit_mode : onPpe 0x74658000 (fun th => { th.setGpr 3 0x123456789ABCDEF0 with msr := 0x1000000002003000, xer := 0x0 }) [] 0
    (fun t => decide (t.thr.gpr[5] = 0x0000000080000000) && decide ((t.thr.cr >>> 28) &&& 15 = 8)) = true := by decide +kernel
theorem test_orc : onPpe 0x7C652338 (fun th => (th.setGpr 3 0x123456789ABCDEF0).setGpr 4 0x0F0F0F0F0F0F0F0F) [] 0
    (fun t => decide (t.thr.gpr[5] = 0xF2F4F6F8FAFCFEF0)) = true := by decide +kernel
theorem test_rlwinm_mask_wraps : onPpe 0x54832706 (fun th => th.setGpr 4 0x0000000012345678) [] 0
    (fun t => decide (t.thr.gpr[3] = 0x2345678120000001)) = true := by decide +kernel
theorem test_srawi : onPpe 0x7C830E70 (fun th => th.setGpr 4 0x00000000FFFFFFFB) [] 0
    (fun t => decide (t.thr.gpr[3] = 0xFFFFFFFFFFFFFFFD) && decide ((t.thr.xer >>> 29) &&& 1 = 1)) = true := by decide +kernel
theorem test_srad_by_64 : onPpe 0x7C832E34 (fun th => (th.setGpr 4 0x8000000000000000).setGpr 5 64) [] 0
    (fun t => decide (t.thr.gpr[3] = 0xFFFFFFFFFFFFFFFF) && decide ((t.thr.xer >>> 29) &&& 1 = 1)) = true := by decide +kernel
theorem test_fadd_infinities : onPpe 0xFC22182B (fun th => (th.setFpr 2 0x7FF0000000000000).setFpr 3 0xFFF0000000000000) [] 0
    (fun t => decide (t.thr.fpr[1] = 0x7FF8000000000000) && decide ((t.thr.cr >>> 24) &&& 15 = 10) && decide (t.thr.fpscr = 0xA0811000)) = true := by decide +kernel
theorem test_fmadd_one_rounding : onPpe 0xFC2218BA (fun th => (th.setFpr 2 0x3FF0000000000001).setFpr 3 0xBFF0000000000002) [] 0
    (fun t => decide (t.thr.fpr[1] = 0x3970000000000000) && decide (t.thr.fpscr = 0x00004000)) = true := by decide +kernel
theorem test_fdiv_enabled_zero_divide : onPpe 0xFC221824 (fun th => { ((th.setFpr 1 0x4014000000000000).setFpr 2 0x3FF0000000000000).setFpr 3 0x8000000000000000 with fpscr := 0x00000010 }) [] 0
    (fun t => decide (t.thr.fpscr = 0xC4000010)) = true := by decide +kernel
theorem test_frsp_overflow : onPpe 0xFC201818 (fun th => th.setFpr 3 0x47F0000000000000) [] 0
    (fun t => decide (t.thr.fpr[1] = 0x7FF0000000000000) && decide (t.thr.fpscr = 0x92065000)) = true := by decide +kernel
theorem test_fctid_exact : onPpe 0xFC201E9C (fun th => th.setFpr 3 0x7FFFFFFFFFFFFFFF) [] 0
    (fun t => decide (t.thr.fpr[1] = 0x43E0000000000000) && decide (t.thr.fpscr = 0x82064000)) = true := by decide +kernel
theorem test_fcmpo_snan : onPpe 0xFD011840 (fun th => (th.setFpr 1 0x7FF0000000000001).setFpr 3 0x3FF0000000000000) [] 0
    (fun t => decide ((t.thr.cr >>> 20) &&& 15 = 1) && decide (t.thr.fpscr = 0xA1081000)) = true := by decide +kernel
theorem test_mtfsfi : onPpe 0xFC00F10C (fun th => { th with fpscr := 0 }) [] 0
    (fun t => decide (t.thr.fpscr = 0x90000000)) = true := by decide +kernel
theorem test_mtfsb1_enabled_trap : onPpe 0xFF00004C (fun th => { th with msr := 0x9000000002003800, fpscr := 0xA0800000 }) [] 0
    (fun t => decide (t.thr.fpscr = 0xE0800080)) = true := by decide +kernel
theorem test_mcrfs : onPpe 0xFC8C0080 (fun th => { th with fpscr := 0xA0081000 }) [] 0
    (fun t => decide ((t.thr.cr >>> 24) &&& 15 = 8) && decide (t.thr.fpscr = 0x80001000)) = true := by decide +kernel
theorem test_mtspr_privileged : onPpe 0x7C7043A6 (fun th => { th with msr := 0x800000000000D032 }) [] 0
    (fun t => decide (t.thr.srr1 = 0x800000000004D032) && decide (t.thr.msr = 0x8000000000001000) && decide (t.thr.pc = 0x700) && decide (t.thr.pc = 0x700 ∧ (t.thr.srr1 >>> 18) &&& 1 = 1)) = true := by decide +kernel
theorem test_mtmsrd_problem_state : onPpe 0x7C600164 (fun th => { th.setGpr 3 0x8000000000004000 with msr := 0x800000000000B032 }) [] 0
    (fun t => decide (t.thr.msr = 0x800000000000D030)) = true := by decide +kernel
theorem test_mtmsr : onPpe 0x7C600124 (fun th => { th.setGpr 3 0x0000000000008002 with msr := 0x9000000000001032 }) [] 0
    (fun t => decide (t.thr.msr = 0x9000000000009002)) = true := by decide +kernel
theorem test_rfid_problem_state : onPpe 0x4C000024 (fun th => { th with msr := 0x8000000000001000, srr0 := 0x10007, srr1 := 0x800000000004D032 }) [] 0
    (fun t => decide (t.thr.msr = 0x800000000000D032) && decide (t.thr.pc = 0x10004)) = true := by decide +kernel
theorem test_hrfid : onPpe 0x4C000224 (fun th => { th with msr := 0x9000000000001000, hsrr0 := 0x8000, hsrr1 := 0x800000000000B032 }) [] 0
    (fun t => decide (t.thr.msr = 0x800000000000B032) && decide (t.thr.pc = 0x8000)) = true := by decide +kernel
theorem test_sc1 : onPpe 0x44000022 (fun th => { th with msr := 0x800000000000D032 }) [] 0
    (fun t => decide (t.thr.msr = 0x9000000000001000) && decide (t.thr.pc = 0xC00)) = true := by decide +kernel
theorem test_lvlx : onPpe 0x7C201C0E (fun th => th.setGpr 3 0x1007) (writeBytes [] 0x1000 0x000102030405060708090A0B0C0D0E0F101112131415161718191A1B1C1D1E1F202122232425262728292A2B2C2D2E2F 48) 0
    (fun t => decide (t.thr.vr[1] = 0x0708090A0B0C0D0E0F00000000000000)) = true := by decide +kernel
theorem test_lvsr : onPpe 0x7C60184C (fun th => th.setGpr 3 0x100F) (writeBytes [] 0x1000 0x000102030405060708090A0B0C0D0E0F101112131415161718191A1B1C1D1E1F202122232425262728292A2B2C2D2E2F 48) 0
    (fun t => decide (t.thr.vr[3] = 0x0102030405060708090A0B0C0D0E0F10)) = true := by decide +kernel
theorem test_vperm : onPpe 0x108110EB (fun th => ((th.setVr 1 0x000102030405060708090A0B0C0D0E0F).setVr 2 0x101112131415161718191A1B1C1D1E1F).setVr 3 0x001438F00615191A1C1C1C13081D1B0E) [] 0
    (fun t => decide (t.thr.vr[4] = 0x001418100615191A1C1C1C13081D1B0E)) = true := by decide +kernel
theorem test_vpkpx : onPpe 0x1081130E (fun th => (th.setVr 1 0x01FFFFFFFEF800000000F800000000F8).setVr 2 0x01800000FF7F7F7F00000000FFFFFFFF) [] 0
    (fun t => decide (t.thr.vr[4] = 0xFFFF7C0003E0001FC000BDEF0000FFFF)) = true := by decide +kernel
theorem test_vupklpx : onPpe 0x108013CE (fun th => th.setVr 2 0x80007C0003E0001FFFFF000084215294) [] 0
    (fun t => decide (t.thr.vr[4] = 0xFF1F1F1F00000000FF01010100141414)) = true := by decide +kernel
theorem test_vslw_counts_modulo : onPpe 0x10811184 (fun th => (th.setVr 1 0xFF00FF000F0F0F0F1234567880000001).setVr 2 0x000000000000000400000020FFFFFFFF) [] 0
    (fun t => decide (t.thr.vr[4] = 0xFF00FF00F0F0F0F01234567880000000)) = true := by decide +kernel
theorem test_vsubsws : onPpe 0x10811780 (fun th => (th.setVr 1 0x00000000800000007FFFFFFF00000005).setVr 2 0x0000000100000001FFFFFFFF00000005) [] 0
    (fun t => decide (t.thr.vr[4] = 0xFFFFFFFF800000007FFFFFFF00000000) && decide (t.thr.vscr &&& 1 = 1)) = true := by decide +kernel
theorem test_vavgsb : onPpe 0x10811502 (fun th => (th.setVr 1 0x01FF00FF7F80FF0001FF00FF7F80FF00).setVr 2 0x02FF00FE7F7F000102FF00FE7F7F0001) [] 0
    (fun t => decide (t.thr.vr[4] = 0x02FF00FF7F00000102FF00FF7F000001) && decide (t.thr.vscr &&& 1 = 0)) = true := by decide +kernel
theorem test_vcmpbfp : onPpe 0x108117C6 (fun th => (th.setVr 1 0x3F00000040000000C00000007FC00000).setVr 2 0x3F8000003F8000003F8000003F800000) [] 0
    (fun t => decide (t.thr.vr[4] = 0x000000008000000040000000C0000000) && decide ((t.thr.cr >>> 4) &&& 15 = 0)) = true := by decide +kernel
theorem test_vmhraddshs : onPpe 0x108110E1 (fun th => ((th.setVr 1 0x800040007FFFFFFF0001200080000003).setVr 2 0x800040007FFFFFFF000100047FFF4000).setVr 3 0x00000001000100000000FFFF80000000) [] 0
    (fun t => decide (t.thr.vr[4] = 0x7FFF20017FFF00000000000080000002) && decide (t.thr.vscr &&& 1 = 1)) = true := by decide +kernel
theorem test_vmsummbm : onPpe 0x108110E5 (fun th => ((th.setVr 1 0xFFFFFFFF01020304807F01FF00000000).setVr 2 0xFFFFFFFF05060708FFFF800209090909).setVr 3 0xFFFFFFFF0000000A0000000000000007) [] 0
    (fun t => decide (t.thr.vr[4] = 0xFFFFFC0300000050FFFFFF7F00000007) && decide (t.thr.vscr &&& 1 = 0)) = true := by decide +kernel
theorem test_vsum4sbs : onPpe 0x10811708 (fun th => (th.setVr 1 0xFFFFFFFF01020304808080807F7F7F7F).setVr 2 0xFFFFFF0000000000800001007FFFFF00) [] 0
    (fun t => decide (t.thr.vr[4] = 0xFFFFFEFC0000000A800000007FFFFFFF) && decide (t.thr.vscr &&& 1 = 1)) = true := by decide +kernel
theorem test_vaddfp_graphics : onPpe 0x1081100A (fun th => { (th.setVr 1 0x3F8000003F8000007F80000000000001).setVr 2 0x3380000033800001FF80000000000001 with vscr := 0x00010000 }) [] (1 <<< 50)
    (fun t => decide (t.thr.vr[4] = 0x3F8000003F8000000000000000000000)) = true := by decide +kernel
theorem test_vnmsubfp : onPpe 0x108110EF (fun th => ((th.setVr 1 0x40400000404000004040000040400000).setVr 3 0x40000000400000004000000040000000).setVr 2 0x3F80000040C0000040E000007FC00001) [] 0
    (fun t => decide (t.thr.vr[4] = 0xC0A00000800000003F8000007FC00001)) = true := by decide +kernel
theorem test_vctsxs_nan : onPpe 0x108113CA (fun th => th.setVr 2 0x403000004E8000007FC00000CE800000) [] 0
    (fun t => decide (t.thr.vr[4] = 0x000000057FFFFFFF0000000080000000) && decide (t.thr.vscr &&& 1 = 1)) = true := by decide +kernel

/-! ## Rows of 98_test_vectors_spe.md -/

/-- SPU 0 performs the word: what `chk` says of its SPE after. -/
noncomputable def onSpu (w : Word) (f : Spe → Spe) (chk : Spe → Bool) : Bool :=
  match decodeSpu w with
  | .ok i =>
    match Machine.exec i { State.reset.modN 0 f with cur := .spu 0 } with
    | .next t => chk t.spe
    | _ => false
  | .error _ => false

theorem test_spu_mpys : onSpu 0x78E14203 (fun p => (p.set 4 0x00004000000080000000FFFF00007FFF).set 5 0x00004000000000010000FFFF00007FFF)
    (fun p => decide (p.get 3 = 0x00001000FFFFFFFF0000000000003FFF)) = true := by decide +kernel
theorem test_spu_fsmbi : onSpu 0x32878783 (fun p => p)
    (fun p => decide (p.get 3 = 0x00000000FFFFFFFF00000000FFFFFFFF)) = true := by decide +kernel
theorem test_spu_ila : onSpu 0x43000003 (fun p => p)
    (fun p => decide (p.get 3 = 0x00020000000200000002000000020000)) = true := by decide +kernel
theorem test_spu_ilhu : onSpu 0x41400003 (fun p => p)
    (fun p => decide (p.get 3 = 0x80000000800000008000000080000000)) = true := by decide +kernel
theorem test_spu_sfx : onSpu 0x68214203 (fun p => ((p.set 4 0x00000001000000050000000700000000).set 5 0x00000005000000010000000700000000).set 3 0x00000001000000010000000000000000)
    (fun p => decide (p.get 3 = 0x00000004FFFFFFFCFFFFFFFFFFFFFFFF)) = true := by decide +kernel
theorem test_spu_addx : onSpu 0x68014203 (fun p => ((p.set 4 0xFFFFFFFF7FFFFFFF00000000FFFFFFFF).set 5 0x000000010000000100000000FFFFFFFF).set 3 0x00000001FFFFFFFE0000000300000000)
    (fun p => decide (p.get 3 = 0x000000018000000000000001FFFFFFFE)) = true := by decide +kernel
theorem test_spu_bgx : onSpu 0x68614203 (fun p => ((p.set 4 0x00000001000000050000000700000000).set 5 0x00000005000000010000000700000000).set 3 0x00000001000000010000000000000000)
    (fun p => decide (p.get 3 = 0x00000001000000000000000000000000)) = true := by decide +kernel
theorem test_spu_cg : onSpu 0x18414203 (fun p => (p.set 4 0xFFFFFFFF7FFFFFFF00000000FFFFFFFF).set 5 0x000000010000000100000000FFFFFFFF)
    (fun p => decide (p.get 3 = 0x00000001000000000000000000000001)) = true := by decide +kernel
theorem test_spu_a : onSpu 0x1800C183 (fun p => p.set 3 0xFFFFFFFF7FFFFFFF0000000080000000)
    (fun p => decide (p.get 3 = 0xFFFFFFFEFFFFFFFE0000000000000000)) = true := by decide +kernel
theorem test_spu_sfh : onSpu 0x09014203 (fun p => (p.set 4 0x000180000000FFFF000180000000FFFF).set 5 0x00000000000000010000000000000001)
    (fun p => decide (p.get 3 = 0xFFFF800000000002FFFF800000000002)) = true := by decide +kernel
theorem test_spu_ahi : onSpu 0x1DFFC203 (fun p => p.set 4 0x000000018000FFFF000000018000FFFF)
    (fun p => decide (p.get 3 = 0xFFFF00007FFFFFFEFFFF00007FFFFFFE)) = true := by decide +kernel
theorem test_spu_clz : onSpu 0x54A00203 (fun p => p.set 4 0x00000000000000010001000080000000)
    (fun p => decide (p.get 3 = 0x000000200000001F0000000F00000000)) = true := by decide +kernel
theorem test_spu_cntb : onSpu 0x56800203 (fun p => p.set 4 0x00FFA5010203070F1F3F7F80C0E0F0AA)
    (fun p => decide (p.get 3 = 0x00080401010203040506070102030404)) = true := by decide +kernel
theorem test_spu_gbb : onSpu 0x36400203 (fun p => p.set 4 0x01020400FF00FE80000000000000FE03)
    (fun p => decide (p.get 3 = 0x00008801000000000000000000000000)) = true := by decide +kernel
theorem test_spu_avgb : onSpu 0x1A614203 (fun p => (p.set 4 0xFF0100FE0102030480807F7F00FF00FF).set 5 0xFF0200FF0403020180817F80FF00FF00)
    (fun p => decide (p.get 3 = 0xFF0200FF0303030380817F8080808080)) = true := by decide +kernel
theorem test_spu_absdb : onSpu 0x0A614203 (fun p => (p.set 4 0xFF0100FE0102030480807F7F00FF00FF).set 5 0xFF0200FF0403020180817F80FF00FF00)
    (fun p => decide (p.get 3 = 0x000100010301010300010001FFFFFFFF)) = true := by decide +kernel
theorem test_spu_sumb : onSpu 0x4A614203 (fun p => (p.set 4 0x01020304FFFFFFFF0000000080808080).set 5 0xFFFFFFFF00000001000000007F7F7F7F)
    (fun p => decide (p.get 3 = 0x03FC000A000103FC0000000001FC0200)) = true := by decide +kernel
theorem test_spu_xsbh : onSpu 0x56C00203 (fun p => p.set 4 0x1280FF7F00FF80001280FF7F00FF8000)
    (fun p => decide (p.get 3 = 0xFF80007FFFFF0000FF80007FFFFF0000)) = true := by decide +kernel
theorem test_spu_orx : onSpu 0x3E000203 (fun p => p.set 4 0x00000000000000000000000000000000)
    (fun p => decide (p.get 3 = 0x00000000000000000000000000000000)) = true := by decide +kernel
theorem test_spu_selb : onSpu 0x80614183 (fun p => (p.set 3 0xAAAAAAAA111111111234567800000000).set 5 0x55555555222222229ABCDEF0FFFFFFFF)
    (fun p => decide (p.get 3 = 0x00000000000000001234567000000000)) = true := by decide +kernel
theorem test_spu_shufb : onSpu 0xB1020109 (fun p => ((p.set 2 0x00000068000000010000000200000003).set 8 0xAAAAAAAABBBBBBBBCCCCCCCCDDDDDDDD).set 9 0x101112130001020318191A1B1C1D1E1F)
    (fun p => decide (p.get 8 = 0xAAAAAAAA00000068CCCCCCCCDDDDDDDD)) = true := by decide +kernel
theorem test_spu_shl : onSpu 0x0B60C183 (fun p => p.set 3 0x00000001000000020000000300000004)
    (fun p => decide (p.get 3 = 0x00000002000000080000001800000040)) = true := by decide +kernel
theorem test_spu_shlh : onSpu 0x0BE14203 (fun p => (p.set 4 0x80010FFFFFFF00010001FFFF80011234).set 5 0x0001000400100020000F001F010F0000)
    (fun p => decide (p.get 3 = 0x0002FFF0000000018000000080001234)) = true := by decide +kernel
theorem test_spu_rotqbyi : onSpu 0x3F9F0203 (fun p => p.set 4 0x000102030405060708090A0B0C0D0E0F)
    (fun p => decide (p.get 3 = 0x0C0D0E0F000102030405060708090A0B)) = true := by decide +kernel
theorem test_spu_rotqmbybi : onSpu 0x39A14203 (fun p => (p.set 4 0x000102030405060708090A0B0C0D0E0F).set 5 0xFFFFFFEC000000000000000000000000)
    (fun p => decide (p.get 3 = 0x000000000102030405060708090A0B0C)) = true := by decide +kernel
theorem test_spu_rotm : onSpu 0x0B214203 (fun p => (p.set 4 0x80000001FFFFFFFF1234567880000000).set 5 0xFFFFFFFFFFFFFFE00000000000000001)
    (fun p => decide (p.get 3 = 0x40000000000000001234567800000000)) = true := by decide +kernel
theorem test_spu_rotma : onSpu 0x0B414203 (fun p => (p.set 4 0x800000017FFFFFFF80000000FFFFFFFE).set 5 0xFFFFFFFFFFFFFFE1FFFFFFD8FFFFFFFF)
    (fun p => decide (p.get 3 = 0xC000000000000000FFFFFFFFFFFFFFFF)) = true := by decide +kernel
theorem test_spu_rothmi : onSpu 0x0FBF4203 (fun p => p.set 4 0x8000FFFF123480018000FFFF12348001)
    (fun p => decide (p.get 3 = 0x10001FFF0246100010001FFF02461000)) = true := by decide +kernel
theorem test_spu_roti : onSpu 0x0F040203 (fun p => p.set 4 0x8000000112345678FFFFFFFF00000001)
    (fun p => decide (p.get 3 = 0x0001800056781234FFFFFFFF00010000)) = true := by decide +kernel
theorem test_spu_cgtb : onSpu 0x4A014203 (fun p => (p.set 4 0x12FF01807F00011000112233FFFEFDFC).set 5 0x12017F7F80FF011100112234FFFEFDFB)
    (fun p => decide (p.get 3 = 0x00000000FFFF000000000000000000FF)) = true := by decide +kernel
theorem test_spu_clgthi : onSpu 0x5DFFC203 (fun p => p.set 4 0x80007FFFFFFE00000001FFFF12348000)
    (fun p => decide (p.get 3 = 0x00000000000000000000000000000000)) = true := by decide +kernel
theorem test_spu_ceqbi : onSpu 0x7EFFC203 (fun p => p.set 4 0x12FF01807F00011000112233FFFEFDFC)
    (fun p => decide (p.get 3 = 0x00FF00000000000000000000FF000000)) = true := by decide +kernel
theorem test_spu_fa : onSpu 0x58814203 (fun p => (p.set 4 0x3F800000FF7FFFFF7FFFFFFF3F800001).set 5 0xBF800000FF7FFFFF7FFFFFFFBF800000)
    (fun p => decide (p.get 3 = 0x00000000FFFFFFFF7FFFFFFF34000000)) = true := by decide +kernel
theorem test_spu_fm : onSpu 0x58C14203 (fun p => (p.set 4 0x80800000C00000003F80000100000000).set 5 0x3F000000000000003F8000017FFFFFFF)
    (fun p => decide (p.get 3 = 0x00000000000000003F80000200000000)) = true := by decide +kernel
theorem test_spu_fma : onSpu 0xE0614206 (fun p => ((p.set 4 0x3F800001400000007F00000000800000).set 5 0x3F80000140400000400000003F000000).set 6 0xBF80000241200000FF00000000800000)
    (fun p => decide (p.get 3 = 0x28800000418000007F00000000C00000)) = true := by decide +kernel
theorem test_spu_dfs : onSpu 0x59A14203 (fun p => (p.set 4 0x7FF00000000000003FF0000000000000).set 5 0x7FF00000000000003FF0000000000000)
    (fun p => decide (p.get 3 = 0x7FF80000000000000000000000000000)) = true := by decide +kernel
theorem test_spu_fcgt : onSpu 0x58414203 (fun p => (p.set 4 0xC00000007FFFFFFFFFFFFFFF7FC00000).set 5 0x3F8000007FFFFFFF7FFFFFFF7FC00000)
    (fun p => decide (p.get 3 = 0x00000000000000000000000000000000)) = true := by decide +kernel
theorem test_spu_csflt : onSpu 0x76870203 (fun p => p.set 4 0x00000001800000000000000300000000)
    (fun p => decide (p.get 3 = 0x000000008F80000000C0000000000000)) = true := by decide +kernel
theorem test_spu_cflts : onSpu 0x762B4203 (fun p => p.set 4 0x4F000000CF0000004EFFFFFF00400000)
    (fun p => decide (p.get 3 = 0x7FFFFFFF800000007FFFFF8000000000)) = true := by decide +kernel
theorem test_spu_frds : onSpu 0x77200203 (fun p => p.set 4 0x7FEFFFFFFFFFFFFF7FF0000000000001)
    (fun p => decide (p.get 3 = 0x7F800000000000007FC0000000000000)) = true := by decide +kernel
theorem test_spu_fesd : onSpu 0x77000203 (fun p => p.set 4 0x80400000000000007FC0000100000000)
    (fun p => decide (p.get 3 = 0x80000000000000007FF8000000000000)) = true := by decide +kernel
theorem test_spu_bra : onSpu 0x30002000 (fun p => p)
    (fun p => decide (p.pc = 0x00100)) = true := by decide +kernel
theorem test_spu_brsl : onSpu 0x33000200 (fun p => { p with pc := 0x3FFFC })
    (fun p => decide (p.get 0 = 0x00000000000000000000000000000000) && decide (p.pc = 0x0000C)) = true := by decide +kernel
theorem test_spu_brhnz : onSpu 0x23000103 (fun p => ({ p with pc := 0x00120 }).set 3 0x00008000000000000000000000000000)
    (fun p => decide (p.pc = 0x00128)) = true := by decide +kernel
theorem test_spu_bisl : onSpu 0x35200183 (fun p => ({ p with pc := 0x00100 }).set 3 0x00000400000000000000000000000000)
    (fun p => decide (p.get 3 = 0x00000104000000000000000000000000)) = true := by decide +kernel
theorem test_spu_iohl : onSpu 0x60FFFF83 (fun p => p.set 3 0x1234000100000000FFFF00000000FFFF)
    (fun p => decide (p.get 3 = 0x1234FFFF0000FFFFFFFFFFFF0000FFFF)) = true := by decide +kernel
theorem test_spu_gb : onSpu 0x36000183 (fun p => p.set 3 0x00000002000000040000000600000008)
    (fun p => decide (p.get 3 = 0x00000000000000000000000000000000)) = true := by decide +kernel
theorem test_spu_cbd : onSpu 0x3E9FC083 (fun p => p.set 1 0x00001000000000000000000000000000)
    (fun p => decide (p.get 3 = 0x101112131415161718191A1B1C1D1E03)) = true := by decide +kernel
theorem test_spu_cdd : onSpu 0x3EE00083 (fun p => p.set 1 0x00001003000000000000000000000000)
    (fun p => decide (p.get 3 = 0x000102030405060718191A1B1C1D1E1F)) = true := by decide +kernel

/-! ## Inbound writes (by hand from 20_memory R388: the first of two writes of one device to one I/O address is written first) -/

def writer : IoUnit := { ifc := 0, ioid := 5, vc := 0, s := false }

/-- Two writes of one device that share the I/O address x'104'. -/
def twoWrites : State :=
  (State.reset.acceptWrite none writer false 0x100 8 [(0x1000, [1, 2, 3, 4]), (0x1004, [5, 6, 7, 8])]).acceptWrite none writer false
    0x104 4 [(0x1004, [9, 9, 9, 9])]

theorem test_inbound_later_waits : decide (readBytes (twoWrites.ioData 1 0).mem 0x1000 8 = 0) = true := by decide +kernel
theorem test_inbound_pieces_any_order : decide (readBytes (twoWrites.ioData 0 1).mem 0x1000 8 = 0x05060708) = true := by decide +kernel
theorem test_inbound_later_wins : decide (readBytes (twoWrites.performInbound fun x => x.w.seq == 1).mem 0x1000 8
    = 0x0102030409090909) = true := by decide +kernel

end Sys2Proof.Tests
end

section
/-! Answers all of whose next states have a property: for each of the results that the parts of a step deliver, one predicate,
and the rules of `Res.bind`, `Res.done` and `Res.forEach`. -/

namespace Sys2Proof.Machine

/-! ## The predicates -/

/-- The next state of an answer, if it has one, has the property. -/
def OutAll (P : State → Prop) : Out State → Prop
  | .next t => P t
  | .fault _ => True
  | .refused _ => True

/-- The state a part goes on with, or the answer it ends with, has the property. -/
def ResAll (P : State → Prop) {α : Type} : Res α → Prop
  | .ok _ s => P s
  | .stop o => OutAll P o

/-- The same of the lookup of a translation. -/
def LookupAll (P : State → Prop) : Lookup → Prop
  | .page _ s => P s
  | .noSegment s => P s
  | .pageFault s => P s
  | .realViolation s => P s
  | .stop o => OutAll P o

/-- The same of a search of the page table, which changes nothing when it finds something. -/
def WalkAll (P : State → Prop) : Walk → Prop
  | .found _ _ _ => True
  | .none => True
  | .stop o => OutAll P o

/-- The same of the translation of an MFC access. -/
def DmaAll (P : State → Prop) : DmaRes → Prop
  | .real _ s => P s
  | .held s => P s
  | .fault _ _ _ s => P s
  | .stop o => OutAll P o

/-- The same of the load of a piece. -/
def LoadedAll (P : State → Prop) : Loaded → Prop
  | .value _ s => P s
  | .missing s => P s
  | .stop o => OutAll P o

/-- The same of the translation of the pieces of an operand. -/
def PreparedAll (P : State → Prop) : Prepared → Prop
  | .all _ s => P s
  | .some _ o => OutAll P o

/-- The same of an I/O translation. -/
def IoAll (P : State → Prop) {α : Type} : IoRes α → Prop
  | .real _ _ s => P s
  | .fault _ s => P s
  | .stop o => OutAll P o

/-! ## What they say of each constructor -/

section
variable {P : State → Prop} {α β : Type}

@[simp] theorem outAll_next {t : State} : OutAll P (.next t) ↔ P t := .rfl
@[simp] theorem outAll_refused {r : Refusal} : OutAll P (.refused r) := trivial

@[simp] theorem resAll_ok {v : α} {s : State} : ResAll P (.ok v s) ↔ P s := .rfl
@[simp] theorem resAll_stop {o : Out State} : ResAll P (.stop o : Res α) ↔ OutAll P o := .rfl

@[simp] theorem lookupAll_page {p : Page} {s : State} : LookupAll P (.page p s) ↔ P s := .rfl
@[simp] theorem lookupAll_pageFault {s : State} : LookupAll P (.pageFault s) ↔ P s := .rfl
@[simp] theorem lookupAll_realViolation {s : State} : LookupAll P (.realViolation s) ↔ P s := .rfl

@[simp] theorem walkAll_found {a : Nat} {d0 d1 : DWord} : WalkAll P (.found a d0 d1) := trivial
@[simp] theorem walkAll_stop {o : Out State} : WalkAll P (.stop o) ↔ OutAll P o := .rfl

@[simp] theorem dmaAll_real {a : Nat} {s : State} : DmaAll P (.real a s) ↔ P s := .rfl
@[simp] theorem dmaAll_held {s : State} : DmaAll P (.held s) ↔ P s := .rfl
@[simp] theorem dmaAll_fault {w : DWord} {d : Option DWord} {b : Bool} {s : State} : DmaAll P (.fault w d b s) ↔ P s := .rfl

@[simp] theorem loadedAll_value {v : Nat} {s : State} : LoadedAll P (.value v s) ↔ P s := .rfl
@[simp] theorem loadedAll_missing {s : State} : LoadedAll P (.missing s) ↔ P s := .rfl
@[simp] theorem loadedAll_stop {o : Out State} : LoadedAll P (.stop o) ↔ OutAll P o := .rfl

@[simp] theorem ioAll_real {v : α} {b : BitVec 2} {s : State} : IoAll P (.real v b s) ↔ P s := .rfl
@[simp] theorem ioAll_fault {b : BitVec 2} {s : State} : IoAll P (.fault b s : IoRes α) ↔ P s := .rfl
@[simp] theorem ioAll_stop {o : Out State} : IoAll P (.stop o : IoRes α) ↔ OutAll P o := .rfl

/-! ## Either of two answers -/

@[simp] theorem outAll_ite {c : Prop} [Decidable c] {a b : Out State} :
    OutAll P (if c then a else b) ↔ if c then OutAll P a else OutAll P b := by split <;> rfl
@[simp] theorem resAll_ite {c : Prop} [Decidable c] {a b : Res α} :
    ResAll P (if c then a else b) ↔ if c then ResAll P a else ResAll P b := by split <;> rfl
@[simp] theorem lookupAll_ite {c : Prop} [Decidable c] {a b : Lookup} :
    LookupAll P (if c then a else b) ↔ if c then LookupAll P a else LookupAll P b := by split <;> rfl
@[simp] theorem walkAll_ite {c : Prop} [Decidable c] {a b : Walk} :
    WalkAll P (if c then a else b) ↔ if c then WalkAll P a else WalkAll P b := by split <;> rfl
@[simp] theorem dmaAll_ite {c : Prop} [Decidable c] {a b : DmaRes} :
    DmaAll P (if c then a else b) ↔ if c then DmaAll P a else DmaAll P b := by split <;> rfl
@[simp] theorem loadedAll_ite {c : Prop} [Decidable c] {a b : Loaded} :
    LoadedAll P (if c then a else b) ↔ if c then LoadedAll P a else LoadedAll P b := by split <;> rfl
@[simp] theorem ioAll_ite {c : Prop} [Decidable c] {a b : IoRes α} :
    IoAll P (if c then a else b) ↔ if c then IoAll P a else IoAll P b := by split <;> rfl

theorem ResAll.ite {c : Prop} [Decidable c] {a b : Res α} (ha : ResAll P a) (hb : ResAll P b) : ResAll P (if c then a else b) := by
  split <;> assumption

theorem OutAll.ite {c : Prop} [Decidable c] {a b : Out State} (ha : OutAll P a) (hb : OutAll P b) : OutAll P (if c then a else b) := by
  split <;> assumption

/-! ## One part after another -/

theorem ResAll.bind {r : Res α} {f : α → State → Res β} (hr : ResAll P r) (hf : ∀ v s, P s → ResAll P (f v s)) :
    ResAll P (r.bind f) := by
  cases r with
  | ok v s => exact hf v s hr
  | stop o => exact hr

theorem ResAll.done {r : Res α} {f : α → State → Out State} (hr : ResAll P r) (hf : ∀ v s, P s → OutAll P (f v s)) :
    OutAll P (r.done f) := by
  cases r with
  | ok v s => exact hf v s hr
  | stop o => exact hr

theorem IoAll.bind {r : IoRes α} {f : α → State → IoRes β} (hr : IoAll P r) (hf : ∀ v s, P s → IoAll P (f v s)) :
    IoAll P (r.bind f) := by
  cases r with
  | real v so s => exact hf v s hr
  | fault type s => exact hr
  | stop o => exact hr

/-- A fold of steps each of which keeps the property. -/
theorem foldl_keeps {f : State → α → State} (hf : ∀ s x, P s → P (f s x)) (l : List α) {s : State} (h : P s) :
    P (l.foldl f s) := by
  induction l generalizing s with
  | nil => exact h
  | cons x rest ih => exact ih (hf s x h)

end

end Sys2Proof.Machine
end

section
/-! The MSR of a thread, and when it is legal (10_state R54, 44_ppe_system R923, R928, 60_exceptions R1805): what an interrupt, a return
from one, and a move to the MSR make of it. -/

namespace Sys2Proof.Machine

open Sys2Proof.Safety

/-! ## Legal values -/

/-- Without problem state only the reserved bits matter. -/
theorem legalMsr_of_privileged {m : DWord} (hr : m &&& ~~~0x900000000200FF32#64 = 0) (hp : ibit m 49 = false) : legalMsr m :=
  ⟨hr, fun h => absurd (hp.symm.trans h) Bool.false_ne_true⟩

/-- A defined bit other than EE, PR, IR and DR may have any value. -/
theorem legalMsr_setIbit {m : DWord} {j : Nat} (b : Bool) (h : legalMsr m) (hj : j < 64)
    (hd : ibit (0x900000000200FF32#64) j = true) (hn : j ≠ 48 ∧ j ≠ 49 ∧ j ≠ 58 ∧ j ≠ 59) : legalMsr (setIbit m j b) := by
  obtain ⟨hr, hp⟩ := h
  obtain ⟨h48, h49, h58, h59⟩ := hn
  refine ⟨(setIbit_outside m _ j b hd).trans hr, ?_⟩
  simp only [ibit_setIbit m j _ b hj, Nat.reduceLT, h48, h49, h58, h59, if_false]
  exact hp

theorem ibit_and {n : Nat} (v w : BitVec n) (k : Nat) : ibit (v &&& w) k = (ibit v k && ibit w k) := BitVec.getLsbD_and ..
theorem ibit_or_right {n : Nat} {v w : BitVec n} {k : Nat} (h : ibit w k = true) : ibit (v ||| w) k = true := by
  unfold ibit at *
  rw [BitVec.getLsbD_or, h, Bool.or_true]

/-- What an interrupt makes of the MSR (R1805). -/
theorem newMsr_legal (p : PpeShared) (k : Interrupt) {m : DWord} (h : legalMsr m) : legalMsr (newMsr p k m) := by
  have h0 : legalMsr ((m ||| 0x8000000000000000#64) &&& ~~~0xEF30#64) := by
    refine legalMsr_of_privileged ?_ ?_
    · rw [BitVec.and_assoc, BitVec.and_comm (~~~0xEF30#64), ← BitVec.and_assoc, BitVec.and_or_distrib_right, h.1]
      decide
    · rw [ibit_and, show ibit (~~~0xEF30#64) 49 = false by decide, Bool.and_false]
  have h1 := legalMsr_setIbit (j := 3) (ibit m 3 || setsHv p k) h0 (by decide) (by decide) (by decide)
  have hMe : ∀ n, legalMsr n → legalMsr (if clearsMe k then setIbit n 51 false else n) := by
    intro n hn
    split
    · exact legalMsr_setIbit false hn (by decide) (by decide) (by decide)
    · exact hn
  have hRi : ∀ n, legalMsr n → legalMsr (if usesHsrr p k then n else setIbit n 62 false) := by
    intro n hn
    split
    · exact hn
    · exact legalMsr_setIbit false hn (by decide) (by decide) (by decide)
  exact hRi _ (hMe _ h1)

/-- The MSR that an image gives (R923, R928). -/
theorem msrOf_legal (image : DWord) : legalMsr (msrOf image) := by
  have hr : image &&& msrMask &&& ~~~0x900000000200FF32#64 = 0 := by
    rw [BitVec.and_assoc, show msrMask &&& ~~~0x900000000200FF32#64 = 0 by decide]
    exact BitVec.and_zero
  unfold msrOf
  dsimp only
  split
  · refine ⟨?_, fun _ => ?_⟩
    · rw [BitVec.and_or_distrib_right, hr]
      decide
    · exact ⟨ibit_or_right (by decide), ibit_or_right (by decide), ibit_or_right (by decide)⟩
  · next hp => exact legalMsr_of_privileged hr (Bool.eq_false_iff.mpr hp)

/-- What a return from an interrupt makes of the MSR (R923, R924). -/
theorem returnFrom_legal (th : Thread) (hyper : Bool) : legalMsr (th.returnFrom hyper).msr := by
  unfold Thread.returnFrom
  dsimp only
  split
  · exact msrOf_legal _
  · exact legalMsr_setIbit _ (legalMsr_setIbit _ (msrOf_legal _) (by decide) (by decide) (by decide)) (by decide) (by decide) (by decide)

/-- What a move to the MSR makes of it outside problem state (R928, R929). -/
theorem moveMsr_legal {old : DWord} (v : DWord) (l : Bool) (h : legalMsr old) (hp : ibit old 49 = false) :
    legalMsr (moveMsr old v l) := by
  unfold moveMsr
  split
  · refine legalMsr_of_privileged ?_ ?_
    · rw [setIbit_outside _ _ 62 _ (by decide), setIbit_outside _ _ 48 _ (by decide)]
      exact h.1
    · rw [ibit_setIbit _ 62 49 _ (by decide) (by decide), if_neg (by decide), ibit_setIbit _ 48 49 _ (by decide) (by decide),
        if_neg (by decide)]
      exact hp
  · exact legalMsr_setIbit _ (legalMsr_setIbit _ (msrOf_legal _) (by decide) (by decide) (by decide)) (by decide) (by decide) (by decide)

theorem resetMsr_legal (me : Bool) : legalMsr (resetMsr me) := by
  cases me <;> exact legalMsr_of_privileged (by decide) (by decide)

/-! ## Both threads -/

section
variable {s : State}

/-- Only the threads matter. -/
@[simp] theorem legalMsrs_mk {ppe : PpeShared} {spes : Vector Spe 8} {plat : Platform} {mem : List Host.Cell} {cfg : ChipConfig}
    {cur : Agent} {sel : MfcSel} {schedule : List Move} {freeCount : Nat} {stopped : Option Fault} :
    legalMsrs ⟨s.threads, ppe, spes, plat, mem, cfg, cur, sel, schedule, freeCount, stopped⟩ ↔ legalMsrs s := .rfl

@[simp] theorem legalMsrs_ite {c : Prop} [Decidable c] {a b : State} :
    legalMsrs (if c then a else b) ↔ if c then legalMsrs a else legalMsrs b := by split <;> rfl

@[simp] theorem legalMsrs_modN {n : Fin 8} {f : Spe → Spe} : legalMsrs (s.modN n f) ↔ legalMsrs s := .rfl
@[simp] theorem legalMsrs_modSpe {f : Spe → Spe} : legalMsrs (s.modSpe f) ↔ legalMsrs s := .rfl
@[simp] theorem legalMsrs_drew {k : Nat} : legalMsrs (s.drew k) ↔ legalMsrs s := .rfl

/-- A state whose threads have the MSRs of `s`. -/
theorem legalMsrs_of_msr {t : State} (h : legalMsrs s) (he : ∀ u : Fin 2, t.threads[u].msr = s.threads[u].msr) : legalMsrs t :=
  fun u => (he u).symm ▸ h u

/-- An update of one thread that leaves it a legal MSR. -/
theorem legalMsrs_modT {u : Fin 2} {f : Thread → Thread} (h : legalMsrs s)
    (hf : legalMsr s.threads[u].msr → legalMsr (f s.threads[u]).msr) : legalMsrs (s.modT u f) := by
  intro v
  rw [State.threads_modT]
  split
  · exact hf (h u)
  · exact h v

/-- An update of one thread that leaves its MSR alone. -/
@[simp] theorem legalMsrs_modT_frame {u : Fin 2} {f : Thread → Thread} (hf : ∀ th, (f th).msr = th.msr) :
    legalMsrs (s.modT u f) ↔ legalMsrs s := by
  have he : ∀ v : Fin 2, (s.modT u f).threads[v].msr = s.threads[v].msr := by
    intro v
    rw [State.threads_modT]
    split
    · next h => rw [hf, h]
    · rfl
  exact forall_congr' fun v => by rw [he v]

@[simp] theorem legalMsrs_modThr_frame {f : Thread → Thread} (hf : ∀ th, (f th).msr = th.msr) :
    legalMsrs (s.modThr f) ↔ legalMsrs s := legalMsrs_modT_frame hf

theorem legalMsrs_mapThreads {f : Thread → Thread} (h : legalMsrs s) (hf : ∀ th, (f th).msr = th.msr) :
    legalMsrs { s with threads := s.threads.map f } :=
  legalMsrs_of_msr h fun u => by simp [hf]

/-! ## Interrupts -/

@[simp] theorem interrupt_legal {u : Fin 2} {k : Interrupt} {ret info : DWord} (h : legalMsrs s) :
    legalMsrs (s.interrupt u k ret info) := by
  refine legalMsrs_modT h fun hu => newMsr_legal _ _ ?_
  split <;> exact hu

@[simp] theorem stopWith_legal {f : Fault} (h : legalMsrs s) : OutAll legalMsrs (s.stopWith f) := h
@[simp] theorem checkstop_legal (h : legalMsrs s) : OutAll legalMsrs s.checkstop := h
@[simp] theorem raise_legal {k : Interrupt} {info : DWord} (h : legalMsrs s) : OutAll legalMsrs (s.raise k info) := interrupt_legal h
@[simp] theorem illegal_legal (h : legalMsrs s) : OutAll legalMsrs s.illegal := raise_legal h
@[simp] theorem privileged_legal (h : legalMsrs s) : OutAll legalMsrs s.privileged := raise_legal h
@[simp] theorem trapInt_legal (h : legalMsrs s) : OutAll legalMsrs s.trapInt := raise_legal h
@[simp] theorem fpEnabledInt_legal (h : legalMsrs s) : OutAll legalMsrs s.fpEnabledInt := raise_legal h
@[simp] theorem fpUnavailable_legal (h : legalMsrs s) : OutAll legalMsrs s.fpUnavailable := raise_legal h
@[simp] theorem vxuUnavailable_legal (h : legalMsrs s) : OutAll legalMsrs s.vxuUnavailable := raise_legal h

@[simp] theorem takeMachineCheck_legal {u : Fin 2} (h : legalMsrs s) : OutAll legalMsrs (s.takeMachineCheck u) := by
  simp [State.takeMachineCheck, h]

/-- An instruction that wrote a legal MSR. -/
@[simp] theorem msrWritten_legal {t : State} (h : legalMsrs t) : OutAll legalMsrs (s.msrWritten t) := by
  simp [State.msrWritten, h]

/-! ## The ends of an instruction, and its guards -/

@[simp] theorem ppeNext_legal {f : Thread → Thread} (h : legalMsrs s) (hf : ∀ th, (f th).msr = th.msr) :
    OutAll legalMsrs (ppeNext s f) := by
  simpa [ppeNext, hf] using h

@[simp] theorem vmxNext_legal {f : Thread → Thread} (h : legalMsrs s) (hf : ∀ th, (f th).msr = th.msr) :
    OutAll legalMsrs (vmxNext s f) := by
  obtain ⟨-, he⟩ | ⟨-, he⟩ := vmxNext_cases s f
  · rw [he]; exact ppeNext_legal h hf
  · rw [he]; exact vxuUnavailable_legal h

@[simp] theorem spuNext_legal {f : Spe → Spe} (h : legalMsrs s) : OutAll legalMsrs (spuNext s f) := h

theorem fpGuard_legal {o : Out State} (h : legalMsrs s) (ho : OutAll legalMsrs o) : OutAll legalMsrs (fpGuard s o) := by
  simp [fpGuard, h, ho]

theorem vmxGuard_legal {o : Out State} (h : legalMsrs s) (ho : OutAll legalMsrs o) : OutAll legalMsrs (vmxGuard s o) := by
  simp [vmxGuard, h, ho]

/-- What a privileged instruction does outside problem state. -/
theorem supervisor_legal {o : Out State} (h : legalMsrs s) (ho : ibit s.thr.msr 49 = false → OutAll legalMsrs o) :
    OutAll legalMsrs (supervisor s o) := by
  unfold supervisor
  split
  · exact privileged_legal h
  · next hp => exact ho (Bool.eq_false_iff.mpr hp)

theorem hypervisorOnly_legal {o : Out State} (h : legalMsrs s) (ho : OutAll legalMsrs o) : OutAll legalMsrs (hypervisorOnly s o) := by
  simp [hypervisorOnly, h, ho]

theorem tlbManager_legal {o : Out State} (h : legalMsrs s) (ho : OutAll legalMsrs o) : OutAll legalMsrs (tlbManager s o) := by
  simp [tlbManager, h, ho]

/-! ## Stores, and the reservations they end -/

@[simp] theorem Thread.loseReserve_msr (th : Thread) (g : Nat) : (th.loseReserve g).msr = th.msr := by
  unfold Thread.loseReserve
  split <;> rfl

@[simp] theorem noteStore_legal {b : Option Agent} {g : Nat} (h : legalMsrs s) : legalMsrs (s.noteStore b g) :=
  legalMsrs_of_msr h fun u => by
    obtain he | he := State.threads_noteStore s b g u
    · rw [he]
    · rw [he, Thread.loseReserve_msr]

@[simp] theorem noteStores_legal {b : Option Agent} {a k : Nat} (h : legalMsrs s) : legalMsrs (s.noteStores b a k) := by
  simp [State.noteStores, h]

@[simp] theorem storeMem_legal {b : Option Agent} {a k v : Nat} (h : legalMsrs s) : legalMsrs (s.storeMem b a k v) :=
  noteStores_legal h

@[simp] theorem noteTouch_legal {g : Nat} (h : legalMsrs s) : legalMsrs (s.noteTouch g) := by
  simp [State.noteTouch, h]

end

end Sys2Proof.Machine
end

section
/-! Translation, special registers and invalidation, pending inbound writes, interrupt packets: the MSRs stay legal. -/

namespace Sys2Proof.Machine

open Sys2Proof.Safety

section
variable {s : State}

/-! ## Translation (Machine/Mmu.lean) -/

theorem tableSearch_legal {sdr : DWord} {e : SlbEntry} {va : BitVec 80} {p : Nat} {several : Out State} (h : legalMsrs s)
    (hs : OutAll legalMsrs several) : WalkAll legalMsrs (tableSearch s sdr e va p several) := by
  unfold tableSearch
  dsimp only
  split
  · trivial
  · split
    · exact checkstop_legal h
    · split
      · trivial
      · simp [hs]

@[simp] theorem setPteBits_legal {a : Agent} {k : Nat} {d bits : DWord} (h : legalMsrs s) : legalMsrs (s.setPteBits a k d bits) := by
  simp [State.setPteBits, h]

@[simp] theorem legalMsrs_setTlb {key : Nat} {x : TlbEntry} : legalMsrs (s.setTlb key x) ↔ legalMsrs s := .rfl

@[simp] theorem realMode_legal {th : Thread} {ea : DWord} {k : Kind} (h : legalMsrs s) : LookupAll legalMsrs (realMode s th ea k) := by
  simp [realMode, h]

@[simp] theorem pageOrRefuse_legal {x : TlbEntry} {e : SlbEntry} {ea : DWord} {p : Nat} {slot pte : Option Nat} (h : legalMsrs s) :
    LookupAll legalMsrs (pageOrRefuse s x e ea p slot pte) := by
  unfold pageOrRefuse
  split
  · trivial
  · exact h

@[simp] theorem reload_legal {t : Fin 2} {e : SlbEntry} {ea : DWord} {p key : Nat} (h : legalMsrs s) :
    LookupAll legalMsrs (reload s t e ea p key) := by
  have hw := tableSearch_legal (sdr := s.ppe.sdr1) (e := e) (va := vaOf e ea) (p := p) h (checkstop_legal h)
  unfold reload
  dsimp only
  split
  · next he => rwa [he] at hw
  · exact h
  · exact pageOrRefuse_legal (by simp [h])

@[simp] theorem virtualMode_legal {t : Fin 2} {th : Thread} {ea : DWord} {k : Kind} (h : legalMsrs s) :
    LookupAll legalMsrs (virtualMode s t th ea k) := by
  unfold virtualMode
  split
  · exact h
  · split
    · trivial
    · dsimp only
      split
      · exact pageOrRefuse_legal h
      · simp [h]
  · exact checkstop_legal h

theorem lookup_legal {t : Fin 2} {ea : DWord} {k : Kind} (h : legalMsrs s) : LookupAll legalMsrs (lookup s t ea k) := by
  unfold lookup
  dsimp only
  split
  · exact h
  · simp [h]

theorem pteOfPage_legal {t : Fin 2} {p : Page} {ea : DWord} (h : legalMsrs s) : WalkAll legalMsrs (s.pteOfPage t p ea) := by
  unfold State.pteOfPage
  split
  · trivial
  · split
    · exact tableSearch_legal h (checkstop_legal h)
    · trivial

@[simp] theorem markChange_legal {t : Fin 2} {key : Nat} {p : Page} {ea : DWord} (h : legalMsrs s) :
    legalMsrs (s.markChange t key p ea) := by
  unfold State.markChange
  dsimp only
  split
  · simp [h]
  · exact h

@[simp] theorem setReference_legal {t : Fin 2} {p : Page} {ea : DWord} (h : legalMsrs s) : legalMsrs (s.setReference t p ea) := by
  unfold State.setReference
  split
  · split
    · exact setPteBits_legal h
    · exact h
  · exact h

theorem setChange_legal {t : Fin 2} {p : Page} {ea : DWord} (h : legalMsrs s) : ResAll legalMsrs (s.setChange t p ea) := by
  have hw := pteOfPage_legal (t := t) (p := p) (ea := ea) h
  unfold State.setChange
  split
  · exact h
  · split
    · exact h
    · split
      · next he => rwa [he] at hw
      · exact markChange_legal h
      · exact markChange_legal (setPteBits_legal h)

theorem translateFetch_legal {t : Fin 2} {ea : DWord} (h : legalMsrs s) : ResAll legalMsrs (translateFetch s t ea) := by
  have hl := lookup_legal (t := t) (ea := ea) (k := .fetch) h
  unfold translateFetch
  dsimp only
  split <;> rename_i he <;> rw [he] at hl
  · exact hl
  · exact interrupt_legal hl
  · exact interrupt_legal hl
  · exact interrupt_legal hl
  · have hp := lookupAll_page.mp hl
    simp [hp]

/-! ## Special registers, synchronization, invalidation (Machine/PpeSystem.lean) -/

theorem sprAccess_legal {n : Nat} {p : Option Priv} {o : Out State} (h : legalMsrs s) (ho : OutAll legalMsrs o) :
    OutAll legalMsrs (sprAccess s n p o) := by
  unfold sprAccess
  split
  · simp [h]
  · exact ho
  · exact supervisor_legal h fun _ => ho
  · exact hypervisorOnly_legal h ho
  · exact tlbManager_legal h ho

@[simp] theorem Thread.setPriority_msr (th : Thread) (p : PpeShared) (w : BitVec 2) : (th.setPriority p w).msr = th.msr := by
  unfold Thread.setPriority
  dsimp only
  split <;> rfl

@[simp] theorem sprThread_legal {f : Thread → Thread} (h : legalMsrs s) (hf : ∀ th, (f th).msr = th.msr) :
    OutAll legalMsrs (sprThread s f) := ppeNext_legal h hf

@[simp] theorem sprShared_legal {f : PpeShared → PpeShared} (h : legalMsrs s) : OutAll legalMsrs (sprShared s f) :=
  ppeNext_legal h fun _ => rfl

@[simp] theorem sprRange_legal {f : RangeRegs → RangeRegs} (h : legalMsrs s) : OutAll legalMsrs (sprRange s f) :=
  ppeNext_legal h fun _ => rfl

@[simp] theorem writeTlbVpn_legal {v : DWord} (h : legalMsrs s) : OutAll legalMsrs (s.writeTlbVpn v) := by
  unfold State.writeTlbVpn
  dsimp only
  split
  · trivial
  · simp [h]

@[simp] theorem writeTlbRpn_legal {v : DWord} (h : legalMsrs s) : OutAll legalMsrs (s.writeTlbRpn v) := by
  simp [State.writeTlbRpn, h]

@[simp] theorem writeHid6_legal {v : DWord} (h : legalMsrs s) : OutAll legalMsrs (s.writeHid6 v) := by
  simp [State.writeHid6, h]

@[simp] theorem writeCtrl_legal {v : Word} (h : legalMsrs s) : OutAll legalMsrs (s.writeCtrl v) := by
  simp [State.writeCtrl, h]

theorem writeSpr_legal {n : Nat} {v : DWord} (h : legalMsrs s) : OutAll legalMsrs (s.writeSpr n v) := by
  unfold State.writeSpr
  dsimp only
  split <;> simp [h]

theorem afterSync_legal {o : Out State} (h : legalMsrs s) (ho : OutAll legalMsrs o) : OutAll legalMsrs (s.afterSync o) := by
  simp [State.afterSync, h, ho]

theorem moveSync_legal {l : Bool} {o : Out State} (h : legalMsrs s) (ho : OutAll legalMsrs o) :
    OutAll legalMsrs (s.moveSync l o) := by
  simp [State.moveSync, ho, afterSync_legal h ho]

@[simp] theorem eratInvalidate_legal {l : Bool} {rb : DWord} (h : legalMsrs s) : legalMsrs (s.eratInvalidate l rb) :=
  legalMsrs_mapThreads h fun _ => rfl

@[simp] theorem legalMsrs_broadcastTlbie {x : Snoop} : legalMsrs (s.broadcastTlbie x) ↔ legalMsrs s := .rfl

theorem tlbInvalidate_legal {l b : Bool} {rb : DWord} (h : legalMsrs s) : OutAll legalMsrs (s.tlbInvalidate l rb b) := by
  unfold State.tlbInvalidate
  split
  · trivial
  · simp [h]

theorem tlbInvalidateClass_legal {l : Bool} {rb : DWord} (h : legalMsrs s) : OutAll legalMsrs (s.tlbInvalidateClass l rb) := by
  simp [State.tlbInvalidateClass, h]

/-! ## Pending inbound writes (Machine/Inbound.lean) -/

theorem modInbound_legal {x : Inbound} {f : IoWrite → IoWrite} (h : legalMsrs s) : legalMsrs (s.modInbound x f) := by
  unfold State.modInbound
  dsimp only
  split <;> exact h

theorem putInbound_legal {n : Option (Fin 8)} {part : Nat × List Byte} (h : legalMsrs s) : legalMsrs (s.putInbound n part) := by
  unfold State.putInbound
  cases n with
  | none => exact storeMem_legal h
  | some n => exact h

theorem inboundPart_legal {y : Inbound} {k : Nat} (h : legalMsrs s) : legalMsrs (s.inboundPart y k) := by
  unfold State.inboundPart
  split
  · exact h
  · exact modInbound_legal (putInbound_legal h)

theorem inboundWhole_legal {y : Inbound} (h : legalMsrs s) : legalMsrs (s.inboundWhole y) :=
  modInbound_legal (foldl_keeps (fun _ _ => putInbound_legal) _ h)

theorem performInbound_legal {f : Inbound → Bool} (h : legalMsrs s) : legalMsrs (s.performInbound f) :=
  foldl_keeps (fun _ _ => inboundWhole_legal) _ h

theorem ioData_legal {seq part : Nat} (h : legalMsrs s) : legalMsrs (s.ioData seq part) := by
  unfold State.ioData
  split
  · exact h
  · simp [h, inboundPart_legal]

@[simp] theorem meetAlias_legal {n : Fin 8} (h : legalMsrs s) : legalMsrs (s.meetAlias n) := performInbound_legal h

@[simp] theorem ioBarrier_legal {u : IoUnit} {strong : Bool} {a len : Nat} (h : legalMsrs s) : legalMsrs (s.ioBarrier u strong a len) :=
  performInbound_legal h

theorem meetInterrupt_legal {f : Packet → Bool} (h : legalMsrs s) : legalMsrs (s.meetInterrupt f) := performInbound_legal h

@[simp] theorem acceptWrite_legal {n : Option (Fin 8)} {u : IoUnit} {strong : Bool} {a len : Nat} {parts : List (Nat × List Byte)}
    (h : legalMsrs s) : legalMsrs (s.acceptWrite n u strong a len parts) := by
  unfold State.acceptWrite
  cases n <;> exact h

/-! ## Interrupt packets (Machine/Iic.lean) -/

@[simp] theorem legalMsrs_modIic {t : Fin 2} {f : Iic → Iic} : legalMsrs (s.modIic t f) ↔ legalMsrs s := .rfl

/-- A packet that the controllers accept. -/
theorem deliver_legal {p : Packet} {t : State} (h : legalMsrs s) (hd : s.deliver p = some t) : legalMsrs t := by
  unfold State.deliver at hd
  dsimp only at hd
  split at hd
  · obtain ⟨-, he⟩ := Option.ite_none_left_eq_some.mp hd
    cases he
    exact h
  · cases hd
    exact h

@[simp] theorem sendIsr_legal (h : legalMsrs s) : ResAll legalMsrs s.sendIsr := by
  unfold State.sendIsr
  dsimp only
  split
  · trivial
  · split
    · next hd => exact deliver_legal h hd
    · exact h

@[simp] theorem raiseIsr_legal {bits : DWord} (h : legalMsrs s) : ResAll legalMsrs (s.raiseIsr bits) := by
  simp [State.raiseIsr, h]

@[simp] theorem clearIsr_legal {v : DWord} (h : legalMsrs s) : ResAll legalMsrs (s.clearIsr v) := by
  simp [State.clearIsr, h]

@[simp] theorem setSignalCell_legal {off : Nat} {v : DWord} (h : legalMsrs s) : ResAll legalMsrs (s.setSignalCell off v) :=
  raiseIsr_legal h

theorem resendIo_legal {l : List Packet} (h : legalMsrs s) : legalMsrs (s.resendIo l) := by
  induction l generalizing s with
  | nil => exact h
  | cons p rest ih =>
    unfold State.resendIo
    split
    · next hd =>
      have ht := deliver_legal h hd
      exact ih ht
    · exact ih h

theorem resendIsr_legal {l : List Packet} (h : legalMsrs s) : legalMsrs (s.resendIsr l) := by
  induction l generalizing s with
  | nil => exact h
  | cons p rest ih =>
    unfold State.resendIsr
    split
    · next hd =>
      have ht := deliver_legal h hd
      exact ih ht
    · exact ih h

theorem resendSpe_legal {x : Fin 8 × Fin 3} (h : legalMsrs s) : legalMsrs (s.resendSpe x) := by
  unfold State.resendSpe
  split
  · exact h
  · split
    · next hd =>
      have ht := deliver_legal h hd
      exact ht
    · exact h

theorem reissue_legal (h : legalMsrs s) : legalMsrs s.reissue := by
  unfold State.reissue
  exact resendIo_legal (foldl_keeps (P := legalMsrs) (fun _ _ h => resendSpe_legal h) _ (resendIsr_legal h))

@[simp] theorem ippTake_legal {t : Fin 2} (h : legalMsrs s) : legalMsrs (s.ippTake t).2 := by
  simp only [State.ippTake]
  exact reissue_legal (legalMsrs_modIic.mpr h)

@[simp] theorem ippSeen_legal {t : Fin 2} (h : legalMsrs s) : legalMsrs (s.ippSeen t) := by
  unfold State.ippSeen
  split
  · exact meetInterrupt_legal h
  · exact h

theorem ioPacket_legal {p : Packet} (h : legalMsrs s) : ResAll legalMsrs (s.ioPacket p) := by
  unfold State.ioPacket
  dsimp only
  split
  · trivial
  · split
    · next hd => exact deliver_legal (s := s.followWrites _) h hd
    · exact h

@[simp] theorem sendInt_legal {n : Fin 8} {c : Fin 3} (h : legalMsrs s) : ResAll legalMsrs (s.sendInt n c) := by
  unfold State.sendInt
  dsimp only
  split
  · exact h
  · split
    · trivial
    · split
      · next hd => exact deliver_legal h hd
      · exact h

@[simp] theorem changeInt_legal {n : Fin 8} {c : Fin 3} {again : Bool} {f : Spe → Spe} (h : legalMsrs s) :
    ResAll legalMsrs (s.changeInt n c again f) := by
  simp [State.changeInt, h]

@[simp] theorem raiseInt_legal {n : Fin 8} {c : Fin 3} {bits : DWord} (h : legalMsrs s) :
    ResAll legalMsrs (s.raiseInt n c bits) := changeInt_legal h

@[simp] theorem storeIntMask_legal {n : Fin 8} {c : Fin 3} {v : DWord} (h : legalMsrs s) :
    ResAll legalMsrs (s.storeIntMask n c v) := changeInt_legal h

@[simp] theorem storeIntStat_legal {n : Fin 8} {c : Fin 3} {v : DWord} (h : legalMsrs s) :
    ResAll legalMsrs (s.storeIntStat n c v) := changeInt_legal h

@[simp] theorem storeFir_legal {n : Fin 8} {key : Nat} {v : DWord} (h : legalMsrs s) : ResAll legalMsrs (s.storeFir n key v) := by
  simp [State.storeFir, h]

end

end Sys2Proof.Machine
end

section
/-! The SPUs and their channels, the memory management of the MFCs, the registers of the SPEs and of the platform: the MSRs stay
legal. Only the system error signal reaches the threads from here, and it changes no MSR. -/

namespace Sys2Proof.Machine

open Sys2Proof.Safety

section
variable {s : State}

/-! ## Running, branches, channels (Machine/SpuOps.lean) -/

/-- An answer that goes on with the state. -/
theorem next_legal {α : Type} {r : Res α} (h : ResAll legalMsrs r) : OutAll legalMsrs (r.done fun _ s => .next s) :=
  h.done fun _ _ h => h

@[simp] theorem stopSignal_legal {code : BitVec 14} (h : legalMsrs s) : OutAll legalMsrs (s.stopSignal code) :=
  next_legal (by simp [h])

@[simp] theorem spuHalt_legal (h : legalMsrs s) : OutAll legalMsrs s.spuHalt := next_legal (by simp [h])

@[simp] theorem haltIf_legal {b : Bool} (h : legalMsrs s) : OutAll legalMsrs (haltIf s b) := by
  simp [haltIf, h]

@[simp] theorem spuInvalid_legal (h : legalMsrs s) : OutAll legalMsrs s.spuInvalid := by
  unfold State.spuInvalid
  dsimp only
  split
  · exact next_legal (by simp [h])
  · simp [h]

theorem xcellOnly_legal {o : Out State} (h : legalMsrs s) (ho : OutAll legalMsrs o) : OutAll legalMsrs (xcellOnly s o) := by
  simp [xcellOnly, h, ho]

@[simp] theorem branchIndirect_legal {d e : Bool} {f : Spe → Bool × Word × Spe} (h : legalMsrs s) :
    OutAll legalMsrs (branchIndirect s d e f) := by
  simp [branchIndirect, h]

@[simp] theorem drewSrr0_legal (h : legalMsrs s) : legalMsrs s.drewSrr0 := by
  simp [State.drewSrr0, h]

@[simp] theorem spuInterrupt_legal (h : legalMsrs s) : legalMsrs s.spuInterrupt := by
  simp [State.spuInterrupt, h]

theorem readChannel_legal {ch : Nat} (h : legalMsrs s) : ResAll legalMsrs (readChannel s ch) := by
  unfold readChannel
  dsimp only
  split
  case h_12 => exact ResAll.bind (by simp [h]) fun _ _ h => h
  all_goals simp [h]

@[simp] theorem mfcError_legal {n : Fin 8} {bit : DWord} {index : Nat} (h : legalMsrs s) :
    ResAll legalMsrs (s.mfcError n bit index) := raiseInt_legal h

@[simp] theorem issueSpu_legal {v : Word} (h : legalMsrs s) : ResAll legalMsrs (issueSpu s v) := by
  simp [issueSpu, h]

@[simp] theorem ackStall_legal {v : Word} (h : legalMsrs s) : legalMsrs (ackStall s v) := by
  simp [ackStall, h]

theorem writeChannel_legal {ch : Nat} {v : Word} (h : legalMsrs s) : ResAll legalMsrs (writeChannel s ch v) := by
  unfold writeChannel
  split <;> simp [h]

/-! ## Memory management of an MFC (Machine/Smm.lean) -/

@[simp] theorem smmException_legal {n : Fin 8} {ea : DWord} {index : Nat} {stat : DWord} {dsisr : Option DWord} {suspend : Bool}
    (h : legalMsrs s) : ResAll legalMsrs (s.smmException n ea index stat dsisr suspend) := raiseInt_legal h

theorem smmChecks_legal {n : Fin 8} {e : SlbEntry} {key : Nat} {pte : Option Nat} {ea : DWord} {store atomic : Bool} {bits : Nat}
    (h : legalMsrs s) : DmaAll legalMsrs (smmChecks s n e key pte ea store atomic bits) := by
  unfold smmChecks
  extract_lets p x compares s'
  split
  · trivial
  · extract_lets page
    have h' : legalMsrs s' := by simp [s', h]
    clear_value s' compares page p
    split
    · exact h
    · split
      · exact h
      · split
        · exact h'
        · split
          · cases pte with
            | none => exact h'
            | some a => simp [h']
          · exact h'

theorem smmMiss_legal {n : Fin 8} {e : SlbEntry} {ea : DWord} {bits r : Nat} {old : Option Nat} {store atomic : Bool}
    (h : legalMsrs s) : DmaAll legalMsrs (smmMiss s n e ea bits r old store atomic) := by
  unfold smmMiss
  extract_lets p va key s'
  have h' : legalMsrs s' := h
  have hw := tableSearch_legal (s := s') (sdr := p.cell keySdr) (e := e) (va := va) (p := bits)
    (several := .refused .smmMultipleMatch) h' trivial
  clear_value s' key p va
  split
  · exact h'
  · split
    · trivial
    · split
      · next he => rwa [he] at hw
      · exact h'
      · split
        · trivial
        · exact smmChecks_legal (by simp [h'])

theorem smmTranslate_legal {n : Fin 8} {ea : DWord} {store atomic : Bool} {r : Nat} (h : legalMsrs s) :
    DmaAll legalMsrs (smmTranslate s n ea store atomic r) := by
  have hm : ∀ e bits old, DmaAll legalMsrs
      (if s.spes[n].smmBusy then .held s else smmMiss s n e ea bits r old store atomic) := by
    intro e bits old
    split
    · exact h
    · exact smmMiss_legal h
  unfold smmTranslate
  dsimp only
  split
  · simp [smmAtomic, h]
  · split
    · simp [h]
    · split
      · trivial
      · split
        · exact hm _ _ _
        · split
          · exact hm _ _ _
          · split
            · next he =>
              have hc : DmaAll legalMsrs (DmaRes.fault _ _ _ _) := he ▸ smmChecks_legal h
              simp [h, dmaAll_fault.mp hc]
            · exact smmChecks_legal h
    · trivial

@[simp] theorem checkQuery_legal {n : Fin 8} (h : legalMsrs s) : ResAll legalMsrs (s.checkQuery n) := by
  simp [State.checkQuery, h]

/-! ## Registers of an SPE (Machine/SpeMmio.lean) -/

@[simp] theorem misfit_legal {regs : List (Nat × Nat)} {off len : Nat} (h : legalMsrs s) :
    OutAll legalMsrs (misfit s regs off len) := by
  simp [misfit, h]

@[simp] theorem anyRead_legal {w : Nat} (h : legalMsrs s) : ResAll legalMsrs (s.anyRead w) := h

@[simp] theorem readOutMbox_legal {n : Fin 8} (h : legalMsrs s) : ResAll legalMsrs (s.readOutMbox n) := by
  simp [State.readOutMbox, h]

@[simp] theorem readOutIntrMbox_legal {n : Fin 8} (h : legalMsrs s) : ResAll legalMsrs (s.readOutIntrMbox n) := by
  simp [State.readOutIntrMbox, h]

@[simp] theorem problemWord_legal {n : Fin 8} {off : Nat} (h : legalMsrs s) : ResAll legalMsrs (problemWord s n off) := by
  unfold problemWord
  dsimp only
  split <;> simp [h]

@[simp] theorem problemRead_legal {n : Fin 8} {off len : Nat} (h : legalMsrs s) : ResAll legalMsrs (problemRead s n off len) := by
  simp [problemRead, h]

@[simp] theorem writeRunCntl_legal {n : Fin 8} {v : Word} (h : legalMsrs s) : ResAll legalMsrs (s.writeRunCntl n v) := by
  simp [State.writeRunCntl, h]

@[simp] theorem writeQueryType_legal {n : Fin 8} {v : Word} (h : legalMsrs s) : ResAll legalMsrs (s.writeQueryType n v) := by
  simp [State.writeQueryType, h]

@[simp] theorem problemStore_legal {n : Fin 8} {off : Nat} {v : Word} (h : legalMsrs s) :
    ResAll legalMsrs (problemStore s n off v) := by
  unfold problemStore
  dsimp only
  split <;> simp [h]

@[simp] theorem problemWrite_legal {n : Fin 8} {off len v : Nat} (h : legalMsrs s) :
    ResAll legalMsrs (problemWrite s n off len v) := by
  simp [problemWrite, h]

@[simp] theorem whenStopped_legal {α : Type} {n : Fin 8} {r : Res α} (hr : ResAll legalMsrs r) :
    ResAll legalMsrs (whenStopped s n r) := by
  simp [whenStopped, hr]

@[simp] theorem priv2Read_legal {n : Fin 8} {off : Nat} (h : legalMsrs s) : ResAll legalMsrs (priv2Read s n off) := by
  unfold priv2Read
  dsimp only
  split
  · exact h
  · split <;> simp [h]

@[simp] theorem priv2Write_legal {n : Fin 8} {off : Nat} {v : DWord} (h : legalMsrs s) :
    ResAll legalMsrs (priv2Write s n off v) := by
  unfold priv2Write
  dsimp only
  split
  · simp [h]
  · split <;> simp [h]

theorem withTlbKey_legal {α : Type} {n : Fin 8} {f : Nat → Res α} (hf : ∀ k, ResAll legalMsrs (f k)) :
    ResAll legalMsrs (withTlbKey s n f) := by
  unfold withTlbKey
  split
  · trivial
  · exact hf _

@[simp] theorem priv1Read_legal {n : Fin 8} {off : Nat} (h : legalMsrs s) : ResAll legalMsrs (priv1Read s n off) := by
  unfold priv1Read
  dsimp only
  split
  · exact h
  · split <;> simp [h, withTlbKey_legal]

@[simp] theorem atomicFlush_legal {n : Fin 8} {v : DWord} (h : legalMsrs s) : ResAll legalMsrs (s.atomicFlush n v) := by
  simp [State.atomicFlush, h]

@[simp] theorem priv1Write_legal {n : Fin 8} {off : Nat} {v : DWord} (h : legalMsrs s) :
    ResAll legalMsrs (priv1Write s n off v) := by
  unfold priv1Write
  dsimp only
  split
  · simp [h]
  · split
    case h_23 => split <;> simp [h]
    all_goals simp [h, withTlbKey_legal]

@[simp] theorem speRead_legal {off len : Nat} (h : legalMsrs s) : ResAll legalMsrs (speRead s off len) := by
  simp [speRead, h]

@[simp] theorem speWrite_legal {off len v : Nat} (h : legalMsrs s) : ResAll legalMsrs (speWrite s off len v) := by
  simp [speWrite, h]

/-! ## Registers of the platform (Machine/Platform.lean, Machine/Mmio.lean) -/

@[simp] theorem legalMsrs_setPcell {off : Nat} {v : DWord} : legalMsrs (s.setPcell off v) ↔ legalMsrs s := .rfl
@[simp] theorem legalMsrs_thermalSample : legalMsrs s.thermalSample ↔ legalMsrs s := .rfl
@[simp] theorem legalMsrs_restartMax {b : Bool} : legalMsrs (s.restartMax b) ↔ legalMsrs s := .rfl
@[simp] theorem legalMsrs_setIopt {key : Nat} {e : IoptCacheEntry} : legalMsrs (s.setIopt key e) ↔ legalMsrs s := .rfl
@[simp] theorem legalMsrs_startIopt {key : Nat} {e : IoptCacheEntry} : legalMsrs (s.startIopt key e) ↔ legalMsrs s := .rfl
@[simp] theorem legalMsrs_generate {t : Fin 2} {v : DWord} : legalMsrs (s.generate t v) ↔ legalMsrs s := .rfl

@[simp] theorem writePmcr_legal {v : DWord} (h : legalMsrs s) : ResAll legalMsrs (s.writePmcr v) := by
  simp [State.writePmcr, h]

@[simp] theorem slowDone_legal (h : legalMsrs s) : legalMsrs s.slowDone := by
  unfold State.slowDone
  split <;> exact h

@[simp] theorem storeIocFir_legal {off : Nat} {v : DWord} (h : legalMsrs s) : ResAll legalMsrs (s.storeIocFir off v) := by
  have ht : legalMsrs { s.setPcell off v with threads := s.threads.map fun th => { th with sysErr := true } } :=
    legalMsrs_mapThreads (s := s) h fun _ => rfl
  unfold State.storeIocFir
  dsimp only
  split
  · exact h
  · split
    · exact ht
    · exact h

@[simp] theorem ioException_legal {type : BitVec 2} {a : BitVec 42} {write : Bool} {ioid : BitVec 11} (h : legalMsrs s) :
    ResAll legalMsrs (s.ioException type a write ioid) := by
  simp [State.ioException, h]

@[simp] theorem ioifRead_legal {ra len : Nat} (h : legalMsrs s) : ResAll legalMsrs (s.ioifRead ra len) := by
  unfold State.ioifRead
  split
  · exact ResAll.bind (by simp [h]) fun _ _ h => h
  · exact h

@[simp] theorem ioifWrite_legal {ra len : Nat} (h : legalMsrs s) : ResAll legalMsrs (s.ioifWrite ra len) := by
  simp [State.ioifWrite, h]

@[simp] theorem arriveIopt_legal (h : legalMsrs s) : legalMsrs s.arriveIopt := by
  unfold State.arriveIopt
  split <;> exact h

@[simp] theorem readCacheDir_legal {k : Nat} (h : legalMsrs s) : ResAll legalMsrs (s.readCacheDir k) := h

@[simp] theorem writeCacheDir_legal {k : Nat} {v : DWord} (h : legalMsrs s) : ResAll legalMsrs (s.writeCacheDir k v) := by
  simp [State.writeCacheDir, h]

@[simp] theorem writeIoptInvd_legal {v : DWord} (h : legalMsrs s) : legalMsrs (s.writeIoptInvd v) := by
  unfold State.writeIoptInvd
  dsimp only
  split
  · refine legalMsrs_setPcell.mpr (foldl_keeps (P := legalMsrs) (fun s x h => ?_) _ h)
    simp [h]
  · exact h

@[simp] theorem writeIostInvd_legal {v : DWord} (h : legalMsrs s) : ResAll legalMsrs (s.writeIostInvd v) := by
  simp [State.writeIostInvd, h]

@[simp] theorem platRead_legal {off : Nat} (h : legalMsrs s) : ResAll legalMsrs (platRead s off) := by
  unfold platRead
  extract_lets value take peek
  have hv : ∀ v, ResAll legalMsrs (value v) := fun _ => h
  have ht : ∀ t, ResAll legalMsrs (take t) := fun t => by simp [take, h]
  have hp : ∀ t, ResAll legalMsrs (peek t) := fun t => by simp [peek, h]
  clear_value value take peek
  refine .ite (checkstop_legal h) (.ite (misfit_legal h) (.ite h (.ite (hv _) (.ite (hv _) (.ite (readCacheDir_legal h) ?_)))))
  split <;> simp [h, hv, ht, hp]

@[simp] theorem platWrite_legal {off : Nat} {v : DWord} (h : legalMsrs s) : ResAll legalMsrs (platWrite s off v) := by
  unfold platWrite
  extract_lets v' sampled
  have hs : ResAll legalMsrs sampled := h
  clear_value sampled v'
  refine .ite (checkstop_legal h) (.ite (misfit_legal h) (.ite h (.ite (setSignalCell_legal h) (.ite h (.ite (.ite trivial h)
    (.ite h (.ite (writeCacheDir_legal h) ?_)))))))
  split <;> simp [h, hs]

@[simp] theorem mmioRead_legal {off len : Nat} (h : legalMsrs s) : ResAll legalMsrs (mmioRead s off len) := by
  simp [mmioRead, h]

@[simp] theorem mmioWrite_legal {off len v : Nat} (h : legalMsrs s) : ResAll legalMsrs (mmioWrite s off len v) := by
  simp [mmioWrite, h]

end

end Sys2Proof.Machine
end

section
/-! Storage accesses of the PPE, and the shapes of its loads, stores and cache instructions: the MSRs stay legal. -/

namespace Sys2Proof.Machine

open Sys2Proof.Safety

section
variable {s : State}

/-! ## Translation of an operand (Machine/PpeStorage.lean) -/

@[simp] theorem dsi_legal {ea : DWord} {bits : Word} (h : legalMsrs s) : OutAll legalMsrs (s.dsi ea bits) :=
  raise_legal (by simp [h])

@[simp] theorem dataSegment_legal {ea : DWord} {store : Bool} (h : legalMsrs s) : OutAll legalMsrs (s.dataSegment ea store) :=
  raise_legal (by simp [h])

@[simp] theorem alignInt_legal {ea : DWord} (h : legalMsrs s) : OutAll legalMsrs (s.alignInt ea) :=
  raise_legal (by simp [h])

@[simp] theorem keptLookup_legal {t : State} {b : Bool} (h : legalMsrs s) (ht : legalMsrs t) : legalMsrs (keptLookup s t b) := by
  simp [keptLookup, h, ht]

theorem dataPage_legal {op ea : DWord} {len : Nat} {store : Bool} {al : Align} (h : legalMsrs s) :
    ResAll legalMsrs (dataPage s op ea len store al) := by
  have hl := lookup_legal (t := s.curT) (ea := ea) (k := if store then .store else .load) h
  unfold dataPage
  dsimp only
  refine .ite (dsi_legal h) (.ite (alignInt_legal h) ?_)
  split <;> rename_i he <;> rw [he] at hl
  · exact hl
  · exact dsi_legal hl
  · exact dataSegment_legal hl
  · exact dsi_legal hl
  · have hp := lookupAll_page.mp hl
    exact .ite (dsi_legal hp) (.ite (alignInt_legal (by simp [h, hp])) (.ite (dsi_legal hp)
      (.ite (alignInt_legal (by simp [h, hp])) hp)))

theorem recordChange_legal {x : Piece} (h : legalMsrs s) : ResAll legalMsrs (s.recordChange x) := setChange_legal h

theorem dataPiece_legal {op ea : DWord} {len : Nat} {store : Bool} {al : Align} (h : legalMsrs s) :
    ResAll legalMsrs (dataPiece s op ea len store al) :=
  (dataPage_legal h).bind fun _ _ h => .ite ((recordChange_legal h).bind fun _ _ h => h) h

theorem breakFirst_legal {store : Bool} {brk : Option DWord} {o : Out State} (h : legalMsrs s) (ho : OutAll legalMsrs o) :
    OutAll legalMsrs (s.breakFirst store brk o) := by
  unfold State.breakFirst
  split
  · exact .ite (dsi_legal h) ho
  · exact ho

theorem prepareFrom_legal {op : DWord} {store : Bool} {al : Align} {l : List (DWord × Nat)} {acc : List Piece} (h : legalMsrs s) :
    PreparedAll legalMsrs (prepareFrom op store al l acc s) := by
  induction l generalizing acc s with
  | nil => exact h
  | cons x rest ih =>
    have hd := dataPage_legal (op := op) (ea := x.1) (len := x.2) (store := store) (al := al) h
    unfold prepareFrom
    split <;> rename_i he <;> rw [he] at hd
    · exact ih hd
    · exact breakFirst_legal h hd

theorem prepare_legal {op : DWord} {store : Bool} {al : Align} {l : List (DWord × Nat)} (h : legalMsrs s) :
    PreparedAll legalMsrs (prepare op store al l s) := prepareFrom_legal h

/-! ## Accesses -/

theorem machineCheck_legal {t : State} (h : legalMsrs s) (ht : legalMsrs t) : OutAll legalMsrs (s.machineCheck t) := by
  simp [State.machineCheck, h, ht]

@[simp] theorem unassignedSpace_legal (h : legalMsrs s) : OutAll legalMsrs s.unassignedSpace := h

theorem realLoad_legal {p : Phys} {len : Nat} (h : legalMsrs s) : LoadedAll legalMsrs (realLoad s p len) := by
  unfold realLoad
  split
  · exact h
  · simp [h]
  · next off _ =>
    have hm := mmioRead_legal (off := off) (len := len) h
    split
    · split <;> rename_i he <;> rwa [he] at hm
    · trivial
  · have hi := ioifRead_legal (ra := p.ra) (len := len) h
    split <;> rename_i he <;> rwa [he] at hi
  · exact unassignedSpace_legal h
  · simp [h]

theorem realStore_legal {p : Phys} {len v : Nat} (h : legalMsrs s) : ResAll legalMsrs (realStore s p len v) := by
  unfold realStore
  split <;> simp [h]

theorem loadAll_legal {lens : List Nat} {l : List Piece} {acc : Nat} {miss : Bool} (h : legalMsrs s) :
    ResAll legalMsrs (loadAll lens l acc miss s) := by
  induction l generalizing lens acc miss s with
  | nil => exact h
  | cons p rest ih =>
    have hr := realLoad_legal (p := p.phys) (len := lens.headD 0) h
    unfold loadAll
    dsimp only
    split <;> rename_i he <;> rw [he] at hr
    · exact ih hr
    · exact ih hr
    · exact hr

theorem loadThen_legal {w : Nat} {ea : DWord} {len : Nat} {al : Align} {conv : Nat → BitVec w} {put : BitVec w → State → State}
    (h : legalMsrs s) (hput : ∀ v s, legalMsrs s → legalMsrs (put v s)) : OutAll legalMsrs (loadThen s ea len al conv put) := by
  have hp := prepare_legal (op := s.thr.truncEa ea) (store := false) (al := al) (l := pieces s.thr false ea len) h
  unfold loadThen
  dsimp only
  split <;> rename_i he <;> rw [he] at hp
  · exact hp
  · next l t =>
    have ha := loadAll_legal (lens := (pieces s.thr false ea len).map (·.2)) (l := l) (acc := 0) (miss := false) (s := t) hp
    split <;> rename_i ha' <;> rw [ha'] at ha
    · exact ha
    · exact .ite (machineCheck_legal ha (hput _ _ ha)) (hput _ _ ha)

theorem storeAll_legal {l : List (Piece × Nat × Nat)} (h : legalMsrs s) : ResAll legalMsrs (storeAll l s) := by
  induction l generalizing s with
  | nil => exact h
  | cons x rest ih => exact (recordChange_legal h).bind fun _ _ h => (realStore_legal h).bind fun _ _ h => ih h

theorem storeParts_legal {op : DWord} {al : Align} {parts : List (DWord × Nat × Nat)} {f : State → State} (h : legalMsrs s)
    (hf : ∀ s, legalMsrs s → legalMsrs (f s)) : OutAll legalMsrs (storeParts s op al parts f) := by
  have hp := prepare_legal (op := op) (store := true) (al := al) (l := parts.map fun x => (x.1, x.2.1)) h
  unfold storeParts
  dsimp only
  split <;> rename_i he <;> rw [he] at hp
  · exact (storeAll_legal hp).done fun _ _ h => outAll_next.mpr (hf _ h)
  · split
    · exact next_legal (storeAll_legal (legalMsrs_drew.mpr hp))
    · exact hp

theorem storeThen_legal {ea : DWord} {len : Nat} {al : Align} {v : Nat} {f : State → State} {cut : Nat} (h : legalMsrs s)
    (hf : ∀ s, legalMsrs s → legalMsrs (f s)) : OutAll legalMsrs (storeThen s ea len al v f cut) := storeParts_legal h hf

theorem loadList_legal {l : List (Piece × Nat)} (h : legalMsrs s) : ResAll legalMsrs (loadList l s) := by
  induction l generalizing s with
  | nil => exact h
  | cons x rest ih =>
    have hr := realLoad_legal (p := x.1.phys) (len := x.2) h
    unfold loadList
    split <;> rename_i he <;> rw [he] at hr
    · exact (ih hr).bind fun _ _ h => h
    · exact (ih hr).bind fun _ _ h => h
    · exact hr

theorem loadParts_legal {op : DWord} {al : Align} {parts : List (DWord × Nat)} {f : List Nat → State → State}
    {g : State → Out State} (h : legalMsrs s) (hf : ∀ v s, legalMsrs s → legalMsrs (f v s))
    (hg : ∀ s, legalMsrs s → OutAll legalMsrs (g s)) : OutAll legalMsrs (loadParts s op al parts f g) := by
  have hp := prepare_legal (op := op) (store := false) (al := al) (l := parts) h
  unfold loadParts
  dsimp only
  split <;> rename_i he <;> rw [he] at hp
  · exact (loadList_legal hp).done fun _ _ h => hg _ (hf _ _ h)
  · split
    · exact (loadList_legal (legalMsrs_drew.mpr hp)).done fun vs _ h => outAll_next.mpr (hf vs _ h)
    · exact hp

/-! ## Loads and stores of the GPRs and FPRs (Machine/PpeLoadStore.lean) -/

@[simp] theorem loadGpr_legal {ea : DWord} {len : Nat} {al : Align} {conv : Nat → DWord} {rt : BitVec 5} (h : legalMsrs s) :
    OutAll legalMsrs (loadGpr s ea len al conv rt) :=
  loadThen_legal h fun _ _ h => by simp [h]

@[simp] theorem loadGprU_legal {ea : DWord} {len : Nat} {al : Align} {conv : Nat → DWord} {rt ra : BitVec 5} (h : legalMsrs s) :
    OutAll legalMsrs (loadGprU s ea len al conv rt ra) :=
  .ite (illegal_legal h) (loadThen_legal h fun _ _ h => by simp [h])

@[simp] theorem storeVal_legal {ea : DWord} {len : Nat} {al : Align} {v cut : Nat} (h : legalMsrs s) :
    OutAll legalMsrs (storeVal s ea len al v cut) :=
  storeThen_legal h fun _ h => by simp [h]

@[simp] theorem storeValU_legal {ea : DWord} {len : Nat} {al : Align} {v cut : Nat} {ra : BitVec 5} (h : legalMsrs s) :
    OutAll legalMsrs (storeValU s ea len al v ra cut) :=
  .ite (illegal_legal h) (storeThen_legal h fun _ h => by simp [h])

@[simp] theorem loadFpr_legal {ea : DWord} {len : Nat} {conv : Nat → DWord} {frt : BitVec 5} (h : legalMsrs s) :
    OutAll legalMsrs (loadFpr s ea len conv frt) :=
  fpGuard_legal h (loadThen_legal h fun _ _ h => by simp [h])

@[simp] theorem loadFprU_legal {ea : DWord} {len : Nat} {conv : Nat → DWord} {frt ra : BitVec 5} (h : legalMsrs s) :
    OutAll legalMsrs (loadFprU s ea len conv frt ra) :=
  fpGuard_legal h (.ite (illegal_legal h) (loadThen_legal h fun _ _ h => by simp [h]))

@[simp] theorem singleWord_legal {d : DWord} (h : legalMsrs s) : legalMsrs (s.singleWord d).2 := by
  unfold State.singleWord
  split <;> exact h

/-! ## Multiples and strings -/

@[simp] theorem Thread.setWords_msr (th : Thread) (r : Nat) (l : List Nat) : (th.setWords r l).msr = th.msr := by
  induction l generalizing th r with
  | nil => rfl
  | cons v rest ih => exact (ih _ _).trans (Thread.setGpr_msr ..)

@[simp] theorem loadString_legal {rt : BitVec 5} {bad : List (BitVec 5)} {ea : DWord} {n : Nat} (h : legalMsrs s) :
    OutAll legalMsrs (loadString s rt bad ea n) := by
  unfold loadString
  exact loadParts_legal h (fun _ _ h => by simp [h]) fun _ h => .ite (illegal_legal h) (by simp [h])

@[simp] theorem storeString_legal {rs : BitVec 5} {ea : DWord} {n : Nat} (h : legalMsrs s) :
    OutAll legalMsrs (storeString s rs ea n) :=
  storeParts_legal h fun _ h => by simp [h]

/-! ## Reservations and cache instructions -/

@[simp] theorem loadReserve_legal {ea : DWord} {len : Nat} {rt : BitVec 5} (h : legalMsrs s) :
    OutAll legalMsrs (loadReserve s ea len rt) :=
  (dataPage_legal h).done fun _ _ h => (loadList_legal h).done fun _ _ h => by simp [h]

@[simp] theorem storeConditional_legal {ea : DWord} {len v : Nat} (h : legalMsrs s) :
    OutAll legalMsrs (storeConditional s ea len v) := by
  refine (dataPiece_legal h).done fun p t ht => ?_
  extract_lets other performed t'
  have ht' : legalMsrs t' := by simp [t', ht]
  exact ResAll.done (.ite (realStore_legal ht') ht') fun _ _ h => by simp [h]

@[simp] theorem touch_legal {th : BitVec 4} {ea : DWord} {store : Bool} (h : legalMsrs s) : OutAll legalMsrs (touch s th ea store) := by
  have hl := lookup_legal (s := s.drew 1) (t := s.curT) (ea := s.thr.truncEa ea) (k := .load) h
  unfold touch
  extract_lets s'
  have hs' : legalMsrs s' := by
    unfold s'
    split
    · exact h
    · split
      · split
        · next he => rw [he] at hl; simp [lookupAll_page.mp hl]
        · exact h
      · exact h
  simp [hs']

theorem cacheOp_legal {ea : DWord} {f : Nat → State → State} (h : legalMsrs s) (hf : ∀ a s, legalMsrs s → legalMsrs (f a s)) :
    OutAll legalMsrs (cacheOp s ea f) :=
  (dataPiece_legal h).done fun _ _ h => by simp [hf _ _ h]

@[simp] theorem legalMsrs_icbiLine {ra : Nat} : legalMsrs (s.icbiLine ra) ↔ legalMsrs s := .rfl

/-! ## Loads and stores of the VRs (Machine/VmxLoadStore.lean) -/

@[simp] theorem vecLoad_legal {ea : DWord} {len : Nat} {al : Align} {vrt : BitVec 5} {conv : Nat → QWord} (h : legalMsrs s) :
    OutAll legalMsrs (vecLoad s ea len al vrt conv) :=
  vmxGuard_legal h (loadThen_legal h fun _ _ h => by simp [h])

@[simp] theorem vecLoadEl_legal {ea : DWord} {n : Nat} {vrt : BitVec 5} (h : legalMsrs s) : OutAll legalMsrs (vecLoadEl s ea n vrt) :=
  vmxGuard_legal h (loadThen_legal h fun _ _ h => by simp [h])

@[simp] theorem vecLoadRight_legal {ea : DWord} {vrt : BitVec 5} (h : legalMsrs s) : OutAll legalMsrs (vecLoadRight s ea vrt) :=
  .ite (vmxNext_legal h fun _ => by simp) (vecLoad_legal h)

@[simp] theorem vecStore_legal {ea : DWord} {len : Nat} {al : Align} {v : Nat} (h : legalMsrs s) :
    OutAll legalMsrs (vecStore s ea len al v) :=
  vmxGuard_legal h (storeThen_legal h fun _ h => by simp [h])

@[simp] theorem vecStoreRight_legal {ea : DWord} {q : QWord} (h : legalMsrs s) : OutAll legalMsrs (vecStoreRight s ea q) :=
  .ite (vmxNext_legal h fun _ => rfl) (vecStore_legal h)

end

end Sys2Proof.Machine
end

section
/-! The commands of the MFCs: the MSRs stay legal. -/

namespace Sys2Proof.Machine

open Sys2Proof.Safety

section
variable {s : State}

/-! ## The selected command -/

@[simp] theorem legalMsrs_modSelected {f : MfcCmd → MfcCmd} : legalMsrs (s.modSelected f) ↔ legalMsrs s := by
  unfold State.modSelected
  split <;> rfl

@[simp] theorem completeSelected_legal (h : legalMsrs s) : OutAll legalMsrs s.completeSelected := by
  unfold State.completeSelected
  split
  · exact h
  · exact next_legal (checkQuery_legal h)
  · exact h

@[simp] theorem selectedError_legal {bit : DWord} (h : legalMsrs s) : OutAll legalMsrs (s.selectedError bit) :=
  next_legal (mfcError_legal h)

theorem queued_legal {q : Queues} {f : MfcCmd → Out State} (h : legalMsrs s) (hf : ∀ c, OutAll legalMsrs (f c)) :
    OutAll legalMsrs (queued s q f) := by
  unfold queued
  split
  · exact h
  · exact .ite (selectedError_legal h) (hf _)

/-! ## The EA side of a unit -/

theorem dmaRead_legal {ra len : Nat} (h : legalMsrs s) : ResAll legalMsrs (dmaRead s ra len) := by
  unfold dmaRead
  split <;> simp [h]

theorem dmaWrite_legal {ra len v : Nat} (h : legalMsrs s) : ResAll legalMsrs (dmaWrite s ra len v) := by
  unfold dmaWrite
  split <;> simp [h]

theorem dmaTranslate_legal {ea : DWord} {store atomic : Bool} {r : Nat} {f : Nat → State → Out State} (h : legalMsrs s)
    (hf : ∀ a s, legalMsrs s → OutAll legalMsrs (f a s)) : OutAll legalMsrs (dmaTranslate s ea store atomic r f) := by
  have ht := smmTranslate_legal (n := s.curN) (ea := ea) (store := store) (atomic := atomic) (r := r) h
  unfold dmaTranslate
  split <;> rename_i he <;> rw [he] at ht
  · exact hf _ _ (by simp [dmaAll_real.mp ht])
  · exact legalMsrs_modSelected.mpr ht
  · exact next_legal (smmException_legal (legalMsrs_modSelected.mpr ht))
  · exact ht

theorem lsCompare_legal {b : Bool} {f : State → Out State} (h : legalMsrs s) (hf : ∀ s, legalMsrs s → OutAll legalMsrs (f s)) :
    OutAll legalMsrs (lsCompare s b f) :=
  .ite (hf _ h) (.ite (next_legal (raiseInt_legal h)) (hf _ h))

/-! ## Transfers -/

theorem moveUnit_legal {put : Bool} {lsa : Nat} {ea : DWord} {len r : Nat} {f : State → State} (h : legalMsrs s)
    (hf : ∀ s, legalMsrs s → legalMsrs (f s)) : OutAll legalMsrs (moveUnit s put lsa ea len r f) :=
  dmaTranslate_legal h fun _ _ h =>
    .ite ((dmaWrite_legal h).done fun _ _ h => outAll_next.mpr (hf _ h))
      ((dmaRead_legal h).done fun _ _ h => outAll_next.mpr (hf _ (legalMsrs_modSpe.mpr h)))

theorem performUnit_legal {c : MfcCmd} {put : Bool} {lsa : Nat} {ea : DWord} {n count r : Nat} (h : legalMsrs s) :
    OutAll legalMsrs (performUnit s c put lsa ea n count r) :=
  lsCompare_legal h fun _ h => moveUnit_legal (by simp [h]) fun _ h => legalMsrs_modSelected.mpr h

theorem transferStep_legal {c : MfcCmd} {put start : Bool} {r : Nat} (h : legalMsrs s) :
    OutAll legalMsrs (transferStep s c put start r) :=
  .ite (selectedError_legal h) (.ite (completeSelected_legal (by simp [h])) (performUnit_legal h))

theorem transfer_legal {q : Queues} {put start : Bool} {r : Nat} (h : legalMsrs s) : OutAll legalMsrs (transfer s q put start r) :=
  queued_legal h fun _ => transferStep_legal h

theorem signalCmd_legal {r : Nat} (h : legalMsrs s) : OutAll legalMsrs (signalCmd s r) :=
  queued_legal h fun _ => .ite (selectedError_legal h) (transferStep_legal h)

/-! ## Lists -/

theorem fetchElement_legal {c : MfcCmd} (h : legalMsrs s) : OutAll legalMsrs (fetchElement s c) :=
  .ite (selectedError_legal h) (legalMsrs_modSelected.mpr h)

theorem finishElement_legal {c : MfcCmd} {e : DWord} (h : legalMsrs s) : OutAll legalMsrs (finishElement s c e) := by
  simp [finishElement, h]

theorem listCmd_legal {put : Bool} {r : Nat} (h : legalMsrs s) : OutAll legalMsrs (listCmd s put r) := by
  refine queued_legal h fun c => .ite (selectedError_legal h) (.ite h ?_)
  split
  · exact .ite (completeSelected_legal h) (fetchElement_legal h)
  · exact .ite (.ite (selectedError_legal h) (finishElement_legal h)) (performUnit_legal h)

/-! ## Storage control and synchronization -/

theorem hintCmd_legal (h : legalMsrs s) : OutAll legalMsrs (hintCmd s) :=
  queued_legal h fun _ => .ite (selectedError_legal h) (completeSelected_legal h)

theorem clearLines_legal {r : Nat} (h : legalMsrs s) : OutAll legalMsrs (clearLines s r) :=
  queued_legal h fun _ => .ite (selectedError_legal h) (.ite (completeSelected_legal h)
    (dmaTranslate_legal (by simp [h]) fun _ _ h => (dmaWrite_legal h).done fun _ _ h => legalMsrs_modSelected.mpr h))

theorem syncCmd_legal (h : legalMsrs s) : OutAll legalMsrs (syncCmd s) := queued_legal h fun _ => completeSelected_legal h

/-! ## Atomic commands -/

theorem immediateCmd_legal {store : Bool} {r : Nat} {f : MfcCmd → Nat → State → Out State} (h : legalMsrs s)
    (hf : ∀ c a s, legalMsrs s → OutAll legalMsrs (f c a s)) : OutAll legalMsrs (immediateCmd s store r f) := by
  unfold immediateCmd
  split
  · exact h
  · exact .ite (dmaTranslate_legal h fun _ _ h => hf _ _ _ h) (selectedError_legal h)

theorem atomicDone_legal {status : Word} (h : legalMsrs s) : OutAll legalMsrs (s.atomicDone status) := h

theorem reserveRead_legal {ra : Nat} (h : legalMsrs s) : ResAll legalMsrs (reserveRead s ra) := by
  unfold reserveRead
  split
  · trivial
  · exact dmaRead_legal h

theorem getLine_legal {r : Nat} (h : legalMsrs s) : OutAll legalMsrs (getLine s r) :=
  immediateCmd_legal h fun _ _ _ h => lsCompare_legal h fun _ h => (reserveRead_legal h).done fun _ _ h => atomicDone_legal h

theorem putLineConditional_legal {r : Nat} (h : legalMsrs s) : OutAll legalMsrs (putLineConditional s r) :=
  immediateCmd_legal h fun _ _ _ h => lsCompare_legal h fun _ h =>
    .ite ((dmaWrite_legal h).done fun _ _ h => atomicDone_legal h) (atomicDone_legal h)

theorem putLine_legal {r : Nat} (h : legalMsrs s) : OutAll legalMsrs (putLine s r) :=
  immediateCmd_legal h fun _ _ _ h => lsCompare_legal h fun _ h => (dmaWrite_legal h).done fun _ _ h => atomicDone_legal h

theorem putLineQueued_legal {r : Nat} (h : legalMsrs s) : OutAll legalMsrs (putLineQueued s r) :=
  queued_legal h fun _ => .ite (completeSelected_legal h) (dmaTranslate_legal h fun _ _ h => lsCompare_legal h fun _ h =>
    (dmaWrite_legal h).done fun _ _ h => legalMsrs_modSelected.mpr h)

end

end Sys2Proof.Machine
end

section
/-! Every instruction keeps the MSRs legal: the register forms leave the MSR alone, and the four instructions that write it
write a legal one. -/

namespace Sys2Proof.Machine

open Sys2Proof.Safety

/-! ## Register forms that leave the MSR alone -/

section
variable (th : Thread)

@[simp] theorem Thread.recordCr0_msr (r : DWord) : (th.recordCr0 r).msr = th.msr := rfl

@[simp] theorem Thread.recordIf_msr (rec : Bool) (r : DWord) : (th.recordIf rec r).msr = th.msr := by
  unfold Thread.recordIf
  split <;> simp

@[simp] theorem Thread.recordCr6_msr (a b : Bool) : (th.recordCr6 a b).msr = th.msr := rfl

@[simp] theorem Thread.recordCr1_msr (rec : Bool) : (th.recordCr1 rec).msr = th.msr := by
  unfold Thread.recordCr1
  split <;> simp

@[simp] theorem Thread.saturateIf_msr (b : Bool) : (th.saturateIf b).msr = th.msr := by
  unfold Thread.saturateIf
  split <;> rfl

@[simp] theorem Thread.setSat_msr (vrt : BitVec 5) (r : QWord × Bool) : (th.setSat vrt r).msr = th.msr := by
  simp [Thread.setSat]

@[simp] theorem compareEls_msr (len cnt : Nat) (vrt : BitVec 5) (rec : Bool) (rel : Nat → Bool) :
    (compareEls len cnt vrt rec rel th).msr = th.msr := by
  unfold compareEls
  dsimp only
  split <;> simp

@[simp] theorem addForm_msr (rt : BitVec 5) (x y : DWord) (c setCa oe rec : Bool) :
    (addForm rt x y c setCa oe rec th).msr = th.msr := by
  cases setCa <;> cases oe <;> simp [addForm]

@[simp] theorem mulForm_msr (rt : BitVec 5) (r : DWord) (ov oe rec : Bool) : (mulForm rt r ov oe rec th).msr = th.msr := by
  cases oe <;> simp [mulForm]

@[simp] theorem undefinedRecord_msr (s : State) (k : Nat) (r : DWord) (rec : Bool) :
    (undefinedRecord s k r rec th).msr = th.msr := by
  unfold undefinedRecord
  split
  · split <;> simp
  · rfl

@[simp] theorem compareForm_msr (bf : BitVec 3) (x y : Int) : (compareForm bf x y th).msr = th.msr := rfl

@[simp] theorem logicForm_msr (ra : BitVec 5) (r : DWord) (rec : Bool) : (logicForm ra r rec th).msr = th.msr := by
  simp [logicForm]

@[simp] theorem sraForm_msr (ra : BitVec 5) (w : Int) (n : Nat) (rec : Bool) : (sraForm ra w n rec th).msr = th.msr := by
  simp [sraForm]

@[simp] theorem crLogic_msr (f : Bool → Bool → Bool) (bt ba bb : BitVec 5) : (crLogic f bt ba bb th).msr = th.msr := rfl

@[simp] theorem Thread.countDown_msr (bo : BitVec 5) : (th.countDown bo).msr = th.msr := by
  unfold Thread.countDown
  split <;> rfl

@[simp] theorem Thread.jump_msr (taken : Bool) (a : DWord) (lk : Bool) : (th.jump taken a lk).msr = th.msr := rfl

@[simp] theorem FpRes.apply_msr (r : FpRes) (frt : BitVec 5) : (r.apply frt th).msr = th.msr := by
  unfold FpRes.apply
  dsimp only
  split <;> simp

end

section
variable {s : State}

/-! ## The shapes of the instructions -/

theorem trapIf_legal {c : Bool} (h : legalMsrs s) : OutAll legalMsrs (trapIf s c) :=
  .ite (trapInt_legal h) (ppeNext_legal h fun _ => rfl)

theorem wordResult_legal {rt : BitVec 5} {w : Word} {ov oe rec : Bool} (h : legalMsrs s) :
    OutAll legalMsrs (wordResult rt w ov oe rec s) :=
  ppeNext_legal (legalMsrs_drew.mpr h) fun _ => by cases oe <;> simp

theorem undefinedDivide_legal {rt : BitVec 5} {oe rec : Bool} (h : legalMsrs s) : OutAll legalMsrs (undefinedDivide rt oe rec s) :=
  ppeNext_legal (legalMsrs_drew.mpr h) fun _ => by cases oe <;> cases rec <;> simp

theorem divForm_legal {rt : BitVec 5} {r : DWord} {oe rec : Bool} (h : legalMsrs s) : OutAll legalMsrs (divForm rt r oe rec s) :=
  ppeNext_legal h fun _ => mulForm_msr ..

theorem fpEnd_legal {f : Thread → Thread} (h : legalMsrs s) (hf : ∀ th, (f th).msr = th.msr) : OutAll legalMsrs (fpEnd s f) := by
  simp [fpEnd, h, hf]

theorem fpUndefined_legal {frt : BitVec 5} {rec : Bool} (h : legalMsrs s) : OutAll legalMsrs (fpUndefined s frt rec) :=
  fpEnd_legal (legalMsrs_drew.mpr h) fun _ => by cases rec <;> simp

theorem fpArith_legal {f : Fmt} {frt : BitVec 5} {rec : Bool} {ops : List DWord} {r : Word → FpRes} (h : legalMsrs s) :
    OutAll legalMsrs (fpArith s f frt rec ops r) :=
  fpGuard_legal h (.ite (fpUndefined_legal h) (fpEnd_legal h fun _ => by simp))

theorem fpArithNi_legal {f : Fmt} {frt : BitVec 5} {rec : Bool} {ops : List DWord} {r : Word → Option (Nat × Nat) → FpRes}
    (h : legalMsrs s) : OutAll legalMsrs (fpArithNi s f frt rec ops r) :=
  .ite (fpArith_legal (legalMsrs_drew.mpr h)) (fpArith_legal h)

theorem fpToInt_legal {n : Nat} {mode : RMode} {frt frb : BitVec 5} {rec : Bool} {wide : BitVec n → DWord} (h : legalMsrs s) :
    OutAll legalMsrs (fpToInt s n mode frt frb rec wide) :=
  fpGuard_legal h (fpEnd_legal (legalMsrs_drew.mpr h) fun _ => by
    dsimp only
    split <;> simp)

theorem fpCompare_legal {bf : BitVec 3} {a b : DWord} {exc : Word} (h : legalMsrs s) : OutAll legalMsrs (fpCompare s bf a b exc) :=
  fpGuard_legal h (fpEnd_legal h fun _ => rfl)

theorem fpWrite_legal {rec : Bool} {g : Word → Word} (h : legalMsrs s) : OutAll legalMsrs (fpWrite s rec g) :=
  fpGuard_legal h (fpEnd_legal h fun _ => by simp)

theorem fpMove_legal {frt : BitVec 5} {rec : Bool} {v : DWord} (h : legalMsrs s) : OutAll legalMsrs (fpMove s frt rec v) :=
  fpGuard_legal h (ppeNext_legal h fun _ => by simp)

theorem vmxShift_legal {vrt vrb : BitVec 5} {f : Nat → QWord} (h : legalMsrs s) : OutAll legalMsrs (vmxShift vrt vrb f s) :=
  .ite (vmxNext_legal h fun _ => by simp)
    (.ite (vmxNext_legal (legalMsrs_drew.mpr h) fun _ => by simp) (vmxNext_legal h fun _ => rfl))

theorem vcmpf_legal {vrt vra vrb : BitVec 5} {rec : Bool} {f : Word → Word → Word} (h : legalMsrs s) :
    OutAll legalMsrs (vcmpf s vrt vra vrb rec f) :=
  vmxNext_legal h fun _ => by cases rec <;> simp

theorem execPpeVcmpbfp_legal {vrt vra vrb : BitVec 5} {rec : Bool} (h : legalMsrs s) :
    OutAll legalMsrs (execPpeVcmpbfp vrt vra vrb rec s) :=
  vmxNext_legal h fun _ => by cases rec <;> simp

theorem vest_legal {vrt vrb : BitVec 5} {f : VMode → Word → Word → Word} (h : legalMsrs s) : OutAll legalMsrs (vest s vrt vrb f) :=
  vmxNext_legal (legalMsrs_drew.mpr h) fun _ => by simp

theorem execPpeFcfid_legal {frt frb : BitVec 5} {rec : Bool} (h : legalMsrs s) : OutAll legalMsrs (execPpeFcfid frt frb rec s) := by
  unfold execPpeFcfid
  exact fpArith_legal h

theorem execPpeFres_legal {frt frb : BitVec 5} {rec : Bool} (h : legalMsrs s) : OutAll legalMsrs (execPpeFres frt frb rec s) := by
  unfold execPpeFres
  exact fpArith_legal (legalMsrs_drew.mpr h)

theorem execPpeFrsqrte_legal {frt frb : BitVec 5} {rec : Bool} (h : legalMsrs s) :
    OutAll legalMsrs (execPpeFrsqrte frt frb rec s) := by
  unfold execPpeFrsqrte
  exact fpArith_legal (legalMsrs_drew.mpr h)

theorem execPpeBcctr_legal {bo bi : BitVec 5} {bh : BitVec 2} {lk : Bool} (h : legalMsrs s) :
    OutAll legalMsrs (execPpeBcctr bo bi bh lk s) := by
  unfold execPpeBcctr
  exact .ite (illegal_legal h) ((legalMsrs_modThr_frame fun _ => by simp).mpr h)

theorem execPpeOr_legal {rs ra rb : BitVec 5} {rec : Bool} (h : legalMsrs s) : OutAll legalMsrs (execPpeOr rs ra rb rec s) :=
  ppeNext_legal h fun _ => by
    dsimp only
    split <;> simp

theorem execPpeLmw_legal {rt ra : BitVec 5} {d : BitVec 16} (h : legalMsrs s) : OutAll legalMsrs (execPpeLmw rt ra d s) := by
  unfold execPpeLmw
  exact .ite (alignInt_legal h) (loadParts_legal h (fun _ _ h => by simp [h]) fun _ h => .ite (illegal_legal h) (by simp [h]))

/-! ## The instructions that write the MSR -/

theorem execPpeRfid_legal (h : legalMsrs s) : OutAll legalMsrs (execPpeRfid s) :=
  supervisor_legal h fun _ => msrWritten_legal (legalMsrs_modT h fun _ => returnFrom_legal _ _)

theorem execPpeHrfid_legal (h : legalMsrs s) : OutAll legalMsrs (execPpeHrfid s) :=
  hypervisorOnly_legal h (msrWritten_legal (legalMsrs_modT h fun _ => returnFrom_legal _ _))

theorem execPpeMtmsrd_legal {rs : BitVec 5} {l : Bool} (h : legalMsrs s) : OutAll legalMsrs (execPpeMtmsrd rs l s) :=
  supervisor_legal h fun hp => moveSync_legal h (msrWritten_legal (legalMsrs_modT h fun hm => moveMsr_legal _ _ hm hp))

theorem execPpeMtmsr_legal {rs : BitVec 5} {l : Bool} (h : legalMsrs s) : OutAll legalMsrs (execPpeMtmsr rs l s) :=
  supervisor_legal h fun hp => moveSync_legal h (msrWritten_legal (legalMsrs_modT h fun hm => moveMsr_legal _ _ hm hp))

/-! ## Every instruction -/

theorem exec_legal (i : Instr) (h : legalMsrs s) : OutAll legalMsrs (exec i s) := by
  cases i <;> dsimp only [exec]
  -- Branches, traps, system linkage and the special registers.
  case ppeB | ppeBc | ppeBclr => exact (legalMsrs_modThr_frame fun _ => by simp).mpr h
  case ppeBcctr => exact execPpeBcctr_legal h
  case ppeSc => exact interrupt_legal h
  case ppeTw | ppeTd | ppeTwi | ppeTdi => exact trapIf_legal h
  case ppeRfid => exact execPpeRfid_legal h
  case ppeHrfid => exact execPpeHrfid_legal h
  case ppeMtmsrd => exact execPpeMtmsrd_legal h
  case ppeMtmsr => exact execPpeMtmsr_legal h
  case ppeMtspr => exact sprAccess_legal h (writeSpr_legal h)
  case ppeMfspr => exact sprAccess_legal h (.ite trivial (ppeNext_legal (legalMsrs_drew.mpr h) fun _ => by simp))
  case ppeMftb => exact .ite (ppeNext_legal h fun _ => by simp) (illegal_legal h)
  case ppeMfmsr | ppeSlbmte | ppeSlbmfee | ppeSlbmfev | ppeSlbie | ppeSlbia =>
    exact supervisor_legal h fun _ => ppeNext_legal h fun _ => rfl
  case ppeTlbie => exact tlbManager_legal h (tlbInvalidate_legal h)
  case ppeTlbiel => exact tlbManager_legal h (.ite (tlbInvalidateClass_legal h) (tlbInvalidate_legal h))
  case ppeTlbsync => exact tlbManager_legal h (ppeNext_legal (legalMsrs_mk.mpr h) fun _ => rfl)
  case ppeSync => exact .ite (ppeNext_legal h fun _ => rfl) (afterSync_legal h (ppeNext_legal h fun _ => rfl))
  case ppeAttn => exact .ite trivial (illegal_legal h)
  -- Condition register and fixed point.
  case ppeOr => exact execPpeOr_legal h
  case ppeIsync | ppeCrand | ppeCror | ppeCrxor | ppeCrnand | ppeCrnor | ppeCreqv | ppeCrandc | ppeCrorc | ppeMcrf |
      ppeMtcrf | ppeMfcr | ppeMfocrf | ppeEieio | ppeAddi | ppeAddis | ppeAddic | ppeAddicDot | ppeSubfic | ppeMulli |
      ppeOri | ppeOris | ppeXori | ppeXoris | ppeAndiDot | ppeAndisDot | ppeCmpi | ppeCmpli | ppeAdd | ppeAddc | ppeAdde |
      ppeSubf | ppeSubfc | ppeSubfe | ppeMullw | ppeMulld | ppeAddme | ppeAddze | ppeSubfme | ppeSubfze | ppeNeg | ppeMulhd
      | ppeMulhdu | ppeCmp | ppeCmpl | ppeAnd | ppeAndc | ppeOrc | ppeXor | ppeNand | ppeNor | ppeEqv | ppeSlw | ppeSrw |
      ppeSraw | ppeSld | ppeSrd | ppeSrad | ppeExtsb | ppeExtsh | ppeExtsw | ppeCntlzw | ppeCntlzd | ppeSrawi | ppeSradi |
      ppeRlwimi | ppeRlwinm | ppeRlwnm | ppeRldicl | ppeRldicr | ppeRldic | ppeRldimi | ppeRldcl | ppeRldcr =>
    exact ppeNext_legal h fun _ => by simp
  case ppeMtocrf => exact .ite (ppeNext_legal h fun _ => rfl) (ppeNext_legal (legalMsrs_drew.mpr h) fun _ => rfl)
  case ppeMulhw | ppeMulhwu => exact wordResult_legal h
  case ppeDivw | ppeDivwu => exact .ite (undefinedDivide_legal h) (wordResult_legal h)
  case ppeDivd | ppeDivdu => exact .ite (undefinedDivide_legal h) (divForm_legal h)
  -- Loads, stores and cache instructions.
  case ppeLbz | ppeLhz | ppeLha | ppeLwz | ppeLd | ppeLwa | ppeLbzx | ppeLhzx | ppeLhax | ppeLwzx | ppeLwax | ppeLdx |
      ppeLhbrx | ppeLwbrx | ppeLdbrx =>
    exact loadGpr_legal h
  case ppeLbzu | ppeLhzu | ppeLhau | ppeLwzu | ppeLdu | ppeLbzux | ppeLhzux | ppeLhaux | ppeLwzux | ppeLwaux | ppeLdux =>
    exact loadGprU_legal h
  case ppeStb | ppeSth | ppeStw | ppeStd | ppeStbx | ppeSthx | ppeStwx | ppeStdx | ppeSthbrx | ppeStwbrx | ppeStdbrx =>
    exact storeVal_legal h
  case ppeStbu | ppeSthu | ppeStwu | ppeStdu | ppeStbux | ppeSthux | ppeStwux | ppeStdux => exact storeValU_legal h
  case ppeLfs | ppeLfd | ppeLfsx | ppeLfdx => exact loadFpr_legal h
  case ppeLfsu | ppeLfdu | ppeLfsux | ppeLfdux => exact loadFprU_legal h
  case ppeLswi => exact loadString_legal h
  case ppeStswx | ppeStswi => exact storeString_legal h
  case ppeLwarx | ppeLdarx => exact loadReserve_legal h
  case ppeStwcxDot | ppeStdcxDot => exact storeConditional_legal h
  case ppeDcbt | ppeDcbtst => exact touch_legal h
  case ppeLswx => exact .ite (illegal_legal h) (loadString_legal h)
  case ppeLmw => exact execPpeLmw_legal h
  case ppeStmw => exact storeParts_legal h fun _ h => by simp [h]
  case ppeDcbz => exact (dataPiece_legal h).done fun _ _ h => (realStore_legal h).done fun _ _ h => by simp [h]
  case ppeDcbst | ppeDcbf => exact cacheOp_legal h fun _ _ h => by simp [h]
  case ppeIcbi => exact cacheOp_legal h fun _ _ h => by simp [h]
  case ppeStfs | ppeStfsx => exact fpGuard_legal h (storeVal_legal (singleWord_legal h))
  case ppeStfsu | ppeStfsux => exact fpGuard_legal h (storeValU_legal (singleWord_legal h))
  case ppeStfd | ppeStfdx | ppeStfiwx => exact fpGuard_legal h (storeVal_legal h)
  case ppeStfdu | ppeStfdux => exact fpGuard_legal h (storeValU_legal h)
  -- Floating point.
  case ppeFadd | ppeFadds | ppeFsub | ppeFsubs | ppeFmul | ppeFmuls | ppeFmadd | ppeFmadds | ppeFmsub | ppeFmsubs |
      ppeFnmadd | ppeFnmadds | ppeFnmsub | ppeFnmsubs =>
    exact fpArith_legal h
  case ppeFcfid => exact execPpeFcfid_legal h
  case ppeFres => exact execPpeFres_legal h
  case ppeFrsqrte => exact execPpeFrsqrte_legal h
  case ppeFdiv | ppeFdivs | ppeFsqrt | ppeFsqrts => exact fpArithNi_legal h
  case ppeFmr | ppeFneg | ppeFabs | ppeFnabs | ppeFsel => exact fpMove_legal h
  case ppeFctid | ppeFctidz => exact fpToInt_legal h
  case ppeFctiw | ppeFctiwz => exact fpToInt_legal (legalMsrs_drew.mpr h)
  case ppeFcmpu | ppeFcmpo => exact fpCompare_legal h
  case ppeMtfsfi | ppeMtfsf | ppeMtfsb0 | ppeMtfsb1 => exact fpWrite_legal h
  case ppeFrsp => exact fpGuard_legal h (fpEnd_legal h fun _ => by simp)
  case ppeMffs => exact fpGuard_legal h (ppeNext_legal (legalMsrs_drew.mpr h) fun _ => by simp)
  case ppeMcrfs => exact fpGuard_legal h (fpEnd_legal h fun _ => by simp)
  -- Vectors.
  case ppeVcmpbfp => exact execPpeVcmpbfp_legal h
  case ppeLvsl | ppeLvsr | ppeDst | ppeDstt | ppeDstst | ppeDststt | ppeDss | ppeDssall | ppeVperm | ppeVsel | ppeVsldoi |
      ppeVslo | ppeVsro | ppeVmrghb | ppeVmrghh | ppeVmrghw | ppeVmrglb | ppeVmrglh | ppeVmrglw | ppeVspltb | ppeVsplth |
      ppeVspltw | ppeVspltisb | ppeVspltish | ppeVspltisw | ppeVpkuhum | ppeVpkuwum | ppeVpkuhus | ppeVpkuwus | ppeVpkshus |
      ppeVpkswus | ppeVpkshss | ppeVpkswss | ppeVpkpx | ppeVupkhsb | ppeVupkhsh | ppeVupklsb | ppeVupklsh | ppeVupkhpx |
      ppeVupklpx | ppeVand | ppeVandc | ppeVor | ppeVxor | ppeVnor | ppeVrlb | ppeVrlh | ppeVrlw | ppeVslb | ppeVslh |
      ppeVslw | ppeVsrb | ppeVsrh | ppeVsrw | ppeVsrab | ppeVsrah | ppeVsraw | ppeVaddubm | ppeVadduhm | ppeVadduwm |
      ppeVaddcuw | ppeVaddubs | ppeVadduhs | ppeVadduws | ppeVaddsbs | ppeVaddshs | ppeVaddsws | ppeVsububm | ppeVsubuhm |
      ppeVsubuwm | ppeVsubcuw | ppeVsububs | ppeVsubuhs | ppeVsubuws | ppeVsubsbs | ppeVsubshs | ppeVsubsws | ppeVavgub |
      ppeVavguh | ppeVavguw | ppeVavgsb | ppeVavgsh | ppeVavgsw | ppeVmaxub | ppeVmaxuh | ppeVmaxuw | ppeVmaxsb | ppeVmaxsh
      | ppeVmaxsw | ppeVminub | ppeVminuh | ppeVminuw | ppeVminsb | ppeVminsh | ppeVminsw | ppeVcmpequb | ppeVcmpequh |
      ppeVcmpequw | ppeVcmpgtub | ppeVcmpgtuh | ppeVcmpgtuw | ppeVcmpgtsb | ppeVcmpgtsh | ppeVcmpgtsw | ppeVmuleub |
      ppeVmuleuh | ppeVmulesb | ppeVmulesh | ppeVmuloub | ppeVmulouh | ppeVmulosb | ppeVmulosh | ppeVmhaddshs |
      ppeVmhraddshs | ppeVmladduhm | ppeVmsumubm | ppeVmsummbm | ppeVmsumuhm | ppeVmsumuhs | ppeVmsumshm | ppeVmsumshs |
      ppeVsum4ubs | ppeVsum4sbs | ppeVsum4shs | ppeVsum2sws | ppeVsumsws | ppeMfvscr | ppeMtvscr | ppeVaddfp | ppeVsubfp |
      ppeVmaddfp | ppeVnmsubfp | ppeVmaxfp | ppeVminfp | ppeVrfin | ppeVrfiz | ppeVrfip | ppeVrfim | ppeVcfux | ppeVcfsx |
      ppeVctuxs | ppeVctsxs =>
    exact vmxNext_legal h fun _ => by simp
  case ppeVsl | ppeVsr => exact vmxShift_legal h
  case ppeVcmpeqfp | ppeVcmpgefp | ppeVcmpgtfp => exact vcmpf_legal h
  case ppeVrefp | ppeVrsqrtefp | ppeVlogefp | ppeVexptefp => exact vest_legal h
  case ppeLvx | ppeLvxl | ppeLvlx | ppeLvlxl => exact vecLoad_legal h
  case ppeLvebx | ppeLvehx | ppeLvewx => exact vecLoadEl_legal h
  case ppeLvrx | ppeLvrxl => exact vecLoadRight_legal h
  case ppeStvrx | ppeStvrxl => exact vecStoreRight_legal h
  case ppeStvx | ppeStvxl | ppeStvlx | ppeStvlxl | ppeStvebx | ppeStvehx | ppeStvewx => exact vecStore_legal h
  -- The SPUs.
  case spuLqd | spuLqx | spuLqa | spuLqr | spuStqd | spuStqx | spuStqa | spuStqr | spuCbd | spuCbx | spuChd | spuChx |
      spuCwd | spuCwx | spuCdd | spuCdx | spuIlh | spuIlhu | spuIl | spuIla | spuIohl | spuFsmbi | spuAh | spuAhi | spuA |
      spuAi | spuSfh | spuSfhi | spuSf | spuSfi | spuAddx | spuCg | spuCgx | spuSfx | spuBg | spuBgx | spuMpy | spuMpyu |
      spuMpyi | spuMpyui | spuMpya | spuMpyh | spuMpys | spuMpyhh | spuMpyhha | spuMpyhhu | spuMpyhhau | spuClz | spuCntb |
      spuFsmb | spuFsmh | spuFsm | spuGbb | spuGbh | spuGb | spuAvgb | spuAbsdb | spuSumb | spuXsbh | spuXshw | spuXswd |
      spuAnd | spuAndc | spuAndbi | spuAndhi | spuAndi | spuOr | spuOrc | spuOrbi | spuOrhi | spuOri | spuOrx | spuXor |
      spuXorbi | spuXorhi | spuXori | spuNand | spuNor | spuEqv | spuSelb | spuShufb | spuShlh | spuShlhi | spuShl | spuShli
      | spuShlqbi | spuShlqbii | spuShlqby | spuShlqbyi | spuShlqbybi | spuRoth | spuRothi | spuRot | spuRoti | spuRotqby |
      spuRotqbyi | spuRotqbybi | spuRotqbi | spuRotqbii | spuRothm | spuRothmi | spuRotm | spuRotmi | spuRotqmby |
      spuRotqmbyi | spuRotqmbybi | spuRotqmbi | spuRotqmbii | spuRotmah | spuRotmahi | spuRotma | spuRotmai | spuCeqb |
      spuCeqbi | spuCeqh | spuCeqhi | spuCeq | spuCeqi | spuCgtb | spuCgtbi | spuCgth | spuCgthi | spuCgt | spuCgti |
      spuClgtb | spuClgtbi | spuClgth | spuClgthi | spuClgt | spuClgti | spuHbr | spuHbrp | spuHbra | spuHbrr | spuFa |
      spuDfa | spuFs | spuDfs | spuFm | spuDfm | spuFma | spuDfma | spuFnms | spuDfnms | spuFms | spuDfms | spuDfnma |
      spuFrest | spuFrsqest | spuFi | spuFrds | spuFesd | spuFceq | spuFcmeq | spuFcgt | spuFcmgt | spuFscrwr | spuFscrrd |
      spuLnop | spuNop | spuSync | spuSyncc | spuDsync | spuMfspr | spuMtspr | spuRchcnt =>
    exact spuNext_legal h
  case spuHeq | spuHeqi | spuHgt | spuHgti | spuHlgt | spuHlgti => exact haltIf_legal h
  case spuBr | spuBra | spuBrsl | spuBrasl | spuBrnz | spuBrz | spuBrhnz | spuBrhz => exact legalMsrs_modSpe.mpr h
  case spuBi | spuBisled | spuBisl | spuBiz | spuBinz | spuBihz | spuBihnz => exact branchIndirect_legal h
  case spuIret => exact branchIndirect_legal (drewSrr0_legal h)
  case spuCsflt | spuCflts | spuCuflt | spuCfltu => exact .ite (spuNext_legal h) (spuNext_legal (legalMsrs_drew.mpr h))
  case spuDfceq | spuDfcmeq | spuDfcgt | spuDfcmgt | spuDftsv => exact xcellOnly_legal h (spuNext_legal h)
  case spuStop | spuStopd => exact stopSignal_legal h
  case spuRdch =>
    exact .ite (spuNext_legal h) (.ite (legalMsrs_modSpe.mpr h) ((readChannel_legal h).done fun _ _ h => spuNext_legal h))
  case spuWrch =>
    exact .ite (spuNext_legal h) (.ite (legalMsrs_modSpe.mpr h) ((writeChannel_legal h).done fun _ _ h => spuNext_legal h))
  -- The MFCs.
  case mfcPut | mfcPutb | mfcPutf | mfcPuts | mfcPutbs | mfcPutfs | mfcPutr | mfcPutrb | mfcPutrf | mfcGet | mfcGetb |
      mfcGetf | mfcGets | mfcGetbs | mfcGetfs =>
    exact transfer_legal h
  case mfcPutl | mfcPutlb | mfcPutlf | mfcPutrl | mfcPutrlb | mfcPutrlf | mfcGetl | mfcGetlb | mfcGetlf => exact listCmd_legal h
  case mfcSdcrt | mfcSdcrtst | mfcSdcrst | mfcSdcrf => exact hintCmd_legal h
  case mfcSdcrz => exact clearLines_legal h
  case mfcSndsig | mfcSndsigb | mfcSndsigf => exact signalCmd_legal h
  case mfcPutlluc => exact putLine_legal h
  case mfcPutllc => exact putLineConditional_legal h
  case mfcPutqlluc => exact putLineQueued_legal h
  case mfcBarrier | mfcMfceieio | mfcMfcsync => exact syncCmd_legal h
  case mfcGetllar => exact getLine_legal h

end

end Sys2Proof.Machine
end

section
/-! The step of the machine: every agent's step and every move of the schedule keeps the MSRs legal, and the state after reset. -/

namespace Sys2Proof.Machine

open Sys2Proof.Safety

section
variable {s : State}

/-! ## Inbound I/O accesses (Machine/Ioc.lean) -/

theorem iostLookup_legal {a : BitVec 42} (h : legalMsrs s) : IoAll legalMsrs (s.iostLookup a) := by
  simp [State.iostLookup, h]

theorem ioptLookup_legal {base page bits : Nat} (h : legalMsrs s) : IoAll legalMsrs (s.ioptLookup base page bits) := by
  unfold State.ioptLookup
  extract_lets place waiting
  clear_value waiting place
  split
  · exact h
  · exact h
  · split
    · exact h
    · split
      · exact h
      · simp [h]

theorem ioptAddress_legal {e : DWord} {a : BitVec 42} {bits : Nat} {write : Bool} {ioid : BitVec 11} (h : legalMsrs s) :
    IoAll legalMsrs (ioptAddress s e a bits write ioid) := by
  simp [ioptAddress, h]

theorem ioTranslate_legal {a : BitVec 42} {write : Bool} {ioid : BitVec 11} (h : legalMsrs s) :
    IoAll legalMsrs (s.ioTranslate a write ioid) := by
  refine (iostLookup_legal h).bind fun ste s h => ?_
  split
  · trivial
  · simp only [ioAll_ite, ioAll_fault]
    split
    · exact h
    · exact (ioptLookup_legal h).bind fun _ _ h => ioptAddress_legal h

theorem ioAddress_legal {a : Nat} {write : Bool} {ioid : BitVec 11} (h : legalMsrs s) :
    IoAll legalMsrs (s.ioAddress a write ioid) := by
  simp [State.ioAddress, h, ioTranslate_legal]

theorem ioAccess_legal {u : IoUnit} {a len : Nat} {write : Bool} {f : Region → Nat → Bool → State → Res Unit} (h : legalMsrs s)
    (hf : ∀ r ra strong s, legalMsrs s → ResAll legalMsrs (f r ra strong s)) : ResAll legalMsrs (s.ioAccess u a len write f) := by
  have ha := ioAddress_legal (a := a) (write := write) (ioid := u.ioid) h
  unfold State.ioAccess
  split <;> rename_i he <;> rw [he] at ha
  · exact ha
  · exact ioException_legal ha
  · split
    · exact ioException_legal ha
    · exact ha
    · exact .ite trivial (hf _ _ _ _ ha)

theorem ioRead_legal {u : IoUnit} {a len : Nat} (h : legalMsrs s) : ResAll legalMsrs (s.ioRead u a len) := by
  refine .ite h (ioAccess_legal h fun r ra strong s h => ?_)
  dsimp only
  split
  · exact (mmioRead_legal (ioBarrier_legal h)).bind fun _ _ h => h
  · simp [h]
  · simp [h]

theorem ioWrite_legal {u : IoUnit} {a : Nat} {bytes : List Byte} (h : legalMsrs s) : ResAll legalMsrs (s.ioWrite u a bytes) := by
  refine .ite h (ioAccess_legal h fun r ra strong s h => ?_)
  split <;> simp [h]

/-! ## A PPE thread (Machine/Sequencer.lean) -/

theorem externalInterrupt_legal {t : Fin 2} {o : Out State} (h : legalMsrs s) (ho : s.externalInterrupt t = some o) :
    OutAll legalMsrs o := by
  unfold State.externalInterrupt at ho
  extract_lets th userOrGuest direct mediated s' at ho
  have hs' : legalMsrs s' := by simp [s', h]
  clear_value s' mediated direct
  split at ho
  · cases ho
    exact interrupt_legal hs'
  · split at ho
    · cases ho
      exact interrupt_legal hs'
    · cases ho

theorem systemInterrupt_legal {t : Fin 2} {o : Out State} (h : legalMsrs s) (ho : s.systemInterrupt t = some o) :
    OutAll legalMsrs o := by
  have hx : ∀ {k ret info}, OutAll legalMsrs (.next (s.interrupt t k ret info)) := interrupt_legal h
  unfold State.systemInterrupt at ho
  extract_lets th at ho
  clear_value th
  split at ho
  · cases ho; exact hx
  split at ho
  · cases ho; exact interrupt_legal (by simp [h])
  split at ho
  · cases ho; exact interrupt_legal (by simp [h])
  split at ho
  · cases ho; exact interrupt_legal (by simp [h])
  split at ho
  · next he => cases ho; exact externalInterrupt_legal h he
  split at ho
  · cases ho; exact hx
  split at ho
  · cases ho; exact hx
  · cases ho

theorem resume_legal {t : Fin 2} (h : legalMsrs s) : legalMsrs (s.resume t) := by
  simp [State.resume, h]

theorem fetchWord_legal {p : Phys} (h : legalMsrs s) : ResAll legalMsrs (fetchWord s p) := by
  unfold fetchWord
  split
  · split <;> exact h
  · simp [h]
  · trivial
  · exact (ioifRead_legal h).bind fun _ _ h => h
  · exact unassignedSpace_legal h
  · exact checkstop_legal h

theorem traceAfter_legal {t : Fin 2} {w : Word} {s' : State} (h : legalMsrs s') : legalMsrs (traceAfter s t w s') := by
  simp [traceAfter, h]

theorem ppeInstruction_legal {t : Fin 2} (h : legalMsrs s) : OutAll legalMsrs (s.ppeInstruction t) := by
  refine (translateFetch_legal h).done fun _ _ h => (fetchWord_legal h).done fun _ s h => ?_
  split
  · exact illegal_legal h
  · next i _ =>
    have he := exec_legal i h
    split
    · next hx => rw [hx] at he; exact traceAfter_legal he
    · exact he

theorem boundary_legal {t : Fin 2} (h : legalMsrs s) : OutAll legalMsrs (s.boundary t) := by
  unfold State.boundary
  split
  · next ho => exact systemInterrupt_legal h ho
  · exact ppeInstruction_legal h

theorem ppeStep_legal {t : Fin 2} (h : legalMsrs s) : OutAll legalMsrs (s.ppeStep t) := by
  refine .ite (resume_legal h) ?_
  split
  · exact boundary_legal h
  · exact takeMachineCheck_legal h
  · exact boundary_legal (by simp [h])

/-! ## An SPU, an MFC -/

theorem afterSpu_legal (h : legalMsrs s) : OutAll legalMsrs s.afterSpu :=
  .ite (.ite (next_legal (raiseInt_legal h)) h) h

theorem spuStep_legal (h : legalMsrs s) : OutAll legalMsrs s.spuStep := by
  refine .ite (spuInterrupt_legal h) ?_
  extract_lets o
  have ho : OutAll legalMsrs o := by
    unfold o
    split
    · exact spuInvalid_legal h
    · exact exec_legal _ (legalMsrs_modSpe.mpr h)
  clear_value o
  cases o with
  | next t => exact afterSpu_legal ho
  | fault f => exact ho
  | refused r => exact ho

theorem mfcCommand_legal (h : legalMsrs s) : OutAll legalMsrs s.mfcCommand := by
  unfold State.mfcCommand
  split
  · exact h
  · split
    · exact selectedError_legal h
    · exact exec_legal _ h

theorem resentNow_legal {x : MfcSel} (h : legalMsrs s) : legalMsrs (s.resentNow x) := by
  unfold State.resentNow
  split
  · simp [h]
  · exact h

theorem mfcStep_legal (h : legalMsrs s) : OutAll legalMsrs s.mfcStep := by
  unfold State.mfcStep
  extract_lets l m s'
  have hs' : legalMsrs s' := by simp [s', h]
  clear_value s' m l
  refine .ite hs' ?_
  cases m
  · exact hs'
  · exact hs'
  · exact hs'
  · exact hs'
  · exact next_legal (mfcError_legal hs')
  · exact mfcCommand_legal (resentNow_legal hs')

theorem agentStep_legal {a : Agent} (h : legalMsrs s) : OutAll legalMsrs (s.agentStep a) := by
  cases a with
  | ppe t => exact ppeStep_legal (s := { s with cur := .ppe t }) h
  | spu n => exact spuStep_legal (s := { s with cur := .spu n }) h
  | mfc n => exact mfcStep_legal (s := { s with cur := .mfc n }) h

/-! ## The moves of the schedule -/

theorem tick_legal (h : legalMsrs s) : legalMsrs s.tick :=
  legalMsrs_of_msr h fun u => by simp [State.tick]

theorem setTben_legal {high : Bool} (h : legalMsrs s) : legalMsrs (s.setTben high) := by
  have ht : legalMsrs { s with plat := { s.plat with tben := high } } := h
  unfold State.setTben
  dsimp only
  split
  · exact tick_legal ht
  · exact ht

theorem eratPut_legal {t : Fin 2} {x : EratEntry} (h : legalMsrs s) : legalMsrs (s.eratPut t x) := by
  unfold State.eratPut
  extract_lets l kept s' others
  have hs' : legalMsrs s' := by simp [s', h]
  exact legalMsrs_of_msr hs' fun u => by simp

theorem eratFill_legal {t : Fin 2} {instr : Bool} {ea : DWord} (h : legalMsrs s) : legalMsrs (s.eratFill t instr ea) := by
  unfold State.eratFill
  extract_lets th ea' k
  have hl := lookup_legal (t := t) (ea := ea') (k := k) h
  split
  · next he =>
    split at he
    · rw [he] at hl
      exact eratPut_legal hl
    · cases he
  · exact h

theorem icacheFill_legal {t : Fin 2} {ea : DWord} (h : legalMsrs s) : legalMsrs (s.icacheFill t ea) := by
  obtain ⟨l, he⟩ := State.icacheFill_only s t ea
  rw [he]
  exact h

theorem livelock_legal (h : legalMsrs s) : ResAll legalMsrs s.livelock := by
  simp [State.livelock, h]

theorem resetOf_legal (c : ChipConfig) : legalMsrs (State.resetOf c) := by
  intro t
  fin_cases t <;> exact resetMsr_legal _

theorem powerOn_legal (s : State) : legalMsrs s.powerOn := resetOf_legal s.cfg

theorem toOut_legal {r : Res Unit} (h : ResAll legalMsrs r) : OutAll legalMsrs r.toOut := next_legal h

theorem applyMove_legal {m : Move} (h : legalMsrs s) : OutAll legalMsrs (s.applyMove m) := by
  cases m <;> dsimp only [State.applyMove]
  case run => exact .ite (agentStep_legal h) h
  case tick =>
    refine outAll_next.mpr ?_
    split
    · exact tick_legal h
    · exact h
  case setTben => exact setTben_legal h
  case eratFill => exact eratFill_legal h
  case icacheFill => exact icacheFill_legal h
  case eratDrop | maintenance | scanMatch => simp [h]
  case icacheDrop => exact legalMsrs_mk.mpr h
  case spuPrefetch | spuDrop => exact legalMsrs_modN.mpr h
  case temperature => exact legalMsrs_thermalSample.mpr (legalMsrs_mk.mpr h)
  case ioRead => exact toOut_legal (ioRead_legal h)
  case ioWrite => exact toOut_legal (ioWrite_legal h)
  case ioData => exact ioData_legal h
  case ioInterrupt => exact toOut_legal (ioPacket_legal h)
  case ioptArrive => exact arriveIopt_legal h
  case micTrace | tokenLevel => exact toOut_legal (setSignalCell_legal h)
  case livelock => exact toOut_legal (livelock_legal h)
  case slowDone => exact slowDone_legal h
  case iocFault => exact toOut_legal (storeIocFir_legal h)
  case thermalOverload => exact stopWith_legal h
  case watchdog | checkstopSignal => exact checkstop_legal h
  case powerOnReset => exact powerOn_legal s

/-! ## The step -/

theorem round_legal (h : legalMsrs s) : legalMsrs s.round := by
  refine performInbound_legal (arriveIopt_legal (slowDone_legal ?_))
  split
  · exact tick_legal h
  · exact h

theorem turn_legal (h : legalMsrs s) : OutAll legalMsrs s.turn := by
  unfold State.turn
  extract_lets n s'
  have hs' : legalMsrs s' := by simp [s', h, round_legal]
  clear_value s'
  split
  · exact .ite (agentStep_legal hs') hs'
  · exact hs'

theorem stoppedStep_legal {f : Fault} (h : legalMsrs s) : OutAll legalMsrs (s.stoppedStep f) := by
  unfold State.stoppedStep
  split
  · trivial
  · refine outAll_next.mpr ?_
    split
    · exact powerOn_legal _
    · exact h

theorem step_legal (h : legalMsrs s) : OutAll legalMsrs (step s) := by
  unfold step State.advanceMachine
  split
  · exact stoppedStep_legal h
  · split
    · exact turn_legal h
    · next rest _ => exact applyMove_legal (s := { s with schedule := rest }) h

end

end Sys2Proof.Machine
end

section
/-! The obligations on the state: every step keeps the MSRs legal, and the state after reset. -/

namespace Sys2Proof.Machine

open Sys2Proof.Safety

/-- Settles O58: what a part of a step answers has legal MSRs if its state has them (`step_legal`). -/
theorem stepsKeepMsrLegal : Obligations.StepsKeepMsrLegal := by
  intro s t h hst
  have hs := step_legal h
  rwa [hst] at hs

/-- Settles O59, by computation of `State.reset`; the MSRs are legal after any reset. -/
theorem resetState : Obligations.ResetState := by
  refine ⟨⟨rfl, by decide⟩, resetOf_legal _, rfl, by decide, by decide, by decide, rfl, by decide, rfl, rfl, rfl, rfl, rfl, rfl,
    ?_, ?_, by decide⟩
  · intro u
    fin_cases u <;> exact ⟨rfl, rfl, rfl, by decide⟩
  · decide

end Sys2Proof.Machine
end

section
/-! The canonical form of main storage and of the local storages (20_memory R373): which parts of the state it looks at, what a store, an
interrupt and the end of an instruction make of it. -/

namespace Sys2Proof.Machine

open Sys2Proof.Safety

section
variable {s : State}

/-! ## The memories of a state -/

/-- Only main storage and the SPEs matter. -/
@[simp] theorem canonical_mk {threads : Vector Thread 2} {ppe : PpeShared} {plat : Platform} {cfg : ChipConfig} {cur : Agent}
    {sel : MfcSel} {schedule : List Move} {freeCount : Nat} {stopped : Option Fault} :
    memoriesCanonical ⟨threads, ppe, s.spes, plat, s.mem, cfg, cur, sel, schedule, freeCount, stopped⟩ ↔ memoriesCanonical s := .rfl

@[simp] theorem canonical_ite {c : Prop} [Decidable c] {a b : State} :
    memoriesCanonical (if c then a else b) ↔ if c then memoriesCanonical a else memoriesCanonical b := by split <;> rfl

@[simp] theorem canonical_modT {u : Fin 2} {f : Thread → Thread} :
    memoriesCanonical (s.modT u f) ↔ memoriesCanonical s := .rfl
@[simp] theorem canonical_modThr {f : Thread → Thread} : memoriesCanonical (s.modThr f) ↔ memoriesCanonical s := .rfl
@[simp] theorem canonical_drew {k : Nat} : memoriesCanonical (s.drew k) ↔ memoriesCanonical s := .rfl

/-- A state with the memories of `s`. -/
theorem canonical_of_memories {t : State} (h : memoriesCanonical s) (hm : t.mem = s.mem)
    (hl : ∀ n : Fin 8, t.spes[n].ls = s.spes[n].ls) : memoriesCanonical t :=
  ⟨hm ▸ h.1, fun n => (hl n).symm ▸ h.2 n⟩

/-- An update of every SPE that leaves its local storage alone. -/
theorem canonical_mapSpes {f : Spe → Spe} (h : memoriesCanonical s) (hf : ∀ p, (f p).ls = p.ls) :
    memoriesCanonical { s with spes := s.spes.map f } :=
  canonical_of_memories h rfl fun n => by simp [hf]

/-- An update of one SPE that keeps its local storage canonical. -/
theorem canonical_modN {n : Fin 8} {f : Spe → Spe} (h : memoriesCanonical s)
    (hf : Memory.wf s.spes[n].ls = true → Memory.wf (f s.spes[n]).ls = true) : memoriesCanonical (s.modN n f) :=
  (InboundOnly.modN s n f hf).canonical h

theorem canonical_modSpe {f : Spe → Spe} (h : memoriesCanonical s)
    (hf : Memory.wf s.spe.ls = true → Memory.wf (f s.spe).ls = true) :
    memoriesCanonical (s.modSpe f) := canonical_modN h hf

/-- An update of one SPE that leaves its local storage alone. -/
@[simp] theorem canonical_modN_frame {n : Fin 8} {f : Spe → Spe} (hf : ∀ p, (f p).ls = p.ls) :
    memoriesCanonical (s.modN n f) ↔ memoriesCanonical s := by
  have he : ∀ m : Fin 8, (s.modN n f).spes[m].ls = s.spes[m].ls := by
    intro m
    rw [State.spes_modN]
    split
    · next h => rw [hf, h]
    · rfl
  exact and_congr_right' (forall_congr' fun m => by rw [he m])

@[simp] theorem canonical_modSpe_frame {f : Spe → Spe} (hf : ∀ p, (f p).ls = p.ls) :
    memoriesCanonical (s.modSpe f) ↔ memoriesCanonical s := canonical_modN_frame hf

/-- A store into one local storage. -/
@[simp] theorem storeLs_canonical {n : Fin 8} {a v k : Nat} (h : memoriesCanonical s) :
    memoriesCanonical (s.modN n fun p => { p with ls := writeBytes p.ls a v k }) :=
  canonical_modN h fun hl => Memory.wf_writeBytes _ _ _ _ hl

/-! ## Operations on an SPE that leave its local storage alone -/

section
variable (p : Spe)

@[simp] theorem Spe.ls_ite {c : Prop} [Decidable c] {a b : Spe} : (if c then a else b).ls = if c then a.ls else b.ls :=
  apply_ite Spe.ls c a b

@[simp] theorem Spe.raiseEvent_ls (b : Nat) : (p.raiseEvent b).ls = p.ls := by simp [Spe.raiseEvent]
@[simp] theorem Spe.loseLine_ls (g : Nat) : (p.loseLine g).ls = p.ls := by simp [Spe.loseLine]
@[simp] theorem Spe.dropLine_ls (g : Nat) : (p.dropLine g).ls = p.ls := by simp [Spe.dropLine]
@[simp] theorem Spe.requestMsSync_ls : p.requestMsSync.ls = p.ls := by dsimp only [Spe.requestMsSync]
@[simp] theorem Spe.trackWrites_ls : p.trackWrites.ls = p.ls := by dsimp only [Spe.trackWrites]
@[simp] theorem Spe.stopAt_ls (status a : Word) : (p.stopAt status a).ls = p.ls := by dsimp only [Spe.stopAt]
@[simp] theorem Spe.runRequest_ls : p.runRequest.ls = p.ls := by simp [Spe.runRequest]
@[simp] theorem Spe.stopOutside_ls : p.stopOutside.ls = p.ls := by simp [Spe.stopOutside]
@[simp] theorem Spe.setLink_ls (rt : BitVec 7) : (p.setLink rt).ls = p.ls := by simp [Spe.setLink]
@[simp] theorem Spe.branchTo_ls (taken : Bool) (target : Word) : (p.branchTo taken target).ls = p.ls :=
  by dsimp only [Spe.branchTo]
@[simp] theorem Spe.feature_ls (d e : Bool) : (p.feature d e).ls = p.ls := by dsimp only [Spe.feature]
@[simp] theorem Spe.recount_ls : p.recount.ls = p.ls := by simp [Spe.recount]
@[simp] theorem Spe.writeDec_ls (v : Word) (dh : Bool) : (p.writeDec v dh).ls = p.ls := by simp [Spe.writeDec]
@[simp] theorem Spe.tickDec_ls : p.tickDec.ls = p.ls := by simp [Spe.tickDec]
@[simp] theorem Spe.ackEvents_ls (v : Word) : (p.ackEvents v).ls = p.ls := by simp [Spe.ackEvents]
@[simp] theorem Spe.popInMbox_ls : p.popInMbox.ls = p.ls := by dsimp only [Spe.popInMbox]
@[simp] theorem Spe.setTlb_ls (key : Nat) (x : TlbEntry) : (p.setTlb key x).ls = p.ls := by dsimp only [Spe.setTlb]
@[simp] theorem Spe.writeSlbEsid_ls (v : DWord) : (p.writeSlbEsid v).ls = p.ls := by dsimp only [Spe.writeSlbEsid]
@[simp] theorem Spe.writeSlbVsid_ls (v : DWord) : (p.writeSlbVsid v).ls = p.ls := by dsimp only [Spe.writeSlbVsid]
@[simp] theorem Spe.slbInvalidate_ls (ea : DWord) : (p.slbInvalidate ea).ls = p.ls := by dsimp only [Spe.slbInvalidate]
@[simp] theorem Spe.slbInvalidateAll_ls : p.slbInvalidateAll.ls = p.ls := by dsimp only [Spe.slbInvalidateAll]
@[simp] theorem Spe.writeTlbVpn_ls (key : Nat) (v : DWord) : (p.writeTlbVpn key v).ls = p.ls :=
  by simp [Spe.writeTlbVpn]
@[simp] theorem Spe.readTlbVpn_ls (key : Nat) : (p.readTlbVpn key).2.ls = p.ls := by dsimp only [Spe.readTlbVpn]
@[simp] theorem Spe.pxWrote_ls (bits : BitVec 5) : (p.pxWrote bits).ls = p.ls := by dsimp only [Spe.pxWrote]
@[simp] theorem Spe.purge_ls : p.purge.ls = p.ls := by simp [Spe.purge]
@[simp] theorem Spe.writeCntl_ls (v : DWord) : (p.writeCntl v).ls = p.ls := by simp [Spe.writeCntl]
@[simp] theorem Spe.writeCq_ls (k : Nat) (v : DWord) : (p.writeCq k v).ls = p.ls := by simp [Spe.writeCq]
@[simp] theorem Spe.writeInMbox_ls (v : Word) : (p.writeInMbox v).ls = p.ls := by simp [Spe.writeInMbox]
@[simp] theorem Spe.writeSig1_ls (v : Word) : (p.writeSig1 v).ls = p.ls := by simp [Spe.writeSig1]
@[simp] theorem Spe.writeSig2_ls (v : Word) : (p.writeSig2 v).ls = p.ls := by simp [Spe.writeSig2]
@[simp] theorem Spe.walk_ls : p.walk.ls = p.ls := by simp [Spe.walk]
@[simp] theorem Spe.setChnlCnt_ls (v : Nat) : (p.setChnlCnt v).ls = p.ls := by simp [Spe.setChnlCnt]
@[simp] theorem Spe.writeSr1_ls (v : DWord) : (p.writeSr1 v).ls = p.ls := by simp [Spe.writeSr1]
@[simp] theorem Spe.prefetch_ls (line : Nat) : (p.prefetch line).ls = p.ls := by simp [Spe.prefetch]
@[simp] theorem Spe.endMsSync_ls : p.endMsSync.ls = p.ls := by simp [Spe.endMsSync]
@[simp] theorem Spe.deliverTags_ls : p.deliverTags.ls = p.ls := by simp [Spe.deliverTags]

@[simp] theorem Spe.cmdStatus_ls : p.cmdStatus.2.ls = p.ls := by
  unfold Spe.cmdStatus
  extract_lets bad full v
  clear_value v
  split <;> rfl

@[simp] theorem Spe.setChnlData_ls (v : Word) : (p.setChnlData v).ls = p.ls := by
  unfold Spe.setChnlData
  split <;> rfl

@[simp] theorem Spe.performTlbie_ls (x : Snoop) : (p.performTlbie x).ls = p.ls := by
  unfold Spe.performTlbie
  dsimp only
  split <;> rfl

@[simp] theorem Spe.performTlbies_ls : p.performTlbies.ls = p.ls :=
  List.foldlRecOn (motive := fun q : Spe => q.ls = p.ls) p.snoops Spe.performTlbie rfl
    fun q hq x _ => (q.performTlbie_ls x).trans hq

@[simp] theorem Spe.performOldest_ls : p.performOldest.ls = p.ls := by
  unfold Spe.performOldest
  split
  · rfl
  · exact p.performTlbie_ls _

theorem Spe.tlbInvalidateClass_ls {p q : Spe} {v : DWord} (hq : p.tlbInvalidateClass v = some q) : q.ls = p.ls := by
  obtain ⟨b, -, rfl⟩ := Option.map_eq_some_iff.mp hq
  rfl

end

/-! ## Stores into main storage -/

@[simp] theorem noteStore_canonical {b : Option Agent} {g : Nat} (h : memoriesCanonical s) :
    memoriesCanonical (s.noteStore b g) :=
  canonical_of_memories h rfl fun n => by
    rw [State.spes_noteStore]
    simp

@[simp] theorem noteStores_canonical {b : Option Agent} {a k : Nat} (h : memoriesCanonical s) :
    memoriesCanonical (s.noteStores b a k) := by
  simp [State.noteStores, h]

@[simp] theorem storeMem_canonical {b : Option Agent} {a k v : Nat} (h : memoriesCanonical s) :
    memoriesCanonical (s.storeMem b a k v) :=
  noteStores_canonical ⟨Memory.wf_writeBytes _ _ _ _ h.1, h.2⟩

@[simp] theorem noteTouch_canonical {g : Nat} (h : memoriesCanonical s) : memoriesCanonical (s.noteTouch g) := by
  simp [State.noteTouch, h]

/-! ## Interrupts, the ends of an instruction, and its guards -/

@[simp] theorem canonical_interrupt {u : Fin 2} {k : Interrupt} {ret info : DWord} :
    memoriesCanonical (s.interrupt u k ret info) ↔ memoriesCanonical s := .rfl

@[simp] theorem stopWith_canonical {f : Fault} (h : memoriesCanonical s) : OutAll memoriesCanonical (s.stopWith f) := h
@[simp] theorem checkstop_canonical (h : memoriesCanonical s) : OutAll memoriesCanonical s.checkstop := h
@[simp] theorem raise_canonical {k : Interrupt} {info : DWord} (h : memoriesCanonical s) :
    OutAll memoriesCanonical (s.raise k info) := h
@[simp] theorem illegal_canonical (h : memoriesCanonical s) : OutAll memoriesCanonical s.illegal := h
@[simp] theorem privileged_canonical (h : memoriesCanonical s) : OutAll memoriesCanonical s.privileged := h
@[simp] theorem vxuUnavailable_canonical (h : memoriesCanonical s) : OutAll memoriesCanonical s.vxuUnavailable := h

@[simp] theorem takeMachineCheck_canonical {u : Fin 2} (h : memoriesCanonical s) :
    OutAll memoriesCanonical (s.takeMachineCheck u) := by
  simp [State.takeMachineCheck, h]

@[simp] theorem msrWritten_canonical {t : State} (h : memoriesCanonical t) :
    OutAll memoriesCanonical (s.msrWritten t) := by
  simp [State.msrWritten, h]

@[simp] theorem ppeNext_canonical {f : Thread → Thread} (h : memoriesCanonical s) :
    OutAll memoriesCanonical (ppeNext s f) := h

@[simp] theorem vmxNext_canonical {f : Thread → Thread} (h : memoriesCanonical s) :
    OutAll memoriesCanonical (vmxNext s f) :=
  .ite h h

theorem spuNext_canonical {f : Spe → Spe} (h : memoriesCanonical s) (hf : ∀ p, (f p).ls = p.ls) :
    OutAll memoriesCanonical (spuNext s f) :=
  (canonical_modSpe_frame (f := fun p => (f p).advance) hf).mpr h

theorem fpGuard_canonical {o : Out State} (h : memoriesCanonical s) (ho : OutAll memoriesCanonical o) :
    OutAll memoriesCanonical (fpGuard s o) := .ite ho h

theorem vmxGuard_canonical {o : Out State} (h : memoriesCanonical s) (ho : OutAll memoriesCanonical o) :
    OutAll memoriesCanonical (vmxGuard s o) := .ite ho h

theorem supervisor_canonical {o : Out State} (h : memoriesCanonical s) (ho : OutAll memoriesCanonical o) :
    OutAll memoriesCanonical (supervisor s o) := .ite h ho

theorem hypervisorOnly_canonical {o : Out State} (h : memoriesCanonical s) (ho : OutAll memoriesCanonical o) :
    OutAll memoriesCanonical (hypervisorOnly s o) := .ite h ho

theorem tlbManager_canonical {o : Out State} (h : memoriesCanonical s) (ho : OutAll memoriesCanonical o) :
    OutAll memoriesCanonical (tlbManager s o) := .ite h (.ite h ho)

/-- An answer that goes on with the state. -/
theorem next_canonical {α : Type} {r : Res α} (h : ResAll memoriesCanonical r) :
    OutAll memoriesCanonical (r.done fun _ s => .next s) :=
  h.done fun _ _ h => h

end

end Sys2Proof.Machine
end

section
/-! Translation, special registers and invalidation, pending inbound writes, interrupt packets: the memories stay
canonical. Of these only the bits of a page-table entry and the data of inbound writes reach a memory. -/

namespace Sys2Proof.Machine

open Sys2Proof.Safety

section
variable {s : State}

/-! ## Translation (Machine/Mmu.lean) -/

theorem tableSearch_canonical {sdr : DWord} {e : SlbEntry} {va : BitVec 80} {p : Nat} {several : Out State}
    (h : memoriesCanonical s)
    (hs : OutAll memoriesCanonical several) : WalkAll memoriesCanonical (tableSearch s sdr e va p several) := by
  unfold tableSearch
  dsimp only
  split
  · trivial
  · split
    · exact checkstop_canonical h
    · split
      · trivial
      · simp [hs]

@[simp] theorem setPteBits_canonical {a : Agent} {k : Nat} {d bits : DWord} (h : memoriesCanonical s) :
    memoriesCanonical (s.setPteBits a k d bits) := by
  simp [State.setPteBits, h]

@[simp] theorem canonical_setTlb {key : Nat} {x : TlbEntry} :
    memoriesCanonical (s.setTlb key x) ↔ memoriesCanonical s := .rfl

@[simp] theorem realMode_canonical {th : Thread} {ea : DWord} {k : Kind} (h : memoriesCanonical s) :
    LookupAll memoriesCanonical (realMode s th ea k) := by
  simp [realMode, h]

@[simp] theorem pageOrRefuse_canonical {x : TlbEntry} {e : SlbEntry} {ea : DWord} {p : Nat} {slot pte : Option Nat}
    (h : memoriesCanonical s) :
    LookupAll memoriesCanonical (pageOrRefuse s x e ea p slot pte) := by
  unfold pageOrRefuse
  split
  · trivial
  · exact h

@[simp] theorem reload_canonical {t : Fin 2} {e : SlbEntry} {ea : DWord} {p key : Nat} (h : memoriesCanonical s) :
    LookupAll memoriesCanonical (reload s t e ea p key) := by
  have hw := tableSearch_canonical (sdr := s.ppe.sdr1) (e := e) (va := vaOf e ea) (p := p) h (checkstop_canonical h)
  unfold reload
  dsimp only
  split
  · next he => rwa [he] at hw
  · exact h
  · exact pageOrRefuse_canonical (by simp [h])

@[simp] theorem virtualMode_canonical {t : Fin 2} {th : Thread} {ea : DWord} {k : Kind} (h : memoriesCanonical s) :
    LookupAll memoriesCanonical (virtualMode s t th ea k) := by
  unfold virtualMode
  split
  · exact h
  · split
    · trivial
    · dsimp only
      split
      · exact pageOrRefuse_canonical h
      · simp [h]
  · exact checkstop_canonical h

theorem lookup_canonical {t : Fin 2} {ea : DWord} {k : Kind} (h : memoriesCanonical s) :
    LookupAll memoriesCanonical (lookup s t ea k) := by
  unfold lookup
  dsimp only
  split
  · exact h
  · simp [h]

theorem pteOfPage_canonical {t : Fin 2} {p : Page} {ea : DWord} (h : memoriesCanonical s) :
    WalkAll memoriesCanonical (s.pteOfPage t p ea) := by
  unfold State.pteOfPage
  split
  · trivial
  · split
    · exact tableSearch_canonical h (checkstop_canonical h)
    · trivial

@[simp] theorem markChange_canonical {t : Fin 2} {key : Nat} {p : Page} {ea : DWord} (h : memoriesCanonical s) :
    memoriesCanonical (s.markChange t key p ea) := by
  unfold State.markChange
  dsimp only
  split
  · simp [h]
  · exact h

@[simp] theorem setReference_canonical {t : Fin 2} {p : Page} {ea : DWord} (h : memoriesCanonical s) :
    memoriesCanonical (s.setReference t p ea) := by
  unfold State.setReference
  split
  · split
    · exact setPteBits_canonical h
    · exact h
  · exact h

theorem setChange_canonical {t : Fin 2} {p : Page} {ea : DWord} (h : memoriesCanonical s) :
    ResAll memoriesCanonical (s.setChange t p ea) := by
  have hw := pteOfPage_canonical (t := t) (p := p) (ea := ea) h
  unfold State.setChange
  split
  · exact h
  · split
    · exact h
    · split
      · next he => rwa [he] at hw
      · exact markChange_canonical h
      · exact markChange_canonical (setPteBits_canonical h)

theorem translateFetch_canonical {t : Fin 2} {ea : DWord} (h : memoriesCanonical s) :
    ResAll memoriesCanonical (translateFetch s t ea) := by
  have hl := lookup_canonical (t := t) (ea := ea) (k := .fetch) h
  unfold translateFetch
  dsimp only
  split <;> rename_i he <;> rw [he] at hl
  · exact hl
  · exact hl
  · exact hl
  · exact hl
  · have hp := lookupAll_page.mp hl
    simp [hp]

/-! ## Special registers, synchronization, invalidation (Machine/PpeSystem.lean) -/

theorem sprAccess_canonical {n : Nat} {p : Option Priv} {o : Out State}
    (h : memoriesCanonical s) (ho : OutAll memoriesCanonical o) :
    OutAll memoriesCanonical (sprAccess s n p o) := by
  unfold sprAccess
  split
  · simp [h]
  · exact ho
  · exact supervisor_canonical h ho
  · exact hypervisorOnly_canonical h ho
  · exact tlbManager_canonical h ho

@[simp] theorem sprThread_canonical {f : Thread → Thread} (h : memoriesCanonical s) :
    OutAll memoriesCanonical (sprThread s f) := h

@[simp] theorem sprShared_canonical {f : PpeShared → PpeShared} (h : memoriesCanonical s) :
    OutAll memoriesCanonical (sprShared s f) := h

@[simp] theorem sprRange_canonical {f : RangeRegs → RangeRegs} (h : memoriesCanonical s) :
    OutAll memoriesCanonical (sprRange s f) := h

@[simp] theorem writeTlbVpn_canonical {v : DWord} (h : memoriesCanonical s) :
    OutAll memoriesCanonical (s.writeTlbVpn v) := by
  unfold State.writeTlbVpn
  dsimp only
  split
  · trivial
  · simp [h]

@[simp] theorem writeTlbRpn_canonical {v : DWord} (h : memoriesCanonical s) :
    OutAll memoriesCanonical (s.writeTlbRpn v) := by
  simp [State.writeTlbRpn, h]

@[simp] theorem writeHid6_canonical {v : DWord} (h : memoriesCanonical s) :
    OutAll memoriesCanonical (s.writeHid6 v) := by
  simp [State.writeHid6, h]

@[simp] theorem writeCtrl_canonical {v : Word} (h : memoriesCanonical s) :
    OutAll memoriesCanonical (s.writeCtrl v) := by
  simp [State.writeCtrl, h]

theorem writeSpr_canonical {n : Nat} {v : DWord} (h : memoriesCanonical s) :
    OutAll memoriesCanonical (s.writeSpr n v) := by
  unfold State.writeSpr
  dsimp only
  split <;> simp [h]

theorem afterSync_canonical {o : Out State} (h : memoriesCanonical s) (ho : OutAll memoriesCanonical o) :
    OutAll memoriesCanonical (s.afterSync o) := by
  simp [State.afterSync, h, ho]

theorem moveSync_canonical {l : Bool} {o : Out State} (h : memoriesCanonical s) (ho : OutAll memoriesCanonical o) :
    OutAll memoriesCanonical (s.moveSync l o) := by
  simp [State.moveSync, ho, afterSync_canonical h ho]

@[simp] theorem eratInvalidate_canonical {l : Bool} {rb : DWord} (h : memoriesCanonical s) :
    memoriesCanonical (s.eratInvalidate l rb) := h

@[simp] theorem broadcastTlbie_canonical {x : Snoop} (h : memoriesCanonical s) :
    memoriesCanonical (s.broadcastTlbie x) :=
  canonical_mapSpes h fun _ => by simp

theorem tlbInvalidate_canonical {l b : Bool} {rb : DWord} (h : memoriesCanonical s) :
    OutAll memoriesCanonical (s.tlbInvalidate l rb b) := by
  unfold State.tlbInvalidate
  split
  · trivial
  · simp [h]

theorem tlbInvalidateClass_canonical {l : Bool} {rb : DWord} (h : memoriesCanonical s) :
    OutAll memoriesCanonical (s.tlbInvalidateClass l rb) := by
  simp [State.tlbInvalidateClass, h]

/-! ## Pending inbound writes (Machine/Inbound.lean) -/

@[simp] theorem performInbound_canonical {f : Inbound → Bool} (h : memoriesCanonical s) :
    memoriesCanonical (s.performInbound f) :=
  (State.performInbound_only s f).canonical h

theorem ioData_canonical {seq part : Nat} (h : memoriesCanonical s) : memoriesCanonical (s.ioData seq part) :=
  (State.ioData_only s seq part).canonical h

@[simp] theorem meetAlias_canonical {n : Fin 8} (h : memoriesCanonical s) : memoriesCanonical (s.meetAlias n) :=
  performInbound_canonical h

@[simp] theorem ioBarrier_canonical {u : IoUnit} {strong : Bool} {a len : Nat} (h : memoriesCanonical s) :
    memoriesCanonical (s.ioBarrier u strong a len) :=
  canonical_mapSpes (performInbound_canonical h) fun _ => rfl

theorem followWrites_canonical {p : Packet} (h : memoriesCanonical s) : memoriesCanonical (s.followWrites p) :=
  canonical_of_memories h rfl fun n => by simp [State.followWrites]

theorem meetInterrupt_canonical {f : Packet → Bool} (h : memoriesCanonical s) : memoriesCanonical (s.meetInterrupt f) :=
  canonical_mapSpes (performInbound_canonical h) fun _ => rfl

@[simp] theorem acceptWrite_canonical {n : Option (Fin 8)} {u : IoUnit} {strong : Bool} {a len : Nat} {parts : List (Nat × List Byte)}
    (h : memoriesCanonical s) : memoriesCanonical (s.acceptWrite n u strong a len parts) := by
  unfold State.acceptWrite
  cases n with
  | none => exact h
  | some n => simp [h]

/-! ## Interrupt packets (Machine/Iic.lean) -/

@[simp] theorem canonical_modIic {t : Fin 2} {f : Iic → Iic} :
    memoriesCanonical (s.modIic t f) ↔ memoriesCanonical s := .rfl

/-- A packet that the controllers accept. -/
theorem deliver_canonical {p : Packet} {t : State} (h : memoriesCanonical s) (hd : s.deliver p = some t) :
    memoriesCanonical t := by
  unfold State.deliver at hd
  dsimp only at hd
  split at hd
  · obtain ⟨-, he⟩ := Option.ite_none_left_eq_some.mp hd
    cases he
    exact h
  · cases hd
    exact h

@[simp] theorem sendIsr_canonical (h : memoriesCanonical s) : ResAll memoriesCanonical s.sendIsr := by
  unfold State.sendIsr
  dsimp only
  split
  · trivial
  · split
    · next hd => exact deliver_canonical h hd
    · exact h

@[simp] theorem raiseIsr_canonical {bits : DWord} (h : memoriesCanonical s) :
    ResAll memoriesCanonical (s.raiseIsr bits) := by
  simp [State.raiseIsr, h]

@[simp] theorem clearIsr_canonical {v : DWord} (h : memoriesCanonical s) : ResAll memoriesCanonical (s.clearIsr v) := by
  simp [State.clearIsr, h]

@[simp] theorem setSignalCell_canonical {off : Nat} {v : DWord} (h : memoriesCanonical s) :
    ResAll memoriesCanonical (s.setSignalCell off v) :=
  raiseIsr_canonical h

theorem resendIo_canonical {l : List Packet} (h : memoriesCanonical s) : memoriesCanonical (s.resendIo l) := by
  induction l generalizing s with
  | nil => exact h
  | cons p rest ih =>
    unfold State.resendIo
    split
    · next hd =>
      have ht := deliver_canonical h hd
      exact ih ht
    · exact ih h

theorem resendIsr_canonical {l : List Packet} (h : memoriesCanonical s) : memoriesCanonical (s.resendIsr l) := by
  induction l generalizing s with
  | nil => exact h
  | cons p rest ih =>
    unfold State.resendIsr
    split
    · next hd =>
      have ht := deliver_canonical h hd
      exact ih ht
    · exact ih h

theorem resendSpe_canonical {x : Fin 8 × Fin 3} (h : memoriesCanonical s) : memoriesCanonical (s.resendSpe x) := by
  unfold State.resendSpe
  split
  · exact h
  · split
    · next hd =>
      simp [deliver_canonical h hd]
    · exact h

theorem reissue_canonical (h : memoriesCanonical s) : memoriesCanonical s.reissue := by
  unfold State.reissue
  exact resendIo_canonical (foldl_keeps (P := memoriesCanonical) (fun _ _ h => resendSpe_canonical h) _ (resendIsr_canonical h))

@[simp] theorem ippTake_canonical {t : Fin 2} (h : memoriesCanonical s) : memoriesCanonical (s.ippTake t).2 := by
  simp only [State.ippTake]
  exact reissue_canonical (canonical_modIic.mpr h)

@[simp] theorem ippSeen_canonical {t : Fin 2} (h : memoriesCanonical s) : memoriesCanonical (s.ippSeen t) := by
  unfold State.ippSeen
  split
  · exact meetInterrupt_canonical h
  · exact h

theorem ioPacket_canonical {p : Packet} (h : memoriesCanonical s) : ResAll memoriesCanonical (s.ioPacket p) := by
  unfold State.ioPacket
  extract_lets p' s'
  have h' : memoriesCanonical s' := followWrites_canonical h
  clear_value s'
  split
  · trivial
  · split
    · next hd => exact deliver_canonical h' hd
    · exact h'

@[simp] theorem sendInt_canonical {n : Fin 8} {c : Fin 3} (h : memoriesCanonical s) :
    ResAll memoriesCanonical (s.sendInt n c) := by
  unfold State.sendInt
  dsimp only
  split
  · exact h
  · split
    · trivial
    · split
      · next hd => exact deliver_canonical h hd
      · simp [h]

@[simp] theorem changeInt_canonical {n : Fin 8} {c : Fin 3} {again : Bool} {f : Spe → Spe} (h : memoriesCanonical s)
    (hf : ∀ p, (f p).ls = p.ls) : ResAll memoriesCanonical (s.changeInt n c again f) := by
  simp [State.changeInt, h, hf]

@[simp] theorem raiseInt_canonical {n : Fin 8} {c : Fin 3} {bits : DWord} (h : memoriesCanonical s) :
    ResAll memoriesCanonical (s.raiseInt n c bits) := changeInt_canonical h fun _ => rfl

@[simp] theorem storeIntMask_canonical {n : Fin 8} {c : Fin 3} {v : DWord} (h : memoriesCanonical s) :
    ResAll memoriesCanonical (s.storeIntMask n c v) := changeInt_canonical h fun _ => rfl

@[simp] theorem storeIntStat_canonical {n : Fin 8} {c : Fin 3} {v : DWord} (h : memoriesCanonical s) :
    ResAll memoriesCanonical (s.storeIntStat n c v) := changeInt_canonical h fun _ => rfl

@[simp] theorem storeFir_canonical {n : Fin 8} {key : Nat} {v : DWord} (h : memoriesCanonical s) :
    ResAll memoriesCanonical (s.storeFir n key v) := by
  simp [State.storeFir, h]

end

end Sys2Proof.Machine
end


section
/-! The SPUs and their channels, the memory management of the MFCs, the registers of the SPEs and of the platform: the memories stay
canonical. Only the MFCs reach a memory from here, where they set bits of a page-table entry. -/

namespace Sys2Proof.Machine

open Sys2Proof.Safety

section
variable {s : State}

/-! ## Running, branches, channels (Machine/SpuOps.lean) -/

@[simp] theorem stopSignal_canonical {code : BitVec 14} (h : memoriesCanonical s) :
    OutAll memoriesCanonical (s.stopSignal code) :=
  next_canonical (by simp [h])

@[simp] theorem spuHalt_canonical (h : memoriesCanonical s) :
    OutAll memoriesCanonical s.spuHalt := next_canonical (by simp [h])

@[simp] theorem haltIf_canonical {b : Bool} (h : memoriesCanonical s) : OutAll memoriesCanonical (haltIf s b) :=
  .ite (spuHalt_canonical h) (spuNext_canonical h fun _ => rfl)

@[simp] theorem spuInvalid_canonical (h : memoriesCanonical s) : OutAll memoriesCanonical s.spuInvalid := by
  unfold State.spuInvalid
  dsimp only
  split
  · exact next_canonical (by simp [h])
  · simp [h]

theorem xcellOnly_canonical {o : Out State} (h : memoriesCanonical s) (ho : OutAll memoriesCanonical o) :
    OutAll memoriesCanonical (xcellOnly s o) := by
  simp [xcellOnly, h, ho]

theorem branchIndirect_canonical {d e : Bool} {f : Spe → Bool × Word × Spe} (h : memoriesCanonical s)
    (hf : ∀ p, (f p).2.2.ls = p.ls) : OutAll memoriesCanonical (branchIndirect s d e f) := by
  refine .ite trivial ((canonical_modSpe_frame fun p => ?_).mpr h)
  dsimp only
  split <;> simp [hf]

@[simp] theorem drewSrr0_canonical (h : memoriesCanonical s) : memoriesCanonical s.drewSrr0 := by
  simp [State.drewSrr0, h]

@[simp] theorem spuInterrupt_canonical (h : memoriesCanonical s) : memoriesCanonical s.spuInterrupt := by
  simp [State.spuInterrupt, h]

theorem readChannel_canonical {ch : Nat} (h : memoriesCanonical s) : ResAll memoriesCanonical (readChannel s ch) := by
  unfold readChannel
  dsimp only
  split
  case h_12 => exact ResAll.bind (by simp [h]) fun _ _ h => h
  all_goals simp [h]

@[simp] theorem mfcError_canonical {n : Fin 8} {bit : DWord} {index : Nat} (h : memoriesCanonical s) :
    ResAll memoriesCanonical (s.mfcError n bit index) :=
  raiseInt_canonical (by simp [h])

@[simp] theorem issueSpu_canonical {v : Word} (h : memoriesCanonical s) : ResAll memoriesCanonical (issueSpu s v) := by
  simp [issueSpu, h]

@[simp] theorem ackStall_canonical {v : Word} (h : memoriesCanonical s) : memoriesCanonical (ackStall s v) := by
  simp [ackStall, h]

theorem writeChannel_canonical {ch : Nat} {v : Word} (h : memoriesCanonical s) :
    ResAll memoriesCanonical (writeChannel s ch v) := by
  unfold writeChannel
  split <;> simp [h]

/-! ## Memory management of an MFC (Machine/Smm.lean) -/

@[simp] theorem smmException_canonical {n : Fin 8} {ea : DWord} {index : Nat} {stat : DWord} {dsisr : Option DWord} {suspend : Bool}
    (h : memoriesCanonical s) : ResAll memoriesCanonical (s.smmException n ea index stat dsisr suspend) :=
  raiseInt_canonical ((canonical_modN_frame fun _ => by cases dsisr <;> simp).mpr h)

theorem smmChecks_canonical {n : Fin 8} {e : SlbEntry} {key : Nat} {pte : Option Nat} {ea : DWord} {store atomic : Bool} {bits : Nat}
    (h : memoriesCanonical s) : DmaAll memoriesCanonical (smmChecks s n e key pte ea store atomic bits) := by
  unfold smmChecks
  extract_lets p x compares s'
  split
  · trivial
  · extract_lets page
    have h' : memoriesCanonical s' := by simp [s', h]
    clear_value s' compares page p
    split
    · exact h
    · split
      · exact h
      · split
        · exact h'
        · split
          · cases pte with
            | none => exact h'
            | some a => simp [h']
          · exact h'

theorem smmMiss_canonical {n : Fin 8} {e : SlbEntry} {ea : DWord} {bits r : Nat} {old : Option Nat} {store atomic : Bool}
    (h : memoriesCanonical s) : DmaAll memoriesCanonical (smmMiss s n e ea bits r old store atomic) := by
  unfold smmMiss
  extract_lets p va key s'
  have h' : memoriesCanonical s' := by simp [s', h]
  have hw := tableSearch_canonical (s := s') (sdr := p.cell keySdr) (e := e) (va := va) (p := bits)
    (several := .refused .smmMultipleMatch) h' trivial
  clear_value s' key p va
  split
  · exact h'
  · split
    · trivial
    · split
      · next he => rwa [he] at hw
      · exact h'
      · split
        · trivial
        · exact smmChecks_canonical (by simp [h'])

theorem smmTranslate_canonical {n : Fin 8} {ea : DWord} {store atomic : Bool} {r : Nat} (h : memoriesCanonical s) :
    DmaAll memoriesCanonical (smmTranslate s n ea store atomic r) := by
  have hm : ∀ e bits old, DmaAll memoriesCanonical
      (if s.spes[n].smmBusy then .held s else smmMiss s n e ea bits r old store atomic) := by
    intro e bits old
    split
    · exact h
    · exact smmMiss_canonical h
  unfold smmTranslate
  dsimp only
  split
  · simp [smmAtomic, h]
  · split
    · simp [h]
    · split
      · trivial
      · split
        · exact hm _ _ _
        · split
          · exact hm _ _ _
          · split
            · next he =>
              have hc : DmaAll memoriesCanonical (DmaRes.fault _ _ _ _) := he ▸ smmChecks_canonical h
              simp [h, dmaAll_fault.mp hc]
            · exact smmChecks_canonical h
    · trivial

@[simp] theorem checkQuery_canonical {n : Fin 8} (h : memoriesCanonical s) :
    ResAll memoriesCanonical (s.checkQuery n) := by
  simp [State.checkQuery, h]

/-! ## Registers of an SPE (Machine/SpeMmio.lean) -/

@[simp] theorem misfit_canonical {regs : List (Nat × Nat)} {off len : Nat} (h : memoriesCanonical s) :
    OutAll memoriesCanonical (misfit s regs off len) := by
  simp [misfit, h]

@[simp] theorem anyRead_canonical {w : Nat} (h : memoriesCanonical s) : ResAll memoriesCanonical (s.anyRead w) := h

@[simp] theorem readOutMbox_canonical {n : Fin 8} (h : memoriesCanonical s) :
    ResAll memoriesCanonical (s.readOutMbox n) := by
  simp [State.readOutMbox, h]

@[simp] theorem readOutIntrMbox_canonical {n : Fin 8} (h : memoriesCanonical s) :
    ResAll memoriesCanonical (s.readOutIntrMbox n) := by
  simp [State.readOutIntrMbox, h]

@[simp] theorem problemWord_canonical {n : Fin 8} {off : Nat} (h : memoriesCanonical s) :
    ResAll memoriesCanonical (problemWord s n off) := by
  unfold problemWord
  dsimp only
  split <;> simp [h]

@[simp] theorem problemRead_canonical {n : Fin 8} {off len : Nat} (h : memoriesCanonical s) :
    ResAll memoriesCanonical (problemRead s n off len) := by
  simp [problemRead, h]

@[simp] theorem writeRunCntl_canonical {n : Fin 8} {v : Word} (h : memoriesCanonical s) :
    ResAll memoriesCanonical (s.writeRunCntl n v) := by
  simp [State.writeRunCntl, h]

@[simp] theorem writeQueryType_canonical {n : Fin 8} {v : Word} (h : memoriesCanonical s) :
    ResAll memoriesCanonical (s.writeQueryType n v) := by
  simp [State.writeQueryType, h]

@[simp] theorem problemStore_canonical {n : Fin 8} {off : Nat} {v : Word} (h : memoriesCanonical s) :
    ResAll memoriesCanonical (problemStore s n off v) := by
  unfold problemStore
  dsimp only
  split <;> simp [h]

@[simp] theorem problemWrite_canonical {n : Fin 8} {off len v : Nat} (h : memoriesCanonical s) :
    ResAll memoriesCanonical (problemWrite s n off len v) := by
  simp [problemWrite, h]

@[simp] theorem whenStopped_canonical {α : Type} {n : Fin 8} {r : Res α} (hr : ResAll memoriesCanonical r) :
    ResAll memoriesCanonical (whenStopped s n r) := by
  simp [whenStopped, hr]

@[simp] theorem priv2Read_canonical {n : Fin 8} {off : Nat} (h : memoriesCanonical s) :
    ResAll memoriesCanonical (priv2Read s n off) := by
  unfold priv2Read
  dsimp only
  split
  · exact h
  · split <;> simp [h]

theorem writeCq_canonical {n : Fin 8} {k : Nat} {v : DWord} (h : memoriesCanonical s) :
    memoriesCanonical (s.modN n fun p => p.writeCq k v) := by
  simp [h]

@[simp] theorem priv2Write_canonical {n : Fin 8} {off : Nat} {v : DWord} (h : memoriesCanonical s) :
    ResAll memoriesCanonical (priv2Write s n off v) := by
  unfold priv2Write
  dsimp only
  split
  · exact checkQuery_canonical (writeCq_canonical h)
  · split <;> simp [h]

theorem withTlbKey_canonical {α : Type} {n : Fin 8} {f : Nat → Res α} (hf : ∀ k, ResAll memoriesCanonical (f k)) :
    ResAll memoriesCanonical (withTlbKey s n f) := by
  unfold withTlbKey
  split
  · trivial
  · exact hf _

@[simp] theorem priv1Read_canonical {n : Fin 8} {off : Nat} (h : memoriesCanonical s) :
    ResAll memoriesCanonical (priv1Read s n off) := by
  unfold priv1Read
  dsimp only
  split
  · exact h
  · split <;> simp [h, withTlbKey_canonical]

@[simp] theorem atomicFlush_canonical {n : Fin 8} {v : DWord} (h : memoriesCanonical s) :
    ResAll memoriesCanonical (s.atomicFlush n v) := by
  simp [State.atomicFlush, h]

@[simp] theorem priv1Write_canonical {n : Fin 8} {off : Nat} {v : DWord} (h : memoriesCanonical s) :
    ResAll memoriesCanonical (priv1Write s n off v) := by
  unfold priv1Write
  dsimp only
  split
  · simp [h]
  · split
    case h_23 =>
      split
      · trivial
      · next hq => exact canonical_modN h fun hl => Spe.tlbInvalidateClass_ls hq ▸ hl
    all_goals simp [h, withTlbKey_canonical]

@[simp] theorem speRead_canonical {off len : Nat} (h : memoriesCanonical s) :
    ResAll memoriesCanonical (speRead s off len) := by
  simp [speRead, h]

@[simp] theorem speWrite_canonical {off len v : Nat} (h : memoriesCanonical s) :
    ResAll memoriesCanonical (speWrite s off len v) := by
  simp [speWrite, h]

/-! ## Registers of the platform (Machine/Platform.lean, Machine/Mmio.lean) -/

@[simp] theorem canonical_setPcell {off : Nat} {v : DWord} :
    memoriesCanonical (s.setPcell off v) ↔ memoriesCanonical s := .rfl
@[simp] theorem canonical_thermalSample : memoriesCanonical s.thermalSample ↔ memoriesCanonical s := .rfl
@[simp] theorem canonical_restartMax {b : Bool} : memoriesCanonical (s.restartMax b) ↔ memoriesCanonical s := .rfl
@[simp] theorem canonical_setIopt {key : Nat} {e : IoptCacheEntry} :
    memoriesCanonical (s.setIopt key e) ↔ memoriesCanonical s := .rfl
@[simp] theorem canonical_startIopt {key : Nat} {e : IoptCacheEntry} :
    memoriesCanonical (s.startIopt key e) ↔ memoriesCanonical s := .rfl
@[simp] theorem canonical_generate {t : Fin 2} {v : DWord} :
    memoriesCanonical (s.generate t v) ↔ memoriesCanonical s := .rfl

@[simp] theorem writePmcr_canonical {v : DWord} (h : memoriesCanonical s) :
    ResAll memoriesCanonical (s.writePmcr v) := by
  simp [State.writePmcr, h]

@[simp] theorem slowDone_canonical (h : memoriesCanonical s) : memoriesCanonical s.slowDone := by
  unfold State.slowDone
  split <;> exact h

@[simp] theorem storeIocFir_canonical {off : Nat} {v : DWord} (h : memoriesCanonical s) :
    ResAll memoriesCanonical (s.storeIocFir off v) := by
  unfold State.storeIocFir
  exact .ite h (.ite h h)

@[simp] theorem ioException_canonical {type : BitVec 2} {a : BitVec 42} {write : Bool} {ioid : BitVec 11}
    (h : memoriesCanonical s) :
    ResAll memoriesCanonical (s.ioException type a write ioid) := by
  simp [State.ioException, h]

@[simp] theorem ioifRead_canonical {ra len : Nat} (h : memoriesCanonical s) :
    ResAll memoriesCanonical (s.ioifRead ra len) := by
  unfold State.ioifRead
  split
  · exact ResAll.bind (by simp [h]) fun _ _ h => h
  · exact h

@[simp] theorem ioifWrite_canonical {ra len : Nat} (h : memoriesCanonical s) :
    ResAll memoriesCanonical (s.ioifWrite ra len) := by
  simp [State.ioifWrite, h]

@[simp] theorem arriveIopt_canonical (h : memoriesCanonical s) : memoriesCanonical s.arriveIopt := by
  unfold State.arriveIopt
  split <;> exact h

@[simp] theorem readCacheDir_canonical {k : Nat} (h : memoriesCanonical s) :
    ResAll memoriesCanonical (s.readCacheDir k) := h

@[simp] theorem writeCacheDir_canonical {k : Nat} {v : DWord} (h : memoriesCanonical s) :
    ResAll memoriesCanonical (s.writeCacheDir k v) := by
  simp [State.writeCacheDir, h]

@[simp] theorem writeIoptInvd_canonical {v : DWord} (h : memoriesCanonical s) :
    memoriesCanonical (s.writeIoptInvd v) := by
  unfold State.writeIoptInvd
  dsimp only
  split
  · refine canonical_setPcell.mpr (foldl_keeps (P := memoriesCanonical) (fun s x h => ?_) _ h)
    simp [h]
  · exact h

@[simp] theorem writeIostInvd_canonical {v : DWord} (h : memoriesCanonical s) :
    ResAll memoriesCanonical (s.writeIostInvd v) := by
  simp [State.writeIostInvd, h]

@[simp] theorem platRead_canonical {off : Nat} (h : memoriesCanonical s) :
    ResAll memoriesCanonical (platRead s off) := by
  unfold platRead
  extract_lets value take peek
  have hv : ∀ v, ResAll memoriesCanonical (value v) := fun _ => h
  have ht : ∀ t, ResAll memoriesCanonical (take t) := fun t => by simp [take, h]
  have hp : ∀ t, ResAll memoriesCanonical (peek t) := fun t => by simp [peek, h]
  clear_value value take peek
  refine .ite (checkstop_canonical h) (.ite (misfit_canonical h) (.ite h (.ite (hv _) (.ite (hv _) (.ite (readCacheDir_canonical h) ?_)))))
  split <;> simp [h, hv, ht, hp]

@[simp] theorem platWrite_canonical {off : Nat} {v : DWord} (h : memoriesCanonical s) :
    ResAll memoriesCanonical (platWrite s off v) := by
  unfold platWrite
  extract_lets v' sampled
  have hs : ResAll memoriesCanonical sampled := h
  clear_value sampled v'
  refine .ite (checkstop_canonical h) (.ite (misfit_canonical h) (.ite h (.ite (setSignalCell_canonical h) (.ite h (.ite (.ite trivial h)
    (.ite h (.ite (writeCacheDir_canonical h) ?_)))))))
  split <;> simp [h, hs]

@[simp] theorem mmioRead_canonical {off len : Nat} (h : memoriesCanonical s) :
    ResAll memoriesCanonical (mmioRead s off len) := by
  simp [mmioRead, h]

@[simp] theorem mmioWrite_canonical {off len v : Nat} (h : memoriesCanonical s) :
    ResAll memoriesCanonical (mmioWrite s off len v) := by
  simp [mmioWrite, h]

end

end Sys2Proof.Machine
end


section
/-! Storage accesses of the PPE, and the shapes of its loads, stores and cache instructions: the memories stay canonical. -/

namespace Sys2Proof.Machine

open Sys2Proof.Safety

section
variable {s : State}

/-! ## Translation of an operand (Machine/PpeStorage.lean) -/

@[simp] theorem dsi_canonical {ea : DWord} {bits : Word} (h : memoriesCanonical s) :
    OutAll memoriesCanonical (s.dsi ea bits) :=
  raise_canonical (by simp [h])

@[simp] theorem dataSegment_canonical {ea : DWord} {store : Bool} (h : memoriesCanonical s) :
    OutAll memoriesCanonical (s.dataSegment ea store) :=
  raise_canonical (by simp [h])

@[simp] theorem alignInt_canonical {ea : DWord} (h : memoriesCanonical s) : OutAll memoriesCanonical (s.alignInt ea) :=
  raise_canonical (by simp [h])

@[simp] theorem keptLookup_canonical {t : State} {b : Bool} (h : memoriesCanonical s) (ht : memoriesCanonical t) :
    memoriesCanonical (keptLookup s t b) := by
  simp [keptLookup, h, ht]

theorem dataPage_canonical {op ea : DWord} {len : Nat} {store : Bool} {al : Align} (h : memoriesCanonical s) :
    ResAll memoriesCanonical (dataPage s op ea len store al) := by
  have hl := lookup_canonical (t := s.curT) (ea := ea) (k := if store then .store else .load) h
  unfold dataPage
  dsimp only
  refine .ite (dsi_canonical h) (.ite (alignInt_canonical h) ?_)
  split <;> rename_i he <;> rw [he] at hl
  · exact hl
  · exact dsi_canonical hl
  · exact dataSegment_canonical hl
  · exact dsi_canonical hl
  · have hp := lookupAll_page.mp hl
    exact .ite (dsi_canonical hp) (.ite (alignInt_canonical (by simp [h, hp])) (.ite (dsi_canonical hp)
      (.ite (alignInt_canonical (by simp [h, hp])) hp)))

theorem recordChange_canonical {x : Piece} (h : memoriesCanonical s) :
    ResAll memoriesCanonical (s.recordChange x) := setChange_canonical h

theorem dataPiece_canonical {op ea : DWord} {len : Nat} {store : Bool} {al : Align} (h : memoriesCanonical s) :
    ResAll memoriesCanonical (dataPiece s op ea len store al) :=
  (dataPage_canonical h).bind fun _ _ h => .ite ((recordChange_canonical h).bind fun _ _ h => h) h

theorem breakFirst_canonical {store : Bool} {brk : Option DWord} {o : Out State}
    (h : memoriesCanonical s) (ho : OutAll memoriesCanonical o) :
    OutAll memoriesCanonical (s.breakFirst store brk o) := by
  unfold State.breakFirst
  split
  · exact .ite (dsi_canonical h) ho
  · exact ho

theorem prepareFrom_canonical {op : DWord} {store : Bool} {al : Align} {l : List (DWord × Nat)} {acc : List Piece}
    (h : memoriesCanonical s) :
    PreparedAll memoriesCanonical (prepareFrom op store al l acc s) := by
  induction l generalizing acc s with
  | nil => exact h
  | cons x rest ih =>
    have hd := dataPage_canonical (op := op) (ea := x.1) (len := x.2) (store := store) (al := al) h
    unfold prepareFrom
    split <;> rename_i he <;> rw [he] at hd
    · exact ih hd
    · exact breakFirst_canonical h hd

theorem prepare_canonical {op : DWord} {store : Bool} {al : Align} {l : List (DWord × Nat)} (h : memoriesCanonical s) :
    PreparedAll memoriesCanonical (prepare op store al l s) := prepareFrom_canonical h

/-! ## Accesses -/

theorem machineCheck_canonical {t : State} (h : memoriesCanonical s) (ht : memoriesCanonical t) :
    OutAll memoriesCanonical (s.machineCheck t) := by
  simp [State.machineCheck, h, ht]

@[simp] theorem unassignedSpace_canonical (h : memoriesCanonical s) : OutAll memoriesCanonical s.unassignedSpace := h

theorem realLoad_canonical {p : Phys} {len : Nat} (h : memoriesCanonical s) :
    LoadedAll memoriesCanonical (realLoad s p len) := by
  unfold realLoad
  split
  · exact h
  · simp [h]
  · next off _ =>
    have hm := mmioRead_canonical (off := off) (len := len) h
    split
    · split <;> rename_i he <;> rwa [he] at hm
    · trivial
  · have hi := ioifRead_canonical (ra := p.ra) (len := len) h
    split <;> rename_i he <;> rwa [he] at hi
  · exact unassignedSpace_canonical h
  · simp [h]

theorem realStore_canonical {p : Phys} {len v : Nat} (h : memoriesCanonical s) :
    ResAll memoriesCanonical (realStore s p len v) := by
  unfold realStore
  split <;> simp [h]

theorem loadAll_canonical {lens : List Nat} {l : List Piece} {acc : Nat} {miss : Bool} (h : memoriesCanonical s) :
    ResAll memoriesCanonical (loadAll lens l acc miss s) := by
  induction l generalizing lens acc miss s with
  | nil => exact h
  | cons p rest ih =>
    have hr := realLoad_canonical (p := p.phys) (len := lens.headD 0) h
    unfold loadAll
    dsimp only
    split <;> rename_i he <;> rw [he] at hr
    · exact ih hr
    · exact ih hr
    · exact hr

theorem loadThen_canonical {w : Nat} {ea : DWord} {len : Nat} {al : Align} {conv : Nat → BitVec w} {put : BitVec w → State → State}
    (h : memoriesCanonical s) (hput : ∀ v s, memoriesCanonical s → memoriesCanonical (put v s)) :
    OutAll memoriesCanonical (loadThen s ea len al conv put) := by
  have hp := prepare_canonical (op := s.thr.truncEa ea) (store := false) (al := al) (l := pieces s.thr false ea len) h
  unfold loadThen
  dsimp only
  split <;> rename_i he <;> rw [he] at hp
  · exact hp
  · next l t =>
    have ha := loadAll_canonical (lens := (pieces s.thr false ea len).map (·.2)) (l := l) (acc := 0) (miss := false) (s := t) hp
    split <;> rename_i ha' <;> rw [ha'] at ha
    · exact ha
    · exact .ite (machineCheck_canonical ha (hput _ _ ha)) (hput _ _ ha)

theorem storeAll_canonical {l : List (Piece × Nat × Nat)} (h : memoriesCanonical s) :
    ResAll memoriesCanonical (storeAll l s) := by
  induction l generalizing s with
  | nil => exact h
  | cons x rest ih => exact (recordChange_canonical h).bind fun _ _ h => (realStore_canonical h).bind fun _ _ h => ih h

theorem storeParts_canonical {op : DWord} {al : Align} {parts : List (DWord × Nat × Nat)} {f : State → State}
    (h : memoriesCanonical s)
    (hf : ∀ s, memoriesCanonical s → memoriesCanonical (f s)) :
    OutAll memoriesCanonical (storeParts s op al parts f) := by
  have hp := prepare_canonical (op := op) (store := true) (al := al) (l := parts.map fun x => (x.1, x.2.1)) h
  unfold storeParts
  dsimp only
  split <;> rename_i he <;> rw [he] at hp
  · exact (storeAll_canonical hp).done fun _ _ h => outAll_next.mpr (hf _ h)
  · split
    · exact next_canonical (storeAll_canonical (canonical_drew.mpr hp))
    · exact hp

theorem storeThen_canonical {ea : DWord} {len : Nat} {al : Align} {v : Nat} {f : State → State} {cut : Nat}
    (h : memoriesCanonical s)
    (hf : ∀ s, memoriesCanonical s → memoriesCanonical (f s)) :
    OutAll memoriesCanonical (storeThen s ea len al v f cut) := storeParts_canonical h hf

theorem loadList_canonical {l : List (Piece × Nat)} (h : memoriesCanonical s) :
    ResAll memoriesCanonical (loadList l s) := by
  induction l generalizing s with
  | nil => exact h
  | cons x rest ih =>
    have hr := realLoad_canonical (p := x.1.phys) (len := x.2) h
    unfold loadList
    split <;> rename_i he <;> rw [he] at hr
    · exact (ih hr).bind fun _ _ h => h
    · exact (ih hr).bind fun _ _ h => h
    · exact hr

theorem loadParts_canonical {op : DWord} {al : Align} {parts : List (DWord × Nat)} {f : List Nat → State → State}
    {g : State → Out State} (h : memoriesCanonical s) (hf : ∀ v s, memoriesCanonical s → memoriesCanonical (f v s))
    (hg : ∀ s, memoriesCanonical s → OutAll memoriesCanonical (g s)) :
    OutAll memoriesCanonical (loadParts s op al parts f g) := by
  have hp := prepare_canonical (op := op) (store := false) (al := al) (l := parts) h
  unfold loadParts
  dsimp only
  split <;> rename_i he <;> rw [he] at hp
  · exact (loadList_canonical hp).done fun _ _ h => hg _ (hf _ _ h)
  · split
    · exact (loadList_canonical (canonical_drew.mpr hp)).done fun vs _ h => outAll_next.mpr (hf vs _ h)
    · exact hp

/-! ## Loads and stores of the GPRs and FPRs (Machine/PpeLoadStore.lean) -/

@[simp] theorem loadGpr_canonical {ea : DWord} {len : Nat} {al : Align} {conv : Nat → DWord} {rt : BitVec 5}
    (h : memoriesCanonical s) :
    OutAll memoriesCanonical (loadGpr s ea len al conv rt) :=
  loadThen_canonical h fun _ _ h => by simp [h]

@[simp] theorem loadGprU_canonical {ea : DWord} {len : Nat} {al : Align} {conv : Nat → DWord} {rt ra : BitVec 5}
    (h : memoriesCanonical s) :
    OutAll memoriesCanonical (loadGprU s ea len al conv rt ra) :=
  .ite (illegal_canonical h) (loadThen_canonical h fun _ _ h => by simp [h])

@[simp] theorem storeVal_canonical {ea : DWord} {len : Nat} {al : Align} {v cut : Nat} (h : memoriesCanonical s) :
    OutAll memoriesCanonical (storeVal s ea len al v cut) :=
  storeThen_canonical h fun _ h => by simp [h]

@[simp] theorem storeValU_canonical {ea : DWord} {len : Nat} {al : Align} {v cut : Nat} {ra : BitVec 5}
    (h : memoriesCanonical s) :
    OutAll memoriesCanonical (storeValU s ea len al v ra cut) :=
  .ite (illegal_canonical h) (storeThen_canonical h fun _ h => by simp [h])

@[simp] theorem loadFpr_canonical {ea : DWord} {len : Nat} {conv : Nat → DWord} {frt : BitVec 5}
    (h : memoriesCanonical s) :
    OutAll memoriesCanonical (loadFpr s ea len conv frt) :=
  fpGuard_canonical h (loadThen_canonical h fun _ _ h => by simp [h])

@[simp] theorem loadFprU_canonical {ea : DWord} {len : Nat} {conv : Nat → DWord} {frt ra : BitVec 5}
    (h : memoriesCanonical s) :
    OutAll memoriesCanonical (loadFprU s ea len conv frt ra) :=
  fpGuard_canonical h (.ite (illegal_canonical h) (loadThen_canonical h fun _ _ h => by simp [h]))

@[simp] theorem singleWord_canonical {d : DWord} (h : memoriesCanonical s) : memoriesCanonical (s.singleWord d).2 := by
  unfold State.singleWord
  split <;> exact h

/-! ## Multiples and strings -/

@[simp] theorem loadString_canonical {rt : BitVec 5} {bad : List (BitVec 5)} {ea : DWord} {n : Nat}
    (h : memoriesCanonical s) :
    OutAll memoriesCanonical (loadString s rt bad ea n) := by
  unfold loadString
  exact loadParts_canonical h (fun _ _ h => by simp [h]) fun _ h => .ite (illegal_canonical h) (by simp [h])

@[simp] theorem storeString_canonical {rs : BitVec 5} {ea : DWord} {n : Nat} (h : memoriesCanonical s) :
    OutAll memoriesCanonical (storeString s rs ea n) :=
  storeParts_canonical h fun _ h => by simp [h]

/-! ## Reservations and cache instructions -/

@[simp] theorem loadReserve_canonical {ea : DWord} {len : Nat} {rt : BitVec 5} (h : memoriesCanonical s) :
    OutAll memoriesCanonical (loadReserve s ea len rt) :=
  (dataPage_canonical h).done fun _ _ h => (loadList_canonical h).done fun _ _ h => by simp [h]

@[simp] theorem storeConditional_canonical {ea : DWord} {len v : Nat} (h : memoriesCanonical s) :
    OutAll memoriesCanonical (storeConditional s ea len v) := by
  refine (dataPiece_canonical h).done fun p t ht => ?_
  extract_lets other performed t'
  have ht' : memoriesCanonical t' := by simp [t', ht]
  exact ResAll.done (.ite (realStore_canonical ht') ht') fun _ _ h => by simp [h]

@[simp] theorem touch_canonical {th : BitVec 4} {ea : DWord} {store : Bool} (h : memoriesCanonical s) :
    OutAll memoriesCanonical (touch s th ea store) := by
  have hl := lookup_canonical (s := s.drew 1) (t := s.curT) (ea := s.thr.truncEa ea) (k := .load) h
  unfold touch
  extract_lets s'
  have hs' : memoriesCanonical s' := by
    unfold s'
    split
    · exact h
    · split
      · split
        · next he => rw [he] at hl; simp [lookupAll_page.mp hl]
        · exact h
      · exact h
  simp [hs']

theorem cacheOp_canonical {ea : DWord} {f : Nat → State → State}
    (h : memoriesCanonical s) (hf : ∀ a s, memoriesCanonical s → memoriesCanonical (f a s)) :
    OutAll memoriesCanonical (cacheOp s ea f) :=
  (dataPiece_canonical h).done fun _ _ h => by simp [hf _ _ h]

@[simp] theorem canonical_icbiLine {ra : Nat} : memoriesCanonical (s.icbiLine ra) ↔ memoriesCanonical s := .rfl

/-! ## Loads and stores of the VRs (Machine/VmxLoadStore.lean) -/

@[simp] theorem vecLoad_canonical {ea : DWord} {len : Nat} {al : Align} {vrt : BitVec 5} {conv : Nat → QWord}
    (h : memoriesCanonical s) :
    OutAll memoriesCanonical (vecLoad s ea len al vrt conv) :=
  vmxGuard_canonical h (loadThen_canonical h fun _ _ h => by simp [h])

@[simp] theorem vecLoadEl_canonical {ea : DWord} {n : Nat} {vrt : BitVec 5} (h : memoriesCanonical s) :
    OutAll memoriesCanonical (vecLoadEl s ea n vrt) :=
  vmxGuard_canonical h (loadThen_canonical h fun _ _ h => by simp [h])

@[simp] theorem vecLoadRight_canonical {ea : DWord} {vrt : BitVec 5} (h : memoriesCanonical s) :
    OutAll memoriesCanonical (vecLoadRight s ea vrt) :=
  .ite (vmxNext_canonical h) (vecLoad_canonical h)

@[simp] theorem vecStore_canonical {ea : DWord} {len : Nat} {al : Align} {v : Nat} (h : memoriesCanonical s) :
    OutAll memoriesCanonical (vecStore s ea len al v) :=
  vmxGuard_canonical h (storeThen_canonical h fun _ h => by simp [h])

@[simp] theorem vecStoreRight_canonical {ea : DWord} {q : QWord} (h : memoriesCanonical s) :
    OutAll memoriesCanonical (vecStoreRight s ea q) :=
  .ite (vmxNext_canonical h) (vecStore_canonical h)

end

end Sys2Proof.Machine
end


section
/-! The commands of the MFCs: the memories stay canonical. -/

namespace Sys2Proof.Machine

open Sys2Proof.Safety

section
variable {s : State}

/-! ## The selected command -/

@[simp] theorem canonical_modSelected {f : MfcCmd → MfcCmd} :
    memoriesCanonical (s.modSelected f) ↔ memoriesCanonical s := by
  unfold State.modSelected
  split <;> exact canonical_modSpe_frame fun _ => rfl

@[simp] theorem completeSelected_canonical (h : memoriesCanonical s) : OutAll memoriesCanonical s.completeSelected := by
  unfold State.completeSelected
  split
  · simp [h]
  · exact next_canonical (by simp [h])
  · simp [h]

@[simp] theorem selectedError_canonical {bit : DWord} (h : memoriesCanonical s) :
    OutAll memoriesCanonical (s.selectedError bit) :=
  next_canonical (mfcError_canonical h)

theorem queued_canonical {q : Queues} {f : MfcCmd → Out State}
    (h : memoriesCanonical s) (hf : ∀ c, OutAll memoriesCanonical (f c)) :
    OutAll memoriesCanonical (queued s q f) := by
  unfold queued
  split
  · exact h
  · exact .ite (selectedError_canonical h) (hf _)

/-! ## The EA side of a unit -/

theorem dmaRead_canonical {ra len : Nat} (h : memoriesCanonical s) : ResAll memoriesCanonical (dmaRead s ra len) := by
  unfold dmaRead
  split <;> simp [h]

theorem dmaWrite_canonical {ra len v : Nat} (h : memoriesCanonical s) :
    ResAll memoriesCanonical (dmaWrite s ra len v) := by
  unfold dmaWrite
  split <;> simp [h]

theorem dmaTranslate_canonical {ea : DWord} {store atomic : Bool} {r : Nat} {f : Nat → State → Out State}
    (h : memoriesCanonical s)
    (hf : ∀ a s, memoriesCanonical s → OutAll memoriesCanonical (f a s)) :
    OutAll memoriesCanonical (dmaTranslate s ea store atomic r f) := by
  have ht := smmTranslate_canonical (n := s.curN) (ea := ea) (store := store) (atomic := atomic) (r := r) h
  unfold dmaTranslate
  split <;> rename_i he <;> rw [he] at ht
  · exact hf _ _ (by simp [dmaAll_real.mp ht])
  · exact canonical_modSelected.mpr ht
  · exact next_canonical (smmException_canonical (canonical_modSelected.mpr ht))
  · exact ht

theorem lsCompare_canonical {b : Bool} {f : State → Out State}
    (h : memoriesCanonical s) (hf : ∀ s, memoriesCanonical s → OutAll memoriesCanonical (f s)) :
    OutAll memoriesCanonical (lsCompare s b f) :=
  .ite (hf _ h) (.ite (next_canonical (raiseInt_canonical (by simp [h]))) (hf _ h))

/-! ## Transfers -/

theorem moveUnit_canonical {put : Bool} {lsa : Nat} {ea : DWord} {len r : Nat} {f : State → State}
    (h : memoriesCanonical s)
    (hf : ∀ s, memoriesCanonical s → memoriesCanonical (f s)) :
    OutAll memoriesCanonical (moveUnit s put lsa ea len r f) :=
  dmaTranslate_canonical h fun _ _ h =>
    .ite ((dmaWrite_canonical h).done fun _ _ h => outAll_next.mpr (hf _ h))
      ((dmaRead_canonical h).done fun _ _ h => outAll_next.mpr (hf _ (storeLs_canonical h)))

theorem performUnit_canonical {c : MfcCmd} {put : Bool} {lsa : Nat} {ea : DWord} {n count r : Nat}
    (h : memoriesCanonical s) :
    OutAll memoriesCanonical (performUnit s c put lsa ea n count r) :=
  lsCompare_canonical h fun _ h => moveUnit_canonical (by simp [h]) fun _ h => canonical_modSelected.mpr h

theorem transferStep_canonical {c : MfcCmd} {put start : Bool} {r : Nat} (h : memoriesCanonical s) :
    OutAll memoriesCanonical (transferStep s c put start r) :=
  .ite (selectedError_canonical h) (.ite (completeSelected_canonical (by simp [h])) (performUnit_canonical h))

theorem transfer_canonical {q : Queues} {put start : Bool} {r : Nat} (h : memoriesCanonical s) :
    OutAll memoriesCanonical (transfer s q put start r) :=
  queued_canonical h fun _ => transferStep_canonical h

theorem signalCmd_canonical {r : Nat} (h : memoriesCanonical s) : OutAll memoriesCanonical (signalCmd s r) :=
  queued_canonical h fun _ => .ite (selectedError_canonical h) (transferStep_canonical h)

/-! ## Lists -/

theorem fetchElement_canonical {c : MfcCmd} (h : memoriesCanonical s) : OutAll memoriesCanonical (fetchElement s c) :=
  .ite (selectedError_canonical h) (canonical_modSelected.mpr h)

theorem finishElement_canonical {c : MfcCmd} {e : DWord} (h : memoriesCanonical s) :
    OutAll memoriesCanonical (finishElement s c e) := by
  simp [finishElement, h]

theorem listCmd_canonical {put : Bool} {r : Nat} (h : memoriesCanonical s) :
    OutAll memoriesCanonical (listCmd s put r) := by
  refine queued_canonical h fun c => .ite (selectedError_canonical h) (.ite h ?_)
  split
  · exact .ite (completeSelected_canonical h) (fetchElement_canonical h)
  · exact .ite (.ite (selectedError_canonical h) (finishElement_canonical h)) (performUnit_canonical h)

/-! ## Storage control and synchronization -/

theorem hintCmd_canonical (h : memoriesCanonical s) : OutAll memoriesCanonical (hintCmd s) :=
  queued_canonical h fun _ => .ite (selectedError_canonical h) (completeSelected_canonical h)

theorem clearLines_canonical {r : Nat} (h : memoriesCanonical s) : OutAll memoriesCanonical (clearLines s r) :=
  queued_canonical h fun _ => .ite (selectedError_canonical h) (.ite (completeSelected_canonical h)
    (dmaTranslate_canonical (by simp [h]) fun _ _ h => (dmaWrite_canonical h).done fun _ _ h => canonical_modSelected.mpr h))

theorem syncCmd_canonical (h : memoriesCanonical s) :
    OutAll memoriesCanonical (syncCmd s) := queued_canonical h fun _ => completeSelected_canonical h

/-! ## Atomic commands -/

theorem immediateCmd_canonical {store : Bool} {r : Nat} {f : MfcCmd → Nat → State → Out State} (h : memoriesCanonical s)
    (hf : ∀ c a s, memoriesCanonical s → OutAll memoriesCanonical (f c a s)) :
    OutAll memoriesCanonical (immediateCmd s store r f) := by
  unfold immediateCmd
  split
  · exact h
  · exact .ite (dmaTranslate_canonical h fun _ _ h => hf _ _ _ h) (selectedError_canonical h)

theorem atomicDone_canonical {status : Word} (h : memoriesCanonical s) :
    OutAll memoriesCanonical (s.atomicDone status) :=
  (canonical_modSpe_frame fun _ => by simp).mpr h

theorem reserveRead_canonical {ra : Nat} (h : memoriesCanonical s) : ResAll memoriesCanonical (reserveRead s ra) := by
  unfold reserveRead
  split
  · trivial
  · exact dmaRead_canonical h

/-- The line that `getllar` reserves is stored (R1660). -/
theorem reserveLine_canonical {a : Spe → Nat} {v k : Nat} {line : Option Nat} (h : memoriesCanonical s) :
    memoriesCanonical (s.modSpe fun p => { p with ls := writeBytes p.ls (a p) v k, llres := line }) :=
  canonical_modSpe h fun hl => Memory.wf_writeBytes _ _ _ _ hl

theorem getLine_canonical {r : Nat} (h : memoriesCanonical s) : OutAll memoriesCanonical (getLine s r) :=
  immediateCmd_canonical h fun _ _ _ h => lsCompare_canonical h fun _ h => (reserveRead_canonical h).done fun _ _ h =>
    atomicDone_canonical (reserveLine_canonical h)

theorem putLineConditional_canonical {r : Nat} (h : memoriesCanonical s) :
    OutAll memoriesCanonical (putLineConditional s r) :=
  immediateCmd_canonical h fun _ _ _ h => lsCompare_canonical h fun _ h =>
    .ite ((dmaWrite_canonical h).done fun _ _ h => atomicDone_canonical (by simp [h])) (atomicDone_canonical (by simp [h]))

theorem putLine_canonical {r : Nat} (h : memoriesCanonical s) : OutAll memoriesCanonical (putLine s r) :=
  immediateCmd_canonical h fun _ _ _ h => lsCompare_canonical h fun _ h => (dmaWrite_canonical h).done fun _ _ h =>
    atomicDone_canonical (by simp [h])

theorem putLineQueued_canonical {r : Nat} (h : memoriesCanonical s) : OutAll memoriesCanonical (putLineQueued s r) :=
  queued_canonical h fun _ => .ite (completeSelected_canonical h) (dmaTranslate_canonical h fun _ _ h => lsCompare_canonical h fun _ h =>
    (dmaWrite_canonical h).done fun _ _ h => canonical_modSelected.mpr (by simp [h]))

end

end Sys2Proof.Machine
end


section
/-! Every instruction keeps the memories canonical: the forms of the PPE that only change registers, by their shape; those of the SPU
too, but for the quadword stores; loads, stores and MFC commands by the lemmas above. -/

namespace Sys2Proof.Machine

open Sys2Proof.Safety

section
variable {s : State}

/-! ## The shapes of the instructions of the PPE -/

theorem trapIf_canonical {c : Bool} (h : memoriesCanonical s) : OutAll memoriesCanonical (trapIf s c) := .ite h h

theorem wordResult_canonical {rt : BitVec 5} {w : Word} {ov oe rec : Bool} (h : memoriesCanonical s) :
    OutAll memoriesCanonical (wordResult rt w ov oe rec s) := h

theorem undefinedDivide_canonical {rt : BitVec 5} {oe rec : Bool} (h : memoriesCanonical s) :
    OutAll memoriesCanonical (undefinedDivide rt oe rec s) := h

theorem divForm_canonical {rt : BitVec 5} {r : DWord} {oe rec : Bool} (h : memoriesCanonical s) :
    OutAll memoriesCanonical (divForm rt r oe rec s) := h

theorem fpEnd_canonical {f : Thread → Thread} (h : memoriesCanonical s) :
    OutAll memoriesCanonical (fpEnd s f) := .ite h h

theorem fpArith_canonical {f : Fmt} {frt : BitVec 5} {rec : Bool} {ops : List DWord} {r : Word → FpRes}
    (h : memoriesCanonical s) :
    OutAll memoriesCanonical (fpArith s f frt rec ops r) :=
  fpGuard_canonical h (.ite (fpEnd_canonical (canonical_drew.mpr h)) (fpEnd_canonical h))

theorem fpArithNi_canonical {f : Fmt} {frt : BitVec 5} {rec : Bool} {ops : List DWord} {r : Word → Option (Nat × Nat) → FpRes}
    (h : memoriesCanonical s) : OutAll memoriesCanonical (fpArithNi s f frt rec ops r) :=
  .ite (fpArith_canonical (canonical_drew.mpr h)) (fpArith_canonical h)

theorem execPpeFcfid_canonical {frt frb : BitVec 5} {rec : Bool} (h : memoriesCanonical s) :
    OutAll memoriesCanonical (execPpeFcfid frt frb rec s) := by
  unfold execPpeFcfid
  exact fpArith_canonical h

theorem execPpeFres_canonical {frt frb : BitVec 5} {rec : Bool} (h : memoriesCanonical s) :
    OutAll memoriesCanonical (execPpeFres frt frb rec s) := by
  unfold execPpeFres
  exact fpArith_canonical (canonical_drew.mpr h)

theorem execPpeFrsqrte_canonical {frt frb : BitVec 5} {rec : Bool} (h : memoriesCanonical s) :
    OutAll memoriesCanonical (execPpeFrsqrte frt frb rec s) := by
  unfold execPpeFrsqrte
  exact fpArith_canonical (canonical_drew.mpr h)

theorem fpToInt_canonical {n : Nat} {mode : RMode} {frt frb : BitVec 5} {rec : Bool} {wide : BitVec n → DWord}
    (h : memoriesCanonical s) : OutAll memoriesCanonical (fpToInt s n mode frt frb rec wide) :=
  fpGuard_canonical h (fpEnd_canonical (canonical_drew.mpr h))

theorem vmxShift_canonical {vrt vrb : BitVec 5} {f : Nat → QWord} (h : memoriesCanonical s) :
    OutAll memoriesCanonical (vmxShift vrt vrb f s) :=
  .ite (vmxNext_canonical h) (.ite (vmxNext_canonical (canonical_drew.mpr h)) (vmxNext_canonical h))

theorem vest_canonical {vrt vrb : BitVec 5} {f : VMode → Word → Word → Word} (h : memoriesCanonical s) :
    OutAll memoriesCanonical (vest s vrt vrb f) := vmxNext_canonical (canonical_drew.mpr h)

theorem execPpeLmw_canonical {rt ra : BitVec 5} {d : BitVec 16} (h : memoriesCanonical s) :
    OutAll memoriesCanonical (execPpeLmw rt ra d s) := by
  unfold execPpeLmw
  exact .ite (alignInt_canonical h) (loadParts_canonical h (fun _ _ h => h) fun _ h => .ite (illegal_canonical h) h)

/-- A quadword store of an SPU into its local storage (46_spu_loadstore_const). -/
theorem storeQuad_canonical {a : Spe → Nat} {v : Spe → QWord} (h : memoriesCanonical s) :
    OutAll memoriesCanonical (spuNext s fun p => p.setLsQuad (a p) (v p)) := by
  refine outAll_next.mpr (canonical_modSpe h fun hl => ?_)
  rw [Spe.advance_ls]
  exact Spe.wf_setLsQuad _ _ _ hl

/-- A branch of an SPU. -/
theorem branch_canonical {f : Spe → Spe} (h : memoriesCanonical s) (hf : ∀ p, (f p).ls = p.ls) :
    OutAll memoriesCanonical (.next (s.modSpe f)) := (canonical_modSpe_frame hf).mpr h

/-! ## Every instruction -/

theorem exec_canonical (i : Instr) (h : memoriesCanonical s) : OutAll memoriesCanonical (exec i s) := by
  cases i <;> dsimp only [exec]
  -- Branches, traps, system linkage and the special registers.
  case ppeB | ppeBc | ppeBclr => exact canonical_modThr.mpr h
  case ppeBcctr => exact .ite (illegal_canonical h) (canonical_modThr.mpr h)
  case ppeSc => exact canonical_interrupt.mpr h
  case ppeTw | ppeTd | ppeTwi | ppeTdi => exact trapIf_canonical h
  case ppeRfid => exact supervisor_canonical h (msrWritten_canonical (canonical_modThr.mpr h))
  case ppeHrfid => exact hypervisorOnly_canonical h (msrWritten_canonical (canonical_modThr.mpr h))
  case ppeMtmsrd | ppeMtmsr =>
    exact supervisor_canonical h (moveSync_canonical h (msrWritten_canonical (canonical_modThr.mpr h)))
  case ppeMtspr => exact sprAccess_canonical h (writeSpr_canonical h)
  case ppeMfspr => exact sprAccess_canonical h (.ite trivial (ppeNext_canonical (canonical_drew.mpr h)))
  case ppeMftb => exact .ite (ppeNext_canonical h) (illegal_canonical h)
  case ppeMfmsr | ppeSlbmte | ppeSlbmfee | ppeSlbmfev | ppeSlbie | ppeSlbia =>
    exact supervisor_canonical h (ppeNext_canonical h)
  case ppeTlbie => exact tlbManager_canonical h (tlbInvalidate_canonical h)
  case ppeTlbiel => exact tlbManager_canonical h (.ite (tlbInvalidateClass_canonical h) (tlbInvalidate_canonical h))
  case ppeTlbsync => exact tlbManager_canonical h (ppeNext_canonical (canonical_mapSpes h Spe.performTlbies_ls))
  case ppeSync => exact .ite (ppeNext_canonical h) (afterSync_canonical h (ppeNext_canonical h))
  case ppeAttn => exact .ite trivial (illegal_canonical h)
  -- Condition register and fixed point.
  case ppeOr | ppeIsync | ppeCrand | ppeCror | ppeCrxor | ppeCrnand | ppeCrnor | ppeCreqv | ppeCrandc | ppeCrorc |
      ppeMcrf |
      ppeMtcrf | ppeMfcr | ppeMfocrf | ppeEieio | ppeAddi | ppeAddis | ppeAddic | ppeAddicDot | ppeSubfic | ppeMulli |
      ppeOri | ppeOris | ppeXori | ppeXoris | ppeAndiDot | ppeAndisDot | ppeCmpi | ppeCmpli | ppeAdd | ppeAddc | ppeAdde |
      ppeSubf | ppeSubfc | ppeSubfe | ppeMullw | ppeMulld | ppeAddme | ppeAddze | ppeSubfme | ppeSubfze | ppeNeg | ppeMulhd
      | ppeMulhdu | ppeCmp | ppeCmpl | ppeAnd | ppeAndc | ppeOrc | ppeXor | ppeNand | ppeNor | ppeEqv | ppeSlw | ppeSrw |
      ppeSraw | ppeSld | ppeSrd | ppeSrad | ppeExtsb | ppeExtsh | ppeExtsw | ppeCntlzw | ppeCntlzd | ppeSrawi | ppeSradi |
      ppeRlwimi | ppeRlwinm | ppeRlwnm | ppeRldicl | ppeRldicr | ppeRldic | ppeRldimi | ppeRldcl | ppeRldcr =>
    exact ppeNext_canonical h
  case ppeMtocrf => exact .ite (ppeNext_canonical h) (ppeNext_canonical (canonical_drew.mpr h))
  case ppeMulhw | ppeMulhwu => exact wordResult_canonical h
  case ppeDivw | ppeDivwu => exact .ite (undefinedDivide_canonical h) (wordResult_canonical h)
  case ppeDivd | ppeDivdu => exact .ite (undefinedDivide_canonical h) (divForm_canonical h)
  -- Loads, stores and cache instructions.
  case ppeLbz | ppeLhz | ppeLha | ppeLwz | ppeLd | ppeLwa | ppeLbzx | ppeLhzx | ppeLhax | ppeLwzx | ppeLwax | ppeLdx |
      ppeLhbrx | ppeLwbrx | ppeLdbrx =>
    exact loadGpr_canonical h
  case ppeLbzu | ppeLhzu | ppeLhau | ppeLwzu | ppeLdu | ppeLbzux | ppeLhzux | ppeLhaux | ppeLwzux | ppeLwaux |
      ppeLdux =>
    exact loadGprU_canonical h
  case ppeStb | ppeSth | ppeStw | ppeStd | ppeStbx | ppeSthx | ppeStwx | ppeStdx | ppeSthbrx | ppeStwbrx | ppeStdbrx =>
    exact storeVal_canonical h
  case ppeStbu | ppeSthu | ppeStwu | ppeStdu | ppeStbux | ppeSthux | ppeStwux | ppeStdux => exact storeValU_canonical h
  case ppeLfs | ppeLfd | ppeLfsx | ppeLfdx => exact loadFpr_canonical h
  case ppeLfsu | ppeLfdu | ppeLfsux | ppeLfdux => exact loadFprU_canonical h
  case ppeLswi => exact loadString_canonical h
  case ppeStswx | ppeStswi => exact storeString_canonical h
  case ppeLwarx | ppeLdarx => exact loadReserve_canonical h
  case ppeStwcxDot | ppeStdcxDot => exact storeConditional_canonical h
  case ppeDcbt | ppeDcbtst => exact touch_canonical h
  case ppeLswx => exact .ite (illegal_canonical h) (loadString_canonical h)
  case ppeLmw => exact execPpeLmw_canonical h
  case ppeStmw => exact storeParts_canonical h fun _ h => by simp [h]
  case ppeDcbz => exact (dataPiece_canonical h).done fun _ _ h => (realStore_canonical h).done fun _ _ h => by simp [h]
  case ppeDcbst | ppeDcbf => exact cacheOp_canonical h fun _ _ h => by simp [h]
  case ppeIcbi => exact cacheOp_canonical h fun _ _ h => by simp [h]
  case ppeStfs | ppeStfsx => exact fpGuard_canonical h (storeVal_canonical (singleWord_canonical h))
  case ppeStfsu | ppeStfsux => exact fpGuard_canonical h (storeValU_canonical (singleWord_canonical h))
  case ppeStfd | ppeStfdx | ppeStfiwx => exact fpGuard_canonical h (storeVal_canonical h)
  case ppeStfdu | ppeStfdux => exact fpGuard_canonical h (storeValU_canonical h)
  -- Floating point.
  case ppeFadd | ppeFadds | ppeFsub | ppeFsubs | ppeFmul | ppeFmuls | ppeFmadd | ppeFmadds | ppeFmsub | ppeFmsubs |
      ppeFnmadd | ppeFnmadds | ppeFnmsub | ppeFnmsubs =>
    exact fpArith_canonical h
  case ppeFcfid => exact execPpeFcfid_canonical h
  case ppeFres => exact execPpeFres_canonical h
  case ppeFrsqrte => exact execPpeFrsqrte_canonical h
  case ppeFdiv | ppeFdivs | ppeFsqrt | ppeFsqrts => exact fpArithNi_canonical h
  case ppeFmr | ppeFneg | ppeFabs | ppeFnabs | ppeFsel => exact fpGuard_canonical h (ppeNext_canonical h)
  case ppeFctid | ppeFctidz => exact fpToInt_canonical h
  case ppeFctiw | ppeFctiwz => exact fpToInt_canonical (canonical_drew.mpr h)
  case ppeFcmpu | ppeFcmpo | ppeMtfsfi | ppeMtfsf | ppeMtfsb0 | ppeMtfsb1 | ppeFrsp | ppeMcrfs =>
    exact fpGuard_canonical h (fpEnd_canonical h)
  case ppeMffs => exact fpGuard_canonical h (ppeNext_canonical (canonical_drew.mpr h))
  -- Vectors.
  case ppeVcmpbfp | ppeVcmpeqfp | ppeVcmpgefp | ppeVcmpgtfp | ppeLvsl | ppeLvsr | ppeDst | ppeDstt | ppeDstst |
      ppeDststt | ppeDss | ppeDssall | ppeVperm | ppeVsel | ppeVsldoi |
      ppeVslo | ppeVsro | ppeVmrghb | ppeVmrghh | ppeVmrghw | ppeVmrglb | ppeVmrglh | ppeVmrglw | ppeVspltb | ppeVsplth |
      ppeVspltw | ppeVspltisb | ppeVspltish | ppeVspltisw | ppeVpkuhum | ppeVpkuwum | ppeVpkuhus | ppeVpkuwus | ppeVpkshus |
      ppeVpkswus | ppeVpkshss | ppeVpkswss | ppeVpkpx | ppeVupkhsb | ppeVupkhsh | ppeVupklsb | ppeVupklsh | ppeVupkhpx |
      ppeVupklpx | ppeVand | ppeVandc | ppeVor | ppeVxor | ppeVnor | ppeVrlb | ppeVrlh | ppeVrlw | ppeVslb | ppeVslh |
      ppeVslw | ppeVsrb | ppeVsrh | ppeVsrw | ppeVsrab | ppeVsrah | ppeVsraw | ppeVaddubm | ppeVadduhm | ppeVadduwm |
      ppeVaddcuw | ppeVaddubs | ppeVadduhs | ppeVadduws | ppeVaddsbs | ppeVaddshs | ppeVaddsws | ppeVsububm | ppeVsubuhm |
      ppeVsubuwm | ppeVsubcuw | ppeVsububs | ppeVsubuhs | ppeVsubuws | ppeVsubsbs | ppeVsubshs | ppeVsubsws | ppeVavgub |
      ppeVavguh | ppeVavguw | ppeVavgsb | ppeVavgsh | ppeVavgsw | ppeVmaxub | ppeVmaxuh | ppeVmaxuw | ppeVmaxsb | ppeVmaxsh
      | ppeVmaxsw | ppeVminub | ppeVminuh | ppeVminuw | ppeVminsb | ppeVminsh | ppeVminsw | ppeVcmpequb | ppeVcmpequh |
      ppeVcmpequw | ppeVcmpgtub | ppeVcmpgtuh | ppeVcmpgtuw | ppeVcmpgtsb | ppeVcmpgtsh | ppeVcmpgtsw | ppeVmuleub |
      ppeVmuleuh | ppeVmulesb | ppeVmulesh | ppeVmuloub | ppeVmulouh | ppeVmulosb | ppeVmulosh | ppeVmhaddshs |
      ppeVmhraddshs | ppeVmladduhm | ppeVmsumubm | ppeVmsummbm | ppeVmsumuhm | ppeVmsumuhs | ppeVmsumshm | ppeVmsumshs |
      ppeVsum4ubs | ppeVsum4sbs | ppeVsum4shs | ppeVsum2sws | ppeVsumsws | ppeMfvscr | ppeMtvscr | ppeVaddfp | ppeVsubfp |
      ppeVmaddfp | ppeVnmsubfp | ppeVmaxfp | ppeVminfp | ppeVrfin | ppeVrfiz | ppeVrfip | ppeVrfim | ppeVcfux | ppeVcfsx |
      ppeVctuxs | ppeVctsxs =>
    exact vmxNext_canonical h
  case ppeVsl | ppeVsr => exact vmxShift_canonical h
  case ppeVrefp | ppeVrsqrtefp | ppeVlogefp | ppeVexptefp => exact vest_canonical h
  case ppeLvx | ppeLvxl | ppeLvlx | ppeLvlxl => exact vecLoad_canonical h
  case ppeLvebx | ppeLvehx | ppeLvewx => exact vecLoadEl_canonical h
  case ppeLvrx | ppeLvrxl => exact vecLoadRight_canonical h
  case ppeStvrx | ppeStvrxl => exact vecStoreRight_canonical h
  case ppeStvx | ppeStvxl | ppeStvlx | ppeStvlxl | ppeStvebx | ppeStvehx | ppeStvewx => exact vecStore_canonical h
  -- The SPUs.
  case spuLqd | spuLqx | spuLqa | spuLqr | spuCbd | spuCbx | spuChd | spuChx |
      spuCwd | spuCwx | spuCdd | spuCdx | spuIlh | spuIlhu | spuIl | spuIla | spuIohl | spuFsmbi | spuAh | spuAhi | spuA |
      spuAi | spuSfh | spuSfhi | spuSf | spuSfi | spuAddx | spuCg | spuCgx | spuSfx | spuBg | spuBgx | spuMpy | spuMpyu |
      spuMpyi | spuMpyui | spuMpya | spuMpyh | spuMpys | spuMpyhh | spuMpyhha | spuMpyhhu | spuMpyhhau | spuClz | spuCntb |
      spuFsmb | spuFsmh | spuFsm | spuGbb | spuGbh | spuGb | spuAvgb | spuAbsdb | spuSumb | spuXsbh | spuXshw | spuXswd |
      spuAnd | spuAndc | spuAndbi | spuAndhi | spuAndi | spuOr | spuOrc | spuOrbi | spuOrhi | spuOri | spuOrx | spuXor |
      spuXorbi | spuXorhi | spuXori | spuNand | spuNor | spuEqv | spuSelb | spuShufb | spuShlh | spuShlhi | spuShl | spuShli
      | spuShlqbi | spuShlqbii | spuShlqby | spuShlqbyi | spuShlqbybi | spuRoth | spuRothi | spuRot | spuRoti | spuRotqby |
      spuRotqbyi | spuRotqbybi | spuRotqbi | spuRotqbii | spuRothm | spuRothmi | spuRotm | spuRotmi | spuRotqmby |
      spuRotqmbyi | spuRotqmbybi | spuRotqmbi | spuRotqmbii | spuRotmah | spuRotmahi | spuRotma | spuRotmai | spuCeqb |
      spuCeqbi | spuCeqh | spuCeqhi | spuCeq | spuCeqi | spuCgtb | spuCgtbi | spuCgth | spuCgthi | spuCgt | spuCgti |
      spuClgtb | spuClgtbi | spuClgth | spuClgthi | spuClgt | spuClgti | spuHbr | spuHbrp | spuHbra | spuHbrr | spuFa |
      spuDfa | spuFs | spuDfs | spuFm | spuDfm | spuFma | spuDfma | spuFnms | spuDfnms | spuFms | spuDfms | spuDfnma |
      spuFrest | spuFrsqest | spuFi | spuFrds | spuFesd | spuFceq | spuFcmeq | spuFcgt | spuFcmgt | spuFscrwr | spuFscrrd |
      spuLnop | spuNop | spuSync | spuSyncc | spuDsync | spuMfspr | spuMtspr | spuRchcnt =>
    exact spuNext_canonical h fun _ => rfl
  case spuStqd | spuStqx | spuStqa | spuStqr => exact storeQuad_canonical h
  case spuHeq | spuHeqi | spuHgt | spuHgti | spuHlgt | spuHlgti => exact haltIf_canonical h
  case spuBr | spuBra | spuBrsl | spuBrasl | spuBrnz | spuBrz | spuBrhnz |
      spuBrhz => exact branch_canonical h fun _ => rfl
  case spuBi | spuBisled | spuBisl | spuBiz | spuBinz | spuBihz |
      spuBihnz => exact branchIndirect_canonical h fun _ => rfl
  case spuIret => exact branchIndirect_canonical (drewSrr0_canonical h) fun _ => rfl
  case spuCsflt | spuCflts | spuCuflt |
      spuCfltu => exact .ite (spuNext_canonical h fun _ => rfl) (spuNext_canonical (canonical_drew.mpr h) fun _ => rfl)
  case spuDfceq | spuDfcmeq | spuDfcgt | spuDfcmgt |
      spuDftsv => exact xcellOnly_canonical h (spuNext_canonical h fun _ => rfl)
  case spuStop | spuStopd => exact stopSignal_canonical h
  case spuRdch =>
    exact .ite (spuNext_canonical h fun _ => rfl) (.ite (by simp [h])
      ((readChannel_canonical h).done fun _ _ h => spuNext_canonical h fun _ => rfl))
  case spuWrch =>
    exact .ite (spuNext_canonical h fun _ => rfl) (.ite (by simp [h])
      ((writeChannel_canonical h).done fun _ _ h => spuNext_canonical h fun _ => rfl))
  -- The MFCs.
  case mfcPut | mfcPutb | mfcPutf | mfcPuts | mfcPutbs | mfcPutfs | mfcPutr | mfcPutrb | mfcPutrf | mfcGet | mfcGetb |
      mfcGetf | mfcGets | mfcGetbs | mfcGetfs =>
    exact transfer_canonical h
  case mfcPutl | mfcPutlb | mfcPutlf | mfcPutrl | mfcPutrlb | mfcPutrlf | mfcGetl | mfcGetlb |
      mfcGetlf => exact listCmd_canonical h
  case mfcSdcrt | mfcSdcrtst | mfcSdcrst | mfcSdcrf => exact hintCmd_canonical h
  case mfcSdcrz => exact clearLines_canonical h
  case mfcSndsig | mfcSndsigb | mfcSndsigf => exact signalCmd_canonical h
  case mfcPutlluc => exact putLine_canonical h
  case mfcPutllc => exact putLineConditional_canonical h
  case mfcPutqlluc => exact putLineQueued_canonical h
  case mfcBarrier | mfcMfceieio | mfcMfcsync => exact syncCmd_canonical h
  case mfcGetllar => exact getLine_canonical h

end

end Sys2Proof.Machine
end


section
/-! The step of the machine: every agent's step and every move of the schedule keeps the memories canonical. -/

namespace Sys2Proof.Machine

open Sys2Proof.Safety

section
variable {s : State}

/-! ## Inbound I/O accesses (Machine/Ioc.lean) -/

theorem iostLookup_canonical {a : BitVec 42} (h : memoriesCanonical s) : IoAll memoriesCanonical (s.iostLookup a) := by
  simp [State.iostLookup, h]

theorem ioptLookup_canonical {base page bits : Nat} (h : memoriesCanonical s) :
    IoAll memoriesCanonical (s.ioptLookup base page bits) := by
  unfold State.ioptLookup
  extract_lets place waiting
  clear_value waiting place
  split
  · exact h
  · exact h
  · split
    · exact h
    · split
      · exact h
      · simp [h]

theorem ioptAddress_canonical {e : DWord} {a : BitVec 42} {bits : Nat} {write : Bool} {ioid : BitVec 11}
    (h : memoriesCanonical s) :
    IoAll memoriesCanonical (ioptAddress s e a bits write ioid) := by
  simp [ioptAddress, h]

theorem ioTranslate_canonical {a : BitVec 42} {write : Bool} {ioid : BitVec 11} (h : memoriesCanonical s) :
    IoAll memoriesCanonical (s.ioTranslate a write ioid) := by
  refine (iostLookup_canonical h).bind fun ste s h => ?_
  split
  · trivial
  · simp only [ioAll_ite, ioAll_fault]
    split
    · exact h
    · exact (ioptLookup_canonical h).bind fun _ _ h => ioptAddress_canonical h

theorem ioAddress_canonical {a : Nat} {write : Bool} {ioid : BitVec 11} (h : memoriesCanonical s) :
    IoAll memoriesCanonical (s.ioAddress a write ioid) := by
  simp [State.ioAddress, h, ioTranslate_canonical]

theorem ioAccess_canonical {u : IoUnit} {a len : Nat} {write : Bool} {f : Region → Nat → Bool → State → Res Unit}
    (h : memoriesCanonical s)
    (hf : ∀ r ra strong s, memoriesCanonical s → ResAll memoriesCanonical (f r ra strong s)) :
    ResAll memoriesCanonical (s.ioAccess u a len write f) := by
  have ha := ioAddress_canonical (a := a) (write := write) (ioid := u.ioid) h
  unfold State.ioAccess
  split <;> rename_i he <;> rw [he] at ha
  · exact ha
  · exact ioException_canonical ha
  · split
    · exact ioException_canonical ha
    · exact ha
    · exact .ite trivial (hf _ _ _ _ ha)

theorem ioRead_canonical {u : IoUnit} {a len : Nat} (h : memoriesCanonical s) :
    ResAll memoriesCanonical (s.ioRead u a len) := by
  refine .ite h (ioAccess_canonical h fun r ra strong s h => ?_)
  dsimp only
  split
  · exact (mmioRead_canonical (ioBarrier_canonical h)).bind fun _ _ h => h
  · simp [h]
  · simp [h]

theorem ioWrite_canonical {u : IoUnit} {a : Nat} {bytes : List Byte} (h : memoriesCanonical s) :
    ResAll memoriesCanonical (s.ioWrite u a bytes) := by
  refine .ite h (ioAccess_canonical h fun r ra strong s h => ?_)
  split <;> simp [h]

/-! ## A PPE thread (Machine/Sequencer.lean) -/

/-- If there is an answer, its next state has canonical memories. -/
def AnswerCanonical (x : Option (Out State)) : Prop := ∀ o, x = some o → OutAll memoriesCanonical o

theorem AnswerCanonical.none : AnswerCanonical none := fun _ h => (Option.some_ne_none _ h.symm).elim

theorem AnswerCanonical.next (h : memoriesCanonical s) : AnswerCanonical (some (.next s)) := by
  rintro _ ⟨⟩
  exact h

theorem AnswerCanonical.ite {c : Prop} [Decidable c] {x y : Option (Out State)}
    (hx : AnswerCanonical x) (hy : AnswerCanonical y) :
    AnswerCanonical (if c then x else y) := by
  split <;> assumption

theorem externalInterrupt_canonical {t : Fin 2} (h : memoriesCanonical s) :
    AnswerCanonical (s.externalInterrupt t) := by
  unfold State.externalInterrupt
  extract_lets th userOrGuest direct mediated s'
  have hs' : memoriesCanonical s' := by simp [s', h]
  clear_value s'
  exact .ite (.next hs') (.ite (.next hs') .none)

theorem systemInterrupt_canonical {t : Fin 2} (h : memoriesCanonical s) : AnswerCanonical (s.systemInterrupt t) := by
  refine .ite (.next h) (.ite (.next h) (.ite (.next h) (.ite (.next h) ?_)))
  split
  · next he => exact he ▸ externalInterrupt_canonical h
  · exact .ite (.next h) (.ite (.next h) .none)

theorem resume_canonical {t : Fin 2} (h : memoriesCanonical s) : memoriesCanonical (s.resume t) := by
  simp [State.resume, h]

theorem fetchWord_canonical {p : Phys} (h : memoriesCanonical s) : ResAll memoriesCanonical (fetchWord s p) := by
  unfold fetchWord
  split
  · split <;> exact h
  · simp [h]
  · trivial
  · exact (ioifRead_canonical h).bind fun _ _ h => h
  · exact unassignedSpace_canonical h
  · exact checkstop_canonical h

theorem traceAfter_canonical {t : Fin 2} {w : Word} {s' : State} (h : memoriesCanonical s') :
    memoriesCanonical (traceAfter s t w s') := by
  simp [traceAfter, h]

theorem ppeInstruction_canonical {t : Fin 2} (h : memoriesCanonical s) :
    OutAll memoriesCanonical (s.ppeInstruction t) := by
  refine (translateFetch_canonical h).done fun _ _ h => (fetchWord_canonical h).done fun _ s h => ?_
  split
  · exact illegal_canonical h
  · next i _ =>
    have he := exec_canonical i h
    split
    · next hx => rw [hx] at he; exact traceAfter_canonical he
    · exact he

theorem boundary_canonical {t : Fin 2} (h : memoriesCanonical s) : OutAll memoriesCanonical (s.boundary t) := by
  unfold State.boundary
  split
  · next ho => exact systemInterrupt_canonical h _ ho
  · exact ppeInstruction_canonical h

theorem ppeStep_canonical {t : Fin 2} (h : memoriesCanonical s) : OutAll memoriesCanonical (s.ppeStep t) := by
  refine .ite (resume_canonical h) ?_
  split
  · exact boundary_canonical h
  · exact takeMachineCheck_canonical h
  · exact boundary_canonical (by simp [h])

/-! ## An SPU, an MFC -/

theorem afterSpu_canonical (h : memoriesCanonical s) : OutAll memoriesCanonical s.afterSpu :=
  .ite (.ite (next_canonical (raiseInt_canonical (by simp [h]))) h) h

theorem spuStep_canonical (h : memoriesCanonical s) : OutAll memoriesCanonical s.spuStep := by
  refine .ite (spuInterrupt_canonical h) ?_
  extract_lets o
  have ho : OutAll memoriesCanonical o := by
    unfold o
    split
    · exact spuInvalid_canonical h
    · exact exec_canonical _ (by simp [h])
  clear_value o
  cases o with
  | next t => exact afterSpu_canonical ho
  | fault f => exact ho
  | refused r => exact ho

theorem mfcCommand_canonical (h : memoriesCanonical s) : OutAll memoriesCanonical s.mfcCommand := by
  unfold State.mfcCommand
  split
  · exact h
  · split
    · exact selectedError_canonical h
    · exact exec_canonical _ h

theorem resentNow_canonical {x : MfcSel} (h : memoriesCanonical s) : memoriesCanonical (s.resentNow x) := by
  unfold State.resentNow
  split
  · simp [h]
  · exact h

theorem mfcStep_canonical (h : memoriesCanonical s) : OutAll memoriesCanonical s.mfcStep := by
  unfold State.mfcStep
  extract_lets l m s'
  have hs' : memoriesCanonical s' := by simp [s', h]
  clear_value s' m l
  refine .ite hs' ?_
  cases m with
  | lateAtomic => exact next_canonical (mfcError_canonical (by simp [hs']))
  | command x => exact mfcCommand_canonical (resentNow_canonical hs')
  | _ => simp [hs']

theorem agentStep_canonical {a : Agent} (h : memoriesCanonical s) : OutAll memoriesCanonical (s.agentStep a) := by
  cases a with
  | ppe t => exact ppeStep_canonical (s := { s with cur := .ppe t }) h
  | spu n => exact spuStep_canonical (s := { s with cur := .spu n }) h
  | mfc n => exact mfcStep_canonical (s := { s with cur := .mfc n }) h

/-! ## The moves of the schedule -/

theorem tick_canonical (h : memoriesCanonical s) : memoriesCanonical s.tick :=
  canonical_mapSpes (s := { s with threads := _, ppe := _ }) h Spe.tickDec_ls

theorem setTben_canonical {high : Bool} (h : memoriesCanonical s) : memoriesCanonical (s.setTben high) := by
  have ht : memoriesCanonical { s with plat := { s.plat with tben := high } } := h
  unfold State.setTben
  dsimp only
  split
  · exact tick_canonical ht
  · exact ht

theorem eratPut_canonical {t : Fin 2} {x : EratEntry} (h : memoriesCanonical s) :
    memoriesCanonical (s.eratPut t x) := by
  unfold State.eratPut
  extract_lets l kept s' others
  have hs' : memoriesCanonical s' := by simp [s', h]
  exact hs'

theorem eratFill_canonical {t : Fin 2} {instr : Bool} {ea : DWord} (h : memoriesCanonical s) :
    memoriesCanonical (s.eratFill t instr ea) := by
  unfold State.eratFill
  extract_lets th ea' k
  have hl := lookup_canonical (t := t) (ea := ea') (k := k) h
  split
  · next he =>
    split at he
    · rw [he] at hl
      exact eratPut_canonical hl
    · cases he
  · exact h

theorem icacheFill_canonical {t : Fin 2} {ea : DWord} (h : memoriesCanonical s) :
    memoriesCanonical (s.icacheFill t ea) := by
  obtain ⟨l, he⟩ := State.icacheFill_only s t ea
  rw [he]
  exact h

theorem livelock_canonical (h : memoriesCanonical s) : ResAll memoriesCanonical s.livelock := by
  simp [State.livelock, h]

theorem resetOf_canonical (c : ChipConfig) : memoriesCanonical (State.resetOf c) := by
  refine ⟨Memory.wf_nil, fun n => ?_⟩
  rw [show (State.resetOf c).spes[n] = Spe.reset by simp [State.resetOf]]
  exact Memory.wf_nil

/-- The image of the chip is stored byte by byte into an empty main storage (70_reset_and_hazards R2067). -/
theorem powerOn_canonical (s : State) : memoriesCanonical s.powerOn :=
  ⟨List.foldlRecOn (motive := fun m => Memory.wf m = true) s.cfg.image _ Memory.wf_nil fun m hm x _ => Memory.wf_writeByte m x.1 x.2 hm,
    (resetOf_canonical s.cfg).2⟩

theorem toOut_canonical {r : Res Unit} (h : ResAll memoriesCanonical r) :
    OutAll memoriesCanonical r.toOut := next_canonical h

theorem applyMove_canonical {m : Move} (h : memoriesCanonical s) : OutAll memoriesCanonical (s.applyMove m) := by
  cases m <;> dsimp only [State.applyMove]
  case run => exact .ite (agentStep_canonical h) h
  case tick =>
    refine outAll_next.mpr ?_
    split
    · exact tick_canonical h
    · exact h
  case setTben => exact setTben_canonical h
  case eratFill => exact eratFill_canonical h
  case icacheFill => exact icacheFill_canonical h
  case eratDrop | maintenance | scanMatch => simp [h]
  case icacheDrop => exact canonical_mk.mpr h
  case spuPrefetch | spuDrop => exact (canonical_modN_frame fun _ => by simp).mpr h
  case temperature => exact canonical_thermalSample.mpr (canonical_mk.mpr h)
  case ioRead => exact toOut_canonical (ioRead_canonical h)
  case ioWrite => exact toOut_canonical (ioWrite_canonical h)
  case ioData => exact ioData_canonical h
  case ioInterrupt => exact toOut_canonical (ioPacket_canonical h)
  case ioptArrive => exact arriveIopt_canonical h
  case micTrace | tokenLevel => exact toOut_canonical (setSignalCell_canonical h)
  case livelock => exact toOut_canonical (livelock_canonical h)
  case slowDone => exact slowDone_canonical h
  case iocFault => exact toOut_canonical (storeIocFir_canonical h)
  case thermalOverload => exact stopWith_canonical h
  case watchdog | checkstopSignal => exact checkstop_canonical h
  case powerOnReset => exact powerOn_canonical s

/-! ## The step -/

theorem round_canonical (h : memoriesCanonical s) : memoriesCanonical s.round := by
  refine performInbound_canonical (arriveIopt_canonical (slowDone_canonical ?_))
  split
  · exact tick_canonical h
  · exact h

theorem turn_canonical (h : memoriesCanonical s) : OutAll memoriesCanonical s.turn := by
  unfold State.turn
  extract_lets n s'
  have hs' : memoriesCanonical s' := by simp [s', h, round_canonical]
  clear_value s'
  split
  · exact .ite (agentStep_canonical hs') hs'
  · exact hs'

theorem stoppedStep_canonical {f : Fault} (h : memoriesCanonical s) : OutAll memoriesCanonical (s.stoppedStep f) := by
  unfold State.stoppedStep
  split
  · trivial
  · refine outAll_next.mpr ?_
    split
    · exact powerOn_canonical _
    · exact h

theorem step_canonical (h : memoriesCanonical s) : OutAll memoriesCanonical (step s) := by
  unfold step State.advanceMachine
  split
  · exact stoppedStep_canonical h
  · split
    · exact turn_canonical h
    · next rest _ => exact applyMove_canonical (s := { s with schedule := rest }) h

end

end Sys2Proof.Machine
end

section
/-! The obligation on the memories: every step keeps them canonical. -/

namespace Sys2Proof.Machine

open Sys2Proof.Safety

/-- Settles O57: what a part of a step answers has canonical memories if its state has them (`step_canonical`). -/
theorem stepsKeepMemoriesCanonical : Obligations.StepsKeepMemoriesCanonical := by
  intro s t h hst
  have hs := step_canonical h
  rwa [hst] at hs

end Sys2Proof.Machine
end

section
/-! The numbers that the images of a floating-point format stand for: a magnitude image read as a whole number of the least denormals of
the format, and the readings of SoftFloat.lean and of Safety.lean in its terms. -/

namespace Sys2Proof.Machine

open Sys2Proof.Safety

/-! ## Magnitudes -/

/-- The value of a magnitude image in units of the least denormal, 2^`qmin`; the exponents go on past that of the infinity. -/
def Fmt.units (f : Fmt) (mag : Nat) : Nat :=
  if mag / 2^f.fb = 0 then mag % 2^f.fb else (2^f.fb + mag % 2^f.fb) * 2^(mag / 2^f.fb - 1)

theorem Fmt.units_of_lt {f : Fmt} {mag : Nat} (h : mag < 2^f.fb) : f.units mag = mag := by
  rw [Fmt.units, if_pos (Nat.div_eq_of_lt h), Nat.mod_eq_of_lt h]

theorem Fmt.units_of_le {f : Fmt} {mag : Nat} (h : 2^f.fb ≤ mag) :
    f.units mag = (2^f.fb + mag % 2^f.fb) * 2^(mag / 2^f.fb - 1) :=
  if_neg (Nat.div_pos h (Nat.two_pow_pos _)).ne'

/-- The value of a significand `m` at `t` binades above the denormal grid; a significand that a rounding took to the next binade too. -/
theorem Fmt.units_pack {f : Fmt} {t m : Nat} (h : t = 0 ∨ 2^f.fb ≤ m) (hm : m ≤ 2^(f.fb + 1)) :
    f.units (t * 2^f.fb + m) = m * 2^t := by
  have hB := Nat.two_pow_pos f.fb
  rw [pow_succ] at hm
  generalize hb : 2^f.fb = B at *
  have hd : (t * B + m) / B = t + m / B := by rw [mul_comm, Nat.mul_add_div hB]
  have hr : (t * B + m) % B = m % B := by rw [mul_comm, Nat.mul_add_mod]
  unfold Fmt.units
  rw [hb, hd, hr]
  rcases lt_or_ge m B with hlt | hge
  · obtain rfl : t = 0 := h.resolve_right (by omega)
    simp [Nat.div_eq_of_lt hlt, Nat.mod_eq_of_lt hlt]
  rcases hm.lt_or_eq with hlt | rfl
  · have h1 : m / B = 1 := Nat.div_eq_of_lt_le (by omega) (by omega)
    have h2 : m % B = m - B := by rw [Nat.mod_eq_sub_mod hge, Nat.mod_eq_of_lt (by omega)]
    rw [h1, h2, if_neg (by omega), Nat.add_sub_cancel' hge]
    rfl
  · rw [Nat.mul_div_cancel_left 2 hB, Nat.mul_mod_right, if_neg (by omega), Nat.add_zero,
      show t + 2 - 1 = t + 1 by omega, pow_succ]
    ring

/-- Of two consecutive normal numbers the greater is at most one part in 2^`fb` past the other. -/
theorem Fmt.units_succ_le {f : Fmt} {mag : Nat} (h : 2^f.fb ≤ mag) :
    f.units (mag + 1) * 2^f.fb ≤ f.units mag * (2^f.fb + 1) := by
  have hB := Nat.two_pow_pos f.fb
  have hr := Nat.mod_lt mag hB
  have hmag := Nat.div_add_mod mag (2^f.fb)
  have h2 : 2^(f.fb + 1) = 2 * 2^f.fb := by rw [pow_succ, mul_comm]
  obtain ⟨t, ht⟩ : ∃ t, mag / 2^f.fb = t + 1 := ⟨mag / 2^f.fb - 1, by have := Nat.div_pos h hB; omega⟩
  rw [ht, Nat.mul_add, Nat.mul_one, mul_comm _ t, Nat.add_assoc] at hmag
  have h1 := Fmt.units_pack (f := f) (t := t) (m := 2^f.fb + mag % 2^f.fb + 1) (.inr (by omega)) (by omega)
  rw [← Nat.add_assoc, hmag] at h1
  rw [h1, Fmt.units_of_le h, ht, Nat.add_sub_cancel, mul_right_comm, mul_right_comm _ (2^t)]
  refine Nat.mul_le_mul_right _ ?_
  rw [Nat.mul_succ, Nat.add_mul, Nat.one_mul]
  omega

/-- The order of the images is the order of their values. -/
theorem Fmt.units_strictMono (f : Fmt) : StrictMono f.units := by
  refine strictMono_nat_of_lt_succ fun mag => ?_
  have hB := Nat.two_pow_pos f.fb
  have hr := Nat.mod_lt mag hB
  have hmag := Nat.div_add_mod mag (2^f.fb)
  have h2 : 2^(f.fb + 1) = 2 * 2^f.fb := by rw [pow_succ, mul_comm]
  rcases lt_or_ge mag (2^f.fb) with h | h
  · have h1 := Fmt.units_pack (f := f) (t := 0) (m := mag) (.inl rfl) (by omega)
    have h2 := Fmt.units_pack (f := f) (t := 0) (m := mag + 1) (.inl rfl) (by omega)
    simp only [Nat.zero_mul, Nat.zero_add, pow_zero, Nat.mul_one] at h1 h2
    omega
  · obtain ⟨t, ht⟩ : ∃ t, mag / 2^f.fb = t + 1 := ⟨mag / 2^f.fb - 1, by have := Nat.div_pos h hB; omega⟩
    rw [ht, Nat.mul_add, Nat.mul_one, mul_comm _ t] at hmag
    have h1 := Fmt.units_pack (f := f) (t := t) (m := 2^f.fb + mag % 2^f.fb) (.inr (by omega)) (by omega)
    have h2 := Fmt.units_pack (f := f) (t := t) (m := 2^f.fb + mag % 2^f.fb + 1) (.inr (by omega)) (by omega)
    rw [← Nat.add_assoc, hmag] at h1
    rw [← Nat.add_assoc, ← Nat.add_assoc, hmag] at h2
    rw [h1, h2]
    exact Nat.mul_lt_mul_of_pos_right (by omega) (Nat.two_pow_pos t)

/-! ## Signs -/

@[simp] theorem natAbs_signedNat (n : Bool) (m : Nat) : (signedNat n m).natAbs = m := by
  cases n <;> simp [signedNat]

@[simp] theorem signedNat_zero (n : Bool) : signedNat n 0 = 0 := by
  cases n <;> rfl

theorem signedNat_mul (n : Bool) (m k : Nat) : signedNat n (m * k) = signedNat n m * k := by
  cases n <;> simp [signedNat]

theorem signedNat_eq_zero {n : Bool} {m : Nat} : signedNat n m = 0 ↔ m = 0 := by
  cases n <;> simp [signedNat]

theorem ibit_zero_eq {n : Nat} (w : BitVec n) : ibit w 0 = decide (2^(n - 1) ≤ w.toNat) := by
  rw [ibit, Nat.sub_zero, ← BitVec.msb_eq_getLsbD_last, BitVec.msb_eq_decide]

/-! ## Images -/

/-- The value of a double by its magnitude image. -/
theorem scaled_eq_units (w : DWord) : Safety.scaled w = signedNat (ibit w 0) (f64.units (w.toNat % 2^63)) := by
  have hd : w.toNat % 2^63 / 2^52 = w.toNat / 2^52 % 2^11 := by omega
  have hr : w.toNat % 2^63 % 2^52 = w.toNat % 2^52 := by omega
  simp only [Safety.scaled, Fmt.units, f64, hd, hr, signedNat]

/-- The value of a single by its magnitude image. -/
theorem scaledSingle_eq_units (w : Word) :
    scaledSingle w = signedNat (ibit w 0) (f32.units (w.toNat % 2^31) * 2^925) := by
  have hd : w.toNat % 2^31 / 2^23 = w.toNat / 2^23 % 2^8 := by omega
  have hr : w.toNat % 2^31 % 2^23 = w.toNat % 2^23 := by omega
  simp only [scaledSingle, Fmt.units, f32, hd, hr, signedNat]

/-- A magnitude image with the denormals taken as zero. -/
def Fmt.flush (f : Fmt) (mag : Nat) : Nat := if mag < 2^f.fb then 0 else mag

theorem Fmt.flush_of_lt {f : Fmt} {mag : Nat} (h : mag < 2^f.fb) : f.flush mag = 0 := if_pos h

theorem Fmt.flush_of_le {f : Fmt} {mag : Nat} (h : 2^f.fb ≤ mag) : f.flush mag = mag := if_neg (Nat.not_lt.mpr h)

theorem Fmt.flush_le (f : Fmt) (mag : Nat) : f.flush mag ≤ mag := by
  unfold Fmt.flush
  split <;> omega

/-- The value of a word in the extended range by its magnitude image (R1490). -/
theorem extended_eq_units (w : Word) :
    extended w = signedNat (ibit w 0) (f32.units (f32.flush (w.toNat % 2^31))) := by
  have hd : w.toNat % 2^31 / 2^23 = w.toNat / 2^23 % 2^8 := by omega
  have hr : w.toNat % 2^31 % 2^23 = w.toNat % 2^23 := by omega
  unfold extended signedNat
  rcases lt_or_ge (w.toNat % 2^31) (2^23) with h | h
  · rw [Fmt.flush_of_lt (f := f32) h, Fmt.units_of_lt (Nat.two_pow_pos _)]
    simp only [show w.toNat / 2^23 % 2^8 = 0 by omega, if_true]
  · rw [Fmt.flush_of_le (f := f32) h, Fmt.units_of_le h]
    simp only [show w.toNat / 2^23 % 2^8 ≠ 0 by omega, if_false, f32, hd, hr]

theorem finiteDouble_iff (w : DWord) : finiteDouble w ↔ w.toNat % 2^63 < f64.infMag := by
  change w.toNat / 2^52 % 2^11 ≠ 2047 ↔ w.toNat % 2^63 < 0x7FF0000000000000
  omega

theorem finiteSingle_iff (w : Word) : finiteSingle w ↔ w.toNat % 2^31 < f32.infMag := by
  change w.toNat / 2^23 % 2^8 ≠ 255 ↔ w.toNat % 2^31 < 0x7F800000
  omega

section
variable (n : Bool) {mag : Nat}

theorem toNat_ofNat_image32 (h : mag < 2^31) : (BitVec.ofNat 32 (f32.image n mag)).toNat = n.toNat * 2^31 + mag := by
  cases n <;> simp [Fmt.image, Fmt.signBit, f32] <;> omega

theorem toNat_ofNat_image64 (h : mag < 2^63) : (BitVec.ofNat 64 (f64.image n mag)).toNat = n.toNat * 2^63 + mag := by
  cases n <;> simp [Fmt.image, Fmt.signBit, f64] <;> omega

theorem ibit_zero_image32 (h : mag < 2^31) : ibit (BitVec.ofNat 32 (f32.image n mag)) 0 = n := by
  rw [ibit_zero_eq, toNat_ofNat_image32 n h]
  cases n <;> simp
  omega

theorem ibit_zero_image64 (h : mag < 2^63) : ibit (BitVec.ofNat 64 (f64.image n mag)) 0 = n := by
  rw [ibit_zero_eq, toNat_ofNat_image64 n h]
  cases n <;> simp
  omega

theorem mag_image32 (h : mag < 2^31) : (BitVec.ofNat 32 (f32.image n mag)).toNat % 2^31 = mag := by
  rw [toNat_ofNat_image32 n h]
  omega

theorem mag_image64 (h : mag < 2^63) : (BitVec.ofNat 64 (f64.image n mag)).toNat % 2^63 = mag := by
  rw [toNat_ofNat_image64 n h]
  omega

end

/-! ## Reading an image -/

/-- The magnitude image `mag` is that of the number m * 2^e, whose significand has the full width of the format. -/
structure Fmt.Normal (f : Fmt) (mag m : Nat) (e : Int) : Prop where
  le : 2^f.fb ≤ m
  lt : m < 2^(f.fb + 1)
  grid : f.qmin ≤ e
  units : f.units mag = m * 2^(e - f.qmin).toNat

theorem Fmt.normal_of_le {f : Fmt} {mag : Nat} (h : 2^f.fb ≤ mag) :
    f.Normal mag (2^f.fb + mag % 2^f.fb) ((mag / 2^f.fb : Nat) + f.qmin - 1) := by
  have hB := Nat.two_pow_pos f.fb
  have hx : 0 < mag / 2^f.fb := Nat.div_pos h hB
  have hr := Nat.mod_lt mag hB
  refine ⟨by omega, by rw [pow_succ]; omega, by omega, ?_⟩
  rw [Fmt.units_of_le h]
  congr 2
  omega

/-- `x` is what an image of sign `n` and magnitude `mag` reads as: zero, a normal number below `top`, or, at `top`, an infinity. -/
def Num.Reads (f : Fmt) (top : Nat) (n : Bool) (mag : Nat) : Num → Prop
  | .zero k => k = n ∧ mag = 0
  | .fin k m e => k = n ∧ mag < top ∧ f.Normal mag m e
  | .inf k => k = n ∧ mag = top
  | .nan => False

/-- The magnitude part of an image. -/
theorem mag_fields (f : Fmt) (w : Nat) :
    w / 2^f.fb % 2^f.eb = w % f.signBit / 2^f.fb ∧ w % 2^f.fb = w % f.signBit % 2^f.fb := by
  rw [Fmt.signBit, Nat.add_comm, Nat.pow_add]
  exact ⟨(Nat.mod_mul_right_div_self w _ _).symm, (Nat.mod_mul_right_mod w _ _).symm⟩

/-- The double-precision unit reads a denormal as a zero (R1494). -/
theorem dpval_reads (f : Fmt) {w : Nat} (hw : w < 2 * f.signBit) (hn : isNan f w = false) (he : 2 ≤ 2^f.eb) :
    (dpval f w).Reads f f.infMag (decide (f.signBit ≤ w)) (f.flush (w % f.signBit)) := by
  obtain ⟨hd, hr⟩ := mag_fields f w
  have hB := Nat.two_pow_pos f.fb
  have hneg : (w / f.signBit % 2 == 1) = decide (f.signBit ≤ w) := by
    rw [Bool.eq_iff_iff, beq_iff_eq, decide_eq_true_iff]
    rcases lt_or_ge w f.signBit with h | h
    · simp [Nat.div_eq_of_lt h, h]
    · simp [show w / f.signBit = 1 from Nat.div_eq_of_lt_le (by omega) (by omega), h]
  have hle : w % f.signBit ≤ f.infMag := by simpa [isNan] using hn
  unfold dpval unpack isDenorm Fmt.flush
  simp only [hneg, hd, hr]
  generalize w % f.signBit = mag at *
  have hmag := Nat.div_add_mod mag (2^f.fb)
  rcases lt_or_ge mag (2^f.fb) with h | h
  · have hx : mag / 2^f.fb = 0 := Nat.div_eq_of_lt h
    rcases eq_or_ne mag 0 with rfl | h0
    · simp [h, show ¬(0 = 2^f.eb - 1) by omega, Num.Reads]
    · simp [h, h0, Num.Reads]
  · have hx : 0 < mag / 2^f.fb := Nat.div_pos h hB
    rcases hle.lt_or_eq with hlt | rfl
    · have hne : mag / 2^f.fb ≠ 2^f.eb - 1 := (Nat.div_lt_of_lt_mul (by rwa [mul_comm])).ne
      simpa [Nat.not_lt.mpr h, hx.ne', hne, Num.Reads, hlt] using Fmt.normal_of_le h
    · simp [Num.Reads, Fmt.infMag]

theorem toNat_ibm {n : Nat} (w : BitVec n) (first len : Nat) :
    (ibm w first len).toNat = w.toNat / 2^(n - first - len) % 2^len := by
  rw [ibm, BitVec.extractLsb'_toNat, Nat.shiftRight_eq_div_pow]

theorem ibm_exponent_eq_zero (w : Word) : ibm w 1 8 = 0 ↔ w.toNat % 2^31 < 2^f32.fb := by
  rw [BitVec.toNat_eq, toNat_ibm]
  change w.toNat / 2^23 % 2^8 = 0 ↔ w.toNat % 2^31 < 2^23
  omega

/-- The single-precision unit reads a denormal as a zero and has no infinities (R1490). -/
theorem spval_reads (w : Word) : (spval w).Reads f32 (2^31) (ibit w 0) (f32.flush (w.toNat % 2^31)) := by
  have h1 := toNat_ibm w 1 8
  have h2 := toNat_ibm w 9 23
  unfold spval vread Fmt.flush
  simp only [ibm_exponent_eq_zero]
  split
  · exact ⟨rfl, rfl⟩
  · next h =>
    have hm : 2^23 + (ibm w 9 23).toNat = 2^f32.fb + w.toNat % 2^31 % 2^f32.fb := by
      rw [h2]
      change 2^23 + w.toNat / 2^0 % 2^23 = 2^23 + w.toNat % 2^31 % 2^23
      omega
    have he : ((ibm w 1 8).toNat : Int) - 150 = (w.toNat % 2^31 / 2^f32.fb : Nat) + f32.qmin - 1 := by
      rw [h1]
      change ((w.toNat / 2^23 % 2^8 : Nat) : Int) - 150 = (w.toNat % 2^31 / 2^23 : Nat) + -149 - 1
      omega
    rw [hm, he]
    exact ⟨rfl, Nat.mod_lt _ (by decide), Fmt.normal_of_le (Nat.le_of_not_lt h)⟩

end Sys2Proof.Machine
end

section
/-! Rounding: what `roundAt` does to an exact value, the consecutive images of a format that enclose the value, and the rounding in the
terms of Safety.lean (`RoundsTo`). -/

namespace Sys2Proof.Machine

open Sys2Proof.Safety

/-! ## The decision -/

/-- Whether the direction increases the magnitude of a value of sign `n` that is `rem` past a number of the target whose significand is
odd or not, the next number being `u` past it (10_state R50). -/
def RMode.roundsUp (mode : RMode) (n odd : Bool) (rem u : Nat) : Bool :=
  match mode with
  | .nearest => decide (u < 2 * rem) || (decide (2 * rem = u) && odd)
  | .zero => false
  | .up => decide (rem ≠ 0) && !n
  | .down => decide (rem ≠ 0) && n

theorem RMode.roundsUp_zero (mode : RMode) (n odd : Bool) {u : Nat} (hu : 0 < u) : mode.roundsUp n odd 0 u = false := by
  cases mode <;> simp [RMode.roundsUp, hu.ne]

theorem RMode.roundsUp_mul (mode : RMode) (n odd : Bool) (rem u : Nat) {w : Nat} (hw : 0 < w) :
    mode.roundsUp n odd (rem * w) (u * w) = mode.roundsUp n odd rem u := by
  cases mode <;> simp [RMode.roundsUp, ← Nat.mul_assoc, hw, hw.ne']

/-- `roundAt` divides the value by the unit 2^`q` and decides by the remainder. Value and unit are counted in units of 2^-`g`. -/
theorem roundAt_spec (mode : RMode) (n : Bool) (m : Nat) {e q g : Int} (he : -g ≤ e) (hq : -g ≤ q) :
    ∃ m0 rem : Nat, m * 2^(e + g).toNat = m0 * 2^(q + g).toNat + rem ∧ rem < 2^(q + g).toNat ∧
      roundAt mode n m e q =
        { m := m0 + (mode.roundsUp n (decide (m0 % 2 = 1)) rem (2^(q + g).toNat)).toNat, q := q, inexact := decide (rem ≠ 0),
          up := mode.roundsUp n (decide (m0 % 2 = 1)) rem (2^(q + g).toNat) } := by
  unfold roundAt
  split
  · next h =>
    refine ⟨m * 2^(e - q).toNat, 0, ?_, Nat.two_pow_pos _, ?_⟩
    · rw [Nat.mul_assoc, ← Nat.pow_add, Nat.add_zero]
      congr 2
      omega
    · rw [RMode.roundsUp_zero _ _ _ (Nat.two_pow_pos _)]
      simp
  · next h =>
    have hw := Nat.two_pow_pos (e + g).toNat
    have hu : 2^(q + g).toNat = 2^(q - e).toNat * 2^(e + g).toNat := by
      rw [← Nat.pow_add]
      congr 1
      omega
    refine ⟨m / 2^(q - e).toNat, m % 2^(q - e).toNat * 2^(e + g).toNat, ?_, ?_, ?_⟩
    · rw [hu, ← Nat.mul_assoc, ← Nat.add_mul, Nat.div_add_mod']
    · rw [hu]
      exact Nat.mul_lt_mul_of_pos_right (Nat.mod_lt _ (Nat.two_pow_pos _)) hw
    · rw [hu, RMode.roundsUp_mul _ _ _ _ _ hw]
      have h0 : m % 2^(q - e).toNat * 2^(e + g).toNat = 0 ↔ m % 2^(q - e).toNat = 0 := by simp
      simp only [ne_eq, h0]
      cases mode <;> rfl

/-! ## The enclosing images -/

/-- A value X lies at the magnitude image `mag` or between it and the next one; the least denormal is `c` of the units of X. -/
structure Fmt.Encloses (f : Fmt) (c X mag : Nat) : Prop where
  le : f.units mag * c ≤ X
  lt : X < f.units (mag + 1) * c

/-- Whether the direction takes such a value to the next image. -/
def Fmt.roundsUp (f : Fmt) (mode : RMode) (n : Bool) (c X mag : Nat) : Bool :=
  mode.roundsUp n (decide (mag % 2 = 1)) (X - f.units mag * c) (f.units (mag + 1) * c - f.units mag * c)

/-- A value of the format stays. -/
theorem Fmt.Encloses.roundsUp_of_eq {f : Fmt} {c X mag : Nat} (h : f.Encloses c X mag) (mode : RMode) (n : Bool)
    (hX : X = f.units mag * c) : f.roundsUp mode n c X mag = false := by
  have := h.lt
  rw [Fmt.roundsUp, hX, Nat.sub_self]
  exact RMode.roundsUp_zero _ _ _ (by omega)

/-- A quotient by a unit that stands `b` bits or less below the leading bit has `b` + 1 bits or less. -/
theorem quotient_lt {m m0 k u b : Nat} (h : m0 * 2^u ≤ m * 2^k) (hb : m.log2 + k ≤ b + u) : m0 < 2^(b + 1) := by
  refine Nat.lt_of_mul_lt_mul_right (a := 2^u) (h.trans_lt ?_)
  calc m * 2^k < 2^(m.log2 + 1) * 2^k := Nat.mul_lt_mul_of_pos_right Nat.lt_log2_self (Nat.two_pow_pos _)
    _ ≤ 2^(b + 1) * 2^u := by
      rw [← Nat.pow_add, ← Nat.pow_add]
      exact Nat.pow_le_pow_right two_pos (by omega)

/-- If the unit stands just `b` bits below the leading bit, the quotient has all `b` + 1 bits. -/
theorem le_quotient {m m0 k u b : Nat} (hm : m ≠ 0) (h : m * 2^k < (m0 + 1) * 2^u) (hb : b + u = m.log2 + k) : 2^b ≤ m0 := by
  refine Nat.le_of_lt_succ (Nat.lt_of_mul_lt_mul_right (a := 2^u) (lt_of_le_of_lt ?_ h))
  rw [← Nat.pow_add, hb, Nat.pow_add]
  exact Nat.mul_le_mul_right _ (Nat.log2_self_le hm)

/-- Rounding a value to the format delivers one of the two images that enclose it. -/
theorem packMag_roundFmt (f : Fmt) (mode : RMode) (n : Bool) {m : Nat} {e : Int} {sh : Nat} (hm : m ≠ 0) (hf : f.fb ≠ 0)
    (he : f.qmin - sh ≤ e) :
    ∃ mag, f.Encloses (2^sh) (m * 2^(e - f.qmin + sh).toNat) mag ∧
      f.packMag (roundFmt f mode n m e) = mag + (f.roundsUp mode n (2^sh) (m * 2^(e - f.qmin + sh).toNat) mag).toNat ∧
      (roundFmt f mode n m e).inexact = decide (m * 2^(e - f.qmin + sh).toNat ≠ f.units mag * 2^sh) := by
  unfold roundFmt topExp
  set q := max (e + m.log2 - f.fb) f.qmin with hq
  clear_value q
  obtain ⟨m0, rem, hX, hrem, hr⟩ := roundAt_spec mode n m (e := e) (q := q) (g := sh - f.qmin) (by omega) (by omega)
  rw [show e + (↑sh - f.qmin) = e - f.qmin + sh by omega] at hX
  obtain ⟨t, ht⟩ : ∃ t : Nat, q = f.qmin + t := ⟨(q - f.qmin).toNat, by omega⟩
  rw [show (q + (↑sh - f.qmin)).toNat = t + sh by omega] at hX hrem hr
  rw [hr]
  generalize hXe : m * 2^(e - f.qmin + sh).toNat = X at *
  have hu : 2^(t + sh) = 2^t * 2^sh := Nat.pow_add ..
  -- the quotient has at most the width of the format, and all of it above the denormal grid
  have hlt : m0 < 2^(f.fb + 1) := quotient_lt (m := m) (k := (e - f.qmin + sh).toNat) (u := t + sh) (by omega) (by omega)
  have hge : t = 0 ∨ 2^f.fb ≤ m0 := Classical.or_iff_not_imp_left.mpr fun ht0 =>
    le_quotient (k := (e - f.qmin + sh).toNat) (u := t + sh) hm (by rw [Nat.succ_mul]; omega) (by omega)
  have hlo : f.units (t * 2^f.fb + m0) = m0 * 2^t := Fmt.units_pack hge hlt.le
  have hhi : f.units (t * 2^f.fb + m0 + 1) = m0 * 2^t + 2^t := by
    rw [Nat.add_assoc, Fmt.units_pack (hge.imp_right fun h => h.trans (Nat.le_succ _)) hlt, Nat.succ_mul]
  have hmod : (t * 2^f.fb + m0) % 2 = m0 % 2 := by
    obtain ⟨k, hk⟩ := Nat.exists_eq_succ_of_ne_zero hf
    rw [hk, pow_succ, ← Nat.mul_assoc]
    omega
  rw [hu] at hX hrem
  have hX' : X = m0 * 2^t * 2^sh + rem := by rw [hX, Nat.mul_assoc]
  refine ⟨t * 2^f.fb + m0, ⟨?_, ?_⟩, ?_, ?_⟩
  · rw [hlo]; omega
  · rw [hhi, Nat.add_mul]; omega
  · rw [Fmt.roundsUp, hlo, hhi, Nat.add_mul, hX', Nat.add_sub_cancel_left, Nat.add_sub_cancel_left, hmod, ← hu, Fmt.packMag,
      show (q - f.qmin).toNat = t by omega, Nat.add_assoc]
  · rw [hlo, hX', decide_eq_decide]
    omega

/-! ## The rounding of the statements -/

/-- The format that a statement speaks of, and the width of its least denormal in units of 2^-1074. -/
def targetFmt (single : Bool) : Fmt := if single then f32 else f64
def targetShift (single : Bool) : Nat := if single then 925 else 0

theorem natAbs_of_targets {single : Bool} {c : Int} (h : targets single c) :
    ∃ mag, c.natAbs = (targetFmt single).units mag * 2^targetShift single := by
  cases single
  · obtain ⟨w, -, rfl⟩ : ∃ w, finiteDouble w ∧ Safety.scaled w = c := h
    exact ⟨w.toNat % 2^63, by simp [scaled_eq_units, targetFmt, targetShift]⟩
  · obtain ⟨w, -, rfl⟩ : ∃ w, finiteSingle w ∧ scaledSingle w = c := h
    exact ⟨w.toNat % 2^31, by simp only [scaledSingle_eq_units, natAbs_signedNat, targetFmt, targetShift, if_true]⟩

/-- The significand of a value is even if its image is. -/
theorem evenSignificand_of_even {single : Bool} {r : Int} {mag : Nat} (he : mag % 2 = 0)
    (hr : r.natAbs = (targetFmt single).units mag * 2^targetShift single) : evenSignificand single r := by
  cases single
  · change ∀ w : DWord, finiteDouble w → Safety.scaled w = r → ibit w 63 = false
    rintro w - rfl
    rw [scaled_eq_units, natAbs_signedNat] at hr
    have hw : w.toNat % 2^63 = mag := f64.units_strictMono.injective (by simpa [targetFmt, targetShift] using hr)
    rw [ibit, BitVec.getLsbD, Nat.testBit_zero, decide_eq_false_iff_not]
    omega
  · change ∀ w : Word, finiteSingle w → scaledSingle w = r → ibit w 31 = false
    rintro w - rfl
    simp only [scaledSingle_eq_units, natAbs_signedNat, targetFmt, targetShift, if_true] at hr
    have hw : w.toNat % 2^31 = mag := f32.units_strictMono.injective (Nat.eq_of_mul_eq_mul_right (pow_pos two_pos _) hr)
    rw [ibit, BitVec.getLsbD, Nat.testBit_zero, decide_eq_false_iff_not]
    omega

/-- No value of the format lies between two consecutive images. -/
theorem natAbs_of_targets_or {single : Bool} {c : Int} (h : targets single c) (mag : Nat) :
    c.natAbs ≤ (targetFmt single).units mag * 2^targetShift single ∨
      (targetFmt single).units (mag + 1) * 2^targetShift single ≤ c.natAbs := by
  obtain ⟨k, hk⟩ := natAbs_of_targets h
  rw [hk]
  exact (Nat.lt_or_ge mag k).symm.imp
    (fun h => Nat.mul_le_mul_right _ ((targetFmt single).units_strictMono.monotone h))
    (fun h => Nat.mul_le_mul_right _ ((targetFmt single).units_strictMono.monotone h))

/-- The value `x` / `k` has the magnitude X / `k`, between the multiples `lo` and `hi` of 1 / `k`, no value of the format is between
these two, and `r` is the upper or the lower of them. -/
structure Brackets (single n up : Bool) (k lo hi X : Nat) (x r : Int) : Prop where
  le : lo ≤ X
  lt : X < hi
  value : x = if n then -(X : Int) else X
  result : r * k = if n then -((bif up then hi else lo : Nat) : Int) else (bif up then hi else lo : Nat)
  gap : ∀ c, targets single c → (c * k).natAbs ≤ lo ∨ hi ≤ (c * k).natAbs
  mono : ∀ c d : Int, c < d → c * k < d * k

section
variable {single n up : Bool} {k lo hi X : Nat} {x r : Int} (h : Brackets single n up k lo hi X x r)
include h

theorem Brackets.roundsTo_nearest (hu : if up then hi - lo ≤ 2 * (X - lo) else 2 * (X - lo) ≤ hi - lo)
    (ht : 2 * (X - lo) = hi - lo → evenSignificand single r) : RoundsTo 0 single k x r := by
  obtain ⟨hle, hlt, rfl, hr, hgap, hmono⟩ := h
  refine ⟨fun c hc => ?_, fun c hc hne htie => ht ?_⟩
  · have := hgap c hc
    rw [hr]
    cases n <;> cases up <;> simp at hu ⊢ <;> omega
  · have := hgap c hc
    have := hmono c r
    have := hmono r c
    rw [hr] at *
    cases n <;> cases up <;> simp at * <;> omega

theorem Brackets.roundsTo_zero (hu : up = false) : RoundsTo 1 single k x r := by
  obtain ⟨hle, hlt, rfl, hr, hgap, hmono⟩ := h
  have h0 := hmono 0 r
  have h1 := hmono r 0
  subst hu
  refine ⟨?_, fun hp => ?_, fun hp => ?_, fun c hc hcx => ?_⟩
  · rw [hr]
    cases n <;> simp <;> omega
  · rw [hr] at h0
    cases n <;> simp at * <;> omega
  · rw [hr] at h1
    cases n <;> simp at * <;> omega
  · have := hgap c hc
    rw [hr]
    cases n <;> simp at * <;> omega

theorem Brackets.roundsTo_up (hu : up = (decide (X - lo ≠ 0) && !n)) : RoundsTo 2 single k x r := by
  obtain ⟨hle, hlt, rfl, hr, hgap, hmono⟩ := h
  refine ⟨?_, fun c hc hcx => ?_⟩
  · rw [hr]
    cases n <;> cases up <;> simp at * <;> omega
  · have := hgap c hc
    have := hmono c r
    rw [hr] at this
    cases n <;> cases up <;> simp at * <;> omega

theorem Brackets.roundsTo_down (hu : up = (decide (X - lo ≠ 0) && n)) : RoundsTo 3 single k x r := by
  obtain ⟨hle, hlt, rfl, hr, hgap, hmono⟩ := h
  refine ⟨?_, fun c hc hcx => ?_⟩
  · rw [hr]
    cases n <;> cases up <;> simp at * <;> omega
  · have := hgap c hc
    have := hmono r c
    rw [hr] at this
    cases n <;> cases up <;> simp at * <;> omega

end

/-- Of the two images that enclose X / k, the one that the direction takes is what the statements call the rounded value. -/
theorem roundsTo_of_encloses (rn : BitVec 2) (single n : Bool) {k X mag : Nat} (hk : 0 < k)
    (h : (targetFmt single).Encloses (2^targetShift single * k) X mag) :
    RoundsTo rn single k (signedNat n X) (signedNat n ((targetFmt single).units
      (mag + ((targetFmt single).roundsUp (rmodeOf rn) n (2^targetShift single * k) X mag).toNat) * 2^targetShift single)) := by
  obtain ⟨hle, hlt⟩ := h
  unfold Fmt.roundsUp
  rw [← Nat.mul_assoc] at hle hlt
  rw [← Nat.mul_assoc, ← Nat.mul_assoc]
  generalize hup : RMode.roundsUp _ _ _ _ _ = up
  have hb : Brackets single n up k _ _ X (signedNat n X)
      (signedNat n ((targetFmt single).units (mag + up.toNat) * 2^targetShift single)) :=
    { le := hle
      lt := hlt
      value := rfl
      result := by
        rw [← signedNat_mul]
        cases up <;> rfl
      gap := fun c hc => by
        rw [Int.natAbs_mul, Int.natAbs_natCast]
        exact (natAbs_of_targets_or hc mag).imp (Nat.mul_le_mul_right _) (Nat.mul_le_mul_right _)
      mono := fun c d h => Int.mul_lt_mul_of_pos_right h (by exact_mod_cast hk) }
  have heven : (mag + up.toNat) % 2 = 0 → evenSignificand single
      (signedNat n ((targetFmt single).units (mag + up.toNat) * 2^targetShift single)) :=
    fun h => evenSignificand_of_even h (natAbs_signedNat _ _)
  obtain rfl | rfl | rfl | rfl : rn = 0 ∨ rn = 1 ∨ rn = 2 ∨ rn = 3 := by clear * -; revert rn; decide
  · have hup : (decide (_ < _) || (decide (_ = _) && decide (mag % 2 = 1))) = up := hup
    refine hb.roundsTo_nearest ?_ fun ht => heven ?_
    · cases up <;> simp at hup ⊢ <;> omega
    · cases up <;> simp [ht] at hup ⊢ <;> omega
  · exact hb.roundsTo_zero hup.symm
  · exact hb.roundsTo_up hup.symm
  · exact hb.roundsTo_down hup.symm

end Sys2Proof.Machine
end

section
/-! Comparing two numbers as SoftFloat.lean does: the order of their values, which is that of their images. -/

namespace Sys2Proof.Machine

open Sys2Proof.Safety

theorem signedNat_lt {f : Nat → Nat} (hf : StrictMono f) (h0 : f 0 = 0) {n k : Bool} {x y : Nat} :
    signedNat n (f x) < signedNat k (f y) ↔ signedNat n x < signedNat k y := by
  have hlt := hf.lt_iff_lt (a := x) (b := y)
  have hgt := hf.lt_iff_lt (a := y) (b := x)
  have hx := hf.lt_iff_lt (a := 0) (b := x)
  have hy := hf.lt_iff_lt (a := 0) (b := y)
  rw [h0] at hx hy
  cases n <;> cases k <;> simp [signedNat] <;> omega

/-- The order of values with signs is the order of their images with signs. -/
theorem compare_signedNat {f : Nat → Nat} (hf : StrictMono f) (h0 : f 0 = 0) (n k : Bool) (x y : Nat) :
    compare (signedNat n (f x)) (signedNat k (f y)) = compare (signedNat n x) (signedNat k y) := by
  rcases lt_trichotomy (signedNat n x) (signedNat k y) with h | h | h
  · rw [compare_lt_iff_lt.mpr h, compare_lt_iff_lt.mpr ((signedNat_lt hf h0).mpr h)]
  · rw [compare_eq_iff_eq.mpr h, compare_eq_iff_eq]
    exact le_antisymm (not_lt.mp fun hl => ((signedNat_lt hf h0).mp hl).ne' h) (not_lt.mp fun hl => ((signedNat_lt hf h0).mp hl).ne h)
  · rw [compare_gt_iff_gt.mpr h, compare_gt_iff_gt.mpr ((signedNat_lt hf h0).mpr h)]

/-- Two numbers of one sign, brought to a common exponent. -/
theorem cmpNum_fin (n : Bool) (m1 m2 : Nat) {e1 e2 g : Int} (h1 : g ≤ e1) (h2 : g ≤ e2) :
    cmpNum (.fin n m1 e1) (.fin n m2 e2) =
      compare (signedNat n (m1 * 2^(e1 - g).toNat)) (signedNat n (m2 * 2^(e2 - g).toNat)) := by
  have hw : StrictMono fun x : Nat => x * 2^(min e1 e2 - g).toNat := fun x y h => Nat.mul_lt_mul_of_pos_right h (Nat.two_pow_pos _)
  have hs : decide ((if n then -1 else 1 : Int) < 0) = n := by cases n <;> rfl
  have hp : ∀ (m : Nat) (e : Int), min e1 e2 ≤ e → m * 2^(e - g).toNat = m * 2^(e - min e1 e2).toNat * 2^(min e1 e2 - g).toNat := by
    intro m e h
    rw [Nat.mul_assoc, ← Nat.pow_add]
    congr 2
    omega
  rw [hp m1 e1 (min_le_left ..), hp m2 e2 (min_le_right ..), compare_signedNat hw (Nat.zero_mul _)]
  simp [cmpNum, hs]

/-- Where a number stands among the infinities, the zeros, and the finite numbers of either sign. -/
def Num.rank : Num → Int
  | .nan => 0
  | .inf n => if n then -2 else 2
  | .zero _ => 0
  | .fin n _ _ => if n then -1 else 1

theorem cmpNum_of_rank_ne {a b : Num} (h : a.rank ≠ b.rank) : cmpNum a b = compare a.rank b.rank := by
  cases a <;> cases b <;> exact if_pos h

section
variable {f : Fmt} {top : Nat} {a b : Num} {n k : Bool} {x y : Nat}

theorem Fmt.Normal.pos {m : Nat} {e : Int} (h : f.Normal x m e) : 0 < x := by
  refine Nat.pos_of_ne_zero fun h0 => ?_
  have hu := h.units
  rw [h0, Fmt.units_of_lt (Nat.two_pow_pos _), eq_comm, Nat.mul_eq_zero] at hu
  exact hu.elim (((Nat.two_pow_pos _).trans_le h.le).ne') (Nat.two_pow_pos _).ne'

theorem Num.Reads.rank_cases (h : a.Reads f top n x) :
    (a.rank = 0 ∧ x = 0) ∨ (a.rank = (if n then -1 else 1) ∧ 0 < x ∧ x < top) ∨ (a.rank = (if n then -2 else 2) ∧ x = top) := by
  cases a <;> simp only [Num.Reads] at h
  case zero => exact .inl ⟨rfl, h.2⟩
  case fin =>
    obtain ⟨rfl, hx, hn⟩ := h
    exact .inr (.inl ⟨rfl, hn.pos, hx⟩)
  case inf =>
    obtain ⟨rfl, hx⟩ := h
    exact .inr (.inr ⟨rfl, hx⟩)

theorem Num.Reads.lt_of_rank (htop : 0 < top) (ha : a.Reads f top n x) (hb : b.Reads f top k y) (h : a.rank < b.rank) :
    signedNat n x < signedNat k y := by
  have hx := ha.rank_cases
  have hy := hb.rank_cases
  cases n <;> cases k <;> simp [signedNat] at * <;> omega

/-- The comparison of two numbers is that of their images; a denormal counts as a zero. -/
theorem cmpNum_of_reads (htop : 0 < top) (ha : a.Reads f top n x) (hb : b.Reads f top k y) :
    cmpNum a b = compare (signedNat n x) (signedNat k y) := by
  rcases lt_trichotomy a.rank b.rank with h | h | h
  · rw [cmpNum_of_rank_ne h.ne, compare_lt_iff_lt.mpr h, compare_lt_iff_lt.mpr (ha.lt_of_rank htop hb h)]
  · cases a <;> cases b <;> simp only [Num.Reads] at ha hb
    case fin.fin i _ _ j _ _ =>
      obtain ⟨rfl, hx, hnx⟩ := ha
      obtain ⟨rfl, hy, hny⟩ := hb
      obtain rfl : i = j := by cases i <;> cases j <;> simp [Num.rank] at h ⊢
      rw [cmpNum_fin _ _ _ hnx.grid hny.grid, ← hnx.units, ← hny.units]
      exact compare_signedNat f.units_strictMono (Fmt.units_of_lt (Nat.two_pow_pos _)) ..
    case inf.inf i j =>
      obtain ⟨rfl, rfl⟩ := ha
      obtain ⟨rfl, rfl⟩ := hb
      obtain rfl : i = j := by cases i <;> cases j <;> simp [Num.rank] at h ⊢
      simp [cmpNum]
    case zero.zero =>
      obtain ⟨rfl, rfl⟩ := ha
      obtain ⟨rfl, rfl⟩ := hb
      simp [cmpNum]
    all_goals exact absurd h (by simp only [Num.rank]; split_ifs <;> decide)
  · rw [cmpNum_of_rank_ne h.ne', compare_gt_iff_gt.mpr h, compare_gt_iff_gt.mpr (hb.lt_of_rank htop ha h)]

theorem Num.Reads.abs (h : a.Reads f top n x) : a.abs.Reads f top false x := by
  cases a
  case nan => exact h
  all_goals exact ⟨rfl, h.2⟩

end

/-! ## The order of the operands of an SPU -/

theorem cmpNum_spval (a b : Word) : cmpNum (spval a) (spval b) = compare (extended a) (extended b) := by
  rw [extended_eq_units, extended_eq_units,
    compare_signedNat f32.units_strictMono (Fmt.units_of_lt (Nat.two_pow_pos _))]
  exact cmpNum_of_reads (by decide) (spval_reads a) (spval_reads b)

theorem cmpNum_abs_spval (a b : Word) :
    cmpNum (spval a).abs (spval b).abs = compare ((extended a).natAbs : Int) (extended b).natAbs := by
  rw [extended_eq_units, extended_eq_units, natAbs_signedNat, natAbs_signedNat]
  refine (cmpNum_of_reads (by decide) (spval_reads a).abs (spval_reads b).abs).trans ?_
  exact (compare_signedNat f32.units_strictMono (Fmt.units_of_lt (Nat.two_pow_pos _)) false false _ _).symm

/-- The place of a double in the order of the compares is its image with the denormals as zero (R1535). -/
theorem flushedKey_eq (w : DWord) : flushedKey w = signedNat (decide (f64.signBit ≤ w.toNat)) (f64.flush (w.toNat % f64.signBit)) := by
  have hw := w.isLt
  change (if w.toNat / 2^52 % 2^11 = 0 then 0 else if 2^63 ≤ w.toNat then -((w.toNat - 2^63 : Nat) : Int) else w.toNat) =
    signedNat (decide (2^63 ≤ w.toNat)) (f64.flush (w.toNat % 2^63))
  rcases lt_or_ge (w.toNat % 2^63) (2^52) with h | h
  · rw [if_pos (by omega), Fmt.flush_of_lt (f := f64) h, signedNat_zero]
  · rw [if_neg (by omega), Fmt.flush_of_le (f := f64) h]
    simp only [signedNat, decide_eq_true_eq]
    split <;> omega

theorem dpval_reads64 (w : DWord) (hn : isNan f64 w.toNat = false) :
    (dpval f64 w.toNat).Reads f64 f64.infMag (decide (f64.signBit ≤ w.toNat)) (f64.flush (w.toNat % f64.signBit)) :=
  dpval_reads f64 w.isLt hn (by decide)

section
variable {a b : DWord} (ha : isNan f64 a.toNat = false) (hb : isNan f64 b.toNat = false)
include ha hb

theorem cmpNum_dpval : cmpNum (dpval f64 a.toNat) (dpval f64 b.toNat) = compare (flushedKey a) (flushedKey b) := by
  rw [flushedKey_eq, flushedKey_eq]
  exact cmpNum_of_reads (by decide) (dpval_reads64 a ha) (dpval_reads64 b hb)

theorem cmpNum_abs_dpval :
    cmpNum (dpval f64 a.toNat).abs (dpval f64 b.toNat).abs = compare ((flushedKey a).natAbs : Int) (flushedKey b).natAbs := by
  rw [flushedKey_eq, flushedKey_eq, natAbs_signedNat, natAbs_signedNat]
  exact cmpNum_of_reads (by decide) (dpval_reads64 a ha).abs (dpval_reads64 b hb).abs

end

theorem compare_beq_eq (x y : Int) : (compare x y == .eq) = decide (x = y) := by
  rw [Bool.eq_iff_iff, beq_iff_eq, compare_eq_iff_eq, decide_eq_true_iff]

theorem compare_beq_gt (x y : Int) : (compare x y == .gt) = decide (y < x) := by
  rw [Bool.eq_iff_iff, beq_iff_eq, compare_gt_iff_gt, decide_eq_true_iff]

end Sys2Proof.Machine
end

section
/-! The floating-point instructions of the SPU: the form that they share, a quadword for the destination and flags for FPSCR, and the
frame of each. -/

namespace Sys2Proof.Machine

open Sys2Proof.Safety

/-! ## Elements -/

theorem element_eq_el (len : Nat) (q : QWord) (k : Nat) : element len q k = (el len q k).toNat := by
  rw [el, toNat_ibm, element, Nat.mul_succ, Nat.sub_sub]

theorem sW_eq_el (r : BitVec 7) (k : Nat) (p : Spe) : sW r k p = el 32 (p.get r) k := by
  rw [sW, element_eq_el, BitVec.ofNat_toNat, BitVec.setWidth_eq]

theorem sD_eq_el (r : BitVec 7) (k : Nat) (p : Spe) : sD r k p = el 64 (p.get r) k := by
  rw [sD, element_eq_el, BitVec.ofNat_toNat, BitVec.setWidth_eq]

theorem sU_eq_el (len : Nat) (r : BitVec 7) (k : Nat) (p : Spe) : sU len r k p = (el len (p.get r) k).toNat := by
  rw [sU, element_eq_el]

theorem sS_eq_el (r : BitVec 7) (k : Nat) (p : Spe) : sS 32 r k p = (el 32 (p.get r) k).toInt := by
  rw [sS, signedElement, element_eq_el, BitVec.toInt_eq_toNat_cond]
  split <;> split <;> omega

/-! ## The shared form -/

/-- The destination takes `q`, and FPSCR the flags `fl`, which are sticky. -/
def Spe.deliver (p : Spe) (rt : BitVec 7) (q fl : QWord) : Spe := { p.set rt q with fpscr := p.fpscr ||| fl }

theorem Spe.set_eq_deliver (p : Spe) (rt : BitVec 7) (q : QWord) : p.set rt q = p.deliver rt q 0 := by
  rw [Spe.deliver, BitVec.ofNat_eq_ofNat, BitVec.or_zero]
  rfl

theorem Spe.get_deliver_same (p : Spe) (rt : BitVec 7) (q fl : QWord) : (p.deliver rt q fl).get rt = q :=
  Spe.get_set_same p rt q

theorem Spe.get_deliver_other (p : Spe) {rt r : BitVec 7} (q fl : QWord) (h : rt ≠ r) : (p.deliver rt q fl).get r = p.get r :=
  (Spe.get_set p rt r q).trans (if_neg h)

/-- An update of the moving SPE leaves everything else. -/
theorem onlySpe_modSpe (s : State) (k : Nat) (f : Spe → Spe) : OnlySpe s ((s.drew k).modSpe f) :=
  ⟨rfl, fun n hn => State.spes_modSpe_other (s.drew k) f n hn, fun _ => rfl⟩

/-- An instruction that changes the moving SPE by `f` and goes on, after `k` draws of free values, completes. -/
theorem completesSpu_of_spuNext {i : Instr} {s : State} {rt : Option (BitVec 7)} {m : QWord} {P : State → Prop} {f : Spe → Spe}
    (k : Nat) (he : Machine.exec i s = spuNext (s.drew k) f) (hr : ∀ r, rt ≠ some r → (f s.spe).get r = s.spe.get r)
    (hm : (f s.spe).fpscr &&& ~~~m = s.spe.fpscr &&& ~~~m)
    (hrest : { f s.spe with regs := s.spe.regs, fpscr := s.spe.fpscr } = s.spe)
    (hP : ∀ t : State, t.spe = (f s.spe).advance → P t) : CompletesSpu i s rt m P := by
  have ht : ((s.drew k).modSpe fun p => (f p).advance).spe = (f s.spe).advance := by
    rw [State.spe_modSpe, State.spe_drew]
  refine ⟨_, he, onlySpe_modSpe s k _, ?_, ?_, ?_, ?_, hP _ ht⟩ <;> rw [ht]
  · exact hr
  · exact hm
  · exact congrArg (fun p : Spe => { p with pc := s.spe.pc }) hrest
  · exact (congrArg Spe.nextPc hrest :)

section
variable {i : Instr} {s : State} {rt : BitVec 7} {m : QWord} {P : State → Prop} {f : Spe → Spe}

/-- An instruction of the shared form completes. -/
theorem completesSpu_of_deliver (k : Nat) {q fl : QWord} (he : Machine.exec i s = spuNext (s.drew k) f)
    (hf : f s.spe = s.spe.deliver rt q fl) (hm : fl &&& ~~~m = 0)
    (hP : ∀ t : State, t.spe.get rt = q → t.spe.fpscr = s.spe.fpscr ||| fl → P t) : CompletesSpu i s (some rt) m P := by
  refine completesSpu_of_spuNext k he (fun r hr => ?_) ?_ ?_ fun t ht => hP t ?_ ?_
  · rw [hf, Spe.get_deliver_other _ _ _ (by simpa using hr)]
  · rw [hf]
    change (s.spe.fpscr ||| fl) &&& ~~~m = _
    rw [BitVec.and_comm, BitVec.and_or_distrib_left, BitVec.and_comm _ fl, hm, BitVec.and_comm]
    exact BitVec.or_zero
  · rw [hf]
    rfl
  · rw [ht, hf, Spe.get_advance, Spe.get_deliver_same]
  · rw [ht, hf]
    rfl

/-- An instruction that only writes its destination. -/
theorem completesSpu_of_set (k : Nat) {q : QWord} (he : Machine.exec i s = spuNext (s.drew k) f) (hf : f s.spe = s.spe.set rt q)
    (hP : ∀ t : State, t.spe.get rt = q → P t) : CompletesSpu i s (some rt) m P :=
  completesSpu_of_deliver k he (hf.trans (Spe.set_eq_deliver ..)) BitVec.zero_and fun t hq _ => hP t hq

end

/-! ## Flags -/

theorem orFlags_within {f : Nat → QWord} {m : QWord} {n : Nat} (h : ∀ k, k < n → f k &&& ~~~m = 0) : orFlags f n &&& ~~~m = 0 := by
  induction n with
  | zero => exact BitVec.zero_and
  | succ n ih =>
    rw [orFlags, BitVec.and_comm, BitVec.and_or_distrib_left, BitVec.and_comm _ (f n), h n (Nat.lt_succ_self n),
      BitVec.and_comm, ih fun k hk => h k (hk.trans (Nat.lt_succ_self n))]
    rfl

theorem spFlags_within {k : Nat} (hk : k < 4) (r : SpRes) (b : Bool) : spFlags k r b &&& ~~~spuFpscrMask = 0 := by
  have hm : ∀ k < 4, ∀ j < 3, ibit spuFpscrMask (29 + j + 32 * k) = true := by decide
  unfold spFlags
  rw [setIbit_outside _ _ _ _ (hm k hk 2 (by omega)), setIbit_outside _ _ _ _ (hm k hk 1 (by omega)),
    setIbit_outside _ _ _ _ (hm k hk 0 (by omega))]
  exact BitVec.zero_and

theorem dpFlags_within {j : Nat} (hj : j < 2) (r : DpRes) : dpFlags j r &&& ~~~spuFpscrMask = 0 := by
  have hm : ∀ j < 2, ∀ b < 6, ibit spuFpscrMask (50 + 32 * j + b) = true := by decide
  unfold dpFlags
  rw [setIbit_outside _ _ _ _ (hm j hj 5 (by omega)), setIbit_outside _ _ _ _ (hm j hj 4 (by omega)),
    setIbit_outside _ _ _ _ (hm j hj 3 (by omega)), setIbit_outside _ _ _ _ (hm j hj 2 (by omega)),
    setIbit_outside _ _ _ _ (hm j hj 1 (by omega)), setIbit_outside _ _ (50 + 32 * j) _ (hm j hj 0 (by omega))]
  exact BitVec.zero_and

theorem dbz_within {k : Nat} (hk : k < 4) (b : Bool) : setIbit (0 : QWord) (116 + k) b &&& ~~~spuFpscrMask = 0 := by
  have hm : ∀ k < 4, ibit spuFpscrMask (116 + k) = true := by decide
  rw [setIbit_outside _ _ _ _ (hm k hk)]
  exact BitVec.zero_and

theorem ibit_or {n : Nat} (v w : BitVec n) (k : Nat) : ibit (v ||| w) k = (ibit v k || ibit w k) := BitVec.getLsbD_or ..

theorem ibit_zero {n : Nat} (k : Nat) : ibit 0#n k = false := BitVec.getLsbD_zero

/-- The six flags of a double result in the order of FPSCR. -/
def DpRes.flag (r : DpRes) : Nat → Bool
  | 0 => r.ovf
  | 1 => r.unf
  | 2 => r.inx
  | 3 => r.inv
  | 4 => r.nan
  | 5 => r.denorm
  | _ => false

theorem ibit_orFlags_dp (r : Nat → DpRes) {j b : Nat} (hj : j < 2) (hb : b < 6) :
    ibit (orFlags (fun j => dpFlags j (r j)) 2) (50 + 32 * j + b) = (r j).flag b := by
  interval_cases j <;> interval_cases b <;> simp [orFlags, dpFlags, ibit_or, ibit_setIbit, ibit_zero, DpRes.flag]

theorem ibit_orFlags_dbz (z : Nat → Bool) {k : Nat} (hk : k < 4) :
    ibit (orFlags (fun k => setIbit (0 : QWord) (116 + k) (z k)) 4) (116 + k) = z k := by
  interval_cases k <;> simp [orFlags, ibit_or, ibit_setIbit, ibit_zero]

/-! ## The families -/

section
variable {i : Instr} {s : State} {rt : BitVec 7} {m : QWord} {P : State → Prop} {g : Spe → Spe}

theorem completesSpu_spArith {ops : List QWord} {f : List Num → Calc} (he : Machine.exec i s = spuNext s g)
    (hg : g s.spe = spArith s.spe rt ops f) : CompletesSpu i s (some rt) spuFpscrMask fun _ => True :=
  completesSpu_of_deliver 0 he hg (orFlags_within fun _ hk => spFlags_within hk ..) fun _ _ _ => trivial

/-- A double-precision instruction delivers the image of each slice and or-s its flags into FPSCR. -/
theorem completesSpu_dpWrite {r : Nat → DpRes} (he : Machine.exec i s = spuNext s g) (hg : g s.spe = dpWrite s.spe rt r)
    (hP : ∀ t : State, (∀ j, j < 2 → sD rt j t.spe = BitVec.ofNat 64 (r j).image) →
      (∀ j, j < 2 → ∀ b, b < 6 → ibit t.spe.fpscr (50 + 32 * j + b) = (ibit s.spe.fpscr (50 + 32 * j + b) || (r j).flag b)) → P t) :
    CompletesSpu i s (some rt) spuFpscrMask P := by
  refine completesSpu_of_deliver 0 he hg (orFlags_within fun j hj => dpFlags_within hj _) fun t hq hfl => hP t ?_ ?_
  · exact fun j hj => by rw [sD_eq_el, hq, el_buildEls _ _ _ _ rfl hj]
  · exact fun j hj b hb => by rw [hfl, ibit_or, ibit_orFlags_dp r hj hb]

/-- An estimate instruction delivers the token of each operand and sets DBZ for a zero. -/
theorem completesSpu_spEstimate {ra : BitVec 7} {tok : Word → Word} (he : Machine.exec i s = spuNext s g)
    (hg : g s.spe = spEstimate s.spe rt (s.spe.get ra) tok)
    (hP : ∀ t : State, (∀ k, k < 4 → sW rt k t.spe = tok (sW ra k s.spe)) →
      (∀ k, k < 4 → ibit t.spe.fpscr (116 + k) = (ibit s.spe.fpscr (116 + k) || ibm (sW ra k s.spe) 1 8 == (0 : BitVec 8))) → P t) :
    CompletesSpu i s (some rt) spuFpscrMask P := by
  refine completesSpu_of_deliver 0 he hg (orFlags_within fun k hk => dbz_within hk _) fun t hq hfl => hP t ?_ ?_
  · exact fun k hk => by rw [sW_eq_el, sW_eq_el, hq, el_mapEls _ _ _ _ _ rfl hk]
  · exact fun k hk => by rw [hfl, ibit_or, ibit_orFlags_dbz _ hk, sW_eq_el]

/-- A conversion with a scale in range converts each word; one out of range delivers anything (U62). -/
theorem completesSpu_scaled {ra : BitVec 7} {bias : Nat} {i8 : BitVec 8} {f : Nat → Word → Word}
    (he : Machine.exec i s = Machine.scaled s rt ra bias i8 f)
    (hP : i8.toNat ≤ bias → bias ≤ i8.toNat + 127 → ∀ t : State,
      (∀ k, k < 4 → el 32 (t.spe.get rt) k = f (bias - i8.toNat) (sW ra k s.spe)) → P t)
    (hfree : ¬(i8.toNat ≤ bias ∧ bias ≤ i8.toNat + 127) → ∀ t, P t) : CompletesSpu i s (some rt) m P := by
  unfold Machine.scaled at he
  split at he
  · next h =>
    refine completesSpu_of_set 0 he rfl fun t hq => hP h.1 h.2 t fun k hk => ?_
    rw [hq, el_mapEls _ _ _ _ _ rfl hk, sW_eq_el]
  · next h => exact completesSpu_of_set 1 he rfl fun t _ => hfree h t

end

theorem xcellOnly_powerXCell {s : State} {o : Out State} (h : s.cfg.chip = .powerXCell8i) : xcellOnly s o = o := if_pos h

theorem completesSpu_fscrwr (ra : BitVec 7) (s : State) :
    CompletesSpu (.spuFscrwr ra) s none (-1) fun t => t.spe.fpscr = s.spe.get ra &&& spuFpscrMask := by
  refine completesSpu_of_spuNext 0 rfl (fun _ _ => rfl) ?_ rfl fun t ht => congrArg Spe.fpscr ht
  rw [show ~~~(-1 : QWord) = 0 by decide]
  exact BitVec.and_zero.trans BitVec.and_zero.symm

/-- The frame of every floating-point instruction. -/
theorem completesSpu_of_spuFloat {i : Instr} {rt : Option (BitVec 7)} {m : QWord} {x : Bool} (h : SpuFloat i rt m x) (s : State)
    (hx : x = true → s.cfg.chip = .powerXCell8i) : CompletesSpu i s rt m fun _ => True := by
  cases h with
  | fa | fs | fm | fma | fnms | fms => exact completesSpu_spArith rfl rfl
  | dfa | dfs | dfm | dfma | dfms | dfnms | dfnma | frds | fesd => exact completesSpu_dpWrite rfl rfl fun _ _ _ => trivial
  | frest | frsqest => exact completesSpu_spEstimate rfl rfl fun _ _ _ => trivial
  | fi => exact completesSpu_of_set 4 rfl rfl fun _ _ => trivial
  | csflt => exact completesSpu_scaled (f := fun sc w => fltOfInt sc w.toInt) rfl (fun _ _ _ _ => trivial) fun _ _ => trivial
  | cuflt => exact completesSpu_scaled (f := fun sc w => fltOfInt sc w.toNat) rfl (fun _ _ _ _ => trivial) fun _ _ => trivial
  | cflts | cfltu => exact completesSpu_scaled rfl (fun _ _ _ _ => trivial) fun _ _ => trivial
  | fceq | fcmeq | fcgt | fcmgt => exact completesSpu_of_set 0 rfl rfl fun _ _ => trivial
  | fscrwr ra =>
    obtain ⟨t, he, ho, hr, hf, hs, hp, -⟩ := completesSpu_fscrwr ra s
    exact ⟨t, he, ho, hr, hf, hs, hp, trivial⟩
  | dfceq | dfcmeq | dfcgt | dfcmgt =>
    exact completesSpu_dpWrite (xcellOnly_powerXCell (hx rfl)) rfl fun _ _ _ => trivial
  | dftsv => exact completesSpu_of_set 0 (xcellOnly_powerXCell (hx rfl)) rfl fun _ _ => trivial

/-- An instruction that only the PowerXCell 8i has is invalid on the Cell/B.E. (30_encoding R564, D70). -/
theorem exec_of_spuFloat_cellBe {i : Instr} {rt : Option (BitVec 7)} {m : QWord} (h : SpuFloat i rt m true) {s : State}
    (hc : s.cfg.chip ≠ .powerXCell8i) : Machine.exec i s = s.spuInvalid := by
  cases h <;> exact if_neg hc

theorem spuInvalid_stops (s : State) (hm : ibit (sget 0 s.spe.cells keySpuErrMask) 63 = false) :
    ∃ t, s.spuInvalid = .next t ∧ OnlySpe s t ∧ t.spe = { s.spe with
      running := false, status := (s.spe.status &&& 0xFFFF0000) ||| 0x20, npc := s.spe.pc ||| (if s.spe.ie then 1 else 0) } := by
  refine ⟨s.modSpe fun p => p.stopAt (p.statusWith 0x20) p.pc, ?_, onlySpe_modSpe s 0 _, State.spe_modSpe ..⟩
  unfold State.spuInvalid
  simp only [State.spe_modSpe, Spe.stopAt, hm, Bool.false_eq_true, if_false]

end Sys2Proof.Machine
end

section
/-! The compares, the class test and the conversions to integer of the SPU (48_spu_float R1521, R1523, R1530 to R1539). -/

namespace Sys2Proof.Machine

open Sys2Proof.Safety

/-! ## Single-precision compares -/

/-- A single-precision compare whose relation is `rel` of the values of its operands. -/
theorem completesSpu_spCompare {i : Instr} {s : State} {rt ra rb : BitVec 7} {g : Spe → Spe} {f : Num → Num}
    {ord : Ordering → Bool} (rel : Int → Int → Bool) (he : Machine.exec i s = spuNext s g)
    (hg : g s.spe = spCompare s.spe rt ra rb f ord)
    (hrel : ∀ a b, ord (cmpNum (f (spval a)) (f (spval b))) = rel (extended a) (extended b)) :
    CompletesSpu i s (some rt) 0 fun t => ∀ k, k < 4 →
      sW rt k t.spe = if rel (extended (sW ra k s.spe)) (extended (sW rb k s.spe)) then 0xFFFFFFFF#32 else 0#32 := by
  refine completesSpu_of_set 0 he hg fun t hq k hk => ?_
  rw [sW_eq_el, hq, el_zipEls _ _ _ _ _ _ rfl hk, hrel, sW_eq_el, sW_eq_el]
  rfl

/-- The four single-precision compares: masks by the values of the operands (R1530 to R1533). -/
theorem completesSpu_singleCompares (rt ra rb : BitVec 7) (s : State) :
    let masks (i : Instr) (rel : Int → Int → Bool) : Prop := CompletesSpu i s (some rt) 0 fun t => ∀ k, k < 4 →
      sW rt k t.spe = if rel (extended (sW ra k s.spe)) (extended (sW rb k s.spe)) then 0xFFFFFFFF#32 else 0#32
    masks (.spuFceq rt ra rb) (fun a b => decide (a = b)) ∧ masks (.spuFcgt rt ra rb) (fun a b => decide (b < a)) ∧
    masks (.spuFcmeq rt ra rb) (fun a b => decide (a.natAbs = b.natAbs)) ∧
    masks (.spuFcmgt rt ra rb) (fun a b => decide (b.natAbs < a.natAbs)) := by
  refine ⟨completesSpu_spCompare (fun a b => decide (a = b)) rfl rfl fun a b => ?_,
    completesSpu_spCompare (fun a b => decide (b < a)) rfl rfl fun a b => ?_,
    completesSpu_spCompare (fun a b => decide (a.natAbs = b.natAbs)) rfl rfl fun a b => ?_,
    completesSpu_spCompare (fun a b => decide (b.natAbs < a.natAbs)) rfl rfl fun a b => ?_⟩
  · exact (congrArg (· == .eq) (cmpNum_spval a b)).trans (compare_beq_eq ..)
  · exact (congrArg (· == .gt) (cmpNum_spval a b)).trans (compare_beq_gt ..)
  · rw [cmpNum_abs_spval, compare_beq_eq, decide_eq_decide, Nat.cast_inj]
  · rw [cmpNum_abs_spval, compare_beq_gt, decide_eq_decide, Nat.cast_lt]

/-! ## Double-precision compares -/

/-- A double-precision compare whose relation is `rel` of the places of operands that are no NaNs. -/
theorem completesSpu_dpCompare {i : Instr} {s : State} {rt ra rb : BitVec 7} {g : Spe → Spe} {f : Num → Num}
    {ord : Ordering → Bool} (rel : Int → Int → Bool) (he : Machine.exec i s = spuNext s g)
    (hg : g s.spe = dpCompare s.spe rt ra rb f ord)
    (hrel : ∀ a b : DWord, isNan f64 a.toNat = false → isNan f64 b.toNat = false →
      ord (cmpNum (f (dpval f64 a.toNat)) (f (dpval f64 b.toNat))) = rel (flushedKey a) (flushedKey b)) :
    CompletesSpu i s (some rt) spuFpscrMask fun t => ∀ j, j < 2 →
      let a := sD ra j s.spe
      let b := sD rb j s.spe
      sD rt j t.spe = (if isNan f64 a.toNat || isNan f64 b.toNat || !rel (flushedKey a) (flushedKey b) then 0
        else 0xFFFFFFFFFFFFFFFF) ∧
      ibit t.spe.fpscr (53 + 32 * j) = (ibit s.spe.fpscr (53 + 32 * j) || isSnan f64 a.toNat || isSnan f64 b.toNat) := by
  refine completesSpu_dpWrite he hg fun t himg hfl j hj => ?_
  have hinv := hfl j hj 3 (by omega)
  rw [show 50 + 32 * j + 3 = 53 + 32 * j by omega] at hinv
  dsimp only
  rw [himg j hj, hinv, BitVec.ofNat_toNat, BitVec.setWidth_eq, sD_eq_el, sD_eq_el]
  refine ⟨?_, by rw [Bool.or_assoc]; rfl⟩
  have hr := hrel (el 64 (s.spe.get ra) j) (el 64 (s.spe.get rb) j)
  unfold dw
  generalize el 64 (s.spe.get ra) j = a at *
  generalize el 64 (s.spe.get rb) j = b at *
  cases ha : isNan f64 a.toNat
  · cases hb : isNan f64 b.toNat
    · rw [hr ha hb]
      cases rel (flushedKey a) (flushedKey b) <;> rfl
    · rfl
  · rfl

/-- The four double-precision compares. -/
theorem completesSpu_of_doubleCompare {i : Instr} {rt ra rb : BitVec 7} {rel : Int → Int → Bool} (h : SpuDoubleCompare i rt ra rb rel)
    {s : State} (hc : s.cfg.chip = .powerXCell8i) :
    CompletesSpu i s (some rt) spuFpscrMask fun t => ∀ j, j < 2 →
      let a := sD ra j s.spe
      let b := sD rb j s.spe
      sD rt j t.spe = (if isNan f64 a.toNat || isNan f64 b.toNat || !rel (flushedKey a) (flushedKey b) then 0
        else 0xFFFFFFFFFFFFFFFF) ∧
      ibit t.spe.fpscr (53 + 32 * j) = (ibit s.spe.fpscr (53 + 32 * j) || isSnan f64 a.toNat || isSnan f64 b.toNat) := by
  cases h with
  | dfceq =>
    exact completesSpu_dpCompare (fun a b => decide (a = b)) (xcellOnly_powerXCell hc) rfl fun a b ha hb => by
      exact (congrArg (· == .eq) (cmpNum_dpval ha hb)).trans (compare_beq_eq ..)
  | dfcmeq =>
    exact completesSpu_dpCompare (fun a b => decide (a.natAbs = b.natAbs)) (xcellOnly_powerXCell hc) rfl fun a b ha hb => by
      rw [cmpNum_abs_dpval ha hb, compare_beq_eq, decide_eq_decide, Nat.cast_inj]
  | dfcgt =>
    exact completesSpu_dpCompare (fun a b => decide (b < a)) (xcellOnly_powerXCell hc) rfl fun a b ha hb => by
      exact (congrArg (· == .gt) (cmpNum_dpval ha hb)).trans (compare_beq_gt ..)
  | dfcmgt =>
    exact completesSpu_dpCompare (fun a b => decide (b.natAbs < a.natAbs)) (xcellOnly_powerXCell hc) rfl fun a b ha hb => by
      rw [cmpNum_abs_dpval ha hb, compare_beq_gt, decide_eq_decide, Nat.cast_lt]

/-! ## The class test -/

/-- The number of the class of a double of sign `neg` and magnitude image `mag` in the order of R1539; 7 for a normal number. -/
def classNumber (neg : Bool) (mag : Nat) : Nat :=
  if f64.infMag < mag then 0
  else if mag = f64.infMag then (if neg then 2 else 1)
  else if mag = 0 then (if neg then 4 else 3)
  else if mag < 2^f64.fb then (if neg then 6 else 5)
  else 7

theorem doubleClass_eq (w : DWord) {c : Nat} (hc : c < 7) :
    doubleClass w c = decide (classNumber (decide (2^63 ≤ w.toNat)) (w.toNat % 2^63) = c) := by
  have hw := w.isLt
  have hi : f64.infMag = 0x7FF0000000000000 := rfl
  have hf : 2^f64.fb = 2^52 := rfl
  have hnan : isNan f64 w.toNat = decide (0x7FF0000000000000 < w.toNat % 2^63) := rfl
  unfold classNumber
  simp only [hi, hf, decide_eq_true_eq]
  split_ifs <;> interval_cases c <;> simp [doubleClass, hnan, BitVec.toNat_eq] <;> omega
section
variable (neg : Bool) {mag : Nat}

theorem classNumber_nan (h : f64.infMag < mag) : classNumber neg mag = 0 := if_pos h

theorem classNumber_normal (h : 2^f64.fb ≤ mag) (h' : mag < f64.infMag) : classNumber neg mag = 7 := by
  unfold classNumber
  rw [if_neg h'.not_gt, if_neg h'.ne, if_neg ((Nat.two_pow_pos _).trans_le h).ne', if_neg h.not_gt]

theorem classNumber_denorm (h0 : mag ≠ 0) (h : mag < 2^f64.fb) : classNumber neg mag = if neg then 6 else 5 := by
  have hi : mag < f64.infMag := h.trans (by decide)
  unfold classNumber
  rw [if_neg hi.not_gt, if_neg hi.ne, if_neg h0, if_pos h]

end

theorem dpClass_eq (w : DWord) : dpClass w = 0x40#7 >>> classNumber (decide (2^63 ≤ w.toNat)) (w.toNat % 2^63) := by
  have hnan : isNan f64 w.toNat = decide (f64.infMag < w.toNat % 2^63) := rfl
  have hden : isDenorm f64 w.toNat = (decide (w.toNat % 2^63 < 2^f64.fb) && decide (w.toNat % 2^63 ≠ 0)) := rfl
  have hread : isNan f64 w.toNat = false →
    (dpval f64 w.toNat).Reads f64 f64.infMag (decide (2^63 ≤ w.toNat)) (f64.flush (w.toNat % 2^63)) := dpval_reads64 w
  unfold dpClass
  rw [ibit_zero_eq]
  generalize w.toNat % 2^63 = mag at *
  change (if _ then _ else if _ then (if decide (2^63 ≤ w.toNat) then _ else _) else _) = _
  generalize decide (2^63 ≤ w.toNat) = neg at *
  cases hn : isNan f64 w.toNat with
  | true =>
    rw [classNumber_nan neg (by simpa [hnan] using hn)]
    rfl
  | false =>
    cases hd : isDenorm f64 w.toNat with
    | true =>
      obtain ⟨hlt, h0⟩ : mag < 2^f64.fb ∧ mag ≠ 0 := by simpa [hden] using hd
      rw [classNumber_denorm neg h0 hlt]
      cases neg <;> rfl
    | false =>
      have hx : dpval f64 w.toNat = unpack f64 w.toNat := by rw [dpval, hd]; rfl
      have hz : mag < 2^f64.fb → mag = 0 := by simpa [hden] using hd
      have hmag : f64.flush mag = mag := by
        unfold Fmt.flush
        split <;> simp_all
      specialize hread hn
      rw [hx, hmag] at hread
      cases hu : unpack f64 w.toNat with rw [hu] at hread
      | nan => exact hread.elim
      | inf n =>
        obtain ⟨rfl, rfl⟩ := hread
        cases n <;> rfl
      | zero n =>
        obtain ⟨rfl, rfl⟩ := hread
        cases n <;> rfl
      | fin n m e =>
        obtain ⟨rfl, hlt, hm⟩ := hread
        rw [classNumber_normal n (Nat.le_of_not_lt fun h => hm.pos.ne' (hz h)) hlt]
        rfl

/-- The class bit of `dftsv` stands for the class that its operand is of (R1539). -/
theorem ibit_dpClass (w : DWord) {c : Nat} (hc : c < 7) : ibit (dpClass w) c = doubleClass w c := by
  have hbit : ∀ k < 8, ∀ c < 7, ibit (0x40#7 >>> k) c = decide (k = c) := by decide
  have hlt : classNumber (decide (2^63 ≤ w.toNat)) (w.toNat % 2^63) < 8 := by
    unfold classNumber
    split_ifs <;> decide
  rw [dpClass_eq, doubleClass_eq w hc, hbit _ hlt c hc]

theorem bne_zero_eq_any (x : BitVec 7) : (x != 0) = (List.range 7).any (ibit x) := by
  revert x
  decide

theorem dpClass_and_bne_zero (w : DWord) (i7 : BitVec 7) :
    (dpClass w &&& i7 != 0) = (List.range 7).any fun c => ibit i7 c && doubleClass w c := by
  rw [bne_zero_eq_any]
  rw [Bool.eq_iff_iff, List.any_eq_true, List.any_eq_true]
  refine exists_congr fun c => and_congr_right fun hc => ?_
  rw [ibit_and, ibit_dpClass w (List.mem_range.mp hc), Bool.and_comm]

theorem completesSpu_dftsv (rt ra i7 : BitVec 7) {s : State} (hc : s.cfg.chip = .powerXCell8i) :
    CompletesSpu (.spuDftsv rt ra i7) s (some rt) 0 fun t => ∀ j, j < 2 → sD rt j t.spe =
      if (List.range 7).any fun c => ibit i7 c && doubleClass (sD ra j s.spe) c then 0xFFFFFFFFFFFFFFFF else 0 := by
  refine completesSpu_of_set 0 (xcellOnly_powerXCell hc) rfl fun t hq j hj => ?_
  rw [sD_eq_el, hq, el_mapEls _ _ _ _ _ rfl hj, dpClass_and_bne_zero, sD_eq_el]
  rfl

/-! ## Conversions to integer -/

/-- Rounding toward zero to an integer divides the value in units of 2^-`g`. -/
theorem roundInt_zero (n : Bool) (m : Nat) {e : Int} (g : Nat) (he : -(g : Int) ≤ e) :
    (roundInt .zero n m e).m = m * 2^(e + g).toNat / 2^g := by
  obtain ⟨m0, rem, hX, hrem, hr⟩ := roundAt_spec .zero n m (e := e) (q := 0) (g := g) he (by omega)
  rw [show ((0 : Int) + g).toNat = g by omega] at hX hrem
  rw [roundInt, hr, hX, mul_comm, Nat.mul_add_div (Nat.two_pow_pos g), Nat.div_eq_of_lt hrem]
  rfl

theorem tdiv_signedNat (n : Bool) (a b : Nat) : (signedNat n a).tdiv b = signedNat n (a / b) := by
  cases n
  · exact (Int.ofNat_tdiv a b).symm
  · exact (Int.neg_tdiv ..).trans (congrArg Neg.neg (Int.ofNat_tdiv a b).symm)

/-- A conversion saturates the exact value truncated to an integer. -/
theorem intOfFlt_eq {sat : Int → Word × Bool} (h0 : (sat 0).1 = 0) (sc : Nat) (w : Word) :
    intOfFlt sat sc w = (sat ((extended w * 2^sc).tdiv (2^149))).1 := by
  have hread := spval_reads w
  rw [extended_eq_units]
  unfold intOfFlt
  cases hx : spval w with rw [hx] at hread
  | zero n =>
    obtain ⟨rfl, hm⟩ := hread
    rw [hm, Fmt.units_of_lt (Nat.two_pow_pos _), signedNat_zero, Int.zero_mul, Int.zero_tdiv, h0]
  | fin n m e =>
    obtain ⟨rfl, -, hn⟩ := hread
    have hq : f32.qmin = -149 := rfl
    have hgrid := hn.grid
    rw [hq] at hgrid
    have hval : signedNat (ibit w 0) (m * 2^(e - f32.qmin).toNat) * 2^sc = signedNat (ibit w 0) (m * 2^(e + sc + 149).toNat) := by
      rw [show (e + sc + 149).toNat = (e - f32.qmin).toNat + sc by omega, Nat.pow_add, ← Nat.mul_assoc, signedNat_mul _ _ (2^sc)]
      push_cast
      rfl
    rw [hn.units, hval, show ((2 : Int)^149) = ((2^149 : Nat) : Int) by norm_num, tdiv_signedNat]
    exact congrArg (fun x => (sat (signedNat (ibit w 0) x)).1) (roundInt_zero _ m 149 (by omega))
  | inf n => exact absurd hread.2 ((Fmt.flush_le ..).trans_lt (Nat.mod_lt _ (by decide))).ne
  | nan => exact hread.elim

theorem toInt_ssat (x : Int) : (ssat 32 x).1.toInt = saturated 32 x := by
  unfold ssat saturated
  split
  · rw [max_eq_left (by omega)]
    rfl
  · split
    · rw [min_eq_left (by omega)]
      rfl
    · rw [min_eq_right (by omega), max_eq_right (by omega)]
      exact BitVec.toInt_ofInt_eq_self (by omega) (by omega) (by omega)

theorem toNat_usat (x : Int) : ((usat 32 x).1.toNat : Int) = max 0 (min (2^32 - 1) x) := by
  unfold usat
  split
  · rw [max_eq_left (by omega)]
    rfl
  · split
    · rw [min_eq_left (by omega)]
      rfl
    · rw [min_eq_right (by omega), max_eq_right (by omega), BitVec.toNat_ofInt]
      omega

section
variable (rt ra : BitVec 7) {i8 : BitVec 8} (s : State)

theorem completesSpu_cflts (h : 46 ≤ i8.toNat) (h' : i8.toNat ≤ 173) :
    CompletesSpu (.spuCflts rt ra i8) s (some rt) 0 fun t => ∀ k, k < 4 →
      sS 32 rt k t.spe = saturated 32 ((extended (sW ra k s.spe) * 2^(173 - i8.toNat)).tdiv (2^149)) := by
  refine completesSpu_scaled rfl (fun _ _ t ht k hk => ?_) fun hn => absurd ⟨h', by omega⟩ hn
  rw [sS_eq_el, ht k hk, intOfFlt_eq rfl, toInt_ssat]

theorem completesSpu_cfltu (h : 46 ≤ i8.toNat) (h' : i8.toNat ≤ 173) :
    CompletesSpu (.spuCfltu rt ra i8) s (some rt) 0 fun t => ∀ k, k < 4 →
      sU 32 rt k t.spe = max 0 (min (2^32 - 1) ((extended (sW ra k s.spe) * 2^(173 - i8.toNat)).tdiv (2^149))) := by
  refine completesSpu_scaled rfl (fun _ _ t ht k hk => ?_) fun hn => absurd ⟨h', by omega⟩ hn
  rw [sU_eq_el, ht k hk, intOfFlt_eq rfl, toNat_usat]

end

end Sys2Proof.Machine
end

section
/-! `fesd` and `frds`, the conversions between single and double format (48_spu_float R1525, R1526). -/

namespace Sys2Proof.Machine

open Sys2Proof.Safety

/-! ## Rounding of doubles and singles -/

/-- A value of the format is not changed by rounding to it. -/
theorem packMag_roundFmt_exact (f : Fmt) (mode : RMode) (n : Bool) {m mag : Nat} {e : Int} (hm : m ≠ 0) (hf : f.fb ≠ 0)
    (he : f.qmin ≤ e) (h : f.units mag = m * 2^(e - f.qmin).toNat) : f.packMag (roundFmt f mode n m e) = mag := by
  obtain ⟨mag', henc, hp, -⟩ := packMag_roundFmt f mode n (sh := 0) hm hf (by simpa using he)
  rw [Nat.cast_zero, add_zero, ← h] at henc hp
  have hle := henc.le
  have hlt := henc.lt
  rw [pow_zero, Nat.mul_one] at hle hlt
  obtain rfl : mag' = mag :=
    le_antisymm (f.units_strictMono.le_iff_le.mp hle) (Nat.le_of_lt_succ (f.units_strictMono.lt_iff_lt.mp hlt))
  rw [hp, henc.roundsUp_of_eq mode n (Nat.mul_one _).symm]
  rfl

theorem ieeeRound_of_lt {f : Fmt} {mode : RMode} {n : Bool} {m : Nat} {e : Int} (h : f.packMag (roundFmt f mode n m e) < f.infMag) :
    (ieeeRound f mode n m e).overflow = false ∧
      (ieeeRound f mode n m e).image = f.image n (f.packMag (roundFmt f mode n m e)) := by
  unfold ieeeRound
  simp only [if_neg h.not_ge, and_self]

theorem ieeeRound_of_le {f : Fmt} {mode : RMode} {n : Bool} {m : Nat} {e : Int} (h : f.infMag ≤ f.packMag (roundFmt f mode n m e)) :
    (ieeeRound f mode n m e).overflow = true := by
  unfold ieeeRound
  simp only [if_pos h]

/-- The leading bit of a value stands below bit `b` just if the value is less than 2^`b`. -/
theorem topExp_lt_iff {m : Nat} {e b : Int} {g : Nat} (hm : m ≠ 0) (he : -(g : Int) ≤ e) (hb : -(g : Int) ≤ b) :
    topExp m e < b ↔ m * 2^(e + g).toNat < 2^(b + g).toNat := by
  unfold topExp
  constructor
  · intro h
    calc m * 2^(e + g).toNat < 2^(m.log2 + 1) * 2^(e + g).toNat := Nat.mul_lt_mul_of_pos_right Nat.lt_log2_self (Nat.two_pow_pos _)
      _ ≤ 2^(b + g).toNat := by
        rw [← Nat.pow_add]
        exact Nat.pow_le_pow_right two_pos (by omega)
  · intro h
    have : 2^(m.log2 + (e + g).toNat) < 2^(b + g).toNat := by
      rw [Nat.pow_add]
      exact (Nat.mul_le_mul_right _ (Nat.log2_self_le hm)).trans_lt h
    have := (Nat.pow_lt_pow_iff_right (by decide : 1 < 2)).mp this
    omega

theorem dpval_of_isNan (f : Fmt) {w : Nat} (h : isNan f w = true) (he : 2 ≤ 2^f.eb) : dpval f w = .nan := by
  obtain ⟨hd, hr⟩ := mag_fields f w
  have hB := Nat.two_pow_pos f.fb
  have hlt : f.infMag < w % f.signBit := by simpa [isNan] using h
  have hE : w % f.signBit < 2^f.eb * 2^f.fb := by
    rw [← Nat.pow_add]
    exact Nat.mod_lt _ (Nat.two_pow_pos _)
  have hmag := Nat.div_add_mod (w % f.signBit) (2^f.fb)
  have hx : w % f.signBit / 2^f.fb = 2^f.eb - 1 := by
    refine le_antisymm (Nat.le_sub_one_of_lt ((Nat.div_lt_iff_lt_mul hB).mpr hE)) ((Nat.le_div_iff_mul_le hB).mpr hlt.le)
  rw [hx, mul_comm] at hmag
  have hr0 : w % f.signBit % 2^f.fb ≠ 0 := fun h0 => by
    rw [h0] at hmag
    exact hlt.ne hmag
  have hden : isDenorm f w = false := by
    rw [isDenorm, Bool.and_eq_false_imp, decide_eq_true_iff]
    intro hs
    rw [Nat.div_eq_of_lt hs] at hx
    omega
  rw [dpval, hden, unpack]
  simp only [Bool.false_eq_true, if_false, hd, hr, hx, if_true, hr0]

theorem dpval_reads32 (w : Word) (hn : isNan f32 w.toNat = false) :
    (dpval f32 w.toNat).Reads f32 f32.infMag (ibit w 0) (f32.flush (w.toNat % 2^31)) := by
  rw [ibit_zero_eq]
  exact dpval_reads f32 w.isLt hn (by decide)

/-! ## `fesd` -/

section
variable {x a b k : Nat}

theorem two_pow_mul_le_mul {c : Nat} (h : a + b ≤ c + k) : 2^a * 2^b ≤ 2^c * 2^k := by
  rw [← Nat.pow_add, ← Nat.pow_add]
  exact Nat.pow_le_pow_right two_pos h

theorem two_pow_mul_le (h : a + b ≤ k) : 2^a * 2^b ≤ 2^k := by
  rw [← Nat.pow_add]
  exact Nat.pow_le_pow_right two_pos h

theorem lt_two_pow_mul (hx : x < 2^k) (h : k ≤ a + b) : x < 2^a * 2^b := by
  rw [← Nat.pow_add]
  exact hx.trans_le (Nat.pow_le_pow_right two_pos h)

theorem two_pow_mul_eq (h : a + b = k) : 2^a * 2^b = 2^k := by
  rw [← h, Nat.pow_add]

end

/-- The image of the infinity, read as a number. -/
theorem Fmt.units_infMag (f : Fmt) (he : 2 ≤ 2^f.eb) : f.units f.infMag = 2^(f.fb + (2^f.eb - 2)) := by
  have h := Fmt.units_pack (f := f) (t := 2^f.eb - 2) (m := 2^f.fb) (.inr le_rfl) (Nat.pow_le_pow_right two_pos (Nat.le_succ _))
  rw [← Nat.succ_mul, ← Nat.pow_add] at h
  rwa [Fmt.infMag, show 2^f.eb - 1 = (2^f.eb - 2).succ by omega]

/-- Every finite single is less than the infinity of double format. -/
theorem units_lt_infMag64 {mag : Nat} (h : mag < f32.infMag) : f32.units mag * 2^925 < f64.units f64.infMag := by
  have h1 := f32.units_strictMono h
  rw [f32.units_infMag (by decide)] at h1
  rw [f64.units_infMag (by decide)]
  have hc : 0 < 2^925 := pow_pos two_pos _
  calc f32.units mag * 2^925 < 2^(f32.fb + (2^f32.eb - 2)) * 2^925 := Nat.mul_lt_mul_of_pos_right h1 hc
    _ ≤ 2^(f64.fb + (2^f64.eb - 2)) := two_pow_mul_le (by decide)

/-- The image of a result without flags, for an image that the kernel is not to evaluate. -/
theorem DpRes.image_mk (x : Nat) : ({ image := x } : DpRes).image = x := rfl

section
variable {w : Nat} {n : Bool}

theorem fesdOf_image_of_zero (h : dpval f32 w = .zero n) : (fesdOf w).image = f64.image n 0 := by
  rw [fesdOf, h]

theorem fesdOf_image_of_fin {m : Nat} {e : Int} (h : dpval f32 w = .fin n m e) :
    (fesdOf w).image = (ieeeRound f64 .nearest n m e).image := by
  rw [← DpRes.image_mk (ieeeRound f64 .nearest n m e).image, fesdOf, h]

theorem fesdOf_image_of_inf (h : dpval f32 w = .inf n) : (fesdOf w).image = f64.image n f64.infMag := by
  rw [fesdOf, h]

end

theorem fesdOf_nan {a : Word} (h : isNan f32 a.toNat = true) : fesdOf a.toNat = { image := dpNan, nan := true } := by
  rw [fesdOf, dpval_of_isNan f32 h (by decide)]

/-- A finite single that is no denormal has the same value as a double. -/
theorem exists_double_of_normal {mag m : Nat} {e : Int} (n : Bool) (h : f32.Normal mag m e) (hlt : mag < f32.infMag) :
    ∃ mag', mag' < f64.infMag ∧ (ieeeRound f64 .nearest n m e).image = f64.image n mag' ∧ f64.units mag' = f32.units mag * 2^925 := by
  have hle : 2^23 ≤ m := h.le
  have hm : m < 2^24 := h.lt
  have hgrid : -149 ≤ e := h.grid
  have hu : f64.units ((e + 1045).toNat * 2^f64.fb + m * 2^29) = m * 2^(e - f64.qmin).toNat := by
    rw [Fmt.units_pack (.inr (show 2^52 ≤ m * 2^29 by omega)) (show m * 2^29 ≤ 2^53 by omega), Nat.mul_assoc, ← Nat.pow_add,
      show f64.qmin = -1074 from rfl]
    congr 2
    omega
  have hs : m * 2^(e - f64.qmin).toNat = f32.units mag * 2^925 := by
    rw [h.units, Nat.mul_assoc, ← Nat.pow_add, show f64.qmin = -1074 from rfl, show f32.qmin = -149 from rfl]
    congr 2
    omega
  have hfin : (e + 1045).toNat * 2^f64.fb + m * 2^29 < f64.infMag := by
    refine f64.units_strictMono.lt_iff_lt.mp ?_
    rw [hu, hs]
    exact units_lt_infMag64 hlt
  have hp := packMag_roundFmt_exact f64 .nearest n (show m ≠ 0 by omega) (by decide) (show -1074 ≤ e by omega) hu
  refine ⟨_, hfin, ?_, hu.trans hs⟩
  rw [(ieeeRound_of_lt (hp ▸ hfin)).2, hp]

theorem isNan_f32_of_le {a : Word} (h : a.toNat % 2^31 ≤ f32.infMag) : isNan f32 a.toNat = false := decide_eq_false h.not_gt

theorem fesdOf_inf {a : Word} (h : a.toNat % 2^31 = 0x7F800000) :
    BitVec.ofNat 64 (fesdOf a.toNat).image = ibm a 0 1 ++ 0x7FF#11 ++ 0#52 := by
  have hi : a.toNat % 2^31 = f32.infMag := h
  have hread := dpval_reads32 a (isNan_f32_of_le hi.le)
  rw [hi, Fmt.flush_of_le (by decide)] at hread
  cases hx : dpval f32 a.toNat with rw [hx] at hread
  | nan => exact hread.elim
  | zero n => exact absurd hread.2 (by decide)
  | fin n m e =>
    obtain ⟨-, hlt, -⟩ := hread
    exact absurd hlt (lt_irrefl _)
  | inf n =>
    obtain ⟨rfl, -⟩ := hread
    have hsign : ibm a 0 1 = BitVec.ofBool (ibit a 0) := BitVec.eq_of_toNat_eq <| by
      have ha := a.isLt
      rw [toNat_ibm, ibit_zero_eq, BitVec.toNat_ofBool]
      rcases lt_or_ge a.toNat (2^31) with hs | hs
      · rw [decide_eq_false (by omega), Bool.toNat_false]
        omega
      · rw [decide_eq_true (by omega), Bool.toNat_true]
        omega
    rw [fesdOf_image_of_inf hx, hsign]
    cases ibit a 0 <;> rfl

/-- A finite single that is no denormal has the same value as a double; a denormal gives a zero (R1526). -/
theorem fesdOf_finite {a : Word} (h : finiteSingle a) :
    ∃ mag, mag < f64.infMag ∧ (fesdOf a.toNat).image = f64.image (ibit a 0) mag ∧
      f64.units mag = f32.units (f32.flush (a.toNat % 2^31)) * 2^925 := by
  rw [finiteSingle_iff] at h
  have hread := dpval_reads32 a (isNan_f32_of_le h.le)
  cases hx : dpval f32 a.toNat with rw [hx] at hread
  | nan => exact hread.elim
  | inf n => exact absurd hread.2 ((Fmt.flush_le ..).trans_lt h).ne
  | zero n =>
    obtain ⟨rfl, hm⟩ := hread
    refine ⟨0, by decide, fesdOf_image_of_zero hx, ?_⟩
    rw [hm, Fmt.units_of_lt (Nat.two_pow_pos _), Fmt.units_of_lt (Nat.two_pow_pos _), Nat.zero_mul]
  | fin n m e =>
    obtain ⟨rfl, hlt, hn⟩ := hread
    rw [fesdOf_image_of_fin hx]
    exact exists_double_of_normal _ hn hlt

/-- `fesd` delivers the value of its operand. -/
theorem completesSpu_fesd (rt ra : BitVec 7) (s : State) :
    CompletesSpu (.spuFesd rt ra) s (some rt) spuFpscrMask (fun t => ∀ j, j < 2 →
      let a := sW ra (2 * j) s.spe
      let d := sD rt j t.spe
      (isNan f32 a.toNat = true → d = 0x7FF8000000000000 ∧ ibit t.spe.fpscr (54 + 32 * j) = true) ∧
      (a.toNat % 2^31 = 0x7F800000 → d = ibm a 0 1 ++ 0x7FF#11 ++ 0#52) ∧
      (finiteSingle a → finiteDouble d ∧ ibit d 0 = ibit a 0 ∧
        Safety.scaled d = if a.toNat / 2^23 % 2^8 = 0 then 0 else scaledSingle a)) := by
  refine completesSpu_dpWrite rfl rfl fun t himg hfl j hj => ?_
  have hnan := hfl j hj 4 (by omega)
  rw [show 50 + 32 * j + 4 = 54 + 32 * j by omega] at hnan
  dsimp only
  rw [himg j hj, hnan, ← sW_eq_el]
  generalize sW ra (2 * j) s.spe = a
  refine ⟨fun h => ?_, fesdOf_inf, fun h => ?_⟩
  · rw [fesdOf_nan h]
    exact ⟨rfl, Bool.or_true _⟩
  · obtain ⟨mag, hlt, himage, hu⟩ := fesdOf_finite h
    have h63 : mag < 2^63 := hlt.trans (by decide)
    rw [himage, finiteDouble_iff, scaled_eq_units, mag_image64 _ h63, ibit_zero_image64 _ h63, hu, scaledSingle_eq_units]
    refine ⟨hlt, rfl, ?_⟩
    split
    · next h0 =>
      rw [Fmt.flush_of_lt (f := f32) (show a.toNat % 2^31 < 2^23 by omega), Fmt.units_of_lt (Nat.two_pow_pos _), Nat.zero_mul,
        signedNat_zero]
    · next h0 => rw [Fmt.flush_of_le (f := f32) (show 2^23 ≤ a.toNat % 2^31 by omega)]

end Sys2Proof.Machine
end

section
/-! `frds`, the rounding of a double to single format (48_spu_float R1525). -/

namespace Sys2Proof.Machine

open Sys2Proof.Safety

/-! ## The branches of `frdsOf` -/

section
variable {f : Fmt} {w q : Nat} {r : DpRes}

theorem dpFinish_of_nan {inv : Bool} (h : isNan f w = true) : (dpFinish f [w] q inv r).image = q := by
  simp [dpFinish, h]

theorem dpFinish_image (h : isNan f w = false) : (dpFinish f [w] q false r).image = r.image := by
  simp [dpFinish, h]

theorem dpFinish_ovf (h : isNan f w = false) : (dpFinish f [w] q false r).ovf = r.ovf := by
  simp [dpFinish, h]

end

section
variable {mode : RMode} {w : Nat} {n : Bool} {m : Nat} {e : Int}

theorem frdsOf_image_of_nan (h : isNan f64 w = true) : (frdsOf mode w).image = 0x7FC00000 := dpFinish_of_nan h

theorem frdsOf_image_of_zero (hn : isNan f64 w = false) (h : dpval f64 w = .zero n) :
    (frdsOf mode w).image = f32.image n 0 := by
  rw [frdsOf, dpFinish_image hn, h]

theorem frdsOf_image_of_inf (hn : isNan f64 w = false) (h : dpval f64 w = .inf n) :
    (frdsOf mode w).image = f32.image n f32.infMag := by
  rw [frdsOf, dpFinish_image hn, h]

theorem frdsOf_image_of_tiny (hn : isNan f64 w = false) (h : dpval f64 w = .fin n m e) (ht : f32.tiny m e = true) :
    (frdsOf mode w).image = f32.image n 0 := by
  rw [frdsOf, dpFinish_image hn, h]
  simp only [ht, if_true]

section
variable (hn : isNan f64 w = false) (h : dpval f64 w = .fin n m e) (ht : f32.tiny m e = false)
include hn h ht

theorem frdsOf_of_overflow (ho : (ieeeRound f32 mode n m e).overflow = true) :
    (frdsOf mode w).image = f32.image n f32.infMag ∧ (frdsOf mode w).ovf = true := by
  rw [frdsOf, dpFinish_image hn, dpFinish_ovf hn, h]
  simp only [ht, ho, Bool.false_eq_true, if_false, if_true, and_self]

theorem frdsOf_image_of_fin {r : IeeeResult} (hr : ieeeRound f32 mode n m e = r) (ho : r.overflow = false) :
    (frdsOf mode w).image = r.image := by
  rw [frdsOf, dpFinish_image hn, h]
  simp only [ht, hr, ho, Bool.false_eq_true, if_false]

end

end

/-! ## The single that a double gives -/

/-- What `frds` delivers for a double of sign `n` and magnitude K that is no NaN, in units of which the least denormal of single
format has `c`: zero below the normal numbers of single format, the infinity past its finite ones, and one of the two singles that
enclose the value otherwise. -/
structure GivesSingle (mode : RMode) (n : Bool) (c K : Nat) (r : DpRes) (mag : Nat) : Prop where
  image : r.image = f32.image n mag
  le : mag ≤ f32.infMag
  small : K < f32.units (2^23) * c → mag = 0
  large : f32.units f32.infMag * c ≤ K → mag = f32.infMag
  rounds : f32.units (2^23) * c ≤ K → K ≤ f32.units (f32.infMag - 1) * c → mag < f32.infMag ∧
    ∃ lo, f32.Encloses c K lo ∧ mag = lo + (f32.roundsUp mode n c K lo).toNat

theorem units_two_pow_23 : f32.units (2^23) = 2^23 :=
  (Fmt.units_pack (f := f32) (t := 0) (m := 2^23) (.inl rfl) (by decide)).trans (Nat.mul_one _)

/-- A number that is tiny before rounding is below the normal numbers of single format. -/
theorem tiny_iff {m : Nat} {e : Int} (hm : m ≠ 0) (he : -1074 ≤ e) :
    f32.tiny m e = true ↔ m * 2^(e + 1074).toNat < f32.units (2^23) * 2^925 := by
  rw [Fmt.tiny, decide_eq_true_iff, units_two_pow_23]
  rw [two_pow_mul_eq (a := 23) (b := 925) (k := ((1 - f32.bias) + (1074 : Nat)).toNat) rfl]
  exact topExp_lt_iff (g := 1074) hm he (by decide)

/-- A normal double that is rounded to single format. -/
theorem GivesSingle.of_normal {mode : RMode} {d mag64 m : Nat} {n : Bool} {e : Int} (hnan : isNan f64 d = false)
    (hx : dpval f64 d = .fin n m e) (h : f64.Normal mag64 m e) :
    ∃ mag, GivesSingle mode n (2^925) (f64.units mag64) (frdsOf mode d) mag ∧
      (f32.units f32.infMag * 2^925 ≤ f64.units mag64 → (frdsOf mode d).ovf = true) := by
  have hm : m ≠ 0 := ((Nat.two_pow_pos _).trans_le h.le).ne'
  have hgrid : -1074 ≤ e := h.grid
  have htiny := tiny_iff hm hgrid
  have hmono := f32.units_strictMono.monotone
  rw [h.units, show f64.qmin = -1074 from rfl, show e - (-1074) = e + 1074 by omega]
  have hc : 0 < 2^925 := pow_pos two_pos _
  obtain ⟨lo, henc, hp, -⟩ := packMag_roundFmt f32 mode n (sh := 925) hm (by decide) (show -149 - 925 ≤ e by omega)
  rw [show e - f32.qmin + (925 : Nat) = e + 1074 by rw [show f32.qmin = -149 from rfl]; omega] at henc hp
  generalize m * 2^(e + 1074).toNat = K at *
  generalize 2^925 = c at *
  have hnorm : f32.units (2^23) * c ≤ f32.units f32.infMag * c := Nat.mul_le_mul_right _ (hmono (by decide))
  cases ht : f32.tiny m e with
  | true =>
    have hK := htiny.mp ht
    exact ⟨0, ⟨frdsOf_image_of_tiny hnan hx ht, Nat.zero_le _, fun _ => rfl, fun h => absurd (hK.trans_le hnorm) h.not_gt,
      fun h => absurd hK h.not_gt⟩, fun h => absurd (hK.trans_le hnorm) h.not_gt⟩
  | false =>
    have hK : ¬ K < f32.units (2^23) * c := fun hK => by simp [htiny.mpr hK] at ht
    rcases lt_or_ge (f32.packMag (roundFmt f32 mode n m e)) f32.infMag with hlt | hge
    · obtain ⟨ho, himg⟩ := ieeeRound_of_lt hlt
      have hbelow : ¬ f32.units f32.infMag * c ≤ K := fun hl => by
        have := f32.units_strictMono.lt_iff_lt.mp (Nat.lt_of_mul_lt_mul_right (hl.trans_lt henc.lt))
        omega
      exact ⟨_, ⟨(frdsOf_image_of_fin hnan hx ht rfl ho).trans himg, hlt.le, fun h => absurd h hK, fun h => absurd h hbelow,
        fun _ _ => ⟨hlt, lo, henc, hp⟩⟩, fun h => absurd h hbelow⟩
    · obtain ⟨himg, hovf⟩ := frdsOf_of_overflow hnan hx ht (ieeeRound_of_le hge)
      have habove : ¬ K ≤ f32.units (f32.infMag - 1) * c := fun hl => by
        have hlo := f32.units_strictMono.le_iff_le.mp (Nat.le_of_mul_le_mul_right (henc.le.trans hl) hc)
        have hup := Bool.toNat_le (f32.roundsUp mode n c K lo)
        have hi : 0 < f32.infMag := by decide
        obtain rfl : lo = f32.infMag - 1 := by omega
        rw [henc.roundsUp_of_eq mode n (le_antisymm hl henc.le), Bool.toNat_false] at hp
        omega
      exact ⟨_, ⟨himg, le_rfl, fun h => absurd h hK, fun _ => rfl, fun _ h => absurd h habove⟩, fun _ => hovf⟩

/-- What `frds` delivers for every double that is no NaN. -/
theorem exists_givesSingle (mode : RMode) {d : DWord} (hnan : isNan f64 d.toNat = false) :
    ∃ mag, GivesSingle mode (ibit d 0) (2^925) (f64.units (d.toNat % 2^63)) (frdsOf mode d.toNat) mag ∧
      (finiteDouble d → f32.units f32.infMag * 2^925 ≤ f64.units (d.toNat % 2^63) → (frdsOf mode d.toNat).ovf = true) := by
  have hread : (dpval f64 d.toNat).Reads f64 f64.infMag (ibit d 0) (f64.flush (d.toNat % 2^63)) := by
    rw [ibit_zero_eq]
    exact dpval_reads64 d hnan
  have hmono := f32.units_strictMono.monotone
  rw [finiteDouble_iff]
  have hlarge : ∀ {mag}, mag < f32.infMag → f32.units mag * 2^925 < f64.units f64.infMag := units_lt_infMag64
  have hone : ∀ {mag}, mag < 2^52 → f64.units mag < f32.units (2^23) * 2^925 := fun h => by
    rw [Fmt.units_of_lt (f := f64) h, units_two_pow_23]
    exact lt_two_pow_mul h (by decide)
  generalize d.toNat % 2^63 = mag64 at *
  have hc : 0 < 2^925 := pow_pos two_pos _
  cases hx : dpval f64 d.toNat with rw [hx] at hread
  | nan => exact hread.elim
  | zero n =>
    obtain ⟨rfl, hz⟩ := hread
    have hlt : mag64 < 2^52 := by
      by_contra h
      rw [Fmt.flush_of_le (f := f64) (Nat.le_of_not_lt h)] at hz
      omega
    have hsmall := hone hlt
    generalize 2^925 = c at *
    have hnorm : f32.units (2^23) * c ≤ f32.units f32.infMag * c := Nat.mul_le_mul_right _ (hmono (by decide))
    exact ⟨0, ⟨frdsOf_image_of_zero hnan hx, Nat.zero_le _, fun _ => rfl, fun h => absurd (hsmall.trans_le hnorm) h.not_gt,
      fun h => absurd hsmall h.not_gt⟩, fun _ h => absurd (hsmall.trans_le hnorm) h.not_gt⟩
  | inf n =>
    obtain ⟨rfl, hz⟩ := hread
    have hmag : mag64 = f64.infMag := by
      unfold Fmt.flush at hz
      split at hz
      · exact absurd hz (by decide)
      · exact hz
    subst hmag
    refine ⟨_, ⟨frdsOf_image_of_inf hnan hx, le_rfl, fun h => absurd h (hlarge (by decide)).not_gt, fun _ => rfl,
      fun _ h => absurd h (hlarge (by decide)).not_ge⟩, fun h => absurd h (lt_irrefl _)⟩
  | fin n m e =>
    obtain ⟨rfl, hlt, hn⟩ := hread
    have hmag : f64.flush mag64 = mag64 := by
      unfold Fmt.flush
      split
      · next h => exact absurd (by rw [Fmt.flush_of_lt h]) hn.pos.ne'
      · rfl
    rw [hmag] at hn
    obtain ⟨mag, hg, ho⟩ := GivesSingle.of_normal hnan hx hn
    exact ⟨mag, hg, fun _ => ho⟩

/-! ## The instruction -/

/-- The least normal single, the infinity and the greatest single, in units of 2^-1074. -/
theorem minNormal_single : f32.units (2^23) * 2^925 = 2^948 := by
  rw [units_two_pow_23]
  exact two_pow_mul_eq (by decide)

theorem infinity_single : f32.units f32.infMag * 2^925 = 2^1202 := by
  rw [f32.units_infMag (by decide)]
  exact two_pow_mul_eq (by decide)

theorem greatest_single : f32.units (f32.infMag - 1) * 2^925 = (2^24 - 1) * 2^1178 := by
  have h : f32.units (f32.infMag - 1) = (2^24 - 1) * 2^253 :=
    Fmt.units_pack (f := f32) (t := 253) (m := 2^24 - 1) (.inr (by decide)) (by decide)
  rw [h, Nat.mul_assoc]
  exact congrArg ((2^24 - 1) * ·) (two_pow_mul_eq (by decide))

/-- The words of a doubleword whose low word is 0. -/
theorem sW_of_sD {r : BitVec 7} {p : Spe} {j x : Nat} (hj : j < 2) (h : sD r j p = BitVec.ofNat 64 (x * 2^32)) :
    sW r (2 * j) p = BitVec.ofNat 32 x ∧ sW r (2 * j + 1) p = 0 := by
  rw [sD_eq_el] at h
  rw [sW_eq_el, sW_eq_el, BitVec.toNat_eq, BitVec.toNat_eq, el, el, toNat_ibm, toNat_ibm]
  have h' := congrArg BitVec.toNat h
  rw [el, toNat_ibm, BitVec.toNat_ofNat] at h'
  rw [BitVec.toNat_ofNat, show (0 : Word).toNat = 0 from rfl]
  obtain rfl | rfl : j = 0 ∨ j = 1 := by omega
  · omega
  · omega

/-- What `frds` delivers for an operand that is no NaN, in the terms of the statement. -/
theorem frdsOf_value (rn : BitVec 2) {d : DWord} (hnan : isNan f64 d.toNat = false) {a : Word}
    (ha : a = BitVec.ofNat 32 (frdsOf (rmodeOf rn) d.toNat).image) :
    ibit a 0 = ibit d 0 ∧ (2^1202 ≤ (Safety.scaled d).natAbs → a.toNat % 2^31 = 0x7F800000) ∧
    (finiteDouble d → 2^1202 ≤ (Safety.scaled d).natAbs → (frdsOf (rmodeOf rn) d.toNat).ovf = true) ∧
    ((Safety.scaled d).natAbs < 2^948 → a.toNat % 2^31 = 0) ∧
    (2^948 ≤ (Safety.scaled d).natAbs → (Safety.scaled d).natAbs ≤ (2^24 - 1) * 2^1178 →
      finiteSingle a ∧ RoundsTo rn true 1 (Safety.scaled d) (scaledSingle a)) := by
  obtain ⟨mag, ⟨himg, hle, hsmall, hlarge, hrounds⟩, hovf⟩ := exists_givesSingle (rmodeOf rn) hnan
  rw [minNormal_single] at hsmall hrounds
  rw [infinity_single] at hlarge hovf
  rw [greatest_single] at hrounds
  have h31 : mag < 2^31 := hle.trans_lt (by decide)
  rw [himg] at ha
  have hmag : a.toNat % 2^31 = mag := ha ▸ mag_image32 _ h31
  have hsign : ibit a 0 = ibit d 0 := ha ▸ ibit_zero_image32 _ h31
  rw [finiteSingle_iff, scaledSingle_eq_units, hsign, hmag, scaled_eq_units, natAbs_signedNat]
  refine ⟨rfl, hlarge, hovf, hsmall, fun h1 h2 => ?_⟩
  obtain ⟨hlt, lo, henc, rfl⟩ := hrounds h1 h2
  have hc : 2^925 * 1 = 2^925 := Nat.mul_one _
  have hr := roundsTo_of_encloses rn true (ibit d 0) (k := 1) (X := f64.units (d.toNat % 2^63)) (mag := lo) one_pos
    (by rw [targetFmt, targetShift, if_pos rfl, if_pos rfl, hc]; exact henc)
  rw [targetFmt, targetShift, if_pos rfl, if_pos rfl, hc] at hr
  exact ⟨hlt, hr⟩

/-- `frds` rounds its operand once, and takes one below the normal numbers of single format to zero. -/
theorem completesSpu_frds (rt ra : BitVec 7) (s : State) :
    CompletesSpu (.spuFrds rt ra) s (some rt) spuFpscrMask (fun t => ∀ j, j < 2 →
      let d := sD ra j s.spe
      let a := sW rt (2 * j) t.spe
      sW rt (2 * j + 1) t.spe = 0 ∧
      (isNan f64 d.toNat = true → a = 0x7FC00000) ∧ (isNan f64 d.toNat = false → ibit a 0 = ibit d 0) ∧
      (isNan f64 d.toNat = false → 2^1202 ≤ (Safety.scaled d).natAbs → a.toNat % 2^31 = 0x7F800000) ∧
      (finiteDouble d → 2^1202 ≤ (Safety.scaled d).natAbs → ibit t.spe.fpscr (50 + 32 * j) = true) ∧
      (finiteDouble d → (Safety.scaled d).natAbs < 2^948 → a.toNat % 2^31 = 0) ∧
      (finiteDouble d → 2^948 ≤ (Safety.scaled d).natAbs → (Safety.scaled d).natAbs ≤ (2^24 - 1) * 2^1178 →
        finiteSingle a ∧ RoundsTo (ibm s.spe.fpscr (20 + 2 * j) 2) true 1 (Safety.scaled d) (scaledSingle a))) := by
  refine completesSpu_dpWrite rfl rfl fun t himg hfl j hj => ?_
  obtain ⟨hw, hlow⟩ := sW_of_sD hj (himg j hj)
  have hovf := hfl j hj 0 (by omega)
  rw [Nat.add_zero] at hovf
  dsimp only
  rw [dw, ← sD_eq_el] at hw hovf
  generalize sD ra j s.spe = d at *
  generalize sW rt (2 * j) t.spe = a at *
  cases hn : isNan f64 d.toNat with
  | true =>
    have hinf : ¬finiteDouble d := fun h => by
      rw [isNan, decide_eq_true_iff] at hn
      exact ((finiteDouble_iff d).mp h).not_gt hn
    refine ⟨hlow, fun _ => ?_, nofun, nofun, fun h => absurd h hinf, fun h => absurd h hinf, fun h => absurd h hinf⟩
    rw [hw, frdsOf_image_of_nan hn]
    rfl
  | false =>
    obtain ⟨hsign, hlarge, ho, hsmall, hrounds⟩ := frdsOf_value (ibm s.spe.fpscr (20 + 2 * j) 2) hn hw
    refine ⟨hlow, nofun, fun _ => hsign, fun _ => hlarge, fun hf hK => ?_, fun _ => hsmall, fun _ => hrounds⟩
    rw [hovf]
    exact (congrArg (ibit s.spe.fpscr (50 + 32 * j) || ·) (ho hf hK)).trans (Bool.or_true _)

end Sys2Proof.Machine
end

section
/-! The estimates of the SPU and their interpolation by `fi` (48_spu_float R1515 to R1517, U61). -/

namespace Sys2Proof.Machine

open Sys2Proof.Safety

/-! ## The tokens -/

theorem extended_eq_zero_iff (w : Word) : extended w = 0 ↔ ibm w 1 8 = 0 := by
  have h0 : f32.units 0 = 0 := Fmt.units_of_lt (Nat.two_pow_pos _)
  rw [extended_eq_units, signedNat_eq_zero, ibm_exponent_eq_zero]
  constructor
  · intro h
    by_contra hn
    rw [Fmt.flush_of_le (Nat.le_of_not_lt hn)] at h
    rw [f32.units_strictMono.injective (h.trans h0.symm)] at hn
    exact hn (Nat.two_pow_pos _)
  · intro h
    rw [Fmt.flush_of_lt h, h0]

theorem rsqrtTok_ne_frestTok (w : Word) : rsqrtTok w ≠ Config.frestTok w := by
  unfold rsqrtTok
  split
  · intro h
    have := congrArg (·.getLsbD 0) h
    simp at this
  · assumption

theorem completesSpu_frest (rt ra : BitVec 7) (s : State) :
    CompletesSpu (.spuFrest rt ra) s (some rt) spuFpscrMask fun t => ∀ k, k < 4 →
      sW rt k t.spe = Config.frestTok (sW ra k s.spe) ∧
      ibit t.spe.fpscr (116 + k) = (ibit s.spe.fpscr (116 + k) || decide (extended (sW ra k s.spe) = 0)) := by
  refine completesSpu_spEstimate rfl rfl fun t htok hdbz k hk => ⟨htok k hk, ?_⟩
  rw [hdbz k hk, decide_eq_decide.mpr (extended_eq_zero_iff _)]
  rfl

theorem completesSpu_frsqest (rt ra : BitVec 7) (s : State) :
    CompletesSpu (.spuFrsqest rt ra) s (some rt) spuFpscrMask fun t => ∀ k, k < 4 →
      sW rt k t.spe = rsqrtTok (sW ra k s.spe) ∧ sW rt k t.spe ≠ Config.frestTok (sW ra k s.spe) ∧
      ibit t.spe.fpscr (116 + k) = (ibit s.spe.fpscr (116 + k) || decide (extended (sW ra k s.spe) = 0)) := by
  refine completesSpu_spEstimate rfl rfl fun t htok hdbz k hk => ⟨htok k hk, ?_, ?_⟩
  · rw [htok k hk]
    exact rsqrtTok_ne_frestTok _
  · rw [hdbz k hk, decide_eq_decide.mpr (extended_eq_zero_iff _)]
    rfl

/-! ## Numbers as rationals -/

/-- The value m * 2^e. -/
def dyadic (m : Nat) (e : Int) : ℚ := m * 2^e

theorem dyadic_pos {m : Nat} (e : Int) (hm : m ≠ 0) : 0 < dyadic m e :=
  mul_pos (by exact_mod_cast Nat.pos_of_ne_zero hm) (zpow_pos two_pos e)

/-- The value in units of 2^-`g`. -/
theorem natCast_mul_two_pow_toNat_add (m : Nat) {e g : Int} (h : -g ≤ e) : ((m * 2^(e + g).toNat : Nat) : ℚ) = dyadic m e * 2^g := by
  rw [dyadic, mul_assoc, ← zpow_add₀ two_ne_zero]
  obtain ⟨k, hk⟩ := Int.eq_ofNat_of_zero_le (show 0 ≤ e + g by omega)
  rw [hk]
  push_cast
  rw [Int.toNat_natCast, zpow_natCast]

theorem dyadic_le_iff (a : Nat) (t : Int) (x : ℚ) : dyadic a t ≤ x ↔ (a : ℚ) ≤ x * 2^(-t) := by
  rw [dyadic, zpow_neg, ← div_eq_mul_inv, le_div_iff₀ (zpow_pos two_pos t)]

theorem le_dyadic_iff (a : Nat) (t : Int) (x : ℚ) : x ≤ dyadic a t ↔ x * 2^(-t) ≤ (a : ℚ) := by
  rw [dyadic, zpow_neg, ← div_eq_mul_inv, div_le_iff₀ (zpow_pos two_pos t)]

theorem natCast_mul_two_pow_toNat (m : Nat) {e : Int} (h : 0 ≤ e) : ((m * 2^e.toNat : Nat) : ℚ) = dyadic m e := by
  have := natCast_mul_two_pow_toNat_add m (e := e) (g := 0) (by omega)
  rwa [add_zero, zpow_zero, mul_one] at this

theorem scaledLe_iff (a : Nat) (t : Int) (b : Nat) : scaledLe a t b = true ↔ dyadic a t ≤ b := by
  unfold scaledLe
  split
  · next h => rw [decide_eq_true_iff, ← natCast_mul_two_pow_toNat a h, Nat.cast_le]
  · next h =>
    rw [decide_eq_true_iff, dyadic_le_iff, ← dyadic, ← natCast_mul_two_pow_toNat b (show 0 ≤ -t by omega), Nat.cast_le]

theorem scaledGe_iff (a : Nat) (t : Int) (b : Nat) : scaledGe a t b = true ↔ (b : ℚ) ≤ dyadic a t := by
  unfold scaledGe
  split
  · next h => rw [decide_eq_true_iff, ← natCast_mul_two_pow_toNat a h, Nat.cast_le]
  · next h =>
    rw [decide_eq_true_iff, le_dyadic_iff, ← dyadic, ← natCast_mul_two_pow_toNat b (show 0 ≤ -t by omega), Nat.cast_le]

/-- The end of the extended range. -/
theorem units_two_pow_31 : f32.units (2^31) = 2^23 * 2^255 :=
  Fmt.units_pack (f := f32) (t := 255) (m := 2^23) (.inr (by decide)) (by decide)

/-- What the SPU reads as a number, and its place among the words. -/
theorem spval_fin {w : Word} {n : Bool} {m : Nat} {e : Int} (h : spval w = .fin n m e) :
    2^23 ≤ m ∧ m < 2^24 ∧ -149 ≤ e ∧ e ≤ 105 ∧ extended w = signedNat n (m * 2^(e + 149).toNat) := by
  have hread := spval_reads w
  rw [h] at hread
  obtain ⟨rfl, hlt, hn⟩ := hread
  have hle : 2^23 ≤ m := hn.le
  have hgrid : -149 ≤ e := hn.grid
  have hu : f32.units (f32.flush (w.toNat % 2^31)) = m * 2^(e + 149).toNat := hn.units
  refine ⟨hle, hn.lt, hgrid, ?_, by rw [extended_eq_units, hu]⟩
  have := f32.units_strictMono hlt
  rw [hu, units_two_pow_31] at this
  by_contra he
  have h255 : 2^255 ≤ 2^(e + 149).toNat := Nat.pow_le_pow_right two_pos (by omega)
  exact absurd (Nat.mul_le_mul hle h255) this.not_ge

/-! ## Truncation -/

/-- The image of a value in the range of the extended numbers (R1492). -/
theorem spround_of_range {n : Bool} {m : Nat} {e : Int} (hlo : -126 ≤ topExp m e) (hhi : topExp m e ≤ 128) :
    (spround (.fin n m e)).unf = false ∧
      (spround (.fin n m e)).image = BitVec.ofNat 32 (f32.image n (f32.packMag (roundFmt f32 .zero n m e))) := by
  have hr : roundUnbounded f32 .zero n m e = roundFmt f32 .zero n m e := by
    unfold roundUnbounded roundFmt
    rw [max_eq_left (show f32.qmin ≤ topExp m e - f32.fb from show (-149 : Int) ≤ topExp m e - (23 : Nat) by omega)]
  unfold spround
  simp only [if_neg hlo.not_gt, if_neg hhi.not_gt, hr, and_self]

/-- Such a value is truncated to the normal image `lo` that is at it or next below it; 2^-(149 + `sh`) divides the value. -/
theorem exists_truncation (n : Bool) {m : Nat} {e : Int} (hm : m ≠ 0) (hlo : -126 ≤ topExp m e) (hhi : topExp m e ≤ 128) :
    ∃ lo sh : Nat, 2^23 ≤ lo ∧ lo < 2^31 ∧ -((149 + sh : Nat) : Int) ≤ e ∧
      f32.Encloses (2^sh) (m * 2^(e + (149 + sh : Nat)).toNat) lo ∧
      (spround (.fin n m e)).image = BitVec.ofNat 32 (f32.image n lo) := by
  have himg := (spround_of_range (n := n) hlo hhi).2
  obtain ⟨sh, hsh⟩ : ∃ sh : Nat, -149 - (sh : Int) ≤ e := ⟨(-149 - e).toNat, by omega⟩
  obtain ⟨lo, henc, hp, -⟩ := packMag_roundFmt f32 .zero n (sh := sh) hm (by decide) hsh
  rw [hp, show f32.roundsUp .zero n (2^sh) _ lo = false from rfl, Bool.toNat_false, Nat.add_zero] at himg
  rw [show e - f32.qmin + sh = e + (149 + sh : Nat) by rw [show f32.qmin = -149 from rfl]; omega] at henc
  have hmin : 2^23 * 2^sh ≤ m * 2^(e + (149 + sh : Nat)).toNat := by
    have := (topExp_lt_iff (m := m) (e := e) (b := -126) (g := 149 + sh) hm (by omega) (by omega)).not.mp hlo.not_gt
    rw [show ((-126 : Int) + (149 + sh : Nat)).toNat = 23 + sh by omega, Nat.pow_add] at this
    exact Nat.le_of_not_lt this
  have hmax : m * 2^(e + (149 + sh : Nat)).toNat < 2^23 * 2^255 * 2^sh := by
    have := (topExp_lt_iff (m := m) (e := e) (b := 129) (g := 149 + sh) hm (by omega) (by omega)).mp (by omega)
    rwa [show ((129 : Int) + (149 + sh : Nat)).toNat = 23 + (255 + sh) by omega, Nat.pow_add, Nat.pow_add, ← Nat.mul_assoc] at this
  refine ⟨lo, sh, ?_, ?_, by omega, henc, himg⟩
  · have := Nat.lt_of_mul_lt_mul_right (hmin.trans_lt henc.lt)
    rw [← units_two_pow_23] at this
    exact Nat.le_of_lt_succ (f32.units_strictMono.lt_iff_lt.mp this)
  · have := Nat.lt_of_mul_lt_mul_right (henc.le.trans_lt hmax)
    rw [← units_two_pow_31] at this
    exact f32.units_strictMono.lt_iff_lt.mp this

/-- What the SPU reads from a normal image. -/
theorem spval_image {n : Bool} {lo : Nat} (h : 2^23 ≤ lo) (h' : lo < 2^31) :
    ∃ m e, spval (BitVec.ofNat 32 (f32.image n lo)) = .fin n m e ∧ (f32.units lo : ℚ) = dyadic m e * 2^(149 : Int) := by
  have hread := spval_reads (BitVec.ofNat 32 (f32.image n lo))
  rw [ibit_zero_image32 n h', mag_image32 n h', Fmt.flush_of_le (f := f32) h] at hread
  cases hx : spval (BitVec.ofNat 32 (f32.image n lo)) with rw [hx] at hread
  | nan => exact hread.elim
  | inf => exact absurd hread.2 h'.ne
  | zero => exact absurd hread.2 (by omega)
  | fin k m e =>
    obtain ⟨rfl, -, hn⟩ := hread
    refine ⟨m, e, rfl, ?_⟩
    rw [hn.units]
    exact natCast_mul_two_pow_toNat_add m hn.grid

/-- Truncation to 24 bits loses less than one part in 2^23. -/
theorem spround_fin {n : Bool} {m : Nat} {e : Int} (hm : m ≠ 0) (hlo : -126 ≤ topExp m e) (hhi : topExp m e ≤ 128) :
    (spround (.fin n m e)).unf = false ∧ ∃ mc ec, spval (spround (.fin n m e)).image = .fin n mc ec ∧
      dyadic mc ec ≤ dyadic m e ∧ dyadic m e * 2^23 ≤ dyadic mc ec * (2^23 + 1) := by
  obtain ⟨lo, sh, hnormal, hlt, he, ⟨hle, hgt⟩, himg⟩ := exists_truncation n hm hlo hhi
  obtain ⟨mc, ec, hx, hu⟩ := spval_image (n := n) hnormal hlt
  refine ⟨(spround_of_range hlo hhi).1, mc, ec, himg ▸ hx, ?_⟩
  have hs : (0 : ℚ) < 2^sh := pow_pos two_pos sh
  have h149 : (0 : ℚ) < 2^(149 : Int) := zpow_pos two_pos _
  have hK : ((m * 2^(e + (149 + sh : Nat)).toNat : Nat) : ℚ) = dyadic m e * 2^(149 : Int) * 2^sh := by
    rw [natCast_mul_two_pow_toNat_add m he, Nat.cast_add, zpow_add₀ two_ne_zero, zpow_natCast 2 sh, mul_assoc]
    rfl
  have hlow : (f32.units lo : ℚ) ≤ dyadic m e * 2^(149 : Int) := by
    refine le_of_mul_le_mul_right ?_ hs
    rw [← hK]
    exact_mod_cast hle
  have hhigh : dyadic m e * 2^(149 : Int) ≤ f32.units (lo + 1) := by
    refine le_of_mul_le_mul_right ?_ hs
    rw [← hK]
    exact_mod_cast hgt.le
  have hsucc : (f32.units (lo + 1) : ℚ) * 2^23 ≤ f32.units lo * (2^23 + 1) := by
    exact_mod_cast Fmt.units_succ_le (f := f32) hnormal
  rw [hu] at hlow hsucc
  refine ⟨le_of_mul_le_mul_right hlow h149, le_of_mul_le_mul_right ?_ h149⟩
  linarith

end Sys2Proof.Machine
end

section
/-! The values that `fi` delivers (48_spu_float R1517). -/

namespace Sys2Proof.Machine

open Sys2Proof.Safety

theorem dyadic_mul (a b : Nat) (x y : Int) : dyadic (a * b) (x + y) = dyadic a x * dyadic b y := by
  unfold dyadic
  rw [zpow_add₀ two_ne_zero]
  push_cast
  ring

/-! ## The reciprocal of a number -/

/-- The significand of 1 / S: a quotient of 128 bits, and a sticky bit. -/
def stickyInverse (S : Nat) : Nat := 2 * (2^(128 + S.log2) / S) + if 2^(128 + S.log2) % S = 0 then 0 else 1

theorem divFin_one (n : Bool) (S : Nat) (e : Int) :
    divFin n 1 0 S e = .fin n (stickyInverse S) (0 - e - (128 + S.log2 : Nat) - 1) := by
  unfold divFin stickyInverse
  simp only [Nat.one_mul]

section
variable {S : Nat} (hS : S ≠ 0)
include hS

/-- The significand is off the exact one by less than a unit. -/
theorem stickyInverse_mul : 2^(129 + S.log2) ≤ stickyInverse S * S + S ∧ stickyInverse S * S ≤ 2^(129 + S.log2) + S := by
  have hdiv := Nat.div_add_mod' (2^(128 + S.log2)) S
  have hmod := Nat.mod_lt (2^(128 + S.log2)) (Nat.pos_of_ne_zero hS)
  have hk : 2^(129 + S.log2) = 2 * 2^(128 + S.log2) := by rw [show 129 + S.log2 = 128 + S.log2 + 1 by omega, pow_succ, mul_comm]
  unfold stickyInverse
  rw [hk, Nat.add_mul, Nat.mul_assoc]
  split <;> omega

theorem stickyInverse_log2 :
    128 ≤ (stickyInverse S).log2 ∧ (stickyInverse S).log2 ≤ 129 ∧ (S = 2^S.log2 → (stickyInverse S).log2 = 129) := by
  have hpos := Nat.pos_of_ne_zero hS
  have hle : 2^S.log2 ≤ S := Nat.log2_self_le hS
  have hlt : S < 2^S.log2 * 2 := Nat.lt_log2_self
  have hk : 2^(128 + S.log2) = 2^128 * 2^S.log2 := Nat.pow_add ..
  have hq1 : 2^127 ≤ 2^(128 + S.log2) / S := (Nat.le_div_iff_mul_le hpos).mpr (by rw [hk]; omega)
  have hq2 : 2^(128 + S.log2) / S ≤ 2^128 := Nat.div_le_of_le_mul (by rw [hk, mul_comm]; exact Nat.mul_le_mul_right _ hle)
  have hne : stickyInverse S ≠ 0 := by unfold stickyInverse; omega
  have hQ1 : 2^128 ≤ stickyInverse S := by unfold stickyInverse; omega
  have hQ2 : stickyInverse S < 2^130 := by unfold stickyInverse; split <;> omega
  refine ⟨(Nat.le_log2 hne).mpr hQ1, Nat.le_of_lt_succ ((Nat.log2_lt hne).mpr hQ2), fun h => ?_⟩
  have hd : 2^(128 + S.log2) / S = 2^128 := by
    rw [hk, ← h]
    exact Nat.mul_div_cancel _ hpos
  have hr : 2^(128 + S.log2) % S = 0 := by
    rw [hk, ← h]
    exact Nat.mul_mod_left ..
  rw [stickyInverse, hd, hr]
  rfl

/-- The value is near 1 / (S * 2^e). -/
theorem abs_dyadic_stickyInverse (e : Int) :
    |dyadic (stickyInverse S) (0 - e - (128 + S.log2 : Nat) - 1) * dyadic S e - 1| ≤ 1 / 2^24 := by
  obtain ⟨h1, h2⟩ := stickyInverse_mul hS
  have hlt : S < 2^S.log2 * 2 := Nat.lt_log2_self
  have hk : (2 : ℚ)^(129 + S.log2) = 2^128 * (2^S.log2 * 2) := by rw [pow_add]; ring
  have hpos : (0 : ℚ) < 2^(129 + S.log2) := pow_pos two_pos _
  have hval : dyadic (stickyInverse S) (0 - e - (128 + S.log2 : Nat) - 1) * dyadic S e =
      (stickyInverse S * S : Nat) / 2^(129 + S.log2) := by
    rw [← dyadic_mul, dyadic, show 0 - e - (128 + S.log2 : Nat) - 1 + e = -((129 + S.log2 : Nat) : Int) by push_cast; omega, zpow_neg,
      zpow_natCast, div_eq_mul_inv]
  have h1' : (2 : ℚ)^(129 + S.log2) ≤ (stickyInverse S * S : Nat) + S := by exact_mod_cast h1
  have h2' : ((stickyInverse S * S : Nat) : ℚ) ≤ 2^(129 + S.log2) + S := by exact_mod_cast h2
  have hS' : (S : ℚ) < 2^S.log2 * 2 := by exact_mod_cast hlt
  rw [hval, abs_le]
  constructor
  · rw [le_sub_iff_add_le, le_div_iff₀ hpos, hk]
    rw [hk] at h1'
    linarith
  · rw [sub_le_iff_le_add, div_le_iff₀ hpos, hk]
    rw [hk] at h2'
    linarith

/-- The reciprocal of a number of moderate size is truncated to a number near it; one of 2^126 is still in range. -/
theorem spround_divFin_one (n : Bool) {e : Int} (hlo : -127 ≤ topExp S e)
    (hhi : topExp S e ≤ 125 ∨ topExp S e = 126 ∧ S = 2^S.log2) :
    (spround (divFin n 1 0 S e)).unf = false ∧ ∃ m' e', spval (spround (divFin n 1 0 S e)).image = .fin n m' e' ∧
      |dyadic m' e' * dyadic S e - 1| ≤ 1 / 2^20 := by
  obtain ⟨hq1, hq2, hq3⟩ := stickyInverse_log2 hS
  have hne : stickyInverse S ≠ 0 := fun h => by rw [h] at hq1; exact absurd hq1 (by decide)
  rw [divFin_one]
  have htop : topExp (stickyInverse S) (0 - e - (128 + S.log2 : Nat) - 1) = (stickyInverse S).log2 - 129 - topExp S e := by
    unfold topExp
    push_cast
    omega
  have hge : -126 ≤ topExp (stickyInverse S) (0 - e - (128 + S.log2 : Nat) - 1) := by
    rw [htop]
    rcases hhi with h | ⟨h, h'⟩
    · omega
    · have := hq3 h'
      omega
  obtain ⟨hunf, m', e', hx, hle, hlt⟩ := spround_fin (n := n) hne hge (by omega)
  refine ⟨hunf, m', e', hx, ?_⟩
  have hnear := abs_le.mp (abs_dyadic_stickyInverse hS e)
  have hpos := dyadic_pos e hS
  have hle' := mul_le_mul_of_nonneg_right hle hpos.le
  have hlt' := mul_le_mul_of_nonneg_right hlt hpos.le
  rw [abs_le]
  constructor <;> linarith

end

/-! ## The reciprocal of a square root -/

theorem isqrtFrom_spec (x k : Nat) {r : Nat} (hle : r * r ≤ x) (hlt : x < (r + 2^k) * (r + 2^k)) :
    isqrtFrom x k r * isqrtFrom x k r ≤ x ∧ x < (isqrtFrom x k r + 1) * (isqrtFrom x k r + 1) := by
  induction k generalizing r with
  | zero => exact ⟨hle, hlt⟩
  | succ k ih =>
    unfold isqrtFrom
    split
    · next h => exact ih h (by rwa [Nat.add_assoc, ← Nat.two_mul, ← pow_succ'])
    · next h => exact ih hle (Nat.lt_of_not_le h)

theorem isqrt_spec (x : Nat) : isqrt x * isqrt x ≤ x ∧ x < (isqrt x + 1) * (isqrt x + 1) := by
  refine isqrtFrom_spec x _ (Nat.zero_le _) ?_
  rw [Nat.zero_add, ← Nat.pow_add]
  exact Nat.lt_log2_self.trans_le (Nat.pow_le_pow_right two_pos (by omega))

/-- The significand of the root of `x`: its integer square root, and a sticky bit. -/
def stickyRoot (x : Nat) : Nat := 2 * isqrt x + if isqrt x * isqrt x = x then 0 else 1

theorem stickyRoot_sq (x : Nat) :
    4 * x ≤ stickyRoot x * stickyRoot x + 2 * stickyRoot x + 1 ∧ stickyRoot x * stickyRoot x ≤ 4 * x + 2 * stickyRoot x + 1 := by
  obtain ⟨h1, h2⟩ := isqrt_spec x
  unfold stickyRoot
  split
  · constructor <;> nlinarith
  · constructor <;> nlinarith

/-- The root of a number of moderate size: near it, and its leading bit where that of the root is. -/
structure Root (m : Nat) (e : Int) (S : Nat) (e' : Int) : Prop where
  ne_zero : S ≠ 0
  near : |dyadic S e' * dyadic S e' - dyadic m e| ≤ dyadic S e' * dyadic S e' / 2^24
  lo : -127 ≤ topExp S e'
  hi : topExp S e' ≤ 125

theorem dyadic_mul_pow (m k : Nat) (e : Int) : dyadic (m * 2^k) e = dyadic m (e + k) := by
  unfold dyadic
  rw [zpow_add₀ two_ne_zero, zpow_natCast]
  push_cast
  ring

/-- The root of a number is that of an integer `x` of 279 to 281 bits, at an even exponent. -/
theorem sqrtFin_eq {m : Nat} {e : Int} (hm : 2^23 ≤ m) (hm' : m < 2^24) (he : -149 ≤ e) (he' : e ≤ 105) :
    ∃ (x : Nat) (h : Int), 2^139 * 2^139 ≤ x ∧ x < 2^141 * 2^141 ∧ -75 ≤ h ∧ h ≤ 52 ∧ dyadic m e = dyadic x (2 * h - 256) ∧
      sqrtFin m e = .fin false (stickyRoot x) (h - 129) := by
  obtain ⟨M, h, hM, hM', hh, hh', hval, hsqrt⟩ : ∃ (M : Nat) (h : Int), 2^23 ≤ M ∧ M < 2^25 ∧ -75 ≤ h ∧ h ≤ 52 ∧
      dyadic m e = dyadic M (2 * h) ∧ sqrtFin m e = .fin false (stickyRoot (M * 2^256)) (h - 129) := by
    unfold sqrtFin stickyRoot
    rcases Int.emod_two_eq_zero_or_one e with h | h
    · refine ⟨m, e / 2, hm, by omega, by omega, by omega, by rw [Int.mul_ediv_cancel' (Int.dvd_of_emod_eq_zero h)], ?_⟩
      simp only [h, if_true]
      congr 1
      omega
    · refine ⟨2 * m, e / 2, by omega, by omega, by omega, by omega, ?_, ?_⟩
      · have := dyadic_mul_pow m 1 (2 * (e / 2))
        rw [show 2 * (e / 2) + ((1 : Nat) : Int) = e by omega] at this
        rw [← this, pow_one, mul_comm]
      · simp only [h, one_ne_zero, if_false]
        congr 1
        omega
  have hc : 0 < 2^256 := pow_pos two_pos _
  refine ⟨M * 2^256, h, ?_, ?_, hh, hh', ?_, hsqrt⟩
  · exact (two_pow_mul_le_mul (by decide)).trans (Nat.mul_le_mul_right _ hM)
  · exact (Nat.mul_lt_mul_of_pos_right hM' hc).trans_le (two_pow_mul_le_mul (by decide))
  · rw [hval, dyadic_mul_pow]
    congr 1
    push_cast
    omega

theorem stickyRoot_bounds {x : Nat} (h : 2^139 * 2^139 ≤ x) (h' : x < 2^141 * 2^141) :
    2^140 ≤ stickyRoot x ∧ stickyRoot x < 2^142 := by
  obtain ⟨h1, h2⟩ := isqrt_spec x
  have hlo : 2^139 < isqrt x + 1 := Nat.mul_self_lt_mul_self_iff.mp (h.trans_lt h2)
  have hhi : isqrt x < 2^141 := Nat.mul_self_lt_mul_self_iff.mp (h1.trans_lt h')
  unfold stickyRoot
  split <;> omega

theorem exists_sqrtFin {m : Nat} {e : Int} (hm : 2^23 ≤ m) (hm' : m < 2^24) (he : -149 ≤ e) (he' : e ≤ 105) :
    ∃ S e', sqrtFin m e = .fin false S e' ∧ Root m e S e' := by
  obtain ⟨x, h, hx, hx', hh, hh', hval, hsqrt⟩ := sqrtFin_eq hm hm' he he'
  obtain ⟨hS, hS'⟩ := stickyRoot_bounds hx hx'
  obtain ⟨h1, h2⟩ := stickyRoot_sq x
  have hval' : dyadic m e = (4 * x : Nat) * 2^(2 * (h - 129)) := by
    have := dyadic_mul_pow x 2 (2 * (h - 129))
    rw [show 2 * (h - 129) + ((2 : Nat) : Int) = 2 * h - 256 by push_cast; omega, mul_comm] at this
    rw [hval, ← this]
    rfl
  refine ⟨_, _, hsqrt, ?_⟩
  generalize stickyRoot x = S at *
  have hne : S ≠ 0 := by omega
  have hl : 140 ≤ S.log2 := (Nat.le_log2 hne).mpr hS
  have hl' : S.log2 < 142 := (Nat.log2_lt hne).mpr hS'
  refine ⟨hne, ?_, by unfold topExp; omega, by unfold topExp; omega⟩
  have hsq : dyadic S (h - 129) * dyadic S (h - 129) = (S * S : Nat) * 2^(2 * (h - 129)) := by
    rw [← dyadic_mul, ← two_mul]
    rfl
  have hw : (0 : ℚ) < 2^(2 * (h - 129)) := zpow_pos two_pos _
  have hbig : ((2 * S + 1 : Nat) : ℚ) ≤ (S * S : Nat) / 2^24 := by
    rw [le_div_iff₀ (by norm_num)]
    have : (2 * S + 1) * 2^24 ≤ S * S := by nlinarith
    exact_mod_cast this
  have h1' : ((4 * x : Nat) : ℚ) ≤ (S * S : Nat) + (2 * S + 1 : Nat) := by exact_mod_cast h1
  have h2' : ((S * S : Nat) : ℚ) ≤ (4 * x : Nat) + (2 * S + 1 : Nat) := by exact_mod_cast h2
  rw [hsq, hval', ← sub_mul, abs_mul, abs_of_pos hw, mul_div_right_comm]
  refine mul_le_mul_of_nonneg_right (le_trans ?_ hbig) hw.le
  rw [abs_le]
  constructor <;> linarith

/-! ## The choice of the value -/

/-- What `fi` delivers has every property that a candidate must have and the truncated exact value has. -/
theorem fiPick_spec {cand : Word} {exact : Calc} {ok : Bool → Nat → Int → Bool} {P : Bool → Nat → Int → Prop}
    (hok : ∀ {n m e}, ok n m e = true → P n m e) (hunf : (spround exact).unf = false)
    (hex : ∃ n m e, spval (spround exact).image = .fin n m e ∧ P n m e) :
    ∃ n m e, spval (fiPick cand exact ok) = .fin n m e ∧ P n m e := by
  unfold fiPick
  simp only [hunf, Bool.not_false, if_true]
  split
  · next n m e hx =>
    split
    · next h => exact ⟨n, m, e, hx, hok h⟩
    · exact hex
  · exact hex

theorem nearReciprocal_iff {d m1 m2 : Nat} {e1 e2 : Int} : nearReciprocal d m1 e1 m2 e2 = true ↔
    d * (dyadic m1 e1 * dyadic m2 e2) ≤ (d + 1 : Nat) ∧ (d - 1 : Nat) ≤ d * (dyadic m1 e1 * dyadic m2 e2) := by
  have h : dyadic (d * m1 * m2) (e1 + e2) = d * (dyadic m1 e1 * dyadic m2 e2) := by
    unfold dyadic
    rw [zpow_add₀ two_ne_zero]
    push_cast
    ring
  rw [nearReciprocal, Bool.and_eq_true, scaledLe_iff, scaledGe_iff, h]

theorem nearRsqrt_iff {d m1 m2 : Nat} {e1 e2 : Int} : nearRsqrt d m1 e1 m2 e2 = true ↔
    d * d * (dyadic m1 e1 * dyadic m1 e1 * dyadic m2 e2) ≤ ((d + 1) * (d + 1) : Nat) ∧
      ((d - 1) * (d - 1) : Nat) ≤ d * d * (dyadic m1 e1 * dyadic m1 e1 * dyadic m2 e2) := by
  have h : dyadic (d * d * m1 * m1 * m2) (2 * e1 + e2) = d * d * (dyadic m1 e1 * dyadic m1 e1 * dyadic m2 e2) := by
    unfold dyadic
    rw [zpow_add₀ two_ne_zero, two_mul, zpow_add₀ two_ne_zero]
    push_cast
    ring
  rw [nearRsqrt, Bool.and_eq_true, scaledLe_iff, scaledGe_iff, h]

/-! ## The interpolated values -/

theorem spval_zero_or_fin (a : Word) :
    (extended a = 0 ∧ ∃ n, spval a = .zero n) ∨ (extended a ≠ 0 ∧ ∃ n m e, spval a = .fin n m e) := by
  have hread := spval_reads a
  cases hx : spval a with rw [hx] at hread
  | nan => exact hread.elim
  | inf n => exact absurd hread.2 ((Fmt.flush_le ..).trans_lt (Nat.mod_lt _ (by decide))).ne
  | zero n =>
    refine .inl ⟨?_, n, rfl⟩
    rw [extended_eq_units, hread.2, Fmt.units_of_lt (Nat.two_pow_pos _), signedNat_zero]
  | fin n m e =>
    refine .inr ⟨?_, n, m, e, rfl⟩
    obtain ⟨hm, -, -, -, hext⟩ := spval_fin hx
    rw [hext, Ne, signedNat_eq_zero]
    exact (Nat.mul_pos (by omega) (Nat.two_pow_pos _)).ne'

/-- The values that U61 allows for an estimate of 1 / x and of 1 / √x, given x = m * 2^e. -/
structure NearReciprocal (m : Nat) (e : Int) (m' : Nat) (e' : Int) : Prop where
  le : 4096 * (dyadic m' e' * dyadic m e) ≤ 4097
  ge : 4095 ≤ 4096 * (dyadic m' e' * dyadic m e)

structure NearRsqrt (m : Nat) (e : Int) (m' : Nat) (e' : Int) : Prop where
  le : 4096 * 4096 * (dyadic m' e' * dyadic m' e' * dyadic m e) ≤ 4097 * 4097
  ge : 4095 * 4095 ≤ 4096 * 4096 * (dyadic m' e' * dyadic m' e' * dyadic m e)

/-- The reciprocal of a number near a root is near the reciprocal root. -/
theorem mul_mul_near {t r a : ℚ} (h1 : |t * r - 1| ≤ 1 / 2^20) (h2 : |r * r - a| ≤ r * r / 2^24) :
    4096 * 4096 * (t * t * a) ≤ 4097 * 4097 ∧ 4095 * 4095 ≤ 4096 * 4096 * (t * t * a) := by
  obtain ⟨hlo, hhi⟩ := abs_le.mp h1
  obtain ⟨hlo', hhi'⟩ := abs_le.mp h2
  have hsq : t * t * (r * r) = (t * r) * (t * r) := by ring
  have hlow := mul_le_mul_of_nonneg_left hlo' (mul_self_nonneg t)
  have hhigh := mul_le_mul_of_nonneg_left hhi' (mul_self_nonneg t)
  rw [mul_sub, hsq, mul_neg, mul_div_assoc', hsq] at hlow
  rw [mul_sub, hsq, mul_div_assoc', hsq] at hhigh
  generalize t * r = x at *
  have hx : x * x ≤ (1 + 1 / 2^20) * (1 + 1 / 2^20) := mul_self_le_mul_self (by linarith) (by linarith)
  have hx' : (1 - 1 / 2^20) * (1 - 1 / 2^20) ≤ x * x := mul_self_le_mul_self (by norm_num) (by linarith)
  constructor <;> linarith

/-- `fi` of a number and its reciprocal token: a number near the reciprocal. -/
theorem fiWord_reciprocal {a cand : Word} {n : Bool} {m : Nat} {e : Int} (hx : spval a = .fin n m e)
    (hsize : (extended a).natAbs ≤ 2^275) : ∃ m' e', spval (fiWord a (Config.frestTok a) cand) = .fin n m' e' ∧
      NearReciprocal m e m' e' := by
  obtain ⟨hm, hm', he, he', hext⟩ := spval_fin hx
  have hne : m ≠ 0 := by omega
  have hlog : m.log2 = 23 := (Nat.log2_eq_iff hne).mpr ⟨hm, hm'⟩
  have htop : topExp m e = e + 23 := by rw [topExp, hlog]; rfl
  rw [hext, natAbs_signedNat] at hsize
  have hhi : topExp m e ≤ 125 ∨ topExp m e = 126 ∧ m = 2^m.log2 := by
    rw [htop, hlog]
    rw [← two_pow_mul_eq (a := 23) (b := 252) (k := 275) rfl] at hsize
    rcases lt_trichotomy e 103 with h | rfl | h
    · exact .inl (by omega)
    · exact .inr ⟨rfl, le_antisymm (Nat.le_of_mul_le_mul_right hsize (pow_pos two_pos _)) hm⟩
    · have h253 : 2^253 ≤ 2^(e + 149).toNat := Nat.pow_le_pow_right two_pos (by omega)
      exact absurd ((Nat.mul_le_mul hm h253).trans hsize) (by decide)
  obtain ⟨hunf, m1, e1, h1, hnear⟩ := spround_divFin_one hne n (by omega) hhi
  have hword : fiWord a (Config.frestTok a) cand =
      fiPick cand (divFin n 1 0 m e) fun nc mc ec => nc == n && nearReciprocal 4096 mc ec m e := by
    unfold fiWord
    simp only [hx, if_true]
  rw [hword]
  obtain ⟨k, m2, e2, h2, rfl, hb⟩ := fiPick_spec (cand := cand) (exact := divFin n 1 0 m e)
    (ok := fun nc mc ec => nc == n && nearReciprocal 4096 mc ec m e)
    (P := fun nc mc ec => nc = n ∧ NearReciprocal m e mc ec)
    (fun h => by
      rw [Bool.and_eq_true, beq_iff_eq, nearReciprocal_iff] at h
      obtain ⟨hs, hle, hge⟩ := h
      push_cast at hle hge
      exact ⟨hs, by linarith, by linarith⟩)
    hunf ⟨n, m1, e1, h1, rfl, by have := abs_le.mp hnear; constructor <;> linarith⟩
  exact ⟨m2, e2, h2, hb⟩

/-- `fi` of a number and its reciprocal square-root token: a positive number near the reciprocal of the root. -/
theorem fiWord_rsqrt {a cand : Word} {n : Bool} {m : Nat} {e : Int} (hx : spval a = .fin n m e) :
    ∃ m' e', spval (fiWord a (rsqrtTok a) cand) = .fin false m' e' ∧ NearRsqrt m e m' e' := by
  obtain ⟨hm, hm', he, he', -⟩ := spval_fin hx
  obtain ⟨S, e0, hsqrt, hroot⟩ := exists_sqrtFin hm hm' he he'
  obtain ⟨hunf, m1, e1, h1, hnear⟩ := spround_divFin_one hroot.ne_zero false hroot.lo (.inl hroot.hi)
  have hword : fiWord a (rsqrtTok a) cand =
      fiPick cand (divFin false 1 0 S e0) fun nc mc ec => !nc && nearRsqrt 4096 mc ec m e := by
    unfold fiWord
    simp only [hx, if_neg (rsqrtTok_ne_frestTok a), if_true, hsqrt]
  rw [hword]
  obtain ⟨k, m2, e2, h2, rfl, hb⟩ := fiPick_spec (cand := cand) (exact := divFin false 1 0 S e0)
    (ok := fun nc mc ec => !nc && nearRsqrt 4096 mc ec m e)
    (P := fun nc mc ec => nc = false ∧ NearRsqrt m e mc ec)
    (fun h => by
      rw [Bool.and_eq_true, Bool.not_eq_true', nearRsqrt_iff] at h
      obtain ⟨hs, hle, hge⟩ := h
      push_cast at hle hge
      exact ⟨hs, by linarith, by linarith⟩)
    hunf ⟨false, m1, e1, h1, rfl, (mul_mul_near hnear hroot.near).1, (mul_mul_near hnear hroot.near).2⟩
  exact ⟨m2, e2, h2, hb⟩

/-! ## The instruction -/

theorem natCast_units {m : Nat} {e : Int} (h : -149 ≤ e) : ((m * 2^(e + 149).toNat : Nat) : ℚ) = dyadic m e * (2^149 : Nat) := by
  rw [natCast_mul_two_pow_toNat_add m h]
  norm_num

/-- The bounds of the statement for a reciprocal, in units of 2^-149. -/
theorem NearReciprocal.natAbs_le {m m' : Nat} {e e' : Int} (h : NearReciprocal m e m' e') (he : -149 ≤ e) (he' : -149 ≤ e') (n : Bool) :
    (4096 * (signedNat n (m' * 2^(e' + 149).toNat) * signedNat n (m * 2^(e + 149).toNat) - 2^298)).natAbs ≤ 2^298 := by
  have hR := natCast_units (m := m') he'
  have hA := natCast_units (m := m) he
  generalize m' * 2^(e' + 149).toNat = R at *
  generalize m * 2^(e + 149).toNat = A at *
  have hG : (2^149 : Nat) * 2^149 = 2^298 := two_pow_mul_eq rfl
  have hsign : signedNat n R * signedNat n A = ((R * A : Nat) : Int) := by cases n <;> simp [signedNat]
  have hval : ((R * A : Nat) : ℚ) = dyadic m' e' * dyadic m e * ((2^298 : Nat) : ℚ) := by
    rw [← hG, Nat.cast_mul, Nat.cast_mul, hR, hA]
    ring
  rw [hsign, show (2 : Int)^298 = ((2^298 : Nat) : Int) from (Nat.cast_pow 2 298).symm]
  have hpos : (0 : ℚ) < ((2^298 : Nat) : ℚ) := by exact_mod_cast pow_pos two_pos _
  generalize 2^298 = G at *
  have hle : 4096 * (R * A) ≤ 4097 * G := by
    have := mul_le_mul_of_nonneg_right h.le hpos.le
    rw [mul_assoc, ← hval] at this
    exact_mod_cast this
  have hge : 4095 * G ≤ 4096 * (R * A) := by
    have := mul_le_mul_of_nonneg_right h.ge hpos.le
    rw [mul_assoc, ← hval] at this
    exact_mod_cast this
  omega

/-- The bounds of the statement for a reciprocal square root. -/
theorem NearRsqrt.bounds {m m' : Nat} {e e' : Int} (h : NearRsqrt m e m' e') (he : -149 ≤ e) (he' : -149 ≤ e') (hm' : m' ≠ 0) :
    let r : Int := signedNat false (m' * 2^(e' + 149).toNat)
    let a : Nat := m * 2^(e + 149).toNat
    0 < r ∧ 4095^2 * 2^447 ≤ 4096^2 * r^2 * a ∧ 4096^2 * r^2 * a ≤ 4097^2 * 2^447 := by
  have hR := natCast_units (m := m') he'
  have hA := natCast_units (m := m) he
  have hpos' : 0 < m' * 2^(e' + 149).toNat := Nat.mul_pos (Nat.pos_of_ne_zero hm') (Nat.two_pow_pos _)
  dsimp only
  generalize m' * 2^(e' + 149).toNat = R at *
  generalize m * 2^(e + 149).toNat = A at *
  have hG : (2^149 : Nat) * 2^149 * 2^149 = 2^447 := by
    rw [two_pow_mul_eq (k := 298) rfl]
    exact two_pow_mul_eq (by decide)
  have hval : ((R * R * A : Nat) : ℚ) = dyadic m' e' * dyadic m' e' * dyadic m e * ((2^447 : Nat) : ℚ) := by
    rw [← hG, Nat.cast_mul, Nat.cast_mul, Nat.cast_mul, Nat.cast_mul, hR, hA]
    ring
  rw [show (2 : Int)^447 = ((2^447 : Nat) : Int) from (Nat.cast_pow 2 447).symm]
  have hpos : (0 : ℚ) < ((2^447 : Nat) : ℚ) := by exact_mod_cast pow_pos two_pos _
  generalize 2^447 = G at *
  have hle : 4096 * 4096 * (R * R * A) ≤ 4097 * 4097 * G := by
    have := mul_le_mul_of_nonneg_right h.le hpos.le
    rw [mul_assoc (_ * _) _ (_ : ℚ), ← hval] at this
    exact_mod_cast this
  have hge : 4095 * 4095 * G ≤ 4096 * 4096 * (R * R * A) := by
    have := mul_le_mul_of_nonneg_right h.ge hpos.le
    rw [mul_assoc (_ * _) _ (_ : ℚ), ← hval] at this
    exact_mod_cast this
  have hr : (4096^2 * (signedNat false R)^2 * A : Int) = ((4096 * 4096 * (R * R * A) : Nat) : Int) := by
    push_cast
    rw [show signedNat false R = (R : Int) from rfl]
    ring
  rw [hr]
  refine ⟨Int.natCast_pos.mpr hpos', ?_, ?_⟩
  · exact_mod_cast hge
  · exact_mod_cast hle

theorem completesSpu_fi (rt ra rb : BitVec 7) (s : State) :
    CompletesSpu (.spuFi rt ra rb) s (some rt) 0 fun t => ∀ k, k < 4 →
      let a := sW ra k s.spe
      let r := extended (sW rt k t.spe)
      (sW rb k s.spe = Config.frestTok a →
        (extended a = 0 → sW rt k t.spe = if ibit a 0 then 0xFFFFFFFF else 0x7FFFFFFF) ∧
        (extended a ≠ 0 → (extended a).natAbs ≤ 2^275 → (4096 * (r * extended a - 2^298)).natAbs ≤ 2^298)) ∧
      (sW rb k s.spe = rsqrtTok a →
        (extended a = 0 → sW rt k t.spe = 0x7FFFFFFF) ∧
        (extended a ≠ 0 → 0 < r ∧ 4095^2 * 2^447 ≤ 4096^2 * r^2 * (extended a).natAbs ∧
          4096^2 * r^2 * (extended a).natAbs ≤ 4097^2 * 2^447)) := by
  refine completesSpu_of_set 4 rfl rfl fun t hq k hk => ?_
  dsimp only
  rw [sW_eq_el rt, hq, el_zip3Els _ _ _ _ _ _ _ rfl hk, ← sW_eq_el, ← sW_eq_el]
  generalize sW ra k s.spe = a
  generalize el 32 _ k = cand
  refine ⟨fun hb => ?_, fun hb => ?_⟩ <;> rw [hb]
  · rcases spval_zero_or_fin a with ⟨h0, n, hx⟩ | ⟨h0, n, m, e, hx⟩
    · refine ⟨fun _ => ?_, fun h => absurd h0 h⟩
      unfold fiWord
      simp only [hx, if_true]
      rfl
    · refine ⟨fun h => absurd h h0, fun _ hsize => ?_⟩
      obtain ⟨m', e', hx', hnear⟩ := fiWord_reciprocal (cand := cand) hx hsize
      obtain ⟨-, -, he, -, hext⟩ := spval_fin hx
      obtain ⟨-, -, he', -, hext'⟩ := spval_fin hx'
      rw [hext, hext']
      exact hnear.natAbs_le he he' n
  · rcases spval_zero_or_fin a with ⟨h0, n, hx⟩ | ⟨h0, n, m, e, hx⟩
    · refine ⟨fun _ => ?_, fun h => absurd h0 h⟩
      unfold fiWord
      simp only [hx, if_neg (rsqrtTok_ne_frestTok a), if_true]
      rfl
    · refine ⟨fun h => absurd h h0, fun _ => ?_⟩
      obtain ⟨m', e', hx', hnear⟩ := fiWord_rsqrt (cand := cand) hx
      obtain ⟨-, -, he, -, hext⟩ := spval_fin hx
      obtain ⟨hm', -, he', -, hext'⟩ := spval_fin hx'
      rw [hext, hext', natAbs_signedNat]
      exact hnear.bounds he he' (by omega)

end Sys2Proof.Machine
end

section
/-! The obligation on the floating-point instructions of the SPU. -/

namespace Sys2Proof.Machine

open Sys2Proof.Safety

/-- Settles O37, one lemma for each of its clauses. -/
theorem spuFloatFrames : Obligations.SpuFloatFrames := by
  refine ⟨fun i rt m x h s hx => completesSpu_of_spuFloat h s hx, fun i rt m h s hc hm => ?_, completesSpu_fscrwr,
    completesSpu_singleCompares,
    fun rt ra i8 s hlo hhi => ⟨completesSpu_cflts rt ra s hlo hhi, completesSpu_cfltu rt ra s hlo hhi⟩,
    fun rt ra s => ⟨completesSpu_fesd rt ra s, completesSpu_frds rt ra s, completesSpu_frest rt ra s, completesSpu_frsqest rt ra s,
      fun rb => completesSpu_fi rt ra rb s⟩,
    fun i rt ra rb rel h s hc => completesSpu_of_doubleCompare h hc, fun rt ra i7 s hc => completesSpu_dftsv rt ra i7 hc⟩
  rw [exec_of_spuFloat_cellBe h hc]
  exact spuInvalid_stops s hm

end Sys2Proof.Machine
end

section
/-! Bits of a concatenation, a field, a mask and a low word (00_scope R14), and two ways to write a 32-bit address or an instruction
address (40_ppe_branch). -/

namespace Sys2Proof.Machine

theorem ibit_not {n : Nat} (w : BitVec n) {k : Nat} (hk : k < n) : ibit (~~~w) k = !ibit w k := by
  unfold ibit
  rw [BitVec.getLsbD_not, decide_eq_true (by omega), Bool.true_and]

/-- Words with the same bits are equal. -/
theorem eq_of_ibit_eq {n : Nat} {v w : BitVec n} (h : ∀ k, k < n → ibit v k = ibit w k) : v = w := by
  apply BitVec.eq_of_getLsbD_eq
  intro i hi
  have hk := h (n - 1 - i) (by omega)
  unfold ibit at hk
  rwa [show n - 1 - (n - 1 - i) = i by omega] at hk

theorem ibit_append {m n : Nat} (v : BitVec m) (w : BitVec n) {k : Nat} (hk : k < m + n) :
    ibit (v ++ w) k = if k < m then ibit v k else ibit w (k - m) := by
  unfold ibit
  rw [BitVec.getLsbD_append]
  by_cases h : k < m
  · rw [if_pos h, if_neg (by omega)]
    congr 1
    omega
  · rw [if_neg h, if_pos (by omega)]
    congr 1
    omega

theorem ibit_ibm {n : Nat} (w : BitVec n) {first len j : Nat} (hj : j < len) (hf : first + len ≤ n) :
    ibit (ibm w first len) j = ibit w (first + j) := by
  unfold ibit ibm
  rw [BitVec.getLsbD_extractLsb', decide_eq_true (by omega), Bool.true_and]
  congr 1
  omega

theorem ibit_lowWord (w : DWord) {k : Nat} (hk : k < 32) : ibit (lowWord w) k = ibit w (32 + k) := ibit_ibm w hk (by decide)

theorem lowWord_eq_setWidth (w : DWord) : lowWord w = w.setWidth 32 := by
  apply BitVec.eq_of_toNat_eq
  simp [lowWord, ibm]

/-- The low word of an address, the upper one 0. -/
theorem and_low32 (w : DWord) : w &&& 0xFFFFFFFF#64 = (w.setWidth 32).setWidth 64 := by
  apply BitVec.eq_of_toNat_eq
  rw [BitVec.toNat_and, show (0xFFFFFFFF#64).toNat = 2^32 - 1 from rfl, Nat.and_two_pow_sub_one_eq_mod]
  simp only [BitVec.toNat_setWidth]
  omega

/-- An address rounded down to a multiple of 4. -/
theorem and_not_three (w : DWord) : w &&& ~~~3#64 = w / 4 * 4 := by
  have hdiv : (w / 4 * 4 : DWord) = (w >>> 2) <<< 2 := by
    apply BitVec.eq_of_toNat_eq
    simp only [BitVec.toNat_mul, BitVec.toNat_udiv, BitVec.toNat_shiftLeft, BitVec.toNat_ushiftRight, Nat.shiftLeft_eq,
      Nat.shiftRight_eq_div_pow]
    rfl
  have hmask : ∀ i < 64, (~~~3#64).getLsbD i = !decide (i < 2) := by decide
  rw [hdiv]
  apply BitVec.eq_of_getLsbD_eq
  intro i hi
  rw [BitVec.getLsbD_and, hmask i hi, BitVec.getLsbD_shiftLeft, BitVec.getLsbD_ushiftRight, decide_eq_true hi, Bool.true_and,
    Bool.and_comm]
  by_cases h : i < 2
  · simp [h]
  · rw [show 2 + (i - 2) = i by omega]

end Sys2Proof.Machine
end

section
/-! A change of the moving thread only: what it leaves, and that a further change of that thread is one too. -/

namespace Sys2Proof.Safety

open Machine

section
variable {s s' : State}

theorem OnlyThread.cur_eq (h : OnlyThread s s') : s'.cur = s.cur := (congrArg State.cur h.others :)
theorem OnlyThread.ppe_eq (h : OnlyThread s s') : s'.ppe = s.ppe := (congrArg State.ppe h.others :)
theorem OnlyThread.curT_eq (h : OnlyThread s s') : s'.curT = s.curT := by rw [State.curT, State.curT, h.cur_eq]

theorem OnlyThread.modThr (h : OnlyThread s s') (f : Thread → Thread) : OnlyThread s (s'.modThr f) where
  others := h.others
  thread u hu := (State.threads_modThr_other s' f u (h.curT_eq ▸ hu)).trans (h.thread u hu)
  memory := h.memory
  storage := h.storage

end

theorem OnlyThread.drew (s : State) (k : Nat) : OnlyThread s (s.drew k) := ⟨rfl, fun _ _ => rfl, fun _ => rfl, fun _ _ => rfl⟩

theorem OnlyThread.refl (s : State) : OnlyThread s s := OnlyThread.drew s 0

end Sys2Proof.Safety
end

section
/-! Frames: an update that writes CR or GPRs only, and the program interrupt (60_exceptions R1801, R1805) as `Safety.Enters`. -/

namespace Sys2Proof.Machine

open Sys2Proof.Safety

/-! ## One kind of register -/

/-- A thread that writes bits of CR only. -/
theorem keeps_cr {m c : Word} {th : Thread} (h : c &&& ~~~m = th.cr &&& ~~~m) : Keeps { cr := m } th { th with cr := c } where
  gpr _ _ := rfl
  fpr _ _ := rfl
  vr _ _ := rfl
  xer := rfl
  cr := h
  fpscr := rfl
  vscr := rfl
  lr _ := rfl
  ctr _ := rfl
  prio _ := rfl
  rest := rfl

/-- A thread that writes GPRs only. -/
theorem keeps_gpr {l : List (BitVec 5)} {g : Vector DWord 32} {th : Thread}
    (h : ∀ r, r ∉ l → ({ th with gpr := g } : Thread).getGpr r = th.getGpr r) : Keeps { gpr := l } th { th with gpr := g } where
  gpr := h
  fpr _ _ := rfl
  vr _ _ := rfl
  xer := rfl
  cr := rfl
  fpscr := rfl
  vscr := rfl
  lr _ := rfl
  ctr _ := rfl
  prio _ := rfl
  rest := rfl

theorem keeps_setGpr (r : BitVec 5) (v : DWord) (th : Thread) : Keeps { gpr := [r] } th (th.setGpr r v) :=
  keeps_gpr fun q hq => (th.getGpr_setGpr r q v).trans (if_neg fun h => hq (List.mem_singleton.mpr h.symm))

section
variable {i : Instr} {s : State} {P : State → Prop} {f : Thread → Thread}

/-- An instruction that only writes CR completes. -/
theorem completes_of_cr {m c : Word} (k : Nat) (he : Machine.exec i s = ppeNext (s.drew k) f) (hf : f s.thr = { s.thr with cr := c })
    (hm : c &&& ~~~m = s.thr.cr &&& ~~~m) (hP : ∀ t : State, t.thr.cr = c → P t) : Completes i s { cr := m } P :=
  Laws.completes_of_ppeNext k f he (hf ▸ keeps_cr hm) (hf ▸ rfl) (hf ▸ rfl) fun t ht => hP t (by rw [ht, hf]; rfl)

/-- An instruction that only writes a GPR completes. -/
theorem completes_of_setGpr {r : BitVec 5} {v : DWord} (k : Nat) (he : Machine.exec i s = ppeNext (s.drew k) f)
    (hf : f s.thr = s.thr.setGpr r v) (hP : ∀ t : State, t.thr.getGpr r = v → P t) : Completes i s { gpr := [r] } P :=
  Laws.completes_of_ppeNext k f he (hf ▸ keeps_setGpr r v s.thr) (hf ▸ rfl) (hf ▸ rfl) fun t ht =>
    hP t (by rw [ht, hf, Thread.getGpr_advance, Thread.getGpr_setGpr_same])

end

/-! ## Interrupts that save in SRR0 and SRR1 -/

/-- The MSR after an interrupt that saves in SRR0 and SRR1 and keeps ME (R1805). -/
theorem newMsr_eq_entryMsr {p : PpeShared} {k : Interrupt} (m : DWord) (hh : usesHsrr p k = false) (hm : clearsMe k = false) :
    newMsr p k m = entryMsr m (setsHv p k) := by
  have hset : ∀ j < 64, j ≠ 3 → ibit (0x9000000000000000#64) j = ibit (0x8000000000000000#64) j := by decide
  have hclear : ∀ j < 64, j ≠ 62 → ibit (~~~0xEF32#64) j = ibit (~~~0xEF30#64) j := by decide
  unfold newMsr entryMsr
  simp only [hh, hm, Bool.false_eq_true, if_false]
  generalize setsHv p k = hv
  apply eq_of_ibit_eq
  intro j hj
  rw [ibit_setIbit _ _ _ _ (by decide) hj]
  by_cases h62 : j = 62
  · subst h62
    rw [if_pos rfl, ibit_and, show ibit (~~~0xEF32#64) 62 = false by decide, Bool.and_false]
  rw [if_neg (Ne.symm h62), ibit_setIbit _ _ _ _ (by decide) hj]
  by_cases h3 : j = 3
  · subst h3
    rw [if_pos rfl, ibit_and, ibit_or, show ibit (~~~0xEF32#64) 3 = true by decide, Bool.and_true]
    cases hv <;> congr 1
  · rw [if_neg (Ne.symm h3), ibit_and, ibit_and, ibit_or, ibit_or, hclear j hj h62]
    cases hv
    · rfl
    · exact congrArg (fun b => (ibit m j || b) && ibit (~~~0xEF30#64) j) (hset j hj h3).symm

/-- The 'm' interrupts set HV with LPES = '00' (R1805). -/
theorem setsHv_program (s : State) : setsHv s.ppe .program = lpesZero s := by
  have h : ∀ l : BitVec 2, (!ibit l 0 && !ibit l 1) = decide (l = 0) := by decide
  exact h s.ppe.lpes

/-- The moving thread after an interrupt that saves in SRR0 and SRR1. -/
theorem State.thr_interrupt {s : State} {k : Interrupt} (ret info : DWord) (hh : usesHsrr s.ppe k = false) :
    (s.interrupt s.curT k ret info).thr = { s.thr with
      srr0 := ret, srr1 := savedMsr k s.thr.msr info, msr := newMsr s.ppe k s.thr.msr, pc := vectorOf (s.sresetVector s.curT) k } := by
  refine (State.thr_modThr s _).trans ?_
  rw [hh]
  rfl

/-- The moving thread, changed outside its MSR, takes the program interrupt. -/
theorem enters_program {s s' : State} (h : OnlyThread s s') (hm : s'.thr.msr = s.thr.msr) (ret info : DWord) :
    Enters s'.thr s (s'.interrupt s'.curT .program ret info) 0x700 ret info (lpesZero s) where
  only := h.modThr _
  thread := by
    have hmsr : newMsr s'.ppe .program s.thr.msr = entryMsr s.thr.msr (lpesZero s) := by
      rw [h.ppe_eq, newMsr_eq_entryMsr _ rfl rfl, setsHv_program]
    rw [State.thr_interrupt _ _ rfl, hm, hmsr]
    rfl

/-- An instruction that ends in the program interrupt, after `k` draws of free values. -/
theorem traps_of_raise {i : Instr} {s : State} {info : DWord} (k : Nat) (he : Machine.exec i s = (s.drew k).raise .program info) :
    Traps i s 0x700 info :=
  ⟨_, he, enters_program (.drew s k) rfl _ _⟩

end Sys2Proof.Machine
end

section
/-! The branches, the condition-register instructions and the traps (40_ppe_branch R600 to R603, R610 to R618, R620 to R623, 44_ppe_system
R932, R933, R935). -/

namespace Sys2Proof.Machine

open Sys2Proof.Safety

/-! ## Condition register -/

theorem ibit_crBitMask : ∀ k : BitVec 5, ibit (crBitMask k) k.toNat = true := by decide

/-- A condition-register logical instruction completes. -/
theorem completes_of_crLogic {i : Instr} {s : State} {f : Bool → Bool → Bool} {b : Bool} {bt ba bb : BitVec 5}
    (he : Machine.exec i s = ppeNext s (crLogic f bt ba bb)) (hb : f (ibit s.thr.cr ba.toNat) (ibit s.thr.cr bb.toNat) = b) :
    Completes i s { cr := crBitMask bt } fun t => ibit t.thr.cr bt.toNat = b :=
  completes_of_cr 0 he rfl (setIbit_outside _ _ _ _ (ibit_crBitMask bt)) fun t ht => by
    rw [ht, ibit_setIbit _ _ _ _ bt.isLt bt.isLt, if_pos rfl]
    exact hb

theorem completes_of_crLogical {i : Instr} {bt : BitVec 5} {f : Thread → Bool} (h : CrLogical i bt f) (s : State) :
    Completes i s { cr := crBitMask bt } fun t => ibit t.thr.cr bt.toNat = f s.thr := by
  cases h with
  | creqv ba bb => exact completes_of_crLogic rfl (Bool.not_not _)
  | _ => exact completes_of_crLogic rfl rfl

theorem completes_mcrf (bf bfa : BitVec 3) (s : State) :
    Completes (.ppeMcrf bf bfa) s { cr := crFieldMask bf } fun t =>
      ∀ j, j < 4 → ibit t.thr.cr (4 * bf.toNat + j) = ibit s.thr.cr (4 * bfa.toNat + j) :=
  completes_of_cr 0 rfl rfl (Laws.setCr_out _ _ _) fun t ht j hj => by
    have := bfa.isLt
    rw [ht, Laws.ibit_setIbm4 _ _ _ _ hj]
    exact ibit_ibm _ hj (by omega)

/-- The mask of one field, all ones or all zeros. -/
theorem ibit_maskField (c : Bool) {j : Nat} (hj : j < 4) : ibit (if c then 0xF#4 else 0) j = c := by
  have h : ∀ j < 4, ibit (0xF#4) j = true ∧ ibit (0#4) j = false := by decide
  obtain ⟨h1, h0⟩ := h j hj
  cases c
  · exact h0
  · exact h1

/-- One more field of the mask. -/
theorem ibit_append_maskField {fxm : BitVec 8} {m : Nat} {v : BitVec m} (i : Nat) (hm : m = 4 * i)
    (hv : ∀ k < m, ibit v k = ibit fxm (k / 4)) :
    ∀ k < m + 4, ibit (v ++ (if ibit fxm i then 0xF#4 else 0)) k = ibit fxm (k / 4) := by
  intro k hk
  rw [ibit_append _ _ hk]
  split
  · next h => exact hv k h
  · next h => rw [ibit_maskField _ (by omega), show k / 4 = i by omega]

/-- The mask of the selected fields: bit `k` is in field `k / 4`. -/
theorem ibit_crMask (fxm : BitVec 8) : ∀ k < 32, ibit (crMask fxm) k = ibit fxm (k / 4) := by
  have h0 : ∀ k < 4, ibit (if ibit fxm 0 then 0xF#4 else 0) k = ibit fxm (k / 4) := fun k hk => by
    rw [ibit_maskField _ hk, Nat.div_eq_of_lt hk]
  have h3 := ibit_append_maskField 3 rfl (ibit_append_maskField 2 rfl (ibit_append_maskField 1 rfl h0))
  exact ibit_append_maskField 7 rfl
    (ibit_append_maskField 6 rfl (ibit_append_maskField 5 rfl (ibit_append_maskField 4 rfl h3)))

theorem ibit_mergeCr (cr w : Word) (fxm : BitVec 8) {k : Nat} (hk : k < 32) :
    ibit (mergeCr cr w fxm) k = if ibit fxm (k / 4) then ibit w k else ibit cr k := by
  rw [mergeCr, ibit_or, ibit_and, ibit_and, ibit_not _ hk, ibit_crMask fxm k hk]
  cases ibit fxm (k / 4) <;> simp

/-- Selecting one field. -/
theorem popcount_oneField : ∀ f < 8, popcount (128#8 >>> f) = 1 ∧ ibit (128#8 >>> f) f = true := by decide

/-- CR with the fields that FXM selects from the low word of `v`. -/
theorem ibit_mergeCr_lowWord (cr : Word) (v : DWord) (fxm : BitVec 8) {k : Nat} (hk : k < 32) :
    ibit (mergeCr cr (lowWord v) fxm) k = if ibit fxm (k / 4) then ibit v (32 + k) else ibit cr k := by
  rw [ibit_mergeCr _ _ _ hk, ibit_lowWord v hk]

section
variable (r : BitVec 5) (fxm : BitVec 8) (s : State)

theorem completes_mtcrf : Completes (.ppeMtcrf r fxm) s { cr := 0xFFFFFFFF } fun t => ∀ k, k < 32 →
    ibit t.thr.cr k = if ibit fxm (k / 4) then ibit (s.thr.getGpr r) (32 + k) else ibit s.thr.cr k :=
  completes_of_cr 0 rfl rfl (BitVec.and_zero.trans BitVec.and_zero.symm) fun _ ht _ hk => ht ▸ ibit_mergeCr_lowWord _ _ _ hk

/-- One field as `mtcrf` does it; otherwise any CR (U53). -/
theorem completes_mtocrf : Completes (.ppeMtocrf r fxm) s { cr := 0xFFFFFFFF } fun t =>
    (∃ f, f < 8 ∧ fxm = 128#8 >>> f) → ∀ k, k < 32 →
      ibit t.thr.cr k = if ibit fxm (k / 4) then ibit (s.thr.getGpr r) (32 + k) else ibit s.thr.cr k := by
  by_cases h1 : popcount fxm = 1
  · exact completes_of_cr 0 (if_pos h1) rfl (BitVec.and_zero.trans BitVec.and_zero.symm) fun _ ht _ _ hk =>
      ht ▸ ibit_mergeCr_lowWord _ _ _ hk
  · refine completes_of_cr 1 (if_neg h1) rfl (BitVec.and_zero.trans BitVec.and_zero.symm) fun _ _ hone => ?_
    obtain ⟨f, hf, rfl⟩ := hone
    exact absurd (popcount_oneField f hf).1 h1

/-- The selected field in its place; every other bit is any value (U53). -/
theorem completes_mfocrf : Completes (.ppeMfocrf r fxm) s { gpr := [r] } fun t => ∀ f, f < 8 → fxm = 128#8 >>> f →
    ∀ j, j < 4 → ibit (t.thr.getGpr r) (32 + 4 * f + j) = ibit s.thr.cr (4 * f + j) := by
  refine completes_of_setGpr 1 rfl rfl fun t ht f hf hx j hj => ?_
  obtain ⟨hone, hbit⟩ := popcount_oneField f hf
  rw [ht, hx, if_pos hone, ibit_append _ _ (by omega), if_neg (by omega), show 32 + 4 * f + j - 32 = 4 * f + j by omega,
    ibit_mergeCr _ _ _ (by omega), show (4 * f + j) / 4 = f by omega, if_pos hbit]

end

/-- Settles O7, one lemma for each instruction or family. -/
theorem conditionRegisterFields : Obligations.ConditionRegisterFields :=
  ⟨⟨fun _ _ _ h s => completes_of_crLogical h s, completes_mcrf⟩, fun r fxm s =>
    ⟨completes_mtcrf r fxm s, completes_mtocrf r fxm s, completes_mfocrf r fxm s⟩⟩

/-! ## Branches -/

theorem Thread.target_eq (th : Thread) (a : DWord) : th.target a = branchTarget th a := by
  unfold Thread.target branchTarget
  dsimp only
  rw [and_not_three, and_low32]
  rfl

/-- The CTR that `countDown` leaves. -/
theorem Thread.countDown_eq (th : Thread) (bo : BitVec 5) :
    th.countDown bo = { th with ctr := if !ibit bo 2 then th.ctr - 1 else th.ctr } := by
  unfold Thread.countDown
  cases ibit bo 2 <;> rfl

theorem Thread.condOk_eq (th : Thread) (bo bi : BitVec 5) : th.condOk bo bi = condPasses th bo bi :=
  congrArg (ibit bo 0 || ·) (Bool.beq_eq_decide_eq _ _)

theorem Thread.ctrOk_countDown (th : Thread) (bo : BitVec 5) : (th.countDown bo).ctrOk bo = ctrPasses th bo := by
  unfold Thread.ctrOk ctrPasses Thread.countDown Thread.width Thread.sf
  cases hb : ibit bo 2
  · cases hm : ibit th.msr 0 <;> simp [hm]
  · rfl

/-- An instruction that jumps, after CTR was counted down or not. -/
theorem branches_of_jump {i : Instr} {s : State} {f : Thread → Thread} {taken lk counts : Bool} {a : DWord}
    (he : Machine.exec i s = .next (s.modThr f))
    (hf : f s.thr = ({ s.thr with ctr := if counts then s.thr.ctr - 1 else s.thr.ctr } : Thread).jump taken a lk) :
    ∃ t, Machine.exec i s = .next t ∧ OnlyThread s t ∧ Keeps { lr := lk, ctr := counts } s.thr t.thr ∧
      t.thr.pc = (if taken then branchTarget s.thr a else following s.thr) ∧
      (lk = true → t.thr.lr = s.thr.pc + 4) ∧ (counts = true → t.thr.ctr = s.thr.ctr - 1) := by
  refine ⟨_, he, (OnlyThread.refl s).modThr f, ?_⟩
  rw [State.thr_modThr, hf]
  refine ⟨⟨fun _ _ => rfl, fun _ _ => rfl, fun _ _ => rfl, rfl, rfl, rfl, rfl, ?_, ?_, fun _ => rfl, rfl⟩, ?_, ?_, ?_⟩
  · rintro ⟨⟩
    rfl
  · rintro ⟨⟩
    rfl
  · change (if taken then Thread.target _ a else Thread.pc (Thread.advance _)) = _
    rw [Thread.target_eq, Laws.following_advance]
    rfl
  · rintro rfl
    rfl
  · rintro rfl
    rfl

/-- A conditional branch counts CTR down first. -/
theorem countDown_jump (th : Thread) (bo bi : BitVec 5) (a : DWord) (lk : Bool) :
    (th.countDown bo).jump ((th.countDown bo).ctrOk bo && (th.countDown bo).condOk bo bi) a lk =
      ({ th with ctr := if !ibit bo 2 then th.ctr - 1 else th.ctr } : Thread).jump (ctrPasses th bo && condPasses th bo bi) a lk := by
  rw [Thread.ctrOk_countDown, Thread.condOk_eq, Thread.countDown_eq]
  rfl

/-- Settles O8: every valid branch is a jump (`branches_of_jump`), of a thread whose CTR was counted down where BO says so. -/
theorem branchesGoToTheirTarget : Obligations.BranchesGoToTheirTarget := by
  intro i taken addr lk counts h s
  cases h with
  | b li aa => exact branches_of_jump (counts := false) rfl rfl
  | bc bo bi bd aa =>
    refine branches_of_jump rfl ((countDown_jump s.thr bo bi _ lk).trans ?_)
    rw [Thread.countDown_eq]
  | bclr bo bi bh =>
    refine branches_of_jump rfl ((countDown_jump s.thr bo bi _ lk).trans ?_)
    rw [Thread.countDown_eq]
  | bcctr bo bi bh _ valid =>
    refine branches_of_jump (counts := false) (if_neg (by simp [valid])) ?_
    rw [Thread.condOk_eq]
    rfl

/-! ## Traps -/

theorem trapCond_iff (a b : DWord) (on : BitVec 5) : trapCond a b on = true ↔ trapHolds a b on := by
  simp [trapCond, trapHolds, BitVec.slt, BitVec.ult, or_assoc]

theorem Thread.sword_eq (th : Thread) (r : BitVec 5) : th.sword r = ((th.getGpr r).setWidth 32).signExtend 64 :=
  congrArg (BitVec.signExtend 64) (lowWord_eq_setWidth _)

/-- An instruction that traps or goes on. -/
theorem trapIf_outcomes {i : Instr} {s : State} {c : Bool} {cond : Prop} (he : Machine.exec i s = trapIf s c) (hc : c = true ↔ cond) :
    (cond → Traps i s 0x700 0x20000) ∧ (¬cond → Completes i s {} fun _ => True) := by
  rw [← hc]
  refine ⟨fun h => traps_of_raise 0 (he.trans (if_pos h)), fun h => ?_⟩
  exact Laws.completes_of_ppeNext 0 id (he.trans (if_neg h)) (keeps_gpr fun _ _ => rfl) rfl rfl fun _ _ => trivial

/-- Settles O9: each trap is `trapIf` of its condition. -/
theorem trapsOnTheirCondition : Obligations.TrapsOnTheirCondition := by
  intro i cond h s
  cases h with
  | tw on ra rb => exact trapIf_outcomes rfl (by rw [Thread.sword_eq, Thread.sword_eq, trapCond_iff])
  | twi on ra si => exact trapIf_outcomes rfl (by rw [Thread.sword_eq, trapCond_iff]; rfl)
  | td on ra rb => exact trapIf_outcomes rfl (trapCond_iff ..)
  | tdi on ra si => exact trapIf_outcomes rfl (trapCond_iff ..)

end Sys2Proof.Machine
end

section
/-! The words of 30_encoding that the specification writes out. -/

namespace Sys2Proof.Tests

open Sys2Proof.Safety

/-- Settles O55: evaluation of the decoder of each word's instruction set. -/
theorem sampleWordsDecode : Obligations.SampleWordsDecode := by
  simp only [Obligations.SampleWordsDecode, sampleWords, List.forall_mem_cons, List.not_mem_nil, false_imp_iff, implies_true, and_true]
  and_intros <;> rfl

end Sys2Proof.Tests
end

section
/-! Loads of several parts, all of them ordinary (41_ppe_loadstore section 5): what they deliver, and the registers they fill. -/

namespace Sys2Proof.Machine

open Sys2Proof.Safety

/-! ## Ordinary parts -/

section
variable {α : Type} {s : State} {op : DWord} {store : Bool} {al : Align} {len : Nat} {ea : α → DWord} {pg : α → Page}

/-- Ordinary parts that meet the alignment rules are translated as a whole, and nothing changes. -/
theorem prepareFrom_ordinary (hb : al.before = false) (l : List α) (h : ∀ a ∈ l, Ordinary s (ea a) len store (pg a))
    (ha : ∀ a ∈ l, al.after (pg a) (inhibited s (pg a)) = false) (acc : List Piece) :
    prepareFrom op store al (l.map fun a => (ea a, len)) acc s = .all (acc.reverse ++ l.map fun a => pieceOf s (ea a) (pg a)) s := by
  induction l generalizing acc with
  | nil => simp [prepareFrom]
  | cons a rest ih =>
    obtain ⟨hh, ht⟩ := List.forall_mem_cons.mp h
    obtain ⟨hha, hta⟩ := List.forall_mem_cons.mp ha
    simp only [List.map_cons, prepareFrom, dataPage_ordinary hh hb hha]
    rw [ih ht hta, List.reverse_cons, List.append_assoc]
    rfl

/-- The parts of main storage are read one after the other, and nothing changes. -/
theorem loadList_dram (l : List α) (h : ∀ a ∈ l, region s (pg a).ra = .dram) :
    loadList (l.map fun a => (pieceOf s (ea a) (pg a), len)) s = .ok (l.map fun a => readBytes s.mem (pg a).ra len) s := by
  induction l with
  | nil => rfl
  | cons a rest ih =>
    obtain ⟨hh, ht⟩ := List.forall_mem_cons.mp h
    have hload : realLoad s (pieceOf s (ea a) (pg a)).phys len = .value (readBytes s.mem (pg a).ra len) s := by
      unfold realLoad
      rw [show (pieceOf s (ea a) (pg a)).phys.ra = (pg a).ra from rfl, regionAt_dram len hh]
      rfl
    simp only [List.map_cons, loadList, hload, ih ht, Res.bind_ok]

/-- A load of ordinary parts goes on with the big-endian numbers of their bytes. -/
theorem loadParts_ordinary (hb : al.before = false) (l : List α) (h : ∀ a ∈ l, Ordinary s (ea a) len false (pg a))
    (ha : ∀ a ∈ l, al.after (pg a) (inhibited s (pg a)) = false) (f : List Nat → State → State) (g : State → Out State) :
    loadParts s op al (l.map fun a => (ea a, len)) f g = g (f (l.map fun a => readBytes s.mem (pg a).ra len) s) := by
  have hz : (l.map fun a => pieceOf s (ea a) (pg a)).zip ((l.map fun a => (ea a, len)).map (·.2)) =
      l.map fun a => (pieceOf s (ea a) (pg a), len) := by
    rw [List.map_map, List.zip_map']
    rfl
  unfold loadParts
  simp only [prepare, prepareFrom_ordinary hb l h ha, List.reverse_nil, List.nil_append, hz,
    loadList_dram l fun a hl => (h a hl).dram, Res.done_ok]

end

/-! ## Registers filled in order -/

theorem Thread.setWords_eq (th : Thread) (r : Nat) (vs : List Nat) : th.setWords r vs = { th with gpr := (th.setWords r vs).gpr } := by
  induction vs generalizing th r with
  | nil => rfl
  | cons v rest ih =>
    rw [Thread.setWords, ih]
    rfl

/-- A register that is not among those filled. -/
theorem Thread.getGpr_setWords_other (th : Thread) {r : Nat} {vs : List Nat} {q : BitVec 5}
    (h : ∀ k < vs.length, BitVec.ofNat 5 (r + k) ≠ q) : (th.setWords r vs).getGpr q = th.getGpr q := by
  induction vs generalizing th r with
  | nil => rfl
  | cons v rest ih =>
    rw [Thread.setWords, ih, Thread.getGpr_setGpr, if_neg (show BitVec.ofNat 5 r ≠ q from h 0 (Nat.succ_pos _))]
    intro k hk
    rw [Nat.add_assoc, Nat.add_comm 1]
    exact h (k + 1) (Nat.succ_lt_succ hk)

/-- The register filled with word `k` of at most 32. -/
theorem Thread.getGpr_setWords (th : Thread) {r : Nat} {vs : List Nat} (hl : vs.length ≤ 32) {k : Nat} (hk : k < vs.length) :
    (th.setWords r vs).getGpr (BitVec.ofNat 5 (r + k)) = BitVec.ofNat 64 vs[k] := by
  induction vs generalizing th r k with
  | nil => exact absurd hk (Nat.not_lt_zero k)
  | cons v rest ih =>
    rw [List.length_cons] at hl hk
    rw [Thread.setWords]
    cases k with
    | zero =>
      rw [Thread.getGpr_setWords_other, Nat.add_zero, Thread.getGpr_setGpr_same]
      · rfl
      · intro k hk h
        have := congrArg BitVec.toNat h
        simp only [BitVec.toNat_ofNat] at this
        omega
    | succ k =>
      rw [show r + (k + 1) = r + 1 + k by omega, ih _ (by omega) (by omega)]
      rfl

theorem State.modThr_self (s : State) : (s.modThr fun th => th) = s := by
  unfold State.modThr State.modT
  rw [show s.threads.set s.curT s.threads[s.curT] = s.threads from Vector.set_getElem_self _]

/-- An instruction that fills registers with `j` words and then is illegal. -/
theorem trapsAfter_setWords {i : Instr} {s : State} {r j : Nat} {g : Nat → Nat} (hj : j ≤ 32)
    (he : Machine.exec i s = (s.modThr fun th => th.setWords r ((List.range j).map g)).illegal) :
    TrapsAfter i s { gpr := (List.range j).map fun k => BitVec.ofNat 5 (r + k) }
      (fun u => ∀ k, k < j → u.getGpr (BitVec.ofNat 5 (r + k)) = BitVec.ofNat 64 (g k)) 0x700 0x80000 := by
  have hlen : ((List.range j).map g).length = j := by rw [List.length_map, List.length_range]
  have heq := s.thr.setWords_eq r ((List.range j).map g)
  have hthr := State.thr_modThr s fun th => th.setWords r ((List.range j).map g)
  have hpc : (s.thr.setWords r ((List.range j).map g)).pc = s.thr.pc := by rw [heq]
  have hmsr : (s.thr.setWords r ((List.range j).map g)).msr = s.thr.msr := by rw [heq]
  refine ⟨_, s.thr.setWords r ((List.range j).map g), he, ?_, hpc, fun k hk => ?_, ?_⟩
  · rw [heq]
    refine keeps_gpr fun q hq => ?_
    rw [← heq]
    refine s.thr.getGpr_setWords_other fun k hk h => hq (List.mem_map.mpr ⟨k, ?_, h⟩)
    exact List.mem_range.mpr (hlen ▸ hk)
  · rw [s.thr.getGpr_setWords (by omega) (by omega), List.getElem_map, List.getElem_range]
  · rw [hthr, hpc, ← hthr]
    exact enters_program ((OnlyThread.refl s).modThr _) (hthr ▸ hmsr) _ _

end Sys2Proof.Machine
end

section
/-! The invalid forms (40_ppe_branch R603, 41_ppe_loadstore R653, R703 to R707, D71) and `attn` (44_ppe_system R950). -/

namespace Sys2Proof.Machine

open Sys2Proof.Safety

/-! ## Update forms -/

/-- A fixed-point load with update of an invalid register. -/
theorem traps_of_fixedLoad {i : Instr} {rt r : BitVec 5} {ea : Thread → DWord} {len : Nat} {al : Safety.Alignment}
    {val : List Host.Cell → Nat → DWord} (h : FixedLoad i rt (some r) ea len al val) (hr : r = 0 ∨ r = rt) (s : State) :
    Traps i s 0x700 0x80000 := by
  cases h <;> exact traps_of_raise 0 (if_pos hr)

/-- A fixed-point store with update of register 0. -/
theorem traps_of_fixedStore {i : Instr} {rs : BitVec 5} {ea : Thread → DWord} {len : Nat} {rev : Bool}
    (h : FixedStore i rs (some 0) ea len rev) (s : State) : Traps i s 0x700 0x80000 := by
  cases h <;> exact traps_of_raise 0 rfl

section
variable {s : State} (hf : ibit s.thr.msr 50 = true)
include hf

theorem traps_of_floatLoad {i : Instr} {frt : BitVec 5} {ea : Thread → DWord} {sg : Bool} (h : FloatLoad i frt (some 0) ea sg) :
    Traps i s 0x700 0x80000 := by
  cases h <;> exact traps_of_raise 0 (if_pos hf)

theorem traps_of_floatStore {i : Instr} {frs : BitVec 5} {ea : Thread → DWord} {len : Nat} (h : FloatStore i frs (some 0) ea len) :
    Traps i s 0x700 0x80000 := by
  cases h <;> exact traps_of_raise 0 (if_pos hf)

/-- The conversion to single may have drawn a free value before the form is found invalid. -/
theorem traps_of_singleStore {i : Instr} {frs : BitVec 5} {ea : Thread → DWord} (h : SingleStore i frs (some 0) ea) :
    Traps i s 0x700 0x80000 := by
  have hs : ∃ k, (s.singleWord (s.thr.getFpr frs)).2 = s.drew k := by
    unfold State.singleWord
    split
    · exact ⟨0, rfl⟩
    · exact ⟨1, rfl⟩
  obtain ⟨k, hk⟩ := hs
  cases h <;> exact traps_of_raise k ((if_pos hf).trans (congrArg State.illegal hk))

end

/-! ## Multiples -/

theorem crosses_of_unforced {s : State} {ea : DWord} {len : Nat} (h : unforced s ea len) :
    (s.ppe.forceAi && crosses ea len 32) = false := by
  unfold unforced at h
  unfold crosses
  cases hf : s.ppe.forceAi with
  | false => rfl
  | true => exact decide_eq_false (h hf).not_gt

/-- `lmw` whose range reaches RA loads the registers before it. -/
theorem trapsAfter_lmw {r ra : BitVec 5} {d : BitVec 16} {s : State} {p : Page} (hr : r.toNat ≤ ra.toNat)
    (hal : (eaD ra d s.thr).toNat % 4 = 0) (hi : inhibited s p = false) (hu : unforced s (eaD ra d s.thr) (4 * (32 - r.toNat)))
    (ho : ∀ k, k < ra.toNat - r.toNat →
      Ordinary s (s.thr.truncEa (eaD ra d s.thr + BitVec.ofNat 64 (4 * k))) 4 false { p with ra := p.ra + 4 * k }) :
    TrapsAfter (.ppeLmw r ra d) s { gpr := (List.range (ra.toNat - r.toNat)).map fun k => BitVec.ofNat 5 (r.toNat + k) }
      (fun u => ∀ k, k < ra.toNat - r.toNat →
        u.getGpr (BitVec.ofNat 5 (r.toNat + k)) = zeroExtended 4 s.mem (p.ra + 4 * k)) 0x700 0x80000 := by
  have hbefore : (alignMultiple s (eaD ra d s.thr) (32 - r.toNat)).before = false := decide_eq_false (not_not.mpr hal)
  have hafter (q : Page) : (alignMultiple s (eaD ra d s.thr) (32 - r.toNat)).after q false = false := crosses_of_unforced hu
  refine trapsAfter_setWords (by have := ra.isLt; omega) ?_
  have hload := loadParts_ordinary (op := s.thr.truncEa (eaD ra d s.thr)) hbefore (List.range (ra.toNat - r.toNat))
    (fun k hk => ho k (List.mem_range.mp hk)) (fun k _ => (congrArg _ hi).trans (hafter _))
    (fun vs s => s.modThr fun th => th.setWords r.toNat vs) State.illegal
  change execPpeLmw r ra d s = _
  unfold execPpeLmw
  simp only [show s.thr.eaD ra d = eaD ra d s.thr from rfl, if_pos hr, hbefore, Bool.and_false, Bool.false_eq_true, if_false]
  exact hload

/-! ## Strings -/

/-- The first of the registers that makes the form invalid. -/
theorem beforeCollision_eq {r : BitVec 5} {bad : List (BitVec 5)} {n j : Nat} (hj : j < n)
    (hbad : BitVec.ofNat 5 (r.toNat + j) ∈ bad) (hgood : ∀ i, i < j → BitVec.ofNat 5 (r.toNat + i) ∉ bad) :
    beforeCollision r bad n = j := by
  unfold beforeCollision
  rw [show n = j + (n - j - 1 + 1) by omega, List.range_add, List.takeWhile_append_of_pos, List.range_succ_eq_map, List.map_cons,
    List.takeWhile_cons_of_neg, List.append_nil, List.length_range]
  · simpa using hbad
  · intro i hi
    simpa using hgood i (List.mem_range.mp hi)

/-- The words of whole registers. -/
theorem wordsOf_range (whole : Bool) (b : Nat → Nat) (j : Nat) :
    wordsOf whole ((List.range (4 * j)).map b) =
      (List.range j).map fun i => ((b (4 * i) * 256 + b (4 * i + 1)) * 256 + b (4 * i + 2)) * 256 + b (4 * i + 3) := by
  induction j generalizing b with
  | zero => rfl
  | succ j ih =>
    have hsplit : (List.range (4 * (j + 1))).map b = b 0 :: b 1 :: b 2 :: b 3 :: (List.range (4 * j)).map fun k => b (4 + k) := by
      rw [show 4 * (j + 1) = 4 + 4 * j by omega, List.range_add, List.map_append, List.map_map]
      rfl
    rw [hsplit, wordsOf, ih, List.range_succ_eq_map, List.map_cons, List.map_map]
    refine congrArg₂ List.cons rfl (List.map_congr_left fun i _ => ?_)
    simp only [Function.comp_apply, show 4 * Nat.succ i = 4 + 4 * i by omega, Nat.add_assoc]

/-- Four bytes read one by one. -/
theorem readBytes_four (m : List Host.Cell) (a : Nat) :
    ((readBytes m a 1 * 256 + readBytes m (a + 1) 1) * 256 + readBytes m (a + 2) 1) * 256 + readBytes m (a + 3) 1 = readBytes m a 4 := by
  simp [readBytes]

/-- A load string whose range reaches a register that makes it invalid loads the registers before that one. -/
theorem trapsAfter_loadString {i : Instr} {s : State} {r : BitVec 5} {bad : List (BitVec 5)} {ea : DWord} {n j : Nat} {p : Page}
    (he : Machine.exec i s = loadString s r bad ea n) (hn : n ≤ 128) (hj : j < (n + 3) / 4)
    (hbad : BitVec.ofNat 5 (r.toNat + j) ∈ bad) (hgood : ∀ i, i < j → BitVec.ofNat 5 (r.toNat + i) ∉ bad)
    (hi : inhibited s p = false) (hu : unforced s ea (4 * j))
    (ho : ∀ k, k < 4 * j → Ordinary s (s.thr.truncEa (ea + BitVec.ofNat 64 k)) 1 false { p with ra := p.ra + k }) :
    TrapsAfter i s { gpr := (List.range j).map fun k => BitVec.ofNat 5 (r.toNat + k) }
      (fun u => ∀ k, k < j → u.getGpr (BitVec.ofNat 5 (r.toNat + k)) = zeroExtended 4 s.mem (p.ra + 4 * k)) 0x700 0x80000 := by
  have hafter (q : Page) : (alignString s ea (4 * j)).after q false = false := crosses_of_unforced hu
  refine trapsAfter_setWords (by omega) (he.trans ?_)
  have hload := loadParts_ordinary (op := s.thr.truncEa ea) (al := alignString s ea (4 * j)) rfl (List.range (4 * j))
    (fun k hk => ho k (List.mem_range.mp hk)) (fun k _ => (congrArg _ hi).trans (hafter _))
    (fun vs s => s.modThr fun th => th.setWords r.toNat (wordsOf (decide (vs.length < 4 * j)) vs)) State.illegal
  unfold loadString Thread.partsFrom
  simp only [beforeCollision_eq hj hbad hgood, if_pos hj, Nat.one_mul]
  refine hload.trans ?_
  rw [wordsOf_range]
  simp only [← Nat.add_assoc, readBytes_four]

theorem Thread.xerCount_eq (th : Thread) : th.xerCount = th.xer.toNat % 128 := by
  simp [Thread.xerCount, ibm]

theorem stringLen_le (x : BitVec 5) : stringLen x ≤ 32 := by
  have := x.isLt
  unfold stringLen
  split <;> omega

/-- `lswi` whose range reaches RA. -/
theorem trapsAfter_lswi {r ra x : BitVec 5} {s : State} {p : Page} {j : Nat} {ea : DWord} (hea : ea = s.thr.raOr0 ra)
    (hj : j < (stringLen x + 3) / 4) (hbad : BitVec.ofNat 5 (r.toNat + j) = ra)
    (hgood : ∀ i, i < j → BitVec.ofNat 5 (r.toNat + i) ≠ ra) (hi : inhibited s p = false) (hu : unforced s ea (4 * j))
    (ho : ∀ k, k < 4 * j → Ordinary s (s.thr.truncEa (ea + BitVec.ofNat 64 k)) 1 false { p with ra := p.ra + k }) :
    TrapsAfter (.ppeLswi r ra x) s { gpr := (List.range j).map fun k => BitVec.ofNat 5 (r.toNat + k) }
      (fun u => ∀ k, k < j → u.getGpr (BitVec.ofNat 5 (r.toNat + k)) = zeroExtended 4 s.mem (p.ra + 4 * k)) 0x700 0x80000 :=
  trapsAfter_loadString (bad := [ra]) (congrArg (loadString s r [ra] · (stringLen x)) hea.symm) ((stringLen_le x).trans (by decide)) hj
    (List.mem_singleton.mpr hbad) (fun i h => mt List.mem_singleton.mp (hgood i h)) hi hu ho

/-- `lswx` whose range reaches RA or RB; where RT is one of them nothing is loaded. -/
theorem trapsAfter_lswx {r ra x : BitVec 5} {s : State} {p : Page} {j : Nat} (hj : j < (s.thr.xer.toNat % 128 + 3) / 4)
    (hbad : BitVec.ofNat 5 (r.toNat + j) = ra ∨ BitVec.ofNat 5 (r.toNat + j) = x)
    (hgood : ∀ i, i < j → ¬(BitVec.ofNat 5 (r.toNat + i) = ra ∨ BitVec.ofNat 5 (r.toNat + i) = x))
    (hi : inhibited s p = false) (hu : unforced s (eaX ra x s.thr) (4 * j))
    (ho : ∀ k, k < 4 * j → Ordinary s (s.thr.truncEa (eaX ra x s.thr + BitVec.ofNat 64 k)) 1 false { p with ra := p.ra + k }) :
    TrapsAfter (.ppeLswx r ra x) s { gpr := (List.range j).map fun k => BitVec.ofNat 5 (r.toNat + k) }
      (fun u => ∀ k, k < j → u.getGpr (BitVec.ofNat 5 (r.toNat + k)) = zeroExtended 4 s.mem (p.ra + 4 * k)) 0x700 0x80000 := by
  by_cases hr : r = ra ∨ r = x
  · obtain rfl : j = 0 := by
      by_contra h
      exact hgood 0 (Nat.pos_of_ne_zero h) (by rwa [Nat.add_zero, BitVec.ofNat_toNat, BitVec.setWidth_eq])
    exact trapsAfter_setWords (g := fun k => readBytes s.mem (p.ra + 4 * k) 4) (Nat.zero_le _)
      ((if_pos hr).trans (congrArg State.illegal s.modThr_self.symm))
  · refine trapsAfter_loadString (bad := [ra, x]) (n := s.thr.xerCount) (if_neg hr) ?_ ?_ ?_ ?_ hi hu ho
    · rw [Thread.xerCount_eq]
      omega
    · rwa [Thread.xerCount_eq]
    · simpa using hbad
    · simpa using hgood

/-! ## The obligation -/

/-- Settles O19: an invalid form raises the interrupt before or after the registers that it may load; `attn` looks at its enable. -/
theorem invalidFormsAreIllegal : Obligations.InvalidFormsAreIllegal := by
  refine ⟨⟨fun bo bi bh lk s h => traps_of_raise 0 (if_pos (by rw [h]; rfl)), fun _ _ _ _ _ _ _ h hr s => traps_of_fixedLoad h hr s,
    fun _ _ _ _ _ _ h hr s => traps_of_fixedStore (hr ▸ h) s, fun _ _ _ _ h _ hf => traps_of_floatLoad hf h,
    fun _ _ _ _ h _ hf => traps_of_floatStore hf h, fun _ _ _ h _ hf => traps_of_singleStore hf h,
    fun _ _ _ s h => traps_of_raise 0 (if_pos h), fun _ _ _ _ _ hr hal hi hu ho => trapsAfter_lmw hr hal hi hu ho, ?_⟩,
    fun s => ⟨fun h => traps_of_raise 0 (if_neg (by rw [h]; decide)), fun h => if_pos h⟩⟩
  intro r ra x indexed s p j n ea reg bad hj hbad hgood hi hu ho
  cases indexed with
  | false =>
    have hea : ea = s.thr.raOr0 ra := BitVec.add_zero _
    exact trapsAfter_lswi hea hj (hbad.resolve_right fun h => Bool.false_ne_true h.1) (fun i h hr => hgood i h (.inl hr)) hi hu ho
  | true => exact trapsAfter_lswx hj (hbad.imp_right And.right) (fun i h hr => hgood i h (hr.imp_right fun hx => ⟨rfl, hx⟩)) hi hu ho

end Sys2Proof.Machine
end

section
/-! Numbers and their bytes: reversal, sign extension, and the byte that a store takes from a value (41_ppe_loadstore sections 2 to 4). -/

namespace Sys2Proof.Machine

open Sys2Proof.Safety

/-! ## Bytes of a number -/

theorem natOfBytes_lt (l : List Byte) : natOfBytes l < 256^l.length := by
  induction l with
  | nil => exact Nat.one_pos
  | cons b l ih =>
    have hb := b.isLt
    rw [natOfBytes, List.length_cons, pow_succ', show 2^(8 * l.length) = 256^l.length from pow_mul 2 8 _]
    nlinarith

theorem length_bytesOfNat (v k : Nat) : (bytesOfNat v k).length = k := by
  induction k with
  | zero => rfl
  | succ k ih => rw [bytesOfNat, List.length_cons, ih]

/-- The last byte apart. -/
theorem bytesOfNat_succ (v k : Nat) : bytesOfNat v (k + 1) = bytesOfNat (v / 256) k ++ [BitVec.ofNat 8 v] := by
  induction k with
  | zero => simp [bytesOfNat]
  | succ k ih =>
    rw [bytesOfNat, ih, bytesOfNat, List.cons_append, Nat.div_div_eq_div_mul]
    rw [Nat.mul_succ, pow_add, mul_comm (2^(8 * k))]
    rfl

/-- The reversed number: the last byte comes first. -/
theorem revBytes_succ (k v : Nat) : revBytes (k + 1) v = v % 256 * 256^k + revBytes k (v / 256) := by
  rw [revBytes, bytesOfNat_succ, List.reverse_append, List.reverse_singleton, List.singleton_append, natOfBytes, List.length_reverse,
    length_bytesOfNat, pow_mul]
  simp [revBytes]

theorem revBytes_lt (k v : Nat) : revBytes k v < 256^k := by
  have h := natOfBytes_lt (bytesOfNat v k).reverse
  rwa [List.length_reverse, length_bytesOfNat] at h

/-- Byte `j` of the reversed number, counted from the left, is that of the number counted from the right. -/
theorem revBytes_byte {k j : Nat} (hj : j < k) (v : Nat) : revBytes k v / 256^(k - 1 - j) % 256 = v / 256^j % 256 := by
  induction k generalizing v j with
  | zero => exact absurd hj (Nat.not_lt_zero j)
  | succ k ih =>
    have hlt := revBytes_lt k (v / 256)
    rw [revBytes_succ]
    cases j with
    | zero =>
      rw [Nat.add_sub_cancel, Nat.sub_zero, mul_comm, Nat.mul_add_div (Nat.pow_pos (by decide)), Nat.div_eq_of_lt hlt]
      simp
    | succ j =>
      have hk : k = (k - 1 - j) + 1 + j := by omega
      have hpow : v % 256 * 256^k = 256^(k - 1 - j) * (256 * (v % 256 * 256^j)) := by
        nth_rewrite 1 [hk]
        rw [pow_add, pow_succ]
        ring
      rw [show k + 1 - 1 - (j + 1) = k - 1 - j by omega, hpow, Nat.mul_add_div (Nat.pow_pos (by decide)), Nat.mul_add_mod,
        ih (by omega), Nat.div_div_eq_div_mul, pow_succ']

theorem revBytes_readBytes (m : List Host.Cell) (a k : Nat) : revBytes k (readBytes m a k) = readReversed m a k := by
  induction k with
  | zero => rfl
  | succ k ih =>
    have hb := (readByte m (a + k)).isLt
    have hmod : readBytes m a (k + 1) % 256 = (readByte m (a + k)).toNat := by rw [readBytes]; omega
    have hdiv : readBytes m a (k + 1) / 256 = readBytes m a k := by rw [readBytes]; omega
    rw [revBytes_succ, readReversed, hmod, hdiv, ih, Nat.add_comm]

/-- The signed value of at most eight bytes. -/
theorem sextBytes_eq {n v : Nat} (hn : 0 < n) (hv : v < 256^n) : sextBytes n v = BitVec.ofInt 64 (signedBytes n v) := by
  have h256 : 256^n = 2^(8 * n) := (pow_mul 2 8 n).symm
  have h2 : 2^(8 * n) = 2 * 2^(8 * n - 1) := by rw [← pow_succ', Nat.sub_add_cancel (by omega)]
  have hcast : (2 : Int)^(8 * n) = ((2^(8 * n) : Nat) : Int) := by push_cast; rfl
  rw [sextBytes, BitVec.signExtend, signedBytes, BitVec.toInt_eq_toNat_cond, BitVec.toNat_ofNat, Nat.mod_eq_of_lt (h256 ▸ hv), hcast]
  congr 1
  split <;> split <;> omega

/-- The byte that a store of `k` bytes of a value puts at place `j`. -/
theorem ofNat_byte_mod {k j : Nat} (hj : j < k) (v : Nat) :
    BitVec.ofNat 8 (v % 256^k / 256^(k - 1 - j)) = BitVec.ofNat 8 (v / 256^(k - 1 - j)) := by
  apply BitVec.eq_of_toNat_eq
  have hk : 256^k = 256^(k - 1 - j) * (256 * 256^j) := by
    rw [← pow_succ', ← pow_add]
    congr 1
    omega
  rw [BitVec.toNat_ofNat, BitVec.toNat_ofNat, hk, Nat.mod_mul_right_div_self, Nat.mod_mul_right_mod]

end Sys2Proof.Machine
end

section
/-! The fixed-point loads (41_ppe_loadstore R650 to R676, R693 to R695). -/

namespace Sys2Proof.Machine

open Sys2Proof.Safety

/-! ## Addresses and update forms -/

theorem Thread.eaDs_eq (th : Thread) (ra : BitVec 5) (ds : BitVec 14) : th.eaDs ra ds = Safety.eaDs ra ds th := by
  have hds : ds64 ds = ds.signExtend 64 * 4 := by
    have hlt := ds.isLt
    apply BitVec.eq_of_toInt_eq
    rw [ds64, BitVec.toInt_signExtend_of_le (by decide), BitVec.toInt_mul, BitVec.toInt_signExtend_of_le (by decide),
      BitVec.toInt_eq_toNat_cond, BitVec.toInt_eq_toNat_cond, BitVec.toNat_append]
    simp only [Nat.shiftLeft_eq, BitVec.toNat_ofNat, Nat.zero_mod, Nat.or_zero]
    rw [show (4 : DWord).toInt = 4 from rfl, Int.bmod_def]
    omega
  rw [Thread.eaDs, Safety.eaDs, hds]
  rfl

/-- The base register of an update form, if it is one, takes the address. -/
def Thread.setBase (th : Thread) (upd : Option (BitVec 5)) (ea : DWord) : Thread :=
  match upd with
  | none => th
  | some r => th.setGpr r ea

section
variable (th : Thread) (upd : Option (BitVec 5)) (ea : DWord)

theorem Thread.setBase_eq : th.setBase upd ea = { th with gpr := (th.setBase upd ea).gpr } := by
  cases upd <;> rfl

theorem Thread.getGpr_setBase_some {r : BitVec 5} (h : upd = some r) : (th.setBase upd ea).getGpr r = ea := by
  rw [h]
  exact th.getGpr_setGpr_same r ea

theorem Thread.getGpr_setBase_other {q : BitVec 5} (h : q ∉ upd.toList) : (th.setBase upd ea).getGpr q = th.getGpr q := by
  cases upd with
  | none => rfl
  | some r => exact (th.getGpr_setGpr r q ea).trans (if_neg fun hr => h (List.mem_singleton.mpr hr.symm))

end

/-! ## Loads into a GPR -/

section
variable {s : State} {ea : DWord} {len : Nat} {al : Align} {p : Page} {conv : Nat → DWord} {rt : BitVec 5} {v : DWord}
  (ho : Ordinary s (s.thr.truncEa ea) len false p) (ha : al.before = false ∧ al.after p (inhibited s p) = false)
  (hv : conv (readBytes s.mem p.ra len) = v)
include ho ha hv

theorem loadGpr_ordinary : loadGpr s ea len al conv rt = ppeNext s fun th => (th.setGpr rt v).setBase none ea := by
  rw [loadGpr, loadThen_ordinary conv _ ho ha.1 ha.2, hv]
  rfl

theorem loadGprU_ordinary {ra : BitVec 5} (hu : updateValid (some ra) (some rt)) :
    loadGprU s ea len al conv rt ra = ppeNext s fun th => (th.setGpr rt v).setBase (some ra) ea := by
  obtain ⟨h0, ht⟩ := hu ra rfl
  rw [loadGprU, if_neg (not_or.mpr ⟨h0, fun h => ht (congrArg some h.symm)⟩), loadThen_ordinary conv _ ho ha.1 ha.2, hv]
  rfl

end

/-- What every valid fixed-point load of an ordinary operand does. -/
theorem exec_of_fixedLoad {i : Instr} {rt : BitVec 5} {upd : Option (BitVec 5)} {ea : Thread → DWord} {len : Nat} {al : Safety.Alignment}
    {val : List Host.Cell → Nat → DWord} (h : FixedLoad i rt upd ea len al val) (hu : updateValid upd (some rt)) {s : State} {p : Page}
    (ho : Ordinary s (s.thr.truncEa (ea s.thr)) len false p) (ha : alignedFor al s p (ea s.thr) len) :
    Machine.exec i s = ppeNext s fun th => (th.setGpr rt (val s.mem p.ra)).setBase upd (ea s.thr) := by
  have hsext {n : Nat} (hn : 0 < n) : sextBytes n (readBytes s.mem p.ra n) = signExtended n s.mem p.ra :=
    sextBytes_eq hn (readBytes_lt ..)
  have hrev (n : Nat) : raw (revBytes n (readBytes s.mem p.ra n)) = byteReversed n s.mem p.ra :=
    congrArg raw (revBytes_readBytes ..)
  cases h with
  | lbz | lbzx | lhz | lhzx | lwz | lwzx | ldx => exact loadGpr_ordinary ho (alignFixed_ok ha) rfl
  | lbzu | lbzux | lhzu | lhzux | lwzu | lwzux | ldux => exact loadGprU_ordinary ho (alignFixed_ok ha) rfl hu
  | lha | lhax | lwax => exact loadGpr_ordinary ho (alignAlgebraic_ok ha) (hsext (by decide))
  | lhau | lhaux | lwaux => exact loadGprU_ordinary ho (alignAlgebraic_ok ha) (hsext (by decide)) hu
  | lhbrx | lwbrx | ldbrx => exact loadGpr_ordinary ho (alignFixed_ok ha) (hrev _)
  | ld =>
    rw [← Thread.eaDs_eq] at *
    exact loadGpr_ordinary ho (alignFixed_ok ha) rfl
  | ldu =>
    rw [← Thread.eaDs_eq] at *
    exact loadGprU_ordinary ho (alignFixed_ok ha) rfl hu
  | lwa =>
    rw [← Thread.eaDs_eq] at *
    exact loadGpr_ordinary ho (alignAlgebraic_ok ha) (hsext (by decide))

/-- Settles O20: every valid load puts its value into RT and then the address into RA (`exec_of_fixedLoad`). -/
theorem fixedPointLoadsDeliverMemory : Obligations.FixedPointLoadsDeliverMemory := by
  intro i rt upd ea len al val h hu s p ho ha
  have hne (r : BitVec 5) (hr : upd = some r) : r ≠ rt := fun hrt => (hu r hr).2 (congrArg some hrt.symm)
  refine Laws.completes_of_ppeNext 0 _ (exec_of_fixedLoad h hu ho ha) ?_ ?_ ?_ fun t ht => ⟨?_, fun r hr => ?_⟩
  · rw [Thread.setBase_eq]
    refine keeps_gpr fun q hq => ?_
    obtain ⟨hqt, hqu⟩ := not_or.mp (mt List.mem_cons.mpr hq)
    exact (Thread.getGpr_setBase_other _ upd _ hqu).trans ((Thread.getGpr_setGpr ..).trans (if_neg (Ne.symm hqt)))
  · rw [Thread.setBase_eq, Thread.setGpr_msr]
  · rw [Thread.setBase_eq, Thread.setGpr_pc]
  · rw [ht, Thread.getGpr_advance, Thread.getGpr_setBase_other, Thread.getGpr_setGpr_same]
    intro hm
    exact hne rt (Option.mem_toList.mp hm) rfl
  · rw [ht, Thread.getGpr_advance, Thread.getGpr_setBase_some _ _ _ hr]

end Sys2Proof.Machine
end

section
/-! Stores into main storage by the moving agent: the bytes that change, the reservations that end, and the end of the instruction
(20_memory R421, R424; 41_ppe_loadstore R651). -/

namespace Sys2Proof.Machine

open Sys2Proof.Safety

/-! ## Reservations -/

theorem Thread.loseReserve_keeps (th : Thread) (g : Nat) : { th.loseReserve g with reserve := th.reserve } = th := by
  unfold Thread.loseReserve
  split <;> rfl

theorem Thread.loseReserve_reserve (th : Thread) (g : Nat) :
    (th.loseReserve g).reserve = if th.reserve = some g then none else th.reserve := by
  unfold Thread.loseReserve
  split <;> rfl

theorem Spe.loseLine_keeps (x : Spe) (g : Nat) : { x.loseLine g with llres := x.llres, pend := x.pend, cnt := x.cnt } = x := by
  unfold Spe.loseLine Spe.raiseEvent
  split
  · dsimp only
    split
    · rfl
    · split <;> rfl
  · rfl

theorem Spe.loseLine_llres (x : Spe) (g : Nat) : (x.loseLine g).llres = if x.llres = some g then none else x.llres := by
  unfold Spe.loseLine Spe.raiseEvent
  split
  · dsimp only
    split
    · rfl
    · split <;> rfl
  · rfl

theorem Spe.dropLine_keeps (x : Spe) (g : Nat) : { x.dropLine g with llres := x.llres, pend := x.pend, cnt := x.cnt } = x := by
  unfold Spe.dropLine
  split <;> rfl

/-! ## What stores have changed -/

/-- From `s` to `t` the moving agent stored `len` bytes at `a`: as `Safety.Stores`, before any register of the moving thread is written
but its reservation. -/
structure Stored (s t : State) (a len : Nat) (byte : Nat → Byte) : Prop extends Stores s t a len byte where
  threads : ∀ u : Fin 2, { t.threads[u] with reserve := s.threads[u].reserve } = s.threads[u]
  cur : t.cur = s.cur
  wf : Memory.wf t.mem = true

section
variable {s t : State} {a len : Nat} {byte : Nat → Byte}

/-- Nothing is stored yet, and free values may have been drawn. -/
theorem Stored.drew (h : Memory.wf s.mem = true) (k : Nat) : Stored s (s.drew k) a 0 byte where
  bytes q := (if_neg (by omega)).symm
  others := rfl
  thread _ _ := rfl
  spes _ := rfl
  threads _ := rfl
  cur := rfl
  wf := h

theorem Stored.curT (h : Stored s t a len byte) : t.curT = s.curT := by
  rw [State.curT, State.curT, h.cur]

theorem Stored.own (h : Stored s t a len byte) : { t.thr with reserve := s.thr.reserve } = s.thr := by
  have hthr : t.thr = t.threads[s.curT] := congrArg (fun u : Fin 2 => t.threads[u]) h.curT
  rw [hthr]
  exact h.threads _

/-- Further changes of reservations, and of the bytes that are next. -/
theorem Stored.extend {t' : State} {n : Nat} (h : Stored s t a len byte)
    (hbytes : ∀ q, readByte t'.mem q = if a + len ≤ q ∧ q < a + (len + n) then byte (q - a) else readByte t.mem q)
    (hwf : Memory.wf t'.mem = true)
    (hothers : { t' with threads := t.threads, spes := t.spes, mem := t.mem, freeCount := t.freeCount } = t)
    (hthreads : ∀ u : Fin 2, { t'.threads[u] with reserve := t.threads[u].reserve } = t.threads[u])
    (hspes : ∀ m : Fin 8, { t'.spes[m] with llres := t.spes[m].llres, pend := t.spes[m].pend, cnt := t.spes[m].cnt } = t.spes[m]) :
    Stored s t' a (len + n) byte := by
  have hcur : t'.cur = t.cur := (congrArg State.cur hothers :)
  have hth (u : Fin 2) : { t'.threads[u] with reserve := s.threads[u].reserve } = s.threads[u] := by
    rw [← h.threads u, ← hthreads u]
  refine ⟨⟨fun q => ?_, ?_, fun u _ => hth u, fun m => ?_⟩, hth, hcur.trans h.cur, hwf⟩
  · rw [hbytes, h.bytes]
    by_cases h1 : a + len ≤ q ∧ q < a + (len + n)
    · rw [if_pos h1, if_pos (by omega)]
    · rw [if_neg h1]
      by_cases h2 : a ≤ q ∧ q < a + len
      · rw [if_pos h2, if_pos (by omega)]
      · rw [if_neg h2, if_neg (by omega)]
  · rw [← h.others, ← hothers]
  · rw [← h.spes m, ← hspes m]

theorem Stored.noteStore (h : Stored s t a len byte) (b : Option Agent) (g : Nat) : Stored s (t.noteStore b g) a len byte := by
  refine h.extend (n := 0) (fun q => (if_neg (by omega)).symm) h.wf rfl (fun u => ?_) fun m => ?_
  · obtain he | he := State.threads_noteStore t b g u <;> rw [he]
    exact Thread.loseReserve_keeps ..
  · rw [State.spes_noteStore]
    split
    · exact Spe.dropLine_keeps ..
    · exact Spe.loseLine_keeps ..

/-- A store of the next `n` bytes. -/
theorem Stored.storeMem (h : Stored s t a len byte) (b : Option Agent) {n v : Nat}
    (hv : ∀ j < n, BitVec.ofNat 8 (v / 256^(n - 1 - j)) = byte (len + j)) :
    Stored s (t.storeMem b (a + len) n v) a (len + n) byte := by
  have hmem : Stored s { t with mem := writeBytes t.mem (a + len) v n } a (len + n) byte := by
    refine h.extend (fun q => ?_) (Memory.wf_writeBytes _ _ _ _ h.wf) rfl (fun _ => rfl) fun _ => rfl
    rw [readByte_writeBytes _ _ _ _ _ h.wf]
    by_cases hq : a + len ≤ q ∧ q < a + len + n
    · rw [if_pos hq, if_pos (by omega), ← Nat.add_sub_of_le (show len ≤ q - a by omega), ← hv _ (by omega)]
      congr 3
      omega
    · rw [if_neg hq, if_neg (by omega)]
  unfold State.storeMem State.noteStores
  dsimp only
  split
  · exact hmem.noteStore b _
  · exact (hmem.noteStore b _).noteStore b _

/-- A store of `n` bytes. -/
theorem Stored.one (h : Memory.wf s.mem = true) (b : Option Agent) (k : Nat) {n v : Nat}
    (hv : ∀ j < n, BitVec.ofNat 8 (v / 256^(n - 1 - j)) = byte j) : Stored s ((s.drew k).storeMem b a n v) a n byte := by
  have := (Stored.drew h k).storeMem (a := a) b (byte := byte) (n := n) (v := v) (fun j hj => by rw [Nat.zero_add, hv j hj])
  rwa [Nat.zero_add, Nat.add_zero] at this

/-- Stores move no region. -/
theorem Stored.region_eq (h : Stored s t a len byte) (ra : Nat) : region t ra = region s ra := by
  have hcfg : t.cfg = s.cfg := (congrArg State.cfg h.others :)
  have hplat : t.plat = s.plat := (congrArg State.plat h.others :)
  have hsr1 (m : Fin 8) : t.spes[m].sr1 = s.spes[m].sr1 := (congrArg Spe.sr1 (h.spes m) :)
  simp only [region, ioifRange, hcfg, hplat, hsr1]
  congr

/-! ## The end of the instruction -/

theorem keeps_advance {w : Writes} {x y : Thread} (h : Keeps w x y) : Keeps w x y.advance :=
  ⟨h.gpr, h.fpr, h.vr, h.xer, h.cr, h.fpscr, h.vscr, h.lr, h.ctr, h.prio, h.rest⟩

/-- An instruction that has stored, and then changes registers to those of `x` but for the reservation, completes. -/
theorem Stored.completes {i : Instr} {w : Writes} {P : State → Prop} {f : Thread → Thread} {x : Thread} (h : Stored s t a len byte)
    (he : Machine.exec i s = ppeNext t f)
    (hf : ∀ g, { f { s.thr with reserve := g } with reserve := s.thr.reserve } = x) (hk : Keeps w s.thr x)
    (hm : x.msr = s.thr.msr) (hpc : x.pc = s.thr.pc) (hP : ∀ u : State, u.thr = (f t.thr).advance → P u) :
    CompletesStore i s a len byte w P := by
  have hown : t.thr = { s.thr with reserve := t.thr.reserve } := by rw [← h.own]
  have hx : { f t.thr with reserve := s.thr.reserve } = x := by rw [hown, hf]
  have hthr := State.thr_modThr t fun th => (f th).advance
  refine ⟨_, he, ⟨h.bytes, h.others, fun u hu => ?_, h.spes⟩, ?_, ?_, hP _ hthr⟩
  · rw [State.threads_modThr_other _ _ _ (h.curT ▸ hu)]
    exact h.thread u hu
  · rw [hthr]
    have hk' : Keeps w s.thr { f t.thr with reserve := s.thr.reserve } := hx.symm ▸ hk
    exact keeps_advance hk'
  · rw [hthr, Laws.following_advance]
    have hm' : (f t.thr).msr = s.thr.msr := (congrArg Thread.msr hx).trans hm
    have hpc' : (f t.thr).pc = s.thr.pc := (congrArg Thread.pc hx).trans hpc
    rw [following, following, hm', hpc']

end

end Sys2Proof.Machine
end

section
/-! The fixed-point stores (41_ppe_loadstore R677 to R692, R696 to R698), and the reservations that they end (20_memory R421, R424). -/

namespace Sys2Proof.Machine

open Sys2Proof.Safety

/-! ## Stores of a value -/

theorem keeps_setBase (th : Thread) (upd : Option (BitVec 5)) (ea : DWord) : Keeps { gpr := upd.toList } th (th.setBase upd ea) := by
  rw [Thread.setBase_eq]
  exact keeps_gpr fun q hq => th.getGpr_setBase_other upd ea hq

section
variable {s : State} {ea : DWord} {len : Nat} {al : Align} {p : Page} (v : Nat) {cut : Nat}
  (ho : Ordinary s (s.thr.truncEa ea) len true p) (ha : al.before = false ∧ al.after p (inhibited s p) = false)
include ho ha

theorem storeVal_ordinary : storeVal s ea len al v cut =
    ppeNext (s.storeMem (some s.cur) p.ra len (v % 256^len)) fun th => th.setBase none ea :=
  storeThen_ordinary v _ ho ha.1 ha.2

theorem storeValU_ordinary {ra : BitVec 5} (hu : updateValid (some ra) none) : storeValU s ea len al v ra cut =
    ppeNext (s.storeMem (some s.cur) p.ra len (v % 256^len)) fun th => th.setBase (some ra) ea :=
  (if_neg (hu ra rfl).1).trans (storeThen_ordinary v _ ho ha.1 ha.2)

end

/-- A store that completes, and the update of its base register. -/
theorem completesStore_setBase {i : Instr} {s : State} {a len v : Nat} {byte : Nat → Byte} {upd : Option (BitVec 5)} {ea : DWord}
    (he : Machine.exec i s = ppeNext (s.storeMem (some s.cur) a len v) fun th => th.setBase upd ea) (hwf : Memory.wf s.mem = true)
    (hv : ∀ j < len, BitVec.ofNat 8 (v / 256^(len - 1 - j)) = byte j) :
    CompletesStore i s a len byte { gpr := upd.toList } fun t => ∀ r, upd = some r → t.thr.getGpr r = ea := by
  refine (Stored.one hwf (some s.cur) 0 hv).completes he (fun g => ?_) (keeps_setBase s.thr upd ea) ?_ ?_ fun u hu r hr => ?_
  · cases upd <;> rfl
  · rw [Thread.setBase_eq]
  · rw [Thread.setBase_eq]
  · rw [hu, Thread.getGpr_advance, Thread.getGpr_setBase_some _ _ _ hr]

/-- The bytes of the low part of a value, in order. -/
theorem storedByte_mod {len j : Nat} (hj : j < len) (v : Nat) :
    BitVec.ofNat 8 (v % 256^len / 256^(len - 1 - j)) = storedByte len false v j := ofNat_byte_mod hj v

/-- The bytes of the reversed value. -/
theorem storedByte_reversed {len j : Nat} (hj : j < len) (v : Nat) :
    BitVec.ofNat 8 (revBytes len v % 256^len / 256^(len - 1 - j)) = storedByte len true v j := by
  rw [Nat.mod_eq_of_lt (revBytes_lt len v)]
  apply BitVec.eq_of_toNat_eq
  rw [BitVec.toNat_ofNat, storedByte, BitVec.toNat_ofNat]
  exact revBytes_byte hj v

/-- What every valid fixed-point store of an ordinary operand does. -/
theorem exec_of_fixedStore {i : Instr} {rs : BitVec 5} {upd : Option (BitVec 5)} {ea : Thread → DWord} {len : Nat} {rev : Bool}
    (h : FixedStore i rs upd ea len rev) (hu : updateValid upd none) {s : State} {p : Page}
    (ho : Ordinary s (s.thr.truncEa (ea s.thr)) len true p) (ha : alignedFor .fixed s p (ea s.thr) len) :
    Machine.exec i s = ppeNext
      (s.storeMem (some s.cur) p.ra len ((if rev then revBytes len (s.thr.getGpr rs).toNat else (s.thr.getGpr rs).toNat) % 256^len))
      fun th => th.setBase upd (ea s.thr) := by
  cases h with
  | stb | stbx | sth | sthx | stw | stwx | stdx | sthbrx | stwbrx | stdbrx => exact storeVal_ordinary _ ho (alignFixed_ok ha)
  | stbu | stbux | sthu | sthux | stwu | stwux | stdux => exact storeValU_ordinary _ ho (alignFixed_ok ha) hu
  | std =>
    rw [← Thread.eaDs_eq] at *
    exact storeVal_ordinary _ ho (alignFixed_ok ha)
  | stdu =>
    rw [← Thread.eaDs_eq] at *
    exact storeValU_ordinary _ ho (alignFixed_ok ha) hu

/-- Settles O21: every valid store is one store of its value and then the update of RA (`exec_of_fixedStore`). -/
theorem fixedPointStoresWriteTheirBytes : Obligations.FixedPointStoresWriteTheirBytes := by
  intro i rs upd ea len rev h hu s p hwf ho ha
  refine completesStore_setBase (exec_of_fixedStore h hu ho ha) hwf fun j hj => ?_
  cases rev with
  | false => exact storedByte_mod hj _
  | true => exact storedByte_reversed hj _

end Sys2Proof.Machine
end

section
/-! Load and store multiple and string (41_ppe_loadstore R704 to R709). -/

namespace Sys2Proof.Machine

open Sys2Proof.Safety

/-! ## Stores of several parts -/

section
variable {s : State} {al : Align} {op : DWord} {b len : Nat} {byte : Nat → Byte} {ea : Nat → DWord} {pg : Nat → Page}
  {v : Nat → Nat}

/-- Parts of main storage that lie one after the other are stored in order. -/
theorem storeAll_dram (hra : ∀ k, (pg k).ra = b + len * k) (n : Nat) :
    ∀ m t, Stored s t b (len * m) byte → (∀ k, m ≤ k → k < m + n → Ordinary s (ea k) len true (pg k)) →
      (∀ k, m ≤ k → k < m + n → ∀ j < len, BitVec.ofNat 8 (v k / 256^(len - 1 - j)) = byte (len * k + j)) →
      ∃ u, storeAll ((List.range' m n).map fun k => (pieceOf s (ea k) (pg k), len, v k)) t = .ok () u ∧
        Stored s u b (len * (m + n)) byte := by
  induction n with
  | zero => exact fun m t h _ _ => ⟨t, rfl, h⟩
  | succ n ih =>
    intro m t h ho hv
    have hm := ho m le_rfl (by omega)
    have hreal : realStore t (pieceOf s (ea m) (pg m)).phys len (v m) = .ok () (t.storeMem (some t.cur) (b + len * m) len (v m)) := by
      unfold realStore
      rw [show (pieceOf s (ea m) (pg m)).phys.ra = (pg m).ra from rfl, regionAt_dram len ((h.region_eq _).trans hm.dram), hra]
    have hnext := h.storeMem (some t.cur) (hv m le_rfl (by omega))
    rw [← Nat.mul_succ] at hnext
    obtain ⟨u, hu, hs⟩ := ih (m + 1) _ hnext (fun k h1 h2 => ho k (by omega) (by omega)) fun k h1 h2 => hv k (by omega) (by omega)
    refine ⟨u, ?_, (show m + 1 + n = m + (n + 1) by omega) ▸ hs⟩
    rw [List.range'_succ, List.map_cons, storeAll, State.recordChange_set (hm.changed rfl), Res.bind_ok, hreal, Res.bind_ok, hu]

/-- An instruction that stores ordinary parts that lie one after the other, and only those, completes. -/
theorem completesStore_storeParts {i : Instr} {n : Nat} (he : Machine.exec i s =
      storeParts s op al ((List.range n).map fun k => (ea k, len, v k)) fun s => s.modThr Thread.advance)
    (hwf : Memory.wf s.mem = true) (hra : ∀ k, (pg k).ra = b + len * k) (ho : ∀ k < n, Ordinary s (ea k) len true (pg k))
    (hb : al.before = false) (ha : ∀ k < n, al.after (pg k) (inhibited s (pg k)) = false)
    (hv : ∀ k < n, ∀ j < len, BitVec.ofNat 8 (v k / 256^(len - 1 - j)) = byte (len * k + j)) :
    CompletesStore i s b (len * n) byte {} fun _ => True := by
  obtain ⟨u, hu, hs⟩ := storeAll_dram (s := s) (ea := ea) (v := v) hra n 0 s (Stored.drew hwf 0) (fun k _ hk => ho k (by omega))
    fun k _ hk => hv k (by omega)
  rw [Nat.zero_add] at hs
  have hprep := prepareFrom_ordinary (op := op) hb (List.range n) (fun k hk => ho k (List.mem_range.mp hk))
    (fun k hk => ha k (List.mem_range.mp hk)) []
  rw [List.reverse_nil, List.nil_append] at hprep
  refine hs.completes (f := id) (x := s.thr) (he.trans ?_) (fun _ => rfl) (keeps_gpr fun _ _ => rfl) rfl rfl fun _ _ => trivial
  unfold storeParts prepare
  simp only [List.map_map, Function.comp_def, hprep, List.zip_map']
  rw [List.range_eq_range', hu]
  rfl

end

/-! ## Multiples -/

/-- An instruction that fills registers with `j` words, and then ends, completes. -/
theorem completes_setWords {i : Instr} {s : State} {r j : Nat} {g : Nat → Nat} {P : State → Prop} (hj : j ≤ 32)
    (he : Machine.exec i s = .next ((s.modThr fun th => th.setWords r ((List.range j).map g)).modThr Thread.advance))
    (hP : ∀ t : State, (∀ k < j, t.thr.getGpr (BitVec.ofNat 5 (r + k)) = BitVec.ofNat 64 (g k)) → P t) :
    Completes i s { gpr := (List.range j).map fun k => BitVec.ofNat 5 (r + k) } P := by
  have hlen : ((List.range j).map g).length = j := by rw [List.length_map, List.length_range]
  have heq := s.thr.setWords_eq r ((List.range j).map g)
  refine ⟨_, he, ((OnlyThread.refl s).modThr _).modThr _, ?_, ?_, hP _ fun k hk => ?_⟩ <;> rw [State.thr_modThr, State.thr_modThr]
  · refine keeps_advance ?_
    rw [heq]
    refine keeps_gpr fun q hq => ?_
    rw [← heq]
    refine s.thr.getGpr_setWords_other fun k hk h => hq (List.mem_map.mpr ⟨k, ?_, h⟩)
    exact List.mem_range.mpr (hlen ▸ hk)
  · rw [Laws.following_advance, heq]
    rfl
  · rw [Thread.getGpr_advance, s.thr.getGpr_setWords (by omega) (by omega), List.getElem_map, List.getElem_range]

theorem toNat_lowWord (w : DWord) : (lowWord w).toNat = w.toNat % 2^32 := by
  rw [lowWord_eq_setWidth, BitVec.toNat_setWidth]

section
variable {r ra : BitVec 5} {d : BitVec 16} {s : State} {p : Page} (hal : (eaD ra d s.thr).toNat % 4 = 0)
  (hi : inhibited s p = false) (hu : unforced s (eaD ra d s.thr) (4 * (32 - r.toNat)))
include hal hi hu

theorem alignMultiple_ok : (alignMultiple s (eaD ra d s.thr) (32 - r.toNat)).before = false ∧
    ∀ a, (alignMultiple s (eaD ra d s.thr) (32 - r.toNat)).after { p with ra := a } (inhibited s { p with ra := a }) = false :=
  ⟨decide_eq_false (not_not.mpr hal), fun _ => (congrArg (· || _) hi).trans (crosses_of_unforced hu)⟩

/-- `stmw` stores the low words of its registers. -/
theorem completesStore_stmw (hwf : Memory.wf s.mem = true) (ho : ∀ k, k < 32 - r.toNat →
      Ordinary s (s.thr.truncEa (eaD ra d s.thr + BitVec.ofNat 64 (4 * k))) 4 true { p with ra := p.ra + 4 * k }) :
    CompletesStore (.ppeStmw r ra d) s p.ra (4 * (32 - r.toNat))
      (fun k => storedByte 4 false (s.thr.getGpr (BitVec.ofNat 5 (r.toNat + k / 4))).toNat (k % 4)) {} fun _ => True := by
  obtain ⟨hb, ha⟩ := alignMultiple_ok hal hi hu
  refine completesStore_storeParts rfl hwf (fun _ => rfl) ho hb (fun k _ => ha _) fun k _ j hj => ?_
  rw [show (4 * k + j) / 4 = k by omega, show (4 * k + j) % 4 = j by omega, toNat_lowWord]
  exact storedByte_mod hj _

/-- `lmw` of registers after RA. -/
theorem completes_lmw (hr : ra.toNat < r.toNat) (ho : ∀ k, k < 32 - r.toNat →
      Ordinary s (s.thr.truncEa (eaD ra d s.thr + BitVec.ofNat 64 (4 * k))) 4 false { p with ra := p.ra + 4 * k }) :
    Completes (.ppeLmw r ra d) s { gpr := (List.range (32 - r.toNat)).map fun k => BitVec.ofNat 5 (r.toNat + k) } fun t =>
      ∀ k, k < 32 - r.toNat → t.thr.getGpr (BitVec.ofNat 5 (r.toNat + k)) = zeroExtended 4 s.mem (p.ra + 4 * k) := by
  obtain ⟨hb, ha⟩ := alignMultiple_ok hal hi hu
  refine completes_setWords (g := fun k => readBytes s.mem (p.ra + 4 * k) 4) (Nat.sub_le ..) ?_ fun _ ht => ht
  have hload := loadParts_ordinary (op := s.thr.truncEa (eaD ra d s.thr)) hb (List.range (32 - r.toNat))
    (fun k hk => ho k (List.mem_range.mp hk)) (fun k _ => ha _)
    (fun vs s => s.modThr fun th => th.setWords r.toNat vs) fun s => .next (s.modThr Thread.advance)
  change execPpeLmw r ra d s = _
  unfold execPpeLmw
  simp only [show s.thr.eaD ra d = eaD ra d s.thr from rfl, if_neg hr.not_ge, hb, Bool.and_false, Bool.false_eq_true, if_false]
  exact hload

end

/-! ## Load string -/

/-- No register of the range makes the form invalid. -/
theorem beforeCollision_none {r : BitVec 5} {bad : List (BitVec 5)} {n : Nat} (hgood : ∀ i < n, BitVec.ofNat 5 (r.toNat + i) ∉ bad) :
    beforeCollision r bad n = n := by
  unfold beforeCollision
  rw [List.takeWhile_eq_self_iff.mpr, List.length_range]
  intro i hi
  simpa using hgood i (List.mem_range.mp hi)

/-- The bytes of a string of `n`, and zeros past the last. -/
def paddedByte (b : Nat → Nat) (n k : Nat) : Nat := if k < n then b k else 0

theorem paddedByte_lt {b : Nat → Nat} (n : Nat) (hb : ∀ k, b k < 256) (k : Nat) : paddedByte b n k < 256 := by
  unfold paddedByte
  split
  · exact hb k
  · decide

/-- Four bytes as a word. -/
def wordAt (b : Nat → Nat) (i : Nat) : Nat := ((b (4 * i) * 256 + b (4 * i + 1)) * 256 + b (4 * i + 2)) * 256 + b (4 * i + 3)

/-- The words of a string: the last is filled up with zeros. -/
theorem wordsOf_padded (n : Nat) (b : Nat → Nat) :
    wordsOf false ((List.range n).map b) = (List.range ((n + 3) / 4)).map (wordAt (paddedByte b n)) := by
  induction n using Nat.strong_induction_on generalizing b with
  | _ n ih =>
    rcases Nat.lt_or_ge n 4 with h | h
    · interval_cases n <;> simp [List.range_succ, wordsOf, wordAt, paddedByte]
    · obtain ⟨m, rfl⟩ := Nat.exists_eq_add_of_le h
      have hsplit : (List.range (4 + m)).map b = b 0 :: b 1 :: b 2 :: b 3 :: (List.range m).map fun k => b (4 + k) := by
        rw [List.range_add, List.map_append, List.map_map]
        rfl
      have hpad (k : Nat) : paddedByte (fun k => b (4 + k)) m k = paddedByte b (4 + m) (4 + k) := by
        simp only [paddedByte, Nat.add_lt_add_iff_left]
      rw [hsplit, wordsOf, ih m (by omega), show (4 + m + 3) / 4 = (m + 3) / 4 + 1 by omega, List.range_succ_eq_map, List.map_cons,
        List.map_map]
      refine congrArg₂ List.cons ?_ (List.map_congr_left fun i _ => ?_)
      · simp [wordAt, paddedByte, show 1 < 4 + m by omega, show 2 < 4 + m by omega, show 3 < 4 + m by omega]
      · simp only [wordAt, hpad, Function.comp_apply, show 4 * Nat.succ i = 4 + 4 * i by omega, Nat.add_assoc]

/-- The bytes of a word. -/
theorem wordAt_bytes {b : Nat → Nat} (hb : ∀ k, b k < 256) (k : Nat) :
    wordAt b (k / 4) / 256^(3 - k % 4) % 256 = b k ∧ wordAt b (k / 4) < 2^32 := by
  have h0 := hb (4 * (k / 4))
  have h1 := hb (4 * (k / 4) + 1)
  have h2 := hb (4 * (k / 4) + 2)
  have h3 := hb (4 * (k / 4) + 3)
  have hk : b k = b (4 * (k / 4) + k % 4) := by rw [Nat.div_add_mod]
  have hm : k % 4 < 4 := Nat.mod_lt _ (by decide)
  rw [hk]
  unfold wordAt
  generalize k / 4 = i at *
  generalize k % 4 = m at *
  interval_cases m <;> simp only [Nat.add_zero, Nat.reduceSub, Nat.reducePow] <;> omega

/-- A load string that no register of its range makes invalid. -/
theorem completes_loadString {i : Instr} {s : State} {r : BitVec 5} {bad : List (BitVec 5)} {ea : DWord} {n : Nat} {p : Page}
    (he : Machine.exec i s = loadString s r bad ea n) (hn : n ≤ 128) (hgood : ∀ k < n, BitVec.ofNat 5 (r.toNat + k / 4) ∉ bad)
    (hi : inhibited s p = false) (hu : unforced s ea n)
    (ho : ∀ k < n, Ordinary s (s.thr.truncEa (ea + BitVec.ofNat 64 k)) 1 false { p with ra := p.ra + k }) :
    Completes i s { gpr := (List.range ((n + 3) / 4)).map fun j => BitVec.ofNat 5 (r.toNat + j) } fun t =>
      ∀ k, k < (n + 3) / 4 * 4 → (t.thr.getGpr (BitVec.ofNat 5 (r.toNat + k / 4))).toNat / 256^(3 - k % 4) % 256 =
          (if k < n then (readByte s.mem (p.ra + k)).toNat else 0) ∧
        (t.thr.getGpr (BitVec.ofNat 5 (r.toNat + k / 4))).toNat < 2^32 := by
  have hgood' : ∀ j < (n + 3) / 4, BitVec.ofNat 5 (r.toNat + j) ∉ bad := fun j hj => by
    have := hgood (4 * j) (by omega)
    rwa [Nat.mul_div_cancel_left j (by decide)] at this
  have hafter (q : Page) : (alignString s ea n).after q false = false := crosses_of_unforced hu
  have hload := loadParts_ordinary (op := s.thr.truncEa ea) (al := alignString s ea n) rfl (List.range n)
    (fun k hk => ho k (List.mem_range.mp hk)) (fun k _ => (congrArg _ hi).trans (hafter _))
    (fun vs s => s.modThr fun th => th.setWords r.toNat (wordsOf (decide (vs.length < n)) vs)) fun s => .next (s.modThr Thread.advance)
  have hbyte (k : Nat) : readBytes s.mem (p.ra + k) 1 = (readByte s.mem (p.ra + k)).toNat := by simp [readBytes]
  simp only [List.length_map, List.length_range, lt_irrefl, decide_false, hbyte, wordsOf_padded] at hload
  refine completes_setWords (g := wordAt (paddedByte (fun k => (readByte s.mem (p.ra + k)).toNat) n)) (by omega) (he.trans ?_)
    fun t ht k hk => ?_
  · unfold loadString Thread.partsFrom
    simp only [beforeCollision_none hgood', lt_irrefl, if_false, Nat.one_mul]
    exact hload
  · obtain ⟨hb, hlt⟩ := wordAt_bytes (paddedByte_lt n fun k => (readByte s.mem (p.ra + k)).isLt) k
    rw [ht (k / 4) (by omega), BitVec.toNat_ofNat, Nat.mod_eq_of_lt (hlt.trans (by decide))]
    exact ⟨hb, hlt⟩

/-! ## Store string -/

theorem stringByte_eq (th : Thread) (r : BitVec 5) (k : Nat) : th.stringByte r k =
    (th.getGpr (BitVec.ofNat 5 (r.toNat + k / 4))).toNat / 256^(3 - k % 4) % 256 := by
  have hm : k % 4 < 4 := Nat.mod_lt _ (by decide)
  unfold Thread.stringByte
  generalize th.getGpr _ = w
  have hw := w.isLt
  rw [el, toNat_ibm, BitVec.toNat_append, toNat_lowWord]
  generalize k % 4 = m at *
  interval_cases m <;> simp [Nat.shiftLeft_eq] <;> omega

theorem completesStore_storeString {i : Instr} {s : State} {r : BitVec 5} {ea : DWord} {n : Nat} {p : Page}
    (he : Machine.exec i s = storeString s r ea n) (hi : inhibited s p = false) (hu : unforced s ea n) (hwf : Memory.wf s.mem = true)
    (ho : ∀ k < n, Ordinary s (s.thr.truncEa (ea + BitVec.ofNat 64 k)) 1 true { p with ra := p.ra + k }) :
    CompletesStore i s p.ra n (fun k => storedByte 4 false (s.thr.getGpr (BitVec.ofNat 5 (r.toNat + k / 4))).toNat (k % 4)) {}
      fun _ => True := by
  have hafter (q : Page) : (alignString s ea n).after q false = false := crosses_of_unforced hu
  rw [← Nat.one_mul n]
  refine completesStore_storeParts (pg := fun k => { p with ra := p.ra + k }) he hwf (fun k => by rw [Nat.one_mul]) ho rfl
    (fun k _ => (congrArg _ hi).trans (hafter _)) fun k _ j hj => ?_
  obtain rfl : j = 0 := by omega
  apply BitVec.eq_of_toNat_eq
  rw [Nat.one_mul, Nat.add_zero, stringByte_eq, storedByte, BitVec.toNat_ofNat, BitVec.toNat_ofNat, Nat.sub_zero, Nat.sub_self,
    pow_zero, Nat.div_one]
  exact Nat.mod_mod ..

/-! ## The obligation -/

/-- Settles O22, by the parts of main storage that lie one after the other. -/
theorem multiplesAndStrings : Obligations.MultiplesAndStrings := by
  refine ⟨fun r ra d s p hal hi hu => ⟨completes_lmw hal hi hu, completesStore_stmw hal hi hu⟩, ?_⟩
  intro r ra x indexed s p n ea reg hi hu
  cases indexed with
  | false =>
    have hea : s.thr.raOr0 ra = ea := (BitVec.add_zero _).symm
    refine ⟨fun hgood _ ho => ?_, completesStore_storeString (congrArg (storeString s r · n) hea) hi hu⟩
    refine completes_loadString (bad := [ra]) (congrArg (loadString s r [ra] · n) hea) ((stringLen_le x).trans (by decide))
      (fun k hk => ?_) hi hu ho
    exact mt List.mem_singleton.mp (hgood k hk).1
  | true =>
    have hn : s.thr.xerCount = n := Thread.xerCount_eq _
    refine ⟨fun hgood hrt ho => ?_, completesStore_storeString (congrArg (storeString s r ea ·) hn) hi hu⟩
    refine completes_loadString (bad := [ra, x]) ((if_neg ?_).trans (congrArg (loadString s r [ra, x] ea) hn))
      (Nat.le_of_lt (Nat.mod_lt _ (by decide))) (fun k hk => ?_) hi hu ho
    · exact not_or.mpr (hrt rfl)
    · obtain ⟨hra, hx⟩ := hgood k hk
      simp [reg, hra, hx]

end Sys2Proof.Machine
end

section
/-! Reservations (41_ppe_loadstore R712 to R715, 20_memory R421, R424). -/

namespace Sys2Proof.Machine

open Sys2Proof.Safety

/-! ## Load and reserve -/

/-- An instruction that changes registers, and the reservation, and goes on. -/
theorem next_of_ppeNext {i : Instr} {s : State} {w : Writes} {P : State → Prop} (k : Nat) (f : Thread → Thread)
    (he : Machine.exec i s = ppeNext (s.drew k) f) (hk : Keeps w s.thr { f s.thr with reserve := s.thr.reserve })
    (hm : (f s.thr).msr = s.thr.msr) (hpc : (f s.thr).pc = s.thr.pc) (hP : ∀ t : State, t.thr = (f s.thr).advance → P t) :
    ∃ t, Machine.exec i s = .next t ∧ OnlyThread s t ∧ Keeps w s.thr { t.thr with reserve := s.thr.reserve } ∧
      t.thr.pc = following s.thr ∧ P t := by
  have hthr := State.thr_modThr (s.drew k) fun th => (f th).advance
  refine ⟨_, he, (OnlyThread.drew s k).modThr _, ?_, ?_, hP _ hthr⟩ <;> rw [hthr]
  · exact keeps_advance hk
  · rw [Laws.following_advance, State.thr_drew, following, following, hm, hpc]

theorem loadReserve_ordinary {s : State} {ea : DWord} {len : Nat} {p : Page} (rt : BitVec 5)
    (ho : Ordinary s (s.thr.truncEa ea) len false p) (ha : alignedFor .strict s p (s.thr.truncEa ea) len) :
    loadReserve s ea len rt =
      ppeNext s fun th => { th.setGpr rt (zeroExtended len s.mem p.ra) with reserve := some (p.ra / 128) } := by
  obtain ⟨hb, hafter⟩ := alignStrict_ok ha
  have hload := loadList_dram (s := s) (len := len) (ea := fun _ : Unit => s.thr.truncEa ea) (pg := fun _ => p) [()]
    fun _ _ => ho.dram
  unfold loadReserve
  rw [List.map_singleton, List.map_singleton] at hload
  simp only [dataPage_ordinary ho hb hafter, Res.done_ok, hload]
  rfl

/-! ## Store conditional -/

/-- What a store conditional leaves in CR0 and of the reservation. -/
def Thread.endConditional (stored : Bool) (th : Thread) : Thread :=
  { th.setCrField 0 (nibble false false stored th.so) with reserve := none }

theorem keeps_endConditional (stored : Bool) (th : Thread) :
    Keeps { cr := cr0Mask } th { th.endConditional stored with reserve := th.reserve } :=
  keeps_cr (Laws.setCr_out th.cr _ 0)

/-- CR0 and the reservation after a store conditional of a thread with that XER. -/
theorem endConditional_cr0 {x y : Thread} {stored : Bool} (hy : y = (x.endConditional stored).advance) :
    ibit y.cr 0 = false ∧ ibit y.cr 1 = false ∧ ibit y.cr 2 = stored ∧ ibit y.cr 3 = ibit x.xer 32 ∧ y.reserve = none := by
  have hbit (j : Nat) (hj : j < 4) : ibit y.cr j = ibit (nibble false false stored x.so) j := by
    have h := Laws.ibit_setIbm4 x.cr (nibble false false stored x.so) 0 j hj
    rw [show 4 * (0 : BitVec 3).toNat + j = j from Nat.zero_add j] at h
    exact hy ▸ h
  obtain ⟨h0, h1, h2, h3⟩ := Laws.nibble_bits false false stored x.so
  exact ⟨(hbit 0 (by decide)).trans h0, (hbit 1 (by decide)).trans h1, (hbit 2 (by decide)).trans h2, (hbit 3 (by decide)).trans h3,
    hy ▸ rfl⟩

section
variable {s : State} {ea : DWord} {len v : Nat} {p : Page} (ho : Ordinary s (s.thr.truncEa ea) len true p)
  (ha : alignedFor .strict s p (s.thr.truncEa ea) len)
include ho ha

theorem storeConditional_reserved (hr : s.thr.reserve = some (p.ra / 128)) : storeConditional s ea len v =
    ppeNext (s.storeMem (some s.cur) p.ra len v) (Thread.endConditional true) := by
  obtain ⟨hb, hafter⟩ := alignStrict_ok ha
  unfold storeConditional realStore
  simp only [dataPiece_ordinary ho hb hafter, Res.done_ok, hr, regionAt_dram len ho.dram, ne_eq, not_true, decide_false, decide_true,
    Bool.true_or, Bool.false_eq_true, if_false, if_true]
  rfl

theorem storeConditional_unreserved (hr : s.thr.reserve = none) : storeConditional s ea len v =
    ppeNext s (Thread.endConditional false) := by
  obtain ⟨hb, hafter⟩ := alignStrict_ok ha
  unfold storeConditional
  simp only [dataPiece_ordinary ho hb hafter, Res.done_ok, hr, Bool.false_eq_true, if_false]
  rfl

/-- With the reservation on another granule a free value decides (U44). -/
theorem storeConditional_elsewhere {g : Nat} (hr : s.thr.reserve = some g) (hg : g ≠ p.ra / 128) : storeConditional s ea len v =
    if s.free 1 0 = 1 then ppeNext ((s.drew 1).storeMem (some s.cur) p.ra len v) (Thread.endConditional true)
    else ppeNext (s.drew 1) (Thread.endConditional false) := by
  obtain ⟨hb, hafter⟩ := alignStrict_ok ha
  have hd : region (s.drew 1) p.ra = .dram := ho.dram
  unfold storeConditional realStore
  simp only [dataPiece_ordinary ho hb hafter, Res.done_ok, hr, ne_eq, hg, not_false_eq_true, decide_true, decide_false, Bool.false_or,
    if_true, decide_eq_true_eq, regionAt_dram len hd]
  split
  · next h =>
    rw [h]
    rfl
  · next h =>
    rw [decide_eq_false h]
    rfl

end

/-- The value that a store conditional stores. -/
def conditionalValue (double : Bool) (w : DWord) : Nat := if double then w.toNat else (lowWord w).toNat

theorem exec_storeConditional (rs ra rb : BitVec 5) (double : Bool) (s : State) :
    Machine.exec (if double then .ppeStdcxDot rs ra rb else .ppeStwcxDot rs ra rb) s =
      storeConditional s (eaX ra rb s.thr) (if double then 8 else 4) (conditionalValue double (s.thr.getGpr rs)) := by
  cases double <;> rfl

theorem conditionalValue_byte (double : Bool) (w : DWord) :
    ∀ j < (if double then 8 else 4), BitVec.ofNat 8 (conditionalValue double w / 256^((if double then 8 else 4) - 1 - j)) =
      storedByte (if double then 8 else 4) false w.toNat j := by
  intro j hj
  cases double with
  | true => rfl
  | false =>
    refine Eq.trans ?_ (storedByte_mod hj w.toNat)
    rw [conditionalValue, if_neg Bool.false_ne_true, toNat_lowWord]
    rfl

section
variable {i : Instr} {s : State} {a len v : Nat} {byte : Nat → Byte}

/-- A store conditional that is performed. -/
theorem completesStore_conditional (k : Nat) (he : Machine.exec i s =
      ppeNext ((s.drew k).storeMem (some s.cur) a len v) (Thread.endConditional true)) (hwf : Memory.wf s.mem = true)
    (hv : ∀ j < len, BitVec.ofNat 8 (v / 256^(len - 1 - j)) = byte j) :
    CompletesStore i s a len byte { cr := cr0Mask } fun t => ibit t.thr.cr 0 = false ∧ ibit t.thr.cr 1 = false ∧
      ibit t.thr.cr 2 = true ∧ ibit t.thr.cr 3 = ibit s.thr.xer 32 ∧ t.thr.reserve = none := by
  have hs := Stored.one (a := a) hwf (some s.cur) k hv
  refine hs.completes he (fun g => rfl) (keeps_endConditional true s.thr) rfl rfl fun u hu => ?_
  have hxer : ((s.drew k).storeMem (some s.cur) a len v).thr.xer = s.thr.xer := (congrArg Thread.xer hs.own :)
  exact hxer ▸ endConditional_cr0 hu

end

/-! ## Reservations that a store ends -/

section
variable {s : State} {a k v : Nat} (hone : (a + k - 1) / 128 = a / 128)
include hone

theorem reserve_storeMem_elsewhere {w : Fin 2} (hw : s.threads[w].reserve ≠ some (a / 128)) :
    (s.storeMem (some s.cur) a k v).threads[w].reserve = s.threads[w].reserve := by
  rw [State.storeMem_one _ _ _ _ _ hone]
  obtain h | h := State.threads_noteStore { s with mem := writeBytes s.mem a v k } (some s.cur) (a / 128) w <;> rw [h]
  rw [Thread.loseReserve_reserve, if_neg hw]

variable {u : Fin 2} (hcur : s.cur = .ppe u)
include hcur

theorem reserve_storeMem_other {w : Fin 2} (hw : w ≠ u) : (s.storeMem (some s.cur) a k v).threads[w].reserve =
    if s.threads[w].reserve = some (a / 128) then none else s.threads[w].reserve := by
  rw [State.storeMem_one _ _ _ _ _ hone, State.threads_noteStore_other, Thread.loseReserve_reserve]
  rw [hcur]
  rintro ⟨⟩
  exact hw rfl

theorem llres_storeMem (n : Fin 8) : (s.storeMem (some s.cur) a k v).spes[n].llres =
    if s.spes[n].llres = some (a / 128) then none else s.spes[n].llres := by
  rw [State.storeMem_one _ _ _ _ _ hone, State.spes_noteStore, hcur]
  exact Spe.loseLine_llres ..

end

/-- The end of a store touches no reservation. -/
theorem reserve_setBase (s : State) (upd : Option (BitVec 5)) (ea : DWord) (w : Fin 2) :
    (s.modThr fun th => (th.setBase upd ea).advance).threads[w].reserve = s.threads[w].reserve := by
  rw [State.modThr, State.threads_modT]
  split
  · next h =>
    subst h
    rw [Thread.setBase_eq]
    rfl
  · rfl

/-! ## The obligation -/

/-- Settles O23: what each access does is said by `loadReserve_ordinary`, the three cases of `storeConditional`, and the reservations of
a store by `State.storeMem_one`. -/
theorem reservationsDecideConditionalStores : Obligations.ReservationsDecideConditionalStores := by
  refine ⟨?_, ?_, ?_⟩
  · intro rt ra rb double s p len ho ha
    have he : Machine.exec (if double then .ppeLdarx rt ra rb else .ppeLwarx rt ra rb) s = loadReserve s (eaX ra rb s.thr) len rt := by
      cases double <;> rfl
    refine next_of_ppeNext 0 _ (he.trans (loadReserve_ordinary rt ho ha)) (keeps_setGpr ..) rfl rfl fun t ht => ?_
    rw [ht]
    exact ⟨rfl, Thread.getGpr_setGpr_same ..⟩
  · intro rs ra rb double s p len i cr0 ho ha
    have he : Machine.exec i s = _ := exec_storeConditional rs ra rb double s
    have hv := conditionalValue_byte double (s.thr.getGpr rs)
    refine ⟨fun hr hwf => ?_, fun hr => ?_, fun g hr hg hwf => ?_⟩
    · exact completesStore_conditional 0 (he.trans (storeConditional_reserved ho ha hr)) hwf hv
    · refine Laws.completes_of_ppeNext 0 _ (he.trans (storeConditional_unreserved ho ha hr)) ?_ rfl rfl fun t => endConditional_cr0
      have hk := keeps_endConditional false s.thr
      rwa [hr] at hk
    · have hother := he.trans (storeConditional_elsewhere ho ha hr hg)
      split at hother
      · exact .inl (completesStore_conditional 1 hother hwf hv)
      · exact .inr (next_of_ppeNext 1 _ hother (keeps_endConditional ..) rfl rfl fun t => endConditional_cr0)
  · intro i rs upd ea len rev h hu s p u hcur ho ha hone
    refine ⟨_, exec_of_fixedStore h hu ho ha, fun w hw => ?_, fun n => ?_, fun hr => ?_⟩
    · rw [reserve_setBase, reserve_storeMem_other hone.symm hcur hw]
    · exact llres_storeMem hone.symm hcur n
    · rw [reserve_setBase, reserve_storeMem_elsewhere hone.symm hr]

end Sys2Proof.Machine
end

section
/-! The floating-point loads and stores (41_ppe_loadstore R716 to R718, R726 to R739, U48). -/

namespace Sys2Proof.Machine

open Sys2Proof.Safety

/-! ## `DOUBLE` -/

theorem toNat_append_eq {m n : Nat} (v : BitVec m) (w : BitVec n) : (v ++ w).toNat = v.toNat * 2^n + w.toNat := by
  rw [BitVec.toNat_append, ← Nat.shiftLeft_add_eq_or_of_lt w.isLt, Nat.shiftLeft_eq]

/-- The leading one of a number of `k` bits. -/
theorem leadZeros_spec {n : Nat} (w : BitVec n) (hw : w.toNat ≠ 0) (k : Nat) (hk : w.toNat < 2^k) :
    leadZeros w k < k ∧ 2^(k - 1 - leadZeros w k) ≤ w.toNat ∧ w.toNat < 2^(k - leadZeros w k) := by
  induction k with
  | zero => exact absurd (Nat.lt_one_iff.mp hk) hw
  | succ k ih =>
    have hbit : w.getLsbD k = decide (2^k ≤ w.toNat) := by
      rw [BitVec.getLsbD, Nat.testBit_eq_decide_div_mod_eq]
      rw [pow_succ] at hk
      rcases Nat.lt_or_ge w.toNat (2^k) with h | h
      · simp [Nat.div_eq_of_lt h, h]
      · simp [Nat.div_eq_of_lt_le (show 1 * 2^k ≤ w.toNat by omega) (show w.toNat < (1 + 1) * 2^k by omega), h]
    rw [leadZeros, hbit]
    rcases Nat.lt_or_ge w.toNat (2^k) with h | h
    · obtain ⟨h1, h2, h3⟩ := ih h
      rw [decide_eq_false h.not_ge, if_neg Bool.false_ne_true]
      refine ⟨by omega, ?_, ?_⟩
      · rwa [show k + 1 - 1 - (leadZeros w k + 1) = k - 1 - leadZeros w k by omega]
      · rwa [show k + 1 - (leadZeros w k + 1) = k - leadZeros w k by omega]
    · rw [decide_eq_true h, if_pos rfl]
      exact ⟨Nat.succ_pos k, h, hk⟩

section
variable {w : Word}

theorem toNat_sign_exponent_fraction (w : Word) :
    (ibm w 0 1).toNat = w.toNat / 2^31 ∧ (ibm w 1 8).toNat = w.toNat % 2^31 / 2^23 ∧ (ibm w 9 23).toNat = w.toNat % 2^31 % 2^23 := by
  have := w.isLt
  simp only [toNat_ibm]
  omega

/-- The double of a zero. -/
theorem toNat_doubleOf_zero (h : w.toNat % 2^31 = 0) : (doubleOf w).toNat = w.toNat / 2^31 * 2^63 := by
  obtain ⟨hs, he, hf⟩ := toNat_sign_exponent_fraction w
  rw [h] at he hf
  have hf0 : ibm w 9 23 = 0 := BitVec.eq_of_toNat_eq hf
  unfold doubleOf
  simp only [he, hf0, Nat.zero_div, toNat_append_eq, hs, reduceIte, ne_eq, not_true_eq_false, OfNat.zero_ne_ofNat,
    BitVec.toNat_ofNat, Nat.zero_mod, Nat.add_zero]

/-- The double of a normal number. -/
theorem toNat_doubleOf_normal (hn : 2^23 ≤ w.toNat % 2^31) (h : finiteSingle w) :
    (doubleOf w).toNat = w.toNat / 2^31 * 2^63 + (896 * 2^52 + w.toNat % 2^31 * 2^29) := by
  obtain ⟨hs, he, hf⟩ := toNat_sign_exponent_fraction w
  have hlt : w.toNat % 2^31 < 255 * 2^23 := (finiteSingle_iff w).mp h
  unfold doubleOf
  simp only [he, if_neg (show w.toNat % 2^31 / 2^23 ≠ 255 by omega), if_pos (show w.toNat % 2^31 / 2^23 ≠ 0 by omega),
    toNat_append_eq, hs, hf, BitVec.toNat_ofNat]
  omega

/-- The double of a denormal, whose fraction is shifted until its leading one is the implied one. -/
theorem toNat_doubleOf_denormal (h0 : w.toNat % 2^31 ≠ 0) (hd : w.toNat % 2^31 < 2^23) :
    ∃ c < 23, 2^52 ≤ w.toNat % 2^31 * 2^(c + 30) ∧ w.toNat % 2^31 * 2^(c + 30) < 2^53 ∧
      (doubleOf w).toNat = w.toNat / 2^31 * 2^63 + ((895 - c) * 2^52 + w.toNat % 2^31 * 2^(c + 30)) := by
  obtain ⟨hs, he, hf⟩ := toNat_sign_exponent_fraction w
  rw [Nat.mod_eq_of_lt hd] at hf
  rw [Nat.div_eq_of_lt hd] at he
  have hne : (ibm w 9 23) ≠ 0 := fun h => h0 (by rw [← hf, h]; rfl)
  obtain ⟨hc, hge, hlt⟩ := leadZeros_spec (ibm w 9 23) (hf ▸ h0) 23 (hf ▸ hd)
  change clz (ibm w 9 23) < 23 at hc
  change 2^(23 - 1 - clz (ibm w 9 23)) ≤ _ at hge
  change _ < 2^(23 - clz (ibm w 9 23)) at hlt
  rw [hf] at hge hlt
  unfold doubleOf
  simp only [he, reduceIte, ne_eq, not_true_eq_false, OfNat.zero_ne_ofNat, hne, toNat_append_eq, hs, BitVec.toNat_ofNat,
    BitVec.toNat_shiftLeft, hf, Nat.shiftLeft_eq]
  generalize clz (ibm w 9 23) = c at *
  have hge' : 2^22 ≤ w.toNat % 2^31 * 2^c := by
    calc 2^22 = 2^(23 - 1 - c) * 2^c := (two_pow_mul_eq (by omega)).symm
      _ ≤ _ := Nat.mul_le_mul_right _ hge
  have hlt' : w.toNat % 2^31 * 2^c < 2^23 := by
    calc _ < 2^(23 - c) * 2^c := Nat.mul_lt_mul_of_pos_right hlt (Nat.two_pow_pos c)
      _ = 2^23 := two_pow_mul_eq (by omega)
  refine ⟨c, hc, ?_⟩
  rw [pow_succ 2 c, pow_add 2 c 30, ← Nat.mul_assoc, ← Nat.mul_assoc]
  generalize w.toNat % 2^31 * 2^c = F at *
  omega

theorem units_pack64 {t m : Nat} (h : 2^52 ≤ m) (hm : m ≤ 2^53) : f64.units (t * 2^52 + m) = m * 2^t :=
  Fmt.units_pack (f := f64) (.inr h) hm

/-- The double of a finite single is a finite double of the same value. -/
theorem exists_doubleOf (h : finiteSingle w) : ∃ mag < f64.infMag, (doubleOf w).toNat = w.toNat / 2^31 * 2^63 + mag ∧
    f64.units mag = f32.units (w.toNat % 2^31) * 2^925 := by
  have hlt : w.toNat % 2^31 < f32.infMag := (finiteSingle_iff w).mp h
  have hfin {mag : Nat} (hu : f64.units mag = f32.units (w.toNat % 2^31) * 2^925) : mag < f64.infMag := by
    refine f64.units_strictMono.lt_iff_lt.mp ?_
    rw [hu]
    exact units_lt_infMag64 hlt
  rcases Nat.lt_or_ge (w.toNat % 2^31) (2^23) with hd | hn
  · rw [Fmt.units_of_lt (f := f32) hd] at hfin ⊢
    rcases eq_or_ne (w.toNat % 2^31) 0 with h0 | h0
    · have hu : f64.units 0 = w.toNat % 2^31 * 2^925 := by rw [h0, Fmt.units_of_lt (Nat.two_pow_pos _), Nat.zero_mul]
      exact ⟨0, hfin hu, (toNat_doubleOf_zero h0).trans (Nat.add_zero _).symm, hu⟩
    · obtain ⟨c, hc, hge, hle, hnat⟩ := toNat_doubleOf_denormal h0 hd
      have hu : f64.units ((895 - c) * 2^52 + w.toNat % 2^31 * 2^(c + 30)) = w.toNat % 2^31 * 2^925 := by
        rw [units_pack64 hge hle.le, Nat.mul_assoc, two_pow_mul_eq (k := 925) (by omega)]
      exact ⟨_, hfin hu, hnat, hu⟩
  · have hmag : 896 * 2^52 + w.toNat % 2^31 * 2^29 =
        (895 + w.toNat % 2^31 / 2^23) * 2^52 + (2^23 + w.toNat % 2^31 % 2^23) * 2^29 := by omega
    have hu : f64.units (896 * 2^52 + w.toNat % 2^31 * 2^29) = f32.units (w.toNat % 2^31) * 2^925 := by
      rw [hmag, units_pack64 (by omega) (by omega), Fmt.units_of_le (f := f32) hn,
        Nat.mul_assoc, Nat.mul_assoc, ← Nat.pow_add, ← Nat.pow_add]
      congr 2
      have : 0 < w.toNat % 2^31 / 2^23 := Nat.div_pos hn (by decide)
      change 29 + _ = w.toNat % 2^31 / 2^23 - 1 + 925
      omega
    exact ⟨_, hfin hu, toNat_doubleOf_normal hn h, hu⟩

theorem doubleOf_finite (h : finiteSingle w) :
    finiteDouble (doubleOf w) ∧ Safety.scaled (doubleOf w) = scaledSingle w ∧ ibit (doubleOf w) 0 = ibit w 0 := by
  obtain ⟨mag, hlt, hnat, hu⟩ := exists_doubleOf h
  have h63 : mag < 2^63 := hlt.trans (by decide)
  have hmod : (doubleOf w).toNat % 2^63 = mag := by omega
  have hsign : ibit (doubleOf w) 0 = ibit w 0 := by
    rw [ibit_zero_eq, ibit_zero_eq, decide_eq_decide]
    have := w.isLt
    omega
  rw [finiteDouble_iff, scaled_eq_units, scaledSingle_eq_units, hmod, hsign, hu]
  exact ⟨hlt, rfl, rfl⟩

/-- The double of an infinity or a NaN. -/
theorem doubleOf_special (h : ¬finiteSingle w) : doubleOf w = ibm w 0 1 ++ 0x7FF#11 ++ ibm w 9 23 ++ 0#29 := by
  obtain ⟨-, he, -⟩ := toNat_sign_exponent_fraction w
  unfold finiteSingle at h
  unfold doubleOf
  rw [if_pos (by omega)]

end

/-! ## `SINGLE` -/

/-- A finite double is known by its sign and its value. -/
theorem double_ext {d d' : DWord} (hs : ibit d 0 = ibit d' 0) (h : Safety.scaled d = Safety.scaled d') : d = d' := by
  rw [scaled_eq_units, scaled_eq_units, hs] at h
  have habs := congrArg Int.natAbs h
  rw [natAbs_signedNat, natAbs_signedNat] at habs
  have hmag := f64.units_strictMono.injective habs
  have := d.isLt
  have := d'.isLt
  rw [ibit_zero_eq, ibit_zero_eq, decide_eq_decide] at hs
  apply BitVec.eq_of_toNat_eq
  omega

theorem toNat_exponent_magnitude (d : DWord) :
    (ibm d 0 1).toNat = d.toNat / 2^63 ∧ (ibm d 1 11).toNat = d.toNat % 2^63 / 2^52 ∧ (ibm d 1 63).toNat = d.toNat % 2^63 ∧
      (ibm d 12 52).toNat = d.toNat % 2^52 := by
  have := d.isLt
  simp only [toNat_ibm]
  omega

/-- A normal double that single format holds, or a zero. -/
theorem singleOf_of_cut {d : DWord} {w : Word} (h : 897 * 2^52 ≤ d.toNat % 2^63 ∨ d.toNat % 2^63 = 0)
    (hw : ibm d 0 2 ++ ibm d 5 30 = w) : singleOf d = some w := by
  obtain ⟨-, he, hm, -⟩ := toNat_exponent_magnitude d
  refine (if_pos ?_).trans (congrArg some hw)
  rw [he, BitVec.toNat_eq, hm]
  exact h.imp (by omega) id

/-- A double that is a denormal `m` of single format: the implied one is shifted back into the fraction. -/
theorem singleOf_of_denormal {d : DWord} {w : Word} {m c : Nat} (hc : c < 23) (hm : m < 2^23) (hge : 2^52 ≤ m * 2^(c + 30))
    (hlt : m * 2^(c + 30) < 2^53) (hd : d.toNat = w.toNat / 2^31 * 2^63 + ((895 - c) * 2^52 + m * 2^(c + 30)))
    (hw : w.toNat % 2^31 = m) : singleOf d = some w := by
  obtain ⟨hs, he, h63, hf⟩ := toNat_exponent_magnitude d
  have hwlt := w.isLt
  have he' : (ibm d 1 11).toNat = 896 - c := by omega
  have hfrac : 2^52 + (ibm d 12 52).toNat = m * 2^(c + 30) := by omega
  have hne : ¬(896 < 896 - c ∨ ibm d 1 63 = 0) := by
    rw [BitVec.toNat_eq, h63, show (0 : BitVec 63).toNat = 0 from rfl]
    omega
  unfold singleOf
  simp only [he']
  rw [if_neg hne, if_pos (by omega), show 897 - (896 - c) = c + 1 by omega]
  refine congrArg some (BitVec.eq_of_toNat_eq ?_)
  rw [toNat_append_eq, toNat_append_eq, hs, BitVec.extractLsb'_toNat, BitVec.toNat_ushiftRight, toNat_append_eq,
    show (1#1).toNat * 2^52 = 2^52 from rfl, hfrac, ← Nat.shiftRight_add, show c + 1 + 29 = c + 30 by omega,
    Nat.shiftRight_eq_div_pow, Nat.mul_div_cancel _ (Nat.two_pow_pos _), Nat.mod_eq_of_lt hm, BitVec.toNat_ofNat]
  omega

/-- `SINGLE` undoes `DOUBLE` on the finite singles. -/
theorem singleOf_doubleOf {w : Word} (h : finiteSingle w) : singleOf (doubleOf w) = some w := by
  have hw := w.isLt
  have hfin : w.toNat % 2^31 < 255 * 2^23 := (finiteSingle_iff w).mp h
  rcases Nat.lt_or_ge (w.toNat % 2^31) (2^23) with hd | hn
  · rcases eq_or_ne (w.toNat % 2^31) 0 with h0 | h0
    · have hnat := toNat_doubleOf_zero h0
      refine singleOf_of_cut (.inr (by omega)) (BitVec.eq_of_toNat_eq ?_)
      rw [toNat_append_eq, toNat_ibm, toNat_ibm, hnat]
      omega
    · obtain ⟨c, hc, hge, hlt, hnat⟩ := toNat_doubleOf_denormal h0 hd
      exact singleOf_of_denormal hc hd hge hlt hnat rfl
  · have hnat := toNat_doubleOf_normal hn h
    refine singleOf_of_cut (.inl (by omega)) (BitVec.eq_of_toNat_eq ?_)
    rw [toNat_append_eq, toNat_ibm, toNat_ibm, hnat]
    rcases Nat.lt_or_ge (w.toNat % 2^31) (2^30) with hlow | hhigh <;> omega

/-- The word that a store in single format stores, in the terms of the statement. -/
theorem singleOf_eq {d : DWord} {w : Word}
    (h : finiteDouble d ∧ finiteSingle w ∧ scaledSingle w = Safety.scaled d ∧ ibit w 0 = ibit d 0 ∨
      ¬finiteDouble d ∧ w = ibm d 0 2 ++ ibm d 5 30) : singleOf d = some w := by
  rcases h with ⟨-, hw, hval, hsign⟩ | ⟨hd, hw⟩
  · obtain ⟨-, hval', hsign'⟩ := doubleOf_finite hw
    rw [double_ext (hsign.symm.trans hsign'.symm) (hval.symm.trans hval'.symm)]
    exact singleOf_doubleOf hw
  · refine singleOf_of_cut (.inl ?_) hw.symm
    unfold finiteDouble at hd
    omega

/-! ## Loads -/

theorem alignFloat_ok {s : State} {p : Page} {ea : DWord} {len : Nat} (h : alignedFor .float s p (s.thr.truncEa ea) len) :
    (alignFloat s ea len).before = false ∧ (alignFloat s ea len).after p (inhibited s p) = false := by
  obtain ⟨h4, h⟩ := h
  refine ⟨decide_eq_false (not_not.mpr h4), ?_⟩
  unfold alignFloat crosses
  dsimp only
  split at h
  · next hi => rw [if_pos hi, decide_eq_false (not_not.mpr h)]
  · next hi =>
    obtain ⟨hpage, hforce⟩ := h
    rw [if_neg hi, decide_eq_false hpage.not_gt, Bool.false_or]
    cases hf : s.ppe.forceAi with
    | false => rfl
    | true =>
      obtain ⟨h32, hlen⟩ := hforce hf
      rw [decide_eq_false h32.not_gt, decide_eq_false (not_not.mpr hlen)]
      rfl

section
variable {s : State} {ea : DWord} {len : Nat} {p : Page} {conv : Nat → DWord} {frt : BitVec 5} (hfp : ibit s.thr.msr 50 = true)
  (ho : Ordinary s (s.thr.truncEa ea) len false p) (ha : alignedFor .float s p (s.thr.truncEa ea) len)
include hfp ho ha

theorem loadFpr_ordinary : loadFpr s ea len conv frt =
    ppeNext s fun th => (th.setFpr frt (conv (readBytes s.mem p.ra len))).setBase none ea := by
  obtain ⟨hb, hafter⟩ := alignFloat_ok ha
  exact (if_pos hfp).trans (loadThen_ordinary conv _ ho hb hafter)

theorem loadFprU_ordinary {ra : BitVec 5} (hu : updateValid (some ra) none) : loadFprU s ea len conv frt ra =
    ppeNext s fun th => (th.setFpr frt (conv (readBytes s.mem p.ra len))).setBase (some ra) ea := by
  obtain ⟨hb, hafter⟩ := alignFloat_ok ha
  exact (if_pos hfp).trans ((if_neg (hu ra rfl).1).trans (loadThen_ordinary conv _ ho hb hafter))

end

/-- What a floating-point load makes of the bytes at a real address. -/
def floatLoaded (single : Bool) (m : List Host.Cell) (a : Nat) : DWord :=
  if single then dbl (readBytes m a 4) else raw (readBytes m a 8)

/-- What every valid floating-point load of an ordinary operand does. -/
theorem exec_of_floatLoad {i : Instr} {frt : BitVec 5} {upd : Option (BitVec 5)} {ea : Thread → DWord} {single : Bool}
    (h : FloatLoad i frt upd ea single) (hu : updateValid upd none) {s : State} {p : Page} (hfp : ibit s.thr.msr 50 = true)
    (ho : Ordinary s (s.thr.truncEa (ea s.thr)) (if single then 4 else 8) false p)
    (ha : alignedFor .float s p (s.thr.truncEa (ea s.thr)) (if single then 4 else 8)) :
    Machine.exec i s = ppeNext s fun th => (th.setFpr frt (floatLoaded single s.mem p.ra)).setBase upd (ea s.thr) := by
  cases h with
  | lfs | lfsx | lfd | lfdx => exact loadFpr_ordinary hfp ho ha
  | lfsu | lfsux | lfdu | lfdux => exact loadFprU_ordinary hfp ho ha hu

theorem keeps_setFpr_setBase (th : Thread) (frt : BitVec 5) (v : DWord) (upd : Option (BitVec 5)) (ea : DWord) :
    Keeps { fpr := [frt], gpr := upd.toList } th ((th.setFpr frt v).setBase upd ea) := by
  have hgpr (q : BitVec 5) (hq : q ∉ upd.toList) : ((th.setFpr frt v).setBase upd ea).getGpr q = th.getGpr q :=
    Thread.getGpr_setBase_other _ upd ea hq
  have hfpr (q : BitVec 5) (hq : q ∉ [frt]) : (th.setFpr frt v).getFpr q = th.getFpr q :=
    (th.getFpr_setFpr frt q v).trans (if_neg fun h => hq (List.mem_singleton.mpr h.symm))
  rw [Thread.setBase_eq]
  exact ⟨hgpr, hfpr, fun _ _ => rfl, rfl, rfl, rfl, rfl, fun _ => rfl, fun _ => rfl, fun _ => rfl, rfl⟩

theorem completes_of_floatLoad {i : Instr} {frt : BitVec 5} {upd : Option (BitVec 5)} {ea : Thread → DWord} {single : Bool}
    (h : FloatLoad i frt upd ea single) (hu : updateValid upd none) {s : State} {p : Page} (hfp : ibit s.thr.msr 50 = true)
    (ho : Ordinary s (s.thr.truncEa (ea s.thr)) (if single then 4 else 8) false p)
    (ha : alignedFor .float s p (s.thr.truncEa (ea s.thr)) (if single then 4 else 8)) :
    Completes i s { fpr := [frt], gpr := upd.toList } fun t =>
      (∀ r, upd = some r → t.thr.getGpr r = ea s.thr) ∧ t.thr.getFpr frt = floatLoaded single s.mem p.ra := by
  refine Laws.completes_of_ppeNext 0 _ (exec_of_floatLoad h hu hfp ho ha) (keeps_setFpr_setBase ..) ?_ ?_
    fun t ht => ⟨fun r hr => ?_, ?_⟩
  · rw [Thread.setBase_eq, Thread.setFpr_msr]
  · rw [Thread.setBase_eq, Thread.setFpr_pc]
  · rw [ht, Thread.getGpr_advance, Thread.getGpr_setBase_some _ _ _ hr]
  · rw [ht, Thread.getFpr_advance, Thread.setBase_eq]
    exact Thread.getFpr_setFpr_same ..

/-! ## Stores -/

section
variable {i : Instr} {frs : BitVec 5} {upd : Option (BitVec 5)} {ea : Thread → DWord} {s : State} {p : Page}
  (hfp : ibit s.thr.msr 50 = true)
include hfp

/-- What every valid store of a doubleword or of a word image does with an ordinary operand. -/
theorem exec_of_floatStore {len : Nat} (h : FloatStore i frs upd ea len) (hu : updateValid upd none)
    (ho : Ordinary s (s.thr.truncEa (ea s.thr)) len true p) (ha : alignedFor .float s p (s.thr.truncEa (ea s.thr)) len) :
    Machine.exec i s = ppeNext (s.storeMem (some s.cur) p.ra len ((s.thr.getFpr frs).toNat % 256^len))
      fun th => th.setBase upd (ea s.thr) := by
  cases h with
  | stfd | stfdx | stfiwx => exact (if_pos hfp).trans (storeVal_ordinary _ ho (alignFloat_ok ha))
  | stfdu | stfdux => exact (if_pos hfp).trans (storeValU_ordinary _ ho (alignFloat_ok ha) hu)

variable {w : Word} (hw : singleOf (s.thr.getFpr frs) = some w) (ho : Ordinary s (s.thr.truncEa (ea s.thr)) 4 true p)
  (ha : alignedFor .float s p (s.thr.truncEa (ea s.thr)) 4)
include hw ho ha

theorem storeSingle_ordinary : fpGuard s (let (v, s) := s.singleWord (s.thr.getFpr frs)
      storeVal s (ea s.thr) 4 (alignFloat s (ea s.thr) 4) v) =
    ppeNext (s.storeMem (some s.cur) p.ra 4 (w.toNat % 256^4)) fun th => th.setBase none (ea s.thr) := by
  rw [State.singleWord, hw]
  exact (if_pos hfp).trans (storeVal_ordinary _ ho (alignFloat_ok ha))

theorem storeSingleU_ordinary {ra : BitVec 5} (hu : updateValid (some ra) none) :
    fpGuard s (let (v, s) := s.singleWord (s.thr.getFpr frs)
      storeValU s (ea s.thr) 4 (alignFloat s (ea s.thr) 4) v ra) =
    ppeNext (s.storeMem (some s.cur) p.ra 4 (w.toNat % 256^4)) fun th => th.setBase (some ra) (ea s.thr) := by
  rw [State.singleWord, hw]
  exact (if_pos hfp).trans (storeValU_ordinary _ ho (alignFloat_ok ha) hu)

/-- What every valid store in single format does with an ordinary operand, where the word is defined. -/
theorem exec_of_singleStore (h : SingleStore i frs upd ea) (hu : updateValid upd none) :
    Machine.exec i s = ppeNext (s.storeMem (some s.cur) p.ra 4 (w.toNat % 256^4)) fun th => th.setBase upd (ea s.thr) := by
  cases h with
  | stfs _ ra d => exact storeSingle_ordinary (ea := eaD ra d) hfp hw ho ha
  | stfsx _ ra rb => exact storeSingle_ordinary (ea := eaX ra rb) hfp hw ho ha
  | stfsu _ ra d => exact storeSingleU_ordinary (ea := eaD ra d) hfp hw ho ha hu
  | stfsux _ ra rb => exact storeSingleU_ordinary (ea := eaX ra rb) hfp hw ho ha hu

end

/-! ## The obligation -/

/-- Settles O28: a load delivers the double of its word (`doubleOf_finite`, `doubleOf_special`) or its image; a store in single format
stores the word whose double is in the register (`singleOf_eq`). -/
theorem floatLoadsAndStores : Obligations.FloatLoadsAndStores := by
  refine ⟨?_, ?_, ?_⟩
  · intro i frt upd ea single h hu s p hfp len ho ha
    obtain ⟨t, he, honly, hk, hpc, hbase, hfpr⟩ := completes_of_floatLoad h hu hfp ho ha
    refine ⟨t, he, honly, hk, hpc, hbase, ?_⟩
    rw [hfpr]
    cases single with
    | false => exact ⟨fun _ => rfl, nofun, nofun⟩
    | true => exact ⟨nofun, fun _ => doubleOf_finite, fun _ => doubleOf_special⟩
  · intro i frs upd ea len h hu s p hfp hwf ho ha
    exact completesStore_setBase (exec_of_floatStore hfp h hu ho ha) hwf fun j hj => storedByte_mod hj _
  · intro i frs upd ea h hu s p w hfp hwf ho ha hw
    exact completesStore_setBase (exec_of_singleStore hfp (singleOf_eq hw) ho ha h hu) hwf fun j hj => storedByte_mod hj _

end Sys2Proof.Machine
end

section
/-! Words as numbers and bit by bit, as the fixed-point instructions read them (30_encoding R543, 42_ppe_integer R740): low words,
immediates, sign extension, rotation, masks, the count of leading zeros. -/

namespace Sys2Proof.Machine

open Sys2Proof.Safety

/-! ## Numbers -/

theorem toInt_lowWord (v : DWord) : (lowWord v).toInt = lowInt v := by
  rw [lowWord_eq_setWidth]
  exact Laws.signed_eq 32 (by decide) v

theorem toInt_si64 (v : BitVec 16) : (si64 v).toInt = v.toInt := BitVec.toInt_signExtend_of_le (by decide)

theorem toNat_ui64 (v : BitVec 16) : (ui64 v).toNat = v.toNat := BitVec.toNat_setWidth_of_le (by decide)

/-- A shift count in the low `len` bits of a register. -/
theorem toNat_ibm_low (v : DWord) {first len : Nat} (h : first + len = 64) : (ibm v first len).toNat = v.toNat % 2^len := by
  rw [toNat_ibm, show 64 - first - len = 0 by omega, Nat.pow_zero, Nat.div_one]

/-- An immediate above 16 zeros. -/
theorem signExtend_append_zero (v : BitVec 16) : (v ++ 0#16).signExtend 64 = v.signExtend 64 <<< 16 := by
  apply BitVec.eq_of_getLsbD_eq
  intro i hi
  rw [BitVec.getLsbD_signExtend, BitVec.getLsbD_shiftLeft, BitVec.getLsbD_signExtend, BitVec.getLsbD_append, BitVec.msb_append]
  rcases Nat.lt_or_ge i 16 with h | h
  · simp [h, show i < 32 by omega]
  · rcases Nat.lt_or_ge i 32 with h' | h'
    · simp [hi, Nat.not_lt.mpr h, h', show i - 16 < 16 by omega, show i - 16 < 64 by omega]
    · simp [hi, Nat.not_lt.mpr h, Nat.not_lt.mpr h', show ¬i - 16 < 16 by omega, show i - 16 < 64 by omega]

theorem leadZeros_zero (n k : Nat) : leadZeros (0#n) k = k := by
  induction k with
  | zero => rfl
  | succ k ih => rw [leadZeros, BitVec.getLsbD_zero, if_neg Bool.false_ne_true, ih]

/-- The leading zeros of a word, from the place of its leading one. -/
theorem clz_eq {n : Nat} (w : BitVec n) : clz w = if w.toNat = 0 then n else n - 1 - w.toNat.log2 := by
  unfold clz
  split
  · next h =>
    rw [BitVec.eq_of_toNat_eq (y := 0#n) h]
    exact leadZeros_zero n n
  · next h =>
    obtain ⟨hlt, hlo, hhi⟩ := leadZeros_spec w h n w.isLt
    rw [show n - leadZeros w n = n - 1 - leadZeros w n + 1 by omega] at hhi
    rw [(Nat.log2_eq_iff h).mpr ⟨hlo, hhi⟩]
    omega

/-! ## Bits -/

theorem ibit_xor {n : Nat} (v w : BitVec n) (k : Nat) : ibit (v ^^^ w) k = (ibit v k ^^ ibit w k) := BitVec.getLsbD_xor ..

section
variable {k : Nat} (hk : k < 64)
include hk

theorem ibit_ui64 (v : BitVec 16) : ibit (ui64 v) k = (decide (48 ≤ k) && ibit v (k - 48)) := by
  unfold ibit ui64
  rw [BitVec.getLsbD_setWidth, decide_eq_true (by omega), Bool.true_and]
  by_cases h : 48 ≤ k
  · rw [decide_eq_true h, Bool.true_and]
    congr 1
    omega
  · rw [decide_eq_false h, Bool.false_and]
    exact BitVec.getLsbD_of_ge _ _ (by omega)

theorem ibit_shiftLeft (v : DWord) (n : Nat) : ibit (v <<< n) k = (decide (k + n < 64) && ibit v (k + n)) := by
  unfold ibit
  rw [BitVec.getLsbD_shiftLeft, decide_eq_true (show 64 - 1 - k < 64 by omega), Bool.true_and, ← decide_not,
    decide_eq_decide.mpr (show ¬64 - 1 - k < n ↔ k + n < 64 by omega), show 64 - 1 - k - n = 64 - 1 - (k + n) by omega]

theorem ibit_ui64_shifted (v : BitVec 16) : ibit (ui64 v <<< 16) k = (decide (32 ≤ k ∧ k < 48) && ibit v (k - 32)) := by
  rw [ibit_shiftLeft hk]
  by_cases h : k + 16 < 64
  · rw [decide_eq_true h, Bool.true_and, ibit_ui64 h, show k + 16 - 48 = k - 32 by omega,
      decide_eq_decide.mpr (show 48 ≤ k + 16 ↔ 32 ≤ k ∧ k < 48 by omega)]
  · rw [decide_eq_false h, decide_eq_false (by omega), Bool.false_and, Bool.false_and]

/-- The low `len` bits, sign-extended: the bits above are copies of the first of them. -/
theorem ibit_signExtend_ibm (v : DWord) {first len : Nat} (h : first + len = 64) (hl : 0 < len) :
    ibit ((ibm v first len).signExtend 64) k = ibit v (max k first) := by
  have hbit (j : Nat) (hj : j < len) : (ibm v first len).getLsbD j = v.getLsbD j := by
    rw [ibm, BitVec.getLsbD_extractLsb', decide_eq_true hj, Bool.true_and, show 64 - first - len + j = j by omega]
  unfold ibit
  rw [BitVec.getLsbD_signExtend, decide_eq_true (show 64 - 1 - k < 64 by omega), Bool.true_and, BitVec.msb_eq_getLsbD_last]
  split
  · next hj => rw [hbit _ hj, show max k first = k by omega]
  · rw [hbit _ (by omega), show max k first = first by omega, show 64 - 1 - first = len - 1 by omega]

theorem ibit_rotateLeft (v : DWord) (n : Nat) : ibit (v.rotateLeft n) k = ibit v ((k + n) % 64) := by
  unfold ibit
  rw [BitVec.getLsbD_rotateLeft]
  by_cases h : 64 - 1 - k < n % 64
  · rw [decide_eq_true h, cond_true]
    congr 1
    omega
  · rw [decide_eq_false h, cond_false, decide_eq_true (by omega), Bool.true_and]
    congr 1
    omega

theorem ibit_rotl32 (v : DWord) (n : Nat) : ibit (rotl32 v n) k = ibit v (32 + (k + n) % 32) := by
  rw [rotl32, ibit_rotateLeft hk, ibit_append _ _ (Nat.mod_lt _ (by decide))]
  split <;>
  · rw [ibit_ibm v (by omega) (by decide)]
    congr 1
    omega

theorem ibit_allOnes_shifted (j : Nat) : ibit (BitVec.allOnes 64 >>> j) k = decide (j ≤ k) := by
  unfold ibit
  rw [BitVec.getLsbD_ushiftRight, BitVec.getLsbD_allOnes, decide_eq_decide]
  omega

theorem ibit_mask64 (mb me : Nat) : ibit (mask64 mb me) k = inMask mb me k := by
  unfold mask64 inMask
  split
  · rw [ibit_and, ibit_not _ hk, ibit_allOnes_shifted hk, ibit_allOnes_shifted hk, ← decide_not, ← Bool.decide_and, decide_eq_decide]
    omega
  · rw [ibit_or, ibit_not _ hk, ibit_allOnes_shifted hk, ibit_allOnes_shifted hk, ← decide_not, ← Bool.decide_or, decide_eq_decide]
    omega

theorem ibit_insertUnder (m new old : DWord) : ibit (insertUnder m new old) k = if ibit m k then ibit new k else ibit old k := by
  rw [insertUnder, ibit_or, ibit_and, ibit_and, ibit_not _ hk]
  cases ibit m k <;> simp

end

end Sys2Proof.Machine
end

section
/-! The additions and subtractions (42_ppe_integer R741 to R756). -/

namespace Sys2Proof.Machine

open Sys2Proof.Safety

/-! ## Encoding -/

theorem toNat_encode (i : Instr) : (encode i).toNat = encodeNat i % 2^32 := BitVec.toNat_ofNat ..

/-- The opcode of a D-form. -/
theorem opcd_dForm {i : Instr} {op : Nat} (rt ra : BitVec 5) (si : BitVec 16) (hop : op < 64)
    (h : encodeNat i = op * 2^26 + put rt 21 + put ra 16 + put si 0) : opcd i = op := by
  have := rt.isLt
  have := ra.isLt
  have := si.isLt
  rw [opcd, toNat_ibm, toNat_encode, h, put, put, put]
  omega

/-- The opcodes of an XO-form. -/
theorem opcodes_xoForm {i : Instr} {x : Nat} (rt ra rb : BitVec 5) (oe rec : Bool) (hx : x < 512)
    (h : encodeNat i = 31 * 2^26 + x * 2 + put rt 21 + put ra 16 + put rb 11 + putB oe 10 + putB rec 0) :
    opcd i = 31 ∧ ∀ y, some x = some y → xo9 i = y := by
  have := rt.isLt
  have := ra.isLt
  have := rb.isLt
  have := oe.toNat_lt
  have := rec.toNat_lt
  rw [opcd, xo9, toNat_ibm, toNat_ibm, toNat_encode, h, put, put, put, putB, putB]
  refine ⟨by omega, fun y hy => ?_⟩
  obtain rfl := Option.some.inj hy
  omega

/-- The opcodes of an XO-form with a reserved field in place of RB. -/
theorem opcodes_xoForm_reserved {i : Instr} {x : Nat} (rt ra : BitVec 5) (oe rec : Bool) (hx : x < 512)
    (h : encodeNat i = 31 * 2^26 + x * 2 + put rt 21 + put ra 16 + putB oe 10 + putB rec 0) :
    opcd i = 31 ∧ ∀ y, some x = some y → xo9 i = y :=
  opcodes_xoForm rt ra 0 oe rec hx (by rw [h, show put (0 : BitVec 5) 11 = 0 from rfl, Nat.add_zero])

theorem opcodes_plainSum {i : Instr} {op : Nat} {xo : Option Nat} {fx : Thread → ArithFx} (h : PlainSum i op xo fx) :
    opcd i = op ∧ ∀ x, xo = some x → xo9 i = x := by
  cases h with
  | addi rt ra si | addis rt ra si => exact ⟨opcd_dForm rt ra si (by decide) rfl, nofun⟩
  | add rt ra rb oe rec | subf rt ra rb oe rec => exact opcodes_xoForm rt ra rb oe rec (by decide) rfl
  | neg rt ra oe rec => exact opcodes_xoForm_reserved rt ra oe rec (by decide) rfl

theorem opcodes_carryingSum {i : Instr} {op : Nat} {xo : Option Nat} {fx : Thread → ArithFx} (h : CarryingSum i op xo fx) :
    opcd i = op ∧ ∀ x, xo = some x → xo9 i = x := by
  cases h with
  | addic rt ra si | addicDot rt ra si | subfic rt ra si => exact ⟨opcd_dForm rt ra si (by decide) rfl, nofun⟩
  | addc rt ra rb oe rec | subfc rt ra rb oe rec | adde rt ra rb oe rec | subfe rt ra rb oe rec =>
    exact opcodes_xoForm rt ra rb oe rec (by decide) rfl
  | addme rt ra oe rec | subfme rt ra oe rec | addze rt ra oe rec | subfze rt ra oe rec =>
    exact opcodes_xoForm_reserved rt ra oe rec (by decide) rfl

/-! ## Effect -/

theorem Thread.width_eq (th : Thread) : th.width = 64 ∨ th.width = 32 := by
  unfold Thread.width
  cases th.sf
  · exact .inr rfl
  · exact .inl rfl

/-- An instruction of the form that adds completes with the sum. -/
theorem completes_sum {i : Instr} {s : State} {f : Thread → Thread} {fx : ArithFx} {rt : BitVec 5} {x y : DWord}
    {c setCa oe rec : Bool} (he : Machine.exec i s = ppeNext s f) (hf : f s.thr = addForm rt x y c setCa oe rec s.thr)
    (hfx : sumFx rt x y c setCa oe rec s.thr = fx) : Completes i s fx.writes (Delivers fx s) :=
  Laws.completes_arith fx f he (hfx ▸ hf.trans (Laws.addForm_eq ..))

theorem addForm_plain (rt : BitVec 5) (x y : DWord) (th : Thread) : addForm rt x y false false false false th = th.setGpr rt (x + y) :=
  congrArg (th.setGpr rt) (BitVec.add_zero _)

/-- Negation, as the sum of the complement and 1, overflows for the most negative number only. -/
theorem overflow_not (th : Thread) (x : DWord) :
    overflow th.width (~~~x) 0 true = decide (x.toNat % 2^th.width = 2^(th.width - 1)) := by
  have hx := x.isLt
  have hc : true.toNat = 1 := rfl
  have h0 : (0 : DWord).toNat = 0 := rfl
  rw [overflow, carry, carry, BitVec.toNat_not, hc, h0, Bool.eq_iff_iff, bne_iff_ne, ne_eq, decide_eq_decide, decide_eq_true_eq]
  rcases th.width_eq with hw | hw <;> rw [hw] <;> omega

/-- The sum of the complement and 1 in the terms in which Safety.lean says what `neg` delivers. -/
theorem sumFx_neg (rt : BitVec 5) (x : DWord) (oe rec : Bool) (th : Thread) : sumFx rt (~~~x) 0 true false oe rec th =
    { dst := rt, val := -x, cr0 := rec, ov := if oe then some (decide (x.toNat % 2^th.width = 2^(th.width - 1))) else none } := by
  rw [BitVec.neg_eq_not_add, ← overflow_not, sumFx, show ~~~x + 0 = ~~~x from BitVec.add_zero _]
  rfl

theorem completes_plainSum {i : Instr} {op : Nat} {xo : Option Nat} {fx : Thread → ArithFx} (h : PlainSum i op xo fx) (s : State) :
    Completes i s (fx s.thr).writes (Delivers (fx s.thr) s) := by
  cases h with
  | addi => exact completes_sum rfl (addForm_plain ..).symm rfl
  | addis => exact completes_sum rfl (addForm_plain ..).symm (by rw [signExtend_append_zero]; rfl)
  | add | subf => exact completes_sum rfl rfl rfl
  | neg => exact completes_sum rfl rfl (sumFx_neg ..)

theorem completes_carryingSum {i : Instr} {op : Nat} {xo : Option Nat} {fx : Thread → ArithFx} (h : CarryingSum i op xo fx) (s : State) :
    Completes i s (fx s.thr).writes (Delivers (fx s.thr) s) := by
  cases h <;> exact completes_sum rfl rfl rfl

/-- Settles O1: the fields of the encodings (`opcd_dForm`, `opcodes_xoForm`), and the effect of the form that all the sums share. -/
theorem additionsDeliverSumAndCarry : Obligations.AdditionsDeliverSumAndCarry :=
  ⟨fun _ _ _ _ h => ⟨(opcodes_plainSum h).1, (opcodes_plainSum h).2, completes_plainSum h⟩,
    fun _ _ _ _ h => ⟨(opcodes_carryingSum h).1, (opcodes_carryingSum h).2, completes_carryingSum h⟩⟩

end Sys2Proof.Machine
end

section
/-! Consequences of the predicates of Safety.lean: a weaker claim of a completion, a frame that also has CR field 0 or the priority, a
delivery without a record. -/

namespace Sys2Proof.Machine

theorem Thread.setPriority_eq (th : Thread) (p : PpeShared) (want : BitVec 2) :
    th.setPriority p want = { th with tsrlTp := (th.setPriority p want).tsrlTp } := by
  simp only [Thread.setPriority]
  split <;> rfl

end Sys2Proof.Machine

namespace Sys2Proof.Safety

open Machine

theorem Completes.imp {i : Instr} {s : State} {w : Writes} {P Q : State → Prop} (h : Completes i s w P) (hPQ : ∀ t, P t → Q t) :
    Completes i s w Q := by
  obtain ⟨t, he, honly, hk, hpc, hP⟩ := h
  exact ⟨t, he, honly, hk, hpc, hPQ t hP⟩

/-- A thread that also writes CR field 0. -/
theorem Keeps.setCr0 {w : Writes} {x y : Thread} (h : Keeps w x y) (hw : w.cr = 0) (v : BitVec 4) :
    Keeps { w with cr := cr0Mask } x (y.setCrField 0 v) := by
  have hy := h.cr
  rw [hw, show ~~~(0 : Word) = BitVec.allOnes 32 from rfl, BitVec.and_allOnes, BitVec.and_allOnes] at hy
  exact { h with cr := hy ▸ Laws.setCr_out _ _ 0 }

/-- A thread that may also have changed its priority. -/
theorem Keeps.setPriority {w : Writes} {x y : Thread} (h : Keeps w x y) (p : PpeShared) (want : BitVec 2) :
    Keeps { w with prio := true } x (y.setPriority p want) := by
  rw [Thread.setPriority_eq]
  exact { h with prio := nofun }

theorem Completes.allowPrio {i : Instr} {s : State} {w : Writes} {P : State → Prop} (h : Completes i s w P) (hw : w.prio = false)
    (b : Bool) : Completes i s { w with prio := b } P := by
  obtain ⟨t, he, honly, hk, hpc, hP⟩ := h
  exact ⟨t, he, honly, { hk with prio := fun _ => hk.prio hw }, hpc, hP⟩

/-- Only a record looks at CR. -/
theorem Delivers.of_eq {x : ArithFx} {s t t' : State} (h : Delivers x s t') (hc : x.cr0 = false) (hg : t.thr.gpr = t'.thr.gpr)
    (hx : t.thr.xer = t'.thr.xer) : Delivers x s t where
  val := by rw [Thread.getGpr, hg]; exact h.val
  ca := hx ▸ h.ca
  ov := hx ▸ h.ov
  cr hr := Bool.noConfusion (hc.symm.trans hr)

end Sys2Proof.Safety
end

section
/-! The products and quotients (42_ppe_integer section 3, R760 to R770, U49). -/

namespace Sys2Proof.Machine

open Sys2Proof.Safety

/-! ## Quotients -/

theorem lowInt_eq_zero (v : DWord) : lowInt v = 0 ↔ lowNat v = 0 := by
  unfold lowInt lowNat signedPart
  split <;> omega

/-- Division that truncates toward zero. -/
theorem isQuotient_tdiv (a : Int) {b : Int} (hb : b ≠ 0) : IsQuotient a b (a.tdiv b) := by
  refine ⟨a.tmod b, (Int.tdiv_mul_add_tmod a b).symm, ?_, Int.tmod_nonneg b, fun ha => ?_⟩
  · rw [Int.natAbs_tmod]
    exact Nat.mod_lt _ (Int.natAbs_pos.mpr hb)
  · have h := Int.tmod_nonneg b (Int.neg_nonneg.mpr ha)
    rw [Int.neg_tmod] at h
    omega

theorem isQuotient_natDiv (a : Nat) {b : Nat} (hb : b ≠ 0) : IsQuotient a b (a / b : Nat) := by
  rw [Int.ofNat_tdiv]
  exact isQuotient_tdiv a (Int.natCast_ne_zero.mpr hb)

/-! ## The forms -/

section
variable {i : Instr} {s : State} {f : Thread → Thread} {rt : BitVec 5} {r : DWord} {ov oe rec : Bool}

theorem mulForm_eq (rt : BitVec 5) (r : DWord) (ov oe rec : Bool) (th : Thread) :
    mulForm rt r ov oe rec th = Laws.arith rt r none (if oe then some ov else none) rec th := by
  cases oe <;> rfl

theorem mulForm_frame (rt : BitVec 5) (r : DWord) (ov oe rec : Bool) (th : Thread) :
    (mulForm rt r ov oe rec th).msr = th.msr ∧ (mulForm rt r ov oe rec th).pc = th.pc := by
  cases oe <;> cases rec <;> exact ⟨rfl, rfl⟩

theorem writes_productFx (rt : BitVec 5) (r : DWord) (ov oe rec : Bool) : (productFx rt r ov oe rec).writes = productWrites rt oe rec := by
  cases oe <;> simp [ArithFx.writes, productFx, productWrites]

theorem mulForm_keeps (rt : BitVec 5) (r : DWord) (ov oe rec : Bool) (th : Thread) :
    Keeps (productWrites rt oe rec) th (mulForm rt r ov oe rec th) := by
  rw [mulForm_eq, ← writes_productFx rt r ov]
  exact Laws.arith_keeps (productFx rt r ov oe rec) th

theorem mulForm_delivers {t : State} (h : t.thr = (mulForm rt r ov oe rec s.thr).advance) : Delivers (productFx rt r ov oe rec) s t :=
  Laws.arith_delivers _ s t (h.trans (congrArg Thread.advance (mulForm_eq ..)))

/-- An instruction of the form that multiplies, after `k` draws of free values. -/
theorem completes_product (k : Nat) (he : Machine.exec i s = ppeNext (s.drew k) f) (hf : f s.thr = mulForm rt r ov oe rec s.thr) :
    Completes i s (productWrites rt oe rec) (Delivers (productFx rt r ov oe rec) s) := by
  obtain ⟨hm, hpc⟩ := mulForm_frame rt r ov oe rec s.thr
  exact Laws.completes_of_ppeNext k f he (hf ▸ mulForm_keeps ..) (hf ▸ hm) (hf ▸ hpc) fun t ht => mulForm_delivers (hf ▸ ht)

/-- A record whose LT, GT and EQ are any values (U49). -/
def Thread.recordFree (th : Thread) (rec : Bool) (v : BitVec 3) : Thread :=
  if rec then th.setCrField 0 (v ++ BitVec.ofBool th.so) else th

theorem Thread.recordFree_so (th : Thread) (v : BitVec 3) : ibit (th.recordFree true v).cr 3 = ibit th.xer 32 := by
  refine (Laws.ibit_setIbm4 _ _ 0#3 3 (by decide)).trans ((ibit_append _ _ (by decide)).trans ?_)
  rw [if_neg (by decide)]
  exact BitVec.getLsbD_ofBool ..

/-- A value and OV, with a record of any LT, GT and EQ: the products and quotients that have free bits (U49). -/
theorem completes_recordFree (k : Nat) {v : BitVec 3} (he : Machine.exec i s = ppeNext (s.drew k) f)
    (hf : f s.thr = (mulForm rt r ov oe false s.thr).recordFree rec v) :
    Completes i s (productWrites rt oe rec) fun t =>
      Delivers (productFx rt r ov oe false) s t ∧ (rec = true → ibit t.thr.cr 3 = ibit t.thr.xer 32) := by
  cases rec with
  | false => exact (completes_product k he (hf.trans (if_neg Bool.false_ne_true))).imp fun t ht => ⟨ht, nofun⟩
  | true =>
    obtain ⟨hm, hpc⟩ := mulForm_frame rt r ov oe false s.thr
    have hk : Keeps (productWrites rt oe true) s.thr (f s.thr) := hf ▸ (mulForm_keeps rt r ov oe false s.thr).setCr0 rfl _
    have hd : Delivers (productFx rt r ov oe false) s (s.modThr fun th => (mulForm rt r ov oe false th).advance) :=
      mulForm_delivers (s.thr_modThr _)
    refine Laws.completes_of_ppeNext k f he hk (hf ▸ hm) (hf ▸ hpc) fun t ht => ?_
    rw [hf] at ht
    exact ⟨hd.of_eq rfl (by rw [ht, State.thr_modThr]; rfl) (by rw [ht, State.thr_modThr]; rfl),
      fun _ => ht ▸ Thread.recordFree_so _ v⟩

end

theorem undefinedRecord_wide {th : Thread} (h : th.sf = true) (s : State) (k : Nat) (r : DWord) (rec : Bool) :
    undefinedRecord s k r rec th = th.recordFree rec (s.free 3 k) := by
  rw [undefinedRecord, if_pos h, Thread.recordFree]

theorem undefinedRecord_narrow {th : Thread} (h : th.sf = false) (s : State) (k : Nat) (r : DWord) (rec : Bool) :
    undefinedRecord s k r rec th = th.recordIf rec r := by
  rw [undefinedRecord, h, if_neg Bool.false_ne_true, Thread.recordIf]

theorem lowWord_append (v w : Word) : ((v ++ w : DWord).setWidth 32 : Word) = w := by
  rw [← lowWord_eq_setWidth]
  exact BitVec.extractLsb'_append_eq_right

section
variable {i : Instr} {s : State} {rt : BitVec 5} {ov oe rec : Bool}

/-- A word with free bits above it (U49): in 32-bit mode an ordinary result, in 64-bit mode one with a free record. -/
theorem completes_wordResult {w : Word} (he : Machine.exec i s = wordResult rt w ov oe rec s) :
    Completes i s (productWrites rt oe rec) fun t =>
      (t.thr.getGpr rt).setWidth 32 = w ∧
      (oe = true → ibit t.thr.xer 33 = ov ∧ ibit t.thr.xer 32 = (ibit s.thr.xer 32 || ov)) ∧
      (rec = true → ibit t.thr.cr 3 = ibit t.thr.xer 32 ∧ (ibit s.thr.msr 0 = false → Recorded t.thr (t.thr.getGpr rt))) := by
  let r : DWord := s.free 32 0 ++ w
  have hlow {t : State} (h : t.thr.getGpr rt = r) : (t.thr.getGpr rt).setWidth 32 = w := h ▸ lowWord_append ..
  have hf : Machine.exec i s = ppeNext (s.drew 2) fun th => undefinedRecord s 1 r rec (mulForm rt r ov oe false th) := he
  have hsf : (mulForm rt r ov oe false s.thr).sf = ibit s.thr.msr 0 := congrArg (ibit · 0) (mulForm_frame ..).1
  cases hmode : ibit s.thr.msr 0 with
  | false =>
    have hn := undefinedRecord_narrow (hsf.trans hmode) s 1 r rec
    refine (completes_product (r := r) (ov := ov) 2 hf hn).imp fun t hd => ?_
    refine ⟨hlow hd.val, fun hoe => hd.ov ov (if_pos hoe), fun hrec => ?_⟩
    have hr := hd.val.symm ▸ hd.cr hrec
    exact ⟨hr.so, fun _ => hr⟩
  | true =>
    have hw := undefinedRecord_wide (hsf.trans hmode) s 1 r rec
    refine (completes_recordFree 2 hf hw).imp fun t ⟨hd, hso⟩ => ?_
    exact ⟨hlow hd.val, fun hoe => hd.ov ov (if_pos hoe), fun hrec => ⟨hso hrec, nofun⟩⟩

theorem completes_undefinedDivide (he : Machine.exec i s = undefinedDivide rt oe rec s) :
    Completes i s (productWrites rt oe rec) fun t =>
      (oe = true → ibit t.thr.xer 33 = true ∧ ibit t.thr.xer 32 = true) ∧ (rec = true → ibit t.thr.cr 3 = ibit t.thr.xer 32) := by
  refine (completes_recordFree (r := s.free 64 0) (ov := true) 2 he rfl).imp fun t ⟨hd, hso⟩ => ⟨fun hoe => ?_, hso⟩
  obtain ⟨hov, hsum⟩ := hd.ov true (if_pos hoe)
  exact ⟨hov, hsum.trans (Bool.or_true _)⟩

end

/-! ## The instructions -/

theorem exec_of_wholeProduct {i : Instr} {ok : Thread → Prop} {fx : Thread → ArithFx → Prop} (h : WholeProduct i ok fx) {s : State}
    (hok : ok s.thr) : ∃ rt r ov oe rec f, fx s.thr (productFx rt r ov oe rec) ∧ Machine.exec i s = ppeNext s f ∧
      f s.thr = mulForm rt r ov oe rec s.thr := by
  cases h with
  | mulli rt ra si =>
    refine ⟨rt, _, false, false, false, _, rfl, rfl, ?_⟩
    rw [BitVec.ofInt_mul, BitVec.ofInt_toInt]
    rfl
  | mullw rt ra rb oe rec =>
    refine ⟨rt, _, _, oe, rec, _, rfl, rfl, ?_⟩
    simp only [toInt_lowWord]
    rfl
  | mulld rt ra rb oe rec => exact ⟨rt, _, _, oe, rec, _, rfl, rfl, rfl⟩
  | mulhd rt ra rb rec | mulhdu rt ra rb rec => exact ⟨rt, _, false, false, rec, _, rfl, rfl, rfl⟩
  | divd rt ra rb oe rec =>
    obtain ⟨hb, hov⟩ := hok
    have hb : (s.thr.getGpr rb).toInt ≠ 0 := fun h => hb (BitVec.eq_of_toInt_eq h)
    exact ⟨rt, _, false, oe, rec, _, ⟨_, isQuotient_tdiv _ hb, rfl⟩, if_neg (not_or.mpr ⟨hb, hov⟩), rfl⟩
  | divdu rt ra rb oe rec =>
    have hb : (s.thr.getGpr rb).toNat ≠ 0 := fun h => hok (BitVec.eq_of_toNat_eq h)
    refine ⟨rt, _, false, oe, rec, _, ⟨_, isQuotient_natDiv _ hb, rfl⟩, if_neg hb, ?_⟩
    rw [BitVec.ofInt_natCast]

theorem exec_of_wordProduct {i : Instr} {rt : BitVec 5} {oe rec : Bool} {ok : Thread → Prop} {low : Thread → Word → Prop}
    (h : WordProduct i rt oe rec ok low) {s : State} (hok : ok s.thr) :
    ∃ w, low s.thr w ∧ Machine.exec i s = wordResult rt w false oe rec s := by
  cases h with
  | mulhw ra rb => exact ⟨_, rfl, by rw [← toInt_lowWord, ← toInt_lowWord]; rfl⟩
  | mulhwu ra rb => exact ⟨_, rfl, by rw [lowNat, lowNat, ← toNat_lowWord, ← toNat_lowWord]; rfl⟩
  | divw ra rb =>
    obtain ⟨hb, hov⟩ := hok
    have hb := mt (lowInt_eq_zero _).mp hb
    refine ⟨_, ⟨_, isQuotient_tdiv _ hb, rfl⟩, ?_⟩
    simp only [← toInt_lowWord] at hb hov ⊢
    exact if_neg (not_or.mpr ⟨hb, hov⟩)
  | divwu ra rb =>
    refine ⟨_, ⟨_, isQuotient_natDiv _ hok, rfl⟩, ?_⟩
    rw [BitVec.ofInt_natCast]
    simp only [lowNat, ← toNat_lowWord] at hok ⊢
    exact if_neg hok

theorem exec_of_undefinedQuotient {i : Instr} {rt : BitVec 5} {oe rec : Bool} {ok : Thread → Prop}
    (h : UndefinedQuotient i rt oe rec ok) {s : State} (hok : ok s.thr) : Machine.exec i s = undefinedDivide rt oe rec s := by
  cases h with
  | divw ra rb =>
    simp only [← lowInt_eq_zero, ← toInt_lowWord] at hok
    exact if_pos hok
  | divwu ra rb =>
    simp only [lowNat, ← toNat_lowWord] at hok
    exact if_pos hok
  | divd ra rb => exact if_pos (hok.imp_left fun h => by rw [h]; rfl)
  | divdu ra rb => exact if_pos (by rw [hok]; rfl)

/-! ## The obligation -/

/-- Settles O2: what each instruction is in its condition (`exec_of_wholeProduct`, `exec_of_wordProduct`, `exec_of_undefinedQuotient`),
and what the three forms deliver. -/
theorem productsAndQuotients : Obligations.ProductsAndQuotients := by
  refine ⟨fun i ok fx h s hok => ?_, fun i rt oe rec ok low h s hok => ?_, fun i rt oe rec ok h s hok => ?_⟩
  · obtain ⟨rt, r, ov, oe, rec, f, hfx, he, hf⟩ := exec_of_wholeProduct h hok
    exact ⟨_, hfx, writes_productFx rt r ov oe rec ▸ completes_product 0 he hf⟩
  · obtain ⟨w, hlow, he⟩ := exec_of_wordProduct h hok
    refine (completes_wordResult he).imp fun t ⟨hw, hov, hrec⟩ => ⟨hw ▸ hlow, fun hoe => ?_, hrec⟩
    exact ⟨(hov hoe).1, (hov hoe).2.trans (Bool.or_false _)⟩
  · exact completes_undefinedDivide (exec_of_undefinedQuotient h hok)

end Sys2Proof.Machine
end

section
/-! The compares (42_ppe_integer section 4, R775 to R778). -/

namespace Sys2Proof.Machine

open Sys2Proof.Safety

/-- An instruction of the form that compares sets its field. -/
theorem completes_compare {i : Instr} {s : State} {f : Thread → Thread} {bf : BitVec 3} {x y : Int} {p : Int × Int}
    (he : Machine.exec i s = ppeNext s f) (hf : f s.thr = compareForm bf x y s.thr) (hp : (x, y) = p) :
    Completes i s { cr := crFieldMask bf } fun t =>
      let k := 4 * bf.toNat
      ibit t.thr.cr k = decide (p.1 < p.2) ∧ ibit t.thr.cr (k + 1) = decide (p.2 < p.1) ∧
      ibit t.thr.cr (k + 2) = decide (p.1 = p.2) ∧ ibit t.thr.cr (k + 3) = ibit s.thr.xer 32 := by
  subst hp
  refine completes_of_cr 0 he hf (Laws.setCr_out _ _ _) fun t ht => ?_
  obtain ⟨hlt, hgt, heq, hso⟩ := Laws.nibble_bits (decide (x < y)) (decide (y < x)) (decide (x = y)) s.thr.so
  have hbit (j : Nat) (hj : j < 4) : ibit t.thr.cr (4 * bf.toNat + j) = ibit (compareBits x y s.thr.so) j :=
    ht ▸ Laws.ibit_setIbm4 _ _ _ _ hj
  exact ⟨(hbit 0 (by decide)).trans hlt, (hbit 1 (by decide)).trans hgt, (hbit 2 (by decide)).trans heq, (hbit 3 (by decide)).trans hso⟩

/-- Settles O3: the numbers that each compare hands to the form are those of its rule. -/
theorem comparesSetTheirField : Obligations.ComparesSetTheirField := by
  intro i bf f h s
  cases h with
  | cmpi => exact completes_compare rfl rfl (by rw [toInt_lowWord, toInt_si64])
  | cmpli => exact completes_compare rfl rfl (by rw [toNat_lowWord, toNat_ui64]; rfl)
  | cmp _ l => exact completes_compare rfl rfl (by simp only [toInt_lowWord]; cases l <;> rfl)
  | cmpl _ l => exact completes_compare rfl rfl (by simp only [toNat_lowWord]; cases l <;> rfl)

end Sys2Proof.Machine
end

section
/-! The logical instructions and the rotations (42_ppe_integer sections 5 and 6): every bit of the result. -/

namespace Sys2Proof.Machine

open Sys2Proof.Safety

/-! ## The form -/

section
variable {i : Instr} {s : State} {f : Thread → Thread} {ra : BitVec 5} {r : DWord} {rec : Bool}

/-- What the logical form delivers. -/
def logicFx (ra : BitVec 5) (r : DWord) (rec : Bool) : ArithFx where
  dst := ra
  val := r
  cr0 := rec

theorem writes_logicFx (ra : BitVec 5) (r : DWord) (rec : Bool) :
    (logicFx ra r rec).writes = { gpr := [ra], cr := if rec then cr0Mask else 0 } :=
  congrArg (fun x => ({ gpr := [ra], xer := x, cr := if rec then cr0Mask else 0 } : Writes)) BitVec.or_zero

/-- An instruction of the logical form completes with its value. -/
theorem completes_logic {v : DWord} (he : Machine.exec i s = ppeNext s f) (hf : f s.thr = logicForm ra r rec s.thr) (hv : r = v) :
    Completes i s (logicFx ra v rec).writes (Delivers (logicFx ra v rec) s) :=
  Laws.completes_arith (logicFx ra v rec) f he (hv ▸ hf)

/-- An instruction of the logical form completes with the bits of its value. -/
theorem completes_logicBits {g : Nat → Bool} (he : Machine.exec i s = ppeNext s f) (hf : f s.thr = logicForm ra r rec s.thr)
    (hg : ∀ k, k < 64 → ibit r k = g k) :
    Completes i s { gpr := [ra], cr := if rec then cr0Mask else 0 } fun t =>
      (∀ k, k < 64 → ibit (t.thr.getGpr ra) k = g k) ∧ (rec = true → Recorded t.thr (t.thr.getGpr ra)) :=
  writes_logicFx ra r rec ▸ (completes_logic he hf rfl).imp fun t ht => by
    have hv : t.thr.getGpr ra = r := ht.val
    exact ⟨hv ▸ hg, hv ▸ ht.cr⟩

end

/-! ## Logical instructions -/

/-- An instruction that writes a GPR and may change the priority completes. -/
theorem completes_of_setPriority {i : Instr} {s : State} {f : Thread → Thread} {r : BitVec 5} {v : DWord} {p : PpeShared}
    {want : BitVec 2} {P : State → Prop} (he : Machine.exec i s = ppeNext s f)
    (hf : f s.thr = (s.thr.setGpr r v).setPriority p want) (hP : ∀ t : State, t.thr.getGpr r = v → P t) :
    Completes i s { gpr := [r], prio := true } P := by
  refine Laws.completes_of_ppeNext 0 f he (hf ▸ (keeps_setGpr r v s.thr).setPriority p want) ?_ ?_ fun t ht => hP t ?_
  · rw [hf, Thread.setPriority_msr, Thread.setGpr_msr]
  · rw [hf, Thread.setPriority_eq, Thread.setGpr_pc]
  · rw [ht, hf, Thread.setPriority_eq]
    exact Thread.getGpr_setGpr_same ..

/-- The forms of `or` that may change the priority do not record; the other ones are ordinary (R787, 62_platform R2009). -/
theorem completes_or (rs ra rb : BitVec 5) (rec : Bool) (s : State) :
    Completes (.ppeOr rs ra rb rec) s (logicalWrites (.ppeOr rs ra rb rec) ra rec) fun t =>
      (∀ k, k < 64 → ibit (t.thr.getGpr ra) k = (ibit (s.thr.getGpr rs) k || ibit (s.thr.getGpr rb) k)) ∧
      (rec = true → Recorded t.thr (t.thr.getGpr ra)) := by
  by_cases h : !rec ∧ rs = ra ∧ ra = rb ∧ ra ≠ 0 ∧ ra.toNat ≤ 3
  · obtain ⟨hrec, rfl, rfl, h0, h3⟩ := h
    cases rec with
    | true => exact Bool.noConfusion hrec
    | false =>
      have hlow : ∀ r : BitVec 5, r ≠ 0 → r.toNat ≤ 3 → r = 1 ∨ r = 2 ∨ r = 3 := by decide
      have hw : logicalWrites (.ppeOr rs rs rs false) rs false = { gpr := [rs], prio := true } :=
        congrArg (fun b => ({ gpr := [rs], prio := b } : Writes)) (decide_eq_true ⟨rfl, rfl, hlow rs h0 h3⟩)
      rw [hw]
      exact completes_of_setPriority rfl (if_pos ⟨rfl, rfl, rfl, h0, h3⟩) fun t ht => ⟨fun k _ => ht ▸ ibit_or _ _ k, nofun⟩
  · exact (completes_logicBits rfl (if_neg h) fun k _ => ibit_or _ _ k).allowPrio rfl (logicalWrites (.ppeOr rs ra rb rec) ra rec).prio

/-- Settles O4: every instruction is of the logical form (`completes_logicBits`), `or` but for its priority forms (`completes_or`); the
bits of its value follow from those of its operands. -/
theorem logicalResultsBitByBit : Obligations.LogicalResultsBitByBit := by
  intro i ra rec f h s
  cases h with
  | or rs _ rb => exact completes_or rs ra rb rec s
  | ori => exact completes_logicBits (rec := false) rfl rfl fun k hk => by rw [ibit_or, ibit_ui64 hk]
  | oris => exact completes_logicBits (rec := false) rfl rfl fun k hk => by rw [ibit_or, ibit_ui64_shifted hk]
  | xori => exact completes_logicBits (rec := false) rfl rfl fun k hk => by rw [ibit_xor, ibit_ui64 hk]
  | xoris => exact completes_logicBits (rec := false) rfl rfl fun k hk => by rw [ibit_xor, ibit_ui64_shifted hk]
  | andiDot => exact completes_logicBits rfl rfl fun k hk => by rw [ibit_and, ibit_ui64 hk]
  | andisDot => exact completes_logicBits rfl rfl fun k hk => by rw [ibit_and, ibit_ui64_shifted hk]
  | and => exact completes_logicBits rfl rfl fun k _ => ibit_and _ _ k
  | xor => exact completes_logicBits rfl rfl fun k _ => ibit_xor _ _ k
  | nand => exact completes_logicBits rfl rfl fun k hk => by rw [ibit_not _ hk, ibit_and]
  | nor => exact completes_logicBits rfl rfl fun k hk => by rw [ibit_not _ hk, ibit_or]
  | eqv =>
    refine completes_logicBits rfl rfl fun k hk => ?_
    rw [ibit_not _ hk, ibit_xor]
    exact Bool.not_not _
  | andc => exact completes_logicBits rfl rfl fun k hk => by rw [ibit_and, ibit_not _ hk]
  | orc => exact completes_logicBits rfl rfl fun k hk => by rw [ibit_or, ibit_not _ hk]
  | extsb | extsh | extsw => exact completes_logicBits rfl rfl fun k hk => ibit_signExtend_ibm hk _ rfl (by decide)

/-! ## Rotations -/

theorem ibit_and_mask64 {k : Nat} (hk : k < 64) (v : DWord) (mb me : Nat) :
    ibit (v &&& mask64 mb me) k = if inMask mb me k then ibit v k else false := by
  rw [ibit_and, ibit_mask64 hk]
  cases inMask mb me k
  · exact Bool.and_false _
  · exact Bool.and_true _

theorem ibit_insert_mask64 {k : Nat} (hk : k < 64) (v old : DWord) (mb me : Nat) :
    ibit (insertUnder (mask64 mb me) v old) k = if inMask mb me k then ibit v k else ibit old k := by
  rw [ibit_insertUnder hk, ibit_mask64 hk]

/-- Settles O5: every instruction is of the logical form; its value is a rotation, under a mask or inserted under it. -/
theorem rotationsUnderMask : Obligations.RotationsUnderMask := by
  intro i ra rec rot mask ins h s
  cases h with
  | rlwinm => exact completes_logicBits rfl rfl fun k hk => by rw [ibit_and_mask64 hk, ibit_rotl32 hk]; rfl
  | rlwnm =>
    exact completes_logicBits rfl rfl fun k hk => by rw [ibit_and_mask64 hk, ibit_rotl32 hk, toNat_ibm_low _ rfl]; rfl
  | rlwimi => exact completes_logicBits rfl rfl fun k hk => by rw [ibit_insert_mask64 hk, ibit_rotl32 hk]; rfl
  | rldicl | rldicr | rldic => exact completes_logicBits rfl rfl fun k hk => by rw [ibit_and_mask64 hk, ibit_rotateLeft hk]; rfl
  | rldimi => exact completes_logicBits rfl rfl fun k hk => by rw [ibit_insert_mask64 hk, ibit_rotateLeft hk]; rfl
  | rldcl | rldcr =>
    exact completes_logicBits rfl rfl fun k hk => by rw [ibit_and_mask64 hk, ibit_rotateLeft hk, toNat_ibm_low _ rfl]; rfl

end Sys2Proof.Machine
end

section
/-! The shifts and the counts of leading zeros (42_ppe_integer section 7, R797, R798, R812 to R819). -/

namespace Sys2Proof.Machine

open Sys2Proof.Safety

/-- An algebraic right shift delivers the quotient rounded down, and whether a negative number lost ones. -/
theorem completes_sra {i : Instr} {s : State} {f : Thread → Thread} {ra : BitVec 5} {w v : Int} {n m : Nat} {rec : Bool} {fx : ArithFx}
    (he : Machine.exec i s = ppeNext s f) (hf : f s.thr = sraForm ra w n rec s.thr) (hw : w = v) (hn : n = m)
    (hfx : fx = { dst := ra, cr0 := rec, val := BitVec.ofInt 64 (v / 2^m), ca := some (decide (v < 0) && decide (v % 2^m ≠ 0)) }) :
    Completes i s fx.writes (Delivers fx s) := by
  subst hw hn hfx
  have hlost : w / 2^n * 2^n ≠ w ↔ w % 2^n ≠ 0 := by
    have h := Int.ediv_mul_add_emod w (2^n)
    omega
  refine Laws.completes_arith _ f he (hf.trans ?_)
  rw [sraForm, decide_eq_decide.mpr hlost]
  rfl

/-- Settles O6: the logical shifts and the counts are of the logical form, the algebraic shifts of their own (`completes_sra`); the
operands and the shift counts are read as numbers. -/
theorem shiftsAndCarryOfShiftedOutOnes : Obligations.ShiftsAndCarryOfShiftedOutOnes := by
  intro i fx h s
  cases h with
  | slw =>
    refine completes_logic rfl rfl (BitVec.eq_of_toNat_eq ?_)
    rw [BitVec.toNat_setWidth, BitVec.toNat_shiftLeft, BitVec.toNat_ofNat, toNat_lowWord, toNat_ibm_low _ rfl, Nat.shiftLeft_eq]
    rfl
  | srw =>
    refine completes_logic rfl rfl (BitVec.eq_of_toNat_eq ?_)
    rw [BitVec.toNat_setWidth, BitVec.toNat_ushiftRight, BitVec.toNat_ofNat, toNat_lowWord, toNat_ibm_low _ rfl,
      Nat.shiftRight_eq_div_pow]
    rfl
  | sld =>
    refine completes_logic rfl rfl (BitVec.eq_of_toNat_eq ?_)
    rw [BitVec.toNat_shiftLeft, BitVec.toNat_ofNat, toNat_ibm_low _ rfl, Nat.shiftLeft_eq]
    rfl
  | srd =>
    refine completes_logic rfl rfl ?_
    rw [toNat_ibm_low _ rfl, ← Nat.shiftRight_eq_div_pow, ← BitVec.toNat_ushiftRight, BitVec.ofNat_toNat, BitVec.setWidth_eq]
    rfl
  | sraw => exact completes_sra rfl rfl (toInt_lowWord _) (toNat_ibm_low _ rfl) rfl
  | srawi => exact completes_sra rfl rfl (toInt_lowWord _) rfl rfl
  | srad => exact completes_sra rfl rfl rfl (toNat_ibm_low _ rfl) rfl
  | sradi => exact completes_sra rfl rfl rfl rfl rfl
  | cntlzw =>
    refine completes_logic rfl rfl ?_
    rw [clz_eq, toNat_lowWord, apply_ite (BitVec.ofNat 64)]
    rfl
  | cntlzd =>
    refine completes_logic rfl rfl ?_
    rw [clz_eq, apply_ite (BitVec.ofNat 64)]
    exact if_congr (BitVec.toNat_eq (y := 0)).symm rfl rfl

end Sys2Proof.Machine
end

section
/-! The FPSCR bit by bit (10_state R50), and the frame of a floating-point instruction that updates the thread and then looks for an
enabled exception (43_ppe_float R841, R843). -/

namespace Sys2Proof.Machine

open Sys2Proof.Safety

/-! ## Fields of a word -/

theorem ibit_zero_word (k : Nat) : ibit (0 : Word) k = false := ibit_zero k

/-- Bit `k` after a field is written. -/
theorem ibit_setIbm {n len : Nat} (w : BitVec n) {first k : Nat} (v : BitVec len) (hf : first + len ≤ n) (hk : k < n) :
    ibit (setIbm w first v) k = if first ≤ k ∧ k < first + len then ibit v (k - first) else ibit w k := by
  unfold ibit
  rw [getLsbD_setIbm]
  by_cases h : first ≤ k ∧ k < first + len
  · rw [if_pos h, if_pos (by omega)]
    congr 1
    omega
  · rw [if_neg h, if_neg (by omega)]

theorem ibm_setIbm {n len : Nat} (w : BitVec n) {first : Nat} (v : BitVec len) (hf : first + len ≤ n) :
    ibm (setIbm w first v) first len = v := by
  refine eq_of_ibit_eq fun k hk => ?_
  rw [ibit_ibm _ hk hf, ibit_setIbm _ _ hf (by omega), if_pos (by omega), Nat.add_sub_cancel_left]

/-- Whether a word has a bit under a mask, as a walk through the bits of the mask. -/
theorem and_ne_zero_iff {f m : Word} {l : List Nat} (hm : ∀ b < 32, ibit m b = decide (b ∈ l)) (hl : ∀ b ∈ l, b < 32) :
    f &&& m ≠ 0 ↔ l.any (ibit f) = true := by
  rw [List.any_eq_true]
  constructor
  · intro h
    by_contra hn
    push Not at hn
    refine h (eq_of_ibit_eq fun b hb => ?_)
    rw [ibit_and, hm b hb, ibit_zero_word]
    by_cases hbl : b ∈ l
    · rw [Bool.eq_false_iff.mpr (hn b hbl), Bool.false_and]
    · rw [decide_eq_false hbl, Bool.and_false]
  · rintro ⟨b, hbl, hb⟩ h
    have := congrArg (ibit · b) h
    simp only [ibit_and, hm b (hl b hbl), hbl, hb, decide_true, Bool.and_self, ibit_zero_word, Bool.true_eq_false] at this

/-- Words that agree on the bits outside a mask. -/
theorem and_not_eq {m v w : Word} (h : ∀ b < 32, ibit m b = false → ibit v b = ibit w b) : v &&& ~~~m = w &&& ~~~m := by
  refine eq_of_ibit_eq fun b hb => ?_
  rw [ibit_and, ibit_and, ibit_not _ hb]
  cases hm : ibit m b with
  | true => rw [Bool.not_true, Bool.and_false, Bool.and_false]
  | false => rw [h b hb hm]

/-! ## Masks of FPSCR -/

/-- The VX* bits. -/
def invalidBits : List Nat := [7, 8, 9, 10, 11, 12, 21, 22, 23]

theorem ibit_fpVxMask : ∀ b < 32, ibit fpVxMask b = decide (b ∈ invalidBits) := by decide

theorem ibit_fpExcMask : ∀ b < 32, ibit fpExcMask b = decide (b ∈ floatExceptions) := by decide

theorem ibit_floatStatus : ∀ b < 32, ibit floatStatus b = decide (b < 24) := by decide

theorem lt_of_mem_floatExceptions : ∀ b ∈ floatExceptions, b < 32 := by decide

/-! ## The summaries -/

section
variable (f : Word) {b : Nat} (hb : b < 32)
include hb

theorem ibit_fpSummary (h1 : b ≠ 1) (h2 : b ≠ 2) : ibit (fpSummary f) b = ibit f b := by
  unfold fpSummary
  rw [ibit_setIbit _ _ _ _ (by decide) hb, if_neg h1.symm, ibit_setIbit _ _ _ _ (by decide) hb, if_neg h2.symm]

theorem ibit_setFrFi (fr fi : Bool) : ibit (setFrFi f fr fi) b = if b = 14 then fi else if b = 13 then fr else ibit f b := by
  unfold setFrFi
  rw [ibit_setIbit _ _ _ _ (by decide) hb, ibit_setIbit _ _ _ _ (by decide) hb]
  simp only [eq_comm]

end

theorem ibit_fpSummary_vx (f : Word) : ibit (fpSummary f) 2 = decide (f &&& fpVxMask ≠ 0) := by
  unfold fpSummary
  rw [ibit_setIbit _ _ _ _ (by decide) (by decide), if_neg (by decide), ibit_setIbit _ _ _ _ (by decide) (by decide), if_pos rfl]

theorem ibit_fpSummary_fex (f : Word) : ibit (fpSummary f) 1 = ((decide (f &&& fpVxMask ≠ 0) && ibit f 24) || (ibit f 3 && ibit f 25) ||
    (ibit f 4 && ibit f 26) || (ibit f 5 && ibit f 27) || (ibit f 6 && ibit f 28)) := by
  unfold fpSummary
  rw [ibit_setIbit _ _ _ _ (by decide) (by decide), if_pos rfl]

/-- FEX and VX are recomputed. -/
theorem summary_fpSummary (f : Word) : Summary (fpSummary f) where
  vx := by
    rw [ibit_fpSummary_vx, Bool.eq_iff_iff, decide_eq_true_iff, and_ne_zero_iff ibit_fpVxMask (by decide)]
    simp only [invalidBits, List.any_cons, List.any_nil, ibit_fpSummary, Nat.reduceLT, ne_eq, Nat.reduceEqDiff, not_false_eq_true]
  fex := by
    simp only [List.any_cons, List.any_nil, ibit_fpSummary, ibit_fpSummary_fex, ibit_fpSummary_vx, Nat.reduceLT, ne_eq, Nat.reduceEqDiff,
      not_false_eq_true, Bool.or_false, Bool.or_assoc]

/-- The summaries do not look at FPRF and FPCC. -/
theorem summary_of_eq {f g : Word} (h : Summary f) (hg : ∀ b < 32, ¬(15 ≤ b ∧ b < 20) → ibit g b = ibit f b) : Summary g where
  vx := by
    have := h.vx
    simp only [List.any_cons, List.any_nil] at this ⊢
    simp only [hg, Nat.reduceLT, Nat.reduceLeDiff, and_false, false_and, not_false_eq_true, this]
  fex := by
    have := h.fex
    simp only [List.any_cons, List.any_nil] at this ⊢
    simp only [hg, Nat.reduceLT, Nat.reduceLeDiff, and_false, false_and, not_false_eq_true, this]

theorem summary_setFprf {f : Word} (h : Summary f) (c : BitVec 5) : Summary (setIbm f 15 c) :=
  summary_of_eq h fun b hb hn => by rw [ibit_setIbm _ _ (by decide) hb, if_neg hn]

/-! ## Raising exceptions -/

section
variable (f bits : Word)

theorem summary_fpRaise : Summary (fpRaise f bits) := summary_fpSummary _

theorem ibit_fpRaise {b : Nat} (hb : b < 32) (h : b ∉ [0, 1, 2]) : ibit (fpRaise f bits) b = (ibit f b || ibit bits b) := by
  simp only [List.mem_cons, List.not_mem_nil, or_false, not_or] at h
  have h0 : ∀ b < 32, b ≠ 0 → ibit (0x80000000 : Word) b = false := by decide
  rw [fpRaise, ibit_fpSummary _ hb h.2.1 h.2.2]
  split
  · exact ibit_or ..
  · rw [ibit_or, ibit_or, h0 b hb h.1, Bool.or_false]

/-- FX is set when one of the exception bits turns 1. -/
theorem ibit_fpRaise_fx (hbits : ∀ b < 32, ibit bits b = true → b ∈ floatExceptions) :
    ibit (fpRaise f bits) 0 = (ibit f 0 || floatExceptions.any fun k => ibit bits k && !ibit f k) := by
  have h0 : ibit bits 0 = false := Bool.eq_false_iff.mpr fun h => absurd (hbits 0 (by decide) h) (by decide)
  have hnew : bits &&& ~~~f = 0 ↔ (floatExceptions.any fun k => ibit bits k && !ibit f k) = false := by
    rw [List.any_eq_false]
    constructor
    · intro h k hk
      have := congrArg (ibit · k) h
      simp only [ibit_and, ibit_not _ (lt_of_mem_floatExceptions k hk), ibit_zero_word] at this
      exact Bool.eq_false_iff.mp this
    · intro h
      refine eq_of_ibit_eq fun b hb => ?_
      rw [ibit_and, ibit_not _ hb, ibit_zero_word]
      by_cases hk : ibit bits b = true
      · exact Bool.eq_false_iff.mpr (h b (hbits b hb hk))
      · rw [Bool.eq_false_iff.mpr hk, Bool.false_and]
  rw [fpRaise, ibit_fpSummary _ (by decide) (by decide) (by decide)]
  cases hn : floatExceptions.any fun k => ibit bits k && !ibit f k with
  | true =>
    rw [if_neg fun h => by rw [hnew.mp h] at hn; exact Bool.false_ne_true hn, ibit_or_right (by decide), Bool.or_true]
  | false => rw [if_pos (hnew.mpr hn), ibit_or, h0]

end

/-! ## CR1 -/

section
variable (th : Thread) (rec : Bool)

theorem Thread.recordCr1_eq : th.recordCr1 rec = { th with cr := if rec then setIbm th.cr 4 (ibm th.fpscr 0 4) else th.cr } := by
  cases rec <;> rfl

@[simp] theorem Thread.recordCr1_fpscr : (th.recordCr1 rec).fpscr = th.fpscr := by rw [Thread.recordCr1_eq]
@[simp] theorem Thread.recordCr1_pc : (th.recordCr1 rec).pc = th.pc := by rw [Thread.recordCr1_eq]
@[simp] theorem Thread.getFpr_recordCr1 (q : BitVec 5) : (th.recordCr1 rec).getFpr q = th.getFpr q := by rw [Thread.recordCr1_eq]; rfl

/-- A record copies the first field of FPSCR (R841). -/
theorem copiesCr1_recordCr1 (h : rec = true) : copiesCr1 (th.recordCr1 rec) := by
  subst h
  intro j hj
  rw [Thread.recordCr1_eq]
  refine (Laws.ibit_setIbm4 th.cr (ibm th.fpscr 0 4) 1 j hj).trans ?_
  rw [ibit_ibm _ hj (by decide), Nat.zero_add]

/-- Without a record CR1 stays. -/
theorem cr_setCr1_outside (cr : Word) (v : BitVec 4) :
    (if rec then setIbm cr 4 v else cr) &&& ~~~(if rec then cr1Mask else 0) = cr &&& ~~~(if rec then cr1Mask else 0) := by
  cases rec
  · rfl
  · exact Laws.setCr_out cr v 1

end

/-! ## The end of an instruction -/

/-- A thread that writes FPRs, bits of FPSCR and of CR only. -/
theorem keeps_float {l : List (BitVec 5)} {m mc f c : Word} {F : Vector DWord 32} {th : Thread}
    (hF : ∀ r, r ∉ l → ({ th with fpr := F } : Thread).getFpr r = th.getFpr r) (hf : f &&& ~~~m = th.fpscr &&& ~~~m)
    (hc : c &&& ~~~mc = th.cr &&& ~~~mc) :
    Keeps { fpr := l, fpscr := m, cr := mc } th { th with fpr := F, fpscr := f, cr := c } where
  gpr _ _ := rfl
  fpr := hF
  vr _ _ := rfl
  xer := rfl
  cr := hc
  fpscr := hf
  vscr := rfl
  lr _ := rfl
  ctr _ := rfl
  prio _ := rfl
  rest := rfl

theorem getFpr_setFpr_of_notMem {r q : BitVec 5} (th : Thread) (v : DWord) (h : q ∉ [r]) : (th.setFpr r v).getFpr q = th.getFpr q :=
  (th.getFpr_setFpr r q v).trans (if_neg fun he => h (List.mem_singleton.mpr he.symm))

/-- An instruction that draws `k` free values and ends as a floating-point instruction that updates the thread within `w`. -/
theorem floatEnds_of_fpEnd {i : Instr} {s : State} {w : Writes} {P : Thread → Prop} (k : Nat) {f : Thread → Thread}
    (he : Machine.exec i s = fpEnd (s.drew k) f) (hk : Keeps w s.thr (f s.thr)) (hpc : (f s.thr).pc = s.thr.pc) (hP : P (f s.thr)) :
    FloatEnds i s w P := by
  have hmsr : (f s.thr).msr = s.thr.msr := (congrArg Thread.msr hk.rest :)
  have honly : OnlyThread s ((s.drew k).modThr f) := (OnlyThread.drew s k).modThr f
  have hthr : ((s.drew k).modThr f).thr = f s.thr := State.thr_modThr (s.drew k) f
  have hexec : Machine.exec i s = .next (if ibit (f s.thr).fpscr 1 && (ibit s.thr.msr 52 || ibit s.thr.msr 55) then
      ((s.drew k).modThr f).interrupt ((s.drew k).modThr f).curT .program s.thr.pc 0x100000
      else ((s.drew k).modThr f).modThr Thread.advance) := by
    rw [he, fpEnd]
    simp only [hthr, Thread.fpExcMode, hmsr, State.fpEnabledInt, State.raise, hpc]
    split <;> rfl
  refine ⟨_, f s.thr, hexec, hk, hpc, hP, ?_⟩
  split
  · rw [← hthr]
    exact enters_program honly (hthr ▸ hmsr) _ _
  · refine ⟨honly.modThr _, ?_⟩
    rw [State.thr_modThr, hthr]
    have hfol : following (f s.thr) = following s.thr := by rw [following, following, hmsr, hpc]
    rw [← hfol, ← Laws.following_advance]
    rfl

/-- A thread after an arithmetic instruction: FRT, unless the result is suppressed, FPSCR and, with a record, CR1. -/
def Thread.writeFloat (th : Thread) (frt : BitVec 5) (v : Option DWord) (f : Word) (rec : Bool) : Thread :=
  ({ v.elim th (th.setFpr frt) with fpscr := f } : Thread).recordCr1 rec

section
variable (th : Thread) (frt : BitVec 5) (v : Option DWord) (f : Word) (rec : Bool)

theorem Thread.writeFloat_fpscr : (th.writeFloat frt v f rec).fpscr = f := Thread.recordCr1_fpscr ..

theorem Thread.writeFloat_pc : (th.writeFloat frt v f rec).pc = th.pc := by
  cases v <;> exact Thread.recordCr1_pc ..

theorem Thread.getFpr_writeFloat (x : DWord) : (th.writeFloat frt (some x) f rec).getFpr frt = x := by
  rw [Thread.writeFloat, Thread.getFpr_recordCr1]
  exact Thread.getFpr_setFpr_same ..

variable {f}

theorem keeps_writeFloat (hf : ∀ b < 32, 24 ≤ b → ibit f b = ibit th.fpscr b) :
    Keeps (floatWrites frt rec) th (th.writeFloat frt v f rec) := by
  have hmask : f &&& ~~~floatStatus = th.fpscr &&& ~~~floatStatus := and_not_eq fun b hb h => by
    rw [ibit_floatStatus b hb, decide_eq_false_iff_not] at h
    exact hf b hb (by omega)
  rw [Thread.writeFloat, Thread.recordCr1_eq]
  cases v with
  | none => exact keeps_float (fun _ _ => rfl) hmask (cr_setCr1_outside rec ..)
  | some => exact keeps_float (fun _ hq => getFpr_setFpr_of_notMem th _ hq) hmask (cr_setCr1_outside rec ..)

end

/-- An arithmetic instruction ends with what it writes. -/
theorem floatEnds_of_writeFloat {i : Instr} {s : State} {P : Thread → Prop} (k : Nat) {f : Thread → Thread} {frt : BitVec 5}
    {v : Option DWord} {g : Word} {rec : Bool} (he : Machine.exec i s = fpEnd (s.drew k) f)
    (hf : f s.thr = s.thr.writeFloat frt v g rec) (hg : ∀ b < 32, 24 ≤ b → ibit g b = ibit s.thr.fpscr b)
    (hP : ∀ u : Thread, u.fpscr = g → (∀ x, v = some x → u.getFpr frt = x) → (rec = true → copiesCr1 u) → P u) :
    FloatEnds i s (floatWrites frt rec) P :=
  floatEnds_of_fpEnd k he (hf ▸ keeps_writeFloat _ _ _ _ hg) (hf ▸ Thread.writeFloat_pc ..) <| hf ▸
    hP _ (Thread.writeFloat_fpscr ..) (fun _ hx => hx ▸ Thread.getFpr_writeFloat ..) fun hr => copiesCr1_recordCr1 _ rec hr

theorem fpGuard_of_fp {s : State} {o : Out State} (h : ibit s.thr.msr 50 = true) : fpGuard s o = o := if_pos h

end Sys2Proof.Machine

namespace Sys2Proof.Safety

theorem FloatEnds.imp {i : Instr} {s : Machine.State} {w : Writes} {P Q : Machine.Thread → Prop} (h : FloatEnds i s w P)
    (hPQ : ∀ u, P u → Q u) : FloatEnds i s w Q := by
  obtain ⟨t, u, he, hk, hpc, hP, hend⟩ := h
  exact ⟨t, u, he, hk, hpc, hPQ u hP, hend⟩

end Sys2Proof.Safety
end

section
/-! Reading an image as `unpack` does, with its denormals, and comparing two of them (43_ppe_float R842, R888). -/

namespace Sys2Proof.Machine

open Sys2Proof.Safety

/-! ## Reading -/

/-- `x` is what the image of sign `n` and magnitude `mag` stands for. -/
def Num.Stands (f : Fmt) (n : Bool) (mag : Nat) : Num → Prop
  | .nan => f.infMag < mag
  | .inf k => k = n ∧ mag = f.infMag
  | .zero k => k = n ∧ mag = 0
  | .fin k m e => k = n ∧ mag < f.infMag ∧ m ≠ 0 ∧ f.qmin ≤ e ∧ f.units mag = m * 2^(e - f.qmin).toNat

theorem unpack_stands (f : Fmt) {w : Nat} (hw : w < 2 * f.signBit) (he : 2 ≤ 2^f.eb) :
    (unpack f w).Stands f (decide (f.signBit ≤ w)) (w % f.signBit) := by
  cases hd : isDenorm f w with
  | false =>
    have hdp : dpval f w = unpack f w := by rw [dpval, hd]; rfl
    cases hn : isNan f w with
    | true =>
      rw [← hdp, dpval_of_isNan f hn he]
      exact of_decide_eq_true (p := f.infMag < w % f.signBit) hn
    | false =>
      have hread := dpval_reads f hw hn he
      have hflush : f.flush (w % f.signBit) = w % f.signBit := by
        refine ite_eq_right_iff.mpr fun h => ?_
        rw [isDenorm, decide_eq_true h, Bool.true_and, decide_eq_false_iff_not, not_not] at hd
        exact hd.symm
      rw [hdp, hflush] at hread
      cases hx : unpack f w with rw [hx] at hread
      | nan => exact hread.elim
      | inf k => exact hread
      | zero k => exact hread
      | fin k m e =>
        obtain ⟨hk, hlt, hnorm⟩ := hread
        exact ⟨hk, hlt, ((Nat.two_pow_pos _).trans_le hnorm.le).ne', hnorm.grid, hnorm.units⟩
  | true =>
    obtain ⟨hdiv, hmod⟩ := mag_fields f w
    obtain ⟨hlt, h0⟩ : w % f.signBit < 2^f.fb ∧ w % f.signBit ≠ 0 := by simpa [isDenorm] using hd
    have hneg : (w / f.signBit % 2 == 1) = decide (f.signBit ≤ w) := by
      rw [Bool.eq_iff_iff, beq_iff_eq, decide_eq_true_iff]
      rcases lt_or_ge w f.signBit with h | h
      · simp [Nat.div_eq_of_lt h, h]
      · simp [show w / f.signBit = 1 from Nat.div_eq_of_lt_le (by omega) (by omega), h]
    have hinf : 2^f.fb ≤ f.infMag := Nat.le_mul_of_pos_left _ (by omega)
    unfold unpack
    simp only [hdiv, hmod, Nat.div_eq_of_lt hlt, Nat.mod_eq_of_lt hlt, if_neg (show (0 : Nat) ≠ 2^f.eb - 1 by omega), if_neg h0, if_true, hneg]
    exact ⟨rfl, hlt.trans_le hinf, h0, le_rfl, by rw [Fmt.units_of_lt hlt, sub_self]; exact (Nat.mul_one _).symm⟩

/-- The operand of a double. -/
theorem num_stands (w : DWord) : (num w).Stands f64 (ibit w 0) (w.toNat % 2^63) := by
  rw [ibit_zero_eq]
  exact unpack_stands f64 (show w.toNat < 2 * 2^63 by omega) (by decide)

section
variable {f : Fmt} {n : Bool} {mag : Nat} {x : Num}

theorem Num.Stands.pos {k : Bool} {m : Nat} {e : Int} (h : (Num.fin k m e).Stands f n mag) : 0 < mag := by
  obtain ⟨-, -, hm, -, hu⟩ := h
  refine Nat.pos_of_ne_zero fun h0 => ?_
  rw [h0, Fmt.units_of_lt (Nat.two_pow_pos _), eq_comm, Nat.mul_eq_zero] at hu
  exact hu.elim hm (Nat.two_pow_pos _).ne'

end

/-! ## The kinds of operands -/

section
variable {w : DWord}

theorem isNan_f64 (w : DWord) : isNan f64 w.toNat = decide (f64.infMag < w.toNat % 2^63) := rfl

theorem isInfinite_eq (w : DWord) : isInfinite w = decide (w.toNat % 2^63 = f64.infMag) := rfl

/-- What the predicates of the statements say of each kind of operand. -/
theorem kind_of_num (w : DWord) :
    match num w with
    | .nan => isNan f64 w.toNat = true ∧ isInfinite w = false ∧ isZero w = false
    | .inf n => ibit w 0 = n ∧ isNan f64 w.toNat = false ∧ isInfinite w = true ∧ isZero w = false
    | .zero n => ibit w 0 = n ∧ isNan f64 w.toNat = false ∧ isInfinite w = false ∧ isZero w = true
    | .fin n _ _ => ibit w 0 = n ∧ isNan f64 w.toNat = false ∧ isInfinite w = false ∧ isZero w = false := by
  have h := num_stands w
  have hpos := fun {k m e} (h : (Num.fin k m e).Stands f64 (ibit w 0) (w.toNat % 2^63)) => h.pos
  rw [isNan_f64, isInfinite_eq, isZero]
  have hinf : f64.infMag = 0x7FF0000000000000 := by decide
  cases hx : num w with rw [hx] at h
  | nan =>
    have h : f64.infMag < w.toNat % 2^63 := h
    simp only [decide_eq_true_iff, decide_eq_false_iff_not]
    omega
  | inf n =>
    obtain ⟨hn, hmag⟩ := h
    simp only [decide_eq_true_iff, decide_eq_false_iff_not]
    exact ⟨hn.symm, by omega⟩
  | zero n =>
    obtain ⟨hn, hmag⟩ := h
    simp only [decide_eq_true_iff, decide_eq_false_iff_not]
    exact ⟨hn.symm, by omega⟩
  | fin n m e =>
    have h0 := hpos h
    obtain ⟨hn, hlt, -⟩ := h
    simp only [decide_eq_false_iff_not]
    exact ⟨hn.symm, by omega⟩

theorem num_of_isNan (h : isNan f64 w.toNat = true) : num w = .nan := by
  have hk := kind_of_num w
  cases hx : num w with rw [hx] at hk
  | inf => exact absurd (h.symm.trans hk.2.1) (by decide)
  | zero => exact absurd (h.symm.trans hk.2.1) (by decide)
  | fin => exact absurd (h.symm.trans hk.2.1) (by decide)

end

/-! ## The order -/

section
variable {f : Fmt} {a b : Num} {n k : Bool} {x y : Nat}

theorem Num.Stands.rank_cases (h : a.Stands f n x) (ha : x ≤ f.infMag) :
    (a.rank = 0 ∧ x = 0) ∨ (a.rank = (if n then -1 else 1) ∧ 0 < x ∧ x < f.infMag) ∨ (a.rank = (if n then -2 else 2) ∧ x = f.infMag) := by
  cases a with
  | nan => exact absurd h ha.not_gt
  | zero => exact .inl ⟨rfl, h.2⟩
  | fin =>
    have hpos := h.pos
    obtain ⟨rfl, hx, -⟩ := h
    exact .inr (.inl ⟨rfl, hpos, hx⟩)
  | inf =>
    obtain ⟨rfl, hx⟩ := h
    exact .inr (.inr ⟨rfl, hx⟩)

variable (ha : a.Stands f n x) (hb : b.Stands f k y) (hx : x ≤ f.infMag) (hy : y ≤ f.infMag)
include ha hb hx hy

theorem Num.Stands.lt_of_rank (htop : 0 < f.infMag) (h : a.rank < b.rank) : signedNat n x < signedNat k y := by
  have hx := ha.rank_cases hx
  have hy := hb.rank_cases hy
  cases n <;> cases k <;> simp [signedNat] at * <;> omega

/-- The order of two operands that are not NaNs is that of their images with their signs. -/
theorem cmpNum_of_stands (htop : 0 < f.infMag) : cmpNum a b = compare (signedNat n x) (signedNat k y) := by
  rcases lt_trichotomy a.rank b.rank with h | h | h
  · rw [cmpNum_of_rank_ne h.ne, compare_lt_iff_lt.mpr h, compare_lt_iff_lt.mpr (ha.lt_of_rank hb hx hy htop h)]
  · have hra := ha.rank_cases hx
    have hrb := hb.rank_cases hy
    cases a <;> cases b
    case fin.fin i _ _ j _ _ =>
      obtain ⟨rfl, -, -, hga, hua⟩ := ha
      obtain ⟨rfl, -, -, hgb, hub⟩ := hb
      obtain rfl : i = j := by cases i <;> cases j <;> simp [Num.rank] at h ⊢
      rw [cmpNum_fin _ _ _ hga hgb, ← hua, ← hub]
      exact compare_signedNat f.units_strictMono (Fmt.units_of_lt (Nat.two_pow_pos _)) ..
    case inf.inf i j =>
      obtain ⟨rfl, rfl⟩ := ha
      obtain ⟨rfl, rfl⟩ := hb
      obtain rfl : i = j := by cases i <;> cases j <;> simp [Num.rank] at h ⊢
      simp [cmpNum]
    case zero.zero =>
      obtain ⟨rfl, rfl⟩ := ha
      obtain ⟨rfl, rfl⟩ := hb
      simp [cmpNum]
    case nan.nan | nan.inf | nan.zero | nan.fin => exact absurd ha hx.not_gt
    case inf.nan | zero.nan | fin.nan => exact absurd hb hy.not_gt
    all_goals exact absurd h (by simp only [Num.rank]; split_ifs <;> decide)
  · rw [cmpNum_of_rank_ne h.ne', compare_gt_iff_gt.mpr h, compare_gt_iff_gt.mpr (hb.lt_of_rank ha hy hx htop h)]

end

theorem imageKey_eq (w : DWord) : imageKey 64 w.toNat = signedNat (ibit w 0) (w.toNat % 2^63) := by
  have := w.isLt
  rw [ibit_zero_eq, imageKey, signedNat]
  simp only [Nat.add_one_sub_one, decide_eq_true_iff]
  split <;> omega

/-- The comparison of two doubles that are not NaNs is that of their keys. -/
theorem cmpNum_num {a b : DWord} (ha : isNan f64 a.toNat = false) (hb : isNan f64 b.toNat = false) :
    cmpNum (num a) (num b) = compare (imageKey 64 a.toNat) (imageKey 64 b.toNat) := by
  rw [imageKey_eq, imageKey_eq]
  exact cmpNum_of_stands (num_stands a) (num_stands b) (by simpa [isNan_f64] using ha) (by simpa [isNan_f64] using hb) (by decide)

end Sys2Proof.Machine
end

section
/-! The floating-point moves, the compares and the instructions that write FPSCR (43_ppe_float R850 to R853, R875, R888 to R897). -/

namespace Sys2Proof.Machine

open Sys2Proof.Safety

/-! ## Moves -/

theorem keeps_setFpr_recordCr1 (th : Thread) (frt : BitVec 5) (v : DWord) (rec : Bool) :
    Keeps { fpr := [frt], cr := if rec then cr1Mask else 0 } th ((th.setFpr frt v).recordCr1 rec) := by
  rw [Thread.recordCr1_eq]
  exact keeps_float (fun q hq => getFpr_setFpr_of_notMem th v hq) rfl (cr_setCr1_outside rec ..)

/-- An instruction that puts an image into FRT and leaves FPSCR alone. -/
theorem completes_setFpr {i : Instr} {s : State} {f : Thread → Thread} {frt : BitVec 5} {rec : Bool} {v : DWord} {P : DWord → Prop}
    (k : Nat) (he : Machine.exec i s = ppeNext (s.drew k) f) (hf : f s.thr = (s.thr.setFpr frt v).recordCr1 rec) (hP : P v) :
    Completes i s { fpr := [frt], cr := if rec then cr1Mask else 0 } fun t =>
      P (t.thr.getFpr frt) ∧ (rec = true → copiesCr1 t.thr) := by
  refine Laws.completes_of_ppeNext k f he (hf ▸ keeps_setFpr_recordCr1 ..) ?_ ?_ fun t ht => ⟨?_, fun hr => ?_⟩
  · rw [hf, Thread.recordCr1_msr, Thread.setFpr_msr]
  · rw [hf, Thread.recordCr1_pc, Thread.setFpr_pc]
  · rwa [ht, Thread.getFpr_advance, hf, Thread.getFpr_recordCr1, Thread.getFpr_setFpr_same]
  · rw [ht, hf]
    exact copiesCr1_recordCr1 _ rec hr

/-- `fsel` looks for an operand that is not a NaN, and zero or positive. -/
theorem execPpeFsel_eq (frt fra frb frc : BitVec 5) (rec : Bool) (s : State) : execPpeFsel frt fra frb frc rec s =
    fpMove s frt rec (if ¬isNan f64 (s.thr.getFpr fra).toNat ∧ 0 ≤ imageKey 64 (s.thr.getFpr fra).toNat then s.thr.getFpr frc
      else s.thr.getFpr frb) := by
  have hk := kind_of_num (s.thr.getFpr fra)
  have hst := num_stands (s.thr.getFpr fra)
  unfold execPpeFsel
  rw [imageKey_eq]
  apply congrArg (fpMove s frt rec)
  refine if_congr ?_ rfl rfl
  cases hx : num (s.thr.getFpr fra) with rw [hx] at hk hst
  | nan => simp [hk.1]
  | inf n =>
    obtain ⟨hn, hnan, -⟩ := hk
    rw [hst.2, hn, hnan]
    cases n <;> decide
  | zero n =>
    obtain ⟨-, hnan, -⟩ := hk
    rw [hst.2, signedNat_zero, hnan]
    simp
  | fin n m e =>
    have hpos := hst.pos
    obtain ⟨hn, hnan, -⟩ := hk
    rw [hn, hnan]
    cases n <;> simp [signedNat] <;> omega

theorem exec_of_floatMove {i : Instr} {frt : BitVec 5} {rec : Bool} {v : Thread → DWord} (h : FloatMove i frt rec v) {s : State}
    (hfp : ibit s.thr.msr 50 = true) :
    Machine.exec i s = ppeNext s fun th => (th.setFpr frt (v s.thr)).recordCr1 rec := by
  cases h with
  | fmr | fneg | fabs | fnabs => exact fpGuard_of_fp hfp
  | fsel _ fra frb frc => exact (execPpeFsel_eq frt fra frb frc rec s).trans (fpGuard_of_fp hfp)

/-! ## Masks of FPSCR fields -/

theorem ibit_allOnes_word : ∀ b < 32, ibit (0xFFFFFFFF : Word) b = true := by decide

/-- Nothing is outside the mask of all bits. -/
theorem and_not_allOnes_word (v w : Word) : v &&& ~~~0xFFFFFFFF = w &&& ~~~0xFFFFFFFF :=
  and_not_eq fun b hb h => absurd ((ibit_allOnes_word b hb).symm.trans h) (by decide)

section
variable {b : Nat} (hb : b < 32)
include hb

theorem ibit_fieldMask (bf : BitVec 3) : ibit (fieldMask bf) b = decide (b / 4 = bf.toNat) := by
  have h := bf.isLt
  have hF : ∀ j < 4, ibit (0xF#4) j = true := by decide
  rw [fieldMask, ibit_setIbm _ _ (by omega) hb]
  by_cases hd : b / 4 = bf.toNat
  · rw [if_pos (by omega), hF _ (by omega), decide_eq_true hd]
  · rw [if_neg (by omega), ibit_zero, decide_eq_false hd]

theorem ibit_oneBit (n : BitVec 5) : ibit (setIbit 0#32 n.toNat true) b = decide (b = n.toNat) := by
  rw [ibit_setIbit _ _ _ _ n.isLt hb, ibit_zero]
  by_cases h : b = n.toNat <;> simp [h, eq_comm]

/-- A merge takes the bits under its mask, but for FEX, VX and the reserved bit 20 (log 58). -/
theorem ibit_fpscrMerge (f v mask : Word) (h : b ∉ [1, 2, 20]) :
    ibit (fpscrMerge f v mask) b = if ibit mask b then ibit v b else ibit f b := by
  have hmask : ∀ b < 32, b ∉ [1, 2, 20] → ibit fpscrMask b = true ∧ ibit (0x60000000#32) b = false := by decide
  obtain ⟨h1, h2⟩ := hmask b hb h
  simp only [List.mem_cons, List.not_mem_nil, or_false, not_or] at h
  rw [fpscrMerge, ibit_fpSummary _ hb h.1 h.2.1]
  simp only [ibit_or, ibit_and, ibit_not _ hb, h1, h2]
  cases ibit mask b <;> simp

end

/-- A bit that `mtfsb1` selects is an exception bit. -/
theorem oneBit_and_fpExcMask (n : BitVec 5) : setIbit 0#32 n.toNat true &&& fpExcMask = 0 ↔ n.toNat ∉ floatExceptions := by
  rw [← not_iff_not, not_not, ← ne_eq, and_ne_zero_iff ibit_fpExcMask lt_of_mem_floatExceptions, List.any_eq_true]
  constructor
  · rintro ⟨k, hk, hkn⟩
    rw [ibit_oneBit (lt_of_mem_floatExceptions k hk), decide_eq_true_iff] at hkn
    exact hkn ▸ hk
  · exact fun hm => ⟨_, hm, (ibit_oneBit n.isLt n).trans (decide_eq_true rfl)⟩

/-! ## Writes of FPSCR -/

/-- Every write of FPSCR is a merge. -/
theorem exec_of_fpscrWrite {i : Instr} {rec : Bool} {f : Thread → Nat → Bool} (h : FpscrWrite i rec f) (s : State) :
    ∃ v mask, Machine.exec i s = fpWrite s rec (fun f => fpscrMerge f v mask) ∧
      ∀ b, b < 32 → f s.thr b = if ibit mask b then ibit v b else ibit s.thr.fpscr b := by
  cases h with
  | mtfsfi bf u =>
    refine ⟨setIbm 0#32 (4 * bf.toNat) u, fieldMask bf, rfl, fun b hb => ?_⟩
    have hbf := bf.isLt
    rw [ibit_fieldMask hb]
    dsimp only
    by_cases hd : b / 4 = bf.toNat
    · rw [decide_eq_true hd, if_pos rfl, if_pos hd, ibit_setIbm _ _ (by omega) hb, if_pos (by omega)]
      congr 1
      omega
    · rw [decide_eq_false hd, if_neg Bool.false_ne_true, if_neg hd]
  | mtfsf flm frb =>
    refine ⟨lowWord (s.thr.getFpr frb), crMask8 flm, rfl, fun b hb => ?_⟩
    rw [show ibit (crMask8 flm) b = ibit flm (b / 4) from ibit_crMask flm b hb, ibit_lowWord _ hb]
  | mtfsb0 bt =>
    refine ⟨0, setIbit 0#32 bt.toNat true, rfl, fun b hb => ?_⟩
    rw [ibit_oneBit hb, ibit_zero_word]
    simp only [decide_eq_true_iff]
  | mtfsb1 bt =>
    refine ⟨0xFFFFFFFF, if setIbit 0#32 bt.toNat true &&& fpExcMask = 0 then setIbit 0#32 bt.toNat true
      else setIbit 0#32 bt.toNat true ||| 0x80000000, rfl, fun b hb => ?_⟩
    have hfx : ∀ b < 32, ibit (0x80000000 : Word) b = decide (b = 0) := by decide
    rw [ibit_allOnes_word b hb]
    by_cases hm : bt.toNat ∈ floatExceptions
    · rw [if_neg fun h => (oneBit_and_fpExcMask bt).mp h hm, ibit_or, ibit_oneBit hb, hfx b hb]
      refine if_congr ?_ rfl rfl
      rw [Bool.or_eq_true, decide_eq_true_iff, decide_eq_true_iff]
      exact or_congr_right (and_iff_left hm)
    · rw [if_pos ((oneBit_and_fpExcMask bt).mpr hm), ibit_oneBit hb]
      refine if_congr ?_ rfl rfl
      rw [decide_eq_true_iff]
      exact or_iff_left fun h => hm h.2

theorem floatEnds_of_fpscrWrite {i : Instr} {rec : Bool} {f : Thread → Nat → Bool} (h : FpscrWrite i rec f) {s : State}
    (hfp : ibit s.thr.msr 50 = true) :
    FloatEnds i s { fpscr := 0xFFFFFFFF, cr := if rec then cr1Mask else 0 } fun u =>
      Summary u.fpscr ∧ (rec = true → copiesCr1 u) ∧ ∀ b, b < 32 → b ∉ [1, 2, 20] → ibit u.fpscr b = f s.thr b := by
  obtain ⟨v, mask, he, hf⟩ := exec_of_fpscrWrite h s
  refine floatEnds_of_fpEnd 0 (he.trans (fpGuard_of_fp hfp)) ?_ (by rw [Thread.recordCr1_pc]) ⟨?_, copiesCr1_recordCr1 _ rec, ?_⟩
  · rw [Thread.recordCr1_eq]
    exact keeps_float (fun _ _ => rfl) (and_not_allOnes_word ..) (cr_setCr1_outside rec ..)
  · rw [Thread.recordCr1_fpscr]
    exact summary_fpSummary _
  · intro b hb hn
    rw [Thread.recordCr1_fpscr, ibit_fpscrMerge hb _ _ _ hn, hf b hb]

theorem floatEnds_mcrfs (bf bfa : BitVec 3) {s : State} (hfp : ibit s.thr.msr 50 = true) :
    FloatEnds (.ppeMcrfs bf bfa) s { cr := crFieldMask bf, fpscr := 0xFFFFFFFF } fun u =>
      Summary u.fpscr ∧ (∀ j, j < 4 → ibit u.cr (4 * bf.toNat + j) = ibit s.thr.fpscr (4 * bfa.toNat + j)) ∧
      ∀ b, b < 32 → b ≠ 1 → b ≠ 2 → ibit u.fpscr b =
        (ibit s.thr.fpscr b && !decide (b / 4 = bfa.toNat ∧ b ∈ [0, 3, 4, 5, 6, 7, 8, 9, 10, 11, 12, 21, 22, 23])) := by
  have hbfa := bfa.isLt
  have hclear : ∀ b < 32, ibit (fpExcMask ||| 0x80000000) b =
      decide (b ∈ [0, 3, 4, 5, 6, 7, 8, 9, 10, 11, 12, 21, 22, 23]) := by decide
  refine floatEnds_of_fpEnd (s := s) 0 (fpGuard_of_fp hfp) ?_ rfl ⟨summary_fpSummary _, fun j hj => ?_, fun b hb h1 h2 => ?_⟩
  · exact keeps_float (fun _ _ => rfl) (and_not_allOnes_word ..) (Laws.setCr_out ..)
  · exact (Laws.ibit_setIbm4 _ _ bf j hj).trans (ibit_ibm _ hj (by omega))
  · refine (ibit_fpSummary _ hb h1 h2).trans ?_
    rw [ibit_and, ibit_not _ hb, ibit_and, ibit_fieldMask hb, hclear b hb, Bool.decide_and]

/-! ## Compares -/

/-- FL, FG, FE, FU of two doubles, by their keys. -/
theorem ibit_compareClass (a b : DWord) {j : Nat} (hj : j < 4) : ibit (compareClass f64 a.toNat b.toNat) j =
    [!(isNan f64 a.toNat || isNan f64 b.toNat) && decide (imageKey 64 a.toNat < imageKey 64 b.toNat),
      !(isNan f64 a.toNat || isNan f64 b.toNat) && decide (imageKey 64 b.toNat < imageKey 64 a.toNat),
      !(isNan f64 a.toNat || isNan f64 b.toNat) && decide (imageKey 64 a.toNat = imageKey 64 b.toNat),
      isNan f64 a.toNat || isNan f64 b.toNat].getD j false := by
  have hbits : ∀ j < 4, ibit (1#4) j = [false, false, false, true].getD j false ∧ ibit (2#4) j = [false, false, true, false].getD j false ∧
      ibit (4#4) j = [false, true, false, false].getD j false ∧ ibit (8#4) j = [true, false, false, false].getD j false := by decide
  obtain ⟨h1, h2, h4, h8⟩ := hbits j hj
  unfold compareClass
  cases hun : isNan f64 a.toNat || isNan f64 b.toNat with
  | true => exact h1
  | false =>
    rw [Bool.or_eq_false_iff] at hun
    have hcmp := cmpNum_num hun.1 hun.2
    simp only [num] at hcmp
    rw [if_neg Bool.false_ne_true, hcmp]
    generalize imageKey 64 a.toNat = x
    generalize imageKey 64 b.toNat = y
    rcases lt_trichotomy x y with h | h | h
    · rw [compare_lt_iff_lt.mpr h]
      simpa [h, h.ne, h.not_gt] using h8
    · rw [compare_eq_iff_eq.mpr h]
      simpa [h] using h2
    · rw [compare_gt_iff_gt.mpr h]
      simpa [h, h.ne', h.not_gt] using h4

/-- A compare that raises VXSNAN by `sn` and VXVC by `vc`. -/
theorem floatEnds_fpCompare {i : Instr} {s : State} {bf : BitVec 3} {a b : DWord} {exc : Word} {sn vc : Bool}
    (he : Machine.exec i s = fpCompare s bf a b exc) (hfp : ibit s.thr.msr 50 = true)
    (hexc : exc = (if sn then vxSnan else 0) ||| (if vc then vxVc else 0)) :
    FloatEnds i s { cr := crFieldMask bf, fpscr := floatStatus } fun u => Summary u.fpscr ∧
      (∀ j, j < 4 → ibit u.cr (4 * bf.toNat + j) = ibit (compareClass f64 a.toNat b.toNat) j ∧
        ibit u.fpscr (16 + j) = ibit (compareClass f64 a.toNat b.toNat) j) ∧
      ibit u.fpscr 7 = (ibit s.thr.fpscr 7 || sn) ∧ ibit u.fpscr 12 = (ibit s.thr.fpscr 12 || vc) ∧
      ∀ b ∈ [3, 4, 5, 6, 8, 9, 10, 11, 13, 14, 15, 21, 22, 23], ibit u.fpscr b = ibit s.thr.fpscr b := by
  have hbits : ∀ (sn vc : Bool), ∀ b < 32, ibit ((if sn then vxSnan else 0) ||| (if vc then vxVc else 0)) b =
      (decide (b = 7) && sn || decide (b = 12) && vc) := by decide
  have hset {k : Nat} (hk : k < 32) (v : BitVec 4) := ibit_setIbm s.thr.fpscr (first := 16) v (by decide) hk
  have hother {k : Nat} (hk : k < 32) (h3 : k ∉ [0, 1, 2]) (v : BitVec 4) (hn : ¬(16 ≤ k ∧ k < 20)) (h7 : k ≠ 7) (h12 : k ≠ 12) :
      ibit (fpRaise (setIbm s.thr.fpscr 16 v) exc) k = ibit s.thr.fpscr k := by
    rw [ibit_fpRaise _ _ hk h3, hset hk, if_neg hn, hexc, hbits _ _ k hk, decide_eq_false h7, decide_eq_false h12]
    simp
  refine floatEnds_of_fpEnd 0 (he.trans (fpGuard_of_fp hfp)) ?_ rfl ⟨summary_fpRaise .., fun j hj => ⟨?_, ?_⟩, ?_, ?_, ?_⟩
  · refine keeps_float (fun _ _ => rfl) (and_not_eq fun b hb h => ?_) (Laws.setCr_out ..)
    rw [ibit_floatStatus b hb, decide_eq_false_iff_not] at h
    refine hother hb ?_ _ (by omega) (by omega) (by omega)
    simp only [List.mem_cons, List.not_mem_nil, or_false]
    omega
  · exact Laws.ibit_setIbm4 _ _ bf j hj
  · refine (ibit_fpRaise _ _ (by omega) ?_).trans ?_
    · simp only [List.mem_cons, List.not_mem_nil, or_false]
      omega
    · rw [hset (by omega), if_pos (by omega), hexc, hbits _ _ _ (by omega), decide_eq_false (by omega), decide_eq_false (by omega),
        Nat.add_sub_cancel_left]
      simp
  · refine (ibit_fpRaise _ _ (by decide) (by decide)).trans ?_
    rw [hset (by decide), if_neg (by decide), hexc, hbits _ _ _ (by decide)]
    simp
  · refine (ibit_fpRaise _ _ (by decide) (by decide)).trans ?_
    rw [hset (by decide), if_neg (by decide), hexc, hbits _ _ _ (by decide)]
    simp
  · intro k hk
    have hall : ∀ k ∈ [3, 4, 5, 6, 8, 9, 10, 11, 13, 14, 15, 21, 22, 23],
        k < 32 ∧ k ∉ [0, 1, 2] ∧ ¬(16 ≤ k ∧ k < 20) ∧ k ≠ 7 ∧ k ≠ 12 := by decide
    obtain ⟨hk32, h3, hn, h7, h12⟩ := hall k hk
    exact hother hk32 h3 _ hn h7 h12

theorem isNan_of_isSnan {f : Fmt} {w : Nat} (h : isSnan f w = true) : isNan f w = true := (Bool.and_eq_true _ _ ▸ h).1

theorem snanBits_pair (a b : DWord) :
    snanBits [a, b] = if isSnan f64 a.toNat || isSnan f64 b.toNat then vxSnan else 0 := by
  simp [snanBits]

/-- Settles O27, one lemma for each family: the moves, `mffs`, `mcrfs`, the writes of FPSCR, the compares. -/
theorem floatMovesComparesAndStatus : Obligations.FloatMovesComparesAndStatus := by
  refine ⟨⟨fun i frt rec v h s hfp => ?_, fun frt rec s hfp => ?_, fun bf bfa s hfp => floatEnds_mcrfs bf bfa hfp,
    fun i rec f h s hfp => floatEnds_of_fpscrWrite h hfp⟩, fun ordered bf fra frb s hfp => ?_⟩
  · exact completes_setFpr (P := (· = v s.thr)) 0 (exec_of_floatMove h hfp) rfl rfl
  · refine completes_setFpr (P := fun x => x.setWidth 32 = s.thr.fpscr) 1 (fpGuard_of_fp hfp) rfl ?_
    exact BitVec.setWidth_append_eq_right
  · intro a b un sn rel
    have hsn : sn = true → un = true := fun h => by
      rcases Bool.or_eq_true _ _ ▸ h with h | h
      · exact Bool.or_eq_true_iff.mpr (.inl (isNan_of_isSnan h))
      · exact Bool.or_eq_true_iff.mpr (.inr (isNan_of_isSnan h))
    suffices hexec : ∃ exc, Machine.exec (if ordered then .ppeFcmpo bf fra frb else .ppeFcmpu bf fra frb) s =
        fpCompare s bf (s.thr.getFpr fra) (s.thr.getFpr frb) exc ∧
        exc = (if sn then vxSnan else 0) ||| (if ordered && un && !(sn && ibit s.thr.fpscr 24) then vxVc else 0) by
      obtain ⟨exc, he, hexc⟩ := hexec
      refine (floatEnds_fpCompare he hfp hexc).imp fun u ⟨hsum, hcr, h7, h12, hrest⟩ => ⟨hsum, fun j hj => ?_, h7, h12, hrest⟩
      obtain ⟨h1, h2⟩ := hcr j hj
      exact ⟨h1.trans (ibit_compareClass _ _ hj), h2.trans (ibit_compareClass _ _ hj)⟩
    have hbits := snanBits_pair (s.thr.getFpr fra) (s.thr.getFpr frb)
    change _ = if sn then vxSnan else 0 at hbits
    cases ordered with
    | false =>
      refine ⟨snanBits [s.thr.getFpr fra, s.thr.getFpr frb], rfl, ?_⟩
      rw [hbits]
      exact (BitVec.or_zero).symm
    | true =>
      refine ⟨_, rfl, ?_⟩
      rw [hbits]
      exact (by decide : ∀ sn un ve : Bool, (sn = true → un = true) →
        (if (if sn then vxSnan else 0) ≠ 0 then vxSnan ||| (if ve then 0 else vxVc) else if un then vxVc else 0) =
          (if sn then vxSnan else 0) ||| (if true && un && !(sn && ve) then vxVc else 0)) sn un (ibit s.thr.fpscr 24) hsn

end Sys2Proof.Machine
end

section
/-! The values of the operands, and the conversions to integer (43_ppe_float R881 to R884). -/

namespace Sys2Proof.Machine

open Sys2Proof.Safety

/-! ## Values of operands -/

theorem scaled_of_fin {w : DWord} {n : Bool} {m : Nat} {e : Int} (h : num w = .fin n m e) :
    m ≠ 0 ∧ -1074 ≤ e ∧ Safety.scaled w = signedNat n (m * 2^(e + 1074).toNat) := by
  have hst := num_stands w
  rw [h] at hst
  obtain ⟨rfl, -, hm, he, hu⟩ := hst
  have hq : f64.qmin = -1074 := rfl
  rw [hq] at he hu
  exact ⟨hm, he, by rw [scaled_eq_units, hu, sub_neg_eq_add]⟩

theorem scaled_of_zero {w : DWord} {n : Bool} (h : num w = .zero n) : Safety.scaled w = 0 := by
  have hst := num_stands w
  rw [h] at hst
  rw [scaled_eq_units, hst.2, Fmt.units_of_lt (Nat.two_pow_pos _), signedNat_zero]

/-- A finite operand is a zero or a number. -/
theorem num_of_finite {w : DWord} (h : finiteDouble w) : (∃ n, num w = .zero n) ∨ ∃ n m e, num w = .fin n m e := by
  have hst := num_stands w
  rw [finiteDouble_iff] at h
  cases hx : num w with rw [hx] at hst
  | nan => exact absurd h (Nat.lt_asymm hst)
  | inf n => exact absurd h hst.2.not_lt
  | zero n => exact .inl ⟨n, rfl⟩
  | fin n m e => exact .inr ⟨n, m, e, rfl⟩

theorem finite_of_fin {w : DWord} {n : Bool} {m : Nat} {e : Int} (h : num w = .fin n m e) : finiteDouble w := by
  have hst := num_stands w
  rw [h] at hst
  exact (finiteDouble_iff w).mpr hst.2.1

theorem num_infinite {w : DWord} (h : w.toNat % 2^63 = f64.infMag) : num w = .inf (ibit w 0) := by
  have hst := num_stands w
  rw [h] at hst
  cases hx : num w with rw [hx] at hst
  | nan => exact absurd hst (lt_irrefl _)
  | inf n => rw [hst.1]
  | zero n => exact absurd hst.2 (by decide)
  | fin n m e => exact absurd hst.2.1 (lt_irrefl _)

/-! ## The nearest integer -/

theorem natCast_two_pow (k : Nat) : ((2^k : Nat) : Int) = (2 : Int)^k := Nat.cast_pow 2 k

theorem signedNat_add_mul (n : Bool) (m0 k U : Nat) : signedNat n (m0 + k) * (U : Int) = signedNat n (m0 * U + k * U) := by
  rw [← Nat.add_mul, signedNat_mul]

/-- The four directions of FPSCR[RN]. -/
theorem rn_cases : ∀ rn : BitVec 2, rn = 0 ∨ rn = 1 ∨ rn = 2 ∨ rn = 3 := by decide

section
variable {rn : BitVec 2} {x i j : Int}

theorem integerNear_nearest : IntegerNear 0 x i ↔
    2 * (i * 2^1074 - x).natAbs ≤ 2^1074 ∧ (2 * (i * 2^1074 - x).natAbs = 2^1074 → i % 2 = 0) := Iff.rfl

theorem integerNear_zero : IntegerNear 1 x i ↔ i = x.tdiv (2^1074) := Iff.rfl

theorem integerNear_up : IntegerNear 2 x i ↔ x ≤ i * 2^1074 ∧ i * 2^1074 < x + 2^1074 := Iff.rfl

theorem integerNear_down : IntegerNear 3 x i ↔ i * 2^1074 ≤ x ∧ x < i * 2^1074 + 2^1074 := Iff.rfl

theorem integerNear_not_lt (hi : IntegerNear rn x i) (hj : IntegerNear rn x j) : ¬i < j := by
  intro h
  have hU := natCast_two_pow 1074
  rcases rn_cases rn with rfl | rfl | rfl | rfl
  · obtain ⟨hi, hi'⟩ := integerNear_nearest.mp hi
    obtain ⟨hj, hj'⟩ := integerNear_nearest.mp hj
    have hpos : 0 < 2^1074 := Nat.two_pow_pos _
    rw [← hU] at *
    generalize 2^1074 = U at *
    obtain ⟨d, rfl⟩ : ∃ d : Nat, j = i + 1 + d := ⟨(j - (i + 1)).toNat, by omega⟩
    have hexp : (i + 1 + d) * (U : Int) = i * U + U + d * U := by ring
    rw [hexp] at hj hj'
    rcases Nat.eq_zero_or_pos d with rfl | hd
    · simp only [Nat.cast_zero, zero_mul, add_zero] at *
      omega
    · have : (U : Int) ≤ d * U := le_mul_of_one_le_left (by omega) (by omega)
      omega
  · exact absurd ((integerNear_zero.mp hi).trans (integerNear_zero.mp hj).symm) h.ne
  all_goals
    obtain ⟨hi, hi'⟩ := hi
    obtain ⟨hj, hj'⟩ := hj
    rw [← hU] at *
    generalize 2^1074 = U at *
    have : (i + 1) * (U : Int) ≤ j * U := mul_le_mul_of_nonneg_right h (by omega)
    rw [add_mul] at this
    omega

/-- There is one integer next to a value. -/
theorem integerNear_unique (hi : IntegerNear rn x i) (hj : IntegerNear rn x j) : i = j :=
  le_antisymm (not_lt.mp (integerNear_not_lt hj hi)) (not_lt.mp (integerNear_not_lt hi hj))

end

/-- Rounding to an integer delivers the integer next to the value. -/
theorem integerNear_roundInt (rn : BitVec 2) (n : Bool) (m : Nat) {e : Int} (he : -1074 ≤ e) :
    IntegerNear rn (signedNat n (m * 2^(e + 1074).toNat)) (signedNat n (roundInt (rmodeOf rn) n m e).m) := by
  obtain ⟨m0, rem, hX, hrem, hr⟩ := roundAt_spec (rmodeOf rn) n m (e := e) (q := 0) (g := 1074) he (by decide)
  rw [show ((0 : Int) + 1074).toNat = 1074 from rfl] at hX hrem hr
  rw [roundInt, hr, hX]
  have hU := natCast_two_pow 1074
  dsimp only
  generalize hup : RMode.roundsUp _ _ _ _ _ = up
  rcases rn_cases rn with rfl | rfl | rfl | rfl
  · rw [integerNear_nearest, ← hU]
    generalize 2^1074 = U at *
    have hup : (decide (U < 2 * rem) || (decide (2 * rem = U) && decide (m0 % 2 = 1))) = up := hup
    rw [signedNat_add_mul]
    generalize m0 * U = P at *
    cases n <;> cases up <;> simp [signedNat] at * <;> omega
  · obtain rfl : false = up := hup
    rw [integerNear_zero, ← hU, tdiv_signedNat, mul_comm m0, Nat.mul_add_div (Nat.two_pow_pos _), Nat.div_eq_of_lt hrem]
    rfl
  · have hup : (decide (rem ≠ 0) && !n) = up := hup
    rw [integerNear_up, ← hU]
    generalize 2^1074 = U at *
    rw [signedNat_add_mul]
    generalize m0 * U = P at *
    cases n <;> cases up <;> simp [signedNat] at * <;> omega
  · have hup : (decide (rem ≠ 0) && n) = up := hup
    rw [integerNear_down, ← hU]
    generalize 2^1074 = U at *
    rw [signedNat_add_mul]
    generalize m0 * U = P at *
    cases n <;> cases up <;> simp [signedNat] at * <;> omega

/-! ## The conversions -/

theorem not_ofInt_min (n : Nat) : ~~~(BitVec.ofInt n (-2^(n - 1))) = BitVec.ofInt n (2^(n - 1) - 1) := by
  rw [BitVec.not_eq_neg_add, ← BitVec.ofInt_neg, neg_neg, sub_eq_add_neg, sub_eq_add_neg, BitVec.ofInt_add, BitVec.ofInt_neg]
  rfl

/-- What a conversion delivers for a number, from the integer next to it. -/
theorem toIntRes_of_fin {n : Nat} (rn : BitVec 2) {b : DWord} {k : Int} {neg : Bool} {m : Nat} {e : Int} (hx : num b = .fin neg m e)
    (hk : IntegerNear rn (Safety.scaled b) k) :
    (toIntRes n (rmodeOf rn) b).1 = BitVec.ofInt n (saturated n k) ∧
      (saturated n k ≠ k → ibit (toIntRes n (rmodeOf rn) b).2.1 23 = true) := by
  obtain ⟨-, he, hval⟩ := scaled_of_fin hx
  rw [hval] at hk
  have hround := integerNear_unique (integerNear_roundInt rn neg m he) hk
  have hcvi : ibit vxCvi 23 = true := by decide
  have hp : (0 : Int) < 2^(n - 1) := by positivity
  have hnot := not_ofInt_min n
  unfold toIntRes saturated
  simp only [hx, hround]
  generalize (2 : Int)^(n - 1) = p at *
  split
  · rw [min_eq_right (by omega), max_eq_left (by omega)]
    exact ⟨rfl, fun _ => hcvi⟩
  · split
    · rw [min_eq_left (by omega), max_eq_right (by omega)]
      exact ⟨hnot, fun _ => hcvi⟩
    · rw [min_eq_right (by omega), max_eq_right (by omega)]
      exact ⟨rfl, fun h => absurd rfl h⟩

/-- The integer next to zero is zero. -/
theorem integerNear_zero_value (rn : BitVec 2) : IntegerNear rn 0 0 := by
  have h := integerNear_roundInt rn false 0 (e := 0) (by decide)
  rw [Nat.zero_mul, signedNat_zero] at h
  rcases rn_cases rn with rfl | rfl | rfl | rfl <;> exact h

theorem saturated_zero (n : Nat) : saturated n 0 = 0 := by
  have hp : (0 : Int) < 2^(n - 1) := by positivity
  unfold saturated
  omega

/-- The integer that a conversion delivers, where it is defined, and VXCVI (R881 to R884). -/
structure Converts (n : Nat) (rn : BitVec 2) (b : DWord) (r : BitVec n) (exc : Word) : Prop where
  nan : isNan f64 b.toNat = true → r = BitVec.ofInt n (-2^(n - 1)) ∧ ibit exc 23 = true
  infinite : b.toNat % 2^63 = f64.infMag → r = BitVec.ofInt n (if ibit b 0 then -2^(n - 1) else 2^(n - 1) - 1)
  finite : finiteDouble b → ∀ k, IntegerNear rn (Safety.scaled b) k →
    r = BitVec.ofInt n (saturated n k) ∧ (saturated n k ≠ k → ibit exc 23 = true)

theorem converts_toIntRes (n : Nat) (rn : BitVec 2) (b : DWord) :
    Converts n rn b (toIntRes n (rmodeOf rn) b).1 (toIntRes n (rmodeOf rn) b).2.1 where
  nan h := by
    unfold toIntRes
    simp only [num_of_isNan h, true_and]
    split <;> decide
  infinite h := by
    unfold toIntRes
    simp only [num_infinite h]
    split
    · rfl
    · exact not_ofInt_min n
  finite h k hk := by
    rcases num_of_finite h with ⟨neg, hx⟩ | ⟨neg, m, e, hx⟩
    · rw [scaled_of_zero hx] at hk
      obtain rfl := integerNear_unique (integerNear_zero_value rn) hk
      rw [saturated_zero]
      unfold toIntRes
      simp only [hx]
      exact ⟨rfl, fun h => absurd rfl h⟩
    · exact toIntRes_of_fin rn hx hk

/-- A conversion raises no bits but VXSNAN, VXCVI and XX. -/
theorem toIntRes_exc (n : Nat) (mode : RMode) (b : DWord) {k : Nat} (hk : k < 32) (h : 24 ≤ k) :
    ibit (toIntRes n mode b).2.1 k = false := by
  have hbits : ∀ k < 32, 24 ≤ k → ibit (0 : Word) k = false ∧ ibit vxCvi k = false ∧ ibit (vxCvi ||| vxSnan) k = false ∧
      ibit (vxCvi ||| 0) k = false ∧ ibit (0x02000000 : Word) k = false := by decide
  obtain ⟨h0, h1, h2, h3, h4⟩ := hbits k hk h
  unfold toIntRes
  cases num b with
  | nan => dsimp only; split <;> assumption
  | inf => exact h1
  | zero => exact h0
  | fin =>
    dsimp only
    split
    · exact h1
    · split
      · exact h1
      · dsimp only
        split <;> assumption

/-- Each conversion makes a register image of the integer, whose low bits are the integer. -/
theorem exec_of_floatToInt {i : Instr} {frt frb : BitVec 5} {rec : Bool} {n : Nat} {toZero : Bool}
    (h : FloatToInt i frt frb rec n toZero) (s : State) : ∃ k, ∃ wide : BitVec n → DWord, Machine.exec i s =
      fpToInt (s.drew k) n (rmodeOf (if toZero then 1 else ibm s.thr.fpscr 30 2)) frt frb rec wide ∧ ∀ r, (wide r).setWidth n = r := by
  cases h with
  | fctid => exact ⟨0, id, rfl, BitVec.setWidth_eq⟩
  | fctidz => exact ⟨0, id, rfl, BitVec.setWidth_eq⟩
  | fctiw => exact ⟨1, fun r => s.free 32 0 ++ r, rfl, fun _ => BitVec.setWidth_append_eq_right⟩
  | fctiwz => exact ⟨1, fun r => s.free 32 0 ++ r, rfl, fun _ => BitVec.setWidth_append_eq_right⟩

theorem floatEnds_fpToInt {i : Instr} {s : State} {k n : Nat} {mode : RMode} {frt frb : BitVec 5} {rec : Bool} {wide : BitVec n → DWord}
    (he : Machine.exec i s = fpToInt (s.drew k) n mode frt frb rec wide) (hfp : ibit s.thr.msr 50 = true) :
    FloatEnds i s (floatWrites frt rec) fun u => Summary u.fpscr ∧ (rec = true → copiesCr1 u) ∧
      (ibit (toIntRes n mode (s.thr.getFpr frb)).2.1 23 = true → ibit u.fpscr 23 = true) ∧
      (ibit s.thr.fpscr 24 = false → u.getFpr frt = wide (toIntRes n mode (s.thr.getFpr frb)).1) := by
  have hexc := fun {b} => toIntRes_exc n mode (s.thr.getFpr frb) (k := b)
  have he' := he.trans (fpGuard_of_fp (s := s.drew k) hfp)
  rw [State.thr_drew] at he'
  generalize toIntRes n mode (s.thr.getFpr frb) = x at *
  have hfpscr {b : Nat} (hb : b < 32) (h20 : 20 ≤ b) (c : BitVec 5) :
      ibit (setIbm (fpRaise (setFrFi s.thr.fpscr x.2.2.1 x.2.2.2) x.2.1) 15 c) b = (ibit s.thr.fpscr b || ibit x.2.1 b) := by
    have h3 : b ∉ [0, 1, 2] := by simp only [List.mem_cons, List.not_mem_nil, or_false]; omega
    rw [ibit_setIbm _ _ (by decide) hb, if_neg (by omega), ibit_fpRaise _ _ hb h3, ibit_setFrFi _ hb, if_neg (by omega), if_neg (by omega)]
  refine floatEnds_of_writeFloat (k + 1) (frt := frt)
    (v := if x.2.1 &&& vxCvi ≠ 0 ∧ ibit s.thr.fpscr 24 then none else some (wide x.1))
    (g := setIbm (fpRaise (setFrFi s.thr.fpscr x.2.2.1 x.2.2.2) x.2.1) 15 ((s.drew k).free 5 0)) he' ?_ (fun b hb h => ?_) fun u hu hval hcr => ?_
  · dsimp only [Thread.writeFloat]
    split <;> rfl
  · rw [hfpscr hb (by omega), hexc hb h, Bool.or_false]
  · refine ⟨hu ▸ summary_setFprf (summary_fpRaise ..) _, hcr, fun h => ?_, fun h => hval _ (if_neg fun hs => ?_)⟩
    · rw [hu, hfpscr (by decide) (by decide), h, Bool.or_true]
    · rw [h] at hs
      exact Bool.false_ne_true hs.2

/-- Settles O26: the integer next to the value is unique, and the conversions saturate it (`converts_toIntRes`). -/
theorem floatToIntegerSaturates : Obligations.FloatToIntegerSaturates := by
  intro i frt frb rec n toZero h s hfp
  obtain ⟨k, wide, he, hwide⟩ := exec_of_floatToInt h s
  have hc := converts_toIntRes n (if toZero then 1 else ibm s.thr.fpscr 30 2) (s.thr.getFpr frb)
  refine (floatEnds_fpToInt he hfp).imp fun u ⟨hsum, hcr, h23, hval⟩ => ⟨hsum, hcr, fun hve => ?_⟩
  dsimp only
  rw [hval hve, hwide]
  refine ⟨fun hn => ⟨(hc.nan hn).1, h23 (hc.nan hn).2⟩, fun hb => ?_, fun hb => ?_, fun hf k hk => ?_⟩
  · rw [hc.infinite (by rw [hb]; rfl), hb]
    rfl
  · rw [hc.infinite (by rw [hb]; rfl), hb]
    rfl
  · obtain ⟨hr, hs⟩ := hc.finite hf k hk
    exact ⟨hr, fun h => h23 (hs h)⟩

end Sys2Proof.Machine
end

section
/-! Rounding a real number by a significand that stands for it: the exact one, or one with a sticky bit below the precision that the
rounding looks at (43_ppe_float R843, R861 to R864). -/

namespace Sys2Proof.Machine

open Sys2Proof.Safety

/-! ## Standing for a value -/

/-- m * 2^e stands for `y`: it is `y`, or it is long and odd, and `y` lies between the two even neighbours. -/
def StandsFor (m : Nat) (e : Int) (y : ℝ) : Prop :=
  (m : ℝ) * 2^e = y ∨ ∃ j : Nat, m = 2 * j + 1 ∧ 2^64 ≤ m ∧ (2 * j : ℝ) * 2^e < y ∧ y < (2 * j + 2 : ℝ) * 2^e

theorem two_zpow_pos (e : Int) : (0 : ℝ) < 2^e := zpow_pos two_pos e

theorem two_zpow_add (a b : Int) : (2 : ℝ)^(a + b) = 2^a * 2^b := zpow_add₀ two_ne_zero a b

theorem natCast_two_pow_toNat {e : Int} (h : 0 ≤ e) : ((2^e.toNat : Nat) : ℝ) = 2^e := by
  obtain ⟨k, rfl⟩ := Int.eq_ofNat_of_zero_le h
  push_cast
  rfl

section
variable {m : Nat} {e : Int} {y : ℝ} (h : StandsFor m e y)
include h

/-- It compares as `y` does with the multiples of a unit that is coarse enough. -/
theorem StandsFor.compare_mul {g : Int} (hg : 2^64 ≤ m → e + 1 ≤ g) (N : Nat) :
    ((N : ℝ) * 2^g < y ↔ (N : ℝ) * 2^g < m * 2^e) ∧ (y < N * 2^g ↔ (m : ℝ) * 2^e < N * 2^g) := by
  rcases h with rfl | ⟨j, rfl, hm, hlo, hhi⟩
  · exact ⟨Iff.rfl, Iff.rfl⟩
  have hw := two_zpow_pos e
  obtain ⟨i, hi⟩ : ∃ i : Nat, (N : ℝ) * 2^g = (2 * i : ℝ) * 2^e := by
    have h2g : (2 : ℝ)^g = 2 * 2^(g - e - 1) * 2^e := by
      rw [← zpow_one_add₀ two_ne_zero, ← two_zpow_add]
      congr 1
      ring
    refine ⟨N * 2^(g - e - 1).toNat, ?_⟩
    rw [Nat.cast_mul, natCast_two_pow_toNat (by have := hg hm; omega), h2g]
    ring
  rw [hi, Nat.cast_add, Nat.cast_mul, Nat.cast_one, Nat.cast_ofNat, mul_lt_mul_iff_left₀ hw, mul_lt_mul_iff_left₀ hw]
  rcases Nat.lt_or_ge j i with hij | hij
  · have hc : (j : ℝ) + 1 ≤ i := by exact_mod_cast hij
    have hle : (2 * j + 2 : ℝ) * 2^e ≤ 2 * i * 2^e := mul_le_mul_of_nonneg_right (by linarith) hw.le
    exact ⟨iff_of_false (by linarith) (by linarith), iff_of_true (by linarith) (by linarith)⟩
  · have hc : (i : ℝ) ≤ j := by exact_mod_cast hij
    have hle : (2 * i : ℝ) * 2^e ≤ 2 * j * 2^e := mul_le_mul_of_nonneg_right (by linarith) hw.le
    exact ⟨iff_of_true (by linarith) (by linarith), iff_of_false (by linarith) (by linarith)⟩

/-- It compares as `y` does with every power of two. -/
theorem StandsFor.lt_two_zpow (b : Int) : y < 2^b ↔ (m : ℝ) * 2^e < 2^b := by
  by_cases hb : 2^64 ≤ m → e + 1 ≤ b
  · have := (h.compare_mul hb 1).2
    rwa [Nat.cast_one, one_mul] at this
  push Not at hb
  obtain ⟨hm, hb⟩ := hb
  have hle : (2 : ℝ)^b ≤ 2^e := zpow_le_zpow_right₀ one_le_two (by omega)
  have hw := two_zpow_pos e
  rcases h with rfl | ⟨j, rfl, -, hlo, -⟩
  · exact Iff.rfl
  have hj : (1 : ℝ) ≤ 2 * j := by exact_mod_cast show 1 ≤ 2 * j by omega
  have h1 : (2 : ℝ)^e ≤ 2 * j * 2^e := le_mul_of_one_le_left hw.le hj
  push_cast
  exact iff_of_false (by linarith) (by linarith)

theorem StandsFor.pos (hm : m ≠ 0) : 0 < y := by
  have hw := two_zpow_pos e
  rcases h with rfl | ⟨j, -, -, hlo, -⟩
  · exact mul_pos (by exact_mod_cast Nat.pos_of_ne_zero hm) hw
  · exact lt_of_le_of_lt (by positivity) hlo

end

/-! ## The enclosing values -/

/-- The number that a magnitude image stands for. -/
noncomputable def Fmt.value (f : Fmt) (mag : Nat) : ℝ := f.units mag * 2^f.qmin

theorem Fmt.value_strictMono (f : Fmt) : StrictMono f.value := fun _ _ h =>
  mul_lt_mul_of_pos_right (Nat.cast_lt.mpr (f.units_strictMono h)) (two_zpow_pos _)

/-- Whether a direction increases the magnitude of a value `y` of sign `n` from `lo`, whose significand is odd or not, to the next
number `hi` (10_state R50). -/
def RMode.TakesUp (mode : RMode) (n : Bool) (odd : Prop) (lo hi y : ℝ) : Prop :=
  match mode with
  | .nearest => lo + hi < 2 * y ∨ (2 * y = lo + hi ∧ odd)
  | .zero => False
  | .up => y ≠ lo ∧ n = false
  | .down => y ≠ lo ∧ n = true

theorem RMode.TakesUp.ne {mode : RMode} {n : Bool} {odd : Prop} {lo hi y : ℝ} (h : mode.TakesUp n odd lo hi y) (hlt : lo < hi) : y ≠ lo := by
  rintro rfl
  cases mode with
  | nearest => rcases h with h | ⟨h, -⟩ <;> linarith
  | zero => exact h
  | up => exact h.1 rfl
  | down => exact h.1 rfl

/-- The rounding of `y` in a format: `mag` is at it or next below it, and `r` is that image or the next one. -/
structure Fmt.RoundsOff (f : Fmt) (mode : RMode) (n : Bool) (y : ℝ) (mag : Nat) (r : Rounded) : Prop where
  le : f.value mag ≤ y
  lt : y < f.value (mag + 1)
  up : r.up = true ↔ mode.TakesUp n (mag % 2 = 1) (f.value mag) (f.value (mag + 1)) y
  inexact : r.inexact = true ↔ y ≠ f.value mag
  pack : f.packMag r = mag + r.up.toNat
  grid : f.qmin ≤ r.q
  units : f.units (mag + r.up.toNat) = r.m * 2^(r.q - f.qmin).toNat

/-- The decision on a remainder that is counted in parts of the unit. -/
theorem RMode.roundsUp_iff (mode : RMode) (n : Bool) (odd : Nat) {rem V : Nat} {lo w : ℝ} (hw : 0 < w) :
    mode.roundsUp n (decide (odd % 2 = 1)) rem V = true ↔ mode.TakesUp n (odd % 2 = 1) lo (lo + V * w) (lo + rem * w) := by
  have hlt : ((V : ℝ) * w < 2 * (rem * w)) ↔ V < 2 * rem := by
    rw [← mul_assoc, mul_lt_mul_iff_left₀ hw]
    exact_mod_cast Iff.rfl
  have heq : (2 * (rem * w) = (V : ℝ) * w) ↔ 2 * rem = V := by
    rw [← mul_assoc, mul_left_inj' hw.ne']
    exact_mod_cast Iff.rfl
  have hne : lo + rem * w ≠ lo ↔ rem ≠ 0 := by
    rw [ne_eq, add_eq_left, mul_eq_zero, or_iff_left hw.ne', Nat.cast_eq_zero]
  cases mode with
  | nearest =>
    simp only [RMode.roundsUp, RMode.TakesUp, Bool.or_eq_true, Bool.and_eq_true, decide_eq_true_iff, ← hlt, ← heq]
    refine or_congr ?_ (and_congr_left' ?_) <;> constructor <;> intro <;> linarith
  | zero => simp [RMode.roundsUp, RMode.TakesUp]
  | up => simp only [RMode.roundsUp, RMode.TakesUp, hne, Bool.and_eq_true, decide_eq_true_iff, Bool.not_eq_true']
  | down => simp only [RMode.roundsUp, RMode.TakesUp, hne, Bool.and_eq_true, decide_eq_true_iff]

/-- The decision depends on how the value compares with the two numbers and with the middle between them. -/
theorem RMode.takesUp_congr (mode : RMode) (n : Bool) (odd : Prop) {lo hi y z : ℝ} (hlo : y ≠ lo ↔ z ≠ lo)
    (hmid : lo + hi < 2 * y ↔ lo + hi < 2 * z) (htie : 2 * y = lo + hi ↔ 2 * z = lo + hi) :
    mode.TakesUp n odd lo hi y ↔ mode.TakesUp n odd lo hi z := by
  cases mode with
  | nearest => exact or_congr hmid (and_congr_left' htie)
  | zero => exact Iff.rfl
  | up => exact and_congr_left' hlo
  | down => exact and_congr_left' hlo

/-- Rounding a significand to a format rounds the value that it stands for. -/
theorem exists_roundsOff (f : Fmt) (mode : RMode) (n : Bool) {m : Nat} {e : Int} {y : ℝ} (hm : m ≠ 0) (h0 : f.fb ≠ 0) (h62 : f.fb ≤ 62)
    (h : StandsFor m e y) : ∃ mag, f.RoundsOff mode n y mag (roundFmt f mode n m e) := by
  unfold roundFmt topExp
  set q := max (e + m.log2 - f.fb) f.qmin with hq
  clear_value q
  obtain ⟨t, ht⟩ : ∃ t : Nat, q = f.qmin + t := ⟨(q - f.qmin).toNat, by omega⟩
  obtain ⟨g, hge, hgq⟩ : ∃ g : Nat, -(g : Int) ≤ e ∧ -(g : Int) ≤ q := ⟨(-e).toNat + (-q).toNat, by omega, by omega⟩
  obtain ⟨m0, rem, hX, hrem, hr⟩ := roundAt_spec mode n m hge hgq
  rw [hr]
  -- the quotient has at most the width of the format, and all of it above the denormal grid
  have hlt : m0 < 2^(f.fb + 1) := quotient_lt (m := m) (k := (e + g).toNat) (u := (q + g).toNat) (by omega) (by omega)
  have hnorm : t = 0 ∨ 2^f.fb ≤ m0 := Classical.or_iff_not_imp_left.mpr fun ht0 =>
    le_quotient (k := (e + g).toNat) (u := (q + g).toNat) hm (by rw [Nat.succ_mul]; omega) (by omega)
  have hlo : f.units (t * 2^f.fb + m0) = m0 * 2^t := Fmt.units_pack hnorm hlt.le
  have hhi : f.units (t * 2^f.fb + m0 + 1) = (m0 + 1) * 2^t := by
    rw [Nat.add_assoc, Fmt.units_pack (hnorm.imp_right fun h => h.trans (Nat.le_succ _)) hlt]
  have hmod : (t * 2^f.fb + m0) % 2 = m0 % 2 := by
    obtain ⟨k, hk⟩ := Nat.exists_eq_succ_of_ne_zero h0
    rw [hk, pow_succ, ← Nat.mul_assoc]
    omega
  have hqt : (2 : ℝ)^q = 2^t * 2^f.qmin := by rw [ht, add_comm, two_zpow_add, zpow_natCast]
  have hvlo : f.value (t * 2^f.fb + m0) = m0 * 2^q := by
    rw [Fmt.value, hlo, hqt]
    push_cast
    ring
  have hvhi : f.value (t * 2^f.fb + m0 + 1) = m0 * 2^q + 2^q := by
    rw [Fmt.value, hhi, hqt]
    push_cast
    ring
  -- the significand is the quotient and the remainder
  have hw := two_zpow_pos (-(g : Int))
  have hV : (2 : ℝ)^q = (2^(q + g).toNat : Nat) * 2^(-(g : Int)) := by
    rw [natCast_two_pow_toNat (by omega), ← two_zpow_add]
    congr 1
    omega
  have hM : (m : ℝ) * 2^e = m0 * 2^q + rem * 2^(-(g : Int)) := by
    have hX' : ((m * 2^(e + g).toNat : Nat) : ℝ) = (m0 * 2^(q + g).toNat + rem : Nat) := congrArg Nat.cast hX
    rw [Nat.cast_add, Nat.cast_mul, Nat.cast_mul, natCast_two_pow_toNat (by omega), natCast_two_pow_toNat (by omega)] at hX'
    have := congrArg (· * (2 : ℝ)^(-(g : Int))) hX'
    rw [add_mul, mul_assoc, mul_assoc, ← two_zpow_add, ← two_zpow_add, add_neg_cancel_right, add_neg_cancel_right] at this
    exact this
  have hremlt : (rem : ℝ) * 2^(-(g : Int)) < 2^q := by
    rw [hV, mul_lt_mul_iff_left₀ hw]
    exact_mod_cast hrem
  have hrem0 : (0 : ℝ) ≤ rem * 2^(-(g : Int)) := by positivity
  -- the value that it stands for lies on the same side of the two numbers and of the middle
  have hcoarse : 2^64 ≤ m → e + 1 ≤ q - 1 := fun h64 => by
    have := (Nat.le_log2 hm).mpr h64
    omega
  have hq1 : (2 : ℝ)^q = 2 * 2^(q - 1) := by rw [← zpow_one_add₀ two_ne_zero]; congr 1; omega
  have hcmp (N : Nat) := h.compare_mul hcoarse N
  have clo := hcmp (2 * m0)
  have chi := hcmp (2 * m0 + 2)
  have cmid := hcmp (2 * m0 + 1)
  push_cast at clo chi cmid
  have hnelo : y ≠ (m0 : ℝ) * 2^q ↔ (m0 : ℝ) * 2^q + rem * 2^(-(g : Int)) ≠ (m0 : ℝ) * 2^q := by
    rw [← hM, ne_iff_lt_or_gt, ne_iff_lt_or_gt, hq1, mul_left_comm, ← mul_assoc, clo.1, clo.2]
  refine ⟨t * 2^f.fb + m0, ⟨?_, ?_, ?_, ?_, ?_, (show f.qmin ≤ q by omega), ?_⟩⟩
  · rw [hvlo]
    refine not_lt.mp fun hl => ?_
    rw [hq1, mul_left_comm, ← mul_assoc, clo.2, hM, hq1] at hl
    linarith
  · rw [hvhi]
    rw [show (m0 : ℝ) * 2^q + 2^q = (2 * m0 + 2) * 2^(q - 1) by rw [hq1]; ring, chi.2, hM, hq1]
    rw [hq1] at hremlt
    linarith
  · rw [hmod, hvlo, hvhi]
    have := RMode.roundsUp_iff mode n m0 (rem := rem) (V := 2^(q + g).toNat) (lo := m0 * 2^q) hw
    rw [← hV] at this
    rw [this]
    refine (RMode.takesUp_congr mode n _ hnelo ?_ ?_).symm
    · have hmid : (m0 : ℝ) * 2^q + (m0 * 2^q + 2^q) = 2 * ((2 * m0 + 1) * 2^(q - 1)) := by rw [hq1]; ring
      rw [hmid, mul_lt_mul_iff_right₀ two_pos, mul_lt_mul_iff_right₀ two_pos, cmid.1, hM]
    · have hmid : (m0 : ℝ) * 2^q + (m0 * 2^q + 2^q) = 2 * ((2 * m0 + 1) * 2^(q - 1)) := by rw [hq1]; ring
      rw [hmid, mul_right_inj' two_ne_zero, mul_right_inj' two_ne_zero, ← hM, ← not_iff_not, ← ne_eq, ← ne_eq, ne_iff_lt_or_gt,
        ne_iff_lt_or_gt, cmid.1, cmid.2]
  · rw [hvlo, hnelo, decide_eq_true_iff, ne_eq, ne_eq, add_eq_left, mul_eq_zero, or_iff_left hw.ne', Nat.cast_eq_zero]
  · rw [Fmt.packMag, show (q - f.qmin).toNat = t by omega, Nat.add_assoc]
  · rw [show (q - f.qmin).toNat = t by omega]
    cases RMode.roundsUp mode n (decide (m0 % 2 = 1)) rem (2^(q + g).toNat) with
    | false => exact hlo
    | true => exact hhi

end Sys2Proof.Machine
end

section
/-! What an arithmetic instruction writes into FPSCR (43_ppe_float R843): the exception bits, FX, FR, FI and FPRF of a result. -/

namespace Sys2Proof.Machine

open Sys2Proof.Safety

/-! ## Results -/

/-- A result raises exception bits only, and clears at most an XX that it does not raise. -/
structure FpRes.Ok (r : FpRes) : Prop where
  exc : ∀ b < 32, ibit r.exc b = true → b ∈ floatExceptions
  clear : ∀ b < 32, ibit r.clear b = true → b = 6 ∧ ibit r.exc 6 = false

/-- FPSCR after a result. -/
def FpRes.newFpscr (r : FpRes) (f : Word) : Word :=
  r.value.elim id (fun x g => setIbm g 15 x.2) (fpRaise (setFrFi (f &&& ~~~r.clear) r.fr r.fi) r.exc)

theorem FpRes.apply_recordCr1 (r : FpRes) (frt : BitVec 5) (th : Thread) (rec : Bool) :
    (r.apply frt th).recordCr1 rec = th.writeFloat frt (r.value.map Prod.fst) (r.newFpscr th.fpscr) rec := by
  unfold FpRes.apply FpRes.newFpscr
  cases r.value <;> rfl

section
variable (r : FpRes) (f : Word)

theorem FpRes.summary_newFpscr : Summary (r.newFpscr f) := by
  unfold FpRes.newFpscr
  cases r.value with
  | none => exact summary_fpRaise ..
  | some x => exact summary_setFprf (summary_fpRaise ..) _

/-- The bits beside FPRF. -/
theorem FpRes.ibit_newFpscr {b : Nat} (hb : b < 32) (hn : ¬(15 ≤ b ∧ b < 20)) :
    ibit (r.newFpscr f) b = ibit (fpRaise (setFrFi (f &&& ~~~r.clear) r.fr r.fi) r.exc) b := by
  unfold FpRes.newFpscr
  cases r.value with
  | none => rfl
  | some x => exact (ibit_setIbm _ _ (by decide) hb).trans (if_neg hn)

theorem FpRes.ibm_newFpscr {v : DWord} {c : BitVec 5} (h : r.value = some (v, c)) : ibm (r.newFpscr f) 15 5 = c := by
  unfold FpRes.newFpscr
  rw [h]
  exact ibm_setIbm _ _ (by decide)

variable {r}

/-- A bit that no result sets by itself. -/
theorem FpRes.ibit_newFpscr_raised {b : Nat} (hb : b < 32) (h : b ∉ [0, 1, 2, 13, 14, 15, 16, 17, 18, 19]) :
    ibit (r.newFpscr f) b = (ibit f b && !ibit r.clear b || ibit r.exc b) := by
  simp only [List.mem_cons, List.not_mem_nil, or_false, not_or] at h
  obtain ⟨h0, h1, h2, h13, h14, h15, h16, h17, h18, h19⟩ := h
  have h3 : b ∉ [0, 1, 2] := by simp only [List.mem_cons, List.not_mem_nil, or_false]; omega
  rw [r.ibit_newFpscr f hb (by omega), ibit_fpRaise _ _ hb h3, ibit_setFrFi _ hb, if_neg h14, if_neg h13, ibit_and, ibit_not _ hb]

variable (hr : r.Ok)
include hr

theorem FpRes.Ok.exc_eq_false {b : Nat} (hb : b < 32) (h : b ∉ floatExceptions) : ibit r.exc b = false :=
  Bool.eq_false_iff.mpr fun he => h (hr.exc b hb he)

theorem FpRes.Ok.clear_eq_false {b : Nat} (hb : b < 32) (h : b ≠ 6) : ibit r.clear b = false :=
  Bool.eq_false_iff.mpr fun he => h (hr.clear b hb he).1

theorem FpRes.Ok.fr_newFpscr : ibit (r.newFpscr f) 13 = r.fr := by
  rw [r.ibit_newFpscr f (by decide) (by decide), ibit_fpRaise _ _ (by decide) (by decide), ibit_setFrFi _ (by decide), if_neg (by decide),
    if_pos rfl, hr.exc_eq_false (by decide) (by decide), Bool.or_false]

theorem FpRes.Ok.fi_newFpscr : ibit (r.newFpscr f) 14 = r.fi := by
  rw [r.ibit_newFpscr f (by decide) (by decide), ibit_fpRaise _ _ (by decide) (by decide), ibit_setFrFi _ (by decide), if_pos rfl,
    hr.exc_eq_false (by decide) (by decide), Bool.or_false]

/-- An exception bit but XX is sticky. -/
theorem FpRes.Ok.exc_newFpscr {b : Nat} (hb : b ∈ floatExceptions) (h6 : b ≠ 6) :
    ibit (r.newFpscr f) b = (ibit f b || ibit r.exc b) := by
  have hall : ∀ b ∈ floatExceptions, b < 32 ∧ b ∉ [0, 1, 2, 13, 14, 15, 16, 17, 18, 19] := by decide
  obtain ⟨hb, hn⟩ := hall b hb
  rw [FpRes.ibit_newFpscr_raised f hb hn, hr.clear_eq_false hb h6, Bool.not_false, Bool.and_true]

/-- The control bits stay. -/
theorem FpRes.Ok.control_newFpscr {b : Nat} (hb : b < 32) (h : 24 ≤ b) : ibit (r.newFpscr f) b = ibit f b := by
  have hall : ∀ b < 32, 24 ≤ b → b ∉ [0, 1, 2, 13, 14, 15, 16, 17, 18, 19] ∧ b ∉ floatExceptions ∧ b ≠ 6 := by decide
  obtain ⟨hn, he, h6⟩ := hall b hb h
  rw [FpRes.ibit_newFpscr_raised f hb hn, hr.clear_eq_false hb h6, hr.exc_eq_false hb he, Bool.not_false, Bool.and_true, Bool.or_false]

/-- FX is set when an exception bit turns 1 (R843). -/
theorem FpRes.Ok.fx_newFpscr :
    ibit (r.newFpscr f) 0 = (ibit f 0 || floatExceptions.any fun k => ibit (r.newFpscr f) k && !ibit f k) := by
  have hall : ∀ b ∈ floatExceptions, b < 32 ∧ b ∉ [0, 1, 2, 13, 14, 15, 16, 17, 18, 19] ∧ b ≠ 13 ∧ b ≠ 14 := by decide
  rw [r.ibit_newFpscr f (by decide) (by decide), ibit_fpRaise_fx _ _ hr.exc, ibit_setFrFi _ (by decide), if_neg (by decide), if_neg (by decide),
    ibit_and, ibit_not _ (by decide), hr.clear_eq_false (by decide) (by decide), Bool.not_false, Bool.and_true]
  refine congrArg _ (Bool.eq_iff_iff.mpr ?_)
  rw [List.any_eq_true, List.any_eq_true]
  refine exists_congr fun b => and_congr_right fun hb => Bool.eq_iff_iff.mp ?_
  obtain ⟨hb32, hn, h13, h14⟩ := hall b hb
  rw [FpRes.ibit_newFpscr_raised f hb32 hn, ibit_setFrFi _ hb32, if_neg h14, if_neg h13, ibit_and, ibit_not _ hb32]
  have hc := hr.clear b hb32
  cases hcl : ibit r.clear b with
  | false => cases ibit f b <;> cases ibit r.exc b <;> rfl
  | true =>
    obtain ⟨rfl, h6⟩ := hc hcl
    rw [h6]
    cases ibit f 6 <;> rfl

end

/-- An arithmetic instruction with its result ends with FRT and FPSCR as the result says. -/
theorem floatEnds_of_result {i : Instr} {s : State} {P : Thread → Prop} (k : Nat) {f : Thread → Thread} {r : FpRes} {frt : BitVec 5}
    {rec : Bool} (he : Machine.exec i s = fpEnd (s.drew k) f) (hf : f s.thr = (r.apply frt s.thr).recordCr1 rec) (hr : r.Ok)
    (hP : ∀ u : Thread, u.fpscr = r.newFpscr s.thr.fpscr → (∀ v c, r.value = some (v, c) → u.getFpr frt = v) →
      (rec = true → copiesCr1 u) → P u) :
    FloatEnds i s (floatWrites frt rec) P :=
  floatEnds_of_writeFloat k he (hf.trans (r.apply_recordCr1 ..)) (fun _ hb h => hr.control_newFpscr _ hb h)
    fun u hu hv hc => hP u hu (fun v c h => hv v (by rw [h]; rfl)) hc

end Sys2Proof.Machine
end

section
/-! The arithmetic instructions (43_ppe_float R855 to R874, R880, R885): the exceptions of their operands, and the result for a NaN. -/

namespace Sys2Proof.Machine

open Sys2Proof.Safety

/-! ## The exception bits of a rounded result -/

/-- A word with OX, UX and XX only. -/
def RoundingBits (x : Word) : Prop := ∀ b < 32, ibit x b = true → b ∈ [3, 4, 6]

theorem roundingBits_zero : RoundingBits 0 := by unfold RoundingBits; decide
theorem roundingBits_xx : RoundingBits 0x02000000 := by unfold RoundingBits; decide
theorem roundingBits_ux : RoundingBits 0x08000000 := by unfold RoundingBits; decide
theorem roundingBits_ox : RoundingBits 0x10000000 := by unfold RoundingBits; decide
theorem roundingBits_ox_xx : RoundingBits 0x12000000 := by unfold RoundingBits; decide

theorem RoundingBits.or {x y : Word} (hx : RoundingBits x) (hy : RoundingBits y) : RoundingBits (x ||| y) := fun b hb h => by
  rw [ibit_or, Bool.or_eq_true] at h
  exact h.elim (hx b hb) (hy b hb)

theorem RoundingBits.ite (c : Bool) {x : Word} (hx : RoundingBits x) : RoundingBits (if c then x else 0) := by
  cases c
  · exact roundingBits_zero
  · exact hx

/-- A result that raises OX, UX and XX only. -/
structure FpRes.RoundingOnly (r : FpRes) : Prop where
  exc : RoundingBits r.exc
  clear : r.clear = 0

theorem deliverFin_roundingOnly (f : Fmt) (fpscr : Word) (flip : Bool) (ni : Option (Nat × Nat)) (n : Bool) (m : Nat) (e : Int) :
    (deliverFin f fpscr flip ni n m e).RoundingOnly := by
  unfold deliverFin
  dsimp only
  split
  · split
    · exact ⟨roundingBits_ox.or (roundingBits_xx.ite _), rfl⟩
    · exact ⟨roundingBits_ox_xx, rfl⟩
  · split
    · exact ⟨roundingBits_ux.or (roundingBits_xx.ite _), rfl⟩
    · exact ⟨(roundingBits_ux.ite _).or (roundingBits_xx.ite _), rfl⟩

theorem deliver_roundingOnly (f : Fmt) (fpscr : Word) (flip : Bool) (ni : Option (Nat × Nat)) (c : Calc) :
    (deliver f fpscr flip ni c).RoundingOnly := by
  cases c with
  | fin n m e => exact deliverFin_roundingOnly ..
  | invalid | inf | zero => exact ⟨roundingBits_zero, rfl⟩

/-! ## The template -/

/-- The bits of FPSCR that the operands of an instruction decide, but for VXSNAN. -/
def causeBits : List Nat := [5, 8, 9, 10, 11, 12, 21, 22, 23]

/-- What the statements say of the result of operands: the exceptions that they raise, and the NaN that they give. -/
structure FpRes.Meets (single : Bool) (ops : List DWord) (cause : Nat → Bool) (fpscr : Word) (r : FpRes) : Prop where
  ok : r.Ok
  snan : ibit r.exc 7 = ops.any fun o => isSnan f64 o.toNat
  cause : ∀ k ∈ causeBits, ibit r.exc k = cause k
  nan : ibit fpscr 24 = false → (∃ o ∈ ops, isNan f64 o.toNat = true) → r.value = some (nanResult single ops, classNan)

/-- The first NaN, quieted. -/
theorem nanResult_eq (single : Bool) {pre post : List DWord} {n : DWord} (hpre : ∀ o ∈ pre, isNan f64 o.toNat = false)
    (hn : isNan f64 n.toNat = true) : nanResult single (pre ++ n :: post) =
      (n ||| 0x0008000000000000#64) &&& (if single then 0xFFFFFFFFE0000000#64 else 0xFFFFFFFFFFFFFFFF#64) := by
  have hfind : (pre ++ n :: post).find? (fun w => isNan f64 w.toNat) = some n := by
    rw [List.find?_append, List.find?_eq_none.mpr fun o ho => by rw [hpre o ho]; exact Bool.false_ne_true, Option.none_or,
      List.find?_cons_of_pos (by exact hn)]
  unfold nanResult
  rw [hfind]
  cases single with
  | true => rfl
  | false => exact (BitVec.and_allOnes).symm

theorem ibit_snanBits (ops : List DWord) : ∀ b < 32, ibit (snanBits ops) b =
    (decide (b = 7) && ops.any fun o => isSnan f64 o.toNat) := by
  unfold snanBits
  cases ops.any fun o => isSnan f64 o.toNat <;> decide

theorem snanBits_of_noNan {ops : List DWord} (h : ops.any (fun w => isNan f64 w.toNat) = false) : snanBits ops = 0 := by
  rw [List.any_eq_false] at h
  have hs : (ops.any fun w => isSnan f64 w.toNat) = false := List.any_eq_false.mpr fun o ho hs => h o ho (isNan_of_isSnan hs)
  rw [snanBits, hs]
  rfl

section
variable {f : Fmt} {fpscr vx : Word} {flip : Bool} {ni : Option (Nat × Nat)} {ops : List DWord} {c : Calc}

/-- A result of operands that are not NaNs, and that make no operation invalid. -/
theorem fpResult_of_noNan (h : ops.any (fun w => isNan f64 w.toNat) = false) (hvx : vx = 0) :
    fpResult f fpscr flip ni ops vx c = deliver f fpscr flip ni c := by
  unfold fpResult
  rw [snanBits_of_noNan h, hvx, h]
  exact if_neg (by decide)

/-- The template (R843), if `vx` has just the VX* bits that `cause` names. -/
theorem fpResult_meets {cause : Nat → Bool} (hvx : ∀ b < 32, ibit vx b = (decide (b ∈ invalidBits) && cause b)) (h7 : cause 7 = false)
    (h5 : cause 5 = false) : (fpResult f fpscr flip ni ops vx c).Meets (f = f32) ops cause fpscr := by
  have hbits : ∀ b < 32, ibit (snanBits ops ||| vx) b =
      (decide (b = 7) && (ops.any fun o => isSnan f64 o.toNat) || decide (b ∈ invalidBits) && cause b) := fun b hb => by
    rw [ibit_or, ibit_snanBits _ b hb, hvx b hb]
  have hcause : ∀ k ∈ causeBits, ibit (snanBits ops ||| vx) k = cause k := fun k hk => by
    have hall : ∀ k ∈ causeBits, k < 32 ∧ k ≠ 7 ∧ (k ∈ invalidBits ∨ k = 5) := by decide
    obtain ⟨hk32, hk7, hk⟩ := hall k hk
    rw [hbits k hk32, decide_eq_false hk7, Bool.false_and, Bool.false_or]
    rcases hk with hk | rfl
    · rw [decide_eq_true hk, Bool.true_and]
    · rw [h5, Bool.and_false]
  have hsnan : ibit (snanBits ops ||| vx) 7 = ops.any fun o => isSnan f64 o.toNat := by
    rw [hbits 7 (by decide), h7]
    simp
  unfold fpResult
  dsimp only
  split
  · refine ⟨⟨fun b hb h => ?_, fun b _ h => ?_⟩, hsnan, hcause, fun hve _ => ?_⟩
    · have hsub : ∀ b ∈ invalidBits, b ∈ floatExceptions := by decide
      have h := (hbits b hb).symm.trans h
      rw [Bool.or_eq_true, Bool.and_eq_true, Bool.and_eq_true, decide_eq_true_iff, decide_eq_true_iff] at h
      rcases h with ⟨rfl, -⟩ | ⟨h, -⟩
      · decide
      · exact hsub b h
    · rw [show ibit (nanPath fpscr (decide (f = f32)) ops (snanBits ops ||| vx)).clear b = ibit (0 : Word) b from rfl, ibit_zero_word] at h
      exact absurd h (by decide)
    · exact if_neg fun h => by rw [hve] at h; exact Bool.false_ne_true h.2
  · next hno =>
    rw [not_or, not_not, Bool.not_eq_true] at hno
    obtain ⟨hzero, hnan⟩ := hno
    rw [hzero] at hcause hsnan
    obtain ⟨hexc, hclear⟩ := deliver_roundingOnly f fpscr flip ni c
    have hnone {b : Nat} (hb : b < 32) (h : b ∉ [3, 4, 6]) : ibit (deliver f fpscr flip ni c).exc b = false :=
      Bool.eq_false_iff.mpr fun he => h (hexc b hb he)
    have hsub : ∀ b ∈ [3, 4, 6], b ∈ floatExceptions := by decide
    have hall : ∀ k ∈ causeBits, k < 32 ∧ k ∉ [3, 4, 6] := by decide
    refine ⟨⟨fun b hb h => hsub b (hexc b hb h), fun b _ h => ?_⟩, ?_, fun k hk => ?_, fun _ ⟨o, ho, hn⟩ => ?_⟩
    · rw [hclear, ibit_zero_word] at h
      exact absurd h (by decide)
    · rw [hnone (by decide) (by decide), ← hsnan, ibit_zero_word]
    · rw [hnone (hall k hk).1 (hall k hk).2, ← hcause k hk, ibit_zero_word]
    · exact absurd hn (List.any_eq_false.mp hnan o ho)

end

/-- FR, FI and XX of any value change none of this. -/
theorem FpRes.Meets.drawn {single : Bool} {ops : List DWord} {cause : Nat → Bool} {fpscr : Word} {r : FpRes}
    (h : r.Meets single ops cause fpscr) (bits : BitVec 3) : (r.drawn bits).Meets single ops cause fpscr := by
  have hxx : ∀ b < 32, ibit (0x02000000 : Word) b = decide (b = 6) := by decide
  have hbit : ∀ b < 32, ibit (r.drawn bits).exc b = (ibit r.exc b && !decide (b = 6) || (decide (b = 6) && ibit bits 2)) := fun b hb => by
    rw [FpRes.drawn, ibit_or, ibit_and, ibit_not _ hb]
    change (_ && !ibit (0x02000000 : Word) b || _) = _
    rw [hxx b hb]
    cases ibit bits 2
    · exact congrArg _ ((ibit_zero_word b).trans (Bool.and_false _).symm)
    · exact congrArg _ ((hxx b hb).trans (Bool.and_true _).symm)
  have hother {b : Nat} (hb : b < 32) (h6 : b ≠ 6) : ibit (r.drawn bits).exc b = ibit r.exc b := by
    rw [hbit b hb, decide_eq_false h6]
    simp
  refine ⟨⟨fun b hb he => ?_, fun b hb hc => ?_⟩, (hother (by decide) (by decide)).trans h.snan, fun k hk => ?_, h.nan⟩
  · by_cases h6 : b = 6
    · exact h6 ▸ by decide
    · exact h.ok.exc b hb ((hother hb h6).symm.trans he)
  · rw [hbit 6 (by decide)]
    change ibit (if ibit bits 2 then (0 : Word) else 0x02000000) b = true at hc
    cases h2 : ibit bits 2 with rw [h2] at hc
    | true => exact absurd ((ibit_zero_word b).symm.trans hc) (by decide)
    | false => exact ⟨of_decide_eq_true ((hxx b hb).symm.trans hc), by simp⟩
  · have hall : ∀ k ∈ causeBits, k < 32 ∧ k ≠ 6 := by decide
    exact (hother (hall k hk).1 (hall k hk).2).trans (h.cause k hk)

/-! ## The operations -/

/-- One VX* bit, raised by one cause. -/
theorem ibit_ite_cause {x : Word} {j : Nat} (hx : ∀ b < 32, ibit x b = decide (b = j)) (hj : j ∈ invalidBits) (c : Bool) {b : Nat}
    (hb : b < 32) : ibit (if c then x else 0) b = (decide (b ∈ invalidBits) && (b == j && c)) := by
  cases c with
  | false => rw [Bool.and_false, Bool.and_false]; exact ibit_zero_word b
  | true =>
    rw [if_pos rfl, hx b hb, Bool.and_true]
    by_cases h : b = j
    · simp [h, hj]
    · simp [h]

theorem ibit_vxIsi : ∀ b < 32, ibit vxIsi b = decide (b = 8) := by decide
theorem ibit_vxIdi : ∀ b < 32, ibit vxIdi b = decide (b = 9) := by decide
theorem ibit_vxZdz : ∀ b < 32, ibit vxZdz b = decide (b = 10) := by decide
theorem ibit_vxImz : ∀ b < 32, ibit vxImz b = decide (b = 11) := by decide
theorem ibit_vxSqrt : ∀ b < 32, ibit vxSqrt b = decide (b = 22) := by decide

section
variable (f : Fmt) (fpscr : Word) (a b c : DWord) (sub flip : Bool)

theorem num_eq_inf_iff {w : DWord} {p : Bool} : num w = .inf p ↔ isInfinite w = true ∧ ibit w 0 = p := by
  have hk := kind_of_num w
  cases hx : num w with rw [hx] at hk
  | _ => simp [hk]

theorem addend_eq_inf_iff {q : Bool} :
    (if sub then (num b).neg else num b) = .inf q ↔ isInfinite b = true ∧ (ibit b 0 != sub) = q := by
  have hneg : (num b).neg = .inf q ↔ num b = .inf !q := by cases num b <;> simp [Num.neg, Bool.not_eq_eq_eq_not]
  cases sub with
  | false => rw [if_neg Bool.false_ne_true, num_eq_inf_iff, Bool.bne_false]
  | true => rw [if_pos rfl, hneg, num_eq_inf_iff, Bool.bne_true, Bool.not_eq_eq_eq_not]

/-- The kinds of factors whose product is infinite. -/
theorem mulNum_eq_inf_iff {p : Bool} : mulNum (num a) (num c) = .inf p ↔
    ((isInfinite a || isInfinite c) && !isZero a && !isZero c && !isNan f64 a.toNat && !isNan f64 c.toNat) = true ∧
      (ibit a 0 != ibit c 0) = p := by
  have hka := kind_of_num a
  have hkc := kind_of_num c
  cases hx : num a with rw [hx] at hka
  | _ =>
    cases hz : num c with rw [hz] at hkc
    | _ => simp [hka, hkc, mulNum]

theorem addRes_meets : (addRes f sub a b fpscr).Meets (f = f32) [a, b] (sumCause sub [a, b]) fpscr := by
  refine fpResult_meets (fun k hk => ?_) (by simp [sumCause]) (by simp [sumCause])
  have hbit := ibit_ite_cause ibit_vxIsi (by decide) (isInfinite a && isInfinite b && (ibit a 0 != (ibit b 0 != sub))) hk
  have hinf {p} := num_eq_inf_iff (w := a) (p := p)
  have hinf' {q} := addend_eq_inf_iff b sub (q := q)
  simp only [sumCause, Bool.and_assoc] at hbit ⊢
  rw [← hbit]
  generalize num a = x at *
  generalize (if sub = true then (num b).neg else num b) = y at *
  congr 1
  split
  · rw [(hinf.mp rfl).1, (hinf.mp rfl).2, (hinf'.mp rfl).1, (hinf'.mp rfl).2]
    simp
  · next hno =>
    refine (if_neg fun h => ?_).symm
    rw [Bool.and_eq_true, Bool.and_eq_true] at h
    exact hno _ _ (hinf.mpr ⟨h.1, rfl⟩) (hinf'.mpr ⟨h.2.1, rfl⟩)

theorem vxMul_eq : vxMul (num a) (num c) = if isInfinite a && isZero c || isZero a && isInfinite c then vxImz else 0 := by
  have hka := kind_of_num a
  have hkc := kind_of_num c
  unfold vxMul
  cases hx : num a with rw [hx] at hka
  | _ =>
    cases hy : num c with rw [hy] at hkc
    | _ => simp [hka, hkc]

theorem mulRes_meets : (mulRes f a c fpscr).Meets (f = f32) [a, c] (productCause [a, c]) fpscr := by
  refine fpResult_meets (fun k hk => ?_) (by simp [productCause]) (by simp [productCause])
  rw [vxMul_eq, ibit_ite_cause ibit_vxImz (by decide) _ hk]
  rfl

theorem fmaRes_meets : (fmaRes f sub flip a b c fpscr).Meets (f = f32) [a, b, c] (fusedCause sub [a, b, c]) fpscr := by
  refine fpResult_meets (fun k hk => ?_) (by simp [fusedCause, productCause]) (by simp [fusedCause, productCause])
  have hbit := ibit_ite_cause ibit_vxIsi (by decide) (isInfinite b && (isInfinite a || isInfinite c) && !isZero a && !isZero c &&
    !isNan f64 a.toNat && !isNan f64 c.toNat && ((ibit a 0 != ibit c 0) != (ibit b 0 != sub))) hk
  have hmul := ibit_ite_cause ibit_vxImz (by decide) (isInfinite a && isZero c || isZero a && isInfinite c) hk
  have hinf {p} := mulNum_eq_inf_iff a c (p := p)
  have hinf' {q} := addend_eq_inf_iff b sub (q := q)
  rw [← vxMul_eq] at hmul
  simp only [fusedCause, productCause, Bool.and_assoc] at hbit hmul hinf ⊢
  rw [ibit_or, Bool.and_or_distrib_left, ← hbit, ← hmul]
  generalize mulNum (num a) (num c) = x at *
  generalize (if sub = true then (num b).neg else num b) = y at *
  congr 2
  split
  · have hfac := (hinf.mp rfl).1
    simp only [Bool.and_eq_true] at hfac
    obtain ⟨h1, h2, h3, h4, h5⟩ := hfac
    rw [h1, h2, h3, h4, h5, (hinf.mp rfl).2, (hinf'.mp rfl).1, (hinf'.mp rfl).2]
    simp
  · next hno =>
    refine (if_neg fun h => ?_).symm
    simp only [Bool.and_eq_true] at h
    obtain ⟨hb, h1, h2, h3, h4, h5, -⟩ := h
    exact hno _ _ (hinf.mpr ⟨by simp only [h1, h2, h3, h4, h5, Bool.and_self], rfl⟩) (hinf'.mpr ⟨hb, rfl⟩)

theorem meets_of_noNan {ops : List DWord} {cause : Nat → Bool} {single : Bool} {r : FpRes}
    (hnan : ops.any (fun o => isNan f64 o.toNat) = false) (hexc : ∀ b < 32, ibit r.exc b = (decide (b ∈ causeBits) && cause b))
    (hclear : r.clear = 0) : r.Meets single ops cause fpscr := by
  have hsub : ∀ b ∈ causeBits, b ∈ floatExceptions ∧ b < 32 := by decide
  refine ⟨⟨fun b hb h => ?_, fun b _ h => ?_⟩, ?_, fun k hk => ?_, fun _ ⟨o, ho, hn⟩ => absurd hn (List.any_eq_false.mp hnan o ho)⟩
  · rw [hexc b hb, Bool.and_eq_true, decide_eq_true_iff] at h
    exact (hsub b h.1).1
  · rw [hclear, ibit_zero_word] at h
    exact absurd h (by decide)
  · rw [hexc 7 (by decide)]
    exact (List.any_eq_false.mpr fun o ho hs => List.any_eq_false.mp hnan o ho (isNan_of_isSnan hs)).symm
  · rw [hexc k (hsub k hk).2, decide_eq_true hk, Bool.true_and]

/-- A divide of a number that is not zero by zero raises ZX only. -/
theorem ibit_zeroDivide : ∀ b < 32, ibit (0x04000000 : Word) b = decide (b = 5) := by decide

/-- The VX* bits of a divide. -/
theorem ibit_quotientCause {k : Nat} (hk : k < 32) : (decide (k ∈ invalidBits) && quotientCause [a, b] k) =
    ibit (if isInfinite a && isInfinite b then vxIdi else if isZero a && isZero b then vxZdz else 0) k := by
  have hidi := ibit_ite_cause ibit_vxIdi (by decide) (isInfinite a && isInfinite b) hk
  have hzdz := ibit_ite_cause ibit_vxZdz (by decide) (isZero a && isZero b) hk
  have h5 : (decide (k ∈ invalidBits) && (k == 5 && isZero b && !isZero a && !isInfinite a && !isNan f64 a.toNat)) = false := by
    by_cases h : k = 5
    · rw [decide_eq_false (h ▸ by decide), Bool.false_and]
    · simp [h]
  simp only [quotientCause, Bool.and_assoc] at h5 ⊢
  rw [Bool.and_or_distrib_left, Bool.and_or_distrib_left, h5, Bool.or_false, ← hidi, ← hzdz]
  have hex : isInfinite a = true → isZero a = false := fun h => by
    have hk := kind_of_num a
    rw [(num_eq_inf_iff (p := ibit a 0)).mpr ⟨h, rfl⟩] at hk
    exact hk.2.2.2
  cases hc : isInfinite a && isInfinite b with
  | false => rw [if_neg Bool.false_ne_true, if_neg Bool.false_ne_true, ibit_zero_word, Bool.false_or]
  | true =>
    rw [Bool.and_eq_true] at hc
    rw [hex hc.1, Bool.false_and, if_neg Bool.false_ne_true, ibit_zero_word, Bool.or_false]

theorem divRes_meets (ni : Option (Nat × Nat)) : (divRes f a b fpscr ni).Meets (f = f32) [a, b] (quotientCause [a, b]) fpscr := by
  have hka := kind_of_num a
  have hkb := kind_of_num b
  have hvx := fun {k} => ibit_quotientCause a b (k := k)
  unfold divRes
  cases hx : num a with rw [hx] at hka
  | nan | inf | zero =>
    refine fpResult_meets (fun k hk => ?_) (by simp [quotientCause]) (by simp [quotientCause, hka])
    rw [hvx hk]
    cases hy : num b with rw [hy] at hkb
    | _ => simp [hka, hkb]
  | fin p m e =>
    cases hy : num b with rw [hy] at hkb
    | zero q =>
      refine meets_of_noNan _ (by simp [hka, hkb]) (fun k hk => ?_) ?_
      · refine (ibit_zeroDivide k hk).trans ?_
        by_cases h : k = 5
        · subst h
          simp [quotientCause, hka, hkb, causeBits]
        · simp [quotientCause, hka, hkb, h]
      · change (fpResult f fpscr false ni [a, b] 0 (divNum (.fin p m e) (.zero q))).clear = 0
        rw [fpResult_of_noNan (by simp [hka, hkb]) rfl]
        exact (deliver_roundingOnly ..).clear
    | nan | inf | fin =>
      refine fpResult_meets (fun k hk => ?_) (by simp [quotientCause]) (by simp [quotientCause, hkb])
      rw [hvx hk]
      simp [hka, hkb]

theorem sqrtRes_meets (ni : Option (Nat × Nat)) : (sqrtRes f b fpscr ni).Meets (f = f32) [b] (rootCause [b]) fpscr := by
  have hkb := kind_of_num b
  refine fpResult_meets (fun k hk => ?_) (by simp [rootCause]) (by simp [rootCause])
  have hbit := ibit_ite_cause ibit_vxSqrt (by decide) (ibit b 0 && (!isZero b && !isNan f64 b.toNat)) hk
  simp only [rootCause, Bool.and_assoc]
  rw [← hbit]
  congr 1
  cases hy : num b with rw [hy] at hkb
  | _ => simp [hkb]

/-- The result of an estimate of an operand that is not zero. -/
theorem estimateRes_meets {cause : Nat → Bool} (hnan : isNan f64 b.toNat = false) (hc : ∀ k ∈ causeBits, cause k = false) (single : Bool)
    (v : DWord) (cls : BitVec 5) (bits : BitVec 3) : (estimateRes v cls bits).Meets single [b] cause fpscr := by
  refine FpRes.Meets.drawn (meets_of_noNan _ (by simp [hnan]) (fun k _ => ?_) rfl) bits
  refine (ibit_zero_word k).trans ?_
  by_cases h : k ∈ causeBits
  · rw [hc k h, Bool.and_false]
  · rw [decide_eq_false h, Bool.false_and]

theorem zeroDivideRes_meets {cause : Nat → Bool} {n : Bool} (hnan : isNan f64 b.toNat = false)
    (hc : ∀ k ∈ causeBits, cause k = decide (k = 5)) (single : Bool) : (zeroDivideRes fpscr n).Meets single [b] cause fpscr := by
  refine meets_of_noNan _ (by simp [hnan]) (fun k hk => (ibit_zeroDivide k hk).trans ?_) rfl
  by_cases h : k ∈ causeBits
  · rw [hc k h, decide_eq_true h, Bool.true_and]
  · rw [decide_eq_false h, Bool.false_and, decide_eq_false (by rintro rfl; exact h (by decide))]

/-- The template of an operation that no operand makes invalid. -/
theorem fpResult_meets_noCause (ni : Option (Nat × Nat)) (ops : List DWord) (r : Calc) :
    (fpResult f fpscr flip ni ops 0 r).Meets (f = f32) ops (noCause ops) fpscr :=
  fpResult_meets (fun k _ => by rw [ibit_zero_word]; exact (Bool.and_false _).symm) rfl rfl

theorem FpRes.Meets.congr {single : Bool} {ops : List DWord} {cause cause' : Nat → Bool} {r : FpRes}
    (h : r.Meets single ops cause fpscr) (hc : ∀ k ∈ causeBits, cause k = cause' k) : r.Meets single ops cause' fpscr :=
  ⟨h.ok, h.snan, fun k hk => (h.cause k hk).trans (hc k hk), h.nan⟩

end

/-! ## The instructions -/

/-- What an arithmetic instruction does: its result, or, for single operands of double values, anything (U50). -/
def ArithOutcome (i : Instr) (s : State) (frt : BitVec 5) (rec single : Bool) (ops : List DWord) (cause : Nat → Bool) : Prop :=
  (single = true ∧ (∀ frb, i ≠ .ppeFrsp frt frb rec) ∧ (∃ o ∈ ops, fitsSingle o = false) ∧
      ∃ k, Machine.exec i s = fpUndefined (s.drew k) frt rec) ∨
    ∃ k f r, Machine.exec i s = fpEnd (s.drew k) f ∧ f s.thr = (FpRes.apply r frt s.thr).recordCr1 rec ∧
      r.Meets single ops cause s.thr.fpscr

section
variable {i : Instr} {s : State} {frt : BitVec 5} {rec single : Bool} {ops : List DWord} {cause : Nat → Bool}

theorem arithOutcome_of_fpArith (k : Nat) {res : Word → FpRes} (hi : ∀ frb, i ≠ .ppeFrsp frt frb rec)
    (he : Machine.exec i s = fpArith (s.drew k) (targetFmt single) frt rec ops res) (hfp : ibit s.thr.msr 50 = true)
    (hm : (res s.thr.fpscr).Meets single ops cause s.thr.fpscr) : ArithOutcome i s frt rec single ops cause := by
  replace he := he.trans (fpGuard_of_fp (s := s.drew k) hfp)
  by_cases hu : targetFmt single = f32 ∧ (ops.any fun w => !fitsSingle w) = true
  · rw [if_pos hu] at he
    obtain ⟨hs, hops⟩ := hu
    obtain ⟨o, ho, hfit⟩ := List.any_eq_true.mp hops
    refine .inl ⟨?_, hi, ⟨o, ho, by simpa using hfit⟩, k, he⟩
    cases single with
    | true => rfl
    | false => exact absurd hs (by decide)
  · rw [if_neg hu] at he
    exact .inr ⟨k, _, _, he, rfl, hm⟩

theorem arithOutcome_of_fpArithNi {res : Word → Option (Nat × Nat) → FpRes} (hi : ∀ frb, i ≠ .ppeFrsp frt frb rec)
    (he : Machine.exec i s = fpArithNi s (targetFmt single) frt rec ops res) (hfp : ibit s.thr.msr 50 = true)
    (hm : ∀ ni, (res s.thr.fpscr ni).Meets single ops cause s.thr.fpscr) : ArithOutcome i s frt rec single ops cause := by
  unfold fpArithNi at he
  split at he
  · exact arithOutcome_of_fpArith 2 hi he hfp ((hm _).drawn _)
  · exact arithOutcome_of_fpArith 0 hi he hfp (hm _)


theorem arithOutcome_ppeFres (frb : BitVec 5) (hfp : ibit s.thr.msr 50 = true) :
    ArithOutcome (.ppeFres frt frb rec) s frt rec true [s.thr.getFpr frb] (zeroCause [s.thr.getFpr frb]) := by
  have he : Machine.exec (.ppeFres frt frb rec) s = execPpeFres frt frb rec s := rfl
  unfold execPpeFres at he
  refine arithOutcome_of_fpArith 2 nofun he hfp ?_
  have hk := kind_of_num (s.thr.getFpr frb)
  have hz : ∀ k ∈ causeBits, zeroCause [s.thr.getFpr frb] k = (decide (k = 5) && isZero (s.thr.getFpr frb)) := fun _ _ => rfl
  cases hn : num (s.thr.getFpr frb) with rw [hn] at hk
  | nan =>
    exact (fpResult_meets_noCause f32 _ false none [s.thr.getFpr frb] .invalid).congr _ fun k hk' => by
      rw [hz k hk', hk.2.2, Bool.and_false]
      rfl
  | zero n => exact zeroDivideRes_meets _ _ hk.2.1 (fun k hk' => by rw [hz k hk', hk.2.2.2, Bool.and_true]) _
  | inf n | fin n m e => exact estimateRes_meets _ _ hk.2.1 (fun k hk' => by rw [hz k hk', hk.2.2.2, Bool.and_false]) _ _ _ _

theorem arithOutcome_ppeFrsqrte (frb : BitVec 5) (hfp : ibit s.thr.msr 50 = true) :
    ArithOutcome (.ppeFrsqrte frt frb rec) s frt rec false [s.thr.getFpr frb] (inverseRootCause [s.thr.getFpr frb]) := by
  have he : Machine.exec (.ppeFrsqrte frt frb rec) s = execPpeFrsqrte frt frb rec s := rfl
  unfold execPpeFrsqrte at he
  refine arithOutcome_of_fpArith 2 nofun he hfp ?_
  clear he
  generalize s.thr.getFpr frb = b
  have hk := kind_of_num b
  have hz : ∀ k, inverseRootCause [b] k =
      ((decide (k = 5) && isZero b) || (decide (k = 22) && (ibit b 0 && (!isZero b && !isNan f64 b.toNat)))) := fun _ => by
    simp only [← Bool.and_assoc]
    rfl
  have hroot (hc : ∀ k, inverseRootCause [b] k = decide (k = 22)) :
      (fpResult f64 s.thr.fpscr false none [b] vxSqrt .invalid).Meets (f64 = f32) [b] (inverseRootCause [b]) s.thr.fpscr :=
    fpResult_meets (fun k hk => by rw [hc, ibit_vxSqrt k hk]; by_cases h : k = 22 <;> simp [h, invalidBits]) (hc 7) (hc 5)
  cases hn : num b with rw [hn] at hk
  | nan => exact (fpResult_meets_noCause f64 _ false none [b] .invalid).congr _ fun k _ => by simp [hz, hk, noCause]
  | zero n => exact zeroDivideRes_meets _ _ hk.2.1 (fun k _ => by simp [hz, hk]) _
  | inf n | fin n m e =>
    cases n with
    | true => exact hroot fun k => by simp [hz, hk]
    | false => exact estimateRes_meets _ _ hk.2.1 (fun k _ => by simp [hz, hk]) _ _ _ _

theorem arithOutcome_ppeFcfid (frb : BitVec 5) (hfp : ibit s.thr.msr 50 = true) :
    ArithOutcome (.ppeFcfid frt frb rec) s frt rec false [] (noCause []) := by
  have he : Machine.exec (.ppeFcfid frt frb rec) s = execPpeFcfid frt frb rec s := rfl
  unfold execPpeFcfid at he
  refine arithOutcome_of_fpArith 0 nofun he hfp ?_
  rw [← fpResult_of_noNan (ops := []) rfl rfl]
  exact fpResult_meets_noCause f64 ..

/-- Every arithmetic instruction. -/
theorem arithOutcome_of_floatArith {ops : Thread → List DWord} {cause : List DWord → Nat → Bool} (h : FloatArith i frt rec single ops cause)
    (hfp : ibit s.thr.msr 50 = true) : ArithOutcome i s frt rec single (ops s.thr) (cause (ops s.thr)) := by
  cases h with
  | fadd | fsub => exact arithOutcome_of_fpArith 0 nofun rfl hfp (addRes_meets f64 ..)
  | fadds | fsubs => exact arithOutcome_of_fpArith 0 nofun rfl hfp (addRes_meets f32 ..)
  | fmul => exact arithOutcome_of_fpArith 0 nofun rfl hfp (mulRes_meets f64 ..)
  | fmuls => exact arithOutcome_of_fpArith 0 nofun rfl hfp (mulRes_meets f32 ..)
  | fdiv => exact arithOutcome_of_fpArithNi nofun rfl hfp fun _ => divRes_meets f64 ..
  | fdivs => exact arithOutcome_of_fpArithNi nofun rfl hfp fun _ => divRes_meets f32 ..
  | fsqrt => exact arithOutcome_of_fpArithNi nofun rfl hfp fun _ => sqrtRes_meets f64 ..
  | fsqrts => exact arithOutcome_of_fpArithNi nofun rfl hfp fun _ => sqrtRes_meets f32 ..
  | fmadd | fmsub | fnmadd | fnmsub => exact arithOutcome_of_fpArith 0 nofun rfl hfp (fmaRes_meets f64 ..)
  | fmadds | fmsubs | fnmadds | fnmsubs => exact arithOutcome_of_fpArith 0 nofun rfl hfp (fmaRes_meets f32 ..)
  | fres => exact arithOutcome_ppeFres _ hfp
  | frsqrte => exact arithOutcome_ppeFrsqrte _ hfp
  | frsp => exact .inr ⟨0, _, _, fpGuard_of_fp hfp, rfl, fpResult_meets_noCause f32 _ false none _ _⟩
  | fcfid => exact arithOutcome_ppeFcfid _ hfp

/-! ## The frame -/

/-- FRT, the status and CR1 of an undefined result are any value, but for FEX and VX. -/
theorem floatEnds_of_fpUndefined (k : Nat) (he : Machine.exec i s = fpUndefined (s.drew k) frt rec) {P : Thread → Prop}
    (hP : ∀ u : Thread, Summary u.fpscr → P u) : FloatEnds i s (floatWrites frt rec) P := by
  have hlow : ∀ b < 32, ibit (0xFF : Word) b = decide (24 ≤ b) := by decide
  have hhigh : ∀ b < 32, 24 ≤ b → ibit (0xFFFFF700 : Word) b = false := by decide
  have hmask (st : Word) : fpSummary ((s.thr.fpscr &&& 0xFF) ||| (st &&& 0xFFFFF700)) &&& ~~~floatStatus =
      s.thr.fpscr &&& ~~~floatStatus := and_not_eq fun b hb h => by
    rw [ibit_floatStatus b hb, decide_eq_false_iff_not, not_lt] at h
    rw [ibit_fpSummary _ hb (by omega) (by omega), ibit_or, ibit_and, ibit_and, hlow b hb, hhigh b hb h, decide_eq_true h]
    simp
  refine floatEnds_of_fpEnd (k + 3) he ?_ ?_ ?_
  · cases rec with
    | false => exact keeps_float (fun _ hq => getFpr_setFpr_of_notMem _ _ hq) (hmask _) rfl
    | true => exact keeps_float (fun _ hq => getFpr_setFpr_of_notMem _ _ hq) (hmask _) (cr_setCr1_outside true ..)
  · cases rec <;> rfl
  · cases rec <;> exact hP _ (summary_fpSummary _)

/-- An arithmetic instruction ends as undefined operands or as its result make it. -/
theorem floatEnds_of_floatArith {ops : Thread → List DWord} {cause : List DWord → Nat → Bool} (h : FloatArith i frt rec single ops cause)
    (hfp : ibit s.thr.msr 50 = true) {P : Thread → Prop}
    (hundef : single = true → (∀ frb, i ≠ .ppeFrsp frt frb rec) → (∃ o ∈ ops s.thr, fitsSingle o = false) →
      ∀ u : Thread, Summary u.fpscr → P u)
    (hres : ∀ r : FpRes, r.Meets single (ops s.thr) (cause (ops s.thr)) s.thr.fpscr → ∀ u : Thread, u.fpscr = r.newFpscr s.thr.fpscr →
      (∀ v c, r.value = some (v, c) → u.getFpr frt = v) → (rec = true → copiesCr1 u) → P u) :
    FloatEnds i s (floatWrites frt rec) P := by
  obtain ⟨hs, hi, hops, k, he⟩ | ⟨k, f, r, he, hf, hr⟩ := arithOutcome_of_floatArith h hfp
  · exact floatEnds_of_fpUndefined k he (hundef hs hi hops)
  · exact floatEnds_of_result k he hf hr.ok (hres r hr)

/-- What a result that meets its statements makes of FPSCR and FRT. -/
theorem FpRes.Meets.newFpscr {ops : List DWord} {cause : Nat → Bool} {r : FpRes} {f : Word} (h : r.Meets single ops cause f) :
    ibit (r.newFpscr f) 7 = (ibit f 7 || ops.any fun o => isSnan f64 o.toNat) ∧
      (∀ k ∈ causeBits, ibit (r.newFpscr f) k = (ibit f k || cause k)) := by
  have hall : ∀ k ∈ causeBits, k ∈ floatExceptions ∧ k ≠ 6 := by decide
  refine ⟨by rw [h.ok.exc_newFpscr f (by decide) (by decide), h.snan], fun k hk => ?_⟩
  rw [h.ok.exc_newFpscr f (hall k hk).1 (hall k hk).2, h.cause k hk]

end

/-- The frame, the exceptions of operands and the result of NaNs: the first part of O24. -/
theorem floatArith_ends {i frt rec single ops cause} (h : FloatArith i frt rec single ops cause) {s : State}
    (hfp : ibit s.thr.msr 50 = true) :
    let held : Prop := single = true → (∃ frb, i = .ppeFrsp frt frb rec) ∨ ∀ o ∈ ops s.thr, fitsSingle o = true
    FloatEnds i s (floatWrites frt rec) fun u =>
      Summary u.fpscr ∧ (rec = true → held → copiesCr1 u) ∧
      (ibit s.thr.fpscr 24 = false → held →
        ∀ pre n post, ops s.thr = pre ++ n :: post → (∀ o ∈ pre, isNan f64 o.toNat = false) → isNan f64 n.toNat = true →
          u.getFpr frt = (n ||| 0x0008000000000000#64) &&& (if single then 0xFFFFFFFFE0000000#64 else 0xFFFFFFFFFFFFFFFF#64) ∧
          ibm u.fpscr 15 5 = 0b10001#5) ∧
      (held → ibit u.fpscr 7 = (ibit s.thr.fpscr 7 || (ops s.thr).any fun o => isSnan f64 o.toNat) ∧
        (∀ k ∈ [5, 8, 9, 10, 11, 12, 21, 22, 23], ibit u.fpscr k = (ibit s.thr.fpscr k || cause (ops s.thr) k)) ∧
        ibit u.fpscr 0 = (ibit s.thr.fpscr 0 || floatExceptions.any fun k => ibit u.fpscr k && !ibit s.thr.fpscr k)) := by
  intro held
  refine floatEnds_of_floatArith h hfp (fun hs hi ⟨o, ho, hfit⟩ u hsum => ?_) fun r hr u hu hv hc => ?_
  · have hno : ¬held := fun hh => (hh hs).elim (fun ⟨frb, hf⟩ => hi frb hf) fun hall => by simp [hall o ho] at hfit
    exact ⟨hsum, fun _ hh => absurd hh hno, fun _ hh => absurd hh hno, fun hh => absurd hh hno⟩
  · rw [hu]
    refine ⟨r.summary_newFpscr _, fun hrec _ => hc hrec, fun hve _ pre n post hops hpre hn => ?_, fun _ =>
      ⟨hr.newFpscr.1, hr.newFpscr.2, hr.ok.fx_newFpscr _⟩⟩
    have hval := hr.nan hve ⟨n, by simp [hops], hn⟩
    rw [← nanResult_eq single hpre hn, ← hops]
    exact ⟨hv _ _ hval, r.ibm_newFpscr _ hval⟩

end Sys2Proof.Machine
end

section
/-! The result of an arithmetic instruction whose exact result is finite: the exact value rounded once, and what FPSCR says of it
(43_ppe_float R843). -/

namespace Sys2Proof.Machine

open Sys2Proof.Safety

/-! ## The target format -/

section
variable (single : Bool)

theorem targetFmt_qmin : (targetFmt single).qmin + 1074 = targetShift single := by cases single <;> rfl

theorem targetFmt_infMag_mod : (targetFmt single).infMag % 2 = 0 := by cases single <;> rfl

/-- The value of a magnitude image, in the units of the statements. -/
theorem targetFmt_value (mag k : Nat) (hk : 0 < k) : (targetFmt single).value mag =
    (((targetFmt single).units mag * (2^targetShift single * k) : Nat) : ℝ) / (2^1074 * k) := by
  have hq : (2 : ℝ)^(targetFmt single).qmin * 2^1074 = 2^targetShift single := by
    rw [← zpow_natCast 2 1074, ← zpow_natCast 2 (targetShift single), ← two_zpow_add]
    exact congrArg _ (targetFmt_qmin single)
  have hk' : (k : ℝ) ≠ 0 := by exact_mod_cast hk.ne'
  rw [Fmt.value, eq_div_iff (by positivity), Nat.cast_mul, Nat.cast_mul, Nat.cast_pow, Nat.cast_ofNat, ← hq]
  ring

/-- The value 2^`b` of a magnitude image, in the units of the statements. -/
theorem lt_two_zpow_iff {b : Int} {c X k : Nat} (hb : b + 1074 = c) (hk : 0 < k) : (X : ℝ) / (2^1074 * k) < 2^b ↔ X < 2^c * k := by
  have hq : (2 : ℝ)^b * 2^1074 = 2^c := by
    rw [← zpow_natCast 2 1074, ← zpow_natCast 2 c, ← two_zpow_add]
    exact congrArg _ hb
  have hk' : (0 : ℝ) < k := by exact_mod_cast hk
  rw [div_lt_iff₀ (by positivity), ← mul_assoc, hq]
  exact_mod_cast Iff.rfl

/-- The finite values of the target format. -/
theorem lt_infMag_of_targets {c : Int} (h : targets single c) :
    ∃ mag < (targetFmt single).infMag, c.natAbs = (targetFmt single).units mag * 2^targetShift single := by
  cases single
  · obtain ⟨w, hw, rfl⟩ : ∃ w, finiteDouble w ∧ Safety.scaled w = c := h
    exact ⟨w.toNat % 2^63, (finiteDouble_iff w).mp hw, by simp [scaled_eq_units, targetFmt, targetShift]⟩
  · obtain ⟨w, hw, rfl⟩ : ∃ w, finiteSingle w ∧ scaledSingle w = c := h
    exact ⟨w.toNat % 2^31, (finiteSingle_iff w).mp hw,
      by simp only [scaledSingle_eq_units, natAbs_signedNat, targetFmt, targetShift, if_true]⟩

theorem targets_of_lt_infMag (n : Bool) {mag : Nat} (h : mag < (targetFmt single).infMag) :
    targets single (signedNat n ((targetFmt single).units mag * 2^targetShift single)) := by
  cases single with
  | false =>
    have h63 : mag < 2^63 := h.trans (show f64.infMag < 2^63 by decide)
    refine ⟨BitVec.ofNat 64 (f64.image n mag), ?_, ?_⟩
    · rw [finiteDouble_iff, mag_image64 n h63]
      exact h
    · rw [scaled_eq_units, mag_image64 n h63, ibit_zero_image64 n h63]
      exact congrArg _ (Nat.mul_one _).symm
  | true =>
    have h31 : mag < 2^31 := h.trans (show f32.infMag < 2^31 by decide)
    refine ⟨BitVec.ofNat 32 (f32.image n mag), ?_, ?_⟩
    · rw [finiteSingle_iff, mag_image32 n h31]
      exact h
    · rw [scaledSingle_eq_units, mag_image32 n h31, ibit_zero_image32 n h31]
      rfl

/-- A value of the target format has a double image. -/
theorem exists_double_of_target {mag : Nat} (h : mag < (targetFmt single).infMag) :
    ∃ mag64 < f64.infMag, f64.units mag64 = (targetFmt single).units mag * 2^targetShift single := by
  cases single with
  | false => exact ⟨mag, h, (Nat.mul_one _).symm⟩
  | true =>
    have h31 : mag < 2^31 := h.trans (show f32.infMag < 2^31 by decide)
    have hmag := mag_image32 false h31
    obtain ⟨mag64, hlt, -, hu⟩ := exists_doubleOf (w := BitVec.ofNat 32 (f32.image false mag)) <| by
      rw [finiteSingle_iff, hmag]
      exact h
    rw [hmag] at hu
    exact ⟨mag64, hlt, hu⟩

end

/-! ## The value that is delivered -/

/-- A result delivers the value of a magnitude image with a sign, and FPRF says so. -/
def FpRes.Delivers (r : FpRes) (single n : Bool) (mag : Nat) : Prop :=
  ∃ v c, r.value = some (v, c) ∧ finiteDouble v ∧
    Safety.scaled v = signedNat n ((targetFmt single).units mag * 2^targetShift single) ∧
    ibit c 1 = decide (Safety.scaled v < 0) ∧ ibit c 2 = decide (0 < Safety.scaled v) ∧ ibit c 3 = decide (Safety.scaled v = 0) ∧
    ibit c 4 = false

/-- The double of a value of the target format. -/
theorem f64Of_target (single n : Bool) {m mag : Nat} {q : Int} (h : mag < (targetFmt single).infMag) (hq : (targetFmt single).qmin ≤ q)
    (hu : (targetFmt single).units mag = m * 2^(q - (targetFmt single).qmin).toNat) :
    finiteDouble (f64Of n m q) ∧ Safety.scaled (f64Of n m q) = signedNat n ((targetFmt single).units mag * 2^targetShift single) := by
  obtain ⟨mag64, hlt, hu64⟩ := exists_double_of_target single h
  have h63 : mag64 < 2^63 := hlt.trans (by decide)
  have hqm := targetFmt_qmin single
  have himg : f64Of n m q = BitVec.ofNat 64 (f64.image n mag64) := by
    have hm : f64.units mag64 = m * 2^(q - f64.qmin).toNat := by
      rw [hu64, hu, Nat.mul_assoc, ← Nat.pow_add, show f64.qmin = -1074 from rfl]
      congr 2
      omega
    unfold f64Of
    split
    · next h0 =>
      rw [h0, Nat.zero_mul, ← Fmt.units_of_lt (f := f64) (mag := 0) (Nat.two_pow_pos _)] at hm
      rw [f64.units_strictMono.injective hm]
    · next h0 =>
      rw [packMag_roundFmt_exact f64 .zero n h0 (by decide) (by rw [show f64.qmin = -1074 from rfl]; omega) hm]
  rw [himg, finiteDouble_iff, scaled_eq_units, mag_image64 n h63, ibit_zero_image64 n h63, hu64]
  exact ⟨hlt, rfl⟩

/-- FPRF of a finite value. -/
theorem fprf_signedNat (n denorm : Bool) {x : Nat} {c : BitVec 5} (h : c = if x = 0 then classZero n else classFin n denorm) :
    ibit c 1 = decide (signedNat n x < 0) ∧ ibit c 2 = decide (0 < signedNat n x) ∧ ibit c 3 = decide (signedNat n x = 0) ∧
      ibit c 4 = false := by
  have hclass : ∀ n denorm, ibit (classFin n denorm) 1 = n ∧ ibit (classFin n denorm) 2 = !n ∧ ibit (classFin n denorm) 3 = false ∧
    ibit (classFin n denorm) 4 = false := by decide
  rcases Nat.eq_zero_or_pos x with rfl | hx
  · subst h
    rw [signedNat_zero, if_pos rfl]
    revert n
    decide
  · rw [if_neg hx.ne'] at h
    subst h
    obtain ⟨h1, h2, h3, h4⟩ := hclass n denorm
    rw [h1, h2, h3, h4]
    cases n <;> simp [signedNat] <;> omega

/-- A rounded value below the infinity. -/
theorem delivers_of_rounded {r : FpRes} {single n : Bool} {w : Rounded} {mag : Nat} (hr : r.value = some (rounded (targetFmt single) n w))
    (hp : (targetFmt single).packMag w = mag) (hlt : mag < (targetFmt single).infMag) (hq : (targetFmt single).qmin ≤ w.q)
    (hu : (targetFmt single).units mag = w.m * 2^(w.q - (targetFmt single).qmin).toNat) : r.Delivers single n mag := by
  obtain ⟨hfin, hs⟩ := f64Of_target single n hlt hq hu
  rw [rounded, if_neg (by rw [hp]; exact hlt.not_ge)] at hr
  refine ⟨_, _, hr, hfin, hs, ?_⟩
  rw [hs]
  refine fprf_signedNat n ((targetFmt single).tiny w.m w.q) ?_
  have h0 : w.m = 0 ↔ (targetFmt single).units mag * 2^targetShift single = 0 := by
    simp [hu]
  simp only [h0]

/-! ## Rounding in the units of the statements -/

/-- The rounded significand of X / k: it is at `mag`, next below X / k or at it, or at the next image. -/
structure RoundsAt (single : Bool) (mode : RMode) (n : Bool) (k X mag : Nat) (r : Rounded) : Prop where
  encloses : (targetFmt single).Encloses (2^targetShift single * k) X mag
  up : r.up = (targetFmt single).roundsUp mode n (2^targetShift single * k) X mag
  inexact : r.inexact = decide (X ≠ (targetFmt single).units mag * (2^targetShift single * k))
  pack : (targetFmt single).packMag r = mag + r.up.toNat
  grid : (targetFmt single).qmin ≤ r.q
  units : (targetFmt single).units (mag + r.up.toNat) = r.m * 2^(r.q - (targetFmt single).qmin).toNat

theorem exists_roundsAt (single : Bool) (mode : RMode) (n : Bool) {m k X : Nat} {e : Int} (hm : m ≠ 0) (hk : 0 < k)
    (h : StandsFor m e ((X : ℝ) / (2^1074 * k))) :
    ∃ mag, RoundsAt single mode n k X mag (roundFmt (targetFmt single) mode n m e) := by
  obtain ⟨mag, hle, hlt, hup, hinex, hpack, hgrid, hunits⟩ := exists_roundsOff (targetFmt single) mode n hm
    (by cases single <;> decide) (by cases single <;> decide) h
  have hk' : (0 : ℝ) < k := by exact_mod_cast hk
  have hD : (0 : ℝ) < 2^1074 * k := by positivity
  rw [targetFmt_value single _ k hk, div_le_div_iff_of_pos_right hD, Nat.cast_le] at hle
  rw [targetFmt_value single _ k hk, div_lt_div_iff_of_pos_right hD, Nat.cast_lt] at hlt
  rw [targetFmt_value single _ k hk, ne_eq, div_left_inj' hD.ne', Nat.cast_inj] at hinex
  refine ⟨mag, ⟨hle, hlt⟩, Bool.eq_iff_iff.mpr (hup.trans ?_), Bool.eq_iff_iff.mpr (hinex.trans (decide_eq_true_iff).symm), hpack, hgrid,
    hunits⟩
  rw [targetFmt_value single _ k hk, targetFmt_value single _ k hk, Fmt.roundsUp]
  generalize (targetFmt single).units mag * (2^targetShift single * k) = A at *
  generalize (targetFmt single).units (mag + 1) * (2^targetShift single * k) = B at *
  obtain ⟨V, rfl⟩ : ∃ V, B = A + V := ⟨B - A, by omega⟩
  obtain ⟨rem, rfl⟩ : ∃ rem, X = A + rem := ⟨X - A, by omega⟩
  have h := RMode.roundsUp_iff mode n mag (rem := rem) (V := V) (lo := A / (2^1074 * k)) (inv_pos.mpr hD)
  rw [← div_eq_mul_inv, ← div_eq_mul_inv, ← add_div, ← add_div] at h
  rw [Nat.add_sub_cancel_left, Nat.add_sub_cancel_left, h, Nat.cast_add, Nat.cast_add]

/-! ## Overflow and underflow -/

/-- The infinity, read as a number, and the greatest number, in units of 2^-1074. -/
theorem infinity_units (single : Bool) :
    (targetFmt single).units (targetFmt single).infMag * 2^targetShift single = 2^(if single then 1202 else 2098) := by
  cases single with
  | true =>
    simp only [targetFmt, targetShift, if_true]
    exact infinity_single
  | false =>
    simp only [targetFmt, targetShift, Bool.false_eq_true, if_false, pow_zero, Nat.mul_one]
    exact (f64.units_infMag (by decide)).trans (congrArg _ (by decide))

theorem greatest_units (single : Bool) : (targetFmt single).units ((targetFmt single).infMag - 1) * 2^targetShift single =
    (2^(if single then 24 else 53) - 1) * 2^(if single then 1178 else 2045) := by
  cases single with
  | true =>
    simp only [targetFmt, targetShift, if_true]
    exact greatest_single
  | false =>
    simp only [targetFmt, targetShift, Bool.false_eq_true, if_false, pow_zero, Nat.mul_one]
    have h := Fmt.units_pack (f := f64) (t := 2045) (m := 2^53 - 1) (.inr (by decide)) (by decide)
    rwa [show 2045 * 2^f64.fb + (2^53 - 1) = f64.infMag - 1 by decide] at h

theorem infinity_target (single : Bool) (k : Nat) :
    (((targetFmt single).units (targetFmt single).infMag * (2^targetShift single * k) : Nat) : Int) =
      (if single then 2^1202 else 2^2098) * k := by
  rw [← Nat.mul_assoc, infinity_units, Nat.cast_mul, natCast_two_pow]
  cases single <;> rfl

theorem greatest_target (single : Bool) (k : Nat) :
    (((targetFmt single).units ((targetFmt single).infMag - 1) * (2^targetShift single * k) : Nat) : Int) =
      ((if single then 2^1202 else 2^2098) - (if single then 2^1178 else 2^2045)) * k := by
  have hpow (a b : Nat) : (((2^a - 1) * 2^b : Nat) : Int) = 2^(a + b) - 2^b := by
    rw [Nat.cast_mul, Nat.cast_sub Nat.one_le_two_pow, natCast_two_pow, natCast_two_pow, pow_add, Nat.cast_one]
    ring
  rw [← Nat.mul_assoc, greatest_units, Nat.cast_mul, hpow]
  cases single <;> rfl

/-- A value is rounded to the infinity or past it from there on, and past the greatest number if the direction takes it up. -/
theorem infMag_le_iff {single : Bool} {c X mag : Nat} (h : (targetFmt single).Encloses c X mag) (mode : RMode) (n : Bool) :
    (targetFmt single).infMag ≤ mag + ((targetFmt single).roundsUp mode n c X mag).toNat ↔
      (targetFmt single).units (targetFmt single).infMag * c ≤ X ∨
        ((targetFmt single).units ((targetFmt single).infMag - 1) * c ≤ X ∧ X < (targetFmt single).units (targetFmt single).infMag * c ∧
          mode.roundsUp n true (X - (targetFmt single).units ((targetFmt single).infMag - 1) * c)
            ((targetFmt single).units (targetFmt single).infMag * c - (targetFmt single).units ((targetFmt single).infMag - 1) * c) = true) := by
  have hpos : 0 < (targetFmt single).infMag := by cases single <;> decide
  have hmod := targetFmt_infMag_mod single
  generalize hM : (targetFmt single).infMag = M at *
  have hmono {a b : Nat} (hab : a ≤ b) : (targetFmt single).units a * c ≤ (targetFmt single).units b * c :=
    Nat.mul_le_mul_right c ((targetFmt single).units_strictMono.monotone hab)
  obtain ⟨hle, hlt⟩ := h
  have htoNat := Bool.toNat_le ((targetFmt single).roundsUp mode n c X mag)
  rcases lt_trichotomy (mag + 1) M with hm | hm | hm
  · have := hmono (show mag + 1 ≤ M - 1 by omega)
    have := hmono (show M - 1 ≤ M by omega)
    exact iff_of_false (by omega) (by omega)
  · obtain rfl : mag = M - 1 := by omega
    rw [hm] at hlt
    have hodd : decide ((M - 1) % 2 = 1) = true := decide_eq_true (by omega)
    rw [Fmt.roundsUp, hodd, hm, or_iff_right hlt.not_ge]
    cases RMode.roundsUp mode n true _ _ with
    | false => exact iff_of_false (by simp; omega) (by simp)
    | true => exact iff_of_true (by simp; omega) ⟨hle, hlt, rfl⟩
  · have := hmono (show M ≤ mag by omega)
    exact iff_of_true (by omega) (.inl (by omega))

/-- Overflow as the statements put it. -/
theorem overflows_iff (rn : BitVec 2) {single : Bool} (n : Bool) {k X mag : Nat} (hk : 0 < k)
    (h : (targetFmt single).Encloses (2^targetShift single * k) X mag) :
    overflows rn single k (signedNat n X) = true ↔ (targetFmt single).infMag ≤
      mag + ((targetFmt single).roundsUp (rmodeOf rn) n (2^targetShift single * k) X mag).toNat := by
  rw [infMag_le_iff h]
  have hT := infinity_target single k
  have hL := greatest_target single k
  have hlt : (targetFmt single).units ((targetFmt single).infMag - 1) * (2^targetShift single * k) <
    (targetFmt single).units (targetFmt single).infMag * (2^targetShift single * k) :=
      Nat.mul_lt_mul_of_pos_right ((targetFmt single).units_strictMono (by cases single <;> decide)) (by positivity)
  generalize (targetFmt single).units (targetFmt single).infMag * (2^targetShift single * k) = T at *
  generalize (targetFmt single).units ((targetFmt single).infMag - 1) * (2^targetShift single * k) = L at *
  unfold overflows
  dsimp only
  generalize (if single = true then (2 : Int)^1202 else 2^2098) = top at *
  generalize (if single = true then (2 : Int)^1178 else 2^2045) = ulp at *
  have hnear : (2 * top - ulp) * (k : Int) = T + L := by rw [hT, hL]; ring
  have hneg : -top * (k : Int) = -T := by rw [hT]; ring
  have hnegL : -(top - ulp) * (k : Int) = -L := by rw [hL]; ring
  rw [natAbs_signedNat]
  obtain rfl | rfl | rfl | rfl := rn_cases rn
  · change decide ((2 * top - ulp) * (k : Int) ≤ 2 * (X : Int)) = true ↔ _ ∨ _ ∧ _ ∧ (decide _ || decide _ && true) = true
    rw [hnear, decide_eq_true_iff, Bool.and_true, Bool.or_eq_true, decide_eq_true_iff, decide_eq_true_iff]
    omega
  · change decide (top * (k : Int) ≤ (X : Int)) = true ↔ _ ∨ _ ∧ _ ∧ false = true
    rw [← hT, decide_eq_true_iff]
    simp
  · change decide ((top - ulp) * (k : Int) < signedNat n X ∨ signedNat n X ≤ -top * (k : Int)) = true ↔
      _ ∨ _ ∧ _ ∧ (decide _ && !n) = true
    rw [← hL, hneg, decide_eq_true_iff]
    cases n <;> simp [signedNat] <;> omega
  · change decide (top * (k : Int) ≤ signedNat n X ∨ signedNat n X < -(top - ulp) * (k : Int)) = true ↔
      _ ∨ _ ∧ _ ∧ (decide _ && n) = true
    rw [← hT, hnegL, decide_eq_true_iff]
    cases n <;> simp [signedNat] <;> omega

/-- The exponent of the leading bit. -/
theorem topExp_lt_iff_lt_two_zpow {m : Nat} {e b : Int} (hm : m ≠ 0) : topExp m e < b ↔ (m : ℝ) * 2^e < 2^b := by
  have hlo : (2 : ℝ)^(m.log2 : Int) ≤ m := by exact_mod_cast Nat.log2_self_le hm
  have hhi : (m : ℝ) < 2^((m.log2 : Int) + 1) := by exact_mod_cast Nat.lt_log2_self
  have hw := two_zpow_pos e
  unfold topExp
  constructor
  · intro h
    calc (m : ℝ) * 2^e < 2^((m.log2 : Int) + 1) * 2^e := mul_lt_mul_of_pos_right hhi hw
      _ = 2^((m.log2 : Int) + 1 + e) := (two_zpow_add ..).symm
      _ ≤ 2^b := zpow_le_zpow_right₀ one_le_two (by omega)
  · intro h
    have h2 : (2 : ℝ)^(e + m.log2) < 2^b := by
      rw [add_comm, two_zpow_add]
      exact (mul_le_mul_of_nonneg_right hlo hw.le).trans_lt h
    exact (zpow_lt_zpow_iff_right₀ one_lt_two).mp h2

/-- Tininess as the statements put it. -/
theorem tiny_eq_tinyValue (single n : Bool) {m k X : Nat} {e : Int} (hm : m ≠ 0) (hk : 0 < k) (h : StandsFor m e ((X : ℝ) / (2^1074 * k))) :
    (targetFmt single).tiny m e = tinyValue single k (signedNat n X) := by
  have hbits : 1 - (targetFmt single).bias + 1074 = ((if single then 948 else 52 : Nat) : Int) := by cases single <;> rfl
  have hX : X ≠ 0 := by
    rintro rfl
    have := h.pos hm
    simp at this
  have hpow : (if single then (2 : Int)^948 else 2^52) = ((2^(if single then 948 else 52) : Nat) : Int) := by
    rw [natCast_two_pow]
    cases single <;> rfl
  rw [Fmt.tiny, tinyValue, decide_eq_decide, topExp_lt_iff_lt_two_zpow hm, ← h.lt_two_zpow, lt_two_zpow_iff hbits hk, natAbs_signedNat,
    hpow, and_iff_right (signedNat_eq_zero.not.mpr hX)]
  exact_mod_cast Iff.rfl

end Sys2Proof.Machine
end

section
/-! What `deliver` makes of an exact result that is finite (43_ppe_float R843): the overflow and underflow exceptions, and with
OE = UE = 0 the rounded value. -/

namespace Sys2Proof.Machine

open Sys2Proof.Safety

/-! ## The cases of `deliverFin` -/

/-- OX, UX and XX of a trapped overflow, of a trapped underflow and of another result. -/
theorem flags_ox : ∀ fi : Bool, ibit ((0x10000000 : Word) ||| if fi then 0x02000000 else 0) 3 = true ∧
    ibit ((0x10000000 : Word) ||| if fi then 0x02000000 else 0) 4 = false ∧
    ibit ((0x10000000 : Word) ||| if fi then 0x02000000 else 0) 6 = fi := by decide

theorem flags_ux : ∀ fi : Bool, ibit ((0x08000000 : Word) ||| if fi then 0x02000000 else 0) 3 = false ∧
    ibit ((0x08000000 : Word) ||| if fi then 0x02000000 else 0) 4 = true ∧
    ibit ((0x08000000 : Word) ||| if fi then 0x02000000 else 0) 6 = fi := by decide

theorem flags_xx : ∀ ux fi : Bool, ibit ((if ux then 0x08000000 else 0 : Word) ||| if fi then 0x02000000 else 0) 3 = false ∧
    ibit ((if ux then 0x08000000 else 0 : Word) ||| if fi then 0x02000000 else 0) 4 = ux ∧
    ibit ((if ux then 0x08000000 else 0 : Word) ||| if fi then 0x02000000 else 0) 6 = fi := by decide

section
variable (f : Fmt) (fpscr : Word) (flip n : Bool) (m : Nat) (e : Int)

/-- OX, UX and XX of a result (R843 step 3). -/
theorem deliverFin_flags :
    ibit (deliverFin f fpscr flip none n m e).exc 3 = decide (f.infMag ≤ f.packMag (roundFmt f (rmodeOf (ibm fpscr 30 2)) n m e)) ∧
    ibit (deliverFin f fpscr flip none n m e).exc 4 = (!decide (f.infMag ≤ f.packMag (roundFmt f (rmodeOf (ibm fpscr 30 2)) n m e)) &&
      (f.tiny m e && (ibit fpscr 26 || (deliverFin f fpscr flip none n m e).fi))) ∧
    ibit (deliverFin f fpscr flip none n m e).exc 6 = (deliverFin f fpscr flip none n m e).fi := by
  unfold deliverFin
  dsimp only
  split
  · next hov =>
    rw [decide_eq_true hov, Bool.not_true, Bool.false_and]
    split
    · exact flags_ox _
    · exact flags_ox true
  · next hov =>
    rw [decide_eq_false hov, Bool.not_false, Bool.true_and]
    split
    · next hux =>
      rw [Bool.and_eq_true] at hux
      rw [hux.1, hux.2]
      exact flags_ux _
    · next hux =>
      have hux' : (f.tiny m e && ibit fpscr 26) = false := Bool.eq_false_iff.mpr hux
      rw [Bool.and_or_distrib_left, hux', Bool.false_or]
      exact flags_xx _ _

variable {f fpscr}

/-- A result that does not overflow, and is not tiny or UE = 0. -/
theorem deliverFin_of_lt (hux : (f.tiny m e && ibit fpscr 26) = false)
    (h : f.packMag (roundFmt f (rmodeOf (ibm fpscr 30 2)) n m e) < f.infMag) :
    (deliverFin f fpscr flip none n m e).fr = (roundFmt f (rmodeOf (ibm fpscr 30 2)) n m e).up ∧
    (deliverFin f fpscr flip none n m e).fi = (roundFmt f (rmodeOf (ibm fpscr 30 2)) n m e).inexact ∧
    (deliverFin f fpscr flip none n m e).value =
      some (rounded f (n != flip) (roundFmt f (rmodeOf (ibm fpscr 30 2)) n m e)) := by
  unfold deliverFin
  dsimp only
  rw [if_neg h.not_ge, hux, if_neg Bool.false_ne_true]
  exact ⟨rfl, rfl, by rw [moved, Bool.bne_false]⟩

/-- A result that overflows, with OE = 0. -/
theorem deliverFin_of_le (hoe : ibit fpscr 25 = false)
    (h : f.infMag ≤ f.packMag (roundFmt f (rmodeOf (ibm fpscr 30 2)) n m e)) :
    (deliverFin f fpscr flip none n m e).fr = decide (f.overflowMag (rmodeOf (ibm fpscr 30 2)) n = f.infMag) ∧
    (deliverFin f fpscr flip none n m e).fi = true ∧
    (deliverFin f fpscr flip none n m e).value = some (rounded f (n != flip)
      (overflowed f (decide (f.overflowMag (rmodeOf (ibm fpscr 30 2)) n = f.infMag)))) := by
  unfold deliverFin
  dsimp only
  rw [if_pos h, hoe, if_neg Bool.false_ne_true]
  exact ⟨rfl, rfl, by rw [moved, Bool.bne_false]⟩

end

/-! ## Exact results -/

/-- The exact result is x / k. -/
def Calc.Represents (x : Int) (k : Nat) : Calc → Prop
  | .invalid => False
  | .inf _ => False
  | .zero _ => x = 0
  | .fin n m e => m ≠ 0 ∧ ∃ X : Nat, x = signedNat n X ∧ StandsFor m e ((X : ℝ) / (2^1074 * k))

theorem encloses_zero (f : Fmt) {c : Nat} (hc : 0 < c) : f.Encloses c 0 0 := by
  have h0 : f.units 0 = 0 := Fmt.units_of_lt (Nat.two_pow_pos _)
  have h1 : f.units 0 < f.units 1 := f.units_strictMono zero_lt_one
  exact ⟨by rw [h0, Nat.zero_mul], Nat.mul_pos (pos_of_gt h1) hc⟩

/-- The least normal number. -/
theorem units_two_pow_fb (f : Fmt) : f.units (2^f.fb) = 2^f.fb := by
  have h := Fmt.units_pack (f := f) (t := 0) (m := 2^f.fb) (.inl rfl) (Nat.pow_le_pow_right two_pos (Nat.le_succ _))
  rwa [Nat.zero_mul, Nat.zero_add, pow_zero, Nat.mul_one] at h

/-- A tiny value does not overflow. -/
theorem tinyValue_eq_false_of_overflow {single n : Bool} {mode : RMode} {k X mag : Nat} {r : Rounded} (h : RoundsAt single mode n k X mag r)
    (hov : (targetFmt single).infMag ≤ (targetFmt single).packMag r) : tinyValue single k (signedNat n X) = false := by
  have hbit := Bool.toNat_le r.up
  have hmin : 2^(targetFmt single).fb < (targetFmt single).infMag := by cases single <;> decide
  have hle := (Nat.mul_le_mul_right (2^targetShift single * k)
    ((targetFmt single).units_strictMono.monotone (show 2^(targetFmt single).fb ≤ mag by rw [h.pack] at hov; omega))).trans h.encloses.le
  rw [units_two_pow_fb, ← Nat.mul_assoc, ← Nat.pow_add] at hle
  have hpow : (if single then (2 : Int)^948 else 2^52) = ((2^((targetFmt single).fb + targetShift single) : Nat) : Int) := by
    rw [natCast_two_pow]
    cases single <;> rfl
  rw [tinyValue, hpow, natAbs_signedNat, decide_eq_false_iff_not]
  exact fun h => absurd hle (by exact_mod_cast h.2.not_ge)

section
variable {single flip : Bool} {fpscr : Word} {x : Int} {k : Nat} {c : Calc}

/-- OX, UX and XX as the statements put them. -/
theorem deliver_flags (hk : 0 < k) (h : c.Represents x k) :
    ibit (deliver (targetFmt single) fpscr flip none c).exc 3 = overflows (ibm fpscr 30 2) single k x ∧
    ibit (deliver (targetFmt single) fpscr flip none c).exc 4 =
      (tinyValue single k x && (ibit fpscr 26 || (deliver (targetFmt single) fpscr flip none c).fi)) ∧
    ibit (deliver (targetFmt single) fpscr flip none c).exc 6 = (deliver (targetFmt single) fpscr flip none c).fi := by
  cases c with
  | invalid => exact h.elim
  | inf => exact h.elim
  | zero =>
    obtain rfl : x = 0 := h
    have hc : 0 < 2^targetShift single * k := by positivity
    have henc := encloses_zero (targetFmt single) hc
    have hov : overflows (ibm fpscr 30 2) single k (signedNat false 0) = false := by
      have hpos : 0 < (targetFmt single).infMag := by cases single <;> decide
      rw [Bool.eq_false_iff, ne_eq, overflows_iff _ false hk henc, henc.roundsUp_of_eq _ _ (by
        rw [Fmt.units_of_lt (Nat.two_pow_pos _), Nat.zero_mul])]
      exact hpos.not_ge
    exact ⟨(ibit_zero_word 3).trans hov.symm, ibit_zero_word 4, ibit_zero_word 6⟩
  | fin n m e =>
    obtain ⟨hm, X, rfl, hst⟩ := h
    obtain ⟨mag, hr⟩ := exists_roundsAt single (rmodeOf (ibm fpscr 30 2)) n hm hk hst
    obtain ⟨hox, hux, hxx⟩ := deliverFin_flags (targetFmt single) fpscr flip n m e
    have hov : overflows (ibm fpscr 30 2) single k (signedNat n X) = decide ((targetFmt single).infMag ≤
        (targetFmt single).packMag (roundFmt (targetFmt single) (rmodeOf (ibm fpscr 30 2)) n m e)) := by
      rw [Bool.eq_iff_iff, overflows_iff _ n hk hr.encloses, hr.pack, hr.up, decide_eq_true_iff]
    refine ⟨hox.trans hov.symm, hux.trans ?_, hxx⟩
    rw [tiny_eq_tinyValue single n hm hk hst]
    by_cases hle : (targetFmt single).infMag ≤ (targetFmt single).packMag (roundFmt (targetFmt single) (rmodeOf (ibm fpscr 30 2)) n m e)
    · rw [tinyValue_eq_false_of_overflow hr hle, Bool.false_and, Bool.false_and, Bool.and_false]
    · rw [decide_eq_false hle]
      rfl

/-! ## The rounded value -/

/-- A result is the rounded value of x / k, and FI and FR say how it differs: if it is finite. -/
def FpRes.RoundedOf (r : FpRes) (rn : BitVec 2) (single flip : Bool) (k : Nat) (x : Int) : Prop :=
  (∃ n c, r.value = some (BitVec.ofNat 64 (f64.image n f64.infMag), c)) ∨
    ∃ n mag, r.Delivers single (n != flip) mag ∧ mag < (targetFmt single).infMag ∧
      RoundsTo rn single k x (signedNat n ((targetFmt single).units mag * 2^targetShift single)) ∧
      r.fi = decide ((targetFmt single).units mag * (2^targetShift single * k) ≠ x.natAbs) ∧
      r.fr = decide (x.natAbs < (targetFmt single).units mag * (2^targetShift single * k)) ∧
      signedNat n x.natAbs = x

/-- FI and FR of a rounded value. -/
theorem RoundsAt.fi_fr {mode : RMode} {n : Bool} {X mag : Nat} {r : Rounded} (h : RoundsAt single mode n k X mag r) :
    r.inexact = decide ((targetFmt single).units (mag + r.up.toNat) * (2^targetShift single * k) ≠ X) ∧
    r.up = decide (X < (targetFmt single).units (mag + r.up.toNat) * (2^targetShift single * k)) := by
  have hle := h.encloses.le
  have hlt := h.encloses.lt
  rw [h.inexact]
  cases hup : r.up with
  | false =>
    refine ⟨?_, (decide_eq_false hle.not_gt).symm⟩
    rw [decide_eq_decide]
    exact ne_comm
  | true =>
    refine ⟨?_, (decide_eq_true hlt).symm⟩
    have hne : X ≠ (targetFmt single).units mag * (2^targetShift single * k) := fun he => by
      rw [h.up, h.encloses.roundsUp_of_eq mode n he] at hup
      exact Bool.false_ne_true hup
    rw [decide_eq_true hne]
    exact (decide_eq_true hlt.ne').symm

/-- Directions that take an overflow to the greatest number take no value up. -/
theorem roundsUp_eq_false_of_overflowMag {f : Fmt} {mode : RMode} {n : Bool} (h : f.overflowMag mode n ≠ f.infMag) (c X mag : Nat) :
    f.roundsUp mode n c X mag = false := by
  cases mode with
  | nearest => exact absurd rfl h
  | zero => rfl
  | up =>
    cases n with
    | false => exact absurd rfl h
    | true => exact Bool.and_false _
  | down =>
    cases n with
    | false => exact Bool.and_false _
    | true => exact absurd rfl h

/-- From the infinity on, such directions round to the greatest number. -/
theorem roundsTo_greatest (rn : BitVec 2) {n : Bool} {X : Nat} (hk : 0 < k)
    (ho : (targetFmt single).overflowMag (rmodeOf rn) n ≠ (targetFmt single).infMag)
    (hX : (targetFmt single).units ((targetFmt single).infMag - 1) * (2^targetShift single * k) ≤ X) :
    RoundsTo rn single k (signedNat n X)
      (signedNat n ((targetFmt single).units ((targetFmt single).infMag - 1) * 2^targetShift single)) := by
  have hb : Brackets single n false k ((targetFmt single).units ((targetFmt single).infMag - 1) * 2^targetShift single * k) (X + 1) X
      (signedNat n X) (signedNat n ((targetFmt single).units ((targetFmt single).infMag - 1) * 2^targetShift single)) :=
    { le := by rwa [Nat.mul_assoc]
      lt := Nat.lt_succ_self X
      value := rfl
      result := (signedNat_mul n _ k).symm
      gap := fun c hc => by
        obtain ⟨mag, hlt, hc⟩ := lt_infMag_of_targets single hc
        rw [Int.natAbs_mul, Int.natAbs_natCast, hc]
        exact .inl (Nat.mul_le_mul_right _ (Nat.mul_le_mul_right _
          ((targetFmt single).units_strictMono.monotone (Nat.le_sub_one_of_lt hlt))))
      mono := fun c d h => Int.mul_lt_mul_of_pos_right h (by exact_mod_cast hk) }
  obtain rfl | rfl | rfl | rfl := rn_cases rn
  · exact absurd rfl ho
  · exact hb.roundsTo_zero rfl
  · cases n with
    | false => exact absurd rfl ho
    | true => exact hb.roundsTo_up (Bool.and_false _).symm
  · cases n with
    | false => exact hb.roundsTo_down (Bool.and_false _).symm
    | true => exact absurd rfl ho

/-- The greatest number as a rounded value; the infinity as one. -/
theorem overflowed_target (single : Bool) : (targetFmt single).packMag (overflowed (targetFmt single) false) = (targetFmt single).infMag - 1 ∧
    (targetFmt single).qmin ≤ (overflowed (targetFmt single) false).q ∧
    (targetFmt single).infMag ≤ (targetFmt single).packMag (overflowed (targetFmt single) true) := by
  cases single <;> decide

theorem rounded_of_le {f : Fmt} {w : Rounded} (n : Bool) (h : f.infMag ≤ f.packMag w) :
    rounded f n w = (BitVec.ofNat 64 (f64.image n f64.infMag), classInf n) := if_pos h

/-- A finite exact result, with OE = UE = 0. -/
theorem deliverFin_roundedOf {n : Bool} {m X : Nat} {e : Int} (hk : 0 < k) (hoe : ibit fpscr 25 = false) (hue : ibit fpscr 26 = false)
    (hm : m ≠ 0) (h : StandsFor m e ((X : ℝ) / (2^1074 * k))) :
    (deliverFin (targetFmt single) fpscr flip none n m e).RoundedOf (ibm fpscr 30 2) single flip k (signedNat n X) := by
  obtain ⟨mag, hr⟩ := exists_roundsAt single (rmodeOf (ibm fpscr 30 2)) n hm hk h
  rcases Nat.lt_or_ge ((targetFmt single).packMag (roundFmt (targetFmt single) (rmodeOf (ibm fpscr 30 2)) n m e)) (targetFmt single).infMag
    with hlt | hge
  · obtain ⟨hfr, hfi, hv⟩ := deliverFin_of_lt flip n m e (by rw [hue, Bool.and_false]) hlt
    obtain ⟨hfi', hfr'⟩ := hr.fi_fr
    refine .inr ⟨n, _, delivers_of_rounded hv hr.pack (hr.pack ▸ hlt) hr.grid hr.units, hr.pack ▸ hlt, ?_, ?_, ?_, by rw [natAbs_signedNat]⟩
    · rw [hr.up]
      exact roundsTo_of_encloses _ single n hk hr.encloses
    · rw [hfi, hfi', natAbs_signedNat]
    · rw [hfr, natAbs_signedNat]
      exact hfr'
  · obtain ⟨hfr, hfi, hv⟩ := deliverFin_of_le flip n m e hoe hge
    obtain ⟨hgreat, hgrid, hinf⟩ := overflowed_target single
    by_cases ho : (targetFmt single).overflowMag (rmodeOf (ibm fpscr 30 2)) n = (targetFmt single).infMag
    · rw [decide_eq_true ho, rounded_of_le _ hinf] at hv
      exact .inl ⟨_, _, hv⟩
    · rw [decide_eq_false ho] at hv hfr
      have hmag : (targetFmt single).infMag ≤ mag := by
        rwa [hr.pack, hr.up, roundsUp_eq_false_of_overflowMag ho] at hge
      have hX := (Nat.mul_le_mul_right (2^targetShift single * k) ((targetFmt single).units_strictMono.monotone hmag)).trans hr.encloses.le
      have hlt : (targetFmt single).units ((targetFmt single).infMag - 1) * (2^targetShift single * k) < X :=
        (Nat.mul_lt_mul_of_pos_right ((targetFmt single).units_strictMono (by cases single <;> decide)) (by positivity)).trans_le hX
      refine .inr ⟨n, (targetFmt single).infMag - 1, delivers_of_rounded hv hgreat (by cases single <;> decide) hgrid ?_,
        by cases single <;> decide, roundsTo_greatest _ hk ho hlt.le, ?_, ?_, by rw [natAbs_signedNat]⟩
      · rw [← hgreat]
        exact Fmt.units_pack (.inr (by cases single <;> decide)) (by cases single <;> decide)
      · rw [hfi, natAbs_signedNat, decide_eq_true hlt.ne]
      · rw [hfr, natAbs_signedNat, decide_eq_false hlt.not_gt]

/-- The zero of a format. -/
theorem delivers_zero (n : Bool) {r : FpRes} (hr : r.value = some (rounded (targetFmt single) n (targetFmt single).zero)) :
    r.Delivers single n 0 := by
  have h0 : (targetFmt single).units 0 = 0 := Fmt.units_of_lt (Nat.two_pow_pos _)
  refine delivers_of_rounded hr ?_ (by cases single <;> decide) le_rfl (h0.trans (Nat.zero_mul _).symm)
  rw [Fmt.packMag, Fmt.zero, sub_self]
  exact Nat.zero_mul _

/-- A result whose exact value is finite, with OE = UE = 0. -/
theorem deliver_roundedOf (hk : 0 < k) (hoe : ibit fpscr 25 = false) (hue : ibit fpscr 26 = false) (h : c.Represents x k) :
    (deliver (targetFmt single) fpscr flip none c).RoundedOf (ibm fpscr 30 2) single flip k x := by
  cases c with
  | invalid => exact h.elim
  | inf => exact h.elim
  | zero n =>
    obtain rfl : x = 0 := h
    have h0 : (targetFmt single).units 0 = 0 := Fmt.units_of_lt (Nat.two_pow_pos _)
    have henc := encloses_zero (targetFmt single) (show 0 < 2^targetShift single * k by positivity)
    have hround := roundsTo_of_encloses (ibm fpscr 30 2) single n hk henc
    rw [henc.roundsUp_of_eq _ _ (by rw [h0, Nat.zero_mul]), signedNat_zero] at hround
    refine .inr ⟨n, 0, delivers_zero _ ?_, by cases single <;> decide, hround, ?_, ?_, signedNat_zero n⟩
    · change some (rounded _ ((n != flip) != false) _) = _
      rw [Bool.bne_false]
      rfl
    · rw [h0, Nat.zero_mul]
      rfl
    · rw [h0, Nat.zero_mul]
      rfl
  | fin n m e =>
    obtain ⟨hm, X, rfl, hst⟩ := h
    exact deliverFin_roundedOf hk hoe hue hm hst

end

end Sys2Proof.Machine
end

section
/-! The exact results of the operations on finite operands (43_ppe_float R855 to R862, R865 to R872, R880, R885). -/

namespace Sys2Proof.Machine

open Sys2Proof.Safety

/-! ## Numbers in a unit -/

/-- The operand is the number x / 2^g. -/
def Num.Measures (x : Int) (g : Nat) : Num → Prop
  | .nan => False
  | .inf _ => False
  | .zero _ => x = 0
  | .fin n m e => m ≠ 0 ∧ -(g : Int) ≤ e ∧ x = signedNat n (m * 2^(e + g).toNat)

theorem num_measures {w : DWord} (h : finiteDouble w) : (num w).Measures (Safety.scaled w) 1074 := by
  obtain ⟨n, hn⟩ | ⟨n, m, e, hn⟩ := num_of_finite h
  · rw [hn]
    exact scaled_of_zero hn
  · rw [hn]
    exact scaled_of_fin hn

theorem signedNat_decide (t : Int) : signedNat (decide (t < 0)) t.natAbs = t := by
  unfold signedNat
  split
  · next h =>
    rw [decide_eq_true_iff] at h
    omega
  · next h =>
    rw [decide_eq_true_iff] at h
    omega

theorem signedNat_not (n : Bool) (m : Nat) : signedNat (!n) m = -signedNat n m := by
  cases n <;> simp [signedNat]

theorem signedNat_bne (a b : Bool) (m k : Nat) : signedNat (a != b) (m * k) = signedNat a m * signedNat b k := by
  cases a <;> cases b <;> simp [signedNat]

section
variable {a b c : Num} {x y z : Int} {g h : Nat} {mode : RMode}

theorem Num.Measures.neg (ha : a.Measures x g) : a.neg.Measures (-x) g := by
  cases a with
  | nan => exact ha
  | inf => exact ha
  | zero n => exact neg_eq_zero.mpr ha
  | fin n m e =>
    obtain ⟨hm, he, rfl⟩ := ha
    exact ⟨hm, he, (signedNat_not n _).symm⟩

/-- In a finer unit. -/
theorem Num.Measures.finer (ha : a.Measures x g) (k : Nat) : a.Measures (x * 2^k) (g + k) := by
  cases a with
  | nan => exact ha
  | inf => exact ha
  | zero n => exact mul_eq_zero_of_left ha _
  | fin n m e =>
    obtain ⟨hm, he, rfl⟩ := ha
    refine ⟨hm, by omega, ?_⟩
    rw [← natCast_two_pow, ← signedNat_mul, Nat.mul_assoc, ← Nat.pow_add]
    congr 3
    omega

theorem addFin_measures {n1 n2 : Bool} {m1 m2 : Nat} {e1 e2 : Int} (ha : (Num.fin n1 m1 e1).Measures x g)
    (hb : (Num.fin n2 m2 e2).Measures y g) : (addFin mode n1 m1 e1 n2 m2 e2).toNum.Measures (x + y) g := by
  obtain ⟨-, he1, rfl⟩ := ha
  obtain ⟨-, he2, rfl⟩ := hb
  obtain ⟨e, he⟩ : ∃ e, e = min e1 e2 := ⟨_, rfl⟩
  have hunit {e' : Int} {m : Nat} (n : Bool) (hee : e ≤ e') : signedNat n (m * 2^(e' + g).toNat) =
      signedNat n (m * 2^(e' - e).toNat) * (2^(e + g).toNat : Nat) := by
    rw [← signedNat_mul, Nat.mul_assoc, ← Nat.pow_add]
    congr 3
    omega
  rw [hunit n1 (by omega), hunit n2 (by omega), ← add_mul]
  unfold addFin
  dsimp only
  rw [← he]
  generalize signedNat n1 (m1 * 2^(e1 - e).toNat) + signedNat n2 (m2 * 2^(e2 - e).toNat) = t
  split
  · next ht =>
    rw [ht]
    exact zero_mul _
  · next ht => exact ⟨Int.natAbs_ne_zero.mpr ht, by omega, by rw [signedNat_mul, signedNat_decide]⟩

theorem addNum_measures (ha : a.Measures x g) (hb : b.Measures y g) : (addNum mode a b).toNum.Measures (x + y) g := by
  cases a with
  | nan => exact ha.elim
  | inf => exact ha.elim
  | zero n =>
    obtain rfl : x = 0 := ha
    rw [zero_add]
    cases b with
    | nan => exact hb.elim
    | inf => exact hb.elim
    | zero => exact hb
    | fin => exact hb
  | fin n m e =>
    cases b with
    | nan => exact hb.elim
    | inf => exact hb.elim
    | zero =>
      obtain rfl : y = 0 := hb
      rw [add_zero]
      exact ha
    | fin => exact addFin_measures ha hb

theorem mulNum_measures (ha : a.Measures x g) (hb : b.Measures y h) : (mulNum a b).toNum.Measures (x * y) (g + h) := by
  cases a with
  | nan => exact ha.elim
  | inf => exact ha.elim
  | zero n =>
    have hxy : x * y = 0 := mul_eq_zero_of_left ha y
    cases b with
    | nan => exact hb.elim
    | inf => exact hb.elim
    | zero => exact hxy
    | fin => exact hxy
  | fin n m e =>
    cases b with
    | nan => exact hb.elim
    | inf => exact hb.elim
    | zero => exact mul_eq_zero_of_right x hb
    | fin k m' e' =>
      obtain ⟨hm, he, rfl⟩ := ha
      obtain ⟨hm', he', rfl⟩ := hb
      refine ⟨mul_ne_zero hm hm', by omega, ?_⟩
      rw [← signedNat_bne, mul_mul_mul_comm, ← Nat.pow_add]
      congr 3
      omega

theorem fmaNum_measures (ha : a.Measures x g) (hc : c.Measures z h) (hb : b.Measures y (g + h)) :
    (fmaNum mode a c b).toNum.Measures (x * z + y) (g + h) := by
  have hp := mulNum_measures ha hc
  have hne : mulNum a c ≠ .invalid := fun hi => by
    rw [hi] at hp
    exact hp
  have hfma : fmaNum mode a c b = addNum mode (mulNum a c).toNum b := by
    unfold fmaNum
    split
    · next hi => exact absurd hi hne
    · rfl
  rw [hfma]
  exact addNum_measures hp hb

/-- A number in the unit 2^-(1074 + h) is x / 2^h in the units of the statements. -/
theorem represents_of_measures {c : Calc} (hc : c.toNum.Measures x (1074 + h)) : c.Represents x (2^h) := by
  cases c with
  | invalid => exact hc
  | inf => exact hc
  | zero => exact hc
  | fin n m e =>
    obtain ⟨hm, he, rfl⟩ := hc
    refine ⟨hm, _, rfl, .inl ?_⟩
    rw [eq_div_iff (by positivity), Nat.cast_mul, natCast_two_pow_toNat (by omega), mul_assoc, Nat.cast_pow, Nat.cast_ofNat, ← pow_add,
      ← zpow_natCast 2 (1074 + h), ← two_zpow_add]

end

/-! ## Quotients -/

/-- A truncated significand of 63 bits or more with a sticky bit stands for the value. -/
theorem standsFor_sticky {q : Nat} {v : ℝ} (p : Prop) [Decidable p] (e : Int) (hq : 2^63 ≤ q) (hle : (q : ℝ) ≤ v) (hlt : v < q + 1)
    (hp : p ↔ (q : ℝ) = v) : StandsFor (2 * q + if p then 0 else 1) (e - 1) (v * 2^e) := by
  have h2 : (2 : ℝ)^e = 2 * 2^(e - 1) := by
    rw [← zpow_one_add₀ two_ne_zero]
    congr 1
    omega
  have hw := two_zpow_pos (e - 1)
  by_cases hx : p
  · left
    rw [if_pos hx, ← hp.mp hx, h2]
    push_cast
    ring
  · right
    have hlt' := lt_of_le_of_ne hle fun h => hx (hp.mpr h)
    refine ⟨q, by rw [if_neg hx], by rw [if_neg hx]; omega, ?_, ?_⟩
    · rw [h2, ← mul_assoc]
      exact mul_lt_mul_of_pos_right (by linarith) hw
    · rw [h2, ← mul_assoc]
      exact mul_lt_mul_of_pos_right (by linarith) hw

theorem natCast_div_mod {a b : Nat} (hb : b ≠ 0) : ((a / b : Nat) : ℝ) ≤ (a : ℝ) / b ∧ (a : ℝ) / b < (a / b : Nat) + 1 ∧
    (a % b = 0 ↔ ((a / b : Nat) : ℝ) = (a : ℝ) / b) := by
  have hb' : (0 : ℝ) < b := by exact_mod_cast Nat.pos_of_ne_zero hb
  have hdm := Nat.div_add_mod a b
  refine ⟨Nat.cast_div_le, ?_, ?_⟩
  · rw [div_lt_iff₀ hb']
    exact_mod_cast (Nat.div_lt_iff_lt_mul (Nat.pos_of_ne_zero hb)).mp (Nat.lt_succ_self _)
  · rw [eq_div_iff hb'.ne']
    norm_cast
    rw [mul_comm]
    omega

theorem two_pow_le_quotient {m1 m2 : Nat} (h1 : m1 ≠ 0) (h2 : m2 ≠ 0) : 2^63 ≤ m1 * 2^(128 + m2.log2) / m2 := by
  rw [Nat.le_div_iff_mul_le (Nat.pos_of_ne_zero h2)]
  calc 2^63 * m2 ≤ 2^127 * 2^(m2.log2 + 1) := Nat.mul_le_mul (by decide) Nat.lt_log2_self.le
    _ = 2^(128 + m2.log2) := by rw [← Nat.pow_add]; congr 1; omega
    _ ≤ _ := Nat.le_mul_of_pos_left _ (Nat.pos_of_ne_zero h1)

/-- A quotient with its sticky bit stands for the exact one. -/
theorem divFin_standsFor {m1 m2 : Nat} (e : Int) (h1 : m1 ≠ 0) (h2 : m2 ≠ 0) :
    StandsFor (2 * (m1 * 2^(128 + m2.log2) / m2) + (if m1 * 2^(128 + m2.log2) % m2 = 0 then 0 else 1)) (e - (128 + m2.log2 : Nat) - 1)
      ((m1 : ℝ) / m2 * 2^e) := by
  obtain ⟨hle, hlt, hex⟩ := natCast_div_mod (a := m1 * 2^(128 + m2.log2)) h2
  have hv : (m1 : ℝ) / m2 * 2^e = ((m1 * 2^(128 + m2.log2) : Nat) : ℝ) / m2 * 2^(e - (128 + m2.log2 : Nat)) := by
    rw [Nat.cast_mul, Nat.cast_pow, Nat.cast_ofNat, ← zpow_natCast, div_mul_eq_mul_div, div_mul_eq_mul_div, mul_assoc, ← two_zpow_add]
    congr 3
    omega
  rw [hv]
  exact standsFor_sticky _ _ (two_pow_le_quotient h1 h2) hle hlt hex

/-- A quotient of finite numbers. -/
theorem divNum_represents {a b : Num} {x y : Int} (ha : a.Measures x 1074) (hb : b.Measures y 1074) (hy : y ≠ 0) :
    (divNum a b).Represents (y.sign * x * 2^1074) y.natAbs := by
  cases a with
  | nan => exact ha.elim
  | inf => exact ha.elim
  | zero n =>
    obtain rfl : x = 0 := ha
    have hxy : y.sign * 0 * 2^1074 = 0 := by rw [mul_zero, zero_mul]
    cases b with
    | nan => exact hb.elim
    | inf => exact hb.elim
    | zero => exact absurd hb hy
    | fin => exact hxy
  | fin n m e =>
    cases b with
    | nan => exact hb.elim
    | inf => exact hb.elim
    | zero => exact absurd hb hy
    | fin n' m' e' =>
      obtain ⟨hm, he, rfl⟩ := ha
      obtain ⟨hm', he', rfl⟩ := hb
      have hpos := Nat.pos_of_ne_zero hm'
      have hsign : (signedNat n' (m' * 2^(e' + (1074 : Nat)).toNat)).sign = signedNat n' 1 := by
        have hp : 0 < m' * 2^(e' + (1074 : Nat)).toNat := by positivity
        cases n' with
        | false => exact Int.sign_eq_one_of_pos (Nat.cast_pos.mpr hp)
        | true => exact Int.sign_eq_neg_one_of_neg (neg_lt_zero.mpr (Nat.cast_pos.mpr hp))
      have hne := two_pow_le_quotient hm hm'
      refine ⟨by omega, m * 2^(e + (1074 : Nat)).toNat * 2^1074, ?_, ?_⟩
      · rw [hsign, ← signedNat_bne, one_mul, signedNat_mul _ _ (2^1074), natCast_two_pow 1074, bne_comm]
      · have hval : ((m * 2^(e + (1074 : Nat)).toNat * 2^1074 : Nat) : ℝ) / (2^1074 * (m' * 2^(e' + (1074 : Nat)).toNat : Nat)) =
            (m : ℝ) / m' * 2^(e - e') := by
          have hm0 : (m' : ℝ) ≠ 0 := by exact_mod_cast hm'
          have hw := (two_zpow_pos e').ne'
          rw [Nat.cast_mul, Nat.cast_mul, Nat.cast_mul, natCast_two_pow_toNat (by omega), natCast_two_pow_toNat (by omega), two_zpow_add,
            two_zpow_add, zpow_sub₀ two_ne_zero, zpow_natCast, Nat.cast_pow, Nat.cast_ofNat]
          field_simp
        rw [natAbs_signedNat, hval]
        exact divFin_standsFor (e - e') hm hm'

end Sys2Proof.Machine
end

section
/-! The instructions whose result is their exact result rounded once (43_ppe_float R843, R855 to R862, R865 to R872, R880, R885). -/

namespace Sys2Proof.Machine

open Sys2Proof.Safety

/-! ## Operands of single format -/

/-- A value that single format holds is not changed by rounding to it. -/
theorem fitsSingle_of_isSingle {w : DWord} (h : isSingle w) : fitsSingle w = true := by
  obtain ⟨hfin, v, hv, hs⟩ := h
  obtain ⟨n, hn⟩ | ⟨n, m, e, hn⟩ := num_of_finite hfin
  · rw [fitsSingle, show unpack f64 w.toNat = .zero n from hn]
  · rw [fitsSingle, show unpack f64 w.toNat = .fin n m e from hn]
    obtain ⟨hm, he, hw⟩ := scaled_of_fin hn
    have hX : m * 2^(e + 1074).toNat = f32.units (v.toNat % 2^31) * 2^925 := by
      rw [hw, scaledSingle_eq_units] at hs
      have := congrArg Int.natAbs hs
      rw [natAbs_signedNat, natAbs_signedNat] at this
      exact this.symm
    obtain ⟨mag, henc, hpack, hinex⟩ := packMag_roundFmt f32 .zero n (sh := 925) hm (by decide)
      (show -149 - ((925 : Nat) : Int) ≤ e by omega)
    rw [show e - f32.qmin + (925 : Nat) = e + 1074 by rw [show f32.qmin = -149 from rfl]; omega] at henc hpack hinex
    rw [hX] at henc hpack hinex
    have hc : 0 < 2^925 := Nat.two_pow_pos _
    obtain rfl : mag = v.toNat % 2^31 := le_antisymm
      (f32.units_strictMono.le_iff_le.mp (Nat.le_of_mul_le_mul_right henc.le hc))
      (Nat.le_of_lt_succ (f32.units_strictMono.lt_iff_lt.mp (Nat.lt_of_mul_lt_mul_right henc.lt)))
    rw [henc.roundsUp_of_eq _ _ rfl] at hpack
    have hlt := (finiteSingle_iff v).mp hv
    simp only [hinex, hpack]
    simpa using hlt

/-- An operand of an instruction of single or of double format. -/
def FloatOperand (single : Bool) (w : DWord) : Prop := if single then isSingle w else finiteDouble w

theorem FloatOperand.finite {single : Bool} {w : DWord} (h : FloatOperand single w) : finiteDouble w := by
  cases single with
  | false => exact h
  | true => exact h.1

theorem notNan_of_finite {w : DWord} (h : finiteDouble w) : isNan f64 w.toNat = false := by
  rw [isNan_f64, decide_eq_false_iff_not, not_lt]
  exact ((finiteDouble_iff w).mp h).le

/-- Operands that an instruction of the format takes as they are. -/
theorem operands_fit {single : Bool} {ops : List DWord} (h : ∀ o ∈ ops, FloatOperand single o) :
    ¬(targetFmt single = f32 ∧ (ops.any fun w => !fitsSingle w) = true) := by
  rintro ⟨hs, hany⟩
  obtain ⟨o, ho, hfit⟩ := List.any_eq_true.mp hany
  cases single with
  | false => exact absurd hs (by decide)
  | true => simp [fitsSingle_of_isSingle (h o ho)] at hfit

/-! ## The operations -/

/-- A result is what `deliver` makes of an exact result x / k. -/
def FpRes.OfExact (r : FpRes) (single flip : Bool) (fpscr : Word) (k : Nat) (x : Int) : Prop :=
  ∃ c : Calc, c.Represents x k ∧ r = deliver (targetFmt single) fpscr flip none c

section
variable {single sub flip : Bool} {fpscr : Word} {a b c : DWord}

theorem num_ne_inf (h : finiteDouble a) (p : Bool) : num a ≠ .inf p := fun hi => by
  have := num_measures h
  rw [hi] at this
  exact this

theorem ofExact_fpResult {ops : List DWord} {vx : Word} {r : Calc} {k : Nat} {x : Int} (hops : ∀ o ∈ ops, finiteDouble o)
    (hvx : vx = 0) (hr : r.Represents x k) :
    (fpResult (targetFmt single) fpscr flip none ops vx r).OfExact single flip fpscr k x :=
  ⟨r, hr, fpResult_of_noNan (List.any_eq_false.mpr fun o ho h => by rw [notNan_of_finite (hops o ho)] at h; exact Bool.false_ne_true h) hvx⟩

/-- An addend of a sum or of a difference. -/
theorem addend_measures (hb : finiteDouble b) :
    (if sub then (num b).neg else num b).Measures (if sub then -Safety.scaled b else Safety.scaled b) 1074 := by
  cases sub with
  | false => exact num_measures hb
  | true => exact (num_measures hb).neg

theorem addRes_ofExact (ha : finiteDouble a) (hb : finiteDouble b) : (addRes (targetFmt single) sub a b fpscr).OfExact single false fpscr 1
    (Safety.scaled a + if sub then -Safety.scaled b else Safety.scaled b) := by
  refine ofExact_fpResult (by simp [ha, hb]) ?_ (represents_of_measures (h := 0) (addNum_measures (num_measures ha) (addend_measures hb)))
  split
  · next hx hy => exact absurd hx (num_ne_inf ha _)
  · rfl

theorem vxMul_of_finite (ha : finiteDouble a) (hc : finiteDouble c) : vxMul (num a) (num c) = 0 := by
  have hna := num_ne_inf ha
  have hnc := num_ne_inf hc
  unfold vxMul
  split
  · next hx _ => exact absurd hx (hna _)
  · next hx => exact absurd hx (hnc _)
  · rfl

theorem mulRes_ofExact (ha : finiteDouble a) (hc : finiteDouble c) :
    (mulRes (targetFmt single) a c fpscr).OfExact single false fpscr (2^1074) (Safety.scaled a * Safety.scaled c) :=
  ofExact_fpResult (by simp [ha, hc]) (vxMul_of_finite ha hc) (represents_of_measures (mulNum_measures (num_measures ha) (num_measures hc)))

theorem fmaRes_ofExact (ha : finiteDouble a) (hb : finiteDouble b) (hc : finiteDouble c) :
    (fmaRes (targetFmt single) sub flip a b c fpscr).OfExact single flip fpscr (2^1074)
      (Safety.scaled a * Safety.scaled c + (if sub then -Safety.scaled b else Safety.scaled b) * 2^1074) := by
  refine ofExact_fpResult (by simp [ha, hb, hc]) ?_
    (represents_of_measures (fmaNum_measures (num_measures ha) (num_measures hc) ((addend_measures hb).finer 1074)))
  have hp := mulNum_measures (num_measures ha) (num_measures hc)
  rw [vxMul_of_finite ha hc]
  split
  · next hx _ =>
    rw [hx] at hp
    exact hp.elim
  · rfl

theorem divRes_ofExact (ha : finiteDouble a) (hb : finiteDouble b) (h0 : Safety.scaled b ≠ 0) :
    (divRes (targetFmt single) a b fpscr none).OfExact single false fpscr (Safety.scaled b).natAbs
      ((Safety.scaled b).sign * Safety.scaled a * 2^1074) := by
  have hq := divNum_represents (num_measures ha) (num_measures hb) h0
  have hops : ∀ o ∈ [a, b], finiteDouble o := by simp [ha, hb]
  unfold divRes
  obtain ⟨n, hy⟩ | ⟨n, m, e, hy⟩ := num_of_finite hb
  · exact absurd (scaled_of_zero hy) h0
  · obtain ⟨p, hx⟩ | ⟨p, m', e', hx⟩ := num_of_finite ha
    · rw [hx, hy] at hq ⊢
      exact ofExact_fpResult hops rfl hq
    · rw [hx, hy] at hq ⊢
      exact ofExact_fpResult hops rfl hq

theorem fcfid_ofExact (i : Int) : (deliver f64 fpscr false none
    (if i = 0 then .zero false else .fin (decide (i < 0)) i.natAbs 0)).OfExact false false fpscr 1 (i * 2^1074) := by
  refine ⟨_, ?_, rfl⟩
  split
  · next h0 =>
    rw [h0]
    exact zero_mul _
  · next h0 =>
    refine represents_of_measures (h := 0) ⟨Int.natAbs_ne_zero.mpr h0, by decide, ?_⟩
    rw [signedNat_mul, signedNat_decide]
    exact congrArg _ (natCast_two_pow 1074).symm

end

/-! ## The instructions -/

/-- An instruction delivers its exact result x / k, rounded. -/
def RoundedOutcome (i : Instr) (s : State) (frt : BitVec 5) (single flip : Bool) (k x : Int) : Prop :=
  ∃ (d : Nat) (rec : Bool) (f : Thread → Thread) (r : FpRes), Machine.exec i s = fpEnd (s.drew 0) f ∧
    f s.thr = (r.apply frt s.thr).recordCr1 rec ∧ 0 < d ∧ (d : Int) = k ∧ r.OfExact single flip s.thr.fpscr d x

section
variable {i : Instr} {s : State} {frt : BitVec 5} {rec single flip : Bool} {k x : Int} {d : Nat}

theorem roundedOutcome_of_fpArith {ops : List DWord} {res : Word → FpRes} (hfp : ibit s.thr.msr 50 = true)
    (he : Machine.exec i s = fpArith s (targetFmt single) frt rec ops res) (hops : ∀ o ∈ ops, FloatOperand single o)
    (hd : 0 < d) (hk : (d : Int) = k) (hr : (res s.thr.fpscr).OfExact single flip s.thr.fpscr d x) :
    RoundedOutcome i s frt single flip k x := by
  replace he := he.trans (fpGuard_of_fp hfp)
  rw [if_neg (operands_fit hops)] at he
  exact ⟨d, rec, _, _, he, rfl, hd, hk, hr⟩

theorem roundedOutcome_of_fpArithNi {ops : List DWord} {res : Word → Option (Nat × Nat) → FpRes} (hfp : ibit s.thr.msr 50 = true)
    (he : Machine.exec i s = fpArithNi s (targetFmt single) frt rec ops res) (hni : ibit s.thr.fpscr 29 = false)
    (hops : ∀ o ∈ ops, FloatOperand single o) (hd : 0 < d) (hk : (d : Int) = k)
    (hr : (res s.thr.fpscr none).OfExact single flip s.thr.fpscr d x) : RoundedOutcome i s frt single flip k x :=
  roundedOutcome_of_fpArith (res := fun f => res f none) hfp
    (he.trans (if_neg (by rw [Thread.fpNi, hni]; exact Bool.false_ne_true))) hops hd hk hr

theorem two_pow_1074 : 0 < 2^1074 ∧ ((2^1074 : Nat) : Int) = 2^1074 := ⟨Nat.two_pow_pos _, natCast_two_pow _⟩

theorem RoundedOutcome.sub_of_neg {x y z : Int} (h : RoundedOutcome i s frt single flip k (x + (if true then -y else y) * z)) :
    RoundedOutcome i s frt single flip k (x - y * z) := by
  rwa [if_pos rfl, neg_mul, ← sub_eq_add_neg] at h

section
variable (hfp : ibit s.thr.msr 50 = true)
include hfp

/-- `fadd`, `fsub`, `fadds`, `fsubs`. -/
theorem roundedOutcome_add {sub : Bool} {fra frb : BitVec 5} (he : Machine.exec i s = fpArith s (targetFmt single) frt rec
    [s.thr.getFpr fra, s.thr.getFpr frb] (addRes (targetFmt single) sub (s.thr.getFpr fra) (s.thr.getFpr frb)))
    (ha : FloatOperand single (s.thr.getFpr fra)) (hb : FloatOperand single (s.thr.getFpr frb)) :
    RoundedOutcome i s frt single false 1
      (Safety.scaled (s.thr.getFpr fra) + if sub then -Safety.scaled (s.thr.getFpr frb) else Safety.scaled (s.thr.getFpr frb)) :=
  roundedOutcome_of_fpArith hfp he (by simp [ha, hb]) one_pos rfl (addRes_ofExact ha.finite hb.finite)

/-- `fmul`, `fmuls`. -/
theorem roundedOutcome_mul {fra frc : BitVec 5} (he : Machine.exec i s = fpArith s (targetFmt single) frt rec
    [s.thr.getFpr fra, s.thr.getFpr frc] (mulRes (targetFmt single) (s.thr.getFpr fra) (s.thr.getFpr frc)))
    (ha : FloatOperand single (s.thr.getFpr fra)) (hc : FloatOperand single (s.thr.getFpr frc)) :
    RoundedOutcome i s frt single false (2^1074) (Safety.scaled (s.thr.getFpr fra) * Safety.scaled (s.thr.getFpr frc)) :=
  roundedOutcome_of_fpArith hfp he (by simp [ha, hc]) two_pow_1074.1 two_pow_1074.2 (mulRes_ofExact ha.finite hc.finite)

/-- The multiply-adds. -/
theorem roundedOutcome_fma {sub : Bool} {fra frb frc : BitVec 5} (he : Machine.exec i s = fpArith s (targetFmt single) frt rec
    [s.thr.getFpr fra, s.thr.getFpr frb, s.thr.getFpr frc]
    (fmaRes (targetFmt single) sub flip (s.thr.getFpr fra) (s.thr.getFpr frb) (s.thr.getFpr frc)))
    (hv : FloatOperand single (s.thr.getFpr fra) ∧ FloatOperand single (s.thr.getFpr frb) ∧ FloatOperand single (s.thr.getFpr frc)) :
    RoundedOutcome i s frt single flip (2^1074) (Safety.scaled (s.thr.getFpr fra) * Safety.scaled (s.thr.getFpr frc) +
      (if sub then -Safety.scaled (s.thr.getFpr frb) else Safety.scaled (s.thr.getFpr frb)) * 2^1074) := by
  obtain ⟨ha, hb, hc⟩ := hv
  exact roundedOutcome_of_fpArith hfp he (by simp [ha, hb, hc]) two_pow_1074.1 two_pow_1074.2 (fmaRes_ofExact ha.finite hb.finite hc.finite)

/-- `fdiv`, `fdivs`. -/
theorem roundedOutcome_div {fra frb : BitVec 5} (he : Machine.exec i s = fpArithNi s (targetFmt single) frt rec
    [s.thr.getFpr fra, s.thr.getFpr frb] (divRes (targetFmt single) (s.thr.getFpr fra) (s.thr.getFpr frb)))
    (hv : FloatOperand single (s.thr.getFpr fra) ∧ FloatOperand single (s.thr.getFpr frb) ∧ Safety.scaled (s.thr.getFpr frb) ≠ 0 ∧
      ibit s.thr.fpscr 29 = false) :
    RoundedOutcome i s frt single false (Safety.scaled (s.thr.getFpr frb)).natAbs
      ((Safety.scaled (s.thr.getFpr frb)).sign * Safety.scaled (s.thr.getFpr fra) * 2^1074) := by
  obtain ⟨ha, hb, h0, hni⟩ := hv
  exact roundedOutcome_of_fpArithNi hfp he hni (by simp [ha, hb]) (Int.natAbs_pos.mpr h0) rfl (divRes_ofExact ha.finite hb.finite h0)

/-- `frsp`. -/
theorem roundedOutcome_frsp {frb : BitVec 5} (hb : finiteDouble (s.thr.getFpr frb)) :
    RoundedOutcome (.ppeFrsp frt frb rec) s frt true false 1 (Safety.scaled (s.thr.getFpr frb)) := by
  have hm := num_measures hb
  refine ⟨1, rec, _, _, fpGuard_of_fp hfp, rfl, one_pos, rfl, ofExact_fpResult (single := true) (by simp [hb]) rfl ?_⟩
  refine represents_of_measures (h := 0) ?_
  cases hn : num (s.thr.getFpr frb) with rw [hn] at hm
  | nan => exact hm
  | inf n => exact hm
  | zero n => exact hm
  | fin n m e => exact hm

/-- `fcfid`. -/
theorem roundedOutcome_fcfid {frb : BitVec 5} :
    RoundedOutcome (.ppeFcfid frt frb rec) s frt false false 1 ((s.thr.getFpr frb).toInt * 2^1074) := by
  have he : Machine.exec (.ppeFcfid frt frb rec) s = execPpeFcfid frt frb rec s := rfl
  unfold execPpeFcfid at he
  exact roundedOutcome_of_fpArith (single := false) hfp he (by simp) one_pos rfl (fcfid_ofExact _)

/-- Every rounded operation. -/
theorem roundedOutcome_of_roundedOp {neg : Bool} {valid : Thread → Prop} {k x : Thread → Int}
    (h : RoundedOp i frt single neg valid k x) (hv : valid s.thr) : RoundedOutcome i s frt single neg (k s.thr) (x s.thr) := by
  cases h with
  | fadd => exact roundedOutcome_add (single := false) (sub := false) hfp rfl hv.1 hv.2
  | fadds => exact roundedOutcome_add (single := true) (sub := false) hfp rfl hv.1 hv.2
  | fsub => exact roundedOutcome_add (single := false) (sub := true) hfp rfl hv.1 hv.2
  | fsubs => exact roundedOutcome_add (single := true) (sub := true) hfp rfl hv.1 hv.2
  | fmul => exact roundedOutcome_mul (single := false) hfp rfl hv.1 hv.2
  | fmuls => exact roundedOutcome_mul (single := true) hfp rfl hv.1 hv.2
  | fmadd | fnmadd => exact roundedOutcome_fma (single := false) (sub := false) hfp rfl hv
  | fmadds | fnmadds => exact roundedOutcome_fma (single := true) (sub := false) hfp rfl hv
  | fmsub | fnmsub => exact (roundedOutcome_fma (single := false) (sub := true) hfp rfl hv).sub_of_neg
  | fmsubs | fnmsubs => exact (roundedOutcome_fma (single := true) (sub := true) hfp rfl hv).sub_of_neg
  | fdiv => exact roundedOutcome_div (single := false) hfp rfl hv
  | fdivs => exact roundedOutcome_div (single := true) hfp rfl hv
  | frsp => exact roundedOutcome_frsp hfp hv
  | fcfid => exact roundedOutcome_fcfid hfp

end

end

end Sys2Proof.Machine
end

section
/-! The settled statements on arithmetic: O24, and the rounding of O25. -/

namespace Sys2Proof.Machine

open Sys2Proof.Safety

/-! ## FPSCR of a rounded result -/

section
variable {r : FpRes}

theorem FpRes.RoundingOnly.ok (h : r.RoundingOnly) : r.Ok where
  exc b hb he := by
    have hsub : ∀ b ∈ [3, 4, 6], b ∈ floatExceptions := by decide
    exact hsub b (h.exc b hb he)
  clear b _ hc := by
    rw [h.clear, ibit_zero_word] at hc
    exact absurd hc (by decide)

theorem FpRes.RoundingOnly.exc_newFpscr (h : r.RoundingOnly) (f : Word) {b : Nat} (hb : b ∈ floatExceptions) :
    ibit (r.newFpscr f) b = (ibit f b || ibit r.exc b) := by
  have hall : ∀ b ∈ floatExceptions, b < 32 ∧ b ∉ [0, 1, 2, 13, 14, 15, 16, 17, 18, 19] := by decide
  rw [FpRes.ibit_newFpscr_raised f (hall b hb).1 (hall b hb).2, h.clear, ibit_zero_word, Bool.not_false, Bool.and_true]

/-- FPRF. -/
theorem FpRes.fprf_newFpscr (f : Word) {v : DWord} {c : BitVec 5} (h : r.value = some (v, c)) {j : Nat} (hj : j < 5) :
    ibit (r.newFpscr f) (15 + j) = ibit c j := by
  rw [← r.ibm_newFpscr f h, ibit_ibm _ hj (by decide)]

end

/-! ## O24 -/

section
variable {i : Instr} {s : State} {frt : BitVec 5} {single flip : Bool} {k x : Int}

/-- OX, UX and XX of a rounded result: the second part of O24. -/
theorem RoundedOutcome.flags (h : RoundedOutcome i s frt single flip k x) : ∃ w, FloatEnds i s w fun u =>
    ibit u.fpscr 3 = (ibit s.thr.fpscr 3 || overflows (ibm s.thr.fpscr 30 2) single k x) ∧
    ibit u.fpscr 4 = (ibit s.thr.fpscr 4 || (tinyValue single k x && (ibit s.thr.fpscr 26 || ibit u.fpscr 14))) ∧
    ibit u.fpscr 6 = (ibit s.thr.fpscr 6 || ibit u.fpscr 14) := by
  obtain ⟨d, rec, f, r, he, hf, hd, rfl, c, hc, rfl⟩ := h
  have hro := deliver_roundingOnly (targetFmt single) s.thr.fpscr flip none c
  obtain ⟨hox, hux, hxx⟩ := deliver_flags (single := single) (flip := flip) (fpscr := s.thr.fpscr) hd hc
  refine ⟨_, floatEnds_of_result 0 he hf hro.ok fun u hu _ _ => ?_⟩
  rw [hu, hro.ok.fi_newFpscr, hro.exc_newFpscr _ (by decide), hro.exc_newFpscr _ (by decide), hro.exc_newFpscr _ (by decide), hox, hux, hxx]
  exact ⟨rfl, rfl, rfl⟩

/-- The rounded result: the first part of O25. -/
theorem RoundedOutcome.rounds (h : RoundedOutcome i s frt single flip k x) (hoe : ibit s.thr.fpscr 25 = false)
    (hue : ibit s.thr.fpscr 26 = false) : ∃ w, FloatEnds i s w fun u => finiteDouble (u.getFpr frt) →
      let v := Safety.scaled (u.getFpr frt)
      let r := if flip then -v else v
      let y := r * k
      targets single r ∧ RoundsTo (ibm s.thr.fpscr 30 2) single k x r ∧
      ibit u.fpscr 14 = decide (y ≠ x) ∧ ibit u.fpscr 13 = decide (x.natAbs < y.natAbs) ∧
      ibit u.fpscr 6 = (ibit s.thr.fpscr 6 || ibit u.fpscr 14) ∧
      ibit u.fpscr 16 = decide (v < 0) ∧ ibit u.fpscr 17 = decide (0 < v) ∧ ibit u.fpscr 18 = decide (v = 0) ∧
      ibit u.fpscr 19 = false := by
  obtain ⟨d, rec, f, r, he, hf, hd, rfl, c, hc, rfl⟩ := h
  have hro := deliver_roundingOnly (targetFmt single) s.thr.fpscr flip none c
  have hxx := (deliver_flags (single := single) (flip := flip) (fpscr := s.thr.fpscr) hd hc).2.2
  refine ⟨_, floatEnds_of_result 0 he hf hro.ok fun u hu hval _ hfin => ?_⟩
  obtain ⟨n, c', hinf⟩ | ⟨n, mag, ⟨v, c', hv, -, hs, hfprf⟩, hlt, hround, hfi, hfr, hx⟩ :=
    deliver_roundedOf (single := single) (flip := flip) hd hoe hue hc
  · rw [hval _ _ hinf, finiteDouble_iff, mag_image64 n (by decide)] at hfin
    exact absurd hfin (lt_irrefl _)
  · obtain ⟨h1, h2, h3, h4⟩ := hfprf
    have hr : (if flip then -Safety.scaled (u.getFpr frt) else Safety.scaled (u.getFpr frt)) =
        signedNat n ((targetFmt single).units mag * 2^targetShift single) := by
      rw [hval _ _ hv, hs]
      cases flip with
      | false => rw [Bool.bne_false]; rfl
      | true => rw [Bool.bne_true, signedNat_not, if_pos rfl, neg_neg]
    have hy : signedNat n ((targetFmt single).units mag * 2^targetShift single) * (d : Int) =
        signedNat n ((targetFmt single).units mag * (2^targetShift single * d)) := by rw [← signedNat_mul, Nat.mul_assoc]
    have hne : signedNat n ((targetFmt single).units mag * (2^targetShift single * d)) ≠ x ↔
        (targetFmt single).units mag * (2^targetShift single * d) ≠ x.natAbs := by
      refine not_congr ⟨fun h => ?_, fun h => by rw [h, hx]⟩
      rw [← h, natAbs_signedNat]
    dsimp only
    rw [hr, hy, natAbs_signedNat, hval _ _ hv, hu, hro.ok.fi_newFpscr, hro.ok.fr_newFpscr, hro.exc_newFpscr _ (by decide), hxx]
    refine ⟨targets_of_lt_infMag single n hlt, hround, hfi.trans (decide_eq_decide.mpr hne.symm), hfr, rfl, ?_⟩
    exact ⟨(FpRes.fprf_newFpscr _ hv (by decide)).trans h1, (FpRes.fprf_newFpscr _ hv (by decide)).trans h2,
      (FpRes.fprf_newFpscr _ hv (by decide)).trans h3, (FpRes.fprf_newFpscr _ hv (by decide)).trans h4⟩

end

/-- Settles O24: the result or the undefined outcome of each instruction, and the exceptions of a rounded exact result. -/
theorem floatArithmeticEnds : Obligations.FloatArithmeticEnds :=
  ⟨fun _ _ _ _ _ _ h _ hfp => floatArith_ends h hfp, fun _ _ _ _ _ _ _ h _ hfp hv => (roundedOutcome_of_roundedOp hfp h hv).flags⟩

end Sys2Proof.Machine
end

section
/-! The square roots (43_ppe_float R863, R864). -/

namespace Sys2Proof.Machine

open Sys2Proof.Safety

/-! ## The root and its significand -/

/-- The root of a number is that of an integer, at an even exponent. -/
theorem exists_sqrtFin_eq {m : Nat} (hm : m ≠ 0) (e : Int) : ∃ (M : Nat) (h : Int), M ≠ 0 ∧ (m : ℝ) * 2^e = M * 2^(2 * h) ∧
    sqrtFin m e = .fin false (stickyRoot (M * 2^256)) (h - 128 - 1) := by
  unfold sqrtFin stickyRoot
  rcases Int.emod_two_eq_zero_or_one e with h | h
  · refine ⟨m, e / 2, hm, by rw [Int.mul_ediv_cancel' (Int.dvd_of_emod_eq_zero h)], ?_⟩
    simp only [h, if_true]
    congr 1
    omega
  · refine ⟨2 * m, e / 2, by omega, ?_, ?_⟩
    · have he : e = 1 + 2 * (e / 2) := by omega
      conv_lhs => rw [he, two_zpow_add]
      push_cast
      ring
    · simp only [h, one_ne_zero, if_false]
      congr 1
      omega

section
variable {a x : Nat}

theorem natCast_le_sqrt : (a : ℝ) ≤ √x ↔ a^2 ≤ x := by
  rw [Real.le_sqrt (Nat.cast_nonneg a) (Nat.cast_nonneg x)]
  exact_mod_cast Iff.rfl

theorem sqrt_lt_natCast : √(x : ℝ) < a ↔ x < a^2 := by
  rw [Real.sqrt_lt (Nat.cast_nonneg x) (Nat.cast_nonneg a)]
  exact_mod_cast Iff.rfl

theorem sqrt_eq_natCast : √(x : ℝ) = a ↔ x = a^2 := by
  rw [Real.sqrt_eq_iff_mul_self_eq (Nat.cast_nonneg x) (Nat.cast_nonneg a), ← sq]
  exact_mod_cast Iff.rfl

end

/-- The integer root with its sticky bit stands for the root. -/
theorem stickyRoot_standsFor {x : Nat} (h : 2^256 ≤ x) (e : Int) :
    stickyRoot x ≠ 0 ∧ StandsFor (stickyRoot x) (e - 1) (√x * 2^e) := by
  obtain ⟨hle, hlt⟩ := isqrt_spec x
  have hbig : 2^128 < isqrt x + 1 := Nat.mul_self_lt_mul_self_iff.mp ((show 2^128 * 2^128 ≤ x by omega).trans_lt hlt)
  have hexact : isqrt x * isqrt x = x ↔ (isqrt x : ℝ) = √x := by rw [← sq, eq_comm, ← sqrt_eq_natCast, eq_comm]
  have hup : √(x : ℝ) < (isqrt x : ℝ) + 1 := by
    have := sqrt_lt_natCast.mpr (show x < (isqrt x + 1)^2 by rwa [sq])
    rwa [Nat.cast_add, Nat.cast_one] at this
  refine ⟨by unfold stickyRoot; omega, ?_⟩
  exact standsFor_sticky _ e (by omega) (natCast_le_sqrt.mpr (by rwa [sq])) hup hexact

theorem sqrtFin_standsFor {m : Nat} (hm : m ≠ 0) (e : Int) :
    ∃ S e', sqrtFin m e = .fin false S e' ∧ S ≠ 0 ∧ StandsFor S e' √(m * 2^e) := by
  obtain ⟨M, h, hM, hval, hs⟩ := exists_sqrtFin_eq hm e
  obtain ⟨hne, hst⟩ := stickyRoot_standsFor (Nat.le_mul_of_pos_left (2^256) (Nat.pos_of_ne_zero hM)) (h - 128)
  have hroot : √((M * 2^256 : Nat) : ℝ) * 2^(h - 128) = √(m * 2^e) := by
    have hw := (two_zpow_pos (h - 128)).le
    rw [eq_comm, Real.sqrt_eq_iff_mul_self_eq (by positivity) (by positivity), mul_mul_mul_comm,
      Real.mul_self_sqrt (Nat.cast_nonneg _), hval, Nat.cast_mul, mul_assoc, ← two_zpow_add, Nat.cast_pow, Nat.cast_ofNat, ← zpow_natCast,
      ← two_zpow_add]
    congr 2
    omega
  exact ⟨_, _, hs, hne, hroot ▸ hst⟩

/-! ## Rounding a root -/

section
variable {single : Bool} {L H x : Nat} (hL : L^2 ≤ x) (hH : x < H^2) (hgap : ∀ c, targets single c → c.natAbs ≤ L ∨ H ≤ c.natAbs)
include hL hH hgap

omit hL in
/-- A value of the format whose square is not past `x`. -/
theorem le_of_sq_le {c : Int} (hc : targets single c) (h0 : 0 ≤ c) (h : c^2 ≤ x) : c ≤ L := by
  rcases hgap c hc with hle | hge
  · omega
  · have hsq : (H : Int)^2 ≤ c^2 := pow_le_pow_left₀ (by omega) (by omega) 2
    have : (x : Int) < (H : Int)^2 := by exact_mod_cast hH
    omega

/-- A value of the format whose square is at `x` or past it. -/
theorem le_of_le_sq {c : Int} (hc : targets single c) (h0 : 0 ≤ c) (h : (x : Int) ≤ c^2) : ((if L^2 = x then L else H : Nat) : Int) ≤ c := by
  rcases hgap c hc with hle | hge
  · have hsq : c^2 ≤ (L : Int)^2 := pow_le_pow_left₀ h0 (by omega) 2
    have hL' : (L : Int)^2 ≤ x := by exact_mod_cast hL
    have hxL : L^2 = x := by exact_mod_cast (by omega : (L : Int)^2 = x)
    rw [if_pos hxL]
    exact (pow_le_pow_iff_left₀ (Int.natCast_nonneg L) h0 two_ne_zero).mp (hL'.trans h)
  · have : L < H := lt_of_pow_lt_pow_left₀ 2 (Nat.zero_le _) (hL.trans_lt hH)
    split <;> omega

/-- The value of the format that is nearer to the root. -/
theorem nearest_root (up : Bool) (hup : if up then (L + H)^2 ≤ 4 * x else 4 * x ≤ (L + H)^2) {c : Int} (hc : targets single c)
    (h0 : 0 ≤ c) :
    (((bif up then H else L : Nat) : Int) < c → 4 * (x : Int) ≤ (((bif up then H else L : Nat) : Int) + c)^2) ∧
      (c < ((bif up then H else L : Nat) : Int) → (((bif up then H else L : Nat) : Int) + c)^2 ≤ 4 * (x : Int)) := by
  have hL' : (L : Int)^2 ≤ x := by exact_mod_cast hL
  have hH' : (x : Int) < (H : Int)^2 := by exact_mod_cast hH
  have hlt : L < H := lt_of_pow_lt_pow_left₀ 2 (Nat.zero_le _) (hL.trans_lt hH)
  cases up with
  | true =>
    have hup : ((L : Int) + H)^2 ≤ 4 * x := by exact_mod_cast hup
    refine ⟨fun h => ?_, fun h => ?_⟩
    · have := pow_le_pow_left₀ (by omega) (show 2 * (H : Int) ≤ H + c by simp only [cond_true] at h; omega) 2
      simp only [cond_true]
      linarith [mul_pow 2 (H : Int) 2]
    · simp only [cond_true] at h ⊢
      exact (pow_le_pow_left₀ (by omega) (show (H : Int) + c ≤ L + H by have := hgap c hc; omega) 2).trans hup
  | false =>
    have hup : 4 * (x : Int) ≤ ((L : Int) + H)^2 := by exact_mod_cast hup
    refine ⟨fun h => ?_, fun h => ?_⟩
    · simp only [cond_false] at h ⊢
      exact hup.trans (pow_le_pow_left₀ (by omega) (show (L : Int) + H ≤ L + c by have := hgap c hc; omega) 2)
    · simp only [cond_false] at h ⊢
      have := pow_le_pow_left₀ (by omega) (show (L : Int) + c ≤ 2 * L by omega) 2
      linarith [mul_pow 2 (L : Int) 2]

/-- The upper or the lower of the neighbours of a root, as the direction takes it. -/
theorem rootRoundsTo_of_brackets (rn : BitVec 2) {up : Bool} {odd : Prop}
    (hup : up = true ↔ (rmodeOf rn).TakesUp false odd (L : ℝ) H √x) :
    RootRoundsTo rn single x ((bif up then H else L : Nat) : Int) := by
  have hL' : (L : Int)^2 ≤ x := by exact_mod_cast hL
  have hdown (h : up = false) : ((bif up then H else L : Nat) : Int)^2 ≤ x ∧
      ∀ c, targets single c → 0 ≤ c → c^2 ≤ (x : Int) → c ≤ ((bif up then H else L : Nat) : Int) := by
    subst h
    exact ⟨hL', fun c hc h0 h => le_of_sq_le hH hgap hc h0 h⟩
  refine ⟨Int.natCast_nonneg _, ?_⟩
  obtain rfl | rfl | rfl | rfl := rn_cases rn
  · refine fun c hc h0 => nearest_root hL hH hgap up ?_ hc h0
    have hsq : (2 * √(x : ℝ))^2 = (4 * x : Nat) := by
      rw [mul_pow, Real.sq_sqrt (Nat.cast_nonneg x)]
      push_cast
      ring
    have h2 : (0 : ℝ) ≤ 2 * √x := by positivity
    have hup : up = true ↔ (L : ℝ) + H < 2 * √x ∨ (2 * √(x : ℝ) = L + H ∧ odd) := hup
    cases up with
    | true =>
      have hle : (L : ℝ) + H ≤ 2 * √x := (hup.mp rfl).elim le_of_lt fun h => h.1.ge
      have := pow_le_pow_left₀ (by positivity) hle 2
      rw [hsq] at this
      exact_mod_cast this
    | false =>
      have hle : 2 * √(x : ℝ) ≤ L + H := not_lt.mp fun h => Bool.false_ne_true (hup.mpr (.inl h))
      have := pow_le_pow_left₀ h2 hle 2
      rw [hsq] at this
      exact_mod_cast this
  · exact hdown (Bool.eq_false_iff.mpr hup.mp)
  · have hup : up = true ↔ √(x : ℝ) ≠ L ∧ false = false := hup
    rw [and_iff_left rfl, ne_eq, sqrt_eq_natCast, eq_comm (a := x)] at hup
    have hr : ((bif up then H else L : Nat) : Int) = if L^2 = x then L else H := by
      cases up with
      | true => rw [if_neg (hup.mp rfl)]; rfl
      | false => rw [if_pos (not_not.mp (hup.not.mp Bool.false_ne_true))]; rfl
    refine ⟨?_, fun c hc h0 h => hr ▸ le_of_le_sq hL hH hgap hc h0 h⟩
    rw [hr]
    split
    · next h => exact_mod_cast h.ge
    · exact_mod_cast hH.le
  · exact hdown (Bool.eq_false_iff.mpr fun h => Bool.false_ne_true (hup.mp h).2)

end

/-! ## The result of a root -/

theorem targetFmt_value_one (single : Bool) (mag : Nat) :
    (targetFmt single).value mag = (((targetFmt single).units mag * 2^targetShift single : Nat) : ℝ) / 2^1074 := by
  rw [targetFmt_value single mag 1 one_pos, Nat.mul_one, Nat.cast_one, mul_one]

theorem RMode.takesUp_div (mode : RMode) (n : Bool) (odd : Prop) {lo hi y D : ℝ} (hD : 0 < D) :
    mode.TakesUp n odd (lo / D) (hi / D) (y / D) ↔ mode.TakesUp n odd lo hi y := by
  have hne : y / D ≠ lo / D ↔ y ≠ lo := by rw [ne_eq, div_left_inj' hD.ne']
  cases mode with
  | nearest =>
    refine or_congr ?_ (and_congr_left' ?_)
    · rw [← add_div, ← mul_div_assoc, div_lt_div_iff_of_pos_right hD]
    · rw [← add_div, ← mul_div_assoc, div_left_inj' hD.ne']
  | zero => exact Iff.rfl
  | up => exact and_congr_left' hne
  | down => exact and_congr_left' hne

/-- A result is the rounded root of `x`: it neither overflows nor is tiny. -/
def FpRes.RootOf (r : FpRes) (rn : BitVec 2) (single : Bool) (x : Nat) : Prop :=
  ∃ n mag, r.Delivers single n mag ∧ mag < (targetFmt single).infMag ∧ (n = true → mag = 0) ∧
    RootRoundsTo rn single x ((targetFmt single).units mag * 2^targetShift single : Nat) ∧
    r.fi = decide (((targetFmt single).units mag * 2^targetShift single)^2 ≠ x) ∧
    r.fr = decide (x < ((targetFmt single).units mag * 2^targetShift single)^2) ∧
    ibit r.exc 3 = false ∧ ibit r.exc 4 = false ∧ ibit r.exc 6 = r.fi

section
variable {single : Bool} {fpscr : Word}

/-- The zero is its own root. -/
theorem rootRoundsTo_zero (rn : BitVec 2) : RootRoundsTo rn single 0 0 := by
  refine ⟨le_rfl, ?_⟩
  obtain rfl | rfl | rfl | rfl := rn_cases rn
  · exact fun c _ h0 => ⟨fun _ => by positivity, fun h => absurd h h0.not_gt⟩
  · exact ⟨by decide, fun c _ _ h => (pow_eq_zero_iff two_ne_zero).mp (le_antisymm h (sq_nonneg c)) |>.le⟩
  · exact ⟨by decide, fun c _ h0 _ => h0⟩
  · exact ⟨by decide, fun c _ _ h => (pow_eq_zero_iff two_ne_zero).mp (le_antisymm h (sq_nonneg c)) |>.le⟩

theorem deliver_zero_rootOf (n : Bool) : (deliver (targetFmt single) fpscr false none (.zero n)).RootOf (ibm fpscr 30 2) single 0 := by
  have h0 : (targetFmt single).units 0 = 0 := Fmt.units_of_lt (Nat.two_pow_pos _)
  refine ⟨n, 0, delivers_zero _ ?_, by cases single <;> decide, fun _ => rfl, ?_, ?_, ?_, ibit_zero_word 3, ibit_zero_word 4, ibit_zero_word 6⟩
  · change some (rounded _ ((n != false) != false) _) = _
    rw [Bool.bne_false, Bool.bne_false]
    rfl
  · rw [h0, Nat.zero_mul]
    exact rootRoundsTo_zero _
  · rw [h0, Nat.zero_mul]
    rfl
  · rw [h0, Nat.zero_mul]
    rfl

theorem natAbs_lt_of_targets {c : Int} (h : targets single c) : c.natAbs < 2^(if single then 1202 else 2098) := by
  obtain ⟨mag, hmag, hu⟩ := lt_infMag_of_targets single h
  rw [← infinity_units, hu]
  exact Nat.mul_lt_mul_of_pos_right ((targetFmt single).units_strictMono hmag) (Nat.two_pow_pos _)

theorem two_pow_le_greatest (single : Bool) :
    2^(if single then 1201 else 2097) ≤ (targetFmt single).units ((targetFmt single).infMag - 1) * 2^targetShift single := by
  have hsplit : (if single then 1201 else 2097) = (if single then 23 else 52) + if single then 1178 else 2045 := by cases single <;> rfl
  rw [greatest_units, hsplit, Nat.pow_add]
  exact Nat.mul_le_mul_right _ (by cases single <;> decide)

/-- The root of a value of the format is below its greatest number. -/
theorem root_range {B L : Nat} (hB : targets single B) (hL : L^2 ≤ B * 2^1074) :
    L < (targetFmt single).units ((targetFmt single).infMag - 1) * 2^targetShift single := by
  have hBt : B < 2^(if single then 1202 else 2098) := natAbs_lt_of_targets hB
  refine lt_of_lt_of_le (lt_of_pow_lt_pow_left₀ 2 (Nat.zero_le _) ?_) (two_pow_le_greatest single)
  calc L^2 ≤ B * 2^1074 := hL
    _ < 2^(if single then 1202 else 2098) * 2^1074 := Nat.mul_lt_mul_of_pos_right hBt (Nat.two_pow_pos _)
    _ ≤ (2^(if single then 1201 else 2097))^2 := by
      rw [← Nat.pow_add, ← Nat.pow_mul]
      exact Nat.pow_le_pow_right two_pos (by cases single <;> decide)

/-- The root of a value of the format that is not zero is not below the normal numbers. -/
theorem root_not_tiny {B m : Nat} {e : Int} (hB : targets single B) (h0 : B ≠ 0) (hm : m ≠ 0)
    (h : StandsFor m e (√((B * 2^1074 : Nat) : ℝ) / 2^1074)) : (targetFmt single).tiny m e = false := by
  obtain ⟨mag, -, hBu⟩ := lt_infMag_of_targets single hB
  have hBu : B = (targetFmt single).units mag * 2^targetShift single := hBu
  have hge : 2^targetShift single ≤ B := by
    rw [hBu] at h0 ⊢
    exact Nat.le_mul_of_pos_left _ (Nat.pos_of_ne_zero (left_ne_zero_of_mul h0))
  have hpow : (2 : ℝ)^(1 - (targetFmt single).bias) * 2^1074 = (2^(if single then 948 else 52) : Nat) := by
    rw [Nat.cast_pow, Nat.cast_ofNat, ← zpow_natCast, ← zpow_natCast, ← two_zpow_add]
    congr 1
    cases single <;> rfl
  rw [Fmt.tiny, decide_eq_false_iff_not, topExp_lt_iff_lt_two_zpow hm, ← h.lt_two_zpow, div_lt_iff₀ (by positivity), hpow, sqrt_lt_natCast,
    not_lt, ← Nat.pow_mul]
  calc 2^((if single then 948 else 52) * 2) ≤ 2^targetShift single * 2^1074 := by
        rw [← Nat.pow_add]
        exact Nat.pow_le_pow_right two_pos (by cases single <;> decide)
    _ ≤ B * 2^1074 := Nat.mul_le_mul_right _ hge

theorem deliverFin_rootOf {B m : Nat} {e : Int} (hB : targets single B) (h0 : B ≠ 0) (hm : m ≠ 0)
    (h : StandsFor m e (√((B * 2^1074 : Nat) : ℝ) / 2^1074)) :
    (deliverFin (targetFmt single) fpscr false none false m e).RootOf (ibm fpscr 30 2) single (B * 2^1074) := by
  obtain ⟨mag, hle, hlt, hup, hinex, hpack, hgrid, hunits⟩ := exists_roundsOff (targetFmt single) (rmodeOf (ibm fpscr 30 2)) false hm
    (by cases single <;> decide) (by cases single <;> decide) h
  have hval := targetFmt_value_one single
  have hD : (0 : ℝ) < 2^1074 := by positivity
  rw [hval, div_le_div_iff_of_pos_right hD, natCast_le_sqrt] at hle
  rw [hval, div_lt_div_iff_of_pos_right hD, sqrt_lt_natCast] at hlt
  rw [hval, ne_eq, div_left_inj' hD.ne', sqrt_eq_natCast, eq_comm (a := B * 2^1074)] at hinex
  rw [hval, hval, RMode.takesUp_div _ _ _ hD] at hup
  have hM := (targetFmt single).units_strictMono.lt_iff_lt.mp (Nat.lt_of_mul_lt_mul_right (root_range hB hle))
  have hbit := Bool.toNat_le (roundFmt (targetFmt single) (rmodeOf (ibm fpscr 30 2)) false m e).up
  have hfin : (targetFmt single).packMag (roundFmt (targetFmt single) (rmodeOf (ibm fpscr 30 2)) false m e) < (targetFmt single).infMag := by
    rw [hpack]
    omega
  have htiny := root_not_tiny hB h0 hm h
  obtain ⟨hox, hux, hxx⟩ := deliverFin_flags (targetFmt single) fpscr false false m e
  obtain ⟨hfr, hfi, hv⟩ := deliverFin_of_lt (fpscr := fpscr) false false m e (by rw [htiny, Bool.false_and]) hfin
  have hround := rootRoundsTo_of_brackets hle hlt
    (fun c hc => natAbs_of_targets_or hc mag) (ibm fpscr 30 2) hup
  refine ⟨false, _, delivers_of_rounded hv hpack (hpack ▸ hfin) hgrid hunits, hpack ▸ hfin, fun h => absurd h Bool.false_ne_true, ?_, ?_, ?_,
    by rw [hox, decide_eq_false hfin.not_ge], by rw [hux, htiny, Bool.false_and, Bool.and_false], hxx⟩
  · cases hu : (roundFmt (targetFmt single) (rmodeOf (ibm fpscr 30 2)) false m e).up with
    | false => rw [hu] at hround; exact hround
    | true => rw [hu] at hround; exact hround
  · rw [hfi]
    refine Bool.eq_iff_iff.mpr (hinex.trans ((not_congr ?_).trans decide_eq_true_iff.symm))
    cases hu : (roundFmt (targetFmt single) (rmodeOf (ibm fpscr 30 2)) false m e).up with
    | false => exact Iff.rfl
    | true =>
      have hlo : ((targetFmt single).units mag * 2^targetShift single : Nat) < ((targetFmt single).units (mag + 1) * 2^targetShift single : Nat) :=
        lt_of_pow_lt_pow_left₀ 2 (Nat.zero_le _) (hle.trans_lt hlt)
      have hne := (hup.mp hu).ne (by exact_mod_cast hlo)
      rw [ne_eq, sqrt_eq_natCast, eq_comm] at hne
      exact iff_of_false hne hlt.ne'
  · rw [hfr]
    cases hu : (roundFmt (targetFmt single) (rmodeOf (ibm fpscr 30 2)) false m e).up with
    | false => exact (decide_eq_false hle.not_gt).symm
    | true => exact (decide_eq_true hlt).symm

end

/-! ## The instructions -/

section
variable {i : Instr} {s : State} {frt frb : BitVec 5} {rec single : Bool}

theorem targets_of_floatOperand {w : DWord} (h : FloatOperand single w) : targets single (Safety.scaled w) := by
  cases single with
  | false => exact ⟨w, h, rfl⟩
  | true => exact h.2

/-- The root of a value that is not negative. -/
theorem sqrtRes_rootOf {b : DWord} {fpscr : Word} (hb : FloatOperand single b) (h0 : 0 ≤ Safety.scaled b) :
    (sqrtRes (targetFmt single) b fpscr none).RootOf (ibm fpscr 30 2) single ((Safety.scaled b).toNat * 2^1074) ∧
      (sqrtRes (targetFmt single) b fpscr none).RoundingOnly := by
  have hnan : [b].any (fun w => isNan f64 w.toNat) = false := by simp [notNan_of_finite hb.finite]
  unfold sqrtRes
  obtain ⟨n, hn⟩ | ⟨n, m, e, hn⟩ := num_of_finite hb.finite
  · rw [hn, scaled_of_zero hn, fpResult_of_noNan hnan rfl, Int.toNat_zero, Nat.zero_mul]
    exact ⟨deliver_zero_rootOf n, deliver_roundingOnly ..⟩
  · obtain ⟨hm, he, hs⟩ := scaled_of_fin hn
    have hX : m * 2^(e + 1074).toNat ≠ 0 := mul_ne_zero hm (Nat.two_pow_pos _).ne'
    cases n with
    | true =>
      rw [hs] at h0
      exact absurd h0 (by simp [signedNat]; omega)
    | false =>
      have hs : Safety.scaled b = (m * 2^(e + 1074).toNat : Nat) := hs
      have ht := targets_of_floatOperand hb
      rw [hs] at ht
      obtain ⟨S, e', hsqrt, hS, hst⟩ := sqrtFin_standsFor hm e
      have hval : √((m : ℝ) * 2^e) = √((m * 2^(e + 1074).toNat * 2^1074 : Nat) : ℝ) / 2^1074 := by
        have hw := (two_zpow_pos e).le
        rw [eq_div_iff (by positivity), eq_comm, Real.sqrt_eq_iff_mul_self_eq (by positivity) (by positivity), mul_mul_mul_comm,
          Real.mul_self_sqrt (by positivity), Nat.cast_mul, Nat.cast_mul, natCast_two_pow_toNat (by omega), two_zpow_add,
          Nat.cast_pow, Nat.cast_ofNat, zpow_ofNat]
        ring
      rw [hval] at hst
      rw [hn, hs]
      dsimp only
      rw [fpResult_of_noNan hnan (if_neg Bool.false_ne_true), sqrtNum, if_neg Bool.false_ne_true, hsqrt, Int.toNat_natCast]
      exact ⟨deliverFin_rootOf ht hX hS hst, deliverFin_roundingOnly ..⟩

/-- The square roots: the second part of O25. -/
theorem floatEnds_of_floatRoot (h : FloatRoot i frt frb single) (hfp : ibit s.thr.msr 50 = true) (hni : ibit s.thr.fpscr 29 = false)
    (hb : FloatOperand single (s.thr.getFpr frb)) (h0 : 0 ≤ Safety.scaled (s.thr.getFpr frb)) :
    ∃ w, FloatEnds i s w fun u =>
      let r := Safety.scaled (u.getFpr frt)
      let x := Safety.scaled (s.thr.getFpr frb) * 2^1074
      finiteDouble (u.getFpr frt) ∧ targets single r ∧ RootRoundsTo (ibm s.thr.fpscr 30 2) single x r ∧
      ibit u.fpscr 14 = decide (r^2 ≠ x) ∧ ibit u.fpscr 13 = decide (x < r^2) ∧
      ibit u.fpscr 6 = (ibit s.thr.fpscr 6 || ibit u.fpscr 14) ∧
      ibit u.fpscr 16 = false ∧ ibit u.fpscr 17 = decide (0 < r) ∧ ibit u.fpscr 18 = decide (r = 0) ∧ ibit u.fpscr 19 = false ∧
      ibit u.fpscr 3 = ibit s.thr.fpscr 3 ∧ ibit u.fpscr 4 = ibit s.thr.fpscr 4 := by
  obtain ⟨rec, he⟩ : ∃ rec, Machine.exec i s = fpArithNi s (targetFmt single) frt rec [s.thr.getFpr frb]
      (sqrtRes (targetFmt single) (s.thr.getFpr frb)) := by
    cases h with
    | fsqrt _ _ rec => exact ⟨rec, rfl⟩
    | fsqrts _ _ rec => exact ⟨rec, rfl⟩
  replace he := he.trans ((if_neg (by rw [Thread.fpNi, hni]; exact Bool.false_ne_true)).trans (fpGuard_of_fp hfp))
  rw [if_neg (operands_fit (single := single) (by simp [hb]))] at he
  obtain ⟨⟨n, mag, ⟨v, c, hv, hfin, hs, h1, h2, h3, h4⟩, hlt, hneg, hround, hfi, hfr, hox, hux, hxx⟩, hro⟩ :=
    sqrtRes_rootOf (fpscr := s.thr.fpscr) hb h0
  refine ⟨_, floatEnds_of_result 0 he rfl hro.ok fun u hu hval _ => ?_⟩
  have hr : Safety.scaled v = ((targetFmt single).units mag * 2^targetShift single : Nat) := by
    cases n with
    | false => exact hs
    | true =>
      rw [hs, hneg rfl, Fmt.units_of_lt (Nat.two_pow_pos _), Nat.zero_mul]
      rfl
  have hx : Safety.scaled (s.thr.getFpr frb) * 2^1074 = ((Safety.scaled (s.thr.getFpr frb)).toNat * 2^1074 : Nat) := by
    rw [Nat.cast_mul, Int.toNat_of_nonneg h0, natCast_two_pow]
  dsimp only
  rw [hval _ _ hv, hu, hro.ok.fi_newFpscr, hro.ok.fr_newFpscr, hro.exc_newFpscr _ (b := 6) (by decide),
    hro.exc_newFpscr _ (b := 3) (by decide), hro.exc_newFpscr _ (b := 4) (by decide), hox, hux, hxx, Bool.or_false, Bool.or_false, hx]
  refine ⟨hfin, ?_, by rw [hr]; exact hround, ?_, ?_, rfl, ?_, (FpRes.fprf_newFpscr _ hv (by decide)).trans h2,
    (FpRes.fprf_newFpscr _ hv (by decide)).trans h3, (FpRes.fprf_newFpscr _ hv (by decide)).trans h4, rfl, rfl⟩
  · rw [hs]
    exact targets_of_lt_infMag single n hlt
  · rw [hfi, hr, decide_eq_decide]
    generalize (Safety.scaled (s.thr.getFpr frb)).toNat * 2^1074 = X
    exact_mod_cast Iff.rfl
  · rw [hfr, hr, decide_eq_decide]
    generalize (Safety.scaled (s.thr.getFpr frb)).toNat * 2^1074 = X
    exact_mod_cast Iff.rfl
  · refine (FpRes.fprf_newFpscr _ hv (by decide)).trans (h1.trans (decide_eq_false ?_))
    rw [hr]
    omega

end

end Sys2Proof.Machine
end

section
/-! The estimates `fres` and `frsqrte` (43_ppe_float R873, R874). -/

namespace Sys2Proof.Machine

open Sys2Proof.Safety

/-! ## Rounding a value in the normal range -/

/-- Rounding keeps a value in the normal range within one part in 2^`fb`. -/
theorem exists_ieeeRound_near (f : Fmt) (mode : RMode) (n : Bool) {m : Nat} {e : Int} {y : ℝ} (hm : m ≠ 0) (h0 : f.fb ≠ 0) (h62 : f.fb ≤ 62)
    (h : StandsFor m e y) (hlo : f.value (2^f.fb) ≤ y) (hhi : y < f.value (f.infMag - 1)) :
    ∃ mag < f.infMag, (ieeeRound f mode n m e).image = f.image n mag ∧
      f.value mag * 2^f.fb ≤ y * (2^f.fb + 1) ∧ y * 2^f.fb ≤ f.value mag * (2^f.fb + 1) := by
  obtain ⟨mag, hle, hlt, -, -, hpack, -, -⟩ := exists_roundsOff f mode n hm h0 h62 h
  have hnorm : 2^f.fb ≤ mag := Nat.le_of_lt_succ (f.value_strictMono.lt_iff_lt.mp (hlo.trans_lt hlt))
  have hfin : mag < f.infMag - 1 := f.value_strictMono.lt_iff_lt.mp (hle.trans_lt hhi)
  have hbit := Bool.toNat_le (roundFmt f mode n m e).up
  have hstep : f.value (mag + 1) * 2^f.fb ≤ f.value mag * (2^f.fb + 1) := by
    have hu : ((f.units (mag + 1) * 2^f.fb : Nat) : ℝ) ≤ (f.units mag * (2^f.fb + 1) : Nat) := by
      exact_mod_cast Fmt.units_succ_le hnorm
    have hw := mul_le_mul_of_nonneg_right hu (two_zpow_pos f.qmin).le
    push_cast at hw
    unfold Fmt.value
    linarith
  have hpow : (0 : ℝ) < 2^f.fb := by positivity
  have hv : (0 : ℝ) ≤ f.value mag := mul_nonneg (Nat.cast_nonneg _) (two_zpow_pos _).le
  have hlo' := mul_le_mul_of_nonneg_right hle hpow.le
  have hhi' := mul_le_mul_of_nonneg_right hlt.le hpow.le
  have hfin' : mag + (roundFmt f mode n m e).up.toNat < f.infMag := by omega
  have hy : 0 ≤ y := hv.trans hle
  refine ⟨_, hfin', by rw [(ieeeRound_of_lt (hpack ▸ hfin')).2, hpack], ?_, ?_⟩
  · cases (roundFmt f mode n m e).up with
    | false => exact hlo'.trans (by linarith)
    | true => exact hstep.trans (mul_le_mul_of_nonneg_right hle (by positivity))
  · cases (roundFmt f mode n m e).up with
    | false => exact hhi'.trans hstep
    | true =>
      change y * 2^f.fb ≤ f.value (mag + 1) * (2^f.fb + 1)
      have hpos : 0 ≤ f.value (mag + 1) := hv.trans (hle.trans hlt.le)
      linarith

/-! ## Doubles as numbers -/

/-- A finite double that is not zero is a number of its sign and its value. -/
theorem num_of_scaled {w : DWord} {n : Bool} {X : Nat} (hw : finiteDouble w) (hs : Safety.scaled w = signedNat n X) (hX : 0 < X) :
    ∃ m e, num w = .fin n m e ∧ (m : ℝ) * 2^e = X / 2^1074 := by
  obtain ⟨k, hk⟩ | ⟨k, m, e, hk⟩ := num_of_finite hw
  · rw [scaled_of_zero hk] at hs
    exact absurd (signedNat_eq_zero.mp hs.symm) hX.ne'
  · obtain ⟨hm, he, hs'⟩ := scaled_of_fin hk
    rw [hs'] at hs
    have hmX : m * 2^(e + 1074).toNat = X := by
      have := congrArg Int.natAbs hs
      rwa [natAbs_signedNat, natAbs_signedNat] at this
    have hkn : k = n := by
      rw [hmX] at hs
      cases k <;> cases n <;> simp [signedNat] at hs ⊢ <;> omega
    refine ⟨m, e, hkn ▸ hk, ?_⟩
    rw [← hmX, Nat.cast_mul, natCast_two_pow_toNat (by omega), two_zpow_add, eq_div_iff (by positivity), mul_assoc, zpow_ofNat]

theorem units_pos (f : Fmt) {mag : Nat} (h : 0 < mag) : 0 < f.units mag := (Nat.zero_le _).trans_lt (f.units_strictMono h)

/-- A double that is not zero, by its magnitude image. -/
theorem num_image64 (n : Bool) {mag : Nat} (h0 : 0 < mag) (h : mag < f64.infMag) :
    ∃ m e, num (BitVec.ofNat 64 (f64.image n mag)) = .fin n m e ∧ (m : ℝ) * 2^e = f64.value mag := by
  have h63 : mag < 2^63 := h.trans (by decide)
  obtain ⟨m, e, hn, hv⟩ := num_of_scaled (w := BitVec.ofNat 64 (f64.image n mag)) (n := n) (X := f64.units mag)
    (by rw [finiteDouble_iff, mag_image64 n h63]; exact h) (by rw [scaled_eq_units, mag_image64 n h63, ibit_zero_image64 n h63])
    (units_pos f64 h0)
  refine ⟨m, e, hn, hv.trans ?_⟩
  have := targetFmt_value_one false mag
  rw [show targetShift false = 0 from rfl, pow_zero, Nat.mul_one] at this
  exact this.symm

/-- What a single stands for. -/
theorem unpack32_stands (w : Word) : (unpack f32 w.toNat).Stands f32 (ibit w 0) (w.toNat % 2^31) := by
  rw [ibit_zero_eq]
  exact unpack_stands f32 (show w.toNat < 2 * 2^31 by omega) (by decide)

theorem doubleImage_of_fin {w : Word} {n : Bool} {m : Nat} {e : Int} (h : unpack f32 w.toNat = .fin n m e) : doubleImage w = f64Of n m e := by
  rw [doubleImage, h]

/-- The double of a finite single that is not zero. -/
theorem num_doubleImage_of_finite {w : Word} (h0 : 0 < w.toNat % 2^31) (h : w.toNat % 2^31 < f32.infMag) :
    ∃ m e, num (doubleImage w) = .fin (ibit w 0) m e ∧ (m : ℝ) * 2^e = f32.value (w.toNat % 2^31) := by
  have hst := unpack32_stands w
  cases hx : unpack f32 w.toNat with rw [hx] at hst
  | nan => exact absurd hst h.not_gt
  | inf => exact absurd hst.2 h.ne
  | zero => exact absurd hst.2 h0.ne'
  | fin k m e =>
    obtain ⟨hk, -, hm, hq, hu⟩ := hst
    obtain ⟨hfin, hs⟩ := f64Of_target true k h hq hu
    obtain ⟨m', e', hn, hv⟩ := num_of_scaled hfin hs (Nat.mul_pos (units_pos _ h0) (Nat.two_pow_pos _))
    rw [doubleImage_of_fin hx, ← hk]
    exact ⟨m', e', hn, hv.trans (targetFmt_value_one true _).symm⟩

/-- The double of a single that is not zero, by the magnitude image of the single. -/
theorem num_doubleImage (n : Bool) {mag : Nat} (h0 : 0 < mag) (h : mag < f32.infMag) :
    ∃ m e, num (doubleImage (BitVec.ofNat 32 (f32.image n mag))) = .fin n m e ∧ (m : ℝ) * 2^e = f32.value mag := by
  have h31 : mag < 2^31 := h.trans (by decide)
  have hmag := mag_image32 n h31
  have hd := num_doubleImage_of_finite (w := BitVec.ofNat 32 (f32.image n mag)) (by rwa [hmag]) (by rwa [hmag])
  rwa [hmag, ibit_zero_image32 n h31] at hd

/-! ## The choice -/

theorem estimate_within {cand rounded : DWord} {within : DWord → Bool} (h : within rounded = true) :
    within (estimate cand rounded within) = true := by
  unfold estimate
  split
  · next hc => exact hc
  · exact h

theorem finWith_iff {n : Bool} {p : Nat → Int → Bool} {w : DWord} :
    finWith n p w = true ↔ ∃ m e, num w = .fin n m e ∧ p m e = true := by
  unfold finWith
  split
  · next k m e hw =>
    rw [Bool.and_eq_true, beq_iff_eq, hw]
    constructor
    · rintro ⟨rfl, hp⟩
      exact ⟨m, e, rfl, hp⟩
    · rintro ⟨m', e', h, hp⟩
      cases h
      exact ⟨rfl, hp⟩
  · next hno =>
    refine iff_of_false Bool.false_ne_true ?_
    rintro ⟨m, e, h, -⟩
    exact hno _ _ _ h

theorem dyadic_cast (m : Nat) (e : Int) : ((dyadic m e : ℚ) : ℝ) = m * 2^e := by
  unfold dyadic
  push_cast
  rfl

theorem nearReciprocal_256_iff {m1 m2 : Nat} {e1 e2 : Int} : nearReciprocal 256 m1 e1 m2 e2 = true ↔
    256 * ((m1 : ℝ) * 2^e1 * (m2 * 2^e2)) ≤ 257 ∧ 255 ≤ 256 * ((m1 : ℝ) * 2^e1 * (m2 * 2^e2)) := by
  rw [nearReciprocal_iff, ← dyadic_cast, ← dyadic_cast]
  norm_cast

theorem nearRsqrt_32_iff {m1 m2 : Nat} {e1 e2 : Int} : nearRsqrt 32 m1 e1 m2 e2 = true ↔
    1024 * (((m1 : ℝ) * 2^e1)^2 * (m2 * 2^e2)) ≤ 1089 ∧ 961 ≤ 1024 * (((m1 : ℝ) * 2^e1)^2 * (m2 * 2^e2)) := by
  rw [nearRsqrt_iff, ← dyadic_cast, ← dyadic_cast, sq]
  norm_cast

/-! ## The reciprocal -/

theorem targetFmt_value_minNormal (single : Bool) : (targetFmt single).value (2^(targetFmt single).fb) = 2^(1 - (targetFmt single).bias) := by
  rw [Fmt.value, units_two_pow_fb, Nat.cast_pow, Nat.cast_ofNat, ← zpow_natCast, ← two_zpow_add]
  congr 1
  cases single <;> rfl

theorem le_targetFmt_value_greatest (single : Bool) :
    (2 : ℝ)^(targetFmt single).bias ≤ (targetFmt single).value ((targetFmt single).infMag - 1) := by
  have hpow : (2 : ℝ)^(targetFmt single).bias * 2^1074 = (2^(if single then 1201 else 2097) : Nat) := by
    rw [Nat.cast_pow, Nat.cast_ofNat, ← zpow_natCast, ← zpow_natCast, ← two_zpow_add]
    congr 1
    cases single <;> rfl
  rw [targetFmt_value_one, le_div_iff₀ (by positivity), hpow, Nat.cast_le]
  exact two_pow_le_greatest single

/-- The rounded reciprocal of `v`, where it is normal, is within one part in 2^`fb`. -/
theorem exists_reciprocal_near (single n : Bool) {S : Nat} {e : Int} {v : ℝ} (hS : S ≠ 0) (hv : v = S * 2^e)
    (hlo : v ≤ 2^((targetFmt single).bias - 1)) (hhi : (2 : ℝ)^(-(targetFmt single).bias) < v) :
    ∃ mag, 0 < mag ∧ mag < (targetFmt single).infMag ∧
      (ieeeRound (targetFmt single) .nearest n (stickyInverse S) (0 - e - (128 + S.log2 : Nat) - 1)).image = (targetFmt single).image n mag ∧
      (targetFmt single).value mag * v * 2^(targetFmt single).fb ≤ 2^(targetFmt single).fb + 1 ∧
      2^(targetFmt single).fb ≤ (targetFmt single).value mag * v * (2^(targetFmt single).fb + 1) := by
  have hvpos : 0 < v := (two_zpow_pos _).trans hhi
  have hst : StandsFor (stickyInverse S) (0 - e - (128 + S.log2 : Nat) - 1) v⁻¹ := by
    have h := divFin_standsFor (0 - e) one_ne_zero hS
    have hy : v⁻¹ = (1 : Nat) / S * 2^(0 - e) := by
      rw [hv, zero_sub, zpow_neg, mul_inv, Nat.cast_one, one_div]
    rw [hy]
    unfold stickyInverse
    rwa [Nat.one_mul] at h
  have hne : stickyInverse S ≠ 0 := by
    have h := two_pow_le_quotient one_ne_zero hS
    rw [Nat.one_mul] at h
    unfold stickyInverse
    omega
  have hge : (targetFmt single).value (2^(targetFmt single).fb) ≤ v⁻¹ := by
    rw [targetFmt_value_minNormal, ← neg_sub, zpow_neg]
    exact inv_anti₀ hvpos hlo
  have hlt : v⁻¹ < (targetFmt single).value ((targetFmt single).infMag - 1) := by
    refine lt_of_lt_of_le ?_ (le_targetFmt_value_greatest single)
    rw [← neg_neg (targetFmt single).bias, zpow_neg]
    exact inv_strictAnti₀ (two_zpow_pos _) hhi
  obtain ⟨mag, hfin, himg, h1, h2⟩ := exists_ieeeRound_near (targetFmt single) .nearest n hne (by cases single <;> decide)
    (by cases single <;> decide) hst hge hlt
  have hpos : 0 < mag := by
    rcases Nat.eq_zero_or_pos mag with rfl | h
    · rw [Fmt.value, Fmt.units_of_lt (Nat.two_pow_pos _), Nat.cast_zero, zero_mul, zero_mul] at h2
      exact absurd h2 (by positivity : (0 : ℝ) < v⁻¹ * 2^(targetFmt single).fb).not_ge
    · exact h
  refine ⟨mag, hpos, hfin, himg, ?_, ?_⟩
  · have := mul_le_mul_of_nonneg_right h1 hvpos.le
    have hinv : v⁻¹ * (2^(targetFmt single).fb + 1) * v = 2^(targetFmt single).fb + 1 := by field_simp
    rw [hinv] at this
    linarith
  · have := mul_le_mul_of_nonneg_right h2 hvpos.le
    have hinv : v⁻¹ * 2^(targetFmt single).fb * v = 2^(targetFmt single).fb := by field_simp
    rw [hinv] at this
    linarith

/-- A significand differs from the value that it stands for by less than one part in 2^64. -/
theorem StandsFor.near {m : Nat} {e : Int} {y : ℝ} (h : StandsFor m e y) :
    (m : ℝ) * 2^e * (2^64 - 1) ≤ y * 2^64 ∧ y * 2^64 ≤ (m : ℝ) * 2^e * (2^64 + 1) := by
  have hw := two_zpow_pos e
  rcases h with rfl | ⟨j, rfl, hm, hlo, hhi⟩
  · have : (0 : ℝ) ≤ m * 2^e := by positivity
    constructor <;> linarith
  · have hm' : (2^64 : ℝ) ≤ ((2 * j + 1 : Nat) : ℝ) := by exact_mod_cast hm
    have := mul_le_mul_of_nonneg_right hm' hw.le
    push_cast at *
    constructor <;> linarith

end Sys2Proof.Machine
end

section
/-! What `fres` and `frsqrte` deliver (43_ppe_float R873, R874), and the settled statement O25. -/

namespace Sys2Proof.Machine

open Sys2Proof.Safety

/-! ## Bounds -/

theorem two_pow_eq_zpow_mul {a : Int} {b c : Nat} (h : a + b = c) : (2 : ℝ)^c = 2^a * 2^b := by
  rw [← zpow_natCast 2 b, ← zpow_natCast 2 c, ← two_zpow_add, h]

/-- A number in units of 2^-1074. -/
theorem natCast_scaled {m : Nat} {e : Int} (he : -1074 ≤ e) : ((m * 2^(e + 1074).toNat : Nat) : ℝ) = m * 2^e * 2^1074 := by
  rw [Nat.cast_mul, natCast_two_pow_toNat (by omega), two_zpow_add, mul_assoc, zpow_ofNat]

/-- The bound on an estimate that is within one part in 2^23. -/
theorem within_256 {z : ℝ} (h1 : z * 2^23 ≤ 2^23 + 1) (h2 : 2^23 ≤ z * (2^23 + 1)) : 256 * z ≤ 257 ∧ 255 ≤ 256 * z := by
  constructor <;> linarith

/-- The bound on an estimate: `z` = c * p, where p is near the root `y`. -/
theorem within_32 {c p y : ℝ} (hc : 0 ≤ c) (h1 : c * p * 2^52 ≤ 2^52 + 1) (h2 : 2^52 ≤ c * p * (2^52 + 1))
    (hlo : p * (2^64 - 1) ≤ y * 2^64) (hhi : y * 2^64 ≤ p * (2^64 + 1)) : 1024 * (c^2 * y^2) ≤ 1089 ∧ 961 ≤ 1024 * (c^2 * y^2) := by
  have hlo := mul_le_mul_of_nonneg_left hlo hc
  have hhi := mul_le_mul_of_nonneg_left hhi hc
  have hle : c * y ≤ 33 / 32 := by linarith
  have hge : 31 / 32 ≤ c * y := by linarith
  have hsq := mul_self_le_mul_self (by linarith) hle
  have hsq' := mul_self_le_mul_self (by norm_num) hge
  constructor <;> linarith [mul_pow c y 2, sq (c * y)]

/-- A number near the root is at most its double, and the root at most the double of the number. -/
theorem le_double_of_near {p y a : ℝ} (hp : 0 ≤ p) (h : p * (2^64 - 1) ≤ y * 2^64) (hy : y ≤ a) : p ≤ 2 * a := by linarith

theorem le_double_of_near' {p y a : ℝ} (hp : 0 ≤ p) (h : y * 2^64 ≤ p * (2^64 + 1)) (hy : a ≤ y) : a ≤ 2 * p := by linarith

/-! ## The candidates -/

section
variable {b : DWord} {n : Bool} {m : Nat} {e : Int}

/-- What is delivered for 1 / b is within one part in 256. -/
theorem estimate_reciprocal (cand : DWord) (hb : num b = .fin n m e) (hlo : 2^948 ≤ (Safety.scaled b).natAbs)
    (hhi : (Safety.scaled b).natAbs ≤ 2^1200) :
    finWith n (fun mc ec => nearReciprocal 256 mc ec m e) (estimate cand
      (doubleImage (BitVec.ofNat 32 (ieeeRound f32 .nearest n (stickyInverse m) (0 - e - (128 + m.log2 : Nat) - 1)).image))
      (finWith n fun mc ec => nearReciprocal 256 mc ec m e)) = true := by
  obtain ⟨hm, he, hs⟩ := scaled_of_fin hb
  have hD : (0 : ℝ) < 2^1074 := by positivity
  rw [hs, natAbs_signedNat, ← Nat.cast_le (α := ℝ), natCast_scaled he, Nat.cast_pow, Nat.cast_ofNat] at hlo hhi
  rw [two_pow_eq_zpow_mul (a := -126) (b := 1074) rfl, mul_le_mul_iff_left₀ hD] at hlo
  rw [two_pow_eq_zpow_mul (a := 126) (b := 1074) rfl, mul_le_mul_iff_left₀ hD] at hhi
  obtain ⟨mag, hpos, hfin, himg, h1, h2⟩ := exists_reciprocal_near true n hm rfl hhi
    (lt_of_lt_of_le (zpow_lt_zpow_right₀ one_lt_two (by decide)) hlo)
  obtain ⟨m', e', hnum, hval⟩ := num_doubleImage n hpos hfin
  refine estimate_within (finWith_iff.mpr ⟨m', e', ?_, ?_⟩)
  · exact (congrArg (fun x => num (doubleImage (BitVec.ofNat 32 x))) himg).trans hnum
  · rw [nearReciprocal_256_iff, hval]
    exact within_256 h1 h2

/-- The root of a finite double lies well within the normal range. -/
theorem sqrt_bounds (hb : num b = .fin false m e) : (2 : ℝ)^(-537 : Int) ≤ √(m * 2^e) ∧ √((m : ℝ) * 2^e) ≤ 2^(512 : Int) := by
  obtain ⟨hm, he, hs⟩ := scaled_of_fin hb
  have hlt := natAbs_lt_of_targets (single := false) ⟨b, finite_of_fin hb, rfl⟩
  have hD : (0 : ℝ) < 2^1074 := by positivity
  rw [hs, natAbs_signedNat, if_neg Bool.false_ne_true, ← Nat.cast_lt (α := ℝ), natCast_scaled he, Nat.cast_pow, Nat.cast_ofNat,
    two_pow_eq_zpow_mul (a := 1024) (b := 1074) rfl, mul_lt_mul_iff_left₀ hD] at hlt
  constructor
  · rw [Real.le_sqrt' (two_zpow_pos _), sq, ← two_zpow_add]
    calc (2 : ℝ)^(-537 + -537 : Int) ≤ 2^e := zpow_le_zpow_right₀ one_le_two (by omega)
      _ ≤ m * 2^e := le_mul_of_one_le_left (two_zpow_pos e).le (by exact_mod_cast Nat.pos_of_ne_zero hm)
  · rw [Real.sqrt_le_left (two_zpow_pos _).le, sq, ← two_zpow_add]
    exact hlt.le

/-- What is delivered for 1 / sqrt(b) is within one part in 32. -/
theorem estimate_rsqrt (cand : DWord) {S : Nat} {e' : Int} (hb : num b = .fin false m e) (hS : S ≠ 0) (hst : StandsFor S e' √(m * 2^e)) :
    finWith false (fun mc ec => nearRsqrt 32 mc ec m e) (estimate cand
      (BitVec.ofNat 64 (ieeeRound f64 .nearest false (stickyInverse S) (0 - e' - (128 + S.log2 : Nat) - 1)).image)
      (finWith false fun mc ec => nearRsqrt 32 mc ec m e)) = true := by
  obtain ⟨hy1, hy2⟩ := sqrt_bounds hb
  obtain ⟨hn1, hn2⟩ := hst.near
  have hsq : √((m : ℝ) * 2^e)^2 = m * 2^e := Real.sq_sqrt (mul_nonneg (Nat.cast_nonneg _) (two_zpow_pos e).le)
  have hp : (0 : ℝ) ≤ S * 2^e' := mul_nonneg (Nat.cast_nonneg _) (two_zpow_pos e').le
  have hhi : (S : ℝ) * 2^e' ≤ 2^(1022 : Int) := (le_double_of_near hp hn1 hy2).trans <| by
    rw [← zpow_one_add₀ two_ne_zero]
    exact zpow_le_zpow_right₀ one_le_two (by decide)
  have hlo : (2 : ℝ)^(-1023 : Int) < S * 2^e' := by
    have h : (2 : ℝ) * 2^(-1023 : Int) < 2^(-537 : Int) := by
      rw [← zpow_one_add₀ two_ne_zero]
      exact zpow_lt_zpow_right₀ one_lt_two (by decide)
    exact lt_of_mul_lt_mul_left (h.trans_le (le_double_of_near' hp hn2 hy1)) two_pos.le
  obtain ⟨mag, hpos, hfin, himg, h1, h2⟩ := exists_reciprocal_near false false hS rfl hhi hlo
  obtain ⟨m', e'', hnum, hval⟩ := num_image64 false hpos hfin
  refine estimate_within (finWith_iff.mpr ⟨m', e'', ?_, ?_⟩)
  · exact (congrArg (fun x => num (BitVec.ofNat 64 x)) himg).trans hnum
  · rw [nearRsqrt_32_iff, hval, ← hsq]
    exact within_32 (mul_nonneg (Nat.cast_nonneg _) (two_zpow_pos _).le) h1 h2 hn1 hn2

/-- An estimate of 1 / b in the terms of the statement. -/
theorem nearInverse_of_finWith {w : DWord} (hb : num b = .fin n m e)
    (hw : finWith n (fun mc ec => nearReciprocal 256 mc ec m e) w = true) :
    finiteDouble w ∧ nearInverse 256 (Safety.scaled b) (Safety.scaled w) := by
  obtain ⟨mc, ec, hn, hnear⟩ := finWith_iff.mp hw
  obtain ⟨h1, h2⟩ := nearReciprocal_256_iff.mp hnear
  obtain ⟨-, he, hs⟩ := scaled_of_fin hb
  obtain ⟨-, hec, hsw⟩ := scaled_of_fin hn
  refine ⟨finite_of_fin hn, ?_⟩
  have hA := natCast_scaled (m := mc) hec
  have hB := natCast_scaled (m := m) he
  have hU : (0 : ℝ) < 2^2148 := by positivity
  have hDD : (2 : ℝ)^1074 * 2^1074 = 2^2148 := (pow_add 2 1074 1074).symm
  have hprod : Safety.scaled w * Safety.scaled b = (mc * 2^(ec + 1074).toNat * (m * 2^(e + 1074).toNat) : Nat) := by
    rw [hs, hsw, ← signedNat_bne, bne_self_eq_false n]
    rfl
  unfold nearInverse
  rw [hprod]
  generalize mc * 2^(ec + 1074).toNat = A at *
  generalize m * 2^(e + 1074).toNat = B at *
  have hAB : ((A * B : Nat) : ℝ) = mc * 2^ec * (m * 2^e) * 2^2148 := by
    rw [Nat.cast_mul, hA, hB, ← hDD]
    ring
  have hle : 256 * (A * B) ≤ 257 * 2^2148 := by
    have := mul_le_mul_of_nonneg_right h1 hU.le
    rw [mul_assoc, ← hAB] at this
    exact_mod_cast this
  have hge : 255 * 2^2148 ≤ 256 * (A * B) := by
    have := mul_le_mul_of_nonneg_right h2 hU.le
    rw [mul_assoc, ← hAB] at this
    exact_mod_cast this
  rw [← natCast_two_pow]
  generalize A * B = P at *
  generalize 2^2148 = U at *
  push_cast
  omega

/-- An estimate of 1 / sqrt(b) in the terms of the statement. -/
theorem nearInverseRoot_of_finWith {w : DWord} (hb : num b = .fin false m e)
    (hw : finWith false (fun mc ec => nearRsqrt 32 mc ec m e) w = true) :
    finiteDouble w ∧ nearInverseRoot 32 (Safety.scaled b) (Safety.scaled w) := by
  obtain ⟨mc, ec, hn, hnear⟩ := finWith_iff.mp hw
  obtain ⟨h1, h2⟩ := nearRsqrt_32_iff.mp hnear
  obtain ⟨-, he, hs⟩ := scaled_of_fin hb
  obtain ⟨hmc, hec, hsw⟩ := scaled_of_fin hn
  have hA := natCast_scaled (m := mc) hec
  have hB := natCast_scaled (m := m) he
  have hU : (0 : ℝ) < 2^3222 := by positivity
  have hDD : ((2 : ℝ)^1074)^2 * 2^1074 = 2^3222 := by rw [← pow_mul, ← pow_add]
  have hpos : 0 < mc * 2^(ec + 1074).toNat := Nat.mul_pos (Nat.pos_of_ne_zero hmc) (Nat.two_pow_pos _)
  have hsw : Safety.scaled w = (mc * 2^(ec + 1074).toNat : Nat) := hsw
  have hs : Safety.scaled b = (m * 2^(e + 1074).toNat : Nat) := hs
  refine ⟨finite_of_fin hn, ?_⟩
  unfold nearInverseRoot
  rw [hs, hsw]
  generalize mc * 2^(ec + 1074).toNat = A at *
  generalize m * 2^(e + 1074).toNat = B at *
  have hAB : ((A^2 * B : Nat) : ℝ) = (mc * 2^ec)^2 * (m * 2^e) * 2^3222 := by
    rw [Nat.cast_mul, Nat.cast_pow, hA, hB, ← hDD]
    ring
  have hle : 1024 * (A^2 * B) ≤ 1089 * 2^3222 := by
    have := mul_le_mul_of_nonneg_right h1 hU.le
    rw [mul_assoc, ← hAB] at this
    exact_mod_cast this
  have hge : 961 * 2^3222 ≤ 1024 * (A^2 * B) := by
    have := mul_le_mul_of_nonneg_right h2 hU.le
    rw [mul_assoc, ← hAB] at this
    exact_mod_cast this
  rw [← natCast_two_pow]
  generalize 2^3222 = U at *
  refine ⟨Nat.cast_pos.mpr hpos, ?_, ?_⟩
  · have h : (961 * U : Int) ≤ 1024 * (A^2 * B) := by exact_mod_cast hge
    rw [Nat.cast_ofNat]
    linarith
  · have h : (1024 * (A^2 * B) : Int) ≤ 1089 * U := by exact_mod_cast hle
    rw [Nat.cast_ofNat]
    linarith

end

/-! ## The instructions -/

/-- Single format holds a zero and an infinity. -/
theorem fitsSingle_of_kind {b : DWord} (h : (∃ n, num b = .zero n) ∨ ∃ n, num b = .inf n) : fitsSingle b = true := by
  obtain ⟨n, hn⟩ | ⟨n, hn⟩ := h
  · rw [fitsSingle, show unpack f64 b.toNat = .zero n from hn]
  · rw [fitsSingle, show unpack f64 b.toNat = .inf n from hn]

theorem ibm_zero_one (b : DWord) : ibm b 0 1 = BitVec.ofBool (ibit b 0) := by
  refine BitVec.eq_of_getLsbD_eq fun j hj => ?_
  obtain rfl : j = 0 := by omega
  rw [ibm, ibit, BitVec.getLsbD_extractLsb', BitVec.getLsbD_ofBool]
  rfl

theorem image_zero_magnitude (b : DWord) : BitVec.ofNat 64 (f64.image (ibit b 0) 0) = ibm b 0 1 ++ 0#63 := by
  rw [ibm_zero_one]
  cases ibit b 0 <;> rfl

theorem image_infinity (b : DWord) : BitVec.ofNat 64 (f64.image (ibit b 0) f64.infMag) = ibm b 0 1 ++ 0x7FF#11 ++ 0#52 := by
  rw [ibm_zero_one]
  cases ibit b 0 <;> rfl

section
variable {i : Instr} {s : State} {frt : BitVec 5} {rec : Bool} {f : Thread → Thread} (he : Machine.exec i s = fpEnd (s.drew 2) f)
include he

/-- The end of an estimate of an operand that is not zero. -/
theorem floatEnds_of_estimateRes {v : DWord} {cls : BitVec 5} {bits : BitVec 3}
    (hf : f s.thr = ((estimateRes v cls bits).apply frt s.thr).recordCr1 rec)
    {P : Thread → Prop} (hP : ∀ u : Thread, u.getFpr frt = v → P u) : FloatEnds i s (floatWrites frt rec) P := by
  have hok := (estimateRes_meets 0 0 (cause := fun _ => false) (by decide) (fun _ _ => rfl) false v cls bits).ok
  exact floatEnds_of_result 2 he hf hok fun u _ hval _ => hP u (hval v cls rfl)

/-- The end of an estimate of a zero, with ZE = 0. -/
theorem floatEnds_of_zeroDivideRes {b : DWord} {n : Bool} (hb : num b = .zero n)
    (hf : f s.thr = ((zeroDivideRes s.thr.fpscr n).apply frt s.thr).recordCr1 rec) (hze : ibit s.thr.fpscr 27 = false) :
    FloatEnds i s (floatWrites frt rec) fun u => u.getFpr frt = ibm b 0 1 ++ 0x7FF#11 ++ 0#52 ∧ ibit u.fpscr 5 = true := by
  have hk := kind_of_num b
  rw [hb] at hk
  obtain ⟨rfl, hnan, -⟩ := hk
  have hok := (zeroDivideRes_meets s.thr.fpscr b (cause := fun k => decide (k = 5)) (n := ibit b 0) hnan (fun _ _ => rfl) false).ok
  have hv : (zeroDivideRes s.thr.fpscr (ibit b 0)).value = some (BitVec.ofNat 64 (f64.image (ibit b 0) f64.infMag), classInf (ibit b 0)) :=
    if_neg (by rw [hze]; exact Bool.false_ne_true)
  have h5 : ibit (zeroDivideRes s.thr.fpscr (ibit b 0)).exc 5 = true := ibit_zeroDivide 5 (by decide)
  refine floatEnds_of_result 2 he hf hok fun u hu hval _ => ⟨(hval _ _ hv).trans (image_infinity b), ?_⟩
  rw [hu, hok.exc_newFpscr _ (by decide) (by decide), h5, Bool.or_true]

end

section
variable {s : State} {frt frb : BitVec 5} {rec : Bool} (hfp : ibit s.thr.msr 50 = true)
include hfp

/-- `fres`, by the kind of its operand. -/
theorem exec_ppeFres (hfit : fitsSingle (s.thr.getFpr frb) = true) : ∃ r : FpRes,
    (∃ f, Machine.exec (.ppeFres frt frb rec) s = fpEnd (s.drew 2) f ∧ f s.thr = (r.apply frt s.thr).recordCr1 rec) ∧
    (∀ n, num (s.thr.getFpr frb) = .zero n → r = zeroDivideRes s.thr.fpscr n) ∧
    (∀ n, num (s.thr.getFpr frb) = .inf n → ∃ bits, r = estimateRes (BitVec.ofNat 64 (f64.image n 0)) (classZero n) bits) ∧
    ∀ n m e, num (s.thr.getFpr frb) = .fin n m e → ∃ cand cls bits, r = estimateRes (estimate cand
      (doubleImage (BitVec.ofNat 32 (ieeeRound f32 .nearest n (stickyInverse m) (0 - e - (128 + m.log2 : Nat) - 1)).image))
      (finWith n fun mc ec => nearReciprocal 256 mc ec m e)) cls bits := by
  have he : Machine.exec (.ppeFres frt frb rec) s = execPpeFres frt frb rec s := rfl
  unfold execPpeFres at he
  replace he := he.trans (fpGuard_of_fp (s := s.drew 2) hfp)
  rw [if_neg (by simp [hfit])] at he
  refine ⟨_, ⟨_, he, rfl⟩, fun n hn => ?_, fun n hn => ?_, fun n m e hn => ?_⟩
  · simp only [hn]
  · simp only [hn]
    exact ⟨_, rfl⟩
  · simp only [hn, divFin_one]
    exact ⟨_, _, _, rfl⟩

/-- `frsqrte`, by the kind of its operand. -/
theorem exec_ppeFrsqrte : ∃ r : FpRes,
    (∃ f, Machine.exec (.ppeFrsqrte frt frb rec) s = fpEnd (s.drew 2) f ∧ f s.thr = (r.apply frt s.thr).recordCr1 rec) ∧
    (∀ n, num (s.thr.getFpr frb) = .zero n → r = zeroDivideRes s.thr.fpscr n) ∧
    ∀ m e S e', num (s.thr.getFpr frb) = .fin false m e → sqrtFin m e = .fin false S e' → ∃ cand cls bits, r = estimateRes (estimate cand
      (BitVec.ofNat 64 (ieeeRound f64 .nearest false (stickyInverse S) (0 - e' - (128 + S.log2 : Nat) - 1)).image)
      (finWith false fun mc ec => nearRsqrt 32 mc ec m e)) cls bits := by
  have he : Machine.exec (.ppeFrsqrte frt frb rec) s = execPpeFrsqrte frt frb rec s := rfl
  unfold execPpeFrsqrte at he
  replace he := he.trans (fpGuard_of_fp (s := s.drew 2) hfp)
  rw [if_neg fun h => absurd h.1 (by decide)] at he
  refine ⟨_, ⟨_, he, rfl⟩, fun n hn => ?_, fun m e S e' hn hs => ?_⟩
  · simp only [hn]
  · simp only [hn, hs, divFin_one]
    exact ⟨_, _, _, rfl⟩

end

section
variable {s : State} {frt frb : BitVec 5} {rec : Bool} (hfp : ibit s.thr.msr 50 = true)
include hfp

theorem fres_ends_near (hb : isSingle (s.thr.getFpr frb)) (hlo : 2^948 ≤ (Safety.scaled (s.thr.getFpr frb)).natAbs)
    (hhi : (Safety.scaled (s.thr.getFpr frb)).natAbs ≤ 2^1200) :
    FloatEnds (.ppeFres frt frb rec) s (floatWrites frt rec) fun u => finiteDouble (u.getFpr frt) ∧
      nearInverse 256 (Safety.scaled (s.thr.getFpr frb)) (Safety.scaled (u.getFpr frt)) := by
  obtain ⟨r, ⟨f, he, hf⟩, -, -, hfin⟩ := exec_ppeFres (frt := frt) (rec := rec) hfp (fitsSingle_of_isSingle hb)
  obtain ⟨n, hn⟩ | ⟨n, m, e, hn⟩ := num_of_finite hb.1
  · rw [scaled_of_zero hn] at hlo
    exact absurd hlo (Nat.two_pow_pos _).not_ge
  · obtain ⟨cand, cls, bits, rfl⟩ := hfin n m e hn
    exact floatEnds_of_estimateRes he hf fun u hu => hu ▸ nearInverse_of_finWith hn (estimate_reciprocal cand hn hlo hhi)

theorem frsqrte_ends_near (hb : finiteDouble (s.thr.getFpr frb)) (h0 : 0 < Safety.scaled (s.thr.getFpr frb)) :
    FloatEnds (.ppeFrsqrte frt frb rec) s (floatWrites frt rec) fun u => finiteDouble (u.getFpr frt) ∧
      nearInverseRoot 32 (Safety.scaled (s.thr.getFpr frb)) (Safety.scaled (u.getFpr frt)) := by
  obtain ⟨r, ⟨f, he, hf⟩, -, hfin⟩ := exec_ppeFrsqrte (frt := frt) (frb := frb) (rec := rec) hfp
  obtain ⟨n, hn⟩ | ⟨n, m, e, hn⟩ := num_of_finite hb
  · rw [scaled_of_zero hn] at h0
    exact absurd h0 (lt_irrefl _)
  · obtain ⟨hm, -, hs⟩ := scaled_of_fin hn
    cases n with
    | true =>
      rw [hs, signedNat, if_pos rfl] at h0
      omega
    | false =>
      obtain ⟨S, e', hsqrt, hS, hst⟩ := sqrtFin_standsFor hm e
      obtain ⟨cand, cls, bits, rfl⟩ := hfin m e S e' hn hsqrt
      exact floatEnds_of_estimateRes he hf fun u hu => hu ▸ nearInverseRoot_of_finWith hn (estimate_rsqrt cand hn hS hst)

/-- The estimates: the third part of O25. -/
theorem estimates_end :
    let b := s.thr.getFpr frb
    let estimate (i : Instr) (P : Thread → Prop) : Prop := FloatEnds i s (floatWrites frt rec) P
    let infinite (u : Thread) : Prop := u.getFpr frt = ibm b 0 1 ++ 0x7FF#11 ++ 0#52 ∧ ibit u.fpscr 5 = true
    (isSingle b → 2^948 ≤ (Safety.scaled b).natAbs → (Safety.scaled b).natAbs ≤ 2^1200 → estimate (.ppeFres frt frb rec) fun u =>
      finiteDouble (u.getFpr frt) ∧ nearInverse 256 (Safety.scaled b) (Safety.scaled (u.getFpr frt))) ∧
    (finiteDouble b → 0 < Safety.scaled b → estimate (.ppeFrsqrte frt frb rec) fun u =>
      finiteDouble (u.getFpr frt) ∧ nearInverseRoot 32 (Safety.scaled b) (Safety.scaled (u.getFpr frt))) ∧
    (finiteDouble b → Safety.scaled b = 0 → ibit s.thr.fpscr 27 = false →
      estimate (.ppeFres frt frb rec) infinite ∧ estimate (.ppeFrsqrte frt frb rec) infinite) ∧
    (b.toNat % 2^63 = 0x7FF0000000000000 → estimate (.ppeFres frt frb rec) fun u => u.getFpr frt = ibm b 0 1 ++ 0#63) := by
  intro b estimate infinite
  refine ⟨fres_ends_near hfp, frsqrte_ends_near hfp, fun hb h0 hze => ?_, fun hb => ?_⟩
  · obtain ⟨n, hn⟩ : ∃ n, num b = .zero n := (num_of_finite hb).resolve_right fun ⟨n, m, e, hn⟩ => by
      obtain ⟨hm, -, hs⟩ := scaled_of_fin hn
      rw [h0] at hs
      exact mul_ne_zero hm (Nat.two_pow_pos _).ne' (signedNat_eq_zero.mp hs.symm)
    constructor
    · obtain ⟨r, ⟨f, he, hf⟩, hzero, -, -⟩ := exec_ppeFres (frt := frt) (rec := rec) hfp (fitsSingle_of_kind (.inl ⟨n, hn⟩))
      exact floatEnds_of_zeroDivideRes he hn (hzero n hn ▸ hf) hze
    · obtain ⟨r, ⟨f, he, hf⟩, hzero, -⟩ := exec_ppeFrsqrte (frt := frt) (frb := frb) (rec := rec) hfp
      exact floatEnds_of_zeroDivideRes he hn (hzero n hn ▸ hf) hze
  · have hn := num_infinite hb
    obtain ⟨r, ⟨f, he, hf⟩, -, hinf, -⟩ := exec_ppeFres (frt := frt) (rec := rec) hfp (fitsSingle_of_kind (.inr ⟨_, hn⟩))
    obtain ⟨bits, rfl⟩ := hinf _ hn
    exact floatEnds_of_estimateRes he hf fun u hu => hu.trans (image_zero_magnitude b)

end

/-- Settles O25: the rounded operations, the square roots and the estimates. -/
theorem floatResultsRoundOnce : Obligations.FloatResultsRoundOnce := by
  refine ⟨fun i frt single neg valid k x h s hfp hv hoe hue => (roundedOutcome_of_roundedOp hfp h hv).rounds hoe hue,
    fun i frt frb single h s hfp hni hb h0 => floatEnds_of_floatRoot h hfp hni hb h0, fun frt frb rec s hfp => estimates_end hfp⟩

end Sys2Proof.Machine
end

section
/-! What problem state may not change (10_state R80, 44_ppe_system R920): the privileged state of two states compared, and what an update,
an interrupt, the end of an instruction and a guard make of it. -/

namespace Sys2Proof.Machine

open Sys2Proof.Safety

/-! ## The privileged registers -/

/-- A run from `s₀` to `t` has left problem state, or has kept the privileged registers. -/
def Confined (s₀ t : State) : Prop :=
  t.curT = s₀.curT ∧ (ibit t.thr.msr 49 = true →
    (∀ u : Fin 2, supervisorView t.threads[u] = supervisorView s₀.threads[u]) ∧ hypervisorView t.ppe = hypervisorView s₀.ppe)

/-- Two states have the same moving thread and the same privileged registers. -/
structure SamePrivileged (s t : State) : Prop where
  cur : t.curT = s.curT
  thread : ∀ u : Fin 2, supervisorView t.threads[u] = supervisorView s.threads[u]
  shared : hypervisorView t.ppe = hypervisorView s.ppe

theorem SamePrivileged.symm {s t : State} (h : SamePrivileged s t) : SamePrivileged t s :=
  ⟨h.cur.symm, fun u => (h.thread u).symm, h.shared.symm⟩

/-- The MSR is among the privileged registers. -/
theorem SamePrivileged.msr {s t : State} (h : SamePrivileged s t) : t.thr.msr = s.thr.msr := by
  have hv : t.threads[t.curT].msr = s.threads[t.curT].msr := congrArg (fun v => v.1.1) (h.thread t.curT)
  simpa only [State.thr, h.cur] using hv

theorem Confined.refl (s : State) : Confined s s := ⟨rfl, fun _ => ⟨fun _ => rfl, rfl⟩⟩

section
variable {s₀ s : State}

theorem Confined.of_same {t : State} (h : Confined s₀ s) (hs : SamePrivileged s t) : Confined s₀ t := by
  obtain ⟨hc, hk⟩ := h
  refine ⟨hs.cur.trans hc, fun hp => ?_⟩
  obtain ⟨hv, hw⟩ := hk (hs.msr ▸ hp)
  exact ⟨fun u => (hs.thread u).trans (hv u), hs.shared.trans hw⟩

/-- Only the privileged registers matter. -/
theorem confined_congr {t : State} (hs : SamePrivileged s t) : Confined s₀ t ↔ Confined s₀ s :=
  ⟨fun h => h.of_same hs.symm, fun h => h.of_same hs⟩

@[simp] theorem confined_mk {spes : Vector Spe 8} {plat : Platform} {mem : List Host.Cell} {cfg : ChipConfig}
    {sel : MfcSel} {schedule : List Move} {freeCount : Nat} {stopped : Option Fault} :
    Confined s₀ ⟨s.threads, s.ppe, spes, plat, mem, cfg, s.cur, sel, schedule, freeCount, stopped⟩ ↔ Confined s₀ s := .rfl

@[simp] theorem confined_ite {c : Prop} [Decidable c] {a b : State} :
    Confined s₀ (if c then a else b) ↔ if c then Confined s₀ a else Confined s₀ b := by split <;> rfl

@[simp] theorem confined_modN {n : Fin 8} {f : Spe → Spe} : Confined s₀ (s.modN n f) ↔ Confined s₀ s := .rfl
@[simp] theorem confined_modSpe {f : Spe → Spe} : Confined s₀ (s.modSpe f) ↔ Confined s₀ s := .rfl
@[simp] theorem confined_drew {k : Nat} : Confined s₀ (s.drew k) ↔ Confined s₀ s := .rfl

/-- A write of the TLB or of the instruction cache. -/
@[simp] theorem confined_setTlb {key : Nat} {x : TlbEntry} : Confined s₀ (s.setTlb key x) ↔ Confined s₀ s :=
  confined_congr ⟨rfl, fun _ => rfl, rfl⟩
@[simp] theorem confined_icbiLine {ra : Nat} : Confined s₀ (s.icbiLine ra) ↔ Confined s₀ s :=
  confined_congr ⟨rfl, fun _ => rfl, rfl⟩

/-- An update of one thread outside its privileged registers. -/
@[simp] theorem confined_modT_frame {u : Fin 2} {f : Thread → Thread} (hf : ∀ th, supervisorView (f th) = supervisorView th) :
    Confined s₀ (s.modT u f) ↔ Confined s₀ s := by
  refine confined_congr ⟨rfl, fun v => ?_, rfl⟩
  rw [State.threads_modT]
  split
  · next h => rw [hf, h]
  · rfl

@[simp] theorem confined_modThr_frame {f : Thread → Thread} (hf : ∀ th, supervisorView (f th) = supervisorView th) :
    Confined s₀ (s.modThr f) ↔ Confined s₀ s := confined_modT_frame hf

theorem confined_mapThreads {f : Thread → Thread} (h : Confined s₀ s) (hf : ∀ th, supervisorView (f th) = supervisorView th) :
    Confined s₀ { s with threads := s.threads.map f } :=
  h.of_same ⟨rfl, fun u => by simp [hf], rfl⟩

/-! ## Register writes outside the privileged registers -/

section
variable (th : Thread)

/-- Only the privileged registers of a thread matter. -/
@[simp] theorem supervisorView_mk (pc : DWord) (gpr fpr : Vector DWord 32) (vr : Vector QWord 32) (lr ctr xer : DWord)
    (cr fpscr vscr vrsave : Word) (reserve : Option Nat) (dsisr : Word) (dar : DWord) (tsrlTp : BitVec 2) (tlbHint : DWord)
    (ranges : RangeRegs) (erat : List EratEntry) (resumeReq sysErr : Bool) (mcheck : Option Nat) (maint : BitVec 2)
    (maintInstr : BitVec 4) :
    supervisorView ⟨pc, gpr, fpr, vr, lr, ctr, xer, cr, fpscr, vscr, vrsave, reserve, th.msr, th.srr0, th.srr1, th.hsrr0, th.hsrr1,
      dsisr, dar, th.sprg0, th.sprg1, th.sprg2, th.sprg3, th.hsprg0, th.hsprg1, th.dec, th.lpcrMer, th.lpcrRmi, th.lpcrHdice, th.dabr,
      th.dabrx, th.accr, tsrlTp, tlbHint, ranges, th.slb, erat, resumeReq, sysErr, mcheck, maint, maintInstr⟩ = supervisorView th := by
  dsimp only [supervisorView]

@[simp] theorem supervisorView_ite {c : Prop} [Decidable c] {a b : Thread} :
    supervisorView (if c then a else b) = if c then supervisorView a else supervisorView b := apply_ite _ _ _ _

@[simp] theorem supervisorView_advance : supervisorView th.advance = supervisorView th := by
  dsimp only [supervisorView, Thread.advance]
@[simp] theorem supervisorView_setGpr (r : BitVec 5) (v : DWord) : supervisorView (th.setGpr r v) = supervisorView th := by
  dsimp only [supervisorView, Thread.setGpr]
@[simp] theorem supervisorView_setFpr (r : BitVec 5) (v : DWord) : supervisorView (th.setFpr r v) = supervisorView th := by
  dsimp only [supervisorView, Thread.setFpr]
@[simp] theorem supervisorView_setVr (r : BitVec 5) (v : QWord) : supervisorView (th.setVr r v) = supervisorView th := by
  dsimp only [supervisorView, Thread.setVr]
@[simp] theorem supervisorView_setCa (c : Bool) : supervisorView (th.setCa c) = supervisorView th := by
  dsimp only [supervisorView, Thread.setCa]
@[simp] theorem supervisorView_setOv (c : Bool) : supervisorView (th.setOv c) = supervisorView th := by
  dsimp only [supervisorView, Thread.setOv]
@[simp] theorem supervisorView_setCrField (k : BitVec 3) (v : BitVec 4) :
    supervisorView (th.setCrField k v) = supervisorView th := by
  dsimp only [supervisorView, Thread.setCrField]
@[simp] theorem supervisorView_setCrBit (k : BitVec 5) (b : Bool) : supervisorView (th.setCrBit k b) = supervisorView th := by
  dsimp only [supervisorView, Thread.setCrBit]
@[simp] theorem supervisorView_recordCr0 (r : DWord) : supervisorView (th.recordCr0 r) = supervisorView th := by
  simp [Thread.recordCr0]
@[simp] theorem supervisorView_recordCr6 (a b : Bool) : supervisorView (th.recordCr6 a b) = supervisorView th := by
  simp [Thread.recordCr6]
@[simp] theorem supervisorView_jump (taken : Bool) (a : DWord) (lk : Bool) :
    supervisorView (th.jump taken a lk) = supervisorView th := by
  simp [Thread.jump]

@[simp] theorem supervisorView_loseReserve (g : Nat) : supervisorView (th.loseReserve g) = supervisorView th := by
  simp [Thread.loseReserve]

@[simp] theorem supervisorView_setPriority (p : PpeShared) (w : BitVec 2) :
    supervisorView (th.setPriority p w) = supervisorView th := by
  simp [Thread.setPriority]

@[simp] theorem supervisorView_setWords (r : Nat) (l : List Nat) : supervisorView (th.setWords r l) = supervisorView th := by
  induction l generalizing th r with
  | nil => rfl
  | cons v rest ih => exact ih _ _

@[simp] theorem supervisorView_recordIf (rec : Bool) (r : DWord) : supervisorView (th.recordIf rec r) = supervisorView th := by
  simp [Thread.recordIf]

@[simp] theorem supervisorView_recordCr1 (rec : Bool) : supervisorView (th.recordCr1 rec) = supervisorView th := by
  simp [Thread.recordCr1]

@[simp] theorem supervisorView_saturateIf (b : Bool) : supervisorView (th.saturateIf b) = supervisorView th := by
  simp [Thread.saturateIf]

@[simp] theorem supervisorView_setSat (vrt : BitVec 5) (r : QWord × Bool) :
    supervisorView (th.setSat vrt r) = supervisorView th := by
  simp [Thread.setSat]

@[simp] theorem supervisorView_compareEls (len cnt : Nat) (vrt : BitVec 5) (rec : Bool) (rel : Nat → Bool) :
    supervisorView (compareEls len cnt vrt rec rel th) = supervisorView th := by
  simp [compareEls]

@[simp] theorem supervisorView_addForm (rt : BitVec 5) (x y : DWord) (c setCa oe rec : Bool) :
    supervisorView (addForm rt x y c setCa oe rec th) = supervisorView th := by
  simp [addForm]

@[simp] theorem supervisorView_mulForm (rt : BitVec 5) (r : DWord) (ov oe rec : Bool) :
    supervisorView (mulForm rt r ov oe rec th) = supervisorView th := by
  simp [mulForm]

@[simp] theorem supervisorView_undefinedRecord (s : State) (k : Nat) (r : DWord) (rec : Bool) :
    supervisorView (undefinedRecord s k r rec th) = supervisorView th := by
  simp [undefinedRecord]

@[simp] theorem supervisorView_compareForm (bf : BitVec 3) (x y : Int) :
    supervisorView (compareForm bf x y th) = supervisorView th := by
  simp [compareForm]

@[simp] theorem supervisorView_logicForm (ra : BitVec 5) (r : DWord) (rec : Bool) :
    supervisorView (logicForm ra r rec th) = supervisorView th := by
  simp [logicForm]

@[simp] theorem supervisorView_sraForm (ra : BitVec 5) (w : Int) (n : Nat) (rec : Bool) :
    supervisorView (sraForm ra w n rec th) = supervisorView th := by
  simp [sraForm]

@[simp] theorem supervisorView_crLogic (f : Bool → Bool → Bool) (bt ba bb : BitVec 5) :
    supervisorView (crLogic f bt ba bb th) = supervisorView th := by
  simp [crLogic]

@[simp] theorem supervisorView_countDown (bo : BitVec 5) : supervisorView (th.countDown bo) = supervisorView th := by
  simp [Thread.countDown]

@[simp] theorem supervisorView_apply (r : FpRes) (frt : BitVec 5) : supervisorView (r.apply frt th) = supervisorView th := by
  unfold FpRes.apply
  dsimp only
  split <;> simp

end

/-! ## Interrupts -/

/-- An interrupt ends problem state (60_exceptions R1805). -/
theorem newMsr_problem (p : PpeShared) (k : Interrupt) (m : DWord) : ibit (newMsr p k m) 49 = false := by
  have h0 : ibit ((m ||| 0x8000000000000000#64) &&& ~~~0xEF30#64) 49 = false := by
    rw [ibit_and, show ibit (~~~0xEF30#64) 49 = false by decide, Bool.and_false]
  have hset : ∀ (n : DWord) (j : Nat) (b : Bool), j < 64 → j ≠ 49 → ibit (setIbit n j b) 49 = ibit n 49 := fun n j b hj hne => by
    rw [ibit_setIbit _ _ _ _ hj (by decide), if_neg hne]
  unfold newMsr
  dsimp only
  split <;> split <;> simp only [hset, h0, Nat.reduceLT, ne_eq, Nat.reduceEqDiff, not_false_eq_true]

/-- An interrupt of the moving thread. -/
theorem interrupt_confined {k : Interrupt} {ret info : DWord} (hc : s.curT = s₀.curT) :
    Confined s₀ (s.interrupt s.curT k ret info) := by
  refine ⟨hc, fun hp => absurd hp (Bool.eq_false_iff.mp ?_)⟩
  rw [State.interrupt, ← State.modThr, State.thr_modThr]
  exact newMsr_problem _ _ _

@[simp] theorem stopWith_confined {f : Fault} (h : Confined s₀ s) : OutAll (Confined s₀) (s.stopWith f) := h
@[simp] theorem checkstop_confined (h : Confined s₀ s) : OutAll (Confined s₀) s.checkstop := stopWith_confined h
@[simp] theorem raise_confined {k : Interrupt} {info : DWord} (h : Confined s₀ s) : OutAll (Confined s₀) (s.raise k info) :=
  interrupt_confined h.1
@[simp] theorem illegal_confined (h : Confined s₀ s) : OutAll (Confined s₀) s.illegal := raise_confined h
@[simp] theorem privileged_confined (h : Confined s₀ s) : OutAll (Confined s₀) s.privileged := raise_confined h
@[simp] theorem trapInt_confined (h : Confined s₀ s) : OutAll (Confined s₀) s.trapInt := raise_confined h
@[simp] theorem fpEnabledInt_confined (h : Confined s₀ s) : OutAll (Confined s₀) s.fpEnabledInt := raise_confined h
@[simp] theorem fpUnavailable_confined (h : Confined s₀ s) : OutAll (Confined s₀) s.fpUnavailable := raise_confined h
@[simp] theorem vxuUnavailable_confined (h : Confined s₀ s) : OutAll (Confined s₀) s.vxuUnavailable := raise_confined h

theorem takeMachineCheck_confined (h : Confined s₀ s) : OutAll (Confined s₀) (s.takeMachineCheck s.curT) :=
  .ite (checkstop_confined h) (interrupt_confined h.1)

/-! ## The ends of an instruction, and its guards -/

@[simp] theorem ppeNext_confined {f : Thread → Thread} (h : Confined s₀ s)
    (hf : ∀ th, supervisorView (f th) = supervisorView th) : OutAll (Confined s₀) (ppeNext s f) := by
  simpa [ppeNext, hf] using h

@[simp] theorem vmxNext_confined {f : Thread → Thread} (h : Confined s₀ s)
    (hf : ∀ th, supervisorView (f th) = supervisorView th) : OutAll (Confined s₀) (vmxNext s f) :=
  .ite (ppeNext_confined h hf) (vxuUnavailable_confined h)

@[simp] theorem spuNext_confined {f : Spe → Spe} (h : Confined s₀ s) : OutAll (Confined s₀) (spuNext s f) := h

theorem fpGuard_confined {o : Out State} (h : Confined s₀ s) (ho : OutAll (Confined s₀) o) : OutAll (Confined s₀) (fpGuard s o) :=
  .ite ho (fpUnavailable_confined h)

theorem vmxGuard_confined {o : Out State} (h : Confined s₀ s) (ho : OutAll (Confined s₀) o) : OutAll (Confined s₀) (vmxGuard s o) :=
  .ite ho (vxuUnavailable_confined h)

/-- The guards of the privileged instructions stop them in problem state. -/
theorem supervisor_confined {o : Out State} (h : Confined s₀ s) (hp : ibit s.thr.msr 49 = true) :
    OutAll (Confined s₀) (supervisor s o) := by
  simp [supervisor, hp, h]

theorem hypervisorOnly_confined {o : Out State} (h : Confined s₀ s) (hp : ibit s.thr.msr 49 = true) :
    OutAll (Confined s₀) (hypervisorOnly s o) := by
  simp [hypervisorOnly, hp, h]

theorem tlbManager_confined {o : Out State} (h : Confined s₀ s) (hp : ibit s.thr.msr 49 = true) :
    OutAll (Confined s₀) (tlbManager s o) := by
  simp [tlbManager, hp, h]

/-! ## Stores, and the reservations they end -/

@[simp] theorem noteStore_confined {b : Option Agent} {g : Nat} (h : Confined s₀ s) : Confined s₀ (s.noteStore b g) := by
  refine h.of_same ⟨rfl, fun u => ?_, rfl⟩
  obtain he | he := State.threads_noteStore s b g u
  · rw [he]
  · rw [he, supervisorView_loseReserve]

@[simp] theorem noteStores_confined {b : Option Agent} {a k : Nat} (h : Confined s₀ s) : Confined s₀ (s.noteStores b a k) := by
  simp [State.noteStores, h]

@[simp] theorem storeMem_confined {b : Option Agent} {a k v : Nat} (h : Confined s₀ s) : Confined s₀ (s.storeMem b a k v) :=
  noteStores_confined (s := { s with mem := _ }) h

@[simp] theorem noteTouch_confined {g : Nat} (h : Confined s₀ s) : Confined s₀ (s.noteTouch g) := by
  simp [State.noteTouch, h]

end

end Sys2Proof.Machine
end

section
/-! Translation, pending inbound writes, interrupt packets: what problem state may not change stays. -/

namespace Sys2Proof.Machine

open Sys2Proof.Safety

section
variable {s₀ s : State}

/-! ## Translation (Machine/Mmu.lean) -/

theorem tableSearch_confined {sdr : DWord} {e : SlbEntry} {va : BitVec 80} {p : Nat} {several : Out State} (h : Confined s₀ s)
    (hs : OutAll (Confined s₀) several) : WalkAll (Confined s₀) (tableSearch s sdr e va p several) := by
  unfold tableSearch
  dsimp only
  split
  · trivial
  · split
    · exact checkstop_confined h
    · split
      · trivial
      · simp [hs]

@[simp] theorem setPteBits_confined {a : Agent} {k : Nat} {d bits : DWord} (h : Confined s₀ s) :
    Confined s₀ (s.setPteBits a k d bits) := by
  simp [State.setPteBits, h]

@[simp] theorem realMode_confined {th : Thread} {ea : DWord} {k : Kind} (h : Confined s₀ s) :
    LookupAll (Confined s₀) (realMode s th ea k) := by
  simp [realMode, h]

@[simp] theorem pageOrRefuse_confined {x : TlbEntry} {e : SlbEntry} {ea : DWord} {p : Nat} {slot pte : Option Nat} (h : Confined s₀ s) :
    LookupAll (Confined s₀) (pageOrRefuse s x e ea p slot pte) := by
  unfold pageOrRefuse
  split
  · trivial
  · exact h

@[simp] theorem reload_confined {t : Fin 2} {e : SlbEntry} {ea : DWord} {p key : Nat} (h : Confined s₀ s) :
    LookupAll (Confined s₀) (reload s t e ea p key) := by
  have hw := tableSearch_confined (sdr := s.ppe.sdr1) (e := e) (va := vaOf e ea) (p := p) h (checkstop_confined h)
  unfold reload
  dsimp only
  split
  · next he => rwa [he] at hw
  · exact h
  · exact pageOrRefuse_confined (by simp [h])

@[simp] theorem virtualMode_confined {t : Fin 2} {th : Thread} {ea : DWord} {k : Kind} (h : Confined s₀ s) :
    LookupAll (Confined s₀) (virtualMode s t th ea k) := by
  unfold virtualMode
  split
  · exact h
  · split
    · trivial
    · dsimp only
      split
      · exact pageOrRefuse_confined h
      · simp [h]
  · exact checkstop_confined h

theorem lookup_confined {t : Fin 2} {ea : DWord} {k : Kind} (h : Confined s₀ s) : LookupAll (Confined s₀) (lookup s t ea k) := by
  unfold lookup
  dsimp only
  split
  · exact h
  · simp [h]

theorem pteOfPage_confined {t : Fin 2} {p : Page} {ea : DWord} (h : Confined s₀ s) :
    WalkAll (Confined s₀) (s.pteOfPage t p ea) := by
  unfold State.pteOfPage
  split
  · trivial
  · split
    · exact tableSearch_confined h (checkstop_confined h)
    · trivial

@[simp] theorem markChange_confined {t : Fin 2} {key : Nat} {p : Page} {ea : DWord} (h : Confined s₀ s) :
    Confined s₀ (s.markChange t key p ea) := by
  unfold State.markChange
  dsimp only
  split
  · simp [h]
  · exact h

@[simp] theorem setReference_confined {t : Fin 2} {p : Page} {ea : DWord} (h : Confined s₀ s) :
    Confined s₀ (s.setReference t p ea) := by
  unfold State.setReference
  split
  · split
    · exact setPteBits_confined h
    · exact h
  · exact h

theorem setChange_confined {t : Fin 2} {p : Page} {ea : DWord} (h : Confined s₀ s) : ResAll (Confined s₀) (s.setChange t p ea) := by
  have hw := pteOfPage_confined (t := t) (p := p) (ea := ea) h
  unfold State.setChange
  split
  · exact h
  · split
    · exact h
    · split
      · next he => rwa [he] at hw
      · exact markChange_confined h
      · exact markChange_confined (setPteBits_confined h)

/-! ## Pending inbound writes (Machine/Inbound.lean) -/

theorem modInbound_confined {x : Inbound} {f : IoWrite → IoWrite} (h : Confined s₀ s) : Confined s₀ (s.modInbound x f) := by
  unfold State.modInbound
  dsimp only
  split <;> exact h

theorem putInbound_confined {n : Option (Fin 8)} {part : Nat × List Byte} (h : Confined s₀ s) :
    Confined s₀ (s.putInbound n part) := by
  unfold State.putInbound
  cases n with
  | none => exact storeMem_confined h
  | some n => exact h

theorem inboundWhole_confined {y : Inbound} (h : Confined s₀ s) : Confined s₀ (s.inboundWhole y) :=
  modInbound_confined (foldl_keeps (fun _ _ => putInbound_confined) _ h)

theorem performInbound_confined {f : Inbound → Bool} (h : Confined s₀ s) : Confined s₀ (s.performInbound f) :=
  foldl_keeps (fun _ _ => inboundWhole_confined) _ h

@[simp] theorem meetAlias_confined {n : Fin 8} (h : Confined s₀ s) : Confined s₀ (s.meetAlias n) := performInbound_confined h

theorem meetInterrupt_confined {f : Packet → Bool} (h : Confined s₀ s) :
    Confined s₀ (s.meetInterrupt f) := performInbound_confined h

/-! ## Interrupt packets (Machine/Iic.lean) -/

@[simp] theorem confined_modIic {t : Fin 2} {f : Iic → Iic} : Confined s₀ (s.modIic t f) ↔ Confined s₀ s := .rfl

/-- A packet that the controllers accept. -/
theorem deliver_confined {p : Packet} {t : State} (h : Confined s₀ s) (hd : s.deliver p = some t) : Confined s₀ t := by
  unfold State.deliver at hd
  dsimp only at hd
  split at hd
  · obtain ⟨-, he⟩ := Option.ite_none_left_eq_some.mp hd
    cases he
    exact h
  · cases hd
    exact h

@[simp] theorem sendIsr_confined (h : Confined s₀ s) : ResAll (Confined s₀) s.sendIsr := by
  unfold State.sendIsr
  dsimp only
  split
  · trivial
  · split
    · next hd => exact deliver_confined h hd
    · exact h

@[simp] theorem raiseIsr_confined {bits : DWord} (h : Confined s₀ s) : ResAll (Confined s₀) (s.raiseIsr bits) := by
  simp [State.raiseIsr, h]

@[simp] theorem clearIsr_confined {v : DWord} (h : Confined s₀ s) : ResAll (Confined s₀) (s.clearIsr v) := by
  simp [State.clearIsr, h]

@[simp] theorem setSignalCell_confined {off : Nat} {v : DWord} (h : Confined s₀ s) : ResAll (Confined s₀) (s.setSignalCell off v) :=
  raiseIsr_confined h

theorem resendIo_confined {l : List Packet} (h : Confined s₀ s) : Confined s₀ (s.resendIo l) := by
  induction l generalizing s with
  | nil => exact h
  | cons p rest ih =>
    unfold State.resendIo
    split
    · next hd =>
      have ht := deliver_confined h hd
      exact ih ht
    · exact ih h

theorem resendIsr_confined {l : List Packet} (h : Confined s₀ s) : Confined s₀ (s.resendIsr l) := by
  induction l generalizing s with
  | nil => exact h
  | cons p rest ih =>
    unfold State.resendIsr
    split
    · next hd =>
      have ht := deliver_confined h hd
      exact ih ht
    · exact ih h

theorem resendSpe_confined {x : Fin 8 × Fin 3} (h : Confined s₀ s) : Confined s₀ (s.resendSpe x) := by
  unfold State.resendSpe
  split
  · exact h
  · split
    · next hd =>
      have ht := deliver_confined h hd
      exact ht
    · exact h

theorem reissue_confined (h : Confined s₀ s) : Confined s₀ s.reissue := by
  unfold State.reissue
  exact resendIo_confined (foldl_keeps (P := Confined s₀) (fun _ _ h => resendSpe_confined h) _ (resendIsr_confined h))

@[simp] theorem ippTake_confined {t : Fin 2} (h : Confined s₀ s) : Confined s₀ (s.ippTake t).2 := by
  simp only [State.ippTake]
  exact reissue_confined (confined_modIic.mpr h)

@[simp] theorem ippSeen_confined {t : Fin 2} (h : Confined s₀ s) : Confined s₀ (s.ippSeen t) := by
  unfold State.ippSeen
  split
  · exact meetInterrupt_confined h
  · exact h

@[simp] theorem sendInt_confined {n : Fin 8} {c : Fin 3} (h : Confined s₀ s) : ResAll (Confined s₀) (s.sendInt n c) := by
  unfold State.sendInt
  dsimp only
  split
  · exact h
  · split
    · trivial
    · split
      · next hd => exact deliver_confined h hd
      · exact h

@[simp] theorem changeInt_confined {n : Fin 8} {c : Fin 3} {again : Bool} {f : Spe → Spe} (h : Confined s₀ s) :
    ResAll (Confined s₀) (s.changeInt n c again f) := by
  simp [State.changeInt, h]

@[simp] theorem raiseInt_confined {n : Fin 8} {c : Fin 3} {bits : DWord} (h : Confined s₀ s) :
    ResAll (Confined s₀) (s.raiseInt n c bits) := changeInt_confined h

@[simp] theorem storeIntMask_confined {n : Fin 8} {c : Fin 3} {v : DWord} (h : Confined s₀ s) :
    ResAll (Confined s₀) (s.storeIntMask n c v) := changeInt_confined h

@[simp] theorem storeIntStat_confined {n : Fin 8} {c : Fin 3} {v : DWord} (h : Confined s₀ s) :
    ResAll (Confined s₀) (s.storeIntStat n c v) := changeInt_confined h

@[simp] theorem storeFir_confined {n : Fin 8} {key : Nat} {v : DWord} (h : Confined s₀ s) :
    ResAll (Confined s₀) (s.storeFir n key v) := by
  simp [State.storeFir, h]

end

end Sys2Proof.Machine
end

section
/-! The SPUs and their channels, the memory management of the MFCs, the registers of the SPEs and of the platform: what problem state may
not change stays. Only the system error signal reaches the threads from here, and it is none of that. -/

namespace Sys2Proof.Machine

open Sys2Proof.Safety

section
variable {s₀ s : State}

/-! ## Running, branches, channels (Machine/SpuOps.lean) -/

/-- An answer that goes on with the state. -/
theorem next_confined {α : Type} {r : Res α} (h : ResAll (Confined s₀) r) : OutAll (Confined s₀) (r.done fun _ s => .next s) :=
  h.done fun _ _ h => h

@[simp] theorem stopSignal_confined {code : BitVec 14} (h : Confined s₀ s) : OutAll (Confined s₀) (s.stopSignal code) :=
  next_confined (by simp [h])

@[simp] theorem spuHalt_confined (h : Confined s₀ s) : OutAll (Confined s₀) s.spuHalt := next_confined (by simp [h])

@[simp] theorem haltIf_confined {b : Bool} (h : Confined s₀ s) : OutAll (Confined s₀) (haltIf s b) := by
  simp [haltIf, h]

@[simp] theorem spuInvalid_confined (h : Confined s₀ s) : OutAll (Confined s₀) s.spuInvalid := by
  unfold State.spuInvalid
  dsimp only
  split
  · exact next_confined (by simp [h])
  · simp [h]

theorem xcellOnly_confined {o : Out State} (h : Confined s₀ s) (ho : OutAll (Confined s₀) o) :
    OutAll (Confined s₀) (xcellOnly s o) := by
  simp [xcellOnly, h, ho]

@[simp] theorem branchIndirect_confined {d e : Bool} {f : Spe → Bool × Word × Spe} (h : Confined s₀ s) :
    OutAll (Confined s₀) (branchIndirect s d e f) := by
  simp [branchIndirect, h]

@[simp] theorem drewSrr0_confined (h : Confined s₀ s) : Confined s₀ s.drewSrr0 := by
  simp [State.drewSrr0, h]

theorem readChannel_confined {ch : Nat} (h : Confined s₀ s) : ResAll (Confined s₀) (readChannel s ch) := by
  unfold readChannel
  dsimp only
  split
  case h_12 => exact ResAll.bind (by simp [h]) fun _ _ h => h
  all_goals simp [h]

@[simp] theorem mfcError_confined {n : Fin 8} {bit : DWord} {index : Nat} (h : Confined s₀ s) :
    ResAll (Confined s₀) (s.mfcError n bit index) := raiseInt_confined h

@[simp] theorem issueSpu_confined {v : Word} (h : Confined s₀ s) : ResAll (Confined s₀) (issueSpu s v) := by
  simp [issueSpu, h]

@[simp] theorem ackStall_confined {v : Word} (h : Confined s₀ s) : Confined s₀ (ackStall s v) := by
  simp [ackStall, h]

theorem writeChannel_confined {ch : Nat} {v : Word} (h : Confined s₀ s) : ResAll (Confined s₀) (writeChannel s ch v) := by
  unfold writeChannel
  split <;> simp [h]

/-! ## Memory management of an MFC (Machine/Smm.lean) -/

@[simp] theorem smmException_confined {n : Fin 8} {ea : DWord} {index : Nat} {stat : DWord} {dsisr : Option DWord} {suspend : Bool}
    (h : Confined s₀ s) : ResAll (Confined s₀) (s.smmException n ea index stat dsisr suspend) := raiseInt_confined h

theorem smmChecks_confined {n : Fin 8} {e : SlbEntry} {key : Nat} {pte : Option Nat} {ea : DWord} {store atomic : Bool} {bits : Nat}
    (h : Confined s₀ s) : DmaAll (Confined s₀) (smmChecks s n e key pte ea store atomic bits) := by
  unfold smmChecks
  extract_lets p x compares s'
  split
  · trivial
  · extract_lets page
    have h' : Confined s₀ s' := by simp [s', h]
    clear_value s' compares page p
    split
    · exact h
    · split
      · exact h
      · split
        · exact h'
        · split
          · cases pte with
            | none => exact h'
            | some a => simp [h']
          · exact h'

theorem smmMiss_confined {n : Fin 8} {e : SlbEntry} {ea : DWord} {bits r : Nat} {old : Option Nat} {store atomic : Bool}
    (h : Confined s₀ s) : DmaAll (Confined s₀) (smmMiss s n e ea bits r old store atomic) := by
  unfold smmMiss
  extract_lets p va key s'
  have h' : Confined s₀ s' := h
  have hw := tableSearch_confined (s := s') (sdr := p.cell keySdr) (e := e) (va := va) (p := bits)
    (several := .refused .smmMultipleMatch) h' trivial
  clear_value s' key p va
  split
  · exact h'
  · split
    · trivial
    · split
      · next he => rwa [he] at hw
      · exact h'
      · split
        · trivial
        · exact smmChecks_confined (by simp [h'])

theorem smmTranslate_confined {n : Fin 8} {ea : DWord} {store atomic : Bool} {r : Nat} (h : Confined s₀ s) :
    DmaAll (Confined s₀) (smmTranslate s n ea store atomic r) := by
  have hm : ∀ e bits old, DmaAll (Confined s₀)
      (if s.spes[n].smmBusy then .held s else smmMiss s n e ea bits r old store atomic) := by
    intro e bits old
    split
    · exact h
    · exact smmMiss_confined h
  unfold smmTranslate
  dsimp only
  split
  · simp [smmAtomic, h]
  · split
    · simp [h]
    · split
      · trivial
      · split
        · exact hm _ _ _
        · split
          · exact hm _ _ _
          · split
            · next he =>
              have hc : DmaAll (Confined s₀) (DmaRes.fault _ _ _ _) := he ▸ smmChecks_confined h
              simp [h, dmaAll_fault.mp hc]
            · exact smmChecks_confined h
    · trivial

@[simp] theorem checkQuery_confined {n : Fin 8} (h : Confined s₀ s) : ResAll (Confined s₀) (s.checkQuery n) := by
  simp [State.checkQuery, h]

/-! ## Registers of an SPE (Machine/SpeMmio.lean) -/

@[simp] theorem misfit_confined {regs : List (Nat × Nat)} {off len : Nat} (h : Confined s₀ s) :
    OutAll (Confined s₀) (misfit s regs off len) := by
  simp [misfit, h]

@[simp] theorem anyRead_confined {w : Nat} (h : Confined s₀ s) : ResAll (Confined s₀) (s.anyRead w) := h

@[simp] theorem readOutMbox_confined {n : Fin 8} (h : Confined s₀ s) : ResAll (Confined s₀) (s.readOutMbox n) := by
  simp [State.readOutMbox, h]

@[simp] theorem readOutIntrMbox_confined {n : Fin 8} (h : Confined s₀ s) : ResAll (Confined s₀) (s.readOutIntrMbox n) := by
  simp [State.readOutIntrMbox, h]

@[simp] theorem problemWord_confined {n : Fin 8} {off : Nat} (h : Confined s₀ s) : ResAll (Confined s₀) (problemWord s n off) := by
  unfold problemWord
  dsimp only
  split <;> simp [h]

@[simp] theorem problemRead_confined {n : Fin 8} {off len : Nat} (h : Confined s₀ s) :
    ResAll (Confined s₀) (problemRead s n off len) := by
  simp [problemRead, h]

@[simp] theorem writeRunCntl_confined {n : Fin 8} {v : Word} (h : Confined s₀ s) : ResAll (Confined s₀) (s.writeRunCntl n v) := by
  simp [State.writeRunCntl, h]

@[simp] theorem writeQueryType_confined {n : Fin 8} {v : Word} (h : Confined s₀ s) :
    ResAll (Confined s₀) (s.writeQueryType n v) := by
  simp [State.writeQueryType, h]

@[simp] theorem problemStore_confined {n : Fin 8} {off : Nat} {v : Word} (h : Confined s₀ s) :
    ResAll (Confined s₀) (problemStore s n off v) := by
  unfold problemStore
  dsimp only
  split <;> simp [h]

@[simp] theorem problemWrite_confined {n : Fin 8} {off len v : Nat} (h : Confined s₀ s) :
    ResAll (Confined s₀) (problemWrite s n off len v) := by
  simp [problemWrite, h]

@[simp] theorem whenStopped_confined {α : Type} {n : Fin 8} {r : Res α} (hr : ResAll (Confined s₀) r) :
    ResAll (Confined s₀) (whenStopped s n r) := by
  simp [whenStopped, hr]

@[simp] theorem priv2Read_confined {n : Fin 8} {off : Nat} (h : Confined s₀ s) : ResAll (Confined s₀) (priv2Read s n off) := by
  unfold priv2Read
  dsimp only
  split
  · exact h
  · split <;> simp [h]

@[simp] theorem priv2Write_confined {n : Fin 8} {off : Nat} {v : DWord} (h : Confined s₀ s) :
    ResAll (Confined s₀) (priv2Write s n off v) := by
  unfold priv2Write
  dsimp only
  split
  · simp [h]
  · split <;> simp [h]

theorem withTlbKey_confined {α : Type} {n : Fin 8} {f : Nat → Res α} (hf : ∀ k, ResAll (Confined s₀) (f k)) :
    ResAll (Confined s₀) (withTlbKey s n f) := by
  unfold withTlbKey
  split
  · trivial
  · exact hf _

@[simp] theorem priv1Read_confined {n : Fin 8} {off : Nat} (h : Confined s₀ s) : ResAll (Confined s₀) (priv1Read s n off) := by
  unfold priv1Read
  dsimp only
  split
  · exact h
  · split <;> simp [h, withTlbKey_confined]

@[simp] theorem atomicFlush_confined {n : Fin 8} {v : DWord} (h : Confined s₀ s) : ResAll (Confined s₀) (s.atomicFlush n v) := by
  simp [State.atomicFlush, h]

@[simp] theorem priv1Write_confined {n : Fin 8} {off : Nat} {v : DWord} (h : Confined s₀ s) :
    ResAll (Confined s₀) (priv1Write s n off v) := by
  unfold priv1Write
  dsimp only
  split
  · simp [h]
  · split
    case h_23 => split <;> simp [h]
    all_goals simp [h, withTlbKey_confined]

@[simp] theorem speRead_confined {off len : Nat} (h : Confined s₀ s) : ResAll (Confined s₀) (speRead s off len) := by
  simp [speRead, h]

@[simp] theorem speWrite_confined {off len v : Nat} (h : Confined s₀ s) : ResAll (Confined s₀) (speWrite s off len v) := by
  simp [speWrite, h]

/-! ## Registers of the platform (Machine/Platform.lean, Machine/Mmio.lean) -/

@[simp] theorem confined_setPcell {off : Nat} {v : DWord} : Confined s₀ (s.setPcell off v) ↔ Confined s₀ s := .rfl
@[simp] theorem confined_thermalSample : Confined s₀ s.thermalSample ↔ Confined s₀ s := .rfl
@[simp] theorem confined_restartMax {b : Bool} : Confined s₀ (s.restartMax b) ↔ Confined s₀ s := .rfl
@[simp] theorem confined_setIopt {key : Nat} {e : IoptCacheEntry} : Confined s₀ (s.setIopt key e) ↔ Confined s₀ s := .rfl
@[simp] theorem confined_generate {t : Fin 2} {v : DWord} : Confined s₀ (s.generate t v) ↔ Confined s₀ s := .rfl

@[simp] theorem writePmcr_confined {v : DWord} (h : Confined s₀ s) : ResAll (Confined s₀) (s.writePmcr v) := by
  simp [State.writePmcr, h]

@[simp] theorem storeIocFir_confined {off : Nat} {v : DWord} (h : Confined s₀ s) : ResAll (Confined s₀) (s.storeIocFir off v) := by
  have ht : Confined s₀ { s.setPcell off v with threads := s.threads.map fun th => { th with sysErr := true } } :=
    confined_mapThreads (s := s) h fun _ => rfl
  unfold State.storeIocFir
  dsimp only
  split
  · exact h
  · split
    · exact ht
    · exact h

@[simp] theorem ioException_confined {type : BitVec 2} {a : BitVec 42} {write : Bool} {ioid : BitVec 11} (h : Confined s₀ s) :
    ResAll (Confined s₀) (s.ioException type a write ioid) := by
  simp [State.ioException, h]

@[simp] theorem ioifRead_confined {ra len : Nat} (h : Confined s₀ s) : ResAll (Confined s₀) (s.ioifRead ra len) := by
  unfold State.ioifRead
  split
  · exact ResAll.bind (by simp [h]) fun _ _ h => h
  · exact h

@[simp] theorem ioifWrite_confined {ra len : Nat} (h : Confined s₀ s) : ResAll (Confined s₀) (s.ioifWrite ra len) := by
  simp [State.ioifWrite, h]

@[simp] theorem readCacheDir_confined {k : Nat} (h : Confined s₀ s) : ResAll (Confined s₀) (s.readCacheDir k) := h

@[simp] theorem writeCacheDir_confined {k : Nat} {v : DWord} (h : Confined s₀ s) : ResAll (Confined s₀) (s.writeCacheDir k v) := by
  simp [State.writeCacheDir, h]

@[simp] theorem writeIoptInvd_confined {v : DWord} (h : Confined s₀ s) : Confined s₀ (s.writeIoptInvd v) := by
  unfold State.writeIoptInvd
  dsimp only
  split
  · refine confined_setPcell.mpr (foldl_keeps (P := Confined s₀) (fun s x h => ?_) _ h)
    simp [h]
  · exact h

@[simp] theorem writeIostInvd_confined {v : DWord} (h : Confined s₀ s) : ResAll (Confined s₀) (s.writeIostInvd v) := by
  simp [State.writeIostInvd, h]

@[simp] theorem platRead_confined {off : Nat} (h : Confined s₀ s) : ResAll (Confined s₀) (platRead s off) := by
  unfold platRead
  extract_lets value take peek
  have hv : ∀ v, ResAll (Confined s₀) (value v) := fun _ => h
  have ht : ∀ t, ResAll (Confined s₀) (take t) := fun t => by simp [take, h]
  have hp : ∀ t, ResAll (Confined s₀) (peek t) := fun t => by simp [peek, h]
  clear_value value take peek
  refine .ite (checkstop_confined h) (.ite (misfit_confined h) (.ite h (.ite (hv _) (.ite (hv _) (.ite (readCacheDir_confined h) ?_)))))
  split <;> simp [h, hv, ht, hp]

@[simp] theorem platWrite_confined {off : Nat} {v : DWord} (h : Confined s₀ s) : ResAll (Confined s₀) (platWrite s off v) := by
  unfold platWrite
  extract_lets v' sampled
  have hs : ResAll (Confined s₀) sampled := h
  clear_value sampled v'
  refine .ite (checkstop_confined h) (.ite (misfit_confined h) (.ite h (.ite (setSignalCell_confined h) (.ite h (.ite (.ite trivial h)
    (.ite h (.ite (writeCacheDir_confined h) ?_)))))))
  split <;> simp [h, hs]

@[simp] theorem mmioRead_confined {off len : Nat} (h : Confined s₀ s) : ResAll (Confined s₀) (mmioRead s off len) := by
  simp [mmioRead, h]

@[simp] theorem mmioWrite_confined {off len v : Nat} (h : Confined s₀ s) : ResAll (Confined s₀) (mmioWrite s off len v) := by
  simp [mmioWrite, h]

end

end Sys2Proof.Machine
end

section
/-! Storage accesses of the PPE, and the shapes of its loads, stores and cache instructions: what problem state may not change stays. -/

namespace Sys2Proof.Machine

open Sys2Proof.Safety

section
variable {s₀ s : State}

/-! ## Translation of an operand (Machine/PpeStorage.lean) -/

@[simp] theorem dsi_confined {ea : DWord} {bits : Word} (h : Confined s₀ s) : OutAll (Confined s₀) (s.dsi ea bits) :=
  raise_confined (by simp [h])

@[simp] theorem dataSegment_confined {ea : DWord} {store : Bool} (h : Confined s₀ s) :
    OutAll (Confined s₀) (s.dataSegment ea store) :=
  raise_confined (by simp [h])

@[simp] theorem alignInt_confined {ea : DWord} (h : Confined s₀ s) : OutAll (Confined s₀) (s.alignInt ea) :=
  raise_confined (by simp [h])

@[simp] theorem keptLookup_confined {t : State} {b : Bool} (h : Confined s₀ s) (ht : Confined s₀ t) :
    Confined s₀ (keptLookup s t b) := by
  simp [keptLookup, h, ht]

theorem dataPage_confined {op ea : DWord} {len : Nat} {store : Bool} {al : Align} (h : Confined s₀ s) :
    ResAll (Confined s₀) (dataPage s op ea len store al) := by
  have hl := lookup_confined (t := s.curT) (ea := ea) (k := if store then .store else .load) h
  unfold dataPage
  dsimp only
  refine .ite (dsi_confined h) (.ite (alignInt_confined h) ?_)
  split <;> rename_i he <;> rw [he] at hl
  · exact hl
  · exact dsi_confined hl
  · exact dataSegment_confined hl
  · exact dsi_confined hl
  · have hp := lookupAll_page.mp hl
    exact .ite (dsi_confined hp) (.ite (alignInt_confined (by simp [h, hp])) (.ite (dsi_confined hp)
      (.ite (alignInt_confined (by simp [h, hp])) hp)))

theorem recordChange_confined {x : Piece} (h : Confined s₀ s) : ResAll (Confined s₀) (s.recordChange x) := setChange_confined h

theorem dataPiece_confined {op ea : DWord} {len : Nat} {store : Bool} {al : Align} (h : Confined s₀ s) :
    ResAll (Confined s₀) (dataPiece s op ea len store al) :=
  (dataPage_confined h).bind fun _ _ h => .ite ((recordChange_confined h).bind fun _ _ h => h) h

theorem breakFirst_confined {store : Bool} {brk : Option DWord} {o : Out State} (h : Confined s₀ s) (ho : OutAll (Confined s₀) o) :
    OutAll (Confined s₀) (s.breakFirst store brk o) := by
  unfold State.breakFirst
  split
  · exact .ite (dsi_confined h) ho
  · exact ho

theorem prepareFrom_confined {op : DWord} {store : Bool} {al : Align} {l : List (DWord × Nat)} {acc : List Piece} (h : Confined s₀ s) :
    PreparedAll (Confined s₀) (prepareFrom op store al l acc s) := by
  induction l generalizing acc s with
  | nil => exact h
  | cons x rest ih =>
    have hd := dataPage_confined (op := op) (ea := x.1) (len := x.2) (store := store) (al := al) h
    unfold prepareFrom
    split <;> rename_i he <;> rw [he] at hd
    · exact ih hd
    · exact breakFirst_confined h hd

theorem prepare_confined {op : DWord} {store : Bool} {al : Align} {l : List (DWord × Nat)} (h : Confined s₀ s) :
    PreparedAll (Confined s₀) (prepare op store al l s) := prepareFrom_confined h

/-! ## Accesses -/

theorem machineCheck_confined {t : State} (h : Confined s₀ s) (ht : Confined s₀ t) : OutAll (Confined s₀) (s.machineCheck t) := by
  simp [State.machineCheck, h, ht, interrupt_confined h.1]

@[simp] theorem unassignedSpace_confined (h : Confined s₀ s) : OutAll (Confined s₀) s.unassignedSpace := h

theorem realLoad_confined {p : Phys} {len : Nat} (h : Confined s₀ s) : LoadedAll (Confined s₀) (realLoad s p len) := by
  unfold realLoad
  split
  · exact h
  · simp [h]
  · next off _ =>
    have hm := mmioRead_confined (off := off) (len := len) h
    split
    · split <;> rename_i he <;> rwa [he] at hm
    · trivial
  · have hi := ioifRead_confined (ra := p.ra) (len := len) h
    split <;> rename_i he <;> rwa [he] at hi
  · exact unassignedSpace_confined h
  · simp [h]

theorem realStore_confined {p : Phys} {len v : Nat} (h : Confined s₀ s) : ResAll (Confined s₀) (realStore s p len v) := by
  unfold realStore
  split <;> simp [h]

theorem loadAll_confined {lens : List Nat} {l : List Piece} {acc : Nat} {miss : Bool} (h : Confined s₀ s) :
    ResAll (Confined s₀) (loadAll lens l acc miss s) := by
  induction l generalizing lens acc miss s with
  | nil => exact h
  | cons p rest ih =>
    have hr := realLoad_confined (p := p.phys) (len := lens.headD 0) h
    unfold loadAll
    dsimp only
    split <;> rename_i he <;> rw [he] at hr
    · exact ih hr
    · exact ih hr
    · exact hr

theorem loadThen_confined {w : Nat} {ea : DWord} {len : Nat} {al : Align} {conv : Nat → BitVec w} {put : BitVec w → State → State}
    (h : Confined s₀ s) (hput : ∀ v s, Confined s₀ s → Confined s₀ (put v s)) : OutAll (Confined s₀) (loadThen s ea len al conv put) := by
  have hp := prepare_confined (op := s.thr.truncEa ea) (store := false) (al := al) (l := pieces s.thr false ea len) h
  unfold loadThen
  dsimp only
  split <;> rename_i he <;> rw [he] at hp
  · exact hp
  · next l t =>
    have ha := loadAll_confined (lens := (pieces s.thr false ea len).map (·.2)) (l := l) (acc := 0) (miss := false) (s := t) hp
    split <;> rename_i ha' <;> rw [ha'] at ha
    · exact ha
    · exact .ite (machineCheck_confined ha (hput _ _ ha)) (hput _ _ ha)

theorem storeAll_confined {l : List (Piece × Nat × Nat)} (h : Confined s₀ s) : ResAll (Confined s₀) (storeAll l s) := by
  induction l generalizing s with
  | nil => exact h
  | cons x rest ih => exact (recordChange_confined h).bind fun _ _ h => (realStore_confined h).bind fun _ _ h => ih h

theorem storeParts_confined {op : DWord} {al : Align} {parts : List (DWord × Nat × Nat)} {f : State → State} (h : Confined s₀ s)
    (hf : ∀ s, Confined s₀ s → Confined s₀ (f s)) : OutAll (Confined s₀) (storeParts s op al parts f) := by
  have hp := prepare_confined (op := op) (store := true) (al := al) (l := parts.map fun x => (x.1, x.2.1)) h
  unfold storeParts
  dsimp only
  split <;> rename_i he <;> rw [he] at hp
  · exact (storeAll_confined hp).done fun _ _ h => outAll_next.mpr (hf _ h)
  · split
    · exact next_confined (storeAll_confined (confined_drew.mpr hp))
    · exact hp

theorem storeThen_confined {ea : DWord} {len : Nat} {al : Align} {v : Nat} {f : State → State} {cut : Nat} (h : Confined s₀ s)
    (hf : ∀ s, Confined s₀ s → Confined s₀ (f s)) : OutAll (Confined s₀) (storeThen s ea len al v f cut) := storeParts_confined h hf

theorem loadList_confined {l : List (Piece × Nat)} (h : Confined s₀ s) : ResAll (Confined s₀) (loadList l s) := by
  induction l generalizing s with
  | nil => exact h
  | cons x rest ih =>
    have hr := realLoad_confined (p := x.1.phys) (len := x.2) h
    unfold loadList
    split <;> rename_i he <;> rw [he] at hr
    · exact (ih hr).bind fun _ _ h => h
    · exact (ih hr).bind fun _ _ h => h
    · exact hr

theorem loadParts_confined {op : DWord} {al : Align} {parts : List (DWord × Nat)} {f : List Nat → State → State}
    {g : State → Out State} (h : Confined s₀ s) (hf : ∀ v s, Confined s₀ s → Confined s₀ (f v s))
    (hg : ∀ s, Confined s₀ s → OutAll (Confined s₀) (g s)) : OutAll (Confined s₀) (loadParts s op al parts f g) := by
  have hp := prepare_confined (op := op) (store := false) (al := al) (l := parts) h
  unfold loadParts
  dsimp only
  split <;> rename_i he <;> rw [he] at hp
  · exact (loadList_confined hp).done fun _ _ h => hg _ (hf _ _ h)
  · split
    · exact (loadList_confined (confined_drew.mpr hp)).done fun vs _ h => outAll_next.mpr (hf vs _ h)
    · exact hp

/-! ## Loads and stores of the GPRs and FPRs (Machine/PpeLoadStore.lean) -/

@[simp] theorem loadGpr_confined {ea : DWord} {len : Nat} {al : Align} {conv : Nat → DWord} {rt : BitVec 5} (h : Confined s₀ s) :
    OutAll (Confined s₀) (loadGpr s ea len al conv rt) :=
  loadThen_confined h fun _ _ h => by simp [h]

@[simp] theorem loadGprU_confined {ea : DWord} {len : Nat} {al : Align} {conv : Nat → DWord} {rt ra : BitVec 5} (h : Confined s₀ s) :
    OutAll (Confined s₀) (loadGprU s ea len al conv rt ra) :=
  .ite (illegal_confined h) (loadThen_confined h fun _ _ h => by simp [h])

@[simp] theorem storeVal_confined {ea : DWord} {len : Nat} {al : Align} {v cut : Nat} (h : Confined s₀ s) :
    OutAll (Confined s₀) (storeVal s ea len al v cut) :=
  storeThen_confined h fun _ h => by simp [h]

@[simp] theorem storeValU_confined {ea : DWord} {len : Nat} {al : Align} {v cut : Nat} {ra : BitVec 5} (h : Confined s₀ s) :
    OutAll (Confined s₀) (storeValU s ea len al v ra cut) :=
  .ite (illegal_confined h) (storeThen_confined h fun _ h => by simp [h])

@[simp] theorem loadFpr_confined {ea : DWord} {len : Nat} {conv : Nat → DWord} {frt : BitVec 5} (h : Confined s₀ s) :
    OutAll (Confined s₀) (loadFpr s ea len conv frt) :=
  fpGuard_confined h (loadThen_confined h fun _ _ h => by simp [h])

@[simp] theorem loadFprU_confined {ea : DWord} {len : Nat} {conv : Nat → DWord} {frt ra : BitVec 5} (h : Confined s₀ s) :
    OutAll (Confined s₀) (loadFprU s ea len conv frt ra) :=
  fpGuard_confined h (.ite (illegal_confined h) (loadThen_confined h fun _ _ h => by simp [h]))

@[simp] theorem singleWord_confined {d : DWord} (h : Confined s₀ s) : Confined s₀ (s.singleWord d).2 := by
  unfold State.singleWord
  split <;> exact h

/-! ## Multiples and strings -/

@[simp] theorem loadString_confined {rt : BitVec 5} {bad : List (BitVec 5)} {ea : DWord} {n : Nat} (h : Confined s₀ s) :
    OutAll (Confined s₀) (loadString s rt bad ea n) := by
  unfold loadString
  exact loadParts_confined h (fun _ _ h => by simp [h]) fun _ h => .ite (illegal_confined h) (by simp [h])

@[simp] theorem storeString_confined {rs : BitVec 5} {ea : DWord} {n : Nat} (h : Confined s₀ s) :
    OutAll (Confined s₀) (storeString s rs ea n) :=
  storeParts_confined h fun _ h => by simp [h]

/-! ## Reservations and cache instructions -/

@[simp] theorem loadReserve_confined {ea : DWord} {len : Nat} {rt : BitVec 5} (h : Confined s₀ s) :
    OutAll (Confined s₀) (loadReserve s ea len rt) :=
  (dataPage_confined h).done fun _ _ h => (loadList_confined h).done fun _ _ h => by simp [h]

@[simp] theorem storeConditional_confined {ea : DWord} {len v : Nat} (h : Confined s₀ s) :
    OutAll (Confined s₀) (storeConditional s ea len v) := by
  refine (dataPiece_confined h).done fun p t ht => ?_
  extract_lets other performed t'
  have ht' : Confined s₀ t' := by simp [t', ht]
  exact ResAll.done (.ite (realStore_confined ht') ht') fun _ _ h => by simp [h]

@[simp] theorem touch_confined {th : BitVec 4} {ea : DWord} {store : Bool} (h : Confined s₀ s) :
    OutAll (Confined s₀) (touch s th ea store) := by
  have hl := lookup_confined (s := s.drew 1) (t := s.curT) (ea := s.thr.truncEa ea) (k := .load) h
  unfold touch
  extract_lets s'
  have hs' : Confined s₀ s' := by
    unfold s'
    split
    · exact h
    · split
      · split
        · next he => rw [he] at hl; simp [lookupAll_page.mp hl]
        · exact h
      · exact h
  simp [hs']

theorem cacheOp_confined {ea : DWord} {f : Nat → State → State} (h : Confined s₀ s) (hf : ∀ a s, Confined s₀ s → Confined s₀ (f a s)) :
    OutAll (Confined s₀) (cacheOp s ea f) :=
  (dataPiece_confined h).done fun _ _ h => by simp [hf _ _ h]

/-! ## Loads and stores of the VRs (Machine/VmxLoadStore.lean) -/

@[simp] theorem vecLoad_confined {ea : DWord} {len : Nat} {al : Align} {vrt : BitVec 5} {conv : Nat → QWord} (h : Confined s₀ s) :
    OutAll (Confined s₀) (vecLoad s ea len al vrt conv) :=
  vmxGuard_confined h (loadThen_confined h fun _ _ h => by simp [h])

@[simp] theorem vecLoadEl_confined {ea : DWord} {n : Nat} {vrt : BitVec 5} (h : Confined s₀ s) :
    OutAll (Confined s₀) (vecLoadEl s ea n vrt) :=
  vmxGuard_confined h (loadThen_confined h fun _ _ h => by simp [h])

@[simp] theorem vecLoadRight_confined {ea : DWord} {vrt : BitVec 5} (h : Confined s₀ s) :
    OutAll (Confined s₀) (vecLoadRight s ea vrt) :=
  .ite (vmxNext_confined h fun _ => by simp) (vecLoad_confined h)

@[simp] theorem vecStore_confined {ea : DWord} {len : Nat} {al : Align} {v : Nat} (h : Confined s₀ s) :
    OutAll (Confined s₀) (vecStore s ea len al v) :=
  vmxGuard_confined h (storeThen_confined h fun _ h => by simp [h])

@[simp] theorem vecStoreRight_confined {ea : DWord} {q : QWord} (h : Confined s₀ s) : OutAll (Confined s₀) (vecStoreRight s ea q) :=
  .ite (vmxNext_confined h fun _ => rfl) (vecStore_confined h)

end

end Sys2Proof.Machine
end

section
/-! The commands of the MFCs: what problem state may not change stays. -/

namespace Sys2Proof.Machine

open Sys2Proof.Safety

section
variable {s₀ s : State}

/-! ## The selected command -/

@[simp] theorem confined_modSelected {f : MfcCmd → MfcCmd} : Confined s₀ (s.modSelected f) ↔ Confined s₀ s := by
  unfold State.modSelected
  split <;> rfl

@[simp] theorem completeSelected_confined (h : Confined s₀ s) : OutAll (Confined s₀) s.completeSelected := by
  unfold State.completeSelected
  split
  · exact h
  · exact next_confined (checkQuery_confined h)
  · exact h

@[simp] theorem selectedError_confined {bit : DWord} (h : Confined s₀ s) : OutAll (Confined s₀) (s.selectedError bit) :=
  next_confined (mfcError_confined h)

theorem queued_confined {q : Queues} {f : MfcCmd → Out State} (h : Confined s₀ s) (hf : ∀ c, OutAll (Confined s₀) (f c)) :
    OutAll (Confined s₀) (queued s q f) := by
  unfold queued
  split
  · exact h
  · exact .ite (selectedError_confined h) (hf _)

/-! ## The EA side of a unit -/

theorem dmaRead_confined {ra len : Nat} (h : Confined s₀ s) : ResAll (Confined s₀) (dmaRead s ra len) := by
  unfold dmaRead
  split <;> simp [h]

theorem dmaWrite_confined {ra len v : Nat} (h : Confined s₀ s) : ResAll (Confined s₀) (dmaWrite s ra len v) := by
  unfold dmaWrite
  split <;> simp [h]

theorem dmaTranslate_confined {ea : DWord} {store atomic : Bool} {r : Nat} {f : Nat → State → Out State} (h : Confined s₀ s)
    (hf : ∀ a s, Confined s₀ s → OutAll (Confined s₀) (f a s)) : OutAll (Confined s₀) (dmaTranslate s ea store atomic r f) := by
  have ht := smmTranslate_confined (n := s.curN) (ea := ea) (store := store) (atomic := atomic) (r := r) h
  unfold dmaTranslate
  split <;> rename_i he <;> rw [he] at ht
  · exact hf _ _ (by simp [dmaAll_real.mp ht])
  · exact confined_modSelected.mpr ht
  · exact next_confined (smmException_confined (confined_modSelected.mpr ht))
  · exact ht

theorem lsCompare_confined {b : Bool} {f : State → Out State} (h : Confined s₀ s) (hf : ∀ s, Confined s₀ s → OutAll (Confined s₀) (f s)) :
    OutAll (Confined s₀) (lsCompare s b f) :=
  .ite (hf _ h) (.ite (next_confined (raiseInt_confined h)) (hf _ h))

/-! ## Transfers -/

theorem moveUnit_confined {put : Bool} {lsa : Nat} {ea : DWord} {len r : Nat} {f : State → State} (h : Confined s₀ s)
    (hf : ∀ s, Confined s₀ s → Confined s₀ (f s)) : OutAll (Confined s₀) (moveUnit s put lsa ea len r f) :=
  dmaTranslate_confined h fun _ _ h =>
    .ite ((dmaWrite_confined h).done fun _ _ h => outAll_next.mpr (hf _ h))
      ((dmaRead_confined h).done fun _ _ h => outAll_next.mpr (hf _ (confined_modSpe.mpr h)))

theorem performUnit_confined {c : MfcCmd} {put : Bool} {lsa : Nat} {ea : DWord} {n count r : Nat} (h : Confined s₀ s) :
    OutAll (Confined s₀) (performUnit s c put lsa ea n count r) :=
  lsCompare_confined h fun _ h => moveUnit_confined (by simp [h]) fun _ h => confined_modSelected.mpr h

theorem transferStep_confined {c : MfcCmd} {put start : Bool} {r : Nat} (h : Confined s₀ s) :
    OutAll (Confined s₀) (transferStep s c put start r) :=
  .ite (selectedError_confined h) (.ite (completeSelected_confined (by simp [h])) (performUnit_confined h))

theorem transfer_confined {q : Queues} {put start : Bool} {r : Nat} (h : Confined s₀ s) :
    OutAll (Confined s₀) (transfer s q put start r) :=
  queued_confined h fun _ => transferStep_confined h

theorem signalCmd_confined {r : Nat} (h : Confined s₀ s) : OutAll (Confined s₀) (signalCmd s r) :=
  queued_confined h fun _ => .ite (selectedError_confined h) (transferStep_confined h)

/-! ## Lists -/

theorem fetchElement_confined {c : MfcCmd} (h : Confined s₀ s) : OutAll (Confined s₀) (fetchElement s c) :=
  .ite (selectedError_confined h) (confined_modSelected.mpr h)

theorem finishElement_confined {c : MfcCmd} {e : DWord} (h : Confined s₀ s) : OutAll (Confined s₀) (finishElement s c e) := by
  simp [finishElement, h]

theorem listCmd_confined {put : Bool} {r : Nat} (h : Confined s₀ s) : OutAll (Confined s₀) (listCmd s put r) := by
  refine queued_confined h fun c => .ite (selectedError_confined h) (.ite h ?_)
  split
  · exact .ite (completeSelected_confined h) (fetchElement_confined h)
  · exact .ite (.ite (selectedError_confined h) (finishElement_confined h)) (performUnit_confined h)

/-! ## Storage control and synchronization -/

theorem hintCmd_confined (h : Confined s₀ s) : OutAll (Confined s₀) (hintCmd s) :=
  queued_confined h fun _ => .ite (selectedError_confined h) (completeSelected_confined h)

theorem clearLines_confined {r : Nat} (h : Confined s₀ s) : OutAll (Confined s₀) (clearLines s r) :=
  queued_confined h fun _ => .ite (selectedError_confined h) (.ite (completeSelected_confined h)
    (dmaTranslate_confined (by simp [h]) fun _ _ h => (dmaWrite_confined h).done fun _ _ h => confined_modSelected.mpr h))

theorem syncCmd_confined (h : Confined s₀ s) :
    OutAll (Confined s₀) (syncCmd s) := queued_confined h fun _ => completeSelected_confined h

/-! ## Atomic commands -/

theorem immediateCmd_confined {store : Bool} {r : Nat} {f : MfcCmd → Nat → State → Out State} (h : Confined s₀ s)
    (hf : ∀ c a s, Confined s₀ s → OutAll (Confined s₀) (f c a s)) : OutAll (Confined s₀) (immediateCmd s store r f) := by
  unfold immediateCmd
  split
  · exact h
  · exact .ite (dmaTranslate_confined h fun _ _ h => hf _ _ _ h) (selectedError_confined h)

theorem atomicDone_confined {status : Word} (h : Confined s₀ s) : OutAll (Confined s₀) (s.atomicDone status) := h

theorem reserveRead_confined {ra : Nat} (h : Confined s₀ s) : ResAll (Confined s₀) (reserveRead s ra) := by
  unfold reserveRead
  split
  · trivial
  · exact dmaRead_confined h

theorem getLine_confined {r : Nat} (h : Confined s₀ s) : OutAll (Confined s₀) (getLine s r) :=
  immediateCmd_confined h fun _ _ _ h => lsCompare_confined h fun _ h => (reserveRead_confined h).done fun _ _ h => atomicDone_confined h

theorem putLineConditional_confined {r : Nat} (h : Confined s₀ s) : OutAll (Confined s₀) (putLineConditional s r) :=
  immediateCmd_confined h fun _ _ _ h => lsCompare_confined h fun _ h =>
    .ite ((dmaWrite_confined h).done fun _ _ h => atomicDone_confined h) (atomicDone_confined h)

theorem putLine_confined {r : Nat} (h : Confined s₀ s) : OutAll (Confined s₀) (putLine s r) :=
  immediateCmd_confined h fun _ _ _ h => lsCompare_confined h fun _ h => (dmaWrite_confined h).done fun _ _ h => atomicDone_confined h

theorem putLineQueued_confined {r : Nat} (h : Confined s₀ s) : OutAll (Confined s₀) (putLineQueued s r) :=
  queued_confined h fun _ => .ite (completeSelected_confined h) (dmaTranslate_confined h fun _ _ h => lsCompare_confined h fun _ h =>
    (dmaWrite_confined h).done fun _ _ h => confined_modSelected.mpr h)

end

end Sys2Proof.Machine
end

section
/-! Every instruction that begins in problem state leaves it or keeps the privileged registers: the guards stop the privileged ones, and no
other one writes them. -/

namespace Sys2Proof.Machine

open Sys2Proof.Safety

section
variable {s₀ s : State}

/-! ## The shapes of the instructions -/

theorem trapIf_confined {c : Bool} (h : Confined s₀ s) : OutAll (Confined s₀) (trapIf s c) :=
  .ite (trapInt_confined h) (ppeNext_confined h fun _ => rfl)

theorem wordResult_confined {rt : BitVec 5} {w : Word} {ov oe rec : Bool} (h : Confined s₀ s) :
    OutAll (Confined s₀) (wordResult rt w ov oe rec s) :=
  ppeNext_confined (confined_drew.mpr h) fun _ => by cases oe <;> simp

theorem undefinedDivide_confined {rt : BitVec 5} {oe rec : Bool} (h : Confined s₀ s) :
    OutAll (Confined s₀) (undefinedDivide rt oe rec s) :=
  ppeNext_confined (confined_drew.mpr h) fun _ => by cases oe <;> cases rec <;> simp

theorem divForm_confined {rt : BitVec 5} {r : DWord} {oe rec : Bool} (h : Confined s₀ s) :
    OutAll (Confined s₀) (divForm rt r oe rec s) :=
  ppeNext_confined h fun _ => supervisorView_mulForm ..

theorem fpEnd_confined {f : Thread → Thread} (h : Confined s₀ s) (hf : ∀ th, supervisorView (f th) = supervisorView th) :
    OutAll (Confined s₀) (fpEnd s f) := by
  simp [fpEnd, h, hf]

theorem fpUndefined_confined {frt : BitVec 5} {rec : Bool} (h : Confined s₀ s) : OutAll (Confined s₀) (fpUndefined s frt rec) :=
  fpEnd_confined (confined_drew.mpr h) fun _ => by cases rec <;> simp

theorem fpArith_confined {f : Fmt} {frt : BitVec 5} {rec : Bool} {ops : List DWord} {r : Word → FpRes} (h : Confined s₀ s) :
    OutAll (Confined s₀) (fpArith s f frt rec ops r) :=
  fpGuard_confined h (.ite (fpUndefined_confined h) (fpEnd_confined h fun _ => by simp))

theorem fpArithNi_confined {f : Fmt} {frt : BitVec 5} {rec : Bool} {ops : List DWord} {r : Word → Option (Nat × Nat) → FpRes}
    (h : Confined s₀ s) : OutAll (Confined s₀) (fpArithNi s f frt rec ops r) :=
  .ite (fpArith_confined (confined_drew.mpr h)) (fpArith_confined h)

theorem fpToInt_confined {n : Nat} {mode : RMode} {frt frb : BitVec 5} {rec : Bool} {wide : BitVec n → DWord} (h : Confined s₀ s) :
    OutAll (Confined s₀) (fpToInt s n mode frt frb rec wide) :=
  fpGuard_confined h (fpEnd_confined (confined_drew.mpr h) fun _ => by
    dsimp only
    split <;> simp)

theorem fpCompare_confined {bf : BitVec 3} {a b : DWord} {exc : Word} (h : Confined s₀ s) :
    OutAll (Confined s₀) (fpCompare s bf a b exc) :=
  fpGuard_confined h (fpEnd_confined h fun _ => rfl)

theorem fpWrite_confined {rec : Bool} {g : Word → Word} (h : Confined s₀ s) : OutAll (Confined s₀) (fpWrite s rec g) :=
  fpGuard_confined h (fpEnd_confined h fun _ => by simp)

theorem fpMove_confined {frt : BitVec 5} {rec : Bool} {v : DWord} (h : Confined s₀ s) : OutAll (Confined s₀) (fpMove s frt rec v) :=
  fpGuard_confined h (ppeNext_confined h fun _ => by simp)

theorem vmxShift_confined {vrt vrb : BitVec 5} {f : Nat → QWord} (h : Confined s₀ s) :
    OutAll (Confined s₀) (vmxShift vrt vrb f s) :=
  .ite (vmxNext_confined h fun _ => by simp)
    (.ite (vmxNext_confined (confined_drew.mpr h) fun _ => by simp) (vmxNext_confined h fun _ => rfl))

theorem vcmpf_confined {vrt vra vrb : BitVec 5} {rec : Bool} {f : Word → Word → Word} (h : Confined s₀ s) :
    OutAll (Confined s₀) (vcmpf s vrt vra vrb rec f) :=
  vmxNext_confined h fun _ => by cases rec <;> simp

theorem execPpeVcmpbfp_confined {vrt vra vrb : BitVec 5} {rec : Bool} (h : Confined s₀ s) :
    OutAll (Confined s₀) (execPpeVcmpbfp vrt vra vrb rec s) :=
  vmxNext_confined h fun _ => by cases rec <;> simp

theorem vest_confined {vrt vrb : BitVec 5} {f : VMode → Word → Word → Word} (h : Confined s₀ s) :
    OutAll (Confined s₀) (vest s vrt vrb f) :=
  vmxNext_confined (confined_drew.mpr h) fun _ => by simp

theorem execPpeFcfid_confined {frt frb : BitVec 5} {rec : Bool} (h : Confined s₀ s) :
    OutAll (Confined s₀) (execPpeFcfid frt frb rec s) := by
  unfold execPpeFcfid
  exact fpArith_confined h

theorem execPpeFres_confined {frt frb : BitVec 5} {rec : Bool} (h : Confined s₀ s) :
    OutAll (Confined s₀) (execPpeFres frt frb rec s) := by
  unfold execPpeFres
  exact fpArith_confined (confined_drew.mpr h)

theorem execPpeFrsqrte_confined {frt frb : BitVec 5} {rec : Bool} (h : Confined s₀ s) :
    OutAll (Confined s₀) (execPpeFrsqrte frt frb rec s) := by
  unfold execPpeFrsqrte
  exact fpArith_confined (confined_drew.mpr h)

theorem execPpeBcctr_confined {bo bi : BitVec 5} {bh : BitVec 2} {lk : Bool} (h : Confined s₀ s) :
    OutAll (Confined s₀) (execPpeBcctr bo bi bh lk s) := by
  unfold execPpeBcctr
  exact .ite (illegal_confined h) ((confined_modThr_frame fun _ => by simp).mpr h)

theorem execPpeOr_confined {rs ra rb : BitVec 5} {rec : Bool} (h : Confined s₀ s) :
    OutAll (Confined s₀) (execPpeOr rs ra rb rec s) :=
  ppeNext_confined h fun _ => by
    dsimp only
    split <;> simp

theorem execPpeLmw_confined {rt ra : BitVec 5} {d : BitVec 16} (h : Confined s₀ s) :
    OutAll (Confined s₀) (execPpeLmw rt ra d s) := by
  unfold execPpeLmw
  exact .ite (alignInt_confined h) (loadParts_confined h (fun _ _ h => by simp [h]) fun _ h => .ite (illegal_confined h) (by simp [h]))

/-! ## The special registers -/

/-- The registers that problem state writes (10_state R80). -/
theorem sprWritePriv_user {n : Nat} (h : sprWritePriv n = some .user) : n = 1 ∨ n = 8 ∨ n = 9 ∨ n = 256 ∨ n = 896 := by
  by_contra hn
  simp only [sprWritePriv, sprBoth, if_neg hn] at h
  split_ifs at h <;> simp at h

theorem writeSpr_user_confined {n : Nat} {v : DWord} (h : Confined s₀ s) (hn : sprWritePriv n = some .user) :
    OutAll (Confined s₀) (s.writeSpr n v) := by
  obtain rfl | rfl | rfl | rfl | rfl := sprWritePriv_user hn <;> exact ppeNext_confined h fun _ => by simp

/-- In problem state only the registers of problem state are accessed. -/
theorem sprAccess_confined {n : Nat} {p : Option Priv} {o : Out State} (h : Confined s₀ s) (hp : ibit s.thr.msr 49 = true)
    (ho : p = some .user → OutAll (Confined s₀) o) : OutAll (Confined s₀) (sprAccess s n p o) := by
  unfold sprAccess
  split
  · simp [h]
  · exact ho rfl
  · exact supervisor_confined h hp
  · exact hypervisorOnly_confined h hp
  · exact tlbManager_confined h hp

/-! ## Every instruction -/

/-- What an instruction that begins in problem state does. -/
theorem exec_confined (i : Instr) (h : Confined s₀ s) (hp : ibit s.thr.msr 49 = true) : OutAll (Confined s₀) (exec i s) := by
  cases i <;> dsimp only [exec]
  -- Branches, traps, system linkage and the special registers.
  case ppeB | ppeBc | ppeBclr => exact (confined_modThr_frame fun _ => by simp).mpr h
  case ppeBcctr => exact execPpeBcctr_confined h
  case ppeSc => exact interrupt_confined h.1
  case ppeTw | ppeTd | ppeTwi | ppeTdi => exact trapIf_confined h
  case ppeRfid | ppeMtmsrd | ppeMtmsr | ppeMfmsr | ppeSlbmte | ppeSlbmfee | ppeSlbmfev | ppeSlbie | ppeSlbia =>
    exact supervisor_confined h hp
  case ppeHrfid => exact hypervisorOnly_confined h hp
  case ppeTlbie | ppeTlbiel | ppeTlbsync => exact tlbManager_confined h hp
  case ppeMtspr => exact sprAccess_confined h hp fun hu => writeSpr_user_confined h hu
  case ppeMfspr =>
    exact sprAccess_confined h hp fun _ => .ite trivial (ppeNext_confined (confined_drew.mpr h) fun _ => by simp)
  case ppeMftb => exact .ite (ppeNext_confined h fun _ => by simp) (illegal_confined h)
  case ppeSync =>
    exact .ite (ppeNext_confined h fun _ => rfl) (.ite (takeMachineCheck_confined h) (ppeNext_confined h fun _ => rfl))
  case ppeAttn => exact .ite trivial (illegal_confined h)
  -- Condition register and fixed point.
  case ppeOr => exact execPpeOr_confined h
  case ppeIsync | ppeCrand | ppeCror | ppeCrxor | ppeCrnand | ppeCrnor | ppeCreqv | ppeCrandc | ppeCrorc | ppeMcrf |
      ppeMtcrf | ppeMfcr | ppeMfocrf | ppeEieio | ppeAddi | ppeAddis | ppeAddic | ppeAddicDot | ppeSubfic | ppeMulli |
      ppeOri | ppeOris | ppeXori | ppeXoris | ppeAndiDot | ppeAndisDot | ppeCmpi | ppeCmpli | ppeAdd | ppeAddc | ppeAdde |
      ppeSubf | ppeSubfc | ppeSubfe | ppeMullw | ppeMulld | ppeAddme | ppeAddze | ppeSubfme | ppeSubfze | ppeNeg | ppeMulhd
      | ppeMulhdu | ppeCmp | ppeCmpl | ppeAnd | ppeAndc | ppeOrc | ppeXor | ppeNand | ppeNor | ppeEqv | ppeSlw | ppeSrw |
      ppeSraw | ppeSld | ppeSrd | ppeSrad | ppeExtsb | ppeExtsh | ppeExtsw | ppeCntlzw | ppeCntlzd | ppeSrawi | ppeSradi |
      ppeRlwimi | ppeRlwinm | ppeRlwnm | ppeRldicl | ppeRldicr | ppeRldic | ppeRldimi | ppeRldcl | ppeRldcr =>
    exact ppeNext_confined h fun _ => by simp
  case ppeMtocrf => exact .ite (ppeNext_confined h fun _ => rfl) (ppeNext_confined (confined_drew.mpr h) fun _ => rfl)
  case ppeMulhw | ppeMulhwu => exact wordResult_confined h
  case ppeDivw | ppeDivwu => exact .ite (undefinedDivide_confined h) (wordResult_confined h)
  case ppeDivd | ppeDivdu => exact .ite (undefinedDivide_confined h) (divForm_confined h)
  -- Loads, stores and cache instructions.
  case ppeLbz | ppeLhz | ppeLha | ppeLwz | ppeLd | ppeLwa | ppeLbzx | ppeLhzx | ppeLhax | ppeLwzx | ppeLwax | ppeLdx |
      ppeLhbrx | ppeLwbrx | ppeLdbrx =>
    exact loadGpr_confined h
  case ppeLbzu | ppeLhzu | ppeLhau | ppeLwzu | ppeLdu | ppeLbzux | ppeLhzux | ppeLhaux | ppeLwzux | ppeLwaux | ppeLdux =>
    exact loadGprU_confined h
  case ppeStb | ppeSth | ppeStw | ppeStd | ppeStbx | ppeSthx | ppeStwx | ppeStdx | ppeSthbrx | ppeStwbrx | ppeStdbrx =>
    exact storeVal_confined h
  case ppeStbu | ppeSthu | ppeStwu | ppeStdu | ppeStbux | ppeSthux | ppeStwux | ppeStdux => exact storeValU_confined h
  case ppeLfs | ppeLfd | ppeLfsx | ppeLfdx => exact loadFpr_confined h
  case ppeLfsu | ppeLfdu | ppeLfsux | ppeLfdux => exact loadFprU_confined h
  case ppeLswi => exact loadString_confined h
  case ppeStswx | ppeStswi => exact storeString_confined h
  case ppeLwarx | ppeLdarx => exact loadReserve_confined h
  case ppeStwcxDot | ppeStdcxDot => exact storeConditional_confined h
  case ppeDcbt | ppeDcbtst => exact touch_confined h
  case ppeLswx => exact .ite (illegal_confined h) (loadString_confined h)
  case ppeLmw => exact execPpeLmw_confined h
  case ppeStmw => exact storeParts_confined h fun _ h => by simp [h]
  case ppeDcbz => exact (dataPiece_confined h).done fun _ _ h => (realStore_confined h).done fun _ _ h => by simp [h]
  case ppeDcbst | ppeDcbf => exact cacheOp_confined h fun _ _ h => by simp [h]
  case ppeIcbi => exact cacheOp_confined h fun _ _ h => by simp [h]
  case ppeStfs | ppeStfsx => exact fpGuard_confined h (storeVal_confined (singleWord_confined h))
  case ppeStfsu | ppeStfsux => exact fpGuard_confined h (storeValU_confined (singleWord_confined h))
  case ppeStfd | ppeStfdx | ppeStfiwx => exact fpGuard_confined h (storeVal_confined h)
  case ppeStfdu | ppeStfdux => exact fpGuard_confined h (storeValU_confined h)
  -- Floating point.
  case ppeFadd | ppeFadds | ppeFsub | ppeFsubs | ppeFmul | ppeFmuls | ppeFmadd | ppeFmadds | ppeFmsub | ppeFmsubs |
      ppeFnmadd | ppeFnmadds | ppeFnmsub | ppeFnmsubs =>
    exact fpArith_confined h
  case ppeFcfid => exact execPpeFcfid_confined h
  case ppeFres => exact execPpeFres_confined h
  case ppeFrsqrte => exact execPpeFrsqrte_confined h
  case ppeFdiv | ppeFdivs | ppeFsqrt | ppeFsqrts => exact fpArithNi_confined h
  case ppeFmr | ppeFneg | ppeFabs | ppeFnabs | ppeFsel => exact fpMove_confined h
  case ppeFctid | ppeFctidz => exact fpToInt_confined h
  case ppeFctiw | ppeFctiwz => exact fpToInt_confined (confined_drew.mpr h)
  case ppeFcmpu | ppeFcmpo => exact fpCompare_confined h
  case ppeMtfsfi | ppeMtfsf | ppeMtfsb0 | ppeMtfsb1 => exact fpWrite_confined h
  case ppeFrsp => exact fpGuard_confined h (fpEnd_confined h fun _ => by simp)
  case ppeMffs => exact fpGuard_confined h (ppeNext_confined (confined_drew.mpr h) fun _ => by simp)
  case ppeMcrfs => exact fpGuard_confined h (fpEnd_confined h fun _ => by simp)
  -- Vectors.
  case ppeVcmpbfp => exact execPpeVcmpbfp_confined h
  case ppeLvsl | ppeLvsr | ppeDst | ppeDstt | ppeDstst | ppeDststt | ppeDss | ppeDssall | ppeVperm | ppeVsel | ppeVsldoi |
      ppeVslo | ppeVsro | ppeVmrghb | ppeVmrghh | ppeVmrghw | ppeVmrglb | ppeVmrglh | ppeVmrglw | ppeVspltb | ppeVsplth |
      ppeVspltw | ppeVspltisb | ppeVspltish | ppeVspltisw | ppeVpkuhum | ppeVpkuwum | ppeVpkuhus | ppeVpkuwus | ppeVpkshus |
      ppeVpkswus | ppeVpkshss | ppeVpkswss | ppeVpkpx | ppeVupkhsb | ppeVupkhsh | ppeVupklsb | ppeVupklsh | ppeVupkhpx |
      ppeVupklpx | ppeVand | ppeVandc | ppeVor | ppeVxor | ppeVnor | ppeVrlb | ppeVrlh | ppeVrlw | ppeVslb | ppeVslh |
      ppeVslw | ppeVsrb | ppeVsrh | ppeVsrw | ppeVsrab | ppeVsrah | ppeVsraw | ppeVaddubm | ppeVadduhm | ppeVadduwm |
      ppeVaddcuw | ppeVaddubs | ppeVadduhs | ppeVadduws | ppeVaddsbs | ppeVaddshs | ppeVaddsws | ppeVsububm | ppeVsubuhm |
      ppeVsubuwm | ppeVsubcuw | ppeVsububs | ppeVsubuhs | ppeVsubuws | ppeVsubsbs | ppeVsubshs | ppeVsubsws | ppeVavgub |
      ppeVavguh | ppeVavguw | ppeVavgsb | ppeVavgsh | ppeVavgsw | ppeVmaxub | ppeVmaxuh | ppeVmaxuw | ppeVmaxsb | ppeVmaxsh
      | ppeVmaxsw | ppeVminub | ppeVminuh | ppeVminuw | ppeVminsb | ppeVminsh | ppeVminsw | ppeVcmpequb | ppeVcmpequh |
      ppeVcmpequw | ppeVcmpgtub | ppeVcmpgtuh | ppeVcmpgtuw | ppeVcmpgtsb | ppeVcmpgtsh | ppeVcmpgtsw | ppeVmuleub |
      ppeVmuleuh | ppeVmulesb | ppeVmulesh | ppeVmuloub | ppeVmulouh | ppeVmulosb | ppeVmulosh | ppeVmhaddshs |
      ppeVmhraddshs | ppeVmladduhm | ppeVmsumubm | ppeVmsummbm | ppeVmsumuhm | ppeVmsumuhs | ppeVmsumshm | ppeVmsumshs |
      ppeVsum4ubs | ppeVsum4sbs | ppeVsum4shs | ppeVsum2sws | ppeVsumsws | ppeMfvscr | ppeMtvscr | ppeVaddfp | ppeVsubfp |
      ppeVmaddfp | ppeVnmsubfp | ppeVmaxfp | ppeVminfp | ppeVrfin | ppeVrfiz | ppeVrfip | ppeVrfim | ppeVcfux | ppeVcfsx |
      ppeVctuxs | ppeVctsxs =>
    exact vmxNext_confined h fun _ => by simp
  case ppeVsl | ppeVsr => exact vmxShift_confined h
  case ppeVcmpeqfp | ppeVcmpgefp | ppeVcmpgtfp => exact vcmpf_confined h
  case ppeVrefp | ppeVrsqrtefp | ppeVlogefp | ppeVexptefp => exact vest_confined h
  case ppeLvx | ppeLvxl | ppeLvlx | ppeLvlxl => exact vecLoad_confined h
  case ppeLvebx | ppeLvehx | ppeLvewx => exact vecLoadEl_confined h
  case ppeLvrx | ppeLvrxl => exact vecLoadRight_confined h
  case ppeStvrx | ppeStvrxl => exact vecStoreRight_confined h
  case ppeStvx | ppeStvxl | ppeStvlx | ppeStvlxl | ppeStvebx | ppeStvehx | ppeStvewx => exact vecStore_confined h
  -- The SPUs.
  case spuLqd | spuLqx | spuLqa | spuLqr | spuStqd | spuStqx | spuStqa | spuStqr | spuCbd | spuCbx | spuChd | spuChx |
      spuCwd | spuCwx | spuCdd | spuCdx | spuIlh | spuIlhu | spuIl | spuIla | spuIohl | spuFsmbi | spuAh | spuAhi | spuA |
      spuAi | spuSfh | spuSfhi | spuSf | spuSfi | spuAddx | spuCg | spuCgx | spuSfx | spuBg | spuBgx | spuMpy | spuMpyu |
      spuMpyi | spuMpyui | spuMpya | spuMpyh | spuMpys | spuMpyhh | spuMpyhha | spuMpyhhu | spuMpyhhau | spuClz | spuCntb |
      spuFsmb | spuFsmh | spuFsm | spuGbb | spuGbh | spuGb | spuAvgb | spuAbsdb | spuSumb | spuXsbh | spuXshw | spuXswd |
      spuAnd | spuAndc | spuAndbi | spuAndhi | spuAndi | spuOr | spuOrc | spuOrbi | spuOrhi | spuOri | spuOrx | spuXor |
      spuXorbi | spuXorhi | spuXori | spuNand | spuNor | spuEqv | spuSelb | spuShufb | spuShlh | spuShlhi | spuShl | spuShli
      | spuShlqbi | spuShlqbii | spuShlqby | spuShlqbyi | spuShlqbybi | spuRoth | spuRothi | spuRot | spuRoti | spuRotqby |
      spuRotqbyi | spuRotqbybi | spuRotqbi | spuRotqbii | spuRothm | spuRothmi | spuRotm | spuRotmi | spuRotqmby |
      spuRotqmbyi | spuRotqmbybi | spuRotqmbi | spuRotqmbii | spuRotmah | spuRotmahi | spuRotma | spuRotmai | spuCeqb |
      spuCeqbi | spuCeqh | spuCeqhi | spuCeq | spuCeqi | spuCgtb | spuCgtbi | spuCgth | spuCgthi | spuCgt | spuCgti |
      spuClgtb | spuClgtbi | spuClgth | spuClgthi | spuClgt | spuClgti | spuHbr | spuHbrp | spuHbra | spuHbrr | spuFa |
      spuDfa | spuFs | spuDfs | spuFm | spuDfm | spuFma | spuDfma | spuFnms | spuDfnms | spuFms | spuDfms | spuDfnma |
      spuFrest | spuFrsqest | spuFi | spuFrds | spuFesd | spuFceq | spuFcmeq | spuFcgt | spuFcmgt | spuFscrwr | spuFscrrd |
      spuLnop | spuNop | spuSync | spuSyncc | spuDsync | spuMfspr | spuMtspr | spuRchcnt =>
    exact spuNext_confined h
  case spuHeq | spuHeqi | spuHgt | spuHgti | spuHlgt | spuHlgti => exact haltIf_confined h
  case spuBr | spuBra | spuBrsl | spuBrasl | spuBrnz | spuBrz | spuBrhnz | spuBrhz => exact confined_modSpe.mpr h
  case spuBi | spuBisled | spuBisl | spuBiz | spuBinz | spuBihz | spuBihnz => exact branchIndirect_confined h
  case spuIret => exact branchIndirect_confined (drewSrr0_confined h)
  case spuCsflt | spuCflts | spuCuflt | spuCfltu => exact .ite (spuNext_confined h) (spuNext_confined (confined_drew.mpr h))
  case spuDfceq | spuDfcmeq | spuDfcgt | spuDfcmgt | spuDftsv => exact xcellOnly_confined h (spuNext_confined h)
  case spuStop | spuStopd => exact stopSignal_confined h
  case spuRdch =>
    exact .ite (spuNext_confined h) (.ite (confined_modSpe.mpr h) ((readChannel_confined h).done fun _ _ h => spuNext_confined h))
  case spuWrch =>
    exact .ite (spuNext_confined h) (.ite (confined_modSpe.mpr h) ((writeChannel_confined h).done fun _ _ h => spuNext_confined h))
  -- The MFCs.
  case mfcPut | mfcPutb | mfcPutf | mfcPuts | mfcPutbs | mfcPutfs | mfcPutr | mfcPutrb | mfcPutrf | mfcGet | mfcGetb |
      mfcGetf | mfcGets | mfcGetbs | mfcGetfs =>
    exact transfer_confined h
  case mfcPutl | mfcPutlb | mfcPutlf | mfcPutrl | mfcPutrlb | mfcPutrlf | mfcGetl | mfcGetlb | mfcGetlf => exact listCmd_confined h
  case mfcSdcrt | mfcSdcrtst | mfcSdcrst | mfcSdcrf => exact hintCmd_confined h
  case mfcSdcrz => exact clearLines_confined h
  case mfcSndsig | mfcSndsigb | mfcSndsigf => exact signalCmd_confined h
  case mfcPutlluc => exact putLine_confined h
  case mfcPutllc => exact putLineConditional_confined h
  case mfcPutqlluc => exact putLineQueued_confined h
  case mfcBarrier | mfcMfceieio | mfcMfcsync => exact syncCmd_confined h
  case mfcGetllar => exact getLine_confined h

end

end Sys2Proof.Machine
end

section
/-! The obligation on problem state: what an instruction that begins and ends there leaves unchanged. -/

namespace Sys2Proof.Machine

/-- Settles O60: every instruction that begins in problem state is confined (`exec_confined`). -/
theorem problemStateKeepsPrivilegedState : Obligations.ProblemStateKeepsPrivilegedState := by
  intro i s t hs he ht
  have hc : Confined s t := by
    have hx := exec_confined i (Confined.refl s) hs
    rwa [he] at hx
  exact hc.2 ht

end Sys2Proof.Machine
end

section
/-! The MSR bit by bit (10_state R54): what a return from an interrupt and a move make of it (44_ppe_system R923, R924, R928, R929); the
guards of the privileged instructions, and the interrupts of the system instructions (60_exceptions R1805, R1811, R1828). -/

namespace Sys2Proof.Machine

open Sys2Proof.Safety

/-! ## Bits of the MSR -/

theorem ibit_msrMask : ∀ b < 64, ibit msrMask b = decide (b ∈ [0, 3, 38, 48, 49, 50, 51, 52, 53, 54, 55, 58, 59, 62]) := by decide

/-- EE, IR and DR. -/
theorem ibit_problemBits : ∀ b < 64, ibit (0x8030 : DWord) b = decide (b ∈ [48, 58, 59]) := by decide

section
variable {b : Nat} (hb : b < 64)
include hb

/-- A bit of the MSR that an image gives: PR forces EE, IR and DR. -/
theorem ibit_msrOf (image : DWord) :
    ibit (msrOf image) b = ((ibit image b && ibit msrMask b) || (decide (b ∈ [48, 58, 59]) && ibit image 49)) := by
  have h49 : ibit (image &&& msrMask) 49 = ibit image 49 := by
    rw [ibit_and, ibit_msrMask 49 (by decide)]
    exact Bool.and_true _
  unfold msrOf
  simp only [h49]
  cases hp : ibit image 49
  · rw [if_neg Bool.false_ne_true, ibit_and, Bool.and_false, Bool.or_false]
  · rw [if_pos rfl, ibit_or, ibit_and, ibit_problemBits b hb, Bool.and_true]

/-- A bit of the MSR after a move of `v`. -/
theorem ibit_moveMsr_some (old v : DWord) :
    ibit (moveMsr old v true) b = if b = 48 ∨ b = 62 then ibit v b else ibit old b := by
  unfold moveMsr
  rw [if_pos rfl, ibit_setIbit _ _ _ _ (by decide) hb, ibit_setIbit _ _ _ _ (by decide) hb]
  by_cases h62 : b = 62
  · subst h62
    simp
  · by_cases h48 : b = 48
    · subst h48
      simp
    · simp [h62, h48, Ne.symm h62, Ne.symm h48]

theorem ibit_moveMsr_all (old v : DWord) :
    ibit (moveMsr old v false) b = if b = 3 ∨ b = 51 then ibit old b else ibit (msrOf v) b := by
  unfold moveMsr
  rw [if_neg Bool.false_ne_true, ibit_setIbit _ _ _ _ (by decide) hb, ibit_setIbit _ _ _ _ (by decide) hb]
  by_cases h51 : b = 51
  · subst h51
    simp
  · by_cases h3 : b = 3
    · subst h3
      simp
    · simp [h51, h3, Ne.symm h51, Ne.symm h3]

/-- A bit of the MSR after a return: HV and ME stay outside hypervisor state. -/
theorem ibit_returnFrom (th : Thread) (hyper : Bool) :
    ibit (th.returnFrom hyper).msr b = if (b = 3 ∨ b = 51) ∧ ibit th.msr 3 = false then ibit th.msr b
      else ibit (msrOf ((if hyper then th.hsrr1 else th.srr1) &&& ~~~0x783F0000#64)) b := by
  unfold Thread.returnFrom
  cases h : ibit th.msr 3
  · simp only [Bool.false_eq_true, if_false, and_true]
    rw [ibit_setIbit _ _ _ _ (by decide) hb, ibit_setIbit _ _ _ _ (by decide) hb]
    by_cases h51 : b = 51
    · subst h51
      simp
    · by_cases h3 : b = 3
      · subst h3
        simp [h]
      · simp [h51, h3, Ne.symm h51, Ne.symm h3]
  · simp

end

/-- The pc after a return is that of a branch under the new MSR. -/
theorem returnFrom_pc (th : Thread) (hyper : Bool) :
    (th.returnFrom hyper).pc = branchTarget (th.returnFrom hyper) (if hyper then th.hsrr0 else th.srr0) := by
  rw [← Thread.target_eq]
  rfl

/-- The move to the MSR goes on under the new MSR. -/
theorem moveMsr_pc (th : Thread) (m : DWord) : ({ th with msr := m } : Thread).advance.pc = following { th with msr := m } :=
  Laws.following_advance _

/-! ## The guards -/

section
variable {s : State}

theorem supervisor_problem {o : Out State} (h : ibit s.thr.msr 49 = true) : supervisor s o = s.privileged := if_pos h

theorem supervisor_allowed {o : Out State} (h : supervisorState s.thr) : supervisor s o = o :=
  if_neg (Bool.eq_false_iff.mp h)

theorem hypervisorOnly_lacking {o : Out State} (h : lacksPrivilege s.thr true) : hypervisorOnly s o = s.privileged := by
  unfold hypervisorOnly
  obtain h | ⟨-, h⟩ := h <;> simp [h]

theorem hypervisorOnly_allowed {o : Out State} (h : hypervisorState s.thr) : hypervisorOnly s o = o := by
  obtain ⟨h3, h49⟩ := h
  simp [hypervisorOnly, h3, h49]

theorem tlbManager_problem {o : Out State} (h : ibit s.thr.msr 49 = true) : tlbManager s o = s.privileged := if_pos h

theorem tlbManager_supervisor {o : Out State} (h49 : ibit s.thr.msr 49 = false) (h3 : ibit s.thr.msr 3 = false) :
    tlbManager s o = s.illegal := by
  simp [tlbManager, h3, h49]

theorem tlbManager_allowed {o : Out State} (h : hypervisorState s.thr) : tlbManager s o = o := by
  obtain ⟨h3, h49⟩ := h
  simp [tlbManager, h3, h49]

/-! ## Machine checks -/

theorem afterSync_none {o : Out State} (h : s.thr.mcheck = none) : s.afterSync o = o := if_neg (by simp [h])

/-- The pending machine check of the moving thread is taken. -/
theorem takesMachineCheck_of_afterSync {i : Instr} {o : Out State} (he : Machine.exec i s = s.afterSync o)
    (h : s.thr.mcheck.isSome = true) (hme : ibit s.thr.msr 51 = true) : TakesMachineCheck i s := by
  have hme' : ¬(!ibit s.threads[s.curT].msr 51) = true := by
    rw [show ibit s.threads[s.curT].msr 51 = true from hme]
    decide
  exact he.trans ((if_pos h).trans (if_neg hme'))

/-! ## An instruction that wrote the MSR -/

theorem leavesOrFloatTraps_of_msrWritten {i : Instr} {t : State} (he : Machine.exec i s = s.msrWritten t) :
    LeavesOrFloatTraps i s t where
  leaves h := he.trans (if_neg (Bool.eq_false_iff.mp h))
  traps h := he.trans (if_pos h)

end

/-! ## The obligations on linkage and privilege -/

/-- Settles O10: `sc` is an interrupt that saves in SRR0 and SRR1. -/
theorem systemCallEntersHandler : Obligations.SystemCallEntersHandler := by
  refine fun lev s => ⟨_, rfl, (OnlyThread.refl s).modThr _, ?_⟩
  have hv : setsHv s.ppe (.systemCall (ibit lev 6)) = (ibit lev 6 || lpesZero s) :=
    congrArg (ibit lev 6 || ·) (setsHv_program s)
  rw [State.thr_interrupt _ _ rfl, newMsr_eq_entryMsr _ rfl rfl, hv]
  rfl

/-- Settles O12: both returns write the MSR and the pc only, bit by bit as `ibit_returnFrom` and `returnFrom_pc` say. -/
theorem returnsFromInterrupt : Obligations.ReturnsFromInterrupt := by
  intro s hyper hs hh i image ret
  have he : Machine.exec i s = s.msrWritten (s.modThr fun th => th.returnFrom hyper) := by
    cases hyper
    · exact supervisor_allowed hs
    · exact hypervisorOnly_allowed ⟨hh rfl, hs⟩
  have hmask : ∀ b < 64, ibit (~~~0x783F0000#64) b = !decide (b ∈ [33, 34, 35, 36, 42, 43, 44, 45, 46, 47]) := by decide
  have himage : ∀ b < 64, b ∉ [33, 34, 35, 36, 42, 43, 44, 45, 46, 47] → ibit (image &&& ~~~0x783F0000#64) b = ibit image b :=
    fun b hb hn => by rw [ibit_and, hmask b hb, decide_eq_false hn, Bool.not_false, Bool.and_true]
  refine ⟨_, leavesOrFloatTraps_of_msrWritten he, (OnlyThread.refl s).modThr _, ?_⟩
  rw [State.thr_modThr]
  have hbit : ∀ b < 64, b ∉ [33, 34, 35, 36, 42, 43, 44, 45, 46, 47] → ibit (s.thr.returnFrom hyper).msr b =
      if (b = 3 ∨ b = 51) ∧ ibit s.thr.msr 3 = false then ibit s.thr.msr b
      else (ibit image b && ibit msrMask b) || (decide (b ∈ [48, 58, 59]) && ibit image 49) := fun b hb hn => by
    rw [ibit_returnFrom hb, ibit_msrOf hb, himage b hb hn, himage 49 (by decide) (by decide)]
  refine ⟨rfl, ?_, ?_, ?_, ?_, ?_, returnFrom_pc _ _⟩
  · simp [hbit, ibit_msrMask]
  · simp [hbit, ibit_msrMask]
  · cases h : ibit s.thr.msr 3 <;> simp [hbit, ibit_msrMask, h]
  · simp [ibit_returnFrom, ibit_msrOf, ibit_msrMask]
  · simp [ibit_returnFrom, ibit_msrOf, ibit_msrMask]

/-- Settles O13: the guard of each instruction answers. -/
theorem privilegedInstructionsTrap : Obligations.PrivilegedInstructionsTrap := by
  refine ⟨fun i hyper h s hl => traps_of_raise 0 ?_, fun i h s => ⟨fun hp => traps_of_raise 0 ?_, fun hp hh => traps_of_raise 0 ?_⟩⟩
  · cases h with
    | hrfid => exact hypervisorOnly_lacking hl
    | _ => exact supervisor_problem (hl.resolve_right fun h => Bool.false_ne_true h.1)
  · cases h <;> exact tlbManager_problem hp
  · cases h <;> exact tlbManager_supervisor hp hh

/-! ## The move to the MSR -/

section
variable {rs : BitVec 5} {s : State}

/-- What a move to the MSR writes there: the register, or for `mtmsr` its low word under the old upper one (R928, R929). -/
def msrSource (th : Thread) (rs : BitVec 5) (word : Bool) : DWord :=
  match word with
  | true => ibm th.msr 0 32 ++ lowWord (th.getGpr rs)
  | false => th.getGpr rs

theorem ibit_msrSource {b : Nat} (hb : b < 64) (th : Thread) (rs : BitVec 5) (word : Bool) :
    ibit (msrSource th rs word) b = if word = true ∧ b < 32 then ibit th.msr b else ibit (th.getGpr rs) b := by
  cases word
  · rfl
  · refine (ibit_append _ _ hb).trans ?_
    by_cases h : b < 32
    · simp [h, ibit_ibm th.msr h (show 0 + 32 ≤ 64 by decide)]
    · rw [if_neg h, if_neg (fun hn => h hn.2), ibit_lowWord _ (by omega), show 32 + (b - 32) = b by omega]

theorem exec_moveToMsr (l word : Bool) (hs : supervisorState s.thr) :
    Machine.exec (if word then .ppeMtmsr rs l else .ppeMtmsrd rs l) s = s.moveSync l (s.msrWritten (s.modThr fun th =>
      { th with msr := moveMsr th.msr (msrSource th rs word) l }.advance)) := by
  cases word <;> exact supervisor_allowed hs

/-- A pending machine check comes before a move with L = 0. -/
theorem moveToMsr_takesMachineCheck (word : Bool) (hs : supervisorState s.thr) (hm : s.thr.mcheck.isSome = true)
    (hme : ibit s.thr.msr 51 = true) : TakesMachineCheck (if word then .ppeMtmsr rs false else .ppeMtmsrd rs false) s :=
  takesMachineCheck_of_afterSync ((exec_moveToMsr false word hs).trans (if_neg Bool.false_ne_true)) hm hme

theorem exec_moveToMsr_written (l word : Bool) (hs : supervisorState s.thr) (hm : l = false → s.thr.mcheck = none) :
    Machine.exec (if word then .ppeMtmsr rs l else .ppeMtmsrd rs l) s = s.msrWritten (s.modThr fun th =>
      { th with msr := moveMsr th.msr (msrSource th rs word) l }.advance) := by
  rw [exec_moveToMsr l word hs]
  cases l
  · exact (if_neg Bool.false_ne_true).trans (afterSync_none (hm rfl))
  · rfl

/-- The bits that a move with L = 1 leaves. -/
theorem moveToMsr_some_bits (word : Bool) {b : Nat} (hb : b < 64) :
    ibit (moveMsr s.thr.msr (msrSource s.thr rs word) true) b =
      if b = 48 ∨ b = 62 then ibit (s.thr.getGpr rs) b else ibit s.thr.msr b := by
  rw [ibit_moveMsr_some hb, ibit_msrSource hb]
  split
  · next h => rw [if_neg (by omega)]
  · rfl

/-- The reserved bits of a legal MSR are 0. -/
theorem ibit_legalMsr {m : DWord} (h : legalMsr m) {b : Nat} (hb : b < 64) : (ibit m b && ibit msrMask b) = ibit m b := by
  have hz : ibit (m &&& ~~~msrMask) b = false := by
    rw [show m &&& ~~~msrMask = 0 from h.1]
    exact ibit_zero b
  rw [ibit_and, ibit_not _ hb] at hz
  cases hm : ibit m b
  · rfl
  · rw [hm] at hz
    simpa using hz

/-- The bits that a move with L = 0 leaves, as R928 and R929 list them. -/
theorem moveToMsr_all_bits (word : Bool) (hl : legalMsr s.thr.msr) :
    let m := moveMsr s.thr.msr (msrSource s.thr rs word) false
    let v := s.thr.getGpr rs
    (∀ b ∈ [49, 50, 52, 53, 54, 55, 62], ibit m b = ibit v b) ∧
    (∀ b ∈ [48, 58, 59], ibit m b = (ibit v b || ibit v 49)) ∧
    (∀ b ∈ [0, 38], word = false ∨ 32 ≤ b → ibit m b = ibit v b) ∧
    (∀ b, b < 32 → word = true → ibit m b = ibit s.thr.msr b) ∧
    (∀ b ∈ [3, 47, 51, 63], ibit m b = ibit s.thr.msr b) := by
  intro m v
  have hbit : ∀ b < 64, ibit m b = if b = 3 ∨ b = 51 then ibit s.thr.msr b
      else (ibit (msrSource s.thr rs word) b && ibit msrMask b) || (decide (b ∈ [48, 58, 59]) && ibit v 49) := fun b hb => by
    have h49 : ibit (msrSource s.thr rs word) 49 = ibit v 49 := by
      rw [ibit_msrSource (by decide), if_neg (by simp)]
    rw [ibit_moveMsr_all hb, ibit_msrOf hb, h49]
  have hlow : ∀ b < 64, 32 ≤ b → ibit (msrSource s.thr rs word) b = ibit v b := fun b hb h => by
    rw [ibit_msrSource hb, if_neg (by omega)]
  have hreserved : ∀ b ∈ [47, 63], ibit s.thr.msr b = false := fun b hb => by
    have hb64 : b < 64 := by
      revert b
      decide
    have hmask : ibit msrMask b = false := by
      revert b
      decide
    rw [← ibit_legalMsr hl hb64, hmask, Bool.and_false]
  refine ⟨?_, ?_, ?_, ?_, ?_⟩
  · simp [hbit, hlow, ibit_msrMask]
  · simp [hbit, hlow, ibit_msrMask]
  · cases word <;> simp [hbit, hlow, ibit_msrMask, ibit_msrSource, v]
  · intro b hb hw
    have hne : b ∉ [48, 58, 59] := by
      simp
      omega
    have hsource : ibit (msrSource s.thr rs word) b = ibit s.thr.msr b := by
      rw [ibit_msrSource (by omega), if_pos ⟨hw, hb⟩]
    rw [hbit b (by omega), hsource, ibit_legalMsr hl (by omega), decide_eq_false hne, Bool.false_and, Bool.or_false, ite_self]
  · simp [hbit, ibit_msrMask, hreserved]

end

theorem toNat_ibm_high (w : DWord) : ((ibm w 0 32).setWidth 64).toNat = w.toNat / 2^32 := by
  have h := w.isLt
  rw [BitVec.toNat_setWidth, toNat_ibm, Nat.mod_eq_of_lt] <;> omega

/-! ## Reading MSR, CR and the time base -/

/-- Settles O14: the moves to the MSR by their bits, the reads as instructions that write one GPR. -/
theorem msrIsReadAndWritten : Obligations.MsrIsReadAndWritten := by
  refine ⟨fun rs l word s hs hl => ?_, fun rt s => ⟨fun hs => ?_, ?_, ?_, ?_, fun n h268 h269 => ?_⟩⟩
  · refine ⟨?_, fun hm => ⟨_, leavesOrFloatTraps_of_msrWritten (exec_moveToMsr_written l word hs hm),
      (OnlyThread.refl s).modThr _, ?_⟩⟩
    · rintro rfl hm hme
      exact moveToMsr_takesMachineCheck word hs hm hme
    · rw [State.thr_modThr]
      refine ⟨rfl, moveMsr_pc s.thr _, ?_, ?_⟩
      · rintro rfl b hb
        exact moveToMsr_some_bits word hb
      · rintro rfl
        exact moveToMsr_all_bits word hl
  · exact completes_of_setGpr 0 (supervisor_allowed hs) rfl fun _ ht => ht
  · exact completes_of_setGpr 0 rfl rfl fun _ ht => ht
  · exact completes_of_setGpr 0 rfl rfl fun _ ht => ht
  · refine completes_of_setGpr 0 rfl rfl fun t ht => ?_
    rw [ht]
    exact toNat_ibm_high s.ppe.tb
  · refine traps_of_raise 0 (if_neg ?_)
    rintro (h | h)
    · exact h268 (BitVec.eq_of_toNat_eq h)
    · exact h269 (BitVec.eq_of_toNat_eq h)

end Sys2Proof.Machine
end

section
/-! Segment lookaside buffer entries: written, read back, and invalidated (44_ppe_system R940 to R944, 21_translation R446). -/

namespace Sys2Proof.Machine

open Sys2Proof.Safety

/-! ## Images -/

/-- The `slbmfee` image of the entry that `slbmte` writes. -/
theorem ibit_slbEsidImage (v w : DWord) {b : Nat} (hb : b < 64) :
    ibit (slbEsidImage (slbOf v w)) b = (decide (b ≤ 36) && ibit w b) := by
  unfold slbEsidImage slbOf
  rw [ibit_setIbit _ _ _ _ (by decide) hb, ibit_setIbm _ _ (by decide) hb]
  by_cases h : b = 36
  · subst h
    simp
  · by_cases hlt : b < 36
    · rw [if_neg (Ne.symm h), if_pos (by omega), ibit_ibm _ (by omega) (by decide), decide_eq_true (by omega), Bool.true_and]
      congr 1
      omega
    · rw [if_neg (Ne.symm h), if_neg (by omega), ibit_zero, decide_eq_false (by omega), Bool.false_and]

/-- The `slbmfev` image of the entry that `slbmte` writes. -/
theorem ibit_slbVsidImage (v w : DWord) {b : Nat} (hb : b < 64) :
    ibit (slbVsidImage (slbOf v w)) b = (decide ((15 ≤ b ∧ b ≤ 56) ∨ b = 59) && ibit v b) := by
  have hbits : ibit (slbVsidImage (slbOf v w)) b = if 59 = b then ibit v 59 else if 56 = b then ibit v 56 else
      if 55 = b then ibit v 55 else if 54 = b then ibit v 54 else if 53 = b then ibit v 53 else if 52 = b then ibit v 52 else
      if 15 ≤ b ∧ b < 15 + 37 then ibit (ibm v 15 37) (b - 15) else false := by
    simp only [slbVsidImage, slbOf, ibit_setIbit, hb, Nat.reduceLT]
    rw [ibit_setIbm _ _ (by decide) hb, ibit_zero]
  rw [hbits]
  by_cases hv : 15 ≤ b ∧ b < 15 + 37
  · iterate 6 rw [if_neg (by omega)]
    rw [if_pos hv, ibit_ibm _ (by omega) (by decide), decide_eq_true (by omega), show 15 + (b - 15) = b by omega, Bool.true_and]
  · by_cases hs : b ∈ [52, 53, 54, 55, 56, 59]
    · simp only [List.mem_cons, List.not_mem_nil, or_false] at hs
      obtain rfl | rfl | rfl | rfl | rfl | rfl := hs <;> rfl
    · simp only [List.mem_cons, List.not_mem_nil, or_false, not_or] at hs
      iterate 6 rw [if_neg (by omega)]
      rw [if_neg hv, decide_eq_false (by omega), Bool.false_and]

/-! ## Writing and reading an entry -/

theorem slbNumber_val (w : DWord) : (slbNumber w).val = w.toNat % 64 := toNat_ibm_low w rfl

section
variable {s : State}

/-- The state after `slbmte` in supervisor state. -/
def slbWritten (s : State) (rs rb : BitVec 5) : State := s.modThr fun th =>
  ({ th with slb := th.slb.set (slbNumber (th.getGpr rb)) (slbOf (th.getGpr rs) (th.getGpr rb)) } : Thread).advance

theorem slbWritten_slb (rs rb : BitVec 5) (k : Fin 64) :
    (slbWritten s rs rb).thr.slb[k] = if k.val = (s.thr.getGpr rb).toNat % 64 then slbOf (s.thr.getGpr rs) (s.thr.getGpr rb)
      else s.thr.slb[k] := by
  rw [slbWritten, State.thr_modThr, ← slbNumber_val]
  simp only [Thread.advance_slb, Fin.getElem_fin, Vector.getElem_set, eq_comm]

/-- The entry that RB selects, read after `slbmte` of the same RB. -/
theorem slbWritten_selected (rs rb : BitVec 5) :
    (slbWritten s rs rb).thr.slb[slbNumber ((slbWritten s rs rb).thr.getGpr rb)] = slbOf (s.thr.getGpr rs) (s.thr.getGpr rb) := by
  have hg : (slbWritten s rs rb).thr.getGpr rb = s.thr.getGpr rb := by
    rw [slbWritten, State.thr_modThr]
    rfl
  rw [slbWritten_slb, if_pos ((slbNumber_val _).trans (by rw [hg]))]

theorem slbWritten_supervisor (rs rb : BitVec 5) (h : supervisorState s.thr) : supervisorState (slbWritten s rs rb).thr := by
  rw [slbWritten, State.thr_modThr]
  exact h

theorem completes_slbmfee {rt rb : BitVec 5} (h : supervisorState s.thr) : Completes (.ppeSlbmfee rt rb) s { gpr := [rt] } fun t =>
    t.thr.getGpr rt = slbEsidImage s.thr.slb[slbNumber (s.thr.getGpr rb)] :=
  completes_of_setGpr 0 (supervisor_allowed h) rfl fun _ ht => ht

theorem completes_slbmfev {rt rb : BitVec 5} (h : supervisorState s.thr) : Completes (.ppeSlbmfev rt rb) s { gpr := [rt] } fun t =>
    t.thr.getGpr rt = slbVsidImage s.thr.slb[slbNumber (s.thr.getGpr rb)] :=
  completes_of_setGpr 0 (supervisor_allowed h) rfl fun _ ht => ht

end

/-- Settles O16: `slbmte` by the entry it writes and the images of that entry, the invalidations by the entries they map. -/
theorem segmentEntriesAreWrittenAndInvalidated : Obligations.SegmentEntriesAreWrittenAndInvalidated := by
  refine ⟨fun rs rb rt s hs => ?_, fun s hs => ⟨fun rb => ?_, ?_⟩⟩
  · have hs' := slbWritten_supervisor rs rb hs
    refine ⟨slbWritten s rs rb, supervisor_allowed hs, (OnlyThread.refl s).modThr _, ?_, ?_, ?_, ?_, ?_⟩
    · rw [slbWritten, State.thr_modThr]
      rfl
    · rw [slbWritten, State.thr_modThr]
      exact Laws.following_advance _
    · exact fun k hk => (slbWritten_slb rs rb k).trans (if_neg hk)
    · refine Completes.imp (completes_slbmfee hs') fun u hu b hb => ?_
      rw [hu, slbWritten_selected, ibit_slbEsidImage _ _ hb]
    · refine Completes.imp (completes_slbmfev hs') fun u hu b hb => ?_
      rw [hu, slbWritten_selected, ibit_slbVsidImage _ _ hb]
  · refine ⟨_, supervisor_allowed hs, (OnlyThread.refl s).modThr _, ?_⟩
    rw [State.thr_modThr]
    refine ⟨rfl, Laws.following_advance _, fun x hx => ?_, fun k => ?_⟩
    · obtain ⟨hx, hc⟩ := List.mem_filter.mp hx
      exact ⟨hx, bne_iff_ne.mp hc⟩
    · exact Vector.getElem_map ..
  · refine ⟨_, supervisor_allowed hs, (OnlyThread.refl s).modThr _, ?_⟩
    rw [State.thr_modThr]
    exact ⟨rfl, Laws.following_advance _, rfl, fun k => Vector.getElem_map ..⟩

end Sys2Proof.Machine
end

section
/-! Invalidation of TLB entries (O17): reading a canonical table after `clearTlb`, the bits of a page number that RB names, and the
invalidations that an SPE performs. -/

namespace Sys2Proof.Machine
open Sys2Proof.Safety

/-! ## A canonical table after `clearTlb` -/

/-- The entry that invalidation leaves under a key: it stays, or is no longer valid. -/
def cleared (f : Nat → TlbEntry → Bool) (key : Nat) (x : TlbEntry) : TlbEntry := if f (key / 4) x then { x with v := false } else x

theorem cleared_empty (f : Nat → TlbEntry → Bool) (key : Nat) : cleared f key .empty = .empty := by
  unfold cleared
  split <;> rfl

theorem clearTlb_cons (f : Nat → TlbEntry → Bool) (j : Nat) (x : TlbEntry) (l : List (Nat × TlbEntry)) :
    clearTlb f ((j, x) :: l) = if cleared f j x = .empty then clearTlb f l else (j, cleared f j x) :: clearTlb f l := by
  unfold clearTlb cleared
  by_cases hf : f (j / 4) x <;> simp [hf, List.filter_cons, ite_not]

theorem swfFrom_clearTlb (f : Nat → TlbEntry → Bool) (l : List (Nat × TlbEntry)) :
    ∀ b, swfFrom .empty b l = true → swfFrom .empty b (clearTlb f l) = true := by
  induction l with
  | nil => exact fun _ h => h
  | cons jx rest ih =>
    obtain ⟨j, x⟩ := jx
    intro b h
    simp only [swfFrom, Bool.and_eq_true, decide_eq_true_eq] at h
    obtain ⟨⟨hb, -⟩, hr⟩ := h
    rw [clearTlb_cons]
    split
    · exact swfFrom_mono _ _ (j + 1) b (ih _ hr) (by omega)
    next hne => simp [swfFrom, hb, hne, ih _ hr]

theorem sget_clearTlb (f : Nat → TlbEntry → Bool) (key : Nat) (l : List (Nat × TlbEntry)) :
    ∀ b, swfFrom .empty b l = true → sget .empty (clearTlb f l) key = cleared f key (sget .empty l key) := by
  induction l with
  | nil => exact fun _ _ => (cleared_empty f key).symm
  | cons jx rest ih =>
    obtain ⟨j, x⟩ := jx
    intro b h
    simp only [swfFrom, Bool.and_eq_true, decide_eq_true_eq] at h
    have hr := h.2
    have below (hk : key ≤ j) : sget .empty (clearTlb f rest) key = .empty :=
      sget_below _ _ (j + 1) key (swfFrom_clearTlb f rest _ hr) (by omega)
    rw [clearTlb_cons]
    rcases Nat.lt_trichotomy key j with hk | rfl | hk
    · have hne : j ≠ key := by omega
      split <;> simp [sget, hne, hk, below hk.le, cleared_empty]
    · split
      next he => simp [sget, below le_rfl, he]
      next => simp [sget]
    · have hne : j ≠ key := by omega
      have hlt : ¬key < j := by omega
      split <;> simp [sget, hne, hlt, ih _ hr]

/-- Reading after invalidation, in a canonical table. -/
theorem sget_clearTlb_of_swf (f : Nat → TlbEntry → Bool) (key : Nat) {l : List (Nat × TlbEntry)} (h : swf TlbEntry.empty l = true) :
    sget .empty (clearTlb f l) key = cleared f key (sget .empty l key) := sget_clearTlb f key l 0 h

/-! ## Page sizes and page numbers -/

theorem isSize_pageBits_iff (sel : BitVec 4) (l lp : Bool) (n : Nat) : isSize (pageBits sel l lp) n = true ↔ pageSizeIs sel l lp n := by
  unfold isSize pageBits pageSizeIs
  cases l
  · simp [eq_comm]
  · have key : ∀ v : BitVec 2, ((if v = 0 then some 24 else if v = 1 then some 20 else if v = 2 then some 16 else none) = some n ↔
        (v.toNat, n) ∈ [(0, 24), (1, 20), (2, 16)]) := by
      intro v
      rcases (by decide +revert : v = 0 ∨ v = 1 ∨ v = 2 ∨ v = 3) with rfl | rfl | rfl | rfl <;> simp [eq_comm]
    cases lp <;> simpa using key _

theorem pageBits_eq_some_iff {sel : BitVec 4} {l lp : Bool} {n : Nat} : pageBits sel l lp = some n ↔ pageSizeIs sel l lp n := by
  rw [← isSize_pageBits_iff, isSize, decide_eq_true_iff]

theorem pageBits_eq_none_iff {sel : BitVec 4} {l lp : Bool} : pageBits sel l lp = none ↔ ∀ n, ¬pageSizeIs sel l lp n := by
  rw [Option.eq_none_iff_forall_ne_some]
  exact forall_congr' fun n => not_congr pageBits_eq_some_iff

theorem pageSizeIs_mem {sel : BitVec 4} {l lp : Bool} {n : Nat} (h : pageSizeIs sel l lp n) : n ∈ [12, 16, 20, 24] := by
  unfold pageSizeIs at h
  split at h
  · simp only [List.mem_cons, Prod.mk.injEq, List.not_mem_nil, or_false] at h ⊢
    omega
  · simp [h]

/-- Agreement of a page number with RB[22:63-p], bit by bit. -/
theorem sameVpn_iff {p : Nat} (hp : p ≤ 42) (page : Nat) (rb : DWord) :
    sameVpn p page rb = true ↔ ∀ i, p ≤ i → i < 42 → page.testBit (i - p) = rb.getLsbD i := by
  rw [sameVpn, decide_eq_true_iff]
  constructor
  · intro h i hi hlt
    have hbit := congrArg (fun n => Nat.testBit n (i - p)) h
    simp only [Nat.testBit_mod_two_pow, Nat.testBit_div_two_pow, Nat.sub_add_cancel hi] at hbit
    simpa [show i - p < 42 - p by omega, hlt, BitVec.testBit_toNat] using hbit
  · intro h
    apply Nat.eq_of_testBit_eq
    intro j
    have hj := h (j + p) (by omega)
    rw [Nat.testBit_mod_two_pow, Nat.testBit_div_two_pow, Nat.testBit_mod_two_pow]
    by_cases hlt : j + p < 42
    · simpa [hlt, show j < 42 - p by omega, BitVec.testBit_toNat] using hj hlt
    · simp [hlt, show ¬j < 42 - p by omega]

/-- A bit of the page number of an entry is a bit of its virtual address. -/
theorem testBit_pageNumber (vpn : BitVec 68) {p b : Nat} (hp : 12 ≤ p) (hb : b + p ≤ 79) :
    (vpn.toNat / 2^(p - 12)).testBit (79 - b - p) = ibit (vpn ++ 0#12) b := by
  rw [Nat.testBit_div_two_pow, BitVec.testBit_toNat, ibit_append _ _ (by omega), if_pos (by omega), ibit]
  congr 1
  omega

/-- What a selective invalidation picks. -/
theorem selects_iff {q : PpeShared} {l lp : Bool} {bits : Nat} (hs : pageSizeIs (largeSizes q) l lp bits) (rb : DWord)
    (x : TlbEntry) : selects q l bits rb x = true ↔ namesPage q l bits rb x := by
  have hbits := pageSizeIs_mem hs
  simp only [List.mem_cons, List.not_mem_nil, or_false] at hbits
  unfold selects namesPage
  rw [Bool.and_eq_true, Bool.and_eq_true, Bool.and_eq_true, Bool.and_eq_true, beq_iff_eq, decide_eq_true_iff, isSize_pageBits_iff,
    sameVpn_iff (by omega), and_assoc, and_assoc, and_assoc]
  refine and_congr_right' (and_congr_right' (and_congr_right' (and_congr_right' ⟨fun h b hb hlt => ?_, fun h i hi hlt => ?_⟩)))
  · rw [← testBit_pageNumber _ (by omega) hlt, h (79 - b) (by omega) (by omega), ibit]
    congr 1
    omega
  · have hb := h (79 - i) (by omega) (by omega)
    rw [← testBit_pageNumber (p := bits) (b := 79 - i) _ (by omega) (by omega), ibit, show 79 - (79 - i) - bits = i - bits by omega] at hb
    rw [hb]
    congr 1
    omega

end Sys2Proof.Machine
end

section
/-! `tlbie`, `tlbiel` and `tlbsync` (O17). -/

namespace Sys2Proof.Machine
open Sys2Proof.Safety

variable {s : State}

/-! ## The PPE -/

/-- What `tlbiel` with IS = '1-' picks. -/
theorem classOf_iff {sel : BitVec 4} {x : TlbEntry} (c : BitVec 8) :
    (match pageBits sel x.l x.lp with
      | none => false
      | some p => decide (tlbClass (x.vpn ++ 0#12) p = c.toNat)) = true ↔
      ∃ bits, pageSizeIs sel x.l x.lp bits ∧ tlbClass (x.vpn ++ 0#12) bits = c.toNat := by
  cases h : pageBits sel x.l x.lp with
  | none => simp [pageBits_eq_none_iff.1 h]
  | some p =>
    have hsize (bits : Nat) : pageSizeIs sel x.l x.lp bits ↔ p = bits := by rw [← pageBits_eq_some_iff, h, Option.some.injEq]
    simp [hsize]

/-- Two halves of four bits agree with RB[44:51]. -/
theorem halves_eq_class_iff (c : BitVec 8) (rb : DWord) (hc : c = ibm rb 44 8) (v w : BitVec 4) :
    (v ++ w).toNat = c.toNat ↔ ∀ j, j < 4 → ibit v j = ibit rb (44 + j) ∧ ibit w j = ibit rb (48 + j) := by
  rw [BitVec.toNat_inj, hc]
  constructor
  · intro h j hj
    have hlow := congrArg (ibit · j) h
    have hhigh := congrArg (ibit · (4 + j)) h
    simp only [ibit_append _ _ (show j < 4 + 4 by omega), ibit_append _ _ (show 4 + j < 4 + 4 by omega), if_pos hj,
      ibit_ibm (first := 44) rb (show j < 8 by omega) (by omega),
      ibit_ibm (first := 44) rb (show 4 + j < 8 by omega) (by omega)] at hlow hhigh
    exact ⟨hlow, by simpa [← Nat.add_assoc] using hhigh⟩
  · intro h
    apply eq_of_ibit_eq
    intro k hk
    rw [ibit_append _ _ hk, ibit_ibm rb hk (by omega)]
    split
    next hlt => exact (h k hlt).1
    next hge => simpa [show 48 + (k - 4) = 44 + k by omega] using (h (k - 4) (by omega)).2

/-- Eight bits as two halves. -/
theorem ibm_halves {n : Nat} (w : BitVec n) {first : Nat} (hf : first + 8 ≤ n) :
    ibm w first 8 = ibm w first 4 ++ ibm w (first + 4) 4 := by
  apply eq_of_ibit_eq
  intro k hk
  rw [ibit_append _ _ hk, ibit_ibm w hk hf]
  split
  next hlt => rw [ibit_ibm w hlt (by omega)]
  next hge => rw [ibit_ibm w (by omega) (by omega), show first + 4 + (k - 4) = first + k by omega]

theorem inClass_iff {q : PpeShared} {rb : DWord} {x : TlbEntry} :
    inClass q rb x ↔
      ∃ bits, pageSizeIs (largeSizes q) x.l x.lp bits ∧ tlbClass (x.vpn ++ 0#12) bits = (ibm rb 44 8).toNat := by
  refine exists_congr fun bits => and_congr_right fun hs => ?_
  have hbit {first j : Nat} (hf : first + 4 ≤ 80) (hj : j < 4) :
      ibit (ibm (x.vpn ++ 0#12) first 4) j = ibit (x.vpn ++ 0#12) (first + j) :=
    ibit_ibm _ hj hf
  have hbits := pageSizeIs_mem hs
  simp only [List.mem_cons, List.not_mem_nil, or_false] at hbits
  unfold tlbClass
  rcases hbits with rfl | rfl | rfl | rfl
  · rw [if_pos rfl, halves_eq_class_iff _ rb rfl]
    exact forall₂_congr fun j hj => by simp [ibit_xor, hbit, hj, bne]
  · rw [if_neg (by decide), if_pos rfl, halves_eq_class_iff _ rb rfl]
    exact forall₂_congr fun j hj => by simp [ibit_xor, hbit, hj]
  · rw [if_neg (by decide), if_neg (by decide), if_pos rfl, ibm_halves _ (by decide), halves_eq_class_iff _ rb rfl]
    exact forall₂_congr fun j hj => by simp [hbit, hj]
  · rw [if_neg (by decide), if_neg (by decide), if_neg (by decide), ibm_halves _ (by decide), halves_eq_class_iff _ rb rfl]
    exact forall₂_congr fun j hj => by simp [hbit, hj]

/-- The ERAT entries that stay. -/
theorem eratKept_iff {l : Bool} {rb : DWord} {x : EratEntry} :
    eratKept l rb x = true ↔ l = false ∧ ∃ b, 47 ≤ b ∧ b ≤ 51 ∧ ibit x.eaPage b ≠ ibit rb b := by
  unfold eratKept
  rw [Bool.and_eq_true, Bool.not_eq_true', decide_eq_true_iff]
  refine and_congr_right' ⟨fun hne => ?_, fun ⟨b, hlo, hhi, hne⟩ heq => hne ?_⟩
  · by_contra hall
    push Not at hall
    refine hne (eq_of_ibit_eq fun k hk => ?_)
    rw [ibit_ibm _ hk (by decide), ibit_ibm _ hk (by decide)]
    exact hall (47 + k) (by omega) (by omega)
  · have hb := congrArg (ibit · (b - 47)) heq
    have hj {n : Nat} {w : BitVec n} (hn : 52 ≤ n) : ibit (ibm w 47 5) (b - 47) = ibit w b :=
      (ibit_ibm w (by omega) hn).trans (congrArg (ibit w) (by omega))
    rwa [hj (by decide), hj (by decide)] at hb

/-- The SPEs that a `tlbie` reaches. -/
theorem takesTlbie_iff {q : PpeShared} {p : Spe} : p.takesTlbie q.lpidr = true ↔ takesInvalidation q p := by
  rw [Spe.takesTlbie, Bool.and_eq_true, decide_eq_true_iff]
  rfl

theorem threads_eratInvalidate (s : State) (l : Bool) (rb : DWord) (u : Fin 2) :
    (s.eratInvalidate l rb).threads[u] = { s.threads[u] with erat := s.threads[u].erat.filter (eratKept l rb) } :=
  Vector.getElem_map ..

theorem spes_broadcastTlbie (s : State) (x : Snoop) (n : Fin 8) :
    (s.broadcastTlbie x).spes[n] =
      if s.spes[n].takesTlbie x.lpid then { s.spes[n] with snoops := s.spes[n].snoops ++ [x] } else s.spes[n] :=
  Vector.getElem_map ..

/-- The state after an invalidation of the PPE's TLB. -/
def tlbInvalidatedState (s : State) (l : Bool) (rb : DWord) (pick : TlbEntry → Bool) (broadcast : Bool) : State :=
  let s1 : State := { s with ppe := { s.ppe with tlb := clearTlb (fun _ x => pick x) s.ppe.tlb } }
  ((if broadcast then s1.broadcastTlbie ⟨s.ppe.lpidr, l, rb⟩ else s1).eratInvalidate l rb).modThr Thread.advance

section
variable (s) (l : Bool) (rb : DWord) (pick : TlbEntry → Bool) (broadcast : Bool)

theorem tlbInvalidatedState_ppe :
    (tlbInvalidatedState s l rb pick broadcast).ppe = { s.ppe with tlb := clearTlb (fun _ x => pick x) s.ppe.tlb } := by
  cases broadcast <;> rfl

theorem tlbInvalidatedState_others :
    { tlbInvalidatedState s l rb pick broadcast with threads := s.threads, ppe := s.ppe, spes := s.spes } = s := by
  cases broadcast <;> rfl

theorem threads_tlbInvalidatedState (u : Fin 2) :
    (tlbInvalidatedState s l rb pick broadcast).threads[u] =
      let th : Thread := { s.threads[u] with erat := s.threads[u].erat.filter (eratKept l rb) }
      if s.curT = u then th.advance else th := by
  cases broadcast <;>
    refine (State.threads_modT ..).trans ?_ <;>
    rw [threads_eratInvalidate, threads_eratInvalidate] <;>
    exact if_ctx_congr Iff.rfl (fun hu : s.curT = u => hu ▸ rfl) fun _ => rfl

theorem spes_tlbInvalidatedState (n : Fin 8) :
    (tlbInvalidatedState s l rb pick broadcast).spes[n] = if broadcast && s.spes[n].takesTlbie s.ppe.lpidr then
      { s.spes[n] with snoops := s.spes[n].snoops ++ [⟨s.ppe.lpidr, l, rb⟩] } else s.spes[n] := by
  cases broadcast with
  | false => rfl
  | true => exact spes_broadcastTlbie ..

end

theorem tlbInvalidated_of {i : Instr} {l : Bool} {rb : DWord} {hit : TlbEntry → Prop} {pick : TlbEntry → Bool} {broadcast : Bool}
    (he : Machine.exec i s = .next (tlbInvalidatedState s l rb pick broadcast)) (hw : swf TlbEntry.empty s.ppe.tlb = true)
    (hp : ∀ x, pick x = true ↔ hit x) : TlbInvalidated i s l rb hit broadcast := by
  refine ⟨_, he, tlbInvalidatedState_others .., ?_, fun key => ?_, fun u => ?_, fun n => ?_⟩
  · rw [tlbInvalidatedState_ppe]
  · have hkey : (tlbInvalidatedState s l rb pick broadcast).ppe.tlbAt key = cleared (fun _ x => pick x) key (s.ppe.tlbAt key) := by
      rw [tlbInvalidatedState_ppe]
      exact sget_clearTlb_of_swf (fun _ x => pick x) key hw
    rw [hkey, cleared]
    exact ⟨fun h => if_pos ((hp _).2 h), fun h => if_neg fun hk => h ((hp _).1 hk)⟩
  · rw [threads_tlbInvalidatedState]
    have hmem (x : EratEntry) : x ∈ s.threads[u].erat.filter (eratKept l rb) ↔
        x ∈ s.threads[u].erat ∧ l = false ∧ ∃ b, 47 ≤ b ∧ b ≤ 51 ∧ ibit x.eaPage b ≠ ibit rb b := by
      rw [List.mem_filter, eratKept_iff]
    by_cases hu : s.curT = u
    · subst hu
      simp only [if_true]
      exact ⟨hmem, rfl, Laws.following_advance _⟩
    · rw [if_neg hu, if_neg (Ne.symm hu)]
      exact ⟨hmem, rfl, rfl⟩
  · have hn : (broadcast && s.spes[n].takesTlbie s.ppe.lpidr) = true ↔ broadcast = true ∧ takesInvalidation s.ppe s.spes[n] := by
      rw [Bool.and_eq_true, takesTlbie_iff]
    rw [spes_tlbInvalidatedState]
    exact ⟨fun h => if_pos (hn.2 h), fun h => if_neg fun hk => h (hn.1 hk)⟩

/-- The entries of one page, by `tlbie` or by `tlbiel` with IS = '0-'. -/
theorem tlbInvalidated_page {i : Instr} {l broadcast : Bool} {rb : DWord} {bits : Nat}
    (he : Machine.exec i s = s.tlbInvalidate l rb broadcast) (hw : swf TlbEntry.empty s.ppe.tlb = true)
    (hs : pageSizeIs (largeSizes s.ppe) l (ibit rb 51) bits) : TlbInvalidated i s l rb (namesPage s.ppe l bits rb) broadcast := by
  have hb : pageBits s.ppe.lb l (ibit rb 51) = some bits := pageBits_eq_some_iff.2 hs
  have he' : Machine.exec i s = .next (tlbInvalidatedState s l rb (selects s.ppe l bits rb) broadcast) := by
    rw [he, State.tlbInvalidate, hb]
    rfl
  exact tlbInvalidated_of he' hw (selects_iff hs rb)

theorem tlbInvalidate_reserved {l : Bool} {rb : DWord} (broadcast : Bool)
    (hs : ∀ bits, ¬pageSizeIs (largeSizes s.ppe) l (ibit rb 51) bits) : s.tlbInvalidate l rb broadcast = .refused .reservedValue := by
  rw [State.tlbInvalidate, show pageBits s.ppe.lb l (ibit rb 51) = none from pageBits_eq_none_iff.2 hs]

/-- The entries of a congruence class, by `tlbiel` with IS = '1-'. -/
theorem tlbInvalidated_class {i : Instr} {l : Bool} {rb : DWord}
    (he : Machine.exec i s = s.tlbInvalidateClass l rb) (hw : swf TlbEntry.empty s.ppe.tlb = true) :
    TlbInvalidated i s l rb (inClass s.ppe rb) false :=
  tlbInvalidated_of he hw fun _ => (classOf_iff _).trans inClass_iff.symm

end Sys2Proof.Machine
end

section
/-! The invalidations that an SPE performs, and the obligation on all of them (O17). -/

namespace Sys2Proof.Machine
open Sys2Proof.Safety

variable {s : State} {p q : Spe} {w : Snoop} {key : Nat}

theorem namesSmmEntry_valid (x : TlbEntry) (v : Bool) : namesSmmEntry p w key { x with v := v } ↔ namesSmmEntry p w key x := Iff.rfl

theorem namesSmmEntry_congr (h : p.cells = q.cells) (x : TlbEntry) : namesSmmEntry p w key x ↔ namesSmmEntry q w key x := by
  unfold namesSmmEntry Spe.cell
  rw [h]

/-- The entries that `performTlbie` picks, once the page size of the invalidation is known. -/
theorem picks_iff {bits : Nat} (hs : pageSizeIs (ibm (q.cell keySmmHid) 0 4) w.l (ibit w.rb 51) bits) (x : TlbEntry) :
    ((x.l == w.l) && isSize (pageBits (ibm (q.cell keySmmHid) 0 4) x.l x.lp) bits &&
      sameVpn bits (x.vpn.toNat / 2^6 / 2^(bits - 12) * 64 + key / 4) w.rb) = true ↔ namesSmmEntry q w key x := by
  have hbits := pageSizeIs_mem hs
  simp only [List.mem_cons, List.not_mem_nil, or_false] at hbits
  have hpow : x.vpn.toNat / 2^6 / 2^(bits - 12) = x.vpn.toNat / 2^(bits - 6) := by
    rw [Nat.div_div_eq_div_mul, ← Nat.pow_add, show 6 + (bits - 12) = bits - 6 by omega]
  have hunique {n : Nat} (hn : pageSizeIs (ibm (q.cell keySmmHid) 0 4) w.l (ibit w.rb 51) n) : n = bits := by
    have hsome := pageBits_eq_some_iff.2 hn
    rw [pageBits_eq_some_iff.2 hs, Option.some.injEq] at hsome
    exact hsome.symm
  rw [Bool.and_eq_true, Bool.and_eq_true, beq_iff_eq, isSize_pageBits_iff, sameVpn, decide_eq_true_iff, hpow]
  constructor
  · rintro ⟨⟨hl, hsize⟩, hvpn⟩
    exact ⟨bits, hs, hl, hsize, hvpn⟩
  · rintro ⟨n, hn, hl, hsize, hvpn⟩
    obtain rfl := hunique hn
    exact ⟨⟨hl, hsize⟩, hvpn⟩

/-- Whether an entry is named is decided by what `performTlbie` clears. -/
theorem performTlbie_cases (q : Spe) (w : Snoop) :
    (∀ key x, ¬namesSmmEntry q w key x) ∧ q.performTlbie w = q ∨
    ∃ f : Nat → TlbEntry → Bool, (∀ key x, f (key / 4) x = true ↔ namesSmmEntry q w key x) ∧
      q.performTlbie w = { q with tlb := clearTlb f q.tlb } := by
  unfold Spe.performTlbie
  dsimp only
  split
  next hnone =>
    refine .inl ⟨?_, rfl⟩
    rintro key x ⟨bits, hs, -⟩
    exact pageBits_eq_none_iff.1 hnone bits hs
  next bits hsome => exact .inr ⟨_, fun key x => picks_iff (pageBits_eq_some_iff.1 hsome) x, rfl⟩

theorem swf_performTlbie (w : Snoop) (h : swf TlbEntry.empty q.tlb = true) : swf TlbEntry.empty (q.performTlbie w).tlb = true := by
  obtain ⟨-, heq⟩ | ⟨f, -, heq⟩ := performTlbie_cases q w
  · rwa [heq]
  · rw [heq]
    exact swfFrom_clearTlb f q.tlb 0 h

theorem performTlbie_others (q : Spe) (w : Snoop) : { q.performTlbie w with tlb := q.tlb } = q := by
  obtain ⟨-, heq⟩ | ⟨f, -, heq⟩ := performTlbie_cases q w <;> rw [heq]

theorem performTlbie_tlbAt (w : Snoop) (h : swf TlbEntry.empty q.tlb = true) (key : Nat) :
    (namesSmmEntry q w key (q.tlbAt key) → (q.performTlbie w).tlbAt key = { q.tlbAt key with v := false }) ∧
      (¬namesSmmEntry q w key (q.tlbAt key) → (q.performTlbie w).tlbAt key = q.tlbAt key) := by
  obtain ⟨hno, heq⟩ | ⟨f, hf, heq⟩ := performTlbie_cases q w
  · rw [heq]
    exact ⟨fun hn => absurd hn (hno _ _), fun _ => rfl⟩
  · have hkey : (q.performTlbie w).tlbAt key = cleared f key (q.tlbAt key) := heq ▸ sget_clearTlb_of_swf f key h
    rw [hkey, ← hf, cleared]
    exact ⟨fun hn => if_pos hn, fun hn => if_neg hn⟩

theorem smmInvalidated_refl (p : Spe) : SmmInvalidated p p [] p.snoops :=
  ⟨rfl, rfl, fun _ ⟨_, h, _⟩ => absurd h List.not_mem_nil, fun _ _ => rfl⟩

theorem smmInvalidated_withSnoops {ws left : List Snoop} (h : SmmInvalidated p q ws left) (rest : List Snoop) :
    SmmInvalidated p { q with snoops := rest } ws rest := ⟨rfl, h.others, h.hit, h.kept⟩

/-- One more invalidation. -/
theorem smmInvalidated_performTlbie {ws left : List Snoop} (h : SmmInvalidated p q ws left)
    (hq : swf TlbEntry.empty q.tlb = true) (w : Snoop) : SmmInvalidated p (q.performTlbie w) (ws ++ [w]) left := by
  have hothers := performTlbie_others q w
  have hcells : q.cells = p.cells := by
    have hc := congrArg Spe.cells h.others
    exact hc
  have hentry (key : Nat) : q.tlbAt key = p.tlbAt key ∨ q.tlbAt key = { p.tlbAt key with v := false } :=
    (em _).symm.imp (h.kept key) (h.hit key)
  have hnames (key : Nat) : namesSmmEntry q w key (q.tlbAt key) ↔ namesSmmEntry p w key (p.tlbAt key) := by
    rw [namesSmmEntry_congr hcells]
    obtain he | he := hentry key <;> rw [he]
    exact namesSmmEntry_valid _ false
  refine ⟨?_, ?_, fun key hex => ?_, fun key hno => ?_⟩
  · exact (congrArg (fun r : Spe => r.snoops) hothers).trans h.left
  · exact (congrArg (fun r : Spe => { r with snoops := p.snoops, tlb := p.tlb }) hothers).trans h.others
  · obtain ⟨w', hmem, hn⟩ := hex
    by_cases hw : namesSmmEntry p w key (p.tlbAt key)
    · rw [(performTlbie_tlbAt w hq key).1 ((hnames key).2 hw)]
      obtain he | he := hentry key <;> rw [he]
    · have hold : w' ∈ ws := by
        obtain hold | hnew := List.mem_append.1 hmem
        · exact hold
        · exact absurd (List.mem_singleton.1 hnew ▸ hn) hw
      rw [(performTlbie_tlbAt w hq key).2 (mt (hnames key).1 hw), h.hit key ⟨w', hold, hn⟩]
  · have hw : ¬namesSmmEntry p w key (p.tlbAt key) := fun hn => hno ⟨w, List.mem_append_right _ (List.mem_singleton_self w), hn⟩
    rw [(performTlbie_tlbAt w hq key).2 (mt (hnames key).1 hw)]
    exact h.kept key fun ⟨w', hmem, hn⟩ => hno ⟨w', List.mem_append_left _ hmem, hn⟩

theorem smmInvalidated_foldl {left : List Snoop} (l : List Snoop) :
    ∀ (q : Spe) (ws : List Snoop), SmmInvalidated p q ws left → swf TlbEntry.empty q.tlb = true →
      SmmInvalidated p (l.foldl Spe.performTlbie q) (ws ++ l) left := by
  induction l with
  | nil => exact fun q ws h _ => by simpa using h
  | cons w rest ih =>
    intro q ws h hq
    simpa using ih _ _ (smmInvalidated_performTlbie h hq w) (swf_performTlbie w hq)

theorem smmInvalidated_performTlbies (h : swf TlbEntry.empty p.tlb = true) : SmmInvalidated p p.performTlbies p.snoops [] :=
  smmInvalidated_withSnoops (smmInvalidated_foldl p.snoops p [] (smmInvalidated_refl p) h) []

theorem smmInvalidated_performOldest {rest : List Snoop} (hs : p.snoops = w :: rest) (h : swf TlbEntry.empty p.tlb = true) :
    SmmInvalidated p p.performOldest [w] rest := by
  unfold Spe.performOldest
  rw [hs]
  exact smmInvalidated_withSnoops (smmInvalidated_performTlbie (smmInvalidated_refl p) h w) rest

/-- The only move of an MFC is the oldest waiting invalidation. -/
theorem mfcStep_snoop (h : s.spe.mfcMoves = [.snoop]) : s.mfcStep = .next (s.modSpe Spe.performOldest) := by
  unfold State.mfcStep
  rw [h]
  rfl

/-- Going on is a move of the pc to the following address. -/
theorem advance_eq (th : Thread) : th.advance = { th with pc := following th } :=
  congrArg (fun a => { th with pc := a }) (Laws.following_advance th)

/-- Settles O17: what is cleared agrees with what RB names, entry by entry; several invalidations by induction on what waits. -/
theorem tlbEntriesAreInvalidated : Obligations.TlbEntriesAreInvalidated := by
  refine ⟨fun s hh hw l r => ⟨fun bits hs => ⟨?_, fun h52 => ?_⟩, fun h52 => ?_, fun hs => ⟨?_, fun h52 => ?_⟩⟩, fun s hh hw => ?_,
    fun s w rest hm hs hw => ?_⟩
  · exact tlbInvalidated_page (tlbManager_allowed hh) hw hs
  · exact tlbInvalidated_page ((tlbManager_allowed hh).trans (if_neg (by simp [h52]))) hw hs
  · exact tlbInvalidated_class ((tlbManager_allowed hh).trans (if_pos h52)) hw
  · exact (tlbManager_allowed hh).trans (tlbInvalidate_reserved true hs)
  · exact (tlbManager_allowed hh).trans ((if_neg (by simp [h52])).trans (tlbInvalidate_reserved false hs))
  · refine ⟨_, tlbManager_allowed hh, rfl, fun u => ?_, fun n => ?_⟩
    · refine (State.threads_modT ..).trans (if_ctx_congr eq_comm (fun hu => ?_) fun _ => rfl)
      exact advance_eq _
    · have hn : (s.spes.map Spe.performTlbies)[n] = s.spes[n].performTlbies := Vector.getElem_map ..
      exact hn ▸ smmInvalidated_performTlbies (hw n)
  · refine ⟨_, mfcStep_snoop hm, onlySpe_modSpe s 0 _, ?_⟩
    rw [State.spe_modSpe]
    exact smmInvalidated_performOldest hs hw

end Sys2Proof.Machine
end

section
/-! The special-purpose registers (O15): who may access them, and what a write of one leaves of the others. -/

namespace Sys2Proof.Machine
open Sys2Proof.Safety

variable {s : State}

/-! ## Privilege -/

/-- The privilege of a level of the table of plain registers. -/
def levelPriv : Nat → Priv
  | 0 => .user
  | 1 => .super
  | _ => .hyper

theorem plainSpr_priv {n level : Nat} {mask : DWord} (h : PlainSpr n level mask) :
    n < 1024 ∧ sprReadPriv n = some (levelPriv level) ∧ sprWritePriv n = some (levelPriv level) := by
  cases h
  case rangeBase hn => decide +revert
  case rangeMask hn => decide +revert
  case rangeClass hn => decide +revert
  all_goals decide

theorem sprAccess_allowed {level n : Nat} {o : Out State} (h : mayAccess s.thr level) :
    sprAccess s n (some (levelPriv level)) o = o := by
  obtain ⟨hsuper, hhyper⟩ := h
  match level with
  | 0 => rfl
  | 1 => exact supervisor_allowed (hsuper le_rfl)
  | k + 2 => exact hypervisorOnly_allowed ⟨hhyper (by omega), hsuper (by omega)⟩

theorem sprAccess_lacking {level n : Nat} {o : Out State} (h : ¬mayAccess s.thr level) :
    sprAccess s n (some (levelPriv level)) o = s.privileged := by
  unfold mayAccess at h
  match level with
  | 0 => simp at h
  | 1 => exact supervisor_problem (by simpa using h)
  | k + 2 =>
    refine hypervisorOnly_lacking ?_
    unfold lacksPrivilege
    cases h49 : ibit s.thr.msr 49 <;> simp_all

/-! ## The plain registers as one table -/

/-- The numbers of the plain registers. -/
def plainNumbers : List Nat :=
  [1, 8, 9, 18, 19, 22, 25, 26, 27, 256, 272, 273, 274, 275, 304, 305, 310, 312, 313, 314, 315, 318, 319, 921, 922, 1008, 1009, 1012,
    1013, 1015, 1017, 952, 953, 954, 955, 956, 957, 976, 977, 978, 979, 980, 981]

/-- What they read as, in that order. -/
def plainValues (th : Thread) (p : PpeShared) : List DWord :=
  let r := th.ranges
  [th.xer, th.lr, th.ctr, th.dsisr.setWidth 64, th.dar, th.dec.setWidth 64, p.sdr1, th.srr0, th.srr1, th.vrsave.setWidth 64,
    th.sprg0, th.sprg1, th.sprg2, th.sprg3, th.hsprg0, th.hsprg1, p.hdec.setWidth 64, p.rmor, p.hrmor, th.hsrr0, th.hsrr1,
    lpcrImage p th, p.lpidr.setWidth 64, p.tscr.setWidth 64, p.ttr, p.hid0, p.hid1, p.hid4, th.dabr, th.dabrx, p.hid6,
    r.drsr0, r.drmr0, r.dcidr0, r.drsr1, r.drmr1, r.dcidr1, r.irsr0, r.irmr0, r.icidr0, r.irsr1, r.irmr1, r.icidr1]

theorem mem_plainNumbers {n level : Nat} {mask : DWord} (h : PlainSpr n level mask) : n ∈ plainNumbers := by
  cases h
  case rangeBase hn => decide +revert
  case rangeMask hn => decide +revert
  case rangeClass hn => decide +revert
  all_goals decide

theorem map_readSpr (s : State) : plainNumbers.map s.readSpr = (plainValues s.thr s.ppe).map (·, 0) := rfl

theorem readSpr_eq_some_iff {n : Nat} (h : n ∈ plainNumbers) (x : DWord × Nat) :
    s.readSpr n = x ↔ (plainValues s.thr s.ppe)[plainNumbers.idxOf n]?.map (·, 0) = some x := by
  rw [← List.getElem?_map, ← map_readSpr, List.getElem?_map, List.getElem?_idxOf h, Option.map_some, Option.some.injEq]

/-- The registers of a thread, and the place in the program, that no write of a plain special-purpose register changes. -/
def programView (th : Thread) := (th.gpr, th.fpr, th.vr, th.cr, th.msr, th.pc)

/-- `o` goes on with `x` in register `n` of the table, every other register of the table and the program view as before. -/
def WritesPlain (s : State) (n : Nat) (x : DWord) (o : Out State) : Prop :=
  ∃ p f, o = ppeNext { s with ppe := p } f ∧ programView (f s.thr) = programView s.thr ∧
    plainValues (f s.thr) p = (plainValues s.thr s.ppe).set (plainNumbers.idxOf n) x

/-! ## The implemented bits -/

theorem lowWord_setWidth (v : DWord) : (lowWord v).setWidth 64 = v &&& 0xFFFFFFFF := by
  apply BitVec.eq_of_toNat_eq
  rw [lowWord_eq_setWidth, BitVec.toNat_setWidth_of_le (by decide), BitVec.toNat_setWidth, BitVec.toNat_and]
  exact (Nat.and_two_pow_sub_one_eq_mod v.toNat 32).symm

theorem lowWord_tscr (v : DWord) : (lowWord v &&& 0xF87D8000).setWidth 64 = v &&& 0xF87D8000 := by
  rw [BitVec.setWidth_and, lowWord_setWidth, BitVec.and_assoc]
  rfl

theorem ibm_lpidr (v : DWord) : (ibm v 59 5).setWidth 64 = v &&& 0x1F := by
  apply BitVec.eq_of_toNat_eq
  rw [BitVec.toNat_setWidth_of_le (by decide), toNat_ibm_low v rfl, BitVec.toNat_and]
  exact (Nat.and_two_pow_sub_one_eq_mod v.toNat 5).symm

theorem ibit_lpcrMask : ∀ b < 64, ibit (0x3C000C0F : DWord) b = decide (b ∈ [34, 35, 36, 37, 52, 53, 60, 61, 62, 63]) := by decide

/-- A field that is copied from its own place in another word. -/
theorem ibit_setIbm_ibm (w v : DWord) {first len b : Nat} (hf : first + len ≤ 64) (hb : b < 64) :
    ibit (setIbm w first (ibm v first len)) b = if first ≤ b ∧ b < first + len then ibit v b else ibit w b := by
  rw [ibit_setIbm _ _ hf hb]
  split
  next h => rw [ibit_ibm _ (by omega) hf, show first + (b - first) = b by omega]
  next => rfl

theorem ibit_setIbit_ibit (w v : DWord) {j b : Nat} (hj : j < 64) (hb : b < 64) :
    ibit (setIbit w j (ibit v j)) b = if j = b then ibit v b else ibit w b := by
  rw [ibit_setIbit _ _ _ _ hj hb]
  split
  next h => rw [h]
  next => rfl

theorem lpcrImage_written (p : PpeShared) (th : Thread) (v : DWord) :
    lpcrImage { p with rmls := ibm v 34 4, tl := ibit v 53, lpes := ibm v 60 2 }
      { th with lpcrMer := ibit v 52, lpcrRmi := ibit v 62, lpcrHdice := ibit v 63 } = v &&& 0x3C000C0F := by
  apply eq_of_ibit_eq
  intro b hb
  rw [ibit_and, ibit_lpcrMask b hb, lpcrImage, ibit_setIbm_ibm _ _ (by decide) hb, ibit_setIbit_ibit _ _ (by decide) hb,
    ibit_setIbit_ibit _ _ (by decide) hb, ibit_setIbit_ibit _ _ (by decide) hb, ibit_setIbit_ibit _ _ (by decide) hb,
    ibit_setIbm_ibm _ _ (by decide) hb, ibit_zero]
  have hfields : b ∈ [34, 35, 36, 37, 52, 53, 60, 61, 62, 63] ↔
      (60 ≤ b ∧ b < 60 + 2) ∨ 63 = b ∨ 62 = b ∨ 53 = b ∨ 52 = b ∨ (34 ≤ b ∧ b < 34 + 4) := by
    simp only [List.mem_cons, List.not_mem_nil, or_false]
    omega
  simp only [hfields]
  grind
/-! ## HID6 -/

theorem any_toList_iff {α : Type} {n : Nat} (v : Vector α n) (f : α → Bool) :
    v.toList.any f = true ↔ ∃ i : Fin n, f v[i] = true := by
  simp only [List.any_eq_true, Vector.mem_toList_iff, Vector.mem_iff_getElem]
  constructor
  · rintro ⟨x, ⟨i, hi, rfl⟩, hx⟩
    exact ⟨⟨i, hi⟩, hx⟩
  · rintro ⟨i, hi⟩
    exact ⟨_, ⟨i, i.isLt, rfl⟩, hi⟩

theorem holdsLargePages_iff : s.holdsLargePages = true ↔ holdsLarge s := by
  unfold State.holdsLargePages holdsLarge
  simp only [Bool.or_eq_true, any_toList_iff]
  simp only [List.any_eq_true, Bool.and_eq_true, decide_eq_true_eq]

theorem writeHid6_allowed {v : DWord} (h : ibm v 16 4 = largeSizes s.ppe ∨ ¬holdsLarge s) :
    s.writeHid6 v = sprShared s fun p => { p with hid6 := v } := by
  refine if_neg fun hrefused => ?_
  rw [Bool.and_eq_true, decide_eq_true_iff, holdsLargePages_iff] at hrefused
  obtain ⟨hne, hlarge⟩ := hrefused
  exact h.elim hne (absurd hlarge)

theorem writeHid6_refused {v : DWord} (hne : ibm v 16 4 ≠ largeSizes s.ppe) (hlarge : holdsLarge s) :
    s.writeHid6 v = .refused .reservedValue := by
  refine if_pos ?_
  rw [Bool.and_eq_true, decide_eq_true_iff, holdsLargePages_iff]
  exact ⟨hne, hlarge⟩

/-! ## Writing a plain register -/

theorem writeSpr_plain {n level : Nat} {mask : DWord} (h : PlainSpr n level mask) (v : DWord)
    (h6 : n = 1017 → ibm v 16 4 = largeSizes s.ppe ∨ ¬holdsLarge s) : WritesPlain s n (v &&& mask) (s.writeSpr n v) := by
  have hall : v &&& 0xFFFFFFFFFFFFFFFF = v := BitVec.and_allOnes
  cases h
  case lr | ctr | dar | srr0 | srr1 | sprg0 | sprg1 | sprg2 | sprg3 | hsprg0 | hsprg1 | hsrr0 | hsrr1 | dabr | hid0 | hid1 | hid4 =>
    rw [hall]
    exact ⟨_, _, rfl, rfl, rfl⟩
  case hid6 =>
    rw [hall]
    exact ⟨_, _, writeHid6_allowed (h6 rfl), rfl, rfl⟩
  case dsisr | dec | vrsave | hdec =>
    rw [← lowWord_setWidth]
    exact ⟨_, _, rfl, rfl, rfl⟩
  case xer | sdr1 | rmor | hrmor | ttr | dabrx => exact ⟨_, _, rfl, rfl, rfl⟩
  case lpidr =>
    rw [← ibm_lpidr]
    exact ⟨_, _, rfl, rfl, rfl⟩
  case tscr =>
    rw [← lowWord_tscr]
    exact ⟨_, _, rfl, rfl, rfl⟩
  case lpcr =>
    rw [← lpcrImage_written s.ppe s.thr]
    exact ⟨_, _, rfl, rfl, rfl⟩
  case rangeBase hn | rangeMask hn | rangeClass hn =>
    simp only [List.mem_cons, List.not_mem_nil, or_false] at hn
    obtain rfl | rfl | rfl | rfl := hn <;> exact ⟨_, _, rfl, rfl, rfl⟩

theorem mayAccess_congr {th th' : Thread} (h : th'.msr = th.msr) {level : Nat} : mayAccess th' level ↔ mayAccess th level := by
  unfold mayAccess
  rw [h]

/-- The next state of a write: the frame, the register that was written, and the others of the table. -/
theorem WritesPlain.next {n : Nat} {x : DWord} {o : Out State} (h : WritesPlain s n x o) (hn : n ∈ plainNumbers) :
    ∃ t, o = .next t ∧ t.mem = s.mem ∧ t.spes = s.spes ∧ t.plat = s.plat ∧ (∀ u, u ≠ s.curT → t.threads[u] = s.threads[u]) ∧
      programView t.thr = programView { s.thr with pc := following s.thr } ∧
      (∀ n' ∈ plainNumbers, n' ≠ n → t.readSpr n' = s.readSpr n') ∧ t.readSpr n = (x, 0) := by
  obtain ⟨p, f, rfl, hview, hvalues⟩ := h
  have hlength : (plainValues s.thr s.ppe).length = plainNumbers.length := rfl
  have hafter (u : State) (hu : u = { s with ppe := p }.modThr fun th => (f th).advance) :
      plainValues u.thr u.ppe = (plainValues s.thr s.ppe).set (plainNumbers.idxOf n) x := by
    rw [hu, State.thr_modThr]
    exact hvalues
  refine ⟨_, rfl, rfl, rfl, rfl, fun u hu => State.threads_modThr_other _ _ u hu, ?_, fun n' hn' hne => ?_, ?_⟩
  · rw [State.thr_modThr, advance_eq]
    simp only [programView, Prod.mk.injEq] at hview ⊢
    obtain ⟨hgpr, hfpr, hvr, hcr, hmsr, hpc⟩ := hview
    refine ⟨hgpr, hfpr, hvr, hcr, hmsr, ?_⟩
    unfold following
    rw [show ({ s with ppe := p } : State).thr = s.thr from rfl, hmsr, hpc]
  · have hother : plainNumbers.idxOf n ≠ plainNumbers.idxOf n' := mt (List.idxOf_inj hn).1 (Ne.symm hne)
    rw [readSpr_eq_some_iff hn', hafter _ rfl, List.getElem?_set_ne hother, ← readSpr_eq_some_iff hn']
  · rw [readSpr_eq_some_iff hn, hafter _ rfl, List.getElem?_set_self (hlength.symm ▸ List.idxOf_lt_length_of_mem hn), Option.map_some]

theorem exec_mtspr_plain {n level : Nat} {mask : DWord} (h : PlainSpr n level mask) (rs : BitVec 5) :
    Machine.exec (.ppeMtspr rs (BitVec.ofNat 10 n)) s =
      sprAccess s n (some (levelPriv level)) (s.writeSpr n (s.thr.getGpr rs)) := by
  obtain ⟨hlt, -, hwrite⟩ := plainSpr_priv h
  have hnum : (BitVec.ofNat 10 n).toNat = n := by simpa using hlt
  change sprAccess s (BitVec.ofNat 10 n).toNat (sprWritePriv (BitVec.ofNat 10 n).toNat) _ = _
  rw [hnum, hwrite]

theorem exec_mfspr_plain {n level : Nat} {mask : DWord} (h : PlainSpr n level mask) (rt : BitVec 5) :
    Machine.exec (.ppeMfspr rt (BitVec.ofNat 10 n)) s = sprAccess s n (some (levelPriv level))
      (ppeNext (s.drew (s.readSpr n).2) fun th => th.setGpr rt (s.readSpr n).1) := by
  obtain ⟨hlt, hread, -⟩ := plainSpr_priv h
  have hnum : (BitVec.ofNat 10 n).toNat = n := by simpa using hlt
  have htlb : n ≠ 948 ∧ n ≠ 949 := by
    constructor <;> exact ne_of_mem_of_not_mem (mem_plainNumbers h) (by decide)
  change sprAccess s (BitVec.ofNat 10 n).toNat (sprReadPriv (BitVec.ofNat 10 n).toNat) (if _ then _ else _) = _
  rw [hnum, hread, if_neg (by omega)]

end Sys2Proof.Machine
end

section
/-! CTRL, the time base and TSRL as special-purpose registers, and the obligation on all of them (O15). -/

namespace Sys2Proof.Machine
open Sys2Proof.Safety

variable {s : State}

/-! ## CTRL -/

/-- The state in which `mtspr` to CTRL has written RUN, the history and TE, and asked the other thread to resume. -/
def State.ctrlAsked (s : State) (v : Word) : State :=
  let o : Fin 2 := 1 - s.curT
  let te := if s.thr.hypervisor && !ibit v (8 + s.curT.val) then setIbit s.ppe.te s.curT.val false else s.ppe.te
  let s1 : State := { s with ppe := { s.ppe with te := te, run := ibit v 31, th := setIbit s.ppe.th s.curT.val true } }
  if s.thr.hypervisor && ibit v (8 + o.val) && !ibit s.ppe.te o.val then s1.modT o fun u => { u with resumeReq := true } else s1

/-- Whether the thread suspends itself in trace mode. -/
def ctrlTraceStop (s : State) (v : Word) : Bool :=
  (s.thr.hypervisor && !ibit v (8 + s.curT.val)) && (s.thr.se || s.thr.be)

/-- The state after `mtspr` to CTRL. -/
def State.ctrlWritten (s : State) (v : Word) : State :=
  if ctrlTraceStop s v then ((s.ctrlAsked v).drew 2).modThr fun u => { u with srr0 := s.free 64 0, pc := s.free 64 1 }
  else (s.ctrlAsked v).modThr Thread.advance

theorem writeCtrl_eq (s : State) (v : Word) : s.writeCtrl v = .next (s.ctrlWritten v) := by
  unfold State.ctrlWritten
  rw [apply_ite Host.Outcome.next]
  rfl

theorem ctrlAsked_others (v : Word) :
    { s.ctrlAsked v with ppe := s.ppe, threads := s.threads, freeCount := s.freeCount } = s := by
  unfold State.ctrlAsked
  dsimp only
  split <;> rfl

theorem ctrlAsked_ppe (v : Word) : (s.ctrlAsked v).ppe = { s.ppe with
    te := if s.thr.hypervisor && !ibit v (8 + s.curT.val) then setIbit s.ppe.te s.curT.val false else s.ppe.te,
    run := ibit v 31, th := setIbit s.ppe.th s.curT.val true } := by
  unfold State.ctrlAsked
  dsimp only
  split <;> rfl

theorem threads_ctrlAsked (v : Word) (u : Fin 2) : (s.ctrlAsked v).threads[u] =
    if u ≠ s.curT ∧ (s.thr.hypervisor && ibit v (8 + u.val) && !ibit s.ppe.te u.val) = true
    then { s.threads[u] with resumeReq := true } else s.threads[u] := by
  unfold State.ctrlAsked
  dsimp only
  have ho : u ≠ s.curT ↔ 1 - s.curT = u := by
    generalize s.curT = t
    decide +revert
  split
  next hc =>
    refine (State.threads_modT ..).trans ?_
    by_cases hu : 1 - s.curT = u
    · subst hu
      exact (if_pos rfl).trans (if_pos ⟨ho.2 rfl, hc⟩).symm
    · exact (if_neg hu).trans (if_neg fun h => hu (ho.1 h.1)).symm
  next hc => exact (if_neg fun ⟨hu, h⟩ => hc (ho.1 hu ▸ h)).symm

theorem curT_ctrlAsked (v : Word) : (s.ctrlAsked v).curT = s.curT := by
  unfold State.ctrlAsked
  dsimp only
  split <;> rfl

theorem thr_ctrlAsked (v : Word) : (s.ctrlAsked v).thr = s.thr := by
  refine Eq.trans ?_ ((threads_ctrlAsked v s.curT).trans (if_neg fun h => h.1 rfl))
  exact congrArg (fun u => (s.ctrlAsked v).threads[u]) (curT_ctrlAsked v)

theorem ctrlWritten_ppe (v : Word) : (s.ctrlWritten v).ppe = (s.ctrlAsked v).ppe := by
  unfold State.ctrlWritten
  split <;> rfl

theorem ctrlWritten_others (v : Word) :
    { s.ctrlWritten v with ppe := s.ppe, threads := s.threads, freeCount := s.freeCount } = s := by
  refine Eq.trans ?_ (ctrlAsked_others v)
  unfold State.ctrlWritten
  split <;> rfl

theorem thr_ctrlWritten (v : Word) : (s.ctrlWritten v).thr =
    if ctrlTraceStop s v then { s.thr with srr0 := s.free 64 0, pc := s.free 64 1 } else s.thr.advance := by
  unfold State.ctrlWritten
  split
  next =>
    rw [State.thr_modThr]
    exact congrArg (fun th : Thread => { th with srr0 := s.free 64 0, pc := s.free 64 1 }) (thr_ctrlAsked v)
  next => rw [State.thr_modThr, thr_ctrlAsked]

theorem threads_ctrlWritten_other (v : Word) {u : Fin 2} (hu : u ≠ s.curT) :
    (s.ctrlWritten v).threads[u] = (s.ctrlAsked v).threads[u] := by
  have hother : u ≠ (s.ctrlAsked v).curT := by rwa [curT_ctrlAsked]
  unfold State.ctrlWritten
  split
  next => exact State.threads_modThr_other ((s.ctrlAsked v).drew 2) _ u hother
  next => exact State.threads_modThr_other _ _ u hother

theorem ibit_setIbit_thread (w : BitVec 2) (t u : Fin 2) (b : Bool) :
    ibit (setIbit w t.val b) u.val = if u = t then b else ibit w u.val := by
  rw [ibit_setIbit _ _ _ _ t.isLt u.isLt]
  exact if_congr (by rw [Fin.val_inj, eq_comm]) rfl rfl

/-- What `mtspr` to CTRL does, by the bits of the whole register. -/
theorem writeCtrl_spec (hs : supervisorState s.thr) (v : DWord) :
    let hyper := ibit s.thr.msr 3
    let stops : Prop := hyper = true ∧ ibit v (40 + s.curT.val) = false
    ∃ t, s.writeCtrl (lowWord v) = .next t ∧
      { t with ppe := s.ppe, threads := s.threads, freeCount := s.freeCount } = s ∧
      { t.ppe with te := s.ppe.te, th := s.ppe.th, run := s.ppe.run } = s.ppe ∧ t.ppe.run = ibit v 63 ∧
      (∀ u : Fin 2, (ibit t.ppe.te u.val = true ↔ ibit s.ppe.te u.val = true ∧ ¬(u = s.curT ∧ stops)) ∧
        ibit t.ppe.th u.val = (ibit s.ppe.th u.val || decide (u = s.curT))) ∧
      (∀ u : Fin 2, u ≠ s.curT → t.threads[u] = { s.threads[u] with
        resumeReq := s.threads[u].resumeReq || (hyper && ibit v (40 + u.val) && !ibit s.ppe.te u.val) }) ∧
      { t.thr with pc := s.thr.pc, srr0 := s.thr.srr0 } = s.thr ∧
      (¬(stops ∧ (ibit s.thr.msr 53 = true ∨ ibit s.thr.msr 54 = true)) → t.thr = { s.thr with pc := following s.thr }) := by
  have hhyper : s.thr.hypervisor = ibit s.thr.msr 3 := by 
    unfold Thread.hypervisor Thread.hv Thread.pr
    rw [hs, Bool.not_false, Bool.and_true]
  have hbit (u : Fin 2) : ibit (lowWord v) (8 + u.val) = ibit v (40 + u.val) := by
    rw [ibit_lowWord _ (by omega), ← Nat.add_assoc]
  have hstops : (s.thr.hypervisor && !ibit (lowWord v) (8 + s.curT.val)) = true ↔
      ibit s.thr.msr 3 = true ∧ ibit v (40 + s.curT.val) = false := by
    rw [hhyper, hbit, Bool.and_eq_true, Bool.not_eq_true']
  dsimp only
  rw [writeCtrl_eq]
  refine ⟨_, rfl, ctrlWritten_others _, ?_, ?_, fun u => ⟨?_, ?_⟩, fun u hu => ?_, ?_, fun hno => ?_⟩
  · rw [ctrlWritten_ppe, ctrlAsked_ppe]
  · rw [ctrlWritten_ppe, ctrlAsked_ppe]
    exact ibit_lowWord v (by decide)
  · rw [ctrlWritten_ppe, ctrlAsked_ppe, ← hstops]
    dsimp only
    split
    next h =>
      rw [ibit_setIbit_thread]
      by_cases hu : u = s.curT <;> simp [hu, h]
    next h => simp [h]
  · rw [ctrlWritten_ppe, ctrlAsked_ppe, ibit_setIbit_thread]
    by_cases hu : u = s.curT <;> simp [hu]
  · rw [threads_ctrlWritten_other _ hu, threads_ctrlAsked, hhyper, hbit]
    by_cases h : (ibit s.thr.msr 3 && ibit v (40 + u.val) && !ibit s.ppe.te u.val) = true
    · rw [if_pos ⟨hu, h⟩, h, Bool.or_true]
    · rw [if_neg fun hasked => h hasked.2, Bool.eq_false_iff.mpr h, Bool.or_false]
  · rw [thr_ctrlWritten]
    split <;> rfl
  · have htrace : ¬ctrlTraceStop s (lowWord v) = true := by
      unfold ctrlTraceStop
      rw [Bool.and_eq_true, hstops, Bool.or_eq_true]
      exact hno
    rw [thr_ctrlWritten, if_neg htrace, advance_eq]

/-! ## The time base -/

theorem onlyShared_sprShared (s : State) (f : PpeShared → PpeShared) :
    ∃ t, sprShared s f = .next t ∧ OnlyShared s t ∧ t.ppe = f s.ppe :=
  ⟨_, rfl, ⟨rfl, (State.thr_modThr ..).trans (advance_eq _), fun u hu => State.threads_modThr_other _ _ u hu⟩, rfl⟩

theorem toNat_lowerHalf (tb v : DWord) : (ibm tb 0 32 ++ lowWord v).toNat = tb.toNat / 2^32 * 2^32 + v.toNat % 2^32 := by
  rw [toNat_append_eq, toNat_lowWord, ← toNat_ibm_high, BitVec.toNat_setWidth_of_le (by decide)]

theorem toNat_upperHalf (tb v : DWord) : (lowWord v ++ ibm tb 32 32).toNat = v.toNat % 2^32 * 2^32 + tb.toNat % 2^32 := by
  rw [toNat_append_eq, toNat_lowWord, toNat_ibm_low tb rfl]

/-! ## TSRL and the image of CTRL -/

theorem setPriority_tsrlTp (th : Thread) (p : PpeShared) (want : BitVec 2) :
    (priorityAllowed p th want → (th.setPriority p want).tsrlTp = want) ∧
      (¬priorityAllowed p th want → (th.setPriority p want).tsrlTp = th.tsrlTp) := by
  have hallowed : (want ≠ 0 ∧ (th.hypervisor || (!th.pr && (ibit p.tscr 15 || (ibit p.tscr 16 && decide (want ≠ 0b11)))) ||
      (th.pr && ibit p.tscr 16 && decide (want ≠ 0b11))) = true) ↔ priorityAllowed p th want := by
    unfold priorityAllowed hypervisorState Thread.hypervisor Thread.hv Thread.pr
    cases ibit th.msr 49 <;> simp
  unfold Thread.setPriority
  dsimp only
  rw [← hallowed]
  exact ⟨fun h => by rw [if_pos h], fun h => by rw [if_neg h]⟩

theorem ibm_tsrImage (tp : BitVec 2) (fwdp : BitVec 20) : ibm (tsrImage tp fwdp) 11 2 = tp := by
  apply eq_of_ibit_eq
  intro k hk
  rw [ibit_ibm _ hk (by decide), tsrImage, ibit_setIbm _ _ (by decide) (by omega), if_neg (by omega),
    ibit_setIbm _ _ (by decide) (by omega), if_pos (by omega), Nat.add_sub_cancel_left]

theorem ibit_setWidth_word (w : Word) {b : Nat} (hb : b < 64) :
    ibit (w.setWidth 64) b = (decide (32 ≤ b) && ibit w (b - 32)) := by
  unfold ibit
  rw [BitVec.getLsbD_setWidth, decide_eq_true (by omega), Bool.true_and]
  by_cases h : 32 ≤ b
  · rw [decide_eq_true h, Bool.true_and]
    congr 1
    omega
  · rw [decide_eq_false h, Bool.false_and, BitVec.getLsbD_of_ge _ _ (by omega)]

theorem ibit_currentThread (t : Fin 2) {k : Nat} (hk : k < 2) : ibit (if t = 0 then 0b10 else 0b01 : BitVec 2) k = decide (k = t.val) := by
  decide +revert

theorem ibit_ctrlImage (p : PpeShared) (t : Fin 2) {b : Nat} (hb : b < 64) : ibit ((ctrlImage p t).setWidth 64) b =
    (decide (b = 32 ∧ t = 0 ∨ b = 33 ∧ t = 1) || (decide (b = 40 ∨ b = 41) && ibit p.te (b - 40)) ||
      (decide (b = 48 ∨ b = 49) && ibit p.th (b - 48)) || (decide (b = 63) && p.run)) := by
  rw [ibit_setWidth_word _ hb]
  by_cases hlow : 32 ≤ b
  · obtain ⟨k, rfl⟩ := Nat.exists_eq_add_of_le hlow
    have hk : k < 32 := by omega
    have hct : (32 + k = 32 ∧ t = 0 ∨ 32 + k = 33 ∧ t = 1) ↔ k < 2 ∧ k = t.val := by omega
    have hte : (32 + k = 40 ∨ 32 + k = 41) ↔ 8 ≤ k ∧ k < 8 + 2 := by omega
    have hth : (32 + k = 48 ∨ 32 + k = 49) ↔ 16 ≤ k ∧ k < 16 + 2 := by omega
    rw [decide_eq_true hlow, Bool.true_and, Nat.add_sub_cancel_left, ctrlImage, ibit_setIbit _ _ _ _ (by decide) hk,
      ibit_setIbm _ _ (by decide) hk, ibit_setIbm _ _ (by decide) hk, ibit_setIbm _ _ (by decide) hk, ibit_zero,
      show 32 + k - 40 = k - 8 by omega, show 32 + k - 48 = k - 16 by omega]
    simp only [hct, hte, hth]
    have hcur (h : k < 2) := ibit_currentThread t h
    grind
  · have h (c : Nat) (hc : 32 ≤ c) : b ≠ c := by omega
    simp [hlow, h]

/-! ## All of them -/

theorem keeps_self (th : Thread) : Keeps {} th th := keeps_gpr fun _ _ => rfl

theorem completes_mtspr_tsrl (r : BitVec 5) : Completes (.ppeMtspr r 896) s { prio := true } fun t =>
    (priorityAllowed s.ppe s.thr (ibm (s.thr.getGpr r) 11 2) → t.thr.tsrlTp = ibm (s.thr.getGpr r) 11 2) ∧
      (¬priorityAllowed s.ppe s.thr (ibm (s.thr.getGpr r) 11 2) → t.thr.tsrlTp = s.thr.tsrlTp) := by
  have hsame := Thread.setPriority_eq s.thr s.ppe (ibm (s.thr.getGpr r) 11 2)
  refine Laws.completes_of_ppeNext 0 (fun th => th.setPriority s.ppe (ibm (s.thr.getGpr r) 11 2)) rfl
    ((keeps_self s.thr).setPriority _ _) (hsame ▸ rfl) (hsame ▸ rfl) fun t ht => ?_
  rw [ht]
  exact setPriority_tsrlTp ..

theorem traps_of_no_spr {i : Instr} {n : Nat} {p : Option Priv} {o : Out State} (he : Machine.exec i s = sprAccess s n p o)
    (hp : p = none) : Traps i s 0x700 (if ibit s.thr.msr 49 && decide (n / 16 % 2 = 1) then 0x40000 else 0x80000) := by
  subst hp
  exact traps_of_raise 0 (he.trans (apply_ite (s.raise .program) ..).symm)

theorem completes_mfspr_plain {n level : Nat} {mask x : DWord} (hp : PlainSpr n level mask) (ha : mayAccess s.thr level)
    (hx : s.readSpr n = (x, 0)) (rt : BitVec 5) :
    Completes (.ppeMfspr rt (BitVec.ofNat 10 n)) s { gpr := [rt] } fun t => t.thr.getGpr rt = x := by
  have he := (exec_mfspr_plain hp rt).trans (sprAccess_allowed ha)
  rw [hx] at he
  exact completes_of_setGpr 0 he rfl fun t ht => ht

/-- Settles O15: a write of a plain register is a `set` in the table of their values; the others by the arm of `writeSpr`. -/
theorem specialRegistersAreCheckedAndHold : Obligations.SpecialRegistersAreCheckedAndHold := by
  refine ⟨fun n level mask hp rs rt s ha h6 => ?_, fun r s => ⟨fun ha hne hlarge => ?_, fun n level mask hp ha => ⟨?_, ?_⟩,
    fun n hn => ?_, fun n hn => ?_, fun h49 => ?_, fun ha => ?_, fun hs => ?_, fun hh => ?_, ?_, ?_, ?_⟩⟩
  · obtain ⟨t, he, hmem, hspes, hplat, hothers, hview, hframe, hown⟩ :=
      (writeSpr_plain hp (s.thr.getGpr rs) h6).next (mem_plainNumbers hp)
    simp only [programView, Prod.mk.injEq] at hview
    obtain ⟨hgpr, hfpr, hvr, hcr, hmsr, hpc⟩ := hview
    exact ⟨t, (exec_mtspr_plain hp rs).trans ((sprAccess_allowed ha).trans he), hmem, hspes, hplat, hothers, hgpr, hfpr, hvr, hcr,
      hmsr, hpc, fun n' _ _ hp' hne => hframe n' (mem_plainNumbers hp') hne,
      completes_mfspr_plain hp ((mayAccess_congr hmsr).2 ha) hown rt⟩
  · exact (sprAccess_allowed (n := 1017) ha).trans (writeHid6_refused hne hlarge)
  · exact traps_of_raise 0 ((exec_mtspr_plain hp r).trans (sprAccess_lacking ha))
  · exact traps_of_raise 0 ((exec_mfspr_plain hp r).trans (sprAccess_lacking ha))
  · exact traps_of_no_spr (p := sprWritePriv n.toNat) rfl hn
  · exact traps_of_no_spr (p := sprReadPriv n.toNat) rfl hn
  · exact traps_of_raise 0 (supervisor_problem h49)
  · exact ⟨traps_of_raise 0 (sprAccess_lacking (n := 284) ha), traps_of_raise 0 (sprAccess_lacking (n := 285) ha)⟩
  · obtain ⟨t, he, hspec⟩ := writeCtrl_spec hs (s.thr.getGpr r)
    exact ⟨t, (supervisor_allowed hs).trans he, hspec⟩
  · obtain ⟨t, he, hshared, hppe⟩ := onlyShared_sprShared s fun p => { p with tb := ibm p.tb 0 32 ++ lowWord (s.thr.getGpr r) }
    obtain ⟨u, he', hshared', hppe'⟩ := onlyShared_sprShared s fun p => { p with tb := lowWord (s.thr.getGpr r) ++ ibm p.tb 32 32 }
    refine ⟨⟨t, (hypervisorOnly_allowed hh).trans he, hshared, by rw [hppe], ?_⟩,
      u, (hypervisorOnly_allowed hh).trans he', hshared', by rw [hppe'], ?_⟩
    · rw [hppe]
      exact toNat_lowerHalf ..
    · rw [hppe']
      exact toNat_upperHalf ..
  · exact completes_mtspr_tsrl r
  · exact completes_of_setGpr 1 rfl rfl fun t ht => (congrArg (ibm · 11 2) ht).trans (ibm_tsrImage ..)
  · exact completes_of_setGpr 0 rfl rfl fun t ht b hb => (congrArg (ibit · b) ht).trans (ibit_ctrlImage _ _ hb)

end Sys2Proof.Machine
end

section
/-! Barriers, touches, cache-block operations and `dcbz` (O18). -/

namespace Sys2Proof.Machine
open Sys2Proof.Safety

variable {s t u : State}

/-! ## The other thread's reservation -/

/-- A cache-block operation may end the reservation of the other thread. -/
theorem threads_noteTouch (s : State) (g : Nat) (v : Fin 2) : (s.noteTouch g).threads[v] = s.threads[v] ∨
    v ≠ s.curT ∧ (s.noteTouch g).threads[v] = s.threads[v].loseReserve g := by
  have hother : 1 - s.curT ≠ s.curT := by
    generalize s.curT = w
    decide +revert
  unfold State.noteTouch
  dsimp only
  split
  · split
    · have hmod := State.threads_modT s (1 - s.curT) v fun th => th.loseReserve g
      split at hmod
      next hv => exact .inr ⟨hv ▸ hother, hmod.trans (hv ▸ rfl)⟩
      next => exact .inl hmod
    · exact .inl rfl
  · exact .inl rfl

theorem noteTouch_others (s : State) (g : Nat) :
    { s.noteTouch g with threads := s.threads, freeCount := s.freeCount } = s := by
  unfold State.noteTouch
  dsimp only
  split
  · split <;> rfl
  · rfl

theorem noteTouch_reserve (s : State) (g : Nat) (v : Fin 2) :
    { (s.noteTouch g).threads[v] with reserve := s.threads[v].reserve } = s.threads[v] := by
  obtain he | ⟨-, he⟩ := threads_noteTouch s g v <;> rw [he]
  exact Thread.loseReserve_keeps ..

theorem curT_noteTouch (s : State) (g : Nat) : (s.noteTouch g).curT = s.curT := by
  have hcur : (s.noteTouch g).cur = s.cur := (congrArg State.cur (noteTouch_others s g) :)
  rw [State.curT, State.curT, hcur]

theorem thr_noteTouch (s : State) (g : Nat) : (s.noteTouch g).thr = s.thr := by
  refine (congrArg (fun v : Fin 2 => (s.noteTouch g).threads[v]) (curT_noteTouch s g)).trans ?_
  obtain he | ⟨hne, -⟩ := threads_noteTouch s g s.curT
  · exact he
  · exact absurd rfl hne

/-! ## What a hint may change of the threads -/

/-- From `s` to `t` no register of a thread changes; a reservation may end, and a TLB miss may leave its hint. -/
structure OnlyHints (s t : State) : Prop where
  cur : t.cur = s.cur
  threads : ∀ v : Fin 2, { t.threads[v] with reserve := s.threads[v].reserve, tlbHint := s.threads[v].tlbHint } = s.threads[v]

namespace OnlyHints

theorem refl (s : State) : OnlyHints s s := ⟨rfl, fun _ => rfl⟩

theorem trans (h : OnlyHints s t) (h' : OnlyHints t u) : OnlyHints s u := by
  refine ⟨h'.cur.trans h.cur, fun v => ?_⟩
  rw [← h.threads v, ← h'.threads v]

theorem curT_eq (h : OnlyHints s t) : t.curT = s.curT := by
  rw [State.curT, State.curT, h.cur]

theorem own (h : OnlyHints s t) : { t.thr with reserve := s.thr.reserve, tlbHint := s.thr.tlbHint } = s.thr := by
  have hthr : t.thr = t.threads[s.curT] := congrArg (fun v : Fin 2 => t.threads[v]) h.curT_eq
  rw [hthr]
  exact h.threads _

theorem drew (s : State) (k : Nat) : OnlyHints s (s.drew k) := ⟨rfl, fun _ => rfl⟩

theorem setTlb (s : State) (key : Nat) (x : TlbEntry) : OnlyHints s (s.setTlb key x) := ⟨rfl, fun _ => rfl⟩

theorem setHint (s : State) (v : Fin 2) (x : DWord) : OnlyHints s (s.modT v fun th => { th with tlbHint := x }) := by
  refine ⟨rfl, fun w => ?_⟩
  rw [State.threads_modT]
  split
  next h => exact h ▸ rfl
  next => rfl

theorem noteStore (s : State) (b : Option Agent) (g : Nat) : OnlyHints s (s.noteStore b g) := by
  refine ⟨rfl, fun v => ?_⟩
  obtain he | he := State.threads_noteStore s b g v <;> rw [he]
  exact congrArg (fun th : Thread => { th with tlbHint := s.threads[v].tlbHint }) (Thread.loseReserve_keeps ..)

theorem storeMem (s : State) (b : Option Agent) (a len v : Nat) : OnlyHints s (s.storeMem b a len v) := by
  unfold State.storeMem State.noteStores
  dsimp only
  have hmem : OnlyHints s { s with mem := writeBytes s.mem a v len } := ⟨rfl, fun _ => rfl⟩
  split
  · exact hmem.trans (noteStore ..)
  · exact hmem.trans ((noteStore ..).trans (noteStore ..))

theorem setPteBits (s : State) (b : Agent) (a : Nat) (d bits : DWord) : OnlyHints s (s.setPteBits b a d bits) := by
  unfold State.setPteBits
  split
  · exact refl s
  · exact (drew s 1).trans (storeMem ..)

theorem noteTouch (s : State) (g : Nat) : OnlyHints s (s.noteTouch g) := by
  refine ⟨(congrArg State.cur (noteTouch_others s g) :), fun v => ?_⟩
  exact congrArg (fun th : Thread => { th with tlbHint := s.threads[v].tlbHint }) (noteTouch_reserve s g v)

end OnlyHints

/-! ## Translation -/

section
variable {ea : DWord} {k : Kind} {q : Page}

theorem pageOrRefuse_page {x : TlbEntry} {e : SlbEntry} {p : Nat} {slot pte : Option Nat}
    (h : pageOrRefuse s x e ea p slot pte = .page q t) : t = s := by
  unfold pageOrRefuse at h
  split at h
  · cases h
  · cases h
    rfl

theorem onlyHints_reload {v : Fin 2} {e : SlbEntry} {p key : Nat} (h : reload s v e ea p key = .page q t) : OnlyHints s t := by
  unfold reload at h
  dsimp only at h
  split at h
  · cases h
  · cases h
  · rw [pageOrRefuse_page h]
    exact (OnlyHints.setPteBits ..).trans (.setTlb ..)

theorem onlyHints_virtualMode {v : Fin 2} {th : Thread} (h : virtualMode s v th ea k = .page q t) : OnlyHints s t := by
  unfold virtualMode at h
  split at h
  · cases h
  · split at h
    · cases h
    · dsimp only at h
      split at h
      · rw [pageOrRefuse_page h]
        exact .refl s
      · generalize s.tlbVictim _ _ = key at h
        split at h
        · cases h
        · have hr := onlyHints_reload h
          exact ((OnlyHints.drew s 1).trans (.setHint _ v _)).trans hr
  · cases h

theorem realMode_page {th : Thread} (h : realMode s th ea k = .page q t) : t = s := by
  unfold realMode at h
  dsimp only at h
  split at h
  · cases h
    rfl
  · split at h
    · cases h
    · split at h
      · cases h
      · cases h
        rfl

/-- A translation that gives a page may have reloaded the TLB; it leaves the registers of both threads. -/
theorem onlyHints_lookup {v : Fin 2} (h : lookup s v ea k = .page q t) : OnlyHints s t := by
  unfold lookup at h
  dsimp only at h
  split at h
  · cases h
    exact .refl s
  · generalize (if k = .fetch then _ else _) = translates at h
    split at h
    · exact onlyHints_virtualMode h
    · rw [realMode_page h]
      exact .refl s

end

/-! ## Touches -/

/-- The state of a touch before it goes on. -/
def touched (s : State) (th : BitVec 4) (ea : DWord) (store : Bool) : State :=
  if touchIgnored th || s.ppe.forceG || ibit s.ppe.hid4 16 || s.ppe.tl then s
  else if s.free 1 0 = 1 then
    match lookup (s.drew 1) s.curT (s.thr.truncEa ea) .load with
    | .page p s' =>
      if store && permits s.thr.pr p false && !(p.i || s.ppe.forceCi) && !p.g then s'.noteTouch (p.ra / 128) else s'
    | _ => s.drew 1
  else s.drew 1

theorem touch_eq (th : BitVec 4) (ea : DWord) (store : Bool) : touch s th ea store = ppeNext (touched s th ea store) id := rfl

theorem onlyHints_touched (th : BitVec 4) (ea : DWord) (store : Bool) : OnlyHints s (touched s th ea store) := by
  unfold touched
  split
  · exact .refl s
  · split
    · split
      next h =>
        have hl := (OnlyHints.drew s 1).trans (onlyHints_lookup h)
        split
        · exact hl.trans (.noteTouch ..)
        · exact hl
      next => exact .drew s 1
    · exact .drew s 1

/-- The forms of a touch that change nothing. -/
theorem touched_cancelled {th : BitVec 4} (ea : DWord) (store : Bool)
    (h : (touchIgnored th || s.ppe.forceG || ibit s.ppe.hid4 16 || s.ppe.tl) = true) : touched s th ea store = s := if_pos h

theorem completes_onward {i : Instr} (he : Machine.exec i s = ppeNext s id) : Completes i s {} fun _ => True :=
  Laws.completes_of_ppeNext 0 id he (keeps_self _) rfl rfl fun _ _ => trivial

theorem exec_touch {i : Instr} (h : Touch i) (s : State) : ∃ th ea store, Machine.exec i s = ppeNext (touched s th ea store) id := by
  cases h with
  | dcbt th ra rb => exact ⟨th, _, false, touch_eq ..⟩
  | dcbtst ra rb => exact ⟨0, _, true, touch_eq ..⟩

theorem onlyHints_next (h : OnlyHints s t) : (t.modThr Thread.advance).thr.pc = following s.thr ∧
    Keeps {} s.thr { (t.modThr Thread.advance).thr with reserve := s.thr.reserve, tlbHint := s.thr.tlbHint } := by
  have hown := h.own
  have hadvance : { t.thr.advance with reserve := s.thr.reserve, tlbHint := s.thr.tlbHint } = s.thr.advance :=
    congrArg Thread.advance hown
  have hpc : t.thr.advance.pc = s.thr.advance.pc := by
    have h := congrArg Thread.pc hadvance
    exact h
  rw [State.thr_modThr, hadvance, hpc]
  exact ⟨Laws.following_advance _, keeps_advance (keeps_self _)⟩

/-! ## Cache-block operations -/

theorem cacheOp_ordinary {ra rb : BitVec 5} {p : Page} {f : Nat → State → State}
    (h : Ordinary s (s.thr.truncEa (eaX ra rb s.thr)) 1 false p) :
    cacheOp s (s.thr.eaX ra rb) f = .next ((f p.ra s).modThr Thread.advance) := by
  unfold cacheOp
  dsimp only
  rw [show s.thr.eaX ra rb = eaX ra rb s.thr from rfl, dataPiece_ordinary h rfl rfl]
  rfl

/-- The state after a cache-block operation that may have ended the reservation of the other thread. -/
theorem noteTouch_next (s : State) (g : Nat) :
    let t := (s.noteTouch g).modThr Thread.advance
    t.thr = s.thr.advance ∧ t.spes = s.spes ∧ t.plat = s.plat ∧ t.mem = s.mem ∧ t.ppe = s.ppe ∧
      ∀ u : Fin 2, u ≠ s.curT → { t.threads[u] with reserve := s.threads[u].reserve } = s.threads[u] := by
  have hothers := noteTouch_others s g
  refine ⟨?_, (congrArg State.spes hothers :), (congrArg State.plat hothers :), (congrArg State.mem hothers :),
    (congrArg State.ppe hothers :), fun u hu => ?_⟩
  · rw [State.thr_modThr, thr_noteTouch]
  · rw [State.threads_modThr_other _ _ u (curT_noteTouch s g ▸ hu)]
    exact noteTouch_reserve s g u

theorem icbiLine_icache {ra : Nat} {x : Nat × Nat} (h : x ∈ (s.icbiLine ra).ppe.icache) : x ∈ s.ppe.icache ∧ x.1 ≠ ra / 128 := by
  obtain ⟨hmem, hkeep⟩ := List.mem_filter.1 h
  refine ⟨hmem, fun heq => ?_⟩
  rw [heq] at hkeep
  simp at hkeep

/-! ## `dcbz` -/

theorem dcbz_ordinary {ra rb : BitVec 5} {p : Page} (hc : ibm s.ppe.hid4 8 4 ≠ (0 : BitVec 4)) (hi : inhibited s p = false)
    (h : Ordinary s (s.thr.truncEa (eaX ra rb s.thr) &&& ~~~127#64) 128 true p) :
    Machine.exec (.ppeDcbz ra rb) s = ppeNext (s.storeMem (some s.cur) p.ra 128 0) id := by
  have hal : (alignDcbz s).after p (inhibited s p) = false := by
    rw [hi]
    exact decide_eq_false hc
  change ((dataPiece s _ (s.thr.truncEa (eaX ra rb s.thr) &&& ~~~127#64) 128 true (alignDcbz s)).done _) = _
  rw [dataPiece_ordinary h rfl hal]
  change ((realStore s _ 128 0).done _) = _
  unfold realStore
  rw [regionAt_dram _ h.dram]
  rfl

/-- Settles O18: each instruction by its one equation (`exec_touch`, `cacheOp_ordinary`, `dcbz_ordinary`), the touches by what a
translation may change of the threads. -/
theorem barriersAndCacheInstructions : Obligations.BarriersAndCacheInstructions := by
  refine ⟨fun i hi s hm => ?_, fun l hl s hm hme => ?_, fun i hi s => ?_, fun th ra rb h0 h8 h10 s => ?_, fun i ra rb hi s p ho => ?_,
    fun ra rb s p hw hc hi ho => ?_⟩
  · cases hi with
    | eieio | isync => exact completes_onward rfl
    | sync l =>
      by_cases hl : l = 1
      · exact completes_onward (if_pos hl)
      · exact completes_onward ((if_neg hl).trans (afterSync_none (hm l rfl hl)))
  · exact takesMachineCheck_of_afterSync (if_neg hl) hm hme
  · obtain ⟨th, ea, store, he⟩ := exec_touch hi s
    obtain ⟨hpc, hk⟩ := onlyHints_next (onlyHints_touched th ea store)
    refine ⟨_, he, hpc, hk, fun hcancel => ?_⟩
    have hany : (touchIgnored th || (s.ppe.forceG || ibit s.ppe.hid4 16 || s.ppe.tl)) = true := (congrArg _ hcancel).trans (Bool.or_true _)
    rw [← Bool.or_assoc, ← Bool.or_assoc] at hany
    rw [touched_cancelled ea store hany] at he
    exact completes_onward he
  · refine completes_onward (congrArg (ppeNext · id) (touched_cancelled _ false ?_))
    have hform : touchIgnored th = true := by
      rw [touchIgnored, Bool.and_eq_true, Bool.and_eq_true, bne_iff_ne, bne_iff_ne]
      exact ⟨⟨h0, h8⟩, h10⟩
    rw [hform, Bool.true_or, Bool.true_or, Bool.true_or]
  · cases hi with
    | dcbst | dcbf =>
      obtain ⟨hthr, hspes, hplat, hmem, hppe, hothers⟩ := noteTouch_next s (p.ra / 128)
      exact ⟨_, cacheOp_ordinary (f := fun a s => s.noteTouch (a / 128)) ho, hthr ▸ keeps_advance (keeps_self _),
        hthr ▸ Laws.following_advance _, hspes, hplat, fun _ => congrArg (readByte · _) hmem, hothers, by rw [hppe], nofun⟩
    | icbi =>
      have hthr : ((s.icbiLine p.ra).modThr Thread.advance).thr = s.thr.advance := State.thr_modThr ..
      refine ⟨_, cacheOp_ordinary (f := fun a s => s.icbiLine a) ho, hthr ▸ keeps_advance (keeps_self _),
        hthr ▸ Laws.following_advance _, rfl, rfl, fun _ => rfl, fun u hu => ?_, rfl, fun _ x hx => icbiLine_icache hx⟩
      rw [State.threads_modThr_other (s.icbiLine p.ra) _ u hu]
      rfl
  · refine (Stored.one hw (some s.cur) 0 fun j _ => ?_).completes (dcbz_ordinary hc hi ho) (fun g => rfl) (keeps_self _) rfl rfl
      fun _ _ => trivial
    exact congrArg (BitVec.ofNat 8) (Nat.zero_div _)

end Sys2Proof.Machine
end
